-- ==== Sys2Proof/Word.lean ====
section
/-! DEFINITION. The word of the vendor's own formats (R7: 32 bits), the byte, and the sparse table that holds every
collection keyed by a number. A table is a list of (key, value) pairs; its canonical form has the keys strictly rising. -/
namespace Sys2Proof

/-- A word is 32 bits (R7). -/
abbrev Word := BitVec 32
/-- A byte. -/
abbrev Byte := BitVec 8
/-- A sparse table: keys strictly rising in the canonical form. -/
abbrev Tab (α : Type) := List (Nat × α)

end Sys2Proof
end

