-- ==== Sys2Proof/Machine/StateMod.lean ====
section
/-! DEFINITION. State of the MOD and PWR desks: pins, feeds, hold-up reserve, slot power, clocks, modes, Letterbox doors,
Service Endpoint, Service DMA and counters (chapters 2, 3, 4, 19, 21 and 23). The value after each field is its value at reset. -/
namespace Sys2Proof.Machine

/-- The six modes (R23, Table 4.5; codes 0–5 in this order). -/
inductive Mode where
  | boot | standby | active | fenced | maintenance | drowse
  deriving DecidableEq, Repr

/-- Boot stages (Table 4.11 BSTAGE). -/
inductive BootStage where
  | alwaysOn | rails | flash | selftest | dram | kumel | enum | pairing | done | holdStrap | holdFlash
  deriving DecidableEq, Repr

/-- Restart causes (Table 4.2, codes 1–7 in this order). -/
inductive Cause where
  | powerOn | holdup | thermal | command | fatal | update | reseat
  deriving DecidableEq, Repr

/-- Kumel as the doors see it (R155, R157). -/
inductive KumelState where
  | notStarted | running | restarting | stopped
  deriving DecidableEq, Repr

/-- Drowse entry and exit (Table 4.7, R151). -/
inductive DrowsePhase where
  | none | quiesce | drivesLow | exiting
  deriving DecidableEq, Repr

/-- Input pins of block C (Table 2.5). -/
structure Pins where
  seated   : Bool := false       -- @ 1 | 02 R38, R41 | SEATED_N low | DC unseated
  bayId    : Bool := true        -- @ 1 | 02 R38 Table 2.7 | BAY_ID open (pulled up, R59) | DC open
  bayIdChk : Bool := true        -- @ 1 | 02 R38 Table 2.7 | BAY_ID_CHK open (pulled up, R59) | DC open
  strap    : Nat  := 0           -- @ 2 | 02 R40 | STRAP[1:0] | DC 0
  perstN   : Bool := false       -- @ 1 | 02 R61 | PERST_N level | low (R61, 100 kΩ pull to GND)
  mateInN  : Bool := true        -- @ 1 | 02 Table 2.5 | MATE_IN_N level | high (R59, pulled up)
  deriving DecidableEq, Repr

/-- What the module sampled at seating (R38, R40, R130). -/
structure BayCode where
  valid : Bool := false          -- @ 1 | 02 R38, R39 | bay decode valid | DC not yet sampled
  bay   : Nat  := 0              -- @ 1 | 02 R38 | decoded bay | DC 0
  form  : Nat  := 0              -- @ 2 | 02 R40 | STRAP[1:0] sampled | DC 0
  sampled : Bool := false        -- @ 1 | 02 R38 | pins sampled since the always-on domain started | false
  deriving DecidableEq, Repr

/-- One feed path (Table 2.8). -/
structure Feed where
  good   : Bool := false         -- @ 1 | 02 R44 | feed good | not good (no feed before FEED_GOOD)
  closed : Bool := false         -- @ 1 | 02 R44–R48 | ORing path closed | open
  ov     : Bool := false         -- @ 1 | 02 R44 | path held open on overvoltage | false
  mv     : Nat  := 0             -- @ 16 | 03 Table 3.11 V1, V2 | last measured voltage, mV | DC 0
  cur    : Nat  := 0             -- @ 16 | 03 Table 3.11 I1, I2 | last measured current, 10 mA units | DC 0
  deriving DecidableEq, Repr

/-- Why the front end holds both paths open (R47, R48). -/
inductive FeLatch where
  | none | chargeRetry | chargeOff | tripped
  deriving DecidableEq, Repr

/-- The front end (R44–R50, R938). -/
structure FrontEnd where
  f1       : Feed := {}          -- @ record | 02 R44 | FEED1 | open, not good
  f2       : Feed := {}          -- @ record | 02 R44 | FEED2 | open, not good
  charged  : Bool := false       -- @ 1 | 02 R45 | the bulk bus has ended its charge | false
  charging : Bool := false       -- @ 1 | 02 R45 | the bulk bus is charging | false
  fails    : Nat  := 0           -- @ 2 | 02 R47 | failed charges in a row | 0
  latch    : FeLatch := .none    -- @ 4 values | 02 R47, R48 | why both paths are held open | none
  retryDue : Nat := 0            -- @ 64 | 02 R47 | always-on time of the charge retry | 0
  holdup   : Bool := false       -- @ 1 | 02 R52, R53 | in hold-up | false
  coreOn   : Bool := false       -- @ 1 | 02 R65, R938 | the core is powered | false
  leverOpen : Bool := false      -- @ 1 | 02 R48 | the lever was opened since the latch | false
  deriving DecidableEq, Repr

/-- The hold-up reserve (R51, R55, R57). -/
structure Reserve where
  usable   : Nat  := 0           -- @ 16 | 02 R51, 03 Table 3.11 RES | usable energy, J | DC 0 (empty)
  ready    : Bool := false       -- @ 1 | 02 R57 | 110 J usable reached and held | false
  waiting  : Bool := true        -- @ 1 | 02 R57 | charging, before the first of ready and the 20 s wait | true
  low      : Bool := false       -- @ 1 | 02 R57 | reported low | false
  testLow  : Bool := false       -- @ 1 | 02 R57 | last capacity test gave less than 110 J | false
  chargeLow : Bool := false      -- @ 1 | 02 R57 | present charge gives less than 110 J | false
  testing  : Bool := false       -- @ 1 | 02 R51 | a capacity test runs | false
  bootTest : Bool := false       -- @ 1 | 02 R51 | the capacity test of this Boot has still to start | false
  testAt  : Option Nat := none   -- @ 64 | 02 R51 | always-on time the last capacity test started | none
  lastTest : Option Nat := none  -- @ 64 | 03 Table 3.11 TESTAGE | always-on time of the last completed test | none
  charger  : Bool := false       -- @ 1 | 02 R51 | the charger runs | off until Boot
  deriving DecidableEq, Repr

/-- Junction temperature and its thresholds (R64, R65). -/
structure Thermal where
  tj       : BitVec 16 := 0      -- @ 16 | 04 Table 4.11 TJ | junction temperature, 0.125 °C, two's complement | DC 0
  armed    : Bool := true        -- @ 1 | 02 R64 | the warning may be raised | armed (R64)
  shutdown : Bool := false       -- @ 1 | 02 R65 | core powered down for heat | false
  report   : Bool := false       -- @ 1 | 04 Table 4.12 event 9 | MOD.THERMAL_SHUTDOWN due at the next Boot | false
  deriving DecidableEq, Repr

/-- Slot states (Table 3.2, codes 0–9 in this order). -/
inductive SlotState where
  | empty | debounce | queued | ramp | on | join | retryWait | lockout | disabled | partnerOnly
  deriving DecidableEq, Repr

/-- Probe outcomes (Table 3.9 PROBE, codes 0–4 in this order). -/
inductive Probe where
  | none | empty | present | uncertain | partnerFed
  deriving DecidableEq, Repr

/-- Where a slot stands between its admission and its ramp (R85). -/
inductive RampWait where
  | no | resample
  deriving DecidableEq, Repr

/-- What follows the 10 ms stage-off delay (R91, R110). -/
inductive OffThen where
  | disabled | queued
  deriving DecidableEq, Repr

/-- Slot protection settings (Table 3.3). -/
structure Limits where
  ilim  : Nat := 12              -- @ 5 | 03 R93 | current limit, 0.25 A | 3.0 A
  iinr  : Nat := 4               -- @ 4 | 03 R93 | inrush limit, 0.25 A | 1.0 A
  tinr  : Nat := 40              -- @ 7 | 03 R93 | inrush timer, ms | 40
  ifast : Nat := 12              -- @ 5 | 03 R93 | fast trip, A | 12
  retry : Nat := 10              -- @ 7 | 03 R93 | retry period, 0.1 s | 1.0 s
  allot : Nat := 25              -- @ 7 | 03 R93 | allotment, W | 25
  deriving DecidableEq, Repr

/-- One slot (Tables 3.2, 3.9; R66–R111). -/
structure Slot where
  state   : SlotState := .empty  -- @ 4 | 03 R75 | slot state | EMPTY (04 Restarts)
  probe   : Probe := .none       -- @ 3 | 03 Table 3.9 | last probe outcome | none
  set     : Limits := {}         -- @ record | 03 R93 | settings as commanded | Table 3.3 defaults
  act     : Limits := {}         -- @ record | 03 R118 | settings in force | Table 3.3 defaults
  hist    : List Nat := []       -- @ list | 03 R97 | always-on times of trips in the last 60 s | empty (04 Restarts)
  cause   : Nat := 0             -- @ 3 | 03 R94 | last trip cause | 0 none
  lastTrip : Option Nat := none  -- @ 64 | 03 Table 3.9 LASTTRIP | always-on time of the last trip | none
  probedAt : Option Nat := none  -- @ 64 | 03 R66 | always-on time of the last probe | none
  queuedAt : Nat := 0            -- @ 64 | 03 R107 | always-on time of its arrival in the admission queue | DC 0
  presentAt : Option Nat := none -- @ 64 | 03 R72 | always-on time of the first present result of the run | none
  empties : Nat := 0             -- @ 2 | 03 R73 | consecutive empty outcomes | 0
  pullArmed : Bool := false      -- @ 1 | 03 R73 | found present or partner-fed since the last pull | false
  pulled  : Bool := false        -- @ 1 | 03 R99 | a pull has been recognised and nothing found since | false
  retryDue : Nat := 0            -- @ 64 | 03 R96 | always-on time the retry timer expires | DC 0
  rampDue : Nat := 0             -- @ 64 | 03 R94 | always-on time the inrush timer expires | DC 0
  wait    : RampWait := .no      -- @ 2 values | 03 R85 | waiting for the second sample | no
  stage   : Bool := false        -- @ 1 | 03 R75 | the stage is on or limiting | off
  rstHigh : Bool := false        -- @ 1 | 03 R81, R84 | SLPERST_N high | low
  rstDue  : Nat := 0             -- @ 64 | 03 R84 | always-on time SLPERST_N may go high | DC 0
  offDue  : Option (Nat × OffThen) := none -- @ record | 03 R91, R110 | stage-off delay running | none
  admitAt : Nat := 0             -- @ 64 | 03 R110 | order of the last admission | DC 0
  shed    : Bool := false        -- @ 1 | 03 R110 | shed under R110 and not admitted since | false
  waited  : Bool := false        -- @ 1 | 03 Table 3.13 | its admission waits for budget | false
  energy  : Nat := 0             -- @ 50 | 03 Table 3.13 | energy delivered below the last whole joule, fJ | 0
  fedBy   : Bool := false        -- @ 1 | 03 R105, Table 3.9 SHARED | the partner also feeds the slot | false
  vout    : Nat := 0             -- @ 16 | 03 Table 3.9 VOUT | contact voltage, mV | DC 0
  iout    : Nat := 0             -- @ 16 | 03 Table 3.9 IOUT | this stage's current, mA | DC 0
  drop    : Nat := 0             -- @ 9 | 03 R100 | pass-FET drop set by digital sharing, mV | DC 0
  partnerI : Nat := 0            -- @ 16 | 03 R100 | the partner's stage current, mA | DC 0
  locate  : Bool := false        -- @ 1 | 03 R122 | locate indicator | false
  fault   : Bool := false        -- @ 1 | 03 R122 | fault indicator | false
  lastIo  : Option Nat := none   -- @ 64 | 03 Table 3.5 | time of the last I/O, for the activity pattern | none
  deriving DecidableEq, Repr

/-- The slot power allocator and sharing (R100–R111). -/
structure Pwr where
  slots   : Tab Slot := []       -- @ 24 records | 03 R75 | slots; an absent entry is a slot at reset | all EMPTY
  queue   : List Nat := []       -- @ list | 03 R107 | admission queue, head first | empty
  budget  : Nat := 720           -- @ 10 | 03 R106 | set budget, W | 720
  single  : Option Nat := none   -- @ 10 | 03 R110 | single-feed budget while it applies | none
  shedding : Bool := false       -- @ 1 | 03 R110 | a slot was shed and no slot is admitted | false
  lastShed : Option Nat := none  -- @ 64 | 03 R110 | always-on time of the last shed | none
  over95  : Option Nat := none   -- @ 64 | 03 R110 | since when the single feed is above 95 A | none
  admitSeq : Nat := 0            -- @ counter | 03 R110 | order of admissions (model bookkeeping) | 0
  droop   : Bool := false        -- @ 1 | 03 R102 | sharing by droop | false
  missed  : Nat := 0             -- @ 3 | 03 R102 | consecutive missed share updates | 0
  goodUpd : Nat := 0             -- @ 7 | 03 R103 | consecutive good share updates in droop | 0
  frame   : BitVec 48 := 0       -- @ 48 | 03 R112 | indicator frame last sent | 0
  updSeq  : Nat := 0             -- @ 8 | 15 Table 15.9b UPDSEQ | update sequence last sent | DC 0
  phase   : Nat := 0             -- @ 27 | 03 R66, R67 | start of the probe cycle in the always-on clock, ns mod 100 ms | DC 0
  deriving DecidableEq, Repr

/-- The clocks that time is measured on (R865; LASTTRIP). -/
structure Clk where
  now   : Nat := 0               -- @ 64 | 19 R865 | module time, ns since the module restart | 0
  aon   : Nat := 0               -- @ 64 | 03 Table 3.9 | always-on domain's clock, ns | 0
  modeAt : Nat := 0              -- @ 64 | 04 Table 4.11 MTIME | module time of the last mode change | 0
  deriving DecidableEq, Repr

/-- The mode desk (chapter 4). -/
structure ModDesk where
  mode    : Mode := .boot        -- @ 3 | 04 R140 | mode | Boot
  stage   : BootStage := .alwaysOn -- @ 4 | 04 Table 4.11 | boot stage | ALWAYS_ON
  cause   : Cause := .powerOn    -- @ 3 | 04 R129 | last restart cause | DC POWER_ON
  faultLed : Bool := false       -- @ 1 | 02 R39, 04 R134 | Fault status LED | DC off
  krst    : Nat := 0             -- @ 8 | 04 Table 4.11 | Kumel restarts since the module restart, saturating at 255 | 0
  krstAt  : List Nat := []       -- @ list | 04 R157 | module times of the Kumel restarts of the last 10 minutes | empty
  kumel   : KumelState := .notStarted -- @ 4 values | 04 R155, R157 | Kumel | not started
  kumelDue : Nat := 0            -- @ 64 | 04 R155 | latest time of the restart's end | DC 0
  maintOpt : Bool := false       -- @ 1 | 04 R162 | MAINT boot option (boot flash) | DC 0
  dramFull : Bool := false       -- @ 1 | 04 R162, R136 | DRAM_FULL boot option (boot flash) | DC 0
  maintBoot : Bool := false      -- @ 1 | 04 R134, R162 | MAINT as this Boot found it | DC 0
  dramBoot : Bool := false       -- @ 1 | 04 R136, R162 | DRAM_FULL as this Boot found it | DC 0
  selftestBad : Bool := false    -- @ 1 | 04 R134 | self-test found a lasting fault | false
  dramBad : Bool := false        -- @ 1 | 04 R134 | DRAM training found a lasting fault | false
  drowse  : DrowsePhase := .none -- @ 4 values | 04 R146, R151 | Drowse entry or exit phase | none
  drowseAt : Nat := 0            -- @ 64 | 04 R148 | module time of E1 | DC 0
  quietAt : Nat := 0             -- @ 64 | 04 R146, R147 | module time of E1 or of the last command that arrived after it | DC 0
  exitAt  : Nat := 0             -- @ 64 | 04 Table 4.12 event 12 | module time exit began | DC 0
  fabricSlow : Bool := false     -- @ 1 | 04 R146 E4, R151 | fabric clock at 375 MHz | false (1.5 GHz)
  patrolPaused : Bool := false   -- @ 1 | 04 R146 E1 | patrol round and idle scrubber paused | false
  drowseReq : List (Nat × Nat) := [] -- @ list | 04 R146, 09 R440 | context and command identifier of the Set Features that asked for Drowse | none
  entering : Option (Nat × Word) := none -- @ record | 04 R144 | door and tag of a forced ENTER_MAINTENANCE in progress | none
  restartReq : Option (Nat × Word) := none -- @ record | 04 R160 | door and tag kept over a single-module restart (always-on) | none
  restartWait : Bool := false    -- @ 1 | 04 R160 | steps 1–3 of R144 run before the restart | false
  admitStop : Bool := false      -- @ 1 | 04 R144 | no new host command is admitted | false
  egressOff : Bool := true       -- @ 1 | 02 R41, R53 | front, relay and partner egress stopped by unseating, hold-up or loss of the core | true (unpowered)
  bootAt  : Nat := 0             -- @ 64 | 02 R55, 04 R131 | module time Boot began | 0
  enumStop : Bool := false       -- @ 1 | 04 R133 | Boot's drive enumeration has stopped | false
  resWaitOver : Bool := false    -- @ 1 | 04 R135 | reserve ready or 20 s passed | false
  clockLost : Tab Bool := []     -- @ 146 flags | 04 R127 | clocks flagged lost, by monitor index | none
  entropyBad : Bool := false     -- @ 1 | 04 R128, 14 R685 | entropy source failed | false
  mgmtLink : Bool := false       -- @ 1 | 02 R32, 04 R132 | management jack link up | down
  deriving DecidableEq, Repr

/-- Door states (Table 19.6, codes 0–4 in this order). -/
inductive DoorState where
  | idle | filling | busy | reply | error
  deriving DecidableEq, Repr

/-- An event record (Table 19.13). -/
structure EvRec where
  seq    : Word
  event  : Nat
  compl  : Bool
  status : Nat
  param  : Word
  tag    : Word
  time   : Nat
  deriving DecidableEq, Repr

/-- One door (Tables 19.5–19.8, R862–R865). -/
structure Door where
  st      : DoorState := .idle   -- @ 3 | 19 Table 19.6 STATE | door state | IDLE
  ecode   : Nat := 0             -- @ 4 | 19 Table 19.6 ECODE | cause of the last entry to ERROR | 0
  discard : Bool := false        -- @ 1 | 19 Table 19.6 DISCARD | the reply of the packet in BUSY will be discarded | 0
  evEn    : Bool := false        -- @ 1 | 19 Table 19.5 EVEN | notify on events | 0
  rpEn    : Bool := false        -- @ 1 | 19 Table 19.5 RPEN | notify on replies | 0
  expect  : Nat := 0             -- @ 13 | 19 Table 19.7 | words still expected in FILLING | 0
  buf     : List Word := []      -- @ 4,096 words | 19 R836 | packet being filled, or the packet in BUSY | empty
  lastWr  : Nat := 0             -- @ 64 | 19 R837 | time of the last LBDATA write of a filling | DC 0
  reply   : List Word := []      -- @ 4,096 words | 19 R836 | reply words not yet read | empty
  evq     : List EvRec := []     -- @ 256 records | 19 R862 | event queue, oldest first | empty
  evSeq   : Word := 0            -- @ 32 | 19 R865 | EVSEQ of the last record stored | 0
  maskOff : Tab (BitVec 64) := [] -- @ 16 × 64 | 19 R863 | disabled events by group; absent is none | all enabled
  lostEv  : Tab Nat := []        -- @ 16 × 16 | 19 R864 | overflow counts by group | 0
  overTold : Bool := false       -- @ 1 | 19 R864 | MOD.EVENT_OVERFLOW raised since the last read | false
  errAt   : Option Nat := none   -- @ 64 | 19 R869 event 20 | time of the last MOD.DOOR_ERROR | none
  evLvl   : Bool := false        -- @ 1 | 19 R843 | EVEN with EVPEND held at the last change | false
  rpLvl   : Bool := false        -- @ 1 | 19 R843 | RPEN with STATE REPLY held at the last change | false
  alert   : Bool := false        -- @ 1 | 19 R843 | the notify condition has been signalled and not released | false
  deriving DecidableEq, Repr

/-- A command packet at its desk (R875, R860). -/
structure DeskEntry where
  door   : Nat
  tag    : Word
  op     : Nat
  pwc    : Nat
  words  : List Word
  begun  : Bool
  orphan : Bool
  deriving DecidableEq, Repr

/-- A reply on its way from a desk to its door (R838, R845). -/
structure DeskReply where
  door   : Nat
  tag    : Word
  status : Nat
  words  : List Word
  orphan : Bool
  deriving DecidableEq, Repr

/-- A command that returned ACCEPTED and still runs (R859, R861). -/
structure Running where
  door : Nat
  tag  : Word
  op   : Nat
  key  : Nat
  key2 : Nat
  deriving DecidableEq, Repr

/-- A completion that waits until its ACCEPTED reply has entered REPLY (R861). -/
structure HeldEvent where
  door   : Nat
  tag    : Word
  event  : Nat
  status : Nat
  param  : Word
  deriving DecidableEq, Repr

/-- The desk lock (R854–R856). -/
structure Lock where
  door : Nat
  span : Nat
  last : Nat
  deriving DecidableEq, Repr

/-- A key slot of the management Ethernet door (R849, R850, R852). -/
structure DoorKey where
  held  : Bool := false          -- @ 1 | 19 R852 | the slot holds a key (boot flash) | DC no key
  key   : List Word := []        -- @ 256 | 19 R868 | the key (boot flash) | DC none
  last  : Nat := 0               -- @ 64 | 19 R849 | last accepted SEQ | 0
  floor : Nat := 0               -- @ 64 | 19 R850 | persisted SEQ floor (boot flash) | 0
  cache : List Word := []        -- @ list | 19 R849 | response to the last accepted request | empty
  deriving DecidableEq, Repr

/-- A datagram that waits for its door to leave BUSY (R851 step 5). -/
structure WaitDgram where
  seq   : Nat
  keyId : Nat
  nrd   : Nat
  due   : Nat
  deriving DecidableEq, Repr

/-- The Letterbox (chapter 19). -/
structure Letterbox where
  d0      : Door := {}           -- @ record | 19 R835 | SMBus door | Table 19.4
  d1      : Door := {}           -- @ record | 19 R835 | Service Endpoint door | Table 19.4
  d2      : Door := {}           -- @ record | 19 R835 | management Ethernet door | Table 19.4
  inbox   : List DeskEntry := [] -- @ list | 19 R838, 20 R875 | packets past the checks of the door, at their desk | empty
  replies : List DeskReply := [] -- @ list | 19 R838 | replies on their way to a door | empty
  running : List Running := []   -- @ list | 19 R859, R861 | ACCEPTED commands not completed | empty
  heldEv  : List HeldEvent := [] -- @ list | 19 R861 | completions that wait for their ACCEPTED reply | empty
  lock    : Option Lock := none  -- @ record | 19 R854, R855 | desk lock | free
  k0      : DoorKey := {}        -- @ record | 19 R849 | key slot 0 | no key
  k1      : DoorKey := {}        -- @ record | 19 R849 | key slot 1 | no key
  authAt  : Option Nat := none   -- @ 64 | 19 R848 | time of the last MOD.DOOR_AUTH_FAIL | none
  rateAt  : Nat := 0             -- @ 64 | 19 R846 | start of the datagram rate second | DC 0
  rateN   : Nat := 0             -- @ 15 | 19 R846 | datagrams processed in that second | 0
  wait    : Option WaitDgram := none -- @ record | 19 R851 | a WAIT datagram held | none
  authKey : Nat := 0             -- @ 1 | 19 R868 | key slot of the last datagram applied | DC 0
  mgmtNew : Option (Nat × Word × List Word) := none -- @ record | 19 R868 | a MOD.SET_MGMT_ADDR whose reply has not left: door, tag, words 2 to 8 | none
  mgmtMode : Nat := 0            -- @ 2 | 19 R868 | management address mode | 0 DHCPv4
  mgmtPfx4 : Nat := 0            -- @ 6 | 19 R868 | IPv4 prefix length | DC 0
  mgmtPfx6 : Nat := 0            -- @ 8 | 19 R868 | IPv6 prefix length | DC 0
  mgmt4   : Word := 0            -- @ 32 | 19 R868 | static IPv4 address | DC 0
  mgmtGw  : Word := 0            -- @ 32 | 19 R868 | IPv4 gateway | DC 0
  mgmt6   : List Word := []      -- @ 128 | 19 R868 | static IPv6 address | DC empty
  deriving DecidableEq, Repr

/-- Service DMA channel states (Table 21.8, codes 0–4 in this order). -/
inductive ChState where
  | off | running | waiting | stopping | halted
  deriving DecidableEq, Repr

/-- Halt causes (Table 21.8, codes 0–7 in this order). -/
inductive HaltCode where
  | none | stopped | busError | masterOff | linkDown | badDesc | srcConflict | badRing
  deriving DecidableEq, Repr

/-- An open owned descriptor (Table 21.11). -/
structure OpenDesc where
  buf   : Nat
  len   : Nat
  irq   : Bool
  used  : Nat
  recs  : List Nat
  first : Option Nat
  deriving DecidableEq, Repr

/-- One Service DMA channel (Tables 21.7–21.9). -/
structure Channel where
  en     : Bool := false         -- @ 1 | 21 Table 21.7 EN | channel enabled | 0
  irqEn  : Bool := false         -- @ 1 | 21 Table 21.7 IRQEN | vector enabled | 0
  src    : Nat := 0              -- @ 3 | 21 Table 21.7 SRC | source | 0
  flush  : Nat := 1              -- @ 8 | 21 Table 21.7 FLUSHMS | close interval, ms | 1
  st     : ChState := .off       -- @ 3 | 21 Table 21.8 STATE | channel state | OFF
  halt   : HaltCode := .none     -- @ 4 | 21 Table 21.8 HALT | halt cause | 0
  done   : Bool := false         -- @ 1 | 21 Table 21.8 DONE | a descriptor has been written back | 0
  baseLo : Word := 0             -- @ 32 | 21 Table 21.9 RINGLO | ring base [31:0] | 0
  baseHi : Word := 0             -- @ 32 | 21 Table 21.9 RINGHI | ring base [63:32] | 0
  log2n  : Nat := 0              -- @ 4 | 21 Table 21.9 RINGSZ | log2 of the ring size | 0
  head   : Nat := 0              -- @ 12 | 21 Table 21.9 HEAD | next descriptor | 0
  dseq   : Nat := 0              -- @ 32 | 21 Table 21.11 DSEQ | descriptors written back | 0
  fetch  : Bool := false         -- @ 1 | 21 R893 | a descriptor fetch is outstanding | false
  fetchAt : Nat := 0             -- @ 64 | 21 R897 | time the outstanding fetch was issued | DC 0
  logNext : Nat := 0             -- @ 32 | 21 Table 21.10 | last ESEQ streamed from the error log | 0
  pollAt : Nat := 0              -- @ 64 | 21 R893 | time of the next poll of a waiting channel | DC 0
  desc   : Option OpenDesc := none -- @ record | 21 R894 | the owned descriptor being filled | none
  deriving DecidableEq, Repr

/-- One MSI-X vector (Table 21.3, R885). -/
structure Vector10 where
  addr    : Nat := 0             -- @ 64 | 21 R882 | message address | DC 0
  data    : Word := 0            -- @ 32 | 21 R882 | message data | DC 0
  masked  : Bool := true         -- @ 1 | 21 R885 | vector masked | PRESUMED 1 (PCIe base specification)
  pending : Bool := false        -- @ 1 | 21 R885 | PBA bit | 0
  deriving DecidableEq, Repr

/-- The Service Endpoint (chapter 21). PRESUMED (log 6, unsafe). -/
structure Se where
  link    : Bool := false        -- @ 1 | 21 R887, R888 | endpoint link up | down (R61)
  bme     : Bool := false        -- @ 1 | 21 R899 | Bus Master Enable | PRESUMED 0 (PCIe base specification)
  d3      : Bool := false        -- @ 1 | 21 R884 | D3hot | D0
  bar0    : Nat := 0             -- @ 64 | 21 R881 | BAR0 address | PRESUMED 0 (PCIe base specification)
  busErr  : Bool := false        -- @ 1 | 21 Table 21.6 BUSERR | bus error | 0
  mOff    : Bool := false        -- @ 1 | 21 Table 21.6 MOFF | halted for Bus Master Enable or D3hot | 0
  unexp   : Bool := false        -- @ 1 | 21 Table 21.6 UNEXP | unexpected completion dropped | 0
  linkLoss : Bool := false       -- @ 1 | 21 Table 21.6 LINKLOSS | hot reset or link-down halted channels | 0
  ecause  : Nat := 0             -- @ 4 | 21 Table 21.6 ECAUSE | cause of the last bus error | 0
  chans   : Tab Channel := []    -- @ 8 records | 21 R890 | channels; an absent entry is at reset | all OFF
  vecs    : Tab Vector10 := []   -- @ 10 records | 21 R885 | MSI-X vectors; an absent entry is at reset | all masked
  deriving DecidableEq, Repr

/-- One counter (R922, R923). -/
structure Ctr where
  val : BitVec 48 := 0           -- @ 48 | 23 R922 | value | 0
  ovf : Bool := false            -- @ 1 | 23 R923 | overflow bit | clear
  deriving DecidableEq, Repr

/-- A stream record (Table 23.2): its identifier, STSEQ, the time of the capture, its first counter, and its 256 counters. -/
structure StreamRec where
  id    : Nat
  seq   : Nat
  time  : Nat
  first : Nat
  vals  : Tab Ctr
  deriving DecidableEq, Repr

/-- The counters and their bank and stream (chapter 23). -/
structure Tally where
  ctrs   : Tab Ctr := []         -- @ 8,192 records | 23 R922 | counters; an absent entry is 0 with its bit clear | 0
  bank   : Tab Ctr := []         -- @ 8,192 records | 23 R926 | snapshot bank | empty
  sseq   : Nat := 0              -- @ 32 | 23 R926 | sequence of the last snapshot; 0 while none | 0
  stime  : Nat := 0              -- @ 64 | 23 R926 | time of the last snapshot | 0
  period : Nat := 0              -- @ 16 | 23 R934 | streaming period, ms | DC 0 (off)
  smask  : Nat := 0              -- @ 16 | 23 R934 | stream group mask | DC 0
  stseq  : Nat := 0              -- @ 32 | 23 R931 | sequence of the last stream snapshot | 0
  stDue  : Nat := 0              -- @ 64 | 23 R931 | time of the next capture | DC 0
  stLeft : List StreamRec := []  -- @ list | 23 R931, R932 | stream records offered and not yet written back | empty
  stOk   : Bool := false         -- @ 1 | 23 R932 | the last capture succeeded | false
  ovfAt  : Option Nat := none    -- @ 64 | 23 R935 | time of the last TAL.OVERFLOW | none
  deriving DecidableEq, Repr

end Sys2Proof.Machine
end

