-- ==== Sys2Proof/Machine/StateOut.lean ====
section
/-! DEFINITION. What leaves the module: a record of each message, signal or value that a command makes it give out. -/
namespace Sys2Proof.Machine

/-- The kinds of what leaves the module. -/
inductive OutKind where
  | readData | smbBlock | ara | msix | dgram | dmaData | dmaBack | dmaRead | share | ledFrame
  | pfc | arpReply | toEngine | toKumel | frameOut | tcpReset | cmDreq
  | cmRep | cmRej | cmDrep | ack | nak | rnrNak | readResp | atomicAck | cnp | rdmaRead | r2t | hostData | capsuleResp
  | synAck | tcpRst | tcpFin | dupAck | segment | c2hTerm | icResp | tlsAlert | tlsKeyUpdate | closeNotify | dhchap
  | ptpDelayReq | shadow | mirrorWrite | mirrorState | stateWrite | leaseFrame | postmarkAck | heartbeat | arp | forward | trainFrame
  | configBlock | flitNak | replay | idRecord | mapCopy | driveWrite | driveCmd | doorbell | cqDoorbell | slPerst
  | driveAdmin | driveConfig | driveReset | linkRetrain | dmaReply | aer | logPage | identify | feature | resReport
  | hello | dirUpdate | stackRecord | adminRequest | adminReply | fwdCommand | fwdDataReq | fwdWrite | fwdRead
  | fwdComplete | offer | offerAnswer | fwData | fwEnd | fwResult | keyErase | tlsHandshake | witnessMsg
  deriving DecidableEq, Repr

/-- One thing given out: its kind, three numbers and its words (each meaning says what they hold). Of a record that is routed, `route`
is DSTMOD + 16 × HOPS (R722, R723). -/
structure OutMsg where
  kind : OutKind
  a    : Nat := 0
  b    : Nat := 0
  c    : Nat := 0
  ws   : List Word := []
  ds   : List Nat := []
  route : Nat := 0
  deriving DecidableEq, Repr

/-- What an engine, Kumel or the Sorting Office itself gives to a front port to transmit: the logical port, the class and leaf of the
frames, the switch port they come from, their IP ECN field, the time before which a rate keeps them, the payload bytes of each frame,
and the message that they carry. -/
structure TxFrames where
  port : Nat
  cls  : Nat
  leaf : Nat
  from_ : Nat
  ecn  : Nat
  after : Nat
  lens : List Nat
  msg  : OutMsg
  deriving DecidableEq, Repr

end Sys2Proof.Machine
end

