-- ==== Sys2Proof/Machine/StateNet.lean ====
section
/-! DEFINITION. State of the NET desk: cages, logical ports, the cell buffer, the flow table and its epochs, mirrors, the
dead-letter queue and PTP (chapter 5). -/
namespace Sys2Proof.Machine

/-- A cage and its pluggable: 0–3 the front cages, 4 UP, 5 DN (R28–R30, R172). -/
structure Cage where
  mode    : Nat := 0             -- @ 2 | 05 R165, R168 | front port mode, Table 5.1 | 0
  present : Bool := false        -- @ 1 | 05 R215 PRESENT | pluggable present | DC false
  lowPwr  : Bool := true         -- @ 1 | 02 R29, R30 | pluggable in low-power mode | low power (R29)
  ready   : Bool := false        -- @ 1 | 05 R172 | ModuleReady reported | false
  cmis    : Bool := false        -- @ 1 | 02 R29 | the declared power class has been read | false
  watts   : Nat := 0             -- @ 8 | 02 R29, 05 R215 | declared power, W | DC 0
  readyDue : Option Nat := none  -- @ 64 | 05 R172 | time by which ModuleReady has to come | none
  deriving DecidableEq, Repr

/-- An address slot of a logical port (R215 NET.SET_PORT_ADDR). -/
structure AddrSlot where
  mac    : Nat
  vid    : Nat
  tagged : Bool
  ipv6   : Bool
  ip     : Nat
  deriving DecidableEq, Repr

/-- A logical front port (R165–R191). -/
structure LPort where
  up      : Bool := false        -- @ 1 | 05 R170 | link up | down
  addrs   : Tab AddrSlot := []   -- @ 4 records | 05 R215 | address slots | DC none
  trust   : Bool := false        -- @ 1 | 05 R215 TRUST | DSCP trust | PCP trust
  lossA   : Option Nat := none   -- @ 4 | 05 R185 | lossless PCP A | none
  lossB   : Option Nat := none   -- @ 4 | 05 R185 | lossless PCP B | none
  pcpClass : Tab Nat := []       -- @ 8 × 3 | 05 R184 | class by PCP; absent is S2 | S2
  dscpClass : Tab Nat := []      -- @ 64 × 3 | 05 R184 | class by DSCP; absent is S2 | S2
  egress  : Tab Nat := []        -- @ 8 × 3 | 05 R215 | egress PCP by queue; absent is 0 | 0
  paused  : Tab Nat := []        -- @ 8 × 64 | 05 R188 | time each priority's pause ends | none
  xoff    : Tab Nat := []        -- @ 8 × 64 | 05 R186 | time of the last XOFF sent, by PCP | none
  deriving DecidableEq, Repr

/-- A frame in an output queue (R180, R183, R187, R197): its length, arrival switch port, PCP and ECN, the epoch stamped at its lookup
(none where none was made), its time of entry, its cells by partition, the session it is a copy for, its leaf (R233), and the message of
an engine that ends with it. -/
structure QFrame where
  len    : Nat
  inPort : Nat
  pcp    : Nat
  ecn    : Nat
  epoch  : Option Nat
  at_    : Nat
  minC   : Nat
  shC    : Nat
  hrC    : Nat
  mirC   : Nat
  mirror : Option Nat
  leaf   : Nat
  msg    : Option OutMsg
  deriving DecidableEq, Repr

/-- ECN settings of an output queue (R190). -/
structure EcnSet where
  kmin   : Nat := 1200           -- @ 16 | 05 R191 | KMIN, cells | 1,200
  kmax   : Nat := 1200           -- @ 16 | 05 R191 | KMAX, cells | 1,200
  pmax   : Nat := 255            -- @ 8 | 05 R191, R215 | PMAX, (PMAX + 1)/256 | 255 (probability 1)
  enable : Bool := true          -- @ 1 | 05 R215 | ECN enable | DC 1
  deriving DecidableEq, Repr

/-- The key of a flow entry (Table 5.8). -/
structure FlowKey where
  service : Bool
  ipv6    : Bool
  src     : Nat
  dst     : Nat
  sport   : Nat
  dport   : Nat
  proto   : Nat
  vid     : Nat
  tagged  : Bool
  lport   : Nat
  deriving DecidableEq, Repr

/-- A flow entry (R192–R195, Table 5.8). -/
structure FlowEntry where
  key    : FlowKey
  action : Nat
  target : Nat
  mirror : Option Nat
  ctx    : Option Nat
  deriving DecidableEq, Repr

/-- A change of the flow table: the entry's index and its new value, none for a deletion. -/
structure FlowChange where
  door  : Nat
  tag   : Word
  op    : Nat
  index : Nat
  entry : Option FlowEntry
  deriving DecidableEq, Repr

/-- A reply withheld until the older epochs drain (R198, R493). -/
structure EpochWait where
  door   : Nat
  tag    : Word
  op     : Nat
  epoch  : Nat
  flipAt : Nat
  words  : List Word
  sent   : Bool
  orphan : Bool
  deriving DecidableEq, Repr

/-- A mirror session (R204). -/
structure Mirror where
  enable   : Bool := false       -- @ 1 | 05 R215 | enabled | DC 0
  src      : Nat := 0            -- @ 5 | 05 R215 | source logical port | DC 0
  dir      : Nat := 0            -- @ 2 | 05 R215 | 0 none, 1 ingress, 2 egress, 3 both | DC 0
  analysis : Nat := 0            -- @ 5 | 05 R215 | analysis logical port | DC 0
  trunc    : Bool := false       -- @ 1 | 05 R215 | truncate to 128 bytes | DC 0
  deriving DecidableEq, Repr

/-- A capture record (Table 5.6). -/
structure Capture where
  id      : Nat
  origLen : Nat
  reason  : Nat
  swport  : Nat
  ctx     : Option Nat
  epoch   : Nat
  time    : Nat
  capLen  : Nat
  body    : List Word
  deriving DecidableEq, Repr

/-- A time transmitter that a port has heard (R211): its sender identity, the data set that the best-master comparison ranks it by, and
the time of its last Announce. -/
structure PtpMaster where
  lport  : Nat
  src    : Nat
  rank   : List Nat
  heardAt : Nat
  deriving DecidableEq, Repr

/-- PTP (R210–R213). -/
structure Ptp where
  domain  : Nat := 0             -- @ 7 | 05 R210 | domain | DC 0
  enable  : Bool := false        -- @ 1 | 05 R215 | enabled | DC 0
  transport : Nat := 0           -- @ 2 | 05 R215 | 0 Ethernet, 1 UDP/IPv4, 2 UDP/IPv6 | DC 0
  ports   : Nat := 0             -- @ 32 | 05 R215 | logical-port mask | DC 0
  locked  : Bool := false        -- @ 1 | 05 R212 | time locked | false
  everLocked : Bool := false     -- @ 1 | 04 Table 4.4 | time has locked since the restart | false
  lockedAt : Nat := 0            -- @ 64 | 06 R251 | module time of the first lock | 0
  holdover : Bool := false       -- @ 1 | 05 R215 | clock holds its last frequency | false
  good    : Nat := 0             -- @ 5 | 05 R212 | consecutive intervals within ±1 µs | 0
  bad     : Nat := 0             -- @ 3 | 05 R212 | consecutive intervals outside ±1 µs | 0
  lastSync : Nat := 0            -- @ 64 | 05 R212 | time of the last Sync | DC 0
  masters : List PtpMaster := [] -- @ list | 05 R211 | time transmitters heard by Announce | none
  sync   : Option (Nat × Nat) := none -- @ 2 × 64 | 05 R210, R211 | source of the last Sync of the selected transmitter and its MAC timestamp, ns | none
  up     : Option (Int × Nat) := none -- @ 2 × 64 | 05 R210 | Sync interval's transmitter-to-receiver difference, ns, and the PTP time of the Delay_Req sent for it | none
  delay  : Int := 0              -- @ 64 | 05 R210 | mean path delay, ns | DC 0
  freq   : Int := 0              -- @ signed | 05 R212 | frequency correction that the clock runs with and holds on unlock, parts in 10^9 | DC 0
  lport   : Nat := 0             -- @ 5 | 05 R215 | logical port in use | DC 0
  offset  : Int := 0             -- @ 32 | 05 R215 | last offset, ns | DC 0
  ns      : Int := 0             -- @ 80 | 05 R215 | PTP time, ns, at the module time `base` | DC 0
  base    : Nat := 0             -- @ 64 | 05 R211 | module time at which that PTP time was taken | DC 0
  deriving DecidableEq, Repr

/-- The Sorting Office and its desk. -/
structure Net where
  cages   : Tab Cage := []       -- @ 6 records | 05 R165 | cages; an absent entry is at reset | mode 0, empty
  lports  : Tab LPort := []      -- @ 32 records | 05 R165 | logical ports; an absent entry is at reset | down
  queues  : Tab (List QFrame) := [] -- @ 312 queues | 05 R179 | output queues, key switch port × 8 + queue, oldest first | empty
  ecns    : Tab EcnSet := []     -- @ 312 records | 05 R190 | ECN settings by queue; absent is the default | defaults
  stall   : Tab Bool := []       -- @ 2 flags | 05 R202 CREDIT_STALL | relay and partner ports without credit | none
  pend    : Nat := 16384         -- @ 17 | 05 Table 5.4 | pending-list pool, cells | 16,384
  dlCells : Nat := 4096          -- @ 17 | 05 Table 5.4 | dead-letter partition, cells | 4,096
  mirCells : Nat := 8192         -- @ 17 | 05 Table 5.4 | mirror partition, cells | 8,192
  qmin    : Nat := 16            -- @ 9 | 05 Table 5.4 | queue minimum, cells | 16
  headroom : Nat := 1024         -- @ 13 | 05 Table 5.4 | PFC headroom, cells | 1,024
  alpha   : Nat := 4             -- @ 3 | 05 R183 | α code | 4
  xoff    : Nat := 512           -- @ 16 | 05 R186 | XOFF, cells | 512
  xon     : Nat := 256           -- @ 16 | 05 R186 | XON, cells | 256
  flows   : Tab FlowEntry := []  -- @ 73,728 records | 05 R192 | flow table by index | DC empty
  epoch   : Nat := 0             -- @ 16 | 05 R197 | current epoch | DC 0
  older   : List Nat := []       -- @ list | 05 R199 | older live epochs, oldest first | empty
  changes : List FlowChange := [] -- @ 64 records | 05 R199 | changes that wait for a flip | empty
  waits   : List EpochWait := [] -- @ list | 05 R198, R200 | replies withheld | empty
  mirrors : Tab Mirror := []     -- @ 4 records | 05 R204 | mirror sessions | disabled
  dlEnable : Nat := 7            -- @ 3 | 05 R207, R215 | capture enables | all three
  dlRing  : Bool := false        -- @ 1 | 05 R208 | ring mode | 0
  dlTrunc : Nat := 4             -- @ 7 | 05 R215 | truncation, 32 bytes | 4 (128 bytes)
  dlq     : List Capture := []   -- @ list | 05 R207 | capture records, oldest first | empty
  dlFull  : Bool := false        -- @ 1 | 05 R208 | NET.DEAD_LETTER_FULL raised for this filling | false
  dlSeq   : Nat := 0             -- @ counter | model | identifier of the last capture record | 0
  ptp     : Ptp := {}            -- @ record | 05 R210 | PTP | disabled
  deriving DecidableEq, Repr

end Sys2Proof.Machine
end

