-- ==== Sys2Proof/Machine/Codeword.lean ====
section
/-! DEFINITION. What a link puts on its lanes (R692–R696): the PRBS31 scrambler, the parity of RS(272,256), the bytes of a codeword by
lane, and alignment codewords. -/
namespace Sys2Proof.Machine

/-! ## The scrambler (R695) -/

/-- The bit that the PRBS31 generator x^31 + x^28 + 1 gives next. -/
def prbsBit (g : BitVec 31) : Bool := g.getLsbD 30 != g.getLsbD 27

/-- The generator after that bit. -/
def prbsStep (g : BitVec 31) : BitVec 31 := g <<< 1 ||| (if prbsBit g then 1 else 0)

/-- The next bits of the generator as a number, the first of them on top, and the generator after them. A byte is sent from its most
significant pair (R692), so its first bit is its most significant one. DEDUCED (log 240, unsafe). -/
def prbsBits : Nat → BitVec 31 → Nat → Nat × BitVec 31
  | 0, g, acc => (acc, g)
  | n + 1, g, acc => prbsBits n (prbsStep g) (2 * acc + if prbsBit g then 1 else 0)

/-- Flit bytes scrambled, or scrambled bytes made plain: each is XORed with the generator's next eight bits. -/
def scramble : List Nat → BitVec 31 → List Nat
  | [], _ => []
  | b :: bs, g => let (k, g) := prbsBits 8 g 0; (b ^^^ k) :: scramble bs g

/-- The generator `n` flit bytes after an alignment codeword reset it to all ones. -/
def prbsAt (n : Nat) : BitVec 31 := (prbsBits (8 * n) (BitVec.allOnes 31) 0).2

/-! ## The code (R693) -/

/-! The field GF(2^8) with the polynomial 0x11D serves the links' code (R693) and the parity of sets (R561). -/

/-- `0x01` in each of `n` bytes. -/
def ones (n : Nat) : Nat := (256 ^ n - 1) / 255

/-- Multiply every byte of an `n`-byte number by g = 0x02, modulo 0x11D. -/
def gfDouble (n x : Nat) : Nat :=
  ((x &&& (127 * ones n)) <<< 1) ^^^ (((x >>> 7) &&& ones n) * 0x1D)

/-- Multiply every byte of an `n`-byte number by the field element `c`. -/
def gfScale (n c x : Nat) : Nat :=
  ((List.range 8).foldl (fun (a : Nat × Nat) i => (if c.testBit i then a.1 ^^^ a.2 else a.1, gfDouble n a.2)) (0, x)).1

/-- The field element g^j. -/
def gfPow (j : Nat) : Nat := (List.range j).foldl (fun a _ => gfDouble 1 a) 1

/-- The inverse of a field element: its 254th power. -/
def gfInv (c : Nat) : Nat := (List.range 253).foldl (fun a _ => gfScale 1 c a) c

/-- A polynomial times (x + r), highest power first. -/
def timesRoot (r : Nat) (p : List Nat) : List Nat := ((p ++ [0]).zip (0 :: p.map (gfScale 1 r))).map fun (e : Nat × Nat) => e.1 ^^^ e.2

/-- The generator polynomial with roots α^0 to α^15, and the next power of α. -/
def rsGenerator : List Nat := ((List.range 16).foldl (fun (a : List Nat × Nat) _ => (timesRoot a.2 a.1, gfDouble 1 a.2)) ([1], 1)).1

/-- The 16 parity bytes of a scrambled flit. -/
def rsParity (flit : List Nat) : List Nat :=
  flit.foldl (fun r b =>
    let f := b ^^^ r.headD 0
    ((r.drop 1 ++ [0]).zip (rsGenerator.drop 1)).map fun (e : Nat × Nat) => e.1 ^^^ gfScale 1 f e.2) (List.replicate 16 0)

/-- Bytes of a codeword in error that the code still corrects. -/
def rsCorrects : Nat := 8

/-- The bytes of words, the least significant first. -/
def wordBytes (ws : List Word) : List Nat := ws.flatMap fun w => (List.range 4).map fun i => w.toNat / 256 ^ i % 256

/-- The codeword of a flit whose scrambling starts `pos` flit bytes after an alignment codeword. -/
def codeword (pos : Nat) (flit : List Nat) : List Nat := let d := scramble flit (prbsAt pos); d ++ rsParity d

/-! ## Lanes (R694, R696) -/

/-- The lane, counted from the lowest of its width group, that carries byte `i` of a codeword. -/
def laneOfByte (w i : Nat) : Nat := i % max 1 w

/-- The bytes that lane `n` of a width group carries, in ascending order. -/
def laneShare (w n : Nat) (cw : List Nat) : List Nat := (((List.range cw.length).zip cw).filter fun e => laneOfByte w e.1 = n).map (·.2)

/-- What lane `n` carries of an alignment codeword at width `w`. -/
def alignShare (w n : Nat) : List Nat := ([0x96, 0x0F, n, 255 - n, w.log2] ++ List.replicate 272 0x69).take (272 / max 1 w)

end Sys2Proof.Machine
end

