-- ==== Sys2Proof/Machine/Types.lean ====
section
/-! DEFINITION. What the commands carry: packets, frames, records and measured values as something outside the module gives
them. -/
namespace Sys2Proof.Machine

/-- A Letterbox command packet (Table 19.1) at the door it came through. `door` is 0 SMBus, 1 Service Endpoint,
2 management Ethernet. `words` are the words from word 2 on; the opcode is the constructor's own. -/
structure Packet where
  door  : Nat
  flags : Nat
  pwc   : Nat
  tag   : Word
  words : List Word
  deriving DecidableEq, Repr

/-- The registers that a write with no row of its own reaches (R11). -/
inductive RegTarget where
  | lbctl (door : Nat)
  | lbstat (door : Nat)
  | bar0 (offset : Nat)
  | config (offset : Nat)
  deriving DecidableEq, Repr

/-- A management Ethernet request (Table 19.11). `bytes` is the UDP payload's length; `fragment` an IP fragment. -/
structure Datagram where
  bytes    : Nat
  fragment : Bool
  magic    : Nat
  ver      : Nat
  keyId    : Nat
  ctlv     : Bool
  wait     : Bool
  ctl      : Word
  seq      : Nat
  nwr      : Nat
  nrd      : Nat
  cnt      : Nat
  words    : List Word
  mac      : List Word
  deriving DecidableEq, Repr

/-- A clock that the monitor flags (Table 4.1): a lane receive clock of one of the links, a transmit PLL group 0–7,
a DRAM channel 0–11, the entropy source, the always-on domain's or another core domain. -/
inductive ClockId where
  | lane (i : Nat)
  | txGroup (g : Nat)
  | dram (ch : Nat)
  | core (d : Nat)
  | entropy
  deriving DecidableEq, Repr

/-- A received SHARE_TELEMETRY record (Table 15.9b). -/
structure ShareRec where
  trip     : Nat
  on       : Nat
  cmdOff   : Nat
  cmdOn    : Nat
  clear    : Nat
  tripTime : Nat
  phase    : Nat
  droop    : Bool
  updSeq   : Nat
  iout     : List Nat
  deriving DecidableEq, Repr

/-- A PTP message as received on a front port (R210, R211): an Announce with the data set that ranks its transmitter, a one-step or
two-step Sync, a Follow_Up, and a Delay_Resp. `src` is the sender's identity, `origin` its timestamp with its correction, ns. -/
inductive PtpMsg where
  | announce (src : Nat) (rank : List Nat)
  | sync (src : Nat) (twoStep : Bool) (origin : Nat)
  | followUp (src origin : Nat)
  | delayResp (src origin : Nat)
  deriving DecidableEq, Repr

/-- What a front frame carries, as the Sorting Office tells it apart (R175, R193): an ARP request or neighbour solicitation, another
message for Kumel, or an IP packet. -/
inductive FrameKind where
  | solicit (ipv6 : Bool) (target : Nat)
  | kumel
  | ip (ipv6 : Bool) (src dst proto sport dport : Nat)
  | other
  deriving DecidableEq, Repr

/-- A frame on a front port. `body` holds its bytes, packed as Table 5.6 packs them; `ecn` is the IP header's ECN field. -/
structure Frame where
  lport  : Nat
  len    : Nat
  fcsOk  : Bool
  dstMac : Nat
  mcast  : Bool
  vid    : Nat
  tagged : Bool
  pcp    : Nat
  dscp   : Nat
  ecn    : Nat
  kind   : FrameKind
  body   : List Word
  deriving DecidableEq, Repr


/-- Where a packet stands in its message. -/
inductive Part where
  | only | first | middle | last
  deriving DecidableEq, Repr

/-- The kinds of RoCEv2 request packet that the engine tells apart (Table 7.1). A SEND's length is the whole capsule's,
known at its last packet; a WRITE's first packet carries its RETH. -/
inductive RoceOp where
  | send (part : Part) (bytes : Nat)
  | write (part : Part) (rkey off len : Nat) (data : List (BitVec 64))
  | read (rkey off len : Nat)
  | cas (rkey off : Nat) (compare swap : BitVec 64)
  | faa (rkey off : Nat) (add : BitVec 64)
  | invalid
  deriving DecidableEq, Repr

/-- A RoCEv2 request packet from a host; `bytes` and `frame` give its frame's length and first bytes (Table 5.6). `rc` is false for a transport service other than RC. -/
structure RocePkt where
  lport  : Nat
  qpn    : Nat
  rc     : Bool
  icrcOk : Bool
  ce     : Bool
  dscp   : Nat
  psn    : Nat
  ackReq : Bool
  bytes  : Nat
  op     : RoceOp
  frame  : List Word := []
  deriving DecidableEq, Repr

/-- A CM REQ (Table 7.2). -/
structure CmReq where
  lport   : Nat
  src     : Nat
  rc      : Bool
  svc     : Nat
  privLen : Nat
  recfmt  : Nat
  qid     : Nat
  hrq     : Nat
  hsq     : Nat
  ord     : Nat
  ird     : Nat
  qpn     : Nat
  psn     : Nat
  mtu     : Nat
  retry   : Nat
  rnr     : Nat
  deriving DecidableEq, Repr

/-- The kinds of acknowledgement a host sends (R282–R284). -/
inductive AckKind where
  | ack
  | nakSeq
  | nakFatal
  | rnr (timer : Nat)
  deriving DecidableEq, Repr

/-- An NVMe/TCP PDU as received (R351–R356). `bad` is the FES of Table 8.3 that the PDU's form draws, 0 where it is well
formed. -/
inductive PduIn where
  | icReq (pfv hpda maxr2t : Nat) (hd dd : Bool)
  | capsule (bytes : Nat)
  | h2cData (tag gen off len : Nat) (digestOk : Bool)
  | h2cTerm
  | bad (fes : Nat)
  deriving DecidableEq, Repr

/-- What a TLS connection's bytes hold, as the record layer finds them (R358, R362, R363). -/
inductive TlsIn where
  | none
  | handshake
  | records (n : Nat)
  | overflow
  | badTag
  | alert (closeNotify : Bool)
  | keyUpdate (requested : Bool)
  deriving DecidableEq, Repr

/-- A TCP segment of an established connection: its sequence and acknowledgement numbers, its payload, its window field, its SACK blocks
and its TSval and TSecr (Table 8.1). -/
structure TcpSeg where
  ctx    : Nat
  lport  : Nat
  seq    : Nat
  len    : Nat
  ack    : Nat
  full   : Bool
  ce     : Bool
  ece    : Bool
  bytes  : Nat
  tls    : TlsIn
  pdus   : List PduIn
  wnd    : Nat := 65535
  sacks  : List (Nat × Nat) := []
  ts     : Option (Nat × Nat) := none
  frame  : List Word := []
  deriving DecidableEq, Repr

/-- What every other RoCEv2 packet of a host carries: its arrival port, destination QP, ICRC, CE mark and frame bytes. -/
structure RoceHead where
  lport  : Nat
  qpn    : Nat
  icrcOk : Bool
  ce     : Bool
  bytes  : Nat
  frame  : List Word := []
  deriving DecidableEq, Repr


/-- A SYN as received (R340): its addresses and ports, its sequence number and window, the MSS it offers, whether it offers ECN, and the
window scale and timestamps that it offers (Table 8.1). -/
structure SynIn where
  lport  : Nat
  v6     : Bool
  src    : Nat
  dst    : Nat
  rport  : Nat
  dport  : Nat
  vid    : Nat
  tagged : Bool
  seq    : Nat
  mss    : Nat
  ecn    : Bool
  wnd    : Nat := 65535
  scale  : Option Nat := none
  ts     : Option Nat := none
  deriving DecidableEq, Repr

/-- A data pointer of a command capsule (R294). -/
inductive Sgl where
  | none
  | inCapsule (len : Nat)
  | keyed (descs : List (Nat × Nat × Bool))
  | invalid
  deriving DecidableEq, Repr

/-- An I/O command of a host. `nlb` counts blocks; `bad` marks a reserved field set, a non-zero FUSE or a field outside the
chapter's limits. The reservation fields are used by the reservation commands. -/
structure IoCmd where
  ctx    : Nat
  cid    : Nat
  nsid   : Nat
  slba   : Nat
  nlb    : Nat
  fua    : Bool
  deac   : Nat
  pract  : Bool
  prchk  : Nat
  dscp   : Nat
  ranges : List (Nat × Nat)
  sgl    : Sgl
  bad    : Bool
  rtype  : Nat
  action : Nat
  iekey  : Bool
  cptpl  : Nat
  eds    : Bool
  crkey  : Nat
  prkey  : Nat
  ilbrt  : Nat
  lbat   : Nat
  lbatm  : Nat
  deriving DecidableEq, Repr

/-- One namespace block in transit: its data and its PI. -/
structure HBlk where
  d  : Nat
  pi : Nat
  deriving DecidableEq, Repr

/-- A Fabrics Connect (Table 9.3). -/
structure ConnectReq where
  ctx     : Nat
  cid     : Nat
  qid     : Nat
  cntlid  : Nat
  sqsize  : Nat
  kato    : Nat
  hostNqn : List Word
  subNqn  : List Word
  discovery : Bool
  hostId  : Nat
  deriving DecidableEq, Repr

/-- A DH-HMAC-CHAP message that a host sends (R398, R399). Hashes are 0 SHA-256, 1 SHA-384, 2 SHA-512; groups 0 ffdhe2048
to 4 ffdhe8192; other numbers are not permitted. -/
inductive AuthMsg where
  | negotiate (hashes groups : List Nat)
  | reply (bidir responseOk : Bool)
  | success2 (ok : Bool)
  deriving DecidableEq, Repr

/-- What Namespace Management asks for (R483). -/
structure NsCreate where
  nsze  : Nat
  ncap  : Nat
  lbaf  : Nat
  piType : Nat
  piLast : Bool
  deriving DecidableEq, Repr


/-- One 4 KiB member block: its data, its 64 bytes of metadata (FMT 1), and the poison mark. -/
structure Blk where
  d : Nat
  m : Nat
  poison : Bool
  deriving DecidableEq, Repr

/-- A member's identity record (Table 12.3), as its newest good copy gives it. -/
structure IdRec where
  set     : Nat
  type    : Nat
  width   : Nat
  strip   : Nat
  fmt     : Nat
  tagzone : Bool
  member  : Nat
  mstate  : Nat
  setid   : Nat
  gen     : Nat
  iseq    : Nat
  stripes : Nat
  initWm  : Nat
  memberWm : Nat
  patWm   : Nat
  creator : Nat
  driveIds : List Nat
  ejMask  : Nat
  lastSlots : List (Option Nat)
  deriving DecidableEq, Repr

/-- What a drive's Identify data report (Table 13.2, Table 13.8). -/
structure DriveInfo where
  vid    : Nat
  nvme14 : Bool
  nsid1  : Bool
  blocks : Nat
  fmt    : Option Nat
  mdtsKib : Nat
  dual   : Bool
  vwcPresent : Bool
  vwcOff : Bool
  fr     : List Word
  sn     : List Word
  serial : Nat
  deriving DecidableEq, Repr

/-- The completion of a drive admin command (R621, R633, R639, R640). -/
inductive AdminDone where
  | identify (d : DriveInfo)
  | setFeatures (queues : Nat)
  | queuesCreated (ok : Bool)
  | idRecord (r : Option IdRec)
  | format (ok : Bool)
  | log (status : Nat) (words : List Word)
  deriving DecidableEq, Repr

/-- The outcome of a drive command (Table 12.4). -/
inductive DriveOutcome where
  | success
  | media
  | other
  deriving DecidableEq, Repr

/-- An inbound memory request of a drive (R626, R628): `len` bytes at `addr`, a write's bytes as one number, first byte least
significant. -/
structure DmaReq where
  slot   : Nat
  addr   : Nat
  write  : Bool
  len    : Nat
  poisoned : Bool
  data   : Nat
  deriving DecidableEq, Repr

/-- An open journal record as a member's journal or the hold-up image gives it (R542, R544): its spans are member, first
block, count and SCRC. -/
structure ImgRec where
  set    : Nat
  stripe : Nat
  method : Nat
  gen    : Nat
  setid  : Nat
  jseq   : Nat
  spans  : List (Nat × Nat × Nat × Nat)
  deriving DecidableEq, Repr


/-- A training frame as received on a lane (Table 15.3). -/
structure TrainFrame where
  crcOk   : Bool
  lane    : Nat
  pre     : Nat
  main    : Nat
  post    : Nat
  preset  : Nat
  stats   : Nat × Nat × Nat
  rxReady : Bool
  precode : Bool
  deriving DecidableEq, Repr

/-- A CONFIG block (Table 15.4). `crcOk` says that its CRC passes. -/
structure ConfigBlk where
  crcOk   : Bool
  magic   : Nat
  linkType : Nat
  proto   : Nat
  order   : Nat
  modnum  : Nat
  bay     : Nat
  pos     : Nat
  resume  : Bool
  ackcfg  : Bool
  serial  : Nat
  session : Nat
  fwver   : Nat
  dvmin   : Nat
  dvmax   : Nat
  rxgood  : Nat
  akseq   : Nat
  credits : List Nat
  keyid   : Nat
  deriving DecidableEq, Repr

/-- A codeword as received and the flit in it (R693, R694, Table 15.5). `errs` are the places of its bytes in error, 0 to 271; `fault` says
that a record in its payload is bad (Table 15.13 cause 4). -/
structure FlitIn where
  errs    : List Nat
  fseq    : Nat
  akseq   : Nat
  nak     : Bool
  idle    : Bool
  records : Nat
  fault   : Bool
  deriving DecidableEq, Repr

/-- A received HEARTBEAT (Table 15.9a) with its arrival time on the local clock. -/
structure HeartbeatIn where
  hbseq   : Nat
  mode    : Nat
  lease   : Bool
  master  : Bool
  locked  : Bool
  rxgood  : Nat
  txTime  : Nat
  echoSeq : Nat
  echoRx  : Nat
  freed   : List Nat
  arrival : Nat
  deriving DecidableEq, Repr

/-- A MIRROR_WRITE record (Table 15.11): the page, its span and bin (namespace 0 and a block of the tag zone for a page of tag zone
entries), and the blocks by their index in the page: data and PI as enciphered, nonce and tag. -/
structure MirrorIn where
  page   : Nat
  nsid   : Nat
  lba    : Nat
  order  : Nat
  set    : Nat
  stripe : Nat
  blks   : List (Nat × HBlk × Nat × Nat)
  deriving DecidableEq, Repr

/-- A journal record in transit (Table 11.6). -/
structure JWire where
  jseq   : Nat
  set    : Nat
  stripe : Nat
  method : Nat
  poison : Bool
  gen    : Nat
  spans  : List (Nat × Nat × Nat)
  deriving DecidableEq, Repr

/-- A MIRROR_STATE item (Table 15.12). -/
inductive MirrorItem where
  | pageFree (pages : List Nat)
  | pageBin (page set stripe : Nat)
  | journalOpen (r : JWire)
  | journalRetire (jseqs : List Nat)
  | leaf (nsid index word0 word1 : Nat)
  | written (nsid index i value : Nat)
  | drlBit (set slot region : Nat)
  | nonce (bay core stop : Nat)
  | invocation (slot n : Nat)
  deriving DecidableEq, Repr

/-- A lease frame of the witness (Table 16.3). -/
structure WitnessFrame where
  term   : Nat
  seq    : Nat
  result : Nat
  holder : Nat
  ret    : Bool
  serial : Nat
  deriving DecidableEq, Repr

/-- A HELLO (Table 17.1). -/
structure Hello where
  stackid : Nat
  pos     : Nat
  bay     : Nat
  mode    : Nat
  lease   : Bool
  master  : Bool
  record  : Bool
  reach   : Nat
  deriving DecidableEq, Repr

/-- A stack record (R775): serial numbers by position, bay 0 and bay 1. -/
structure StackRec where
  stackid : Nat
  pos     : Nat
  members : Nat
  gen     : Nat
  serials : List (Nat × Nat × Nat)
  deriving DecidableEq, Repr

/-- The heading of a forwarded I/O message (Table 17.2). -/
structure FwdHead where
  arrPos : Nat
  ftag   : Nat
  fgen   : Nat
  off    : Nat
  len    : Nat
  deriving DecidableEq, Repr

/-- An Exael header (Table 22.1) as the module reads it, with its 64 words. -/
structure ExaelHead where
  full    : Bool
  len     : Nat
  fwver   : Nat
  opwords : Nat
  dvmin   : Nat
  dvmax   : Nat
  orders  : Nat
  keyslot : Nat
  base    : List Word
  target  : List Word
  words   : List Word
  deriving DecidableEq, Repr

/-- What lies at the location of a memory error, or what consumes its poison (Table 18.1): a buffered block, a region's 8-byte
word, a host read's data, a strip write's block, a context's record, a map line of a namespace, a journal record, a frame in an
output queue (`begun` once its first byte has left), a key share with whether the slot's boot-flash copy loads, a counter, desk
state, Kumel's memory. -/
inductive MemObj where
  | none
  | block (page i : Nat)
  | word (region w : Nat)
  | cmd (tag : Nat)
  | strip (set stripe member blk : Nat)
  | ctx (c : Nat)
  | mapLine (nsid : Nat)
  | record (jseq : Nat)
  | frame (swport q i : Nat) (begun : Bool)
  | key (slot : Nat) (copyOk : Bool)
  | counter (n : Nat)
  | desk
  | code
  deriving DecidableEq, Repr

/-- A memory error: `kind` 1 corrected, 2 uncorrectable, 3 poison consumed; `device` is the one DRAM device of a correction,
else 31. -/
structure MemErr where
  cls    : Nat
  index  : Nat
  loc    : Nat
  syn    : Nat
  device : Nat
  kind   : Nat
  obj    : MemObj
  deriving DecidableEq, Repr

/-- The outcome of a self-test: the march found an error, or the retrain failed; a lane's eye height and whether it is below
half; PRBS or loopback errors. -/
structure TestEnd where
  found  : Bool
  eye    : Nat
  eyeLow : Bool
  errs   : Nat
  deriving DecidableEq, Repr

/-- How a routed message reached this module (R722, R723, R784): the link it came by, its DSTMOD, its HOPS and the words of
its record. -/
structure MsgIn where
  link : Nat
  dst  : Nat
  hops : Nat
  len  : Nat
  deriving DecidableEq, Repr

/-- The I/O commands (Table 9.8). -/
inductive IoOp where
  | read | write | flush | compare | writeZeroes | dsm | verify | copy | resRegister | resReport | resAcquire | resRelease
  deriving DecidableEq, Repr

/-- NVMe completion statuses (Table 9.12 and the rules that name others). -/
inductive NvStatus where
  | success | invalidOpcode | authRequired | cidConflict | invalidField | invalidNamespace | sanitizeInProgress
  | anaInaccessible | lbaRange | sglTypeInvalid | sglCountInvalid | sglLengthInvalid | reservationConflict | writeProtected
  | nsNotReady | capacityExceeded | transientTransport | piGuard | piApp | piRef | unrecoveredRead | compareFailure
  | abortRequested | interrupted | hostIdFormat | connectInvalidParams | connectInvalidHost | connectBusy | sequenceError
  | abortLimit | invalidLogPage | nsInsufficientCapacity | aerLimit
  deriving DecidableEq, Repr

/-- A listener on an address of a logical port, as a discovery log entry shows it (R436): RDMA or TCP, address family and address, listener port,
port identifier, and whether it is the TLS listener. -/
structure DiscEnt where
  rdma : Bool
  v6   : Bool
  ip   : Nat
  port : Nat
  id   : Nat
  tls  : Bool
  deriving DecidableEq, Repr

/-- An entry of the namespace directory as a DIR_UPDATE brings it (Table 17.1), with what the arrival module of a replica needs
of the namespace: its format, PI type, encryption, size in parcels, attached host entries and read-only state. -/
structure DirEntry where
  nsid    : Nat
  home    : Nat
  deleted : Bool
  lbaf    : Nat
  pit     : Nat
  enc     : Nat
  size    : Nat
  hosts   : List Nat
  ro      : Bool
  deriving DecidableEq, Repr

end Sys2Proof.Machine
end

