-- ==== Sys2Proof/Machine/StateQos.lean ====
section
/-! DEFINITION. State of the QOS desk: subscribers with their policers and deferral queues, the scheduler's nodes and
shapers, the gate lists and the watches (chapter 6). -/
namespace Sys2Proof.Machine

/-- A host I/O command with its opcode, its DSCP colour being read from `a.dscp`. -/
structure HostCmd where
  op : IoOp
  a  : IoCmd
  deriving DecidableEq, Repr

/-- A command in a deferral queue: unmarked, or marked with its class and waiting for a tag (R229, R415). -/
structure Deferred where
  cmd : HostCmd
  cls : Option Nat
  deriving DecidableEq, Repr

/-- The policer settings that one QOS.SET_POLICER gives (R255). -/
structure Policer where
  mode1  : Bool := false         -- @ 1 | 06 R222 MODE | 0 RFC 2698, 1 RFC 4115 | 0 (R227)
  aware  : Bool := false         -- @ 1 | 06 R225 AWARE | colour-aware | 0 (R227)
  enable : Bool := false         -- @ 1 | 06 R226 ENABLE | policer enabled | 0 (R227)
  cir    : Nat := 0              -- @ 24 | 06 R222 CIR | MB/s | 0 (R227)
  pir    : Nat := 0              -- @ 24 | 06 R222 PIR or EIR | MB/s | 0 (R227)
  cbs    : Nat := 1              -- @ 24 | 06 R222 CBS | KiB | 1 (R227)
  pbs    : Nat := 1              -- @ 24 | 06 R222 PBS or EBS | KiB | 1 (R227)
  const  : Nat := 4096           -- @ 16 | 06 R221 CONST | bytes | 4,096 (R227)
  deriving DecidableEq, Repr

/-- A subscriber (R219–R232), or the internal leaf as entry 2048. -/
structure Sub where
  pol    : Policer := {}         -- @ record | 06 R227 | policer settings | as its fields
  c      : Int := 1024           -- @ signed bytes | 06 R223 | level of bucket C | full at 1 KiB (R227)
  p      : Int := 1024           -- @ signed bytes | 06 R223 | level of bucket P or E | full at 1 KiB (R227)
  next   : Option Policer := none -- @ record | 06 R232 | policer change that waits for the token tick | none
  cls    : Nat := 2              -- @ 3 | 06 R219 CLASS | class while green | S2 (R227)
  toDemote : Option Bool := none -- @ 1 | 06 R232 | REDACT change that waits for the token tick | none
  ycls   : Nat := 3              -- @ 3 | 06 R219 YCLASS | class while yellow | S3 (R227)
  demote : Bool := false         -- @ 1 | 06 R229 REDACT | 0 DEFER, 1 DEMOTE | DEFER (R227)
  weight : Nat := 16             -- @ 8 | 06 R255 WEIGHT | leaf weight | 16 (R227)
  defMax : Nat := 256            -- @ 13 | 06 R231 DEFMAX | commands | 256 (R227)
  maxTags : Nat := 262144        -- @ 19 | 09 R415 MAXTAGS | tags | 262,144 (R227)
  queue  : List Deferred := []   -- @ list | 06 R229, 09 R415 | deferral queue, oldest first | empty
  defTold : Bool := false        -- @ 1 | 06 R231 | QOS.DEFER_OVERFLOW raised for this filling | false
  tagTold : Bool := false        -- @ 1 | 09 Table 9.17 event 324 | a command of the subscriber waits for a tag | false
  countWait : Bool := false      -- @ 1 | 07 R301, R305 | completions released in count-wait mode | message-enabled (R301)
  pin    : Bool := false         -- @ 1 | 08 R369 PIN | contexts pinned | DC 0
  deriving DecidableEq, Repr

/-- A service node of a scheduler port (Table 6.5). -/
structure Node where
  strict : Bool                  -- @ 1 | 06 Table 6.5 | STRICT | S0 only
  weight : Nat                   -- @ 8 | 06 Table 6.5 | WRR weight | Table 6.5
  items  : Bool := false         -- @ 1 | 06 R238 COSTMODE | 0 bytes, 1 items | bytes
  ovh    : Nat                   -- @ 16 | 06 Table 6.5 OVH | bytes | 24 front, 4,096 drive
  quantum : Nat                  -- @ 16 | 06 Table 6.5 QUANTUM | 256 B units or items | 16 front (4 KiB), 64 drive (16 KiB)
  rate   : Nat := 0              -- @ 24 | 06 R255 RATE | MB/s or kitem/s, 0 no limit | 0
  tokens : Int := 65536          -- @ signed | 06 Table 6.4 | node rate limit's level, bytes or items | full (64 KiB)
  share  : Nat := 0              -- @ count | 06 Table 6.4 | cost served, in WRR shares | 0
  est    : Option Nat := none    -- @ 24 | 06 R240, R241 | measured estimate, MB/s or kitem/s (drive); none before the first measured interval | none
  out    : Nat := 0              -- @ count | 06 R247 | cost dispatched and not completed (drive) | 0
  busy   : Bool := false         -- @ 1 | 06 R241 | work outstanding throughout the interval so far | false
  done   : Nat := 0              -- @ count | 06 R241 | cost completed in the interval | 0
  deficit : Tab Nat := []        -- @ 2,049 levels | 06 Table 6.4 DWRR | deficits of the leaves with work | 0
  turn   : Nat := 0              -- @ 12 | 06 Table 6.4 DWRR | leaf whose turn it is | 0
  deriving DecidableEq, Repr

/-- A gate list as installed (R243). -/
structure GateList where
  entries : List (Nat × Nat)     -- @ 256 × (8, 32) | 06 R243 | open mask and duration, ns, of each entry | none
  base    : Nat                  -- @ 64 | 06 R245 BASE | PTP time, ns | none
  deriving DecidableEq, Repr

/-- The gate state of a QPORT (R243–R253). -/
structure Gate where
  cur     : Option GateList := none -- @ record | 06 R243 | the list kept as configuration and run | none
  next    : Option (Option GateList) := none -- @ record | 06 R246, R256 | list, or deactivation, that awaits its start | none
  change  : Nat := 0             -- @ 64 | 06 R245 CHANGE | earliest start of the awaited list, PTP ns | 0
  running : Bool := false        -- @ 1 | 06 R251 ACTIVE | the list governs the port | false
  idx     : Nat := 0             -- @ 8 | 06 R243 | entry index | 0
  cycleAt : Nat := 0             -- @ 64 | 06 R255 | start of the current cycle, PTP ns | 0
  entryEnd : Nat := 0            -- @ 64 | 06 R243 | end of the current entry, PTP ns | 0
  openAt  : Tab Nat := []        -- @ 8 × 64 | 06 R249 | module time of each class's last opening | 0
  shut    : Nat := 0             -- @ 8 | 06 R248 | classes whose node the gate guard holds until they reopen | 0
  hold    : Bool := false        -- @ 1 | 06 R252 | a time step holds the entry until the next aligned start | false
  stepAt  : Nat := 0             -- @ 64 | 06 R252 | PTP time of that aligned start | 0
  overAt  : Option Nat := none   -- @ 64 | 06 Table 6.9 event 195 | time of the last QOS.GATE_OVERRUN | none
  deriving DecidableEq, Repr

/-- A scheduler port: its shaper, nodes and gate list (R233). -/
structure QPort where
  rate   : Nat := 0              -- @ 24 | 06 R255 RATE | MB/s; 0 the default | 0
  burst  : Nat := 16             -- @ 8 | 06 R255 BURST | units of 16 KiB | 16 (256 KiB)
  level  : Int := 262144         -- @ signed bytes | 06 R237 | shaper level | full
  nodes  : Tab Node := []        -- @ 8 records | 06 Table 6.5 | nodes; absent is the default | Table 6.5
  gate   : Gate := {}            -- @ record | 06 R243 | gate list | none
  deriving DecidableEq, Repr

/-- The QOS desk. -/
structure Qos where
  subs   : Tab Sub := []         -- @ 2,049 records | 06 R227 | subscribers, 2048 the internal leaf; absent is the default | R227
  colour : Tab Nat := []         -- @ 64 × 2 | 06 R225 | colour of each DSCP: 0 green, 1 yellow, 2 red | green
  ports  : Tab QPort := []       -- @ 56 records | 06 R233 | QPORTs; absent is the default | Table 6.5
  watch  : Tab Nat := []         -- @ 64 × 11 | 06 R255 QOS.SET_WATCH | subscriber of each enabled watch | DC none
  estAt  : Nat := 0              -- @ 64 | 06 R241 | module time at which the present 10 ms interval began | 0
  tickAt : Nat := 0              -- @ 64 | 06 R223 | module time of the last token tick | 0
  deriving DecidableEq, Repr

end Sys2Proof.Machine
end

