-- ==== Sys2Proof/Machine/StateXpt.lean ====
section
/-! DEFINITION. State of the XPT desk: the connection contexts of both transports, the Pigeonhole cache, the SYN table, the
listeners and the Poste Restante regions (chapters 7 and 8). -/
namespace Sys2Proof.Machine

/-- Connection states (Table 7.4, R349). -/
inductive CState where
  | free | connecting | ready | closing | error | timewait | tls
  deriving DecidableEq, Repr

/-- A completion slot of a context's send queue (R299), with the class of its command (R219). -/
structure Held where
  cid    : Nat
  tag    : Option (Nat × Nat)
  status : NvStatus
  dnr    : Bool
  dw0    : Nat
  inv    : Option Nat
  cwait  : Bool
  mark   : Nat
  done   : Bool
  seq    : Option Nat
  cls    : Option Nat
  deriving DecidableEq, Repr

/-- A replay record entry (R319). -/
structure Replay where
  first : Nat
  last  : Nat
  rkey  : Nat
  off   : Nat
  len   : Nat
  deriving DecidableEq, Repr

/-- An atomic replay cache entry (R322). -/
structure AtomicRec where
  psn  : Nat
  rkey : Nat
  off  : Nat
  faa  : Bool
  orig : BitVec 64
  deriving DecidableEq, Repr

/-- A packet on a pending list (R372, R373). -/
inductive PendPkt where
  | roce (p : RocePkt)
  | ack (h : RoceHead) (psn : Nat) (k : AckKind)
  | resp (h : RoceHead) (psn tag gen off : Nat) (blks : List HBlk) (last : Bool)
  | cnp (h : RoceHead)
  | tcp (p : TcpSeg)
  | fin (seq : Nat) (frame : List Word)
  | rst (seq : Nat) (frame : List Word)
  deriving DecidableEq, Repr

/-- A message sent and not yet acknowledged by the host: its last PSN or sequence number, and the WSN of a WRITE. -/
structure SentMsg where
  last : Nat
  wsn  : Option Nat
  deriving DecidableEq, Repr

/-- A PDU, or a TLS record of the engine, laid out in a TCP connection's send stream (R738): its first sequence number and its bytes in the
stream, the command and the part of its data that it carries, how much of that data has come, its class, and its message. -/
structure TcpPdu where
  first : Nat
  size : Nat
  tag  : Option (Nat × Nat)
  off  : Nat
  len  : Nat
  got  : Nat
  cls  : Option Nat
  msg  : OutMsg
  deriving DecidableEq, Repr

/-- The rate state of a context (R289). -/
structure Rate where
  rc   : Rat := 0                -- @ MB/s | 07 R289 Rc | current rate | port line rate
  rt   : Rat := 0                -- @ MB/s | 07 R289 Rt | target rate | port line rate
  alpha : Rat := 1               -- @ 0–1 | 07 R289 α | estimate | 1
  n    : Nat := 0                -- @ count | 07 R289 n | periods since the last CNP | 0
  cutAt : Option Nat := none     -- @ 64 | 07 R290 | time of the last cut | none
  due  : Nat := 0                -- @ 64 | 07 R290 PERIOD | end of the present period | 0
  next : Nat := 0                -- @ 64 | 07 R289 | time until which what was sent and asked for takes the rate | 0
  deriving DecidableEq, Repr

/-- A connection context (R366, Table 8.4). -/
structure Ctx where
  tcp    : Bool := false         -- @ 1 | 07 Table 7.16 TRANSPORT | 0 RDMA, 1 TCP | 0
  st     : CState := .free       -- @ 3 | 07 R271, 08 R349 | connection state | FREE
  cause  : Nat := 0              -- @ 8 | 07 R276, 08 R350 CAUSE | cause of ERROR | 0
  lport  : Nat := 0              -- @ 5 | 07 Table 7.16 | logical port | 0
  src    : Nat := 0              -- @ 128 | 08 R377 | source IP address | 0
  sub    : Nat := 0              -- @ 11 | 07 Table 7.16 | subscriber | 0
  ctrl   : Option Nat := none    -- @ 16 | 09 R395 | CNTLID after Connect | none
  disc   : Bool := false         -- @ 1 | 09 R435 | discovery controller's connection | false
  qid    : Nat := 0              -- @ 8 | 07 Table 7.2 | queue identifier | 0
  sqsize : Nat := 0              -- @ 11 | 09 R394 | submission queue size | 0
  gen    : Nat := 0              -- @ 8 | 07 R263 GEN | QPN generation | DC 0 (first use is 1)
  rqpn   : Nat := 0              -- @ 24 | 07 Table 7.16 | host QPN | 0
  epsn   : Nat := 0              -- @ 24 | 07 R277 | expected PSN | 0
  npsn   : Nat := 0              -- @ 24 | 07 Table 7.16 | next PSN to send | 0
  una    : Nat := 0              -- @ 24 | 07 R282 | oldest unacknowledged PSN | 0
  msn    : Nat := 0              -- @ 24 | 07 R278 | message sequence number | 0
  unacked : Nat := 0             -- @ 5 | 07 R278 | request packets not yet acknowledged | 0
  ackAt  : Option Nat := none    -- @ 64 | 07 R278, 08 R345 | time by which an ACK has to leave | none
  nakSent : Bool := false        -- @ 1 | 07 R277 | a NAK PSN Sequence Error was sent for this gap | false
  mtu    : Nat := 0              -- @ 13 | 07 R270 | path MTU, or the TCP segment size | 0
  retry  : Nat := 0              -- @ 3 | 07 R270 | retry count of the REQ | 0
  tries  : Nat := 0              -- @ 4 | 07 R283, 08 R346 | timeouts without progress | 0
  rnrRetry : Nat := 0            -- @ 3 | 07 R270 | RNR retry count of the REQ | 0
  rnrTries : Nat := 0            -- @ 3 | 07 Table 7.5 | RNR NAKs without progress | 0
  depth  : Nat := 0              -- @ 7 | 07 R285 | initiator depth | 0
  reads  : Nat := 0              -- @ 7 | 07 R285 | RDMA READ Requests outstanding | 0
  readq  : List (Nat × Nat × Nat) := [] -- @ list | 07 R285, R298, 08 R354 | READs or R2Ts still to send: tag, byte offset, bytes | empty
  readOut : List (Nat × Nat × Nat) := [] -- @ list | 07 R286, 08 R354 | READs or R2Ts outstanding: tag, byte offset, bytes | empty
  rdAt   : List Nat := []        -- @ list | 07 R286 | next PSN expected of each RDMA READ outstanding, oldest first | empty
  toAt   : Option Nat := none    -- @ 64 | 07 R281, 08 R346 | ACK timeout or RTO due | none
  resendAt : Option Nat := none  -- @ 64 | 07 R284 | end of an RNR delay | none
  sent   : List SentMsg := []    -- @ list | 07 R303 | messages not yet acknowledged | empty
  fillH  : Option Nat := none    -- @ 24 | 16 R750 | send horizon below which a new active still fills the PSNs | none
  sends  : List (Nat × OutMsg) := [] -- @ list | 16 R750 | recorded SENDs of the former active, by PSN | empty
  wsn    : Nat := 0              -- @ 32 | 07 R303 WSN | write sequence number | 0
  acked  : Nat := 0              -- @ 32 | 07 R303 | acknowledged-write count | 0
  slots  : Nat := 0              -- @ 16 | 07 R299 | completion slots (HRQSIZE) | 0
  held   : List Held := []       -- @ list | 07 R299 | held completions | empty
  ready  : List Held := []       -- @ list | 07 R300 | released completions not yet transmitted, in release order | empty
  replay : List Replay := []     -- @ 64 | 07 R319 | replay record, newest first | empty
  inWrite : Option (Nat × Nat × Bool × Nat) := none -- @ record | 07 R320 | R_Key, next offset, whether it executes, and end of the WRITE message in progress | none
  atomics : List AtomicRec := [] -- @ 16 | 07 R322 | atomic replay cache, newest first | empty
  rate   : Rate := {}            -- @ record | 07 R289 | rate state | as its fields
  cnpAt  : Option Nat := none    -- @ 64 | 07 R288 | time of the last CNP sent | none
  repAt  : Option Nat := none    -- @ 64 | 07 R268 | next resend of the REP | none
  reps   : Nat := 0              -- @ 2 | 07 R268 | REPs resent | 0
  dreqAt : Option Nat := none    -- @ 64 | 07 R273 | end of the wait for a DREP | none
  freeAt : Option Nat := none    -- @ 64 | 07 R274, 08 R349 | end of TIMEWAIT | none
  icAt   : Option Nat := none    -- @ 64 | 08 Table 8.2 cause 11 | time by which the ICReq has to come | none
  tlsAt  : Option Nat := none    -- @ 64 | 08 R360 | end of the handshake's 5 s | none
  tlsOn  : Bool := false         -- @ 1 | 08 R361 | TLS records in use | false
  tlsHeld : Bool := false        -- @ 1 | 08 R363 | decryption waits for a new key | false
  tlsRx  : Nat := 0              -- @ 64 | 08 R365 | received record sequence number under the present key | 0
  tlsTx  : Nat := 0              -- @ 64 | 08 R364, R365 | sent record sequence number under the present key | 0
  icDone : Bool := false         -- @ 1 | 08 R351 | ICResp sent | false
  rxKey  : Nat := 0              -- @ 384 | 08 R365 | receiving traffic secret | 0
  txKey  : Nat := 0              -- @ 384 | 08 R365 | sending traffic secret | 0
  hdgst  : Bool := false         -- @ 1 | 08 R351 | header digest | false
  ddgst  : Bool := false         -- @ 1 | 08 R351 | data digest | false
  hpda   : Nat := 0              -- @ 5 | 08 R351 HPDA | alignment of C2HData, 4 × (HPDA + 1) bytes | 0
  maxr2t : Nat := 1              -- @ 3 | 08 R354 | R2Ts outstanding per command | 1
  sport  : Nat := 0              -- @ 16 | 08 Table 8.11 | local TCP port | 0
  rport  : Nat := 0              -- @ 16 | 08 Table 8.11 | remote TCP port | 0
  rcvNxt : Nat := 0              -- @ 32 | 08 R344 | RCV.NXT | 0
  sndNxt : Nat := 0              -- @ 32 | 08 Table 8.11 | SND.NXT | 0
  sndUna : Nat := 0              -- @ 32 | 08 Table 8.11 | SND.UNA | 0
  laid   : Nat := 0              -- @ 32 | 16 R738 | end of what is laid out of the send stream | 0
  pdus   : List TcpPdu := []     -- @ 128 KiB and more | 08 Table 8.4, 16 R738 | send stream from SND.UNA: what is laid out and not wholly acknowledged | empty
  wnd    : Nat := 0              -- @ 30 | 08 Table 8.1 | the host's receive window, bytes | 0
  wscale : Option Nat := none    -- @ 4 | 08 Table 8.1 | the window scale that the host offers | none
  tsOn   : Bool := false         -- @ 1 | 08 Table 8.1 | timestamps in use | false
  tsRec  : Nat := 0              -- @ 32 | 08 Table 8.1 (RFC 7323) | TSval to echo | 0
  sacks  : List (Nat × Nat) := [] -- @ list | 08 Table 8.1 | sequence ranges that the host's SACK blocks report | empty
  rex    : Option Nat := none    -- @ 32 | 08 R346 (RFC 6298) | after a timeout, the next sequence number to send again | none
  recover : Option Nat := none   -- @ 32 | 08 R346 (RFC 5681) | end of what was sent at the fast retransmission | none
  cwnd   : Nat := 0              -- @ 32 | 08 Table 8.1 | congestion window, bytes | 0
  ssth   : Nat := 0              -- @ 32 | 08 Table 8.1 (RFC 5681) | slow-start threshold | 0
  srtt   : Nat := 0              -- @ 64 | 08 R346 (RFC 6298) | smoothed round-trip time, ns; 0 none | 0
  rttvar : Nat := 0              -- @ 64 | 08 R346 (RFC 6298) | round-trip time variation, ns | 0
  timed  : Option (Nat × Nat) := none -- @ 96 | 08 R346 (RFC 6298) | sequence number being timed, and when it was sent | none
  dAck   : Nat := 0              -- @ 32 | 08 Table 8.1 (RFC 8257) | bytes acknowledged in this observation window | 0
  dMark  : Nat := 0              -- @ 32 | 08 Table 8.1 (RFC 8257) | of these, bytes acknowledged with ECE | 0
  dEnd   : Nat := 0              -- @ 32 | 08 Table 8.1 (RFC 8257) | end of the observation window | 0
  ceRx   : Bool := false         -- @ 1 | 08 Table 8.1 (RFC 8257) | CE mark of the last segment received | false
  rwin   : Nat := 0              -- @ 13 | 08 R381 RCVWIN | receive window of this connection, KiB | 0
  h2c    : Nat := 0              -- @ 9 | 08 R381 H2CMAX | MAXH2CDATA of this connection, 4 KiB units | 0
  dups   : Nat := 0              -- @ 2 | 08 R346 | duplicate ACKs in a row | 0
  rto    : Nat := 0              -- @ 64 | 08 R346 | retransmission timeout, ns | 1 s
  ecnOk  : Bool := false         -- @ 1 | 08 Table 8.1 | ECN negotiated | false
  segs   : Nat := 0              -- @ 2 | 08 R345 | full-sized segments not yet acknowledged | 0
  finAns : Bool := false         -- @ 1 | 08 R349 | the host's FIN still has to be answered | false
  pend   : List PendPkt := []    -- @ list | 08 R372 | pending list | empty
  resident : Bool := false       -- @ 1 | 08 R367 | record in the Pigeonhole cache | false
  ref    : Bool := false         -- @ 1 | 08 R368 | CLOCK referenced bit | false
  pinned : Bool := false         -- @ 1 | 08 R369 | pinned | false
  fill   : Nat := 0              -- @ 2 | 08 R371 | 0 no fill, 1 queued, 2 in flight | 0
  poison : Bool := false         -- @ 1 | 08 R374 | the record holds poison | false
  inflight : Nat := 0            -- @ 16 | 07 Table 7.16 INFLIGHT | commands in flight | 0
  deriving DecidableEq, Repr

/-- A SYN table entry (R340). -/
structure SynEnt where
  src   : Nat
  rport : Nat
  lport : Nat
  dport : Nat
  v6    : Bool
  dst   : Nat
  vid   : Nat
  tagged : Bool
  tls   : Bool
  mss   : Nat
  ecn   : Bool
  wnd   : Nat
  scale : Option Nat
  ts    : Option Nat
  own   : Nat
  isn   : Nat
  irs   : Nat
  tries : Nat
  dueAt : Nat
  deriving DecidableEq, Repr

/-- A Poste Restante region (R307, R308), or the Tally region's key and grants as index 4096. -/
structure Region where
  once   : Bool := false         -- @ 1 | 07 R308 KIND | 0 plain, 1 once | created
  rights : Nat := 0              -- @ 3 | 07 R308 | bit 0 READ, bit 1 WRITE, bit 2 ATOMIC | created
  pages  : Nat := 0              -- @ 21 | 07 R307 PAGES | 4 KiB pages | created
  key    : Nat := 0              -- @ 19 | 07 R309 | key tag | from the DRBG
  grants : Tab Nat := []         -- @ 2,048 × 3 | 07 R308 | rights by subscriber | none
  words  : Tab (BitVec 64) := [] -- @ 8-byte words | 07 R307, R321 | contents; absent is 0 | zero
  poison : List Nat := []        -- @ list | 07 R317 | poisoned 8-byte words | none
  deriving DecidableEq, Repr

/-- The XPT desk. -/
structure Xpt where
  ctxs   : Tab Ctx := []         -- @ 65,536 records | 08 R366 | contexts; absent is FREE | FREE
  rports : Nat := 0              -- @ 32 | 07 Table 7.13 LPMASK | RoCEv2 logical ports | DC 0
  svc    : Nat := 4420           -- @ 16 | 07 R265 SVCPORT | listener port | 4420
  rv4    : Bool := false         -- @ 1 | 07 Table 7.13 V4 | RDMA accepts IPv4 | DC 0
  rv6    : Bool := false         -- @ 1 | 07 Table 7.13 V6 | RDMA accepts IPv6 | DC 0
  ackto  : Nat := 14             -- @ 5 | 07 R281 ACKTO | ACK timeout code | 14
  rnrt   : Nat := 1              -- @ 5 | 07 Table 7.14 RNRT | RNR timer code | 1
  cnpgap : Nat := 50             -- @ 16 | 07 R288 CNPGAP | µs | 50
  g      : Nat := 8              -- @ 4 | 07 Table 7.8 G | G | 8
  rai    : Nat := 40             -- @ 16 | 07 Table 7.8 RAI | MB/s | 40
  rhai   : Nat := 400            -- @ 16 | 07 Table 7.8 RHAI | MB/s | 400
  rmin   : Nat := 10             -- @ 16 | 07 Table 7.8 RMIN | MB/s | 10
  period : Nat := 55             -- @ 16 | 07 Table 7.8 PERIOD | µs | 55
  regions : Tab Region := []     -- @ 4,097 records | 07 R307, R325 | regions; 4096 the Tally region | none
  denied : Tab Nat := []         -- @ 4,097 × 64 | 07 Table 7.20 event 257 | time of the last denial raised, by region index | none
  store  : List (Nat × Nat) := [] -- @ 4 MiB | 07 R280 | capsule store: context and bytes, oldest first | empty
  storeTold : Bool := false      -- @ 1 | 07 Table 7.20 event 260 | RNR NAK raised since the store was below 90 % | false
  tports : Nat := 0              -- @ 32 | 08 Table 8.7 LPMASK | NVMe/TCP logical ports | DC 0
  port   : Nat := 4420           -- @ 16 | 08 R339 PORT | plain listener | 4420
  tlsPort : Nat := 4421          -- @ 16 | 08 R339 TLSPORT | TLS listener | 4421
  tv4    : Bool := false         -- @ 1 | 08 Table 8.7 V4 | TCP accepts IPv4 | DC 0
  tv6    : Bool := false         -- @ 1 | 08 Table 8.7 V6 | TCP accepts IPv6 | DC 0
  plain  : Bool := false         -- @ 1 | 08 Table 8.7 PLAIN | plain listener enabled | DC 0
  tls    : Bool := false         -- @ 1 | 08 R339 TLS | TLS listener enabled | 0
  mtu    : Nat := 9000           -- @ 14 | 08 Table 8.8 MTU | bytes | 9,000
  rcvwin : Nat := 1024           -- @ 13 | 08 Table 8.8 RCVWIN | KiB | 1,024
  ecn    : Bool := true          -- @ 1 | 08 Table 8.8 ECN | accept ECN | 1
  rtomin : Nat := 20             -- @ 16 | 08 Table 8.8 RTOMIN | 100 µs units | 20
  rtomax : Nat := 2000           -- @ 16 | 08 Table 8.8 RTOMAX | ms | 2,000
  retries : Nat := 8             -- @ 4 | 08 Table 8.8 RETRIES | timeouts | 8
  h2cmax : Nat := 32             -- @ 9 | 08 Table 8.8 H2CMAX | 4 KiB units | 32
  pskke  : Bool := false         -- @ 1 | 08 R382 PSKKE | psk_ke permitted | DC 0
  groups : Nat := 3              -- @ 2 | 08 R382 GROUPS | bit 0 secp384r1, bit 1 x25519 | DC 3
  srcmax : Nat := 1024           -- @ 17 | 08 R377 SRCMAX | connections per source | 1,024
  syns   : Tab SynEnt := []      -- @ 8,192 records | 08 R340 | SYN table | empty
  synTold : Bool := false        -- @ 1 | 08 R340 | XPT.SYN_TABLE_FULL raised for this filling | false
  poolTold : Bool := false       -- @ 1 | 08 R377 | XPT.POOL_EXHAUSTED raised for this exhaustion | false
  fillq  : List Nat := []        -- @ list | 08 R371 | contexts whose fill is queued, by first need | empty
  fillAt : Option Nat := none    -- @ 64 | 08 R371 | time of the last start of a fill | none
  hand   : Nat := 0              -- @ 16 | 08 R368 | CLOCK hand | DC 0
  dropAt : Option Nat := none    -- @ 64 | 08 R373 | time of the last XPT.PENDING_DROP | none
  hsq    : List Nat := []        -- @ 1,280 | 08 R360 | connections in a TLS handshake: the first 256 run, the rest wait | empty
  admq   : List ConnectReq := [] -- @ 512 | 08 R378 | Kumel's admission queue | empty
  admTold : Bool := false        -- @ 1 | 08 Table 8.12 event 268 | ADMISSION_BUSY raised since the queue was below 90 % | false
  deriving DecidableEq, Repr

end Sys2Proof.Machine
end

