-- ==== Sys2Proof/Machine/StateNvm.lean ====
section
/-! DEFINITION. State of the NVM desk: the host table, the controllers, the command tags and the started commands, and
Sanitize (chapter 9). -/
namespace Sys2Proof.Machine

/-- A host table entry (R392, Tables 9.14 and 9.15). -/
structure HostEnt where
  nqn     : List Word := []      -- @ 223 bytes | 09 R392 | host NQN | entry unused
  sub     : Nat := 0             -- @ 11 | 09 R392 SUB | subscriber | entry unused
  enable  : Bool := false        -- @ 1 | 09 Table 9.14 ENABLE | accepts Connect | entry unused
  priv    : Nat := 0             -- @ 4 | 09 Table 9.1 PRIV | ADMIN, FORMAT, SANITIZE, POWER | entry unused
  auth    : Bool := false        -- @ 1 | 09 Table 9.14 AUTH | DH-HMAC-CHAP required | entry unused
  bidir   : Bool := false        -- @ 1 | 09 Table 9.14 BIDIR | controller authentication required | entry unused
  tlsReq  : Bool := false        -- @ 1 | 09 Table 9.14 TLSREQ | TLS listener required | entry unused
  hashes  : Nat := 0             -- @ 3 | 09 Table 9.14 HASHES | permitted hashes | entry unused
  dhg     : Nat := 0             -- @ 5 | 09 Table 9.14 DHG | permitted DH groups | entry unused
  maxCtrl : Nat := 4             -- @ 5 | 09 R390 MAXCTRL | controllers | 4
  bound   : Option Nat := none   -- @ 128 | 09 R393 | bound Host Identifier | none
  secret  : Option (Nat × List Word) := none -- @ 64 bytes | 09 R448 | host secret with its transform | none
  ctrlSecret : Option (Nat × List Word) := none -- @ 64 bytes | 09 R448 | controller secret with its transform | none
  psk     : Option (Nat × List Word) := none -- @ 48 bytes | 09 R448 | TLS PSK with its transform | none
  deriving DecidableEq, Repr

/-- The authentication transaction of a controller (R398, R399). -/
inductive AuthPhase where
  | none | challenge (hash group : Nat) | success (bidir : Bool) | failure (reason : Nat) | done
  deriving DecidableEq, Repr

/-- A controller (R389–R407). -/
structure Ctrl where
  host    : Nat                  -- @ 11 | 09 Table 9.16 HOST | host entry | at Connect
  hostId  : Nat                  -- @ 128 | 09 R393 | Host Identifier | at Connect
  disc    : Bool := false        -- @ 1 | 09 R435 | discovery controller | at Connect
  authd   : Bool := false        -- @ 1 | 09 Table 9.16 AUTHD | authenticated | at Connect
  needAuth : Bool := false       -- @ 1 | 09 R397 | waits for authentication | at Connect
  authFails : Nat := 0           -- @ 2 | 09 R400 | failed transactions | 0
  auth    : AuthPhase := .none   -- @ record | 09 R398 | authentication transaction | none
  adminCtx : Nat                 -- @ 16 | 09 R395 | admin connection | at Connect
  src     : Nat                  -- @ 128 | 09 R401 | source address of the admin connection | at Connect
  en      : Bool := false        -- @ 1 | 09 R406 CC.EN | enabled | 0
  rdy     : Bool := false        -- @ 1 | 09 R406 CSTS.RDY | ready | 0
  shst    : Nat := 0             -- @ 2 | 09 R407 CSTS.SHST | shutdown status | 0
  shNs    : List Nat := []       -- @ list | 09 R407 | namespaces that the shutdown's Flush covers | empty
  shOrder : Nat := 0             -- @ counter | 09 R407 | start order that the shutdown's Flush covers | 0
  ioqa    : Nat := 16            -- @ 8 | 09 R394 | I/O queues allocated | 16
  kato    : Nat                  -- @ 32 | 09 R394 KATO | ms | at Connect
  kaAt    : Nat                  -- @ 64 | 09 R402 | module time of keep-alive expiry | at Connect
  aers    : List (Nat × Nat) := [] -- @ 8 | 09 R391 | outstanding Asynchronous Event Requests: context and command identifier | empty
  notices : List (Nat × Nat) := [] -- @ list | 09 R404 | pending notices: kind and information | empty
  vwc     : Bool := true         -- @ 1 | 09 Table 9.7 FID 06h | Volatile Write Cache | 1
  aec     : Nat := 0             -- @ 32 | 09 Table 9.7 FID 0Bh | Asynchronous Event Configuration | DC 0
  tthr    : Nat := 373           -- @ 16 | 09 Table 9.7 FID 04h | over-temperature threshold, K | 373 (100 °C)
  tthrU   : Nat := 0             -- @ 16 | 09 Table 9.7 FID 04h | under-temperature threshold, K | DC 0
  errLog  : List (Nat × Nat × Nat) := [] -- @ 64 records | 09 Table 9.6 log 01h | queue, command identifier and status of the last failed commands, newest first | empty
  rmask   : Tab Nat := []        -- @ per namespace | 09 Table 9.7 FID 82h | reservation notification mask | DC 0
  resLog  : List (Nat × Nat) := [] -- @ 32 | 09 R430 | unread reservation notices: NSID and kind | empty
  resLost : Nat := 0             -- @ count | 09 R430 | notices beyond 32 | 0
  changed : List Nat := []       -- @ list | 10 R506 | Changed Namespace List log (04h) | empty
  anaChg  : Nat := 0             -- @ 64 | 09 R434 | change count of log 0Ch | DC 0
  aborts  : List (Nat × Nat × Nat × Nat) := [] -- @ 4 | 09 R421, R422 | outstanding Aborts: context, command identifier, SQID, CID | empty
  deriving DecidableEq, Repr

/-- A namespace block in the write buffer, exactly as it will be written (R515): data as enciphered, PI, Sealed nonce
(Table 14.1) and tag, its writer's start order (R520) and the poison mark. -/
structure PBlk where
  d      : Nat
  pi     : Nat
  nonce  : Nat
  tag    : Nat
  order  : Nat
  poison : Bool
  deriving DecidableEq, Repr

/-- Where a started command stands: waiting for map lines (R488), under R416, for buffer space (R519), at a migrating
parcel (R498), running, or internally ended. -/
inductive CPhase where
  | map | order | space | hold | run | ended
  deriving DecidableEq, Repr

/-- A started I/O command (R413): its tag's generation, start order, subscriber, class and map epoch, what it waits for,
and what it has gathered. `need` and `tzNeed` are the spans and tag-zone blocks still to come from members, `raw` and `tz`
those that came, `buf` the buffer's blocks as they stood when it was served, `zeros` the spans that read as zero, `host`
the data that came from the host, `left` the host blocks still to come, `pages` the pages it reserved, `waitPg` the pages
whose destage it waits for, `ready` that its data done message is due, `seq` the shadow record that has to be postmarked
first, `gone` that its connection has left READY,
`after` and `preempt` the start orders of the commands it follows or waits for, `fills` the extents whose written bit it set,
`displaced` the buffered blocks that its data replaced, `src` the
member that gave each span, or 64 more where the span was reconstructed for a failed tag of that member (R659). -/
structure Cmd where
  cmd    : HostCmd
  gen    : Nat
  order  : Nat
  sub    : Nat
  cls    : Nat
  epoch  : Nat
  phase  : CPhase
  after  : List Nat := []
  lines  : List Nat := []
  need   : List Nat := []
  tzNeed : List Nat := []
  raw    : Tab Blk := []
  tz     : Tab Blk := []
  buf    : Tab (Tab PBlk) := []
  zeros  : List Nat := []
  host   : Tab HBlk := []
  left   : Nat := 0
  pages  : List Nat := []
  waitPg : List Nat := []
  moved  : Bool := false
  disp   : Bool := false
  status : NvStatus := .success
  dnr    : Bool := false
  ready  : Bool := false
  seq    : Option Nat := none
  done   : Bool := false
  gone   : Bool := false
  preempt : List Nat := []
  fills  : List Nat := []
  displaced : Tab (Option PBlk) := []
  src    : Tab Nat := []
  again  : Bool := false
  orphan : Bool := false
  deriving DecidableEq, Repr

/-- The NVM desk. -/
structure Nvm where
  nqn    : Option (List Word) := none -- @ 223 bytes | 09 R388 | subsystem NQN set; none is the default name | none
  hosts  : Tab HostEnt := []     -- @ 2,048 records | 09 R392 | host table | DC empty
  ctrls  : Tab Ctrl := []        -- @ 4,095 records | 09 R390 | live controllers by CNTLID | empty
  ended  : Tab Nat := []         -- @ list | 09 R389 | end time of the controllers that ended in the last 10 s | empty
  tags   : Tab Cmd := []         -- @ 262,144 records | 09 R413 | started commands by tag index | empty
  gens   : Tab Nat := []         -- @ 262,144 × 6 | 09 R413 | generation of each tag index; absent is 0 | DC 0
  order  : Nat := 0              -- @ counter | 09 R413 | start order of the last command started | 0
  refusedAt : Option Nat := none -- @ 64 | 09 Table 9.17 event 323 | time of the last CONNECT_REFUSED | none
  regs   : Nat := 0              -- @ 17 | 09 R424 | registrations of the shelf | 0
  sanitize : Option (List Nat) := none -- @ list | 09 R412 | Sanitize running: key slots still to erase | none
  sanDone : Bool := false        -- @ 1 | 09 R412 | the last Sanitize completed (log 81h) | false
  chgDisc : Nat := 0             -- @ 64 | 09 R438 | discovery log generation | DC 0
  deriving DecidableEq, Repr

end Sys2Proof.Machine
end

