-- ==== Sys2Proof/Machine/StateVol.lean ====
section
/-! DEFINITION. State of the VOL and RED desks: sets, members, dirty-region logs, bad-range tables, namespaces, the map and
its epochs, reservations, migration (chapters 10 and 12). -/
namespace Sys2Proof.Machine

/-- Member states (Table 12.2). -/
inductive MState where
  | current | absent | ejected | rebuilding | resyncing
  deriving DecidableEq, Repr

/-- Set states (Table 10.10). -/
inductive SState where
  | initialising | optimal | degraded | rebuilding | offline
  deriving DecidableEq, Repr

/-- A member index of a set. -/
structure Member where
  st     : MState := .current    -- @ 3 | 12 R554 | member state | CURRENT at creation
  slot   : Option Nat := none    -- @ 5 | 12 Table 12.15 SLOT | slot of its drive | at creation
  serial : Nat := 0              -- @ 64 | 12 Table 12.3 DRIVEID | serial number of its drive | at creation
  reason : Nat := 0              -- @ 3 | 12 Table 12.15 REASON | last ejection reason | 0
  log    : Option Nat := none    -- @ 2 | 12 Table 12.15 LOGSLOT | log slot tracking the member | none
  wm     : Nat := 0              -- @ 64 | 12 Table 12.3 MEMBERWM | rebuild watermark, stripes, or resync watermark, regions | 0
  wasEj  : Bool := false         -- @ 1 | 12 Table 12.3 EJMASK | became EJECTED when it last became missing | clear
  last   : Option Nat := none    -- @ 5 | 12 Table 12.3 LASTSLOT | slot the index's drive last occupied | at creation
  since  : Nat := 0              -- @ 64 | 12 R579 | module time at which it became missing | 0
  fired  : Bool := false         -- @ 1 | 12 R579 | rebuild trigger fired | false
  wish   : Option Nat := none    -- @ 5 | 12 R605 RED.START_REBUILD | slot that RED.START_REBUILD named | none
  told   : Bool := false         -- @ 1 | 12 R579 | RED.NO_SPARE raised for this trigger | false
  deriving DecidableEq, Repr

/-- A dirty-region log slot (Table 12.6). -/
structure LogSlot where
  st     : Nat := 0              -- @ 2 | 12 Table 12.6 SSTATE | 0 free, 1 open, 2 closed | free
  member : Nat := 0              -- @ 5 | 12 Table 12.6 MEMBER | member index | 0
  depgen : Nat := 0              -- @ 32 | 12 Table 12.6 DEPGEN | GEN when it became missing | 0
  oseq   : Nat := 0              -- @ 64 | 12 Table 12.6 OSEQ | order of opening | 0
  bits   : List Nat := []        -- @ bitmap | 12 R576 | regions marked, ascending | none
  kept   : List Nat := []        -- @ bitmap | 12 R578 | marked regions whose bitmap block is on every CURRENT member | none
  deriving DecidableEq, Repr

/-- A bad-range entry (Table 12.8). -/
structure BadRange where
  stripe  : Nat
  nstripes : Nat
  member  : Nat
  first   : Nat
  count   : Nat
  cause   : Nat
  deriving DecidableEq, Repr

/-- A set. -/
structure VSet where
  type    : Nat                  -- @ 2 | 10 Table 10.2 | type | at creation
  width   : Nat                  -- @ 5 | 10 R458 | width W | at creation
  strip   : Nat                  -- @ 2 | 10 Table 10.9 STRIP | 0 64 KiB, 1 128 KiB, 2 256 KiB | at creation
  fmt     : Nat                  -- @ 1 | 10 R460 FMT | drive format | at creation
  tagzone : Bool                 -- @ 1 | 10 R460 TAGZONE | tag zone | at creation
  reserve : Nat                  -- @ 23 | 10 R474 RESERVE | parcels | at creation
  setid   : Nat                  -- @ 64 | 10 Table 10.9 SETID | set identifier | from the DRBG
  gen     : Nat := 1             -- @ 32 | 12 R558 GEN | set generation | 1 (R501)
  stripes : Nat                  -- @ 64 | 10 R461 S | strips per member | at creation
  st      : SState               -- @ 3 | 10 Table 10.10 | set state | R463, R465
  cause   : Nat := 0             -- @ 3 | 12 R590 CAUSE | last OFFLINE cause | 0
  members : Tab Member := []     -- @ 24 records | 12 R554 | member indexes | at creation
  parcels : Tab Bool := []       -- @ 8,388,607 flags | 10 R472, R473 | parcels not free: granted (true) or quarantined (false) | all free
  initWm  : Nat := 0             -- @ 64 | 10 R463 | initialisation watermark, stripes | 0
  patWm   : Nat := 0             -- @ 64 | 12 R596 PATWM | patrol round position | 0
  laps    : Nat := 0             -- @ 32 | 12 Table 12.14 LAPS | completed patrol laps | 0
  lapTime : Nat := 0             -- @ 32 | 12 Table 12.14 LAPTIME | s | 0
  lapAt   : Nat := 0             -- @ 64 | 12 R598 | module time at which the lap began | 0
  mism    : Nat := 0             -- @ 32 | 12 Table 12.14 MISMATCH | mismatches in this lap | 0
  hedge   : Nat := 20            -- @ 10 | 12 R562 HEDGE | ms | 20
  absentWait : Nat := 5          -- @ 6 | 12 R579 ABSENTWAIT | minutes | 5
  autoReplace : Bool := true     -- @ 1 | 12 R580 AUTOREPLACE | 1
  rbRate  : Nat := 0             -- @ 16 | 12 R583 RBRATE | MB/s, 0 no cap | 0
  rbDepth : Nat := 32            -- @ 9 | 12 R583 RBDEPTH | stripes | 32
  patRate : Nat := 1000          -- @ 16 | 12 R596 PATRATE | MB/s | 1,000
  logs    : Tab LogSlot := []    -- @ 4 records | 12 R576 | dirty-region log slots; absent is free | free
  bad     : List BadRange := []  -- @ 1,048,576 records | 12 R593 | bad-range table, ascending stripe order | empty
  creator : Nat := 0             -- @ 64 | 12 Table 12.3 CREATOR | serial of the module that created the set | at creation
  iseq    : Nat := 0             -- @ 64 | 12 Table 12.3 ISEQ | write sequence of its identity records | 0
  idMoved : Bool := false        -- @ 1 | 12 R557 | a watermark moved since the last identity record write | false
  idAt    : Nat := 0             -- @ 64 | 12 R557 | module time of the last identity record write | 0
  lowTold : Bool := false        -- @ 1 | 10 R477 | VOL.SET_LOW raised and not re-armed | false
  recover : Bool := false        -- @ 1 | 11 R544 | open records still have to be recovered before it serves | false
  holes   : Bool := false        -- @ 1 | 12 R592 | online with holes by RED.FORCE_ONLINE, until OPTIMAL | false
  idWait  : Option (List (Nat × Nat)) := none -- @ list | 12 R558 | open records, with home members, whose journal blocks under the new GEN have to be persisted before the identity records carry it | none
  rbAt    : Nat := 0             -- @ 64 | 12 R583, 10 R463 | module time from which RBRATE lets the next stripe start | 0
  patAt   : Nat := 0             -- @ 64 | 12 R596 | module time from which PATRATE lets the next stripe start | 0
  deriving DecidableEq, Repr

/-- A leaf entry of the namespace map with its written map (Table 10.5). -/
structure Leaf where
  set     : Nat                  -- @ 5 | 10 Table 10.5 SET | set | unbacked
  parcel  : Nat                  -- @ 23 | 10 Table 10.5 SPARCEL | parcel number | unbacked
  moving  : Bool := false        -- @ 1 | 10 Table 10.5 MOVING | migration under way | 0
  wmap    : Nat := 0             -- @ 24 | 10 Table 10.5 WMAP | index of its written map | unbacked
  written : Nat := 0             -- @ 1,024 | 10 R466 | written map, bit e for extent e | clear
  deriving DecidableEq, Repr

/-- The reservation state of a namespace (R423–R430). -/
structure Resv where
  regs   : List (Nat × Nat) := [] -- @ 2,048 records | 09 R424 | registrants: Host Identifier and key | none
  holder : Option Nat := none    -- @ 128 | 09 R425 | Host Identifier that holds the reservation | none
  rtype  : Nat := 0              -- @ 3 | 09 R425 | reservation type, 1–6 | 0
  gen    : Nat := 0              -- @ 32 | 09 R427 | generation reported by Reservation Report | 0
  deriving DecidableEq, Repr

/-- A namespace (R478). -/
structure Ns where
  home    : Nat                  -- @ 3 | 10 R478 HOME | home shelf position | at creation
  lbaf    : Nat                  -- @ 2 | 10 Table 10.3 | LBA format | at creation
  pit     : Nat                  -- @ 2 | 10 R479 PIT | PI type | at creation
  enc     : Nat                  -- @ 2 | 10 R481 ENC | encryption | at creation
  thick   : Bool                 -- @ 1 | 10 R476 THICK | thick | at creation
  userResv : Bool                -- @ 1 | 10 R474 USERESV | uses reserve | at creation
  spread  : Bool                 -- @ 1 | 10 R473 PLACE | 0 FILL, 1 SPREAD | at creation
  size    : Nat                  -- @ 23 | 10 R478 SIZE | parcels | at creation
  quota   : Nat                  -- @ 23 | 10 R475 QUOTA | parcels, 0 the size | at creation
  sets    : List Nat             -- @ 8 × 5 | 10 R473 | set list | at creation
  hosts   : List Nat := []       -- @ 2,048 flags | 10 R482 | attached host entries, ascending | detached (R478)
  ro      : Bool := false        -- @ 1 | 10 R490, 14 R666 | read-only | 0
  salt    : Nat                  -- @ 128 | 10 R481 | tweak salt | from the DRBG
  kcv     : Nat := 0             -- @ 64 | 14 R672 | check value of its key | at creation
  kgen    : Nat := 0             -- @ 32 | 14 Table 14.1 KGEN | generation recorded with the namespace | at creation
  leafAt  : List Nat := []       -- @ 4,096 entries | 10 R487 | level-1 table: place of each leaf in group T, in units of 8 KiB | at creation
  map     : Tab Leaf := []       -- @ parcel entries | 10 R487 | backed parcel indexes | unbacked
  resv    : Resv := {}           -- @ record | 09 R423 | reservation state | none
  held    : Bool := false        -- @ 1 | 14 R677 | new starts held for Format or Sanitize | false
  deleting : Bool := false       -- @ 1 | 10 R505 | detached at a deletion's flip, waits for the drain | false
  creating : Bool := false       -- @ 1 | 10 R504 | THICK creation not finished | false
  deriving DecidableEq, Repr

/-- A change that takes effect at a map epoch flip (R491). -/
inductive VChange where
  | create (nsid : Nat) (n : Ns)
  | delete (nsid : Nat)
  | resize (nsid size : Nat)
  | attach (nsid host : Nat) (detach : Bool)
  | switch (nsid index set parcel : Nat)
  deriving DecidableEq, Repr

/-- Who waits for a change: a Letterbox command, a host's admin command, or the module itself. -/
inductive VWho where
  | letter (door : Nat) (tag : Word) (op : Nat)
  | host (ctx cid : Nat)
  | self
  deriving DecidableEq, Repr

/-- A change with who waits for it. -/
structure VQueued where
  who : VWho
  chg : List VChange
  deriving DecidableEq, Repr

/-- A reply withheld until older map epochs drain (R493). -/
structure VWait where
  who    : VWho
  chg    : List VChange
  epoch  : Nat
  flipAt : Nat
  sent   : Bool
  orphan : Bool
  deriving DecidableEq, Repr

/-- A parcel in quarantine (R472), with the index that it backed: the commands started before the return, and the pages and records that held its blocks. -/
structure Quar where
  ns     : Nat
  index  : Nat
  set    : Nat
  parcel : Nat
  cmds   : List Nat
  pages  : List Nat
  recs   : List Nat
  deriving DecidableEq, Repr

/-- Parcel migration (R497, R498): the parcel under way with its target, the passes ended, `step` 1 while it passes, 3 while
new write-type starts are held, 5 while the switch waits for its flip, 6 after it; `marks` are the extents that destages marked, `todo` those of this pass,
`next` the block of the parcel from which the pass has still to copy. -/
structure Migration where
  ns     : Nat
  last   : Nat
  target : Nat
  index  : Nat
  parcel : Option Nat
  pass   : Nat
  step   : Nat
  marks  : Nat
  todo   : Nat
  next   : Nat := 0
  deriving DecidableEq, Repr

/-- Settings for host-created namespaces (R483, R511). -/
structure NsDefaults where
  enc    : Nat := 0              -- @ 2 | 10 R511 ENC | default encryption | DC 0
  spread : Bool := false         -- @ 1 | 10 R511 PLACE | default placement | DC FILL
  userResv : Bool := false       -- @ 1 | 10 R511 USERESV | default reserve use | DC 0
  sets   : List Nat := []        -- @ 8 × 5 | 10 R511 | default set list | DC empty
  deriving DecidableEq, Repr

/-- A spare designation (R604). -/
structure Spare where
  mask   : Nat                   -- @ 32 | 12 R604 | set mask, 0 every set | at RED.SET_SPARE
  serial : Nat                   -- @ 64 | 12 R604 | serial of the drive in the slot | at RED.SET_SPARE
  deriving DecidableEq, Repr

/-- The VOL and RED desks. -/
structure Vol where
  sets   : Tab VSet := []        -- @ 32 records | 10 R454 | sets | DC none
  ns     : Tab Ns := []          -- @ 4,096 records | 10 R478 | namespaces of the directory, by NSID | DC none
  dflt   : NsDefaults := {}      -- @ record | 10 R511 | defaults | as its fields
  epoch  : Nat := 0              -- @ 16 | 10 R491 | map epoch | DC 0
  older  : List Nat := []        -- @ list | 10 R494 | older live map epochs, oldest first | empty
  changes : List VQueued := []   -- @ 64 records | 10 R494 | changes that wait for a flip | empty
  waits  : List VWait := []      -- @ list | 10 R493 | replies withheld | empty
  quar   : List Quar := []       -- @ list | 10 R472 | quarantined parcels | empty
  mig    : Option Migration := none -- @ record | 10 R497 | migration | none
  lines  : Tab Bool := []        -- @ 2,048 lines | 10 R488 | map cache lines with their CLOCK bit | empty
  hand   : Nat := 0              -- @ 11 | 10 R488 | CLOCK hand | DC 0
  fills  : Tab Nat := []         -- @ list | 10 R488 | fills under way: line and latest end | empty
  deltas : Option Nat := none    -- @ 64 | 10 R457 | module time of the oldest delta not yet in the map copy areas | none
  lost   : List Nat := []        -- @ list | 18 R808 | map lines lost to poison and not rebuilt, by NSID | empty
  spares : Tab Spare := []       -- @ 24 records | 12 R604 | spares by slot (boot flash) | DC none
  deriving DecidableEq, Repr

end Sys2Proof.Machine
end

