-- ==== Sys2Proof/Machine/StateWbf.lean ====
section
/-! DEFINITION. State of the write buffer, the stripe journal, the drive ports and the drive queue engine (chapters 11
and 13), with the reconstruction jobs of the set engine (chapter 12). -/
namespace Sys2Proof.Machine

/-- Page states other than FREE (Table 11.1). -/
inductive PageSt where
  | reserved | dirty | queued
  deriving DecidableEq, Repr

/-- A page that is not FREE (R515–R518). `ns` 0 marks a page of tag zone entries, whose `span` is the block of the tag zone. -/
structure Page where
  ns     : Nat                   -- @ 13 | 11 R515 | namespace | FREE
  span   : Nat                   -- @ 36 | 11 R515 | 4 KiB span of the namespace | FREE
  st     : PageSt                -- @ 2 | 11 R516 | page state | FREE
  set    : Nat                   -- @ 5 | 11 R517 | set of its bin | FREE
  stripe : Nat                   -- @ 64 | 11 R517 | stripe of its bin | FREE
  byte   : Nat                   -- @ 64 | 11 R517 | set data byte (or tag-zone byte) of its span, as last resolved | FREE
  blks   : Tab PBlk := []        -- @ 8 blocks | 11 R515 | valid blocks | none valid
  users  : List Nat := []        -- @ list | 11 R518 | started commands that hold it for their data | none
  ver    : Nat                   -- @ counter | 11 R518 | version of the span | at the claim
  dirtyAt : Nat := 0             -- @ 64 | 11 R527 | module time of its first DIRTY data | 0
  deriving DecidableEq, Repr

/-- A bin queued for destage (R527, R528). -/
structure QBin where
  set    : Nat
  stripe : Nat
  cls    : Nat
  ahead  : Bool
  order  : Nat
  deriving DecidableEq, Repr

/-- The span of one member in a journal record, with the blocks it is to hold (Table 11.6). -/
structure MSpan where
  first : Nat
  count : Nat
  data  : List Blk
  deriving DecidableEq, Repr

/-- A journal record and its destage (R534–R541). `homes` are the members whose journal write is outstanding, `reads` the
blocks awaited from members and `old` those that came, each keyed by member × 64 + block of the strip, `writes` the members
whose strip write is outstanding, `logs` the dirty-region log writes outstanding, `stage` 0 persisting, 1 reading,
2 waiting for log writes, 3 writing, `ahead` that a Flush or FUA command queued its bin. -/
structure JRec where
  set    : Nat                   -- @ 5 | 11 Table 11.6 SET | set | record closed
  stripe : Nat                   -- @ 64 | 11 Table 11.6 STRIPE | stripe | record closed
  method : Nat                   -- @ 2 | 11 Table 11.6 METHOD | method | record closed
  poison : Bool                  -- @ 1 | 11 Table 11.6 POISON | poison written | record closed
  gen    : Nat                   -- @ 32 | 11 Table 11.6 GEN | set generation | record closed
  cls    : Nat                   -- @ 3 | 11 R527 | class | record closed
  spans  : Tab MSpan             -- @ 24 records | 11 Table 11.6 FIRST, COUNT | write set | record closed
  pages  : List Nat              -- @ list | 11 R540 | its bin's QUEUED pages | record closed
  homes  : List Nat              -- @ list | 11 R534 | home members not yet written | record closed
  seq    : Option Nat            -- @ 64 | 11 R534 | shadow record to be postmarked | record closed
  reads  : List Nat              -- @ list | 11 R530 | old blocks awaited | record closed
  old    : Tab Blk               -- @ list | 11 R530 | old blocks read | record closed
  writes : List Nat              -- @ list | 11 R540 | strip writes outstanding | record closed
  logs   : Nat                   -- @ count | 12 R578 | log bitmap writes outstanding | record closed
  stage  : Nat                   -- @ 2 | 11 R534 | 0 persisting, 1 reading, 2 log writes, 3 writing | record closed
  redo   : Bool := false         -- @ 1 | 11 R545 | redone after a take-over | record closed
  zero   : List Nat := []        -- @ list | 11 R526 | blocks written as zero, strip × 64 + block | record closed
  deriving DecidableEq, Repr

/-- The ring of journal blocks of one member (R535, R538, R539), keyed by set × 32 + member. -/
structure Ring where
  bseq   : Nat := 0              -- @ 64 | 11 Table 11.5 BSEQ | last block sequence number | DC 0
  next   : Nat := 0              -- @ 18 | 11 R535 | next block of the ring | DC 0
  blocks : Tab Nat := []         -- @ 262,144 records | 11 R539 | highest JSEQ held by each written block | none
  open_  : List Nat := []        -- @ 15 records | 11 R538 | records of the block being packed | empty
  openAt : Nat := 0              -- @ 64 | 11 R538 | module time of its first record | 0
  stall  : Bool := false         -- @ 1 | 11 R539 | WBF.JOURNAL_STALL raised for this wait | false
  deriving DecidableEq, Repr

/-- The hold-up image in boot flash (R542). -/
structure HoldImage where
  recs   : List ImgRec
  deltas : Bool
  ends   : Tab Nat
  deriving DecidableEq, Repr

/-- WBF.DESTAGE waiting for its pages (R549). -/
structure DestWait where
  id    : Nat
  pages : List Nat
  deriving DecidableEq, Repr

/-- The write buffer and the WBF desk. -/
structure Wbf where
  pages  : Tab Page := []        -- @ 15,728,640 records | 11 R514, R516 | pages; absent is FREE | all FREE
  ver    : Nat := 0              -- @ counter | 11 R518 | version of the last page claimed | 0
  bins   : List QBin := []       -- @ list | 11 R528 | queued bins, in queue order | empty
  recs   : Tab JRec := []        -- @ 65,536 records | 11 R534 | open records by JSEQ | none
  jseq   : Nat := 0              -- @ 64 | 11 R537 | highest JSEQ issued | DC 0
  rings  : Tab Ring := []        -- @ 768 records | 11 R535 | journal rings; absent is unwritten | empty
  agemax : Nat := 200            -- @ 13 | 11 Table 11.10 AGEMAX | 10 ms units | 200
  high   : Nat := 70             -- @ 7 | 11 Table 11.10 HIGH | percent | 70
  low    : Nat := 50             -- @ 7 | 11 Table 11.10 LOW | percent | 50
  escpct : Nat := 90             -- @ 7 | 11 Table 11.10 ESCPCT | percent | 90
  esc    : Bool := true          -- @ 1 | 11 Table 11.10 ESC | escalation enabled | 1
  ackAt  : Nat := 0              -- @ 64 | 01 R18, R19, 15 R698 | when the next write may be acknowledged | 0
  unpfua : Bool := false         -- @ 1 | 11 Table 11.10 UNPFUA | FUA in single-module operation | 0
  setmax : Nat := 4096           -- @ 13 | 11 Table 11.10 SETMAX | stripes in destage per set | 4,096
  highOn : Bool := false         -- @ 1 | 11 Table 11.11 HIGHON | occupancy trigger active | 0
  escal  : Bool := false         -- @ 1 | 11 Table 11.11 ESCAL | escalated destage under way | 0
  space  : List Nat := []        -- @ list | 11 R519 | tags in the space queue, in start order | empty
  waits  : List DestWait := []   -- @ list | 11 R549 | WBF.DESTAGE commands that wait | empty
  order  : Nat := 0              -- @ counter | 11 R528 | order in which bins were queued | 0
  image  : Option HoldImage := none -- @ 32 MiB | 11 R542 | hold-up image (boot flash) | none
  deriving DecidableEq, Repr

/-- What a drive command serves: a span (or tag zone block) of a host command, a reconstruction, a destage's old data, a strip
write, a journal block (written under a generation of its set), log bitmap blocks, a repair, a block that a pass awaits or a strip that it
writes (0 for no pass), or nothing any more. -/
inductive DUse where
  | host (tag gen span : Nat) (tz : Bool)
  | recon (job member : Nat)
  | dest (jseq member : Nat)
  | strip (jseq member : Nat)
  | journal (set member gen : Nat) (recs : List Nat)
  | logBits (set slot : Nat) (regions : List Nat)
  | repair
  | pass (p key : Nat)
  | passWrite (p : Nat)
  | spent
  deriving DecidableEq, Repr

/-- A drive command of the set engine: waiting in its drive QPORT since `born`, placed on a queue of the drive, or answered. `at_` is
its release by the scheduler, `rungAt` its doorbell, `force` the status that R628 puts in place of the drive's; `cost` is what its node
counted at its release (R241), `shut` that its class has closed since (R250). -/
structure DCmd where
  slot   : Nat
  set    : Nat
  member : Nat
  stripe : Nat
  first  : Nat
  write  : Bool
  lba    : Nat
  n      : Nat
  cls    : Nat
  sub    : Nat
  fua    : Bool
  data   : List Blk
  use    : DUse
  tag    : Option (Nat × Nat × Nat) := none
  at_    : Option Nat := none
  rungAt : Option Nat := none
  buf    : Tab Blk := []
  answer : Option DriveOutcome := none
  hedged : Bool := false
  retried : Bool := false
  force  : Option DriveOutcome := none
  born   : Nat := 0
  cost   : Nat := 0
  shut   : Bool := false
  deriving DecidableEq, Repr

/-- A reconstruction of `n` blocks from `first` of a member's strip (R560): the blocks awaited, those that came and those that
failed, each keyed by member × 64 + block of the strip, and the command and span that it serves; `hedge` names the member
read that it runs beside (R562), `repair` says that its blocks are written back (R564). -/
structure Recon where
  set    : Nat
  stripe : Nat
  member : Nat
  first  : Nat
  n      : Nat
  cls    : Nat
  sub    : Nat
  want   : List Nat
  got    : Tab Blk
  failed : List Nat
  use    : DUse
  hedge  : Option Nat
  repair : Bool
  deriving DecidableEq, Repr

/-- Background work of the set engine on stripes: initialisation, rebuild, resync, patrol, recovery, migration (R463, R581,
R600, R596, R544, R498), and the reads of a rotation sweep (R680). -/
inductive PassKind where
  | init | rebuild | resync | patrol | recover | move | sweep
  deriving DecidableEq, Repr

/-- A pass over a stripe of a set: the members that it writes, the blocks awaited and those that came, keyed by member × 64 + block
of the strip, or from 4,096 on by tag-zone block or by block of the parcel that moves; `writing` once its writes have left, `done` once they
have ended and its watermark has still to come; of a migration also the set it reads, its first block in the parcel and in the strip,
its strip and its blocks; of a sweep its span, its key slot in `first`, and in `count` the reconstructions tried. -/
structure Pass where
  kind    : PassKind
  set     : Nat
  stripe  : Nat
  targets : List Nat := []
  want    : List Nat := []
  got     : Tab Blk := []
  writing : Bool := false
  done    : Bool := false
  from_   : Nat := 0
  block   : Nat := 0
  first   : Nat := 0
  strip   : Nat := 0
  count   : Nat := 0
  deriving DecidableEq, Repr

/-- Root port states (Table 13.1). -/
inductive PortSt where
  | off | training | init | ready | unusable | failed | recovery
  deriving DecidableEq, Repr

/-- A drive admin command of Kumel (R633). -/
structure AdminCmd where
  kind  : Nat
  due   : Nat
  door  : Nat
  tag   : Word
  told  : Bool
  deriving DecidableEq, Repr

/-- A root port and its drive (chapter 13). -/
structure DPort where
  st     : PortSt := .off        -- @ 3 | 13 R616 | port state | OFF
  maxSpeed : Nat := 6            -- @ 3 | 13 Table 13.6 MAXSPEED | 64 GT/s | 6
  minSpeed : Nat := 6            -- @ 3 | 13 Table 13.6 MINSPEED | 64 GT/s | 6
  queues : Nat := 64             -- @ 7 | 13 Table 13.6 QUEUES | I/O queues | 64
  outmax : Nat := 4096           -- @ 17 | 13 R630 OUTMAX | commands | 4,096
  adminto : Nat := 10            -- @ 10 | 13 R633 ADMINTO | s | 10
  downmax : Nat := 20            -- @ 7 | 13 R619 DOWNMAX | 100 ms units | 20
  cerrmax : Nat := 1000          -- @ 15 | 13 R615 CERRMAX | errors per s | 1,000
  speed  : Nat := 0              -- @ 3 | 13 Table 13.7 SPEED | trained rate, 0 no link | 0
  width  : Nat := 0              -- @ 2 | 13 Table 13.7 WIDTH | trained width, 0 no link | 0
  flit   : Bool := false         -- @ 1 | 13 Table 13.7 FLIT | flit mode | 0
  mps    : Nat := 0              -- @ 10 | 13 R612 | Max Payload Size that the port has set, bytes; 0 no link | 0
  tag10  : Bool := false         -- @ 1 | 13 R612 | 10-bit tags enabled | 0
  aspm   : Bool := false         -- @ 1 | 13 R612 | ASPM, ATS, ACS and peer-to-peer enabled: left disabled in every mode | 0
  linked : Bool := false         -- @ 1 | 03 R74 | a link has come up since SLPERST_N went high | false
  highAt : Nat := 0              -- @ 64 | 13 R617 | module time at which SLPERST_N went high | 0
  trainAt : Nat := 0             -- @ 64 | 13 R617 | next training attempt | 0
  downAt : Option Nat := none    -- @ 64 | 13 R619 | module time since which the port has been without link | none
  step   : Nat := 0              -- @ 3 | 13 R621 | initialisation step | 0
  fails  : Nat := 0              -- @ 2 | 13 R622 | initialisation failures | 0
  want   : Bool := false         -- @ 1 | 13 R621 step 3 | awaited CSTS.RDY value | 0
  wantAt : Option Nat := none    -- @ 64 | 13 R621 step 3 | end of the present CSTS wait | none
  capTo  : Nat := 0              -- @ 32 | 13 R621 step 3 | bound of the CSTS waits, ns | 0
  mqes   : Nat := 0              -- @ 16 | 13 R621 step 6 | CAP.MQES | 0
  reqfail : Nat := 0             -- @ 4 | 13 Table 13.7 REQFAIL | requirement that failed | 0
  useQ   : Nat := 64             -- @ 7 | 13 R636 | QUEUES as this initialisation took it | 64
  built  : Nat := 0              -- @ 7 | 13 Table 13.7 QUEUES | I/O queues built | 0
  depth  : Nat := 0              -- @ 11 | 13 Table 13.7 DEPTH | queue depth | 0
  info   : Option DriveInfo := none -- @ record | 13 Table 13.8 | drive identity | none
  id     : Option IdRec := none  -- @ record | 12 R556 | identity record read at enumeration | none
  foreign : Bool := false        -- @ 1 | 12 Table 12.11 | drive classified as foreign or stale | false
  gens   : Tab Nat := []         -- @ 65,536 × 6 | 13 R625 | generation of each drive tag; absent is 0 | DC 0
  rr     : Nat := 0              -- @ 6 | 13 R630 | next queue of the round-robin | 0
  unrung : Tab (Nat × Nat) := [] -- @ 64 records | 13 R630 | per queue: entries not yet rung, time of the first | none
  cq     : Tab (Nat × Nat) := [] -- @ 64 records | 13 R629 | per queue: entries not yet returned to the drive, time of the first | none
  cqHead : Tab Nat := []         -- @ 64 records | 13 R629 | entries taken from each completion queue | 0
  cerr   : Nat := 0              -- @ 32 | 13 Table 13.7 CERR | correctable errors in the last second | 0
  admin  : List AdminCmd := []   -- @ list | 13 R631, R633 | drive admin commands outstanding | none
  pulse  : Option Nat := none    -- @ 64 | 13 R632 | end of a reset pulse | none
  fmtDo  : Option Nat := none    -- @ 1 | 13 R639 | format being applied | none
  lowPower : Bool := false       -- @ 1 | 13 R634 | drive in the Drowse power state | false
  violAt : Option Nat := none    -- @ 64 | 13 Table 13.9 event 584 | time of the last DRV.DMA_VIOLATION | none
  lat    : List (Nat × Nat) := [] -- @ list | 12 R566 | time and latency bin bound, µs, of the completions of the last 60 s | empty
  histAt : Nat := 0              -- @ 64 | 12 R567 | module time at which the history began | 0
  p999   : Nat := 0              -- @ 32 | 12 Table 12.15 P999 | µs | 0
  timeout : Nat := 2000          -- @ 13 | 12 R567 | member timeout, ms | 2,000 (2 s seed)
  deriving DecidableEq, Repr

/-- The DRV desk and the set engine's commands. -/
structure Drv where
  ports  : Tab DPort := []       -- @ 24 records | 13 R616 | root ports; absent is at reset | OFF
  cmds   : Tab DCmd := []        -- @ list | 13 R625, 12 R565 | drive commands by number | none
  seq    : Nat := 0              -- @ counter | model | number of the last drive command | 0
  recons : Tab Recon := []       -- @ list | 12 R560 | reconstructions under way | none
  recSeq : Nat := 0              -- @ counter | model | number of the last reconstruction | 0
  passes : Tab Pass := []        -- @ list | 12 R581, R596, R600, 10 R463, R498 | passes under way over stripes | none
  passSeq : Nat := 0             -- @ counter | model | number of the last pass | 0
  writeHold : Option Nat := none -- @ 64 | 16 R746 | end of the member-write hold after GRANT | none
  deriving DecidableEq, Repr

end Sys2Proof.Machine
end

