-- ==== Sys2Proof/Machine/StateKey.lean ====
section
/-! DEFINITION. State of the KEY desk: key slots, the key-encryption key, the cipher cores and the nonce reservations
(chapter 14). -/
namespace Sys2Proof.Machine

/-- Key slot states (Table 14.6). -/
inductive KeySt where
  | empty | xts | gcm | rotating | missing
  deriving DecidableEq, Repr

/-- A key slot (R668). DESIGN CHOICE (log 107, unsafe). -/
structure KSlot where
  st     : KeySt := .empty       -- @ 3 | 14 Table 14.6 | slot state | DC EMPTY
  key    : List Word := []       -- @ 512 | 14 R668 | current key | none
  gen    : Nat := 0              -- @ 32 | 14 Table 14.1 KGEN | generation of the current key | 0
  prev   : List Word := []       -- @ 256 | 14 R668 | previous key of a rotation | none
  prevGen : Nat := 0             -- @ 32 | 14 R668 | its generation | 0
  invoc  : Nat := 0              -- @ 41 | 14 R666 | invocations of the current key | 0
  saved  : Nat := 0              -- @ 41 | 14 R667 | invocation count persisted with the slot (boot flash) | 0
  warned : Bool := false         -- @ 1 | 14 R666 | KEY.INVOCATION_WARN raised for this key | false
  sweep  : Nat := 0              -- @ 64 | 14 R681 | sweep position, blocks in index order | 0
  sweepRec : Nat := 0            -- @ 64 | 14 R681 | sweep position recorded with the slot (boot flash) | 0
  sweepAt : Nat := 0             -- @ 64 | 14 R681 | module time of the last record of the position | 0
  dying  : Bool := false         -- @ 1 | 14 R677 | destruction awaits the end of the commands that use it | false
  users  : List Nat := []        -- @ list | 14 R677 | start orders of those commands | none
  refill : Bool := false         -- @ 1 | 14 R678 | Format NVM with SES 2 fills the slot again | false
  who    : Option (Nat × Nat) := none -- @ record | 14 R678 | context and command identifier of that Format | none
  erasing : Bool := false        -- @ 1 | 14 R677 | boot-flash and partner copies being erased | false
  deriving DecidableEq, Repr

/-- A cipher core (R643). -/
structure Core48 where
  retired : Bool := false        -- @ 1 | 14 R647 | retired | false
  ctr     : Nat := 0             -- @ 64 | 14 R652 | next counter value | 0
  stop    : Nat := 0             -- @ 64 | 14 R660 | end of the live reservation | 0
  ask     : Option Nat := none   -- @ 64 | 14 R661 | start of the reservation requested | none
  askSeq  : Option Nat := none   -- @ 64 | 14 R660 | shadow record of that reservation | none
  stalled : Bool := false        -- @ 1 | 14 R661 | KEY.RESERVATION_STALL raised for this stall | false
  deriving DecidableEq, Repr

/-- The KEY desk. -/
structure KeyDesk where
  kek    : Option (List Word) := none -- @ 256 | 14 R675 | key-encryption key | none (R675)
  slots  : Tab KSlot := []       -- @ 4,096 records | 14 R668 | key slots; absent is EMPTY | DC EMPTY
  cores  : Tab Core48 := []      -- @ 48 records | 14 R643 | cipher cores; absent is at reset | in service
  ends   : Tab Nat := []         -- @ 96 × 64 | 14 R662 END | reservation ends by 48 × bay + core | DC 0
  rseq   : Nat := 0              -- @ 64 | 14 R662 RSEQ | write sequence of the reservation record | DC 0
  testAt : Option Nat := none    -- @ 64 | 14 R647 | module time of the last known-answer tests | none
  deriving DecidableEq, Repr

end Sys2Proof.Machine
end

