-- ==== Sys2Proof/Machine/StatePair.lean ====
section
/-! DEFINITION. State of the partner and relay links, of the lease and the shadow, and of the stack (chapters 15 to 17). -/
namespace Sys2Proof.Machine

/-- Link states (Table 15.2). -/
inductive LinkSt where
  | silent | equalise | align | config | active
  deriving DecidableEq, Repr

/-- A lane in training: the transmitter's taps in steps of 0.025, the statuses it returns, and readiness (R700–R702). -/
structure Lane where
  pre     : Nat := 0             -- @ 3 | 15 R701 | pre-cursor, steps of −0.025, 0–6 | 0
  post    : Nat := 0             -- @ 4 | 15 R701 | post-cursor, steps of −0.025, 0–12 | 0
  preStat : Nat := 0             -- @ 2 | 15 R700 PRESTAT | status returned | 0
  mainStat : Nat := 0            -- @ 2 | 15 R700 MAINSTAT | status returned | 0
  postStat : Nat := 0            -- @ 2 | 15 R700 POSTSTAT | status returned | 0
  precode : Bool := false        -- @ 1 | 15 R692 | precoding of this direction | false
  rxReady : Bool := false        -- @ 1 | 15 R702 | own receiver ready | false
  peerReady : Bool := false      -- @ 1 | 15 R700 RXREADY | the peer's receiver is ready | false
  bad     : Bool := false        -- @ 1 | 15 R699, R702 | lane is bad | false
  locked  : Bool := false        -- @ 1 | 15 R696 | lane locked | false
  markers : Nat := 0             -- @ 3 | 15 R696 | consecutive markers at the expected spacing | 0
  missing : Nat := 0             -- @ 3 | 15 R696 | consecutive missing markers | 0
  preReq  : Nat := 0             -- @ 2 | 15 R700, R701 PREREQ | own tap request held, 0 hold | 0
  mainReq : Nat := 0             -- @ 2 | 15 R700, R701 MAINREQ | own tap request held | 0
  postReq : Nat := 0             -- @ 2 | 15 R700, R701 POSTREQ | own tap request held | 0
  errs    : Nat := 0             -- @ 32 | 15 Table 15.13 cause 1 | bytes corrected on the lane in the running 10 ms | 0
  errAt   : Nat := 0             -- @ 64 | 15 Table 15.13 cause 1 | start of those 10 ms | 0
  deriving DecidableEq, Repr

/-- A record that waits for its place on a link (R711, R712): its virtual channel, its words and what it holds. -/
structure LinkRec where
  vc  : Nat
  len : Nat
  msg : OutMsg
  deriving DecidableEq, Repr

/-- One link: 0 partner, 1 UP, 2 DN. -/
structure Link where
  st      : LinkSt := .silent    -- @ 3 | 15 R699 | link state | SILENT
  since   : Nat := 0             -- @ 64 | 15 R699 | module time the state was entered | 0
  lanes   : Tab Lane := []       -- @ 16 records | 15 R697 | lanes; absent is at reset | as its fields
  signal  : Nat := 0             -- @ 16 | 15 R699 | lanes with signal | 0
  width   : Nat := 0             -- @ 5 | 15 R704 | width of the group, 0 none | 0
  group   : Nat := 0             -- @ 4 | 15 R704 | lowest lane of the group | 0
  lastWidth : Nat := 0           -- @ 5 | 15 Table 15.15 event 708 | width of the last ACTIVE | 0
  session : Nat := 0             -- @ 64 | 15 Table 15.4 SESSION | own session value | 0
  peerSession : Nat := 0         -- @ 64 | 15 R725 | the peer's session value | 0
  peer    : Option ConfigBlk := none -- @ record | 15 R703 | the last valid CONFIG block received | none
  same    : Nat := 0             -- @ 4 | 15 R699 | consecutive identical valid blocks received | 0
  resume  : Option Nat := none   -- @ 64 | 15 R725 | end of the 20 ms resume window | none
  canResume : Bool := false      -- @ 1 | 15 Table 15.13 | the last cause allows resume | false
  retryAt : Option Nat := none   -- @ 64 | 15 R705 | retry of a refused link | none
  fseq    : Nat := 0             -- @ 12 | 15 R707 FSEQ | last flit sequence sent | 0
  rxseq   : Nat := 0             -- @ 12 | 15 R708 AKSEQ | last flit accepted | 0
  acked   : Nat := 0             -- @ 12 | 15 R707 | last own flit the peer accepted | 0
  nakSent : Bool := false        -- @ 1 | 15 R708 | NAK sent since the last accepted flit | false
  progAt  : Nat := 0             -- @ 64 | 15 R709 | time of the last AKSEQ progress | 0
  replays : Nat := 0             -- @ 4 | 15 R709 | replays without progress | 0
  hbseq   : Nat := 0             -- @ 32 | 15 R717 HBSEQ | last heartbeat sent | 0
  hbTx    : Tab Nat := []        -- @ list | 15 R718 | own TXTIME by HBSEQ, not yet echoed | none
  hbAt    : Nat := 0             -- @ 64 | 15 R724 | time of the last heartbeat received | 0
  peerHb  : Nat := 0             -- @ 32 | 15 R717 ECHOSEQ | HBSEQ of the last heartbeat received | 0
  peerHbAt : Nat := 0            -- @ 64 | 15 R717 ECHORX | its arrival time | 0
  rxgood  : Nat := 0             -- @ 16 | 15 R717 | the peer's RXGOOD | 0
  wideAt  : Option Nat := none   -- @ 64 | 15 R727 | since when a wider group has been usable | none
  pool    : Tab Nat := []        -- @ 11 × 24 | 15 R712 | the peer's advertised pool by channel | none
  used    : Tab Nat := []        -- @ 11 × 24 | 15 R712 | credits consumed by channel | 0
  peerFreed : Tab Nat := []      -- @ 11 × 24 | 15 R712 | credits the peer has freed by channel | 0
  freed   : Tab Nat := []        -- @ 11 × 24 | 15 R717 FREED | credits freed by channel | 0
  onlyHb  : Bool := false        -- @ 1 | 17 R774, R779 | the link carries only HEARTBEAT | false
  noDelta : Bool := false        -- @ 1 | 15 R706 | no common state-write version | false
  ackd    : Bool := false        -- @ 1 | 15 Table 15.4 ACKCFG | eight identical valid blocks have been received | false
  ackSent : Nat := 0             -- @ 4 | 15 R699 | own blocks with ACKCFG sent, up to 8 | 0
  queue   : List LinkRec := []   -- @ list | 15 R711, R712 | records that wait for credits, for the link or for room to replay | empty
  dwrr    : Int := 0             -- @ signed | 15 R711 | byte count between VC2 and the forward channels, weighted 7:1 | 0
  txPos   : Nat := 0             -- @ 32 | 15 R695 | flit bytes that the sending scrambler has advanced over since its reset | 0
  rxPos   : Nat := 0             -- @ 32 | 15 R695 | flit bytes that the receiving generator has advanced over since its reset | 0
  beatAt  : Nat := 0             -- @ 64 | 15 R717 | when the next HEARTBEAT is due | 0
  helloAt : Nat := 0             -- @ 64 | 17 R783 | when the next HELLO is due | 0
  deriving DecidableEq, Repr

/-- The links desk. -/
structure Links where
  links  : Tab Link := []        -- @ 3 records | 15 R692 | links; absent is at reset | as its fields
  partnerUp : Bool := false      -- @ 1 | 15 R699 | the partner link is ACTIVE | false
  timeOff : Int := 0             -- @ signed | 15 R718 | last clock offset to the Active partner, ns | 0
  deriving DecidableEq, Repr

/-- A transmission held by the Postmark rule (R734). -/
structure HeldTx where
  seq : Nat
  at_ : Nat
  msg : TxFrames
  deriving DecidableEq, Repr

/-- The phases of a planned take-over (R756). -/
inductive TkPhase where
  | freeze | released | forward
  deriving DecidableEq, Repr

/-- The PAIR desk. -/
structure Pair where
  lease  : Bool := false         -- @ 1 | 16 R741 | this module holds the lease | false
  term   : Nat := 0              -- @ 32 | 16 Table 16.3 TERM | term held or last held (kept over restarts) | DC 0
  frame  : Nat := 0              -- @ 16 | 16 Table 16.3 SEQ | last frame sequence sent | 0
  sentAt : Tab Nat := []         -- @ list | 16 R741 | send times of the RENEWs and CLAIMs not yet answered, by SEQ | none
  expiry : Nat := 0              -- @ 64 | 16 R741 | own expiry of the lease | 0
  renewAt : Nat := 0             -- @ 64 | 16 R740 | time of the last RENEW of a period | 0
  resends : Nat := 0             -- @ 2 | 16 R740 | resends in this period | 0
  answered : Bool := true        -- @ 1 | 16 R740 | the last RENEW was answered | true
  statusAt : Nat := 0            -- @ 64 | 16 R740 | time of the last STATUS | 0
  claimAt : Option Nat := none   -- @ 64 | 16 R740 | next CLAIM in Boot | none
  frameAt : Nat := 0             -- @ 64 | 16 R744 | time of the last witness frame | 0
  witness : Bool := true         -- @ 1 | 16 R744 | no PAIR.WITNESS_LOST since the last frame | true
  holder : Nat := 2              -- @ 2 | 16 Table 16.12 HOLDER | holder as reported by the witness | 2 (none)
  grantAt : Option Nat := none   -- @ 64 | 16 R746 | time of the GRANT | none
  planned : Bool := false        -- @ 1 | 16 R746 step 4 | the GRANT followed a planned take-over | false
  arps   : Nat := 0              -- @ 2 | 16 R746 step 3 | announcements sent since the GRANT | 0
  leaseWait : Option Nat := none -- @ 64 | 16 R746 step 1 | end of the wait for the partner's LEASE to clear | none
  took   : Bool := false         -- @ 1 | 16 Table 16.7 | this module became Active by a take-over | false
  rxOn   : Bool := false         -- @ 1 | 16 R733 | standby: a shadowing session feeds this module | false
  soloSeq : Nat := 0             -- @ 16 | 16 Table 16.3 SEQ | frame sequence of the SOLO sent | 0
  relSeq : Nat := 0              -- @ 16 | 16 Table 16.3 SEQ | frame sequence of the RELEASE sent | 0
  upAtGrant : List Nat := []     -- @ 32 flags | 16 Table 16.6 code 2 | logical ports up at the grant | none
  rdyAtGrant : List Nat := []    -- @ 24 flags | 16 Table 16.6 code 3 | slots READY at the grant | none
  fault  : Nat := 0              -- @ 8 | 16 Table 16.6 | self-fault code sent, 0 none | 0
  egressHalt : Bool := false     -- @ 1 | 16 R749, R756, R760 | transport egress halted | false
  sess   : Nat := 0              -- @ 16 | 16 R733 SHSESS | shadowing session, 0 none | 0
  shadowing : Bool := false      -- @ 1 | 16 R733 | a shadowing session runs and this module feeds it | false
  paired : Bool := false         -- @ 1 | 16 R762 step 4 | paired operation | false
  pseq   : Nat := 0              -- @ 64 | 16 R734 | postmarked records made so far, in the order of their making | 0
  wire   : Nat := 0              -- @ 48 | 15 R714 PSEQ | last PSEQ that a record of the session took as it entered a flit | 0
  inFlight : List (Nat × Nat) := [] -- @ list | 15 R714, R716 | records not yet postmarked: PSEQ and count as above | empty
  pmark  : Nat := 0              -- @ 48 | 15 R716 PMARK | up to here every record of the count below is postmarked | 0
  markAt : Nat := 0              -- @ 64 | 16 R732 | time of the last PMARK progress | 0
  held   : List HeldTx := []     -- @ list | 16 R734 | transmissions held, in order | empty
  slowAt : Option Nat := none    -- @ 64 | 16 R736 | time of the last PAIR.POSTMARK_SLOW | none
  waits  : List (Nat × Nat) := [] -- @ list | 16 Table 16.12 PMMAX | time and length of the postmark waits of the last second | empty
  horizon : Tab (Nat × Nat) := [] -- @ per context | 16 R737 | send horizon and the shadow record that covers it | none
  layout : Tab (Nat × Nat) := [] -- @ per context | 16 R738 | end of the laid-out stream and its shadow record | none
  rel    : Tab (Nat × Nat) := [] -- @ per tag | 16 R746, Table 16.7 | release records held: context and PSN | none
  rxseq  : Nat := 0              -- @ 48 | 15 R715 | standby: highest PSEQ postmarked here | 0
  rxNew  : Nat := 0              -- @ 7 | 15 R716 | standby: records postmarked since the last ack | 0
  rxAt   : Nat := 0              -- @ 64 | 15 R716 | standby: time of the first of them | 0
  stuck  : Bool := false         -- @ 1 | 15 R715, 16 R732 | standby: a record could not be placed | false
  est    : Tab (Nat × Nat × Nat) := [] -- @ 24 records | 04 R139 | standby: latency estimate last shadowed by slot: time, p99.9 in µs, member timeout in ms | none
  current : Bool := false        -- @ 1 | 16 R733 | this module is a current standby | false
  peerCurrent : Bool := false    -- @ 1 | 16 R733 | the partner is a current standby | false
  solo   : Bool := false         -- @ 1 | 16 R757 | SOLO accepted for the session | false
  soloAsk : Bool := false        -- @ 1 | 16 R757 | SOLO sent and not acknowledged | false
  peerMode : Nat := 7            -- @ 3 | 15 R717 MODE | the partner's mode code, 7 unknown | 7
  peerLease : Bool := false      -- @ 1 | 15 R717 LEASE | the partner's heartbeat shows LEASE | false
  drainW : Bool := false         -- @ 1 | 16 R748 | drive writes of the lost lease still outstanding | false
  take   : Option TkPhase := none -- @ 2 | 16 R756 | planned take-over under way | none
  takeAt : Nat := 0              -- @ 64 | 16 R756 | time the forwarding began | 0
  frozen : List Frame := []      -- @ list | 16 R756 step 1 | front frames held in the Sorting Office | empty
  resync : Option Nat := none    -- @ 3 | 16 R762 | phase of a running resynchronisation | none
  phaseAt : Nat := 0             -- @ 64 | 16 R763 | start of that phase | 0
  rsPct  : Nat := 0              -- @ 7 | 16 Table 16.12 RSPCT | progress, percent | 0
  rsRate : Nat := 40             -- @ 7 | 16 R768 RSYNCRATE | GB/s | 40
  auto   : Bool := true          -- @ 1 | 16 R768 AUTORESYNC | resynchronise without command | 1
  force  : Option (Nat × Word × Nat) := none -- @ record | 16 R770 | door, tag and time of a PAIR.FORCE_CLAIM that waits | none
  down   : Bool := false         -- @ 1 | 16 R761 | the shelf is down as the witness reports | false
  deriving DecidableEq, Repr

/-- A relay neighbour (R783). -/
structure Neighbour where
  hello  : Option Hello := none  -- @ record | 17 R783 | its last HELLO | none
  at_    : Nat := 0              -- @ 64 | 17 R783 | time of that HELLO | 0
  reach  : Nat := 0              -- @ 16 | 17 R783 REACH | modules reachable through it | 0
  alien  : Bool := false         -- @ 1 | 17 R779 | STK.FOREIGN_STACK raised | false
  crossed : Bool := false        -- @ 1 | 17 R774 | STK.MISCABLED raised | false
  deriving DecidableEq, Repr

/-- A forwarded command at its arrival module, by its tag (R785). -/
structure FwdOut where
  gen    : Nat                   -- @ 6 | 17 Table 17.2 FGEN | generation of its tag | at start
  home   : Nat                   -- @ 3 | 17 R785 | position of its home shelf | at start
  goneAt : Option Nat            -- @ 64 | 17 R791 | since when the home shelf has been unreachable | none
  asked  : Nat                   -- @ 32 | 17 R787 | bytes that the home module has asked for and the host has still to give | 0
  deriving DecidableEq, Repr

/-- The STK desk. -/
structure Stack where
  record  : Option StackRec := none -- @ record | 17 R775 | stack record (boot flash) | DC none
  cand   : Bool := false         -- @ 1 | 17 R776 | candidate shelf | false
  formAt : Option Nat := none    -- @ 64 | 17 R776 | end of the 2 s wait for relay links | none
  near   : Tab Neighbour := []   -- @ 4 records | 17 R783 | neighbours, 1 UP and 2 DN, and 3 and 4 of the partner | none
  lost   : Nat := 0              -- @ 8 | 17 Table 17.3 | positions LOST | 0
  masterAt : Nat := 0            -- @ 64 | 17 R782 | last time the master was reachable | 0
  masterTold : Bool := false     -- @ 1 | 17 R782 | STK.MASTER_UNREACHABLE raised | false
  actBay : Tab Nat := []         -- @ 8 | 17 R783, R790 | bay of each neighbouring shelf's Active module as a HELLO showed it last | none
  told   : List Nat := []        -- @ list | 17 R778 | links whose neighbour was reported as a candidate | empty
  listen : Tab (List DiscEnt) := [] -- @ 8 records | 09 R436, R437 | listeners of the other shelves' Active modules, by position | none
  fwd    : Tab FwdOut := []      -- @ list | 17 R785 | forwarded commands at this arrival module, by tag | none
  homed  : List (Nat × Nat × Nat × Nat × Nat) := [] -- @ list | 17 R786, R789 | forwarded commands held as home: position and tag there, 8 × generation there + class, own tag, own generation | none
  admin  : List (VQueued × Nat × Packet) := [] -- @ list | 17 R780 | commands sent to the master: what the reply lets happen, opcode and packet | none
  deriving DecidableEq, Repr

end Sys2Proof.Machine
end

