-- ==== Sys2Proof/Machine/Objects.lean ====
section
/-! DEFINITION. What a shadow record carries (Table 15.10): what an engine takes from a frame, a Letterbox command applied, or a
state write. The layout of a state write is that of the agreed state-write version, which the spec does not give; here a state
write carries the object itself. -/
namespace Sys2Proof.Machine

/-- A PDU of a layout record (Table 16.1): its type, its command's tag and generation, and the data that it carries. -/
structure LaidPdu where
  kind : Nat
  hdgst : Bool
  ddgst : Bool
  tag  : Nat
  gen  : Nat
  off  : Nat
  len  : Nat
  deriving DecidableEq, Repr

/-- State writes: those of Table 16.1, and the other objects whose changes a standby cannot derive (R730) or that a
resynchronisation copies (R762); none stands for an object that is gone. `other` is an object that this module does not hold. -/
inductive StateWrite where
  | release (ctx tag gen : Nat) (status : NvStatus) (psn : Nat)
  | horizon (ctx h : Nat)
  | layout (ctx first bytes : Nat) (pdus : List LaidPdu)
  | handover (term pseqLow : Nat)
  | ctx (c : Nat) (x : Option Ctx)
  | region (i : Nat) (r : Option Region)
  | host (i : Nat) (h : Option HostEnt)
  | ctrl (n : Nat) (c : Option Ctrl)
  | cmd (t : Nat) (c : Option Cmd)
  | ns (nsid : Nat) (n : Option Ns)
  | vset (i : Nat) (v : Option VSet)
  | spare (slot : Nat) (x : Option Spare)
  | key (i : Nat) (k : Option KSlot)
  | net (n : Net)
  | qos (q : Qos)
  | xpt (x : Xpt)
  | nvm (n : Nvm)
  | wbf (w : Wbf)
  | limits (slot : Nat) (l : Limits)
  | budget (w : Nat)
  | stack (r : Option StackRec)
  | latency (slot p999 timeout : Nat)
  | other (group object offset : Nat) (data : List Word)
  deriving DecidableEq, Repr

/-- The content of a SHADOW_PACKET: a transport packet of a context, an NVMe command of a capsule, any other frame to an
engine, a Letterbox command with the status that it got, or a state write. -/
inductive ShadowBody where
  | packet (ctx : Nat) (p : PendPkt)
  | capsule (op : IoOp) (c : IoCmd)
  | frame (swport epoch : Nat)
  | letter (op : Nat) (p : Packet) (status : Nat)
  | write (w : StateWrite)
  deriving DecidableEq, Repr

end Sys2Proof.Machine
end

