-- ==== Sys2Proof/Syntax.lean ====
section
/-! DEFINITION. The commands of the block: one constructor for each row of the table of operations and events, with
the operands that the row acts on. A row of the Letterbox carries its packet; a row that something outside the module
brings about (a threshold, a frame, a drive's answer, a timer's end) carries what it brought. -/
namespace Sys2Proof
open Sys2Proof.Machine

/-- The commands, one constructor for each row of the opcode table. -/
inductive Instr where
  /-- R13: Letterbox NOP returns OK with no result words at every door that answers. -/
  | nop (p : Packet)
  /-- R158: Returns ordering code, bay, position, form factor, firmware, serial and key identity. -/
  | modGetIdentity (p : Packet)
  /-- R129: Returns mode, boot stage, last restart cause, uptime and temperature. -/
  | modGetStatus (p : Packet)
  /-- R160: Requests a module or Kumel restart, subject to mode and FORCE. -/
  | modRestart (p : Packet)
  /-- R161: Moves the module to Maintenance, draining and releasing the lease first when Active. -/
  | modEnterMaintenance (p : Packet)
  /-- R162: Stores the MAINT and DRAM_FULL boot options in boot flash. -/
  | modSetBootOptions (p : Packet)
  /-- R163: Starts Drowse entry and completes with DROWSE_ENTERED or DROWSE_ABANDONED. -/
  | modEnterDrowse (p : Packet)
  /-- R163: Wakes the module from Drowse and replies once it is Active. -/
  | modWake (p : Packet)
  /-- R855: Grants, renews or forcibly takes the desk lock for the issuing door. -/
  | modAcquireLock (p : Packet)
  /-- R868: Releases the desk lock held by the issuing door. -/
  | modReleaseLock (p : Packet)
  /-- R868: Returns the state, lock holder and counts of one door. -/
  | modGetDoor (p : Packet)
  /-- R866: Returns and removes the door's oldest event records and clears its overflow counts. -/
  | modReadEvents (p : Packet)
  /-- R868: Sets the issuing door's event enables for one group. -/
  | modSetEventMask (p : Packet)
  /-- R868: Sets or clears a management Ethernet door key slot. -/
  | modSetDoorKey (p : Packet)
  /-- R868: Sets the management MAC's IP addressing mode and addresses. -/
  | modSetMgmtAddr (p : Packet)
  /-- R118: Sets protection limits and allotment of selected slots. -/
  | pwrSetSlotLimits (p : Packet)
  /-- R75: Returns a slot's state, probe, trip history, voltage and current. -/
  | pwrGetSlotStatus (p : Packet)
  /-- R119: Turns selected slots off into DISABLED or releases them from DISABLED. -/
  | pwrSetSlotPower (p : Packet)
  /-- R120: Releases selected LOCKOUT slots to EMPTY and clears their histories. -/
  | pwrClearLockout (p : Packet)
  /-- R121: Sets the module slot power budget. -/
  | pwrSetBudget (p : Packet)
  /-- R121: Returns the budget, committed power and slots waiting. -/
  | pwrGetBudget (p : Packet)
  /-- R122: Sets locate and fault indicator overrides of a slot. -/
  | pwrSetIndicator (p : Packet)
  /-- R117: Returns feed voltages, currents and reserve state. -/
  | pwrGetFeeds (p : Packet)
  /-- R169: Changes a front port's breakout mode, closing bound connections with FORCE. -/
  | netSetPortMode (p : Packet)
  /-- R215: Returns a logical port's link, pluggable and mode status. -/
  | netGetPortStatus (p : Packet)
  /-- R215: Sets or clears an address slot of a logical port. -/
  | netSetPortAddr (p : Packet)
  /-- R185: Sets trust, class maps, lossless PCPs and egress PCPs of a logical port. -/
  | netSetClassMap (p : Packet)
  /-- R215: Sets ECN thresholds of selected output queues. -/
  | netSetQueue (p : Packet)
  /-- R202: Returns a queue's depth, head age, stall cause and oldest epoch. -/
  | netGetQueue (p : Packet)
  /-- R203: Discards every frame of the selected queues. -/
  | netFlushQueue (p : Packet)
  /-- R181: Sets buffer partitions, alpha, headroom and PFC thresholds. -/
  | netSetBuffer (p : Packet)
  /-- R197: Writes a manager flow entry and flips the flow epoch. -/
  | netSetFlow (p : Packet)
  /-- R197: Deletes a manager flow entry under a new flow epoch. -/
  | netDeleteFlow (p : Packet)
  /-- R215: Returns current and oldest live flow epochs and queued changes. -/
  | netGetEpoch (p : Packet)
  /-- R204: Configures a mirror session. -/
  | netSetMirror (p : Packet)
  /-- R207: Sets dead-letter capture enables, ring mode and truncation. -/
  | netSetDeadLetter (p : Packet)
  /-- R209: Returns and removes the oldest capture record. -/
  | netReadDeadLetter (p : Packet)
  /-- R211: Sets PTP domain, transport and enabled ports. -/
  | netSetPtp (p : Packet)
  /-- R215: Returns PTP lock state, offset and time. -/
  | netGetPtp (p : Packet)
  /-- R232: Sets every policer setting of a subscriber, taking effect at the next token tick. -/
  | qosSetPolicer (p : Packet)
  /-- R255: Sets a subscriber's classes, red action, weight and deferral limit. -/
  | qosSetSubscriber (p : Packet)
  /-- R255: Returns a subscriber's bucket levels and deferred count. -/
  | qosGetPolicer (p : Packet)
  /-- R225: Sets the DSCP to input colour map. -/
  | qosSetColourMap (p : Packet)
  /-- R255: Configures a service node of a scheduler port. -/
  | qosSetNode (p : Packet)
  /-- R255: Sets a scheduler port's shaper rate and burst. -/
  | qosSetPortShaper (p : Packet)
  /-- R256: Installs, replaces or deactivates a port's gate list. -/
  | qosSetGateList (p : Packet)
  /-- R255: Returns a port's gate list state and held items. -/
  | qosGetGateStatus (p : Packet)
  /-- R255: Returns a node's estimate, queued cost and active leaves. -/
  | qosGetNode (p : Packet)
  /-- R255: Assigns a watch counter set to a subscriber. -/
  | qosSetWatch (p : Packet)
  /-- R329: Enables RoCEv2 listeners on logical ports. -/
  | xptSetRdmaPorts (p : Packet)
  /-- R330: Sets ACK timeout, RNR timer and rate reaction parameters. -/
  | xptSetRdmaParams (p : Packet)
  /-- R305: Sets a subscriber's completion release mode. -/
  | xptSetRelease (p : Packet)
  /-- R331: Returns a context's connection state. -/
  | xptGetConnection (p : Packet)
  /-- R332: Puts a connection into ERROR with cause 9. -/
  | xptCloseConnection (p : Packet)
  /-- R333: Creates a Poste Restante region and returns its R_Key. -/
  | xptCreateRegion (p : Packet)
  /-- R334: Deletes a region, revoking grants with FORCE. -/
  | xptDeleteRegion (p : Packet)
  /-- R335: Sets or revokes a subscriber's grant on a region. -/
  | xptGrantRegion (p : Packet)
  /-- R336: Draws a new key tag for a region. -/
  | xptRekeyRegion (p : Packet)
  /-- R328: Returns a region's key, size, kind, rights and grants. -/
  | xptGetRegion (p : Packet)
  /-- R380: Enables NVMe/TCP listeners on logical ports. -/
  | xptSetTcpPorts (p : Packet)
  /-- R381: Sets TCP MTU, window, timeouts and MAXH2CDATA. -/
  | xptSetTcpParams (p : Packet)
  /-- R382: Sets permitted TLS key exchange and groups. -/
  | xptSetTls (p : Packet)
  /-- R369: Sets a subscriber's pinning and the per-source connection limit. -/
  | xptSetPool (p : Packet)
  /-- R379: Returns context pool, cache, fill and admission counts. -/
  | xptGetPool (p : Packet)
  /-- R451: Sets the subsystem NQN at the stack master. -/
  | nvmSetSubsystem (p : Packet)
  /-- R451: Returns subsystem counts and NQN. -/
  | nvmGetSubsystem (p : Packet)
  /-- R446: Writes a host table entry. -/
  | nvmSetHost (p : Packet)
  /-- R447: Deletes a host table entry. -/
  | nvmDeleteHost (p : Packet)
  /-- R447: Returns a host entry without secrets. -/
  | nvmGetHost (p : Packet)
  /-- R448: Sets or clears a host, controller or TLS secret. -/
  | nvmSetHostSecret (p : Packet)
  /-- R449: Returns a controller's state, queues and keep-alive. -/
  | nvmGetController (p : Packet)
  /-- R449: Ends a controller as R404 states. -/
  | nvmEndController (p : Packet)
  /-- R450: Sets a subscriber's MAXTAGS. -/
  | nvmSetTagLimit (p : Packet)
  /-- R450: Returns tags in use and the limit. -/
  | nvmGetTags (p : Packet)
  /-- R501: Creates a set, writing identity records. -/
  | volCreateSet (p : Packet)
  /-- R502: Deletes an unused set and clears its identity records. -/
  | volDeleteSet (p : Packet)
  /-- R500: Returns a set's state, geometry and parcels. -/
  | volGetSet (p : Packet)
  /-- R503: Sets a set's parcel reserve. -/
  | volSetReserve (p : Packet)
  /-- R504: Creates a namespace under a map epoch. -/
  | volCreateNamespace (p : Packet)
  /-- R505: Deletes a namespace, returning parcels and destroying its key. -/
  | volDeleteNamespace (p : Packet)
  /-- R506: Changes a namespace's size under a map epoch. -/
  | volResizeNamespace (p : Packet)
  /-- R507: Sets a namespace's quota, reserve use, placement and set list. -/
  | volSetNsPolicy (p : Packet)
  /-- R508: Attaches or detaches a host entry under a map epoch. -/
  | volAttachNamespace (p : Packet)
  /-- R500: Returns a namespace's settings and usage. -/
  | volGetNamespace (p : Packet)
  /-- R509: Starts migration of a range of parcels to a target set. -/
  | volMigrateParcels (p : Packet)
  /-- R510: Returns a parcel's leaf entry and written extents. -/
  | volGetParcel (p : Packet)
  /-- R511: Sets defaults for host-created namespaces. -/
  | volSetNsDefaults (p : Packet)
  /-- R511: Returns the map epoch state. -/
  | volGetEpoch (p : Packet)
  /-- R548: Sets destage policy values. -/
  | wbfSetPolicy (p : Packet)
  /-- R547: Returns buffer occupancy, waiting commands and journal counts. -/
  | wbfGetStatus (p : Packet)
  /-- R549: Queues a scope for destage and completes when its pages are free. -/
  | wbfDestage (p : Packet)
  /-- R550: Returns a set's open records, highest JSEQ and RLOW. -/
  | wbfGetJournal (p : Packet)
  /-- R603: Sets a set's hedge, absent wait, replacement, rebuild and patrol settings. -/
  | redSetPolicy (p : Packet)
  /-- R602: Returns a set's health summary. -/
  | redGetHealth (p : Packet)
  /-- R602: Returns a member's state, timeout and latency. -/
  | redGetMember (p : Packet)
  /-- R604: Designates or clears a hot spare slot. -/
  | redSetSpare (p : Packet)
  /-- R605: Ejects a member with reason 5. -/
  | redEjectMember (p : Packet)
  /-- R605: Readmits an EJECTED member's drive as returning. -/
  | redReadmit (p : Packet)
  /-- R605: Fires a rebuild of a missing member onto a slot. -/
  | redStartRebuild (p : Packet)
  /-- R605: Brings an OFFLINE set online with holes. -/
  | redForceOnline (p : Packet)
  /-- R606: Returns bad-range entries of a set. -/
  | redReadBadRanges (p : Packet)
  /-- R606: Removes every bad-range entry of a set. -/
  | redClearBadRanges (p : Packet)
  /-- R636: Sets drive port speeds, queues and limits. -/
  | drvSetPort (p : Packet)
  /-- R616: Returns a drive port's state and link. -/
  | drvGetPort (p : Packet)
  /-- R637: Returns a drive's identity and format. -/
  | drvGetDrive (p : Packet)
  /-- R638: Pulses the drive's reset, ejecting a member with FORCE. -/
  | drvResetDrive (p : Packet)
  /-- R639: Formats a drive's NSID 1 through Kumel. -/
  | drvFormatDrive (p : Packet)
  /-- R640: Reads a drive log page. -/
  | drvReadLog (p : Packet)
  /-- R673: Returns the module's identity public key. -/
  | keyGetIdentityKey (p : Packet)
  /-- R674: Derives a new KEK by ECDH with the manager's ephemeral key. -/
  | keyEstablishKek (p : Packet)
  /-- R688: Unwraps and loads a key into a slot. -/
  | keyImportKey (p : Packet)
  /-- R687: Fills an empty slot with a DRBG key. -/
  | keyGenerateKey (p : Packet)
  /-- R687: Returns a slot's current key wrapped under the KEK. -/
  | keyExportKey (p : Packet)
  /-- R687: Destroys an unbound slot's key. -/
  | keyDestroyKey (p : Packet)
  /-- R679: Installs a new GCM key and starts the rotation sweep. -/
  | keyRotateKey (p : Packet)
  /-- R686: Returns a key slot's state, generation, KCV and invocations. -/
  | keyGetSlot (p : Packet)
  /-- R689: Runs a test vector on a chosen cipher core. -/
  | keyRunVector (p : Packet)
  /-- R766: Returns pairing, lease and shadowing state. -/
  | pairGetStatus (p : Packet)
  /-- R756: Starts a planned take-over. -/
  | pairTakeover (p : Packet)
  /-- R768: Sets resynchronisation rate and AUTORESYNC. -/
  | pairSetPolicy (p : Packet)
  /-- R769: Starts resynchronisation of the partner. -/
  | pairStartResync (p : Packet)
  /-- R770: Sends CLAIM with OVERRIDE to the witness. -/
  | pairForceClaim (p : Packet)
  /-- R794: Returns stack position, membership and reachability. -/
  | stkGetStatus (p : Packet)
  /-- R794: Returns one stack position's state and route. -/
  | stkGetShelf (p : Packet)
  /-- R795: Admits a candidate shelf into the stack. -/
  | stkAddShelf (p : Packet)
  /-- R796: Removes a shelf position from the stack. -/
  | stkRemoveShelf (p : Packet)
  /-- R797: Takes this shelf out of its stack. -/
  | stkLeaveStack (p : Packet)
  /-- R828: Returns log, self-test and spare counts. -/
  | memGetStatus (p : Packet)
  /-- R828: Returns error log or fault list records. -/
  | memReadLog (p : Packet)
  /-- R817: Starts a range scrub of a channel, group or SRAM region. -/
  | memScrubRange (p : Packet)
  /-- R827: Returns the last range scrub's summary. -/
  | memGetScrub (p : Packet)
  /-- R828: Sets idle scrubber enable and floor. -/
  | memSetIdleScrub (p : Packet)
  /-- R828: Returns idle scrubber lap time and position. -/
  | memGetIdleScrub (p : Packet)
  /-- R822: Remaps a DRAM page to a spare page. -/
  | memRetirePage (p : Packet)
  /-- R824: Repairs an SRAM row with a spare row. -/
  | memRetireRow (p : Packet)
  /-- R825: Writes data and check bits separately into a test window. -/
  | memTestWrite (p : Packet)
  /-- R825: Returns the decoder's outcome for a test window unit. -/
  | memTestRead (p : Packet)
  /-- R828: Rebuilds a read-only namespace's map from copies and deltas. -/
  | memReloadMap (p : Packet)
  /-- R828: Runs the targeted self-test of a location. -/
  | memRunSelftest (p : Packet)
  /-- R919: Returns bank, selection and session state. -/
  | updGetStatus (p : Packet)
  /-- R909: Checks an Exael header and starts a session on the inactive bank. -/
  | updBegin (p : Packet)
  /-- R910: Applies op words at an offset to the inactive bank. -/
  | updWriteDelta (p : Packet)
  /-- R911: Starts verification of the written bank. -/
  | updFinish (p : Packet)
  /-- R914: Selects the verified bank for trial boot and restarts. -/
  | updActivate (p : Packet)
  /-- R916: Offers the verified delta to the partner or the stack. -/
  | updPropagate (p : Packet)
  /-- R920: Sets or clears the owner update lock. -/
  | updSetOwnerLock (p : Packet)
  /-- R913: Ends a running session, invalidating its bank. -/
  | updAbort (p : Packet)
  /-- R934: Returns live or snapshot counter values. -/
  | talRead (p : Packet)
  /-- R926: Latches every counter into the snapshot bank. -/
  | talSnapshot (p : Packet)
  /-- R927: Clears selected counter groups or their overflow bits. -/
  | talClear (p : Packet)
  /-- R934: Returns overflow bits of a group. -/
  | talGetOverflow (p : Packet)
  /-- R934: Sets counter streaming period and group mask. -/
  | talSetStream (p : Packet)
  /-- R836: A write of a packet length to a door's LBCNT acts by door state. -/
  | lbcntWrite (door : Nat) (aligned : Bool) (w : Word)
  /-- R836: A write to LBDATA stores the next packet word and enters BUSY after the last. -/
  | lbdataWrite (door : Nat) (aligned : Bool) (w : Word)
  /-- R836: A read of LBDATA returns the next reply word, returning to IDLE after the last. -/
  | lbdataRead (door : Nat) (aligned : Bool)
  /-- R838: The ABORT bit discards a partial packet or reply, or marks a busy reply for discard. -/
  | lbctlAbort (door : Nat) (aligned : Bool) (w : Word)
  /-- R11: A write to a register field with no behaviour of its own sets it per its access code. -/
  | registerWrite (r : RegTarget) (aligned : Bool) (w : Word)
  /-- R837: A door in FILLING for 1 s discards its partial packet and enters ERROR 4. -/
  | doorFillingTimeout (door : Nat)
  /-- R875: A complete packet enters BUSY and is checked in order and handed to its desk. -/
  | commandEnterBusy (door : Nat)
  /-- R860: Kumel takes a command from its backlog to interpret it. -/
  | kumelBeginCommand (door : Nat)
  /-- R859: A command Kumel cannot begin within 50 ms is answered BUSY. -/
  | kumelBacklogTimeout (door : Nat) (backlogMs : Nat)
  /-- R838: A desk's reply arrives and enters REPLY, or is discarded if DISCARD is set. -/
  | commandReplyReady (door : Nat)
  /-- R856: LOCKTO passes without a command from the holding door and the lock is released. -/
  | lockExpired
  /-- R840: An SMBus Block Write to code 0x04 writes its words to LBDATA in order. -/
  | smbusBlockWrite (count : Nat) (ws : List Word) (pecBad : Bool)
  /-- R840: An SMBus Block Read from code 0x04 reads reply words from LBDATA. -/
  | smbusBlockRead (pecBad : Bool)
  /-- R843: A read of the Alert Response Address returns the door address and releases the alert. -/
  | alertResponseRead
  /-- R851: A management Ethernet datagram is authenticated, sequenced and applied as register accesses. -/
  | doorDatagram (d : Datagram)
  /-- R851: A WAIT datagram resumes its reads when the door leaves BUSY or 10 ms pass. -/
  | datagramWaitEnd
  /-- R38: SEATED_N goes low: bay and straps are sampled and Boot starts. -/
  | seat (bayOpen chkOpen : Bool) (strap : Nat)
  /-- R41: SEATED_N goes high: stages off, lease stopped, egress stopped, slots to EMPTY. -/
  | unseat
  /-- R44: A feed stays at or above 10.6 V for 1 ms and becomes good. -/
  | feedGood (feed mv : Nat)
  /-- R44: A feed stays below 10.8 V for 1 ms. -/
  | feedUvWarn (feed mv : Nat)
  /-- R44: A feed stays below 10.2 V for 20 µs and its path opens. -/
  | feedLost (feed mv : Nat)
  /-- R44: A feed above 13.8 V for 20 µs opens its path. -/
  | feedOv (feed mv : Nat)
  /-- R44: A feed path opened on overvoltage recloses below 13.5 V. -/
  | feedOvReclose (feed mv : Nat)
  /-- R48: Module current above 160 A opens both paths and hold-up follows. -/
  | frontEndTrip
  /-- R45: The bulk bus reaches 95 % of the highest good feed and inrush ends. -/
  | bulkChargeEnd
  /-- R47: The bulk bus does not charge within 60 ms and both paths open. -/
  | chargeFail
  /-- R47: One second after a failed charge the front end retries. -/
  | chargeRetry
  /-- R48: Both feeds below 2 V for 1 s release a latched-off front end. -/
  | feedsOffReset
  /-- R54: Hold-up persistence completes; the module powers down or restarts from Boot. -/
  | holdupDone
  /-- R57: Usable reserve energy rises to 110 J. -/
  | reserveReady (joules : Nat)
  /-- R55: The 20 s Boot wait for the reserve ends and Boot proceeds with the reserve low. -/
  | reserveWaitTimeout
  /-- R51: The 24 h capacity test of the hold-up reserve starts. -/
  | reserveCapacityTest (joules : Nat)
  /-- R57: A capacity test ends and the reserve low report is updated. -/
  | reserveTestDone (joules : Nat)
  /-- R110: Every 100 ms the single-feed budget is re-evaluated. -/
  | singleFeedBudgetTick (mv1 mv2 i1 i2 : Nat)
  /-- R110: A single feed above 95 A for 1 s, or 10 ms after a shed, turns off one slot stage. -/
  | slotShed (current : Nat)
  /-- R64: Junction temperature reaches 100 °C. -/
  | thermalWarn (tj : BitVec 16)
  /-- R64: Junction falls below 95 °C, re-arming the thermal warning. -/
  | thermalRearm (tj : BitVec 16)
  /-- R65: Junction above 115 °C for 1 s powers down the core. -/
  | thermalShutdown (tj : BitVec 16)
  /-- R65: Junction falls below 90 °C after shutdown and the module restarts from Boot. -/
  | thermalRestart (tj : BitVec 16)
  /-- R128: A monitored clock leaves ±1 % for 10 µs and its loss is handled by class. -/
  | clockLost (c : ClockId)
  /-- R685: The entropy health tests fail and DRBG reseeding stops. -/
  | entropyFault
  /-- R685: Every 60 s the entropy tests are retried, reseeding on a pass. -/
  | entropyRetest (pass : Bool)
  /-- R684: Every 1 s the DRBG is reseeded from the entropy source. -/
  | drbgReseed
  /-- R131: Core rails and PLLs are up and the boot ROM reads flash. -/
  | bootRailsUp
  /-- R134: The boot ROM's signature check of the image banks completes. -/
  | bootFlashChecked (aOk bOk : Bool)
  /-- R134: Logic self-test and SRAM march complete. -/
  | bootSelftestDone (lasting : Bool)
  /-- R134: DRAM training, retired-page application and zeroing complete. -/
  | bootDramTrained (failed : List Nat)
  /-- R132: Kumel starts, the doors open and the DRBG is seeded. -/
  | kumelStarted (entropyOk : Bool)
  /-- R133: At 40 s drive enumeration stops and unenumerated members count absent. -/
  | enumerationStop
  /-- R134: Boot settles its first mode and raises BOOT_COMPLETE. -/
  | bootEnd
  /-- R134: At 45 s without another outcome Boot ends in Fenced. -/
  | bootTimeout
  /-- R146: Quiescence has held 10 ms and drives are put into low power. -/
  | drowseQuiescent
  /-- R146: Drives report low power; the fabric clock falls and entry commits. -/
  | drowseDrivesLow
  /-- R148: Quiescence not reached within 10 s abandons the entry. -/
  | drowseAbandonTimeout
  /-- R151: A waking frame or command starts Drowse exit. -/
  | drowseExit
  /-- R151: Drives are operational and held commands execute in arrival order. -/
  | drowseExitDone
  /-- R154: 2 s without a watchdog restart causes a Kumel restart. -/
  | watchdogExpiry
  /-- R155: A Kumel restart completes and Kumel resumes commands. -/
  | kumelRestartDone
  /-- R68: A slot's scheduled probe pre-samples, applies current and classifies the slot. -/
  | slotProbe (slot pre : Nat) (riseUs : Option Nat)
  /-- R72: 500 ms of present results end DEBOUNCE and queue the slot. -/
  | slotInserted (slot : Nat)
  /-- R74: Low current with no link for 10 ms turns the stage off and resumes probing. -/
  | slotSuspectPull (slot iout : Nat)
  /-- R85: The allocator admits a queued slot and takes a fresh pre-sample. -/
  | slotAdmit (slot pre : Nat)
  /-- R85: One inrush period after an uncertain admission sample the contact is sampled again. -/
  | rampResample (slot pre : Nat)
  /-- R83: Output within 0.3 V of the bulk bus for 1 ms ends the ramp. -/
  | slotPowerGood (slot : Nat)
  /-- R84: 100 ms after power good SLPERST_N goes high. -/
  | slotResetRelease (slot : Nat)
  /-- R87: A joining stage is fully on and sharing has settled; the slot enters ON. -/
  | slotJoinSettled (slot : Nat)
  /-- R94: The inrush timer expires without power good, tripping RAMP_TIMEOUT. -/
  | inrushTimeout (slot : Nat)
  /-- R94: A stage trips on short, energy or fast trip and turns off. -/
  | slotTrip (slot cause meas : Nat)
  /-- R96: The retry timer expires and the slot enters QUEUED. -/
  | slotRetryExpiry (slot : Nat)
  /-- R91: 10 ms after SLPERST_N goes low for an off, the stage turns off. -/
  | slotStageOffDelay (slot : Nat)
  /-- R719: Every 100 µs, or at once on a trip or change, SHARE_TELEMETRY is sent. -/
  | shareTelemetrySend (iout vout : List Nat)
  /-- R719: A received SHARE_TELEMETRY updates sharing, partner trips and commands. -/
  | shareTelemetryReceive (r : ShareRec)
  /-- R719: A 100 µs interval with no SHARE_TELEMETRY counts one missed update. -/
  | shareUpdateMissed
  /-- R102: Five consecutive missed updates drop every stage to droop. -/
  | shareDroop
  /-- R103: 100 consecutive good updates resume digital sharing. -/
  | shareRestored
  /-- R114: Every 10 ms a 48-bit LED frame is shifted and latched. -/
  | indicatorFrame
  /-- R29: A pluggable is found in a cage and its CMIS pages are read. -/
  | pluggableInserted (cage : Nat)
  /-- R30: The CMIS read completes and low-power mode is released or held. -/
  | pluggableCmisRead (cage watts : Nat)
  /-- R172: The pluggable reports ModuleReady and host transmitters are enabled. -/
  | pluggableReady (cage : Nat)
  /-- R172: No ModuleReady within 5 s holds the pluggable in low power. -/
  | pluggableFault (cage : Nat)
  /-- R171: A pluggable is removed and its logical ports go down. -/
  | pluggableRemoved (cage : Nat)
  /-- R170: Alignment-marker and FEC lock held 100 ms bring a logical port up. -/
  | linkUp (lport : Nat)
  /-- R171: Alignment lost or remote fault for 1 ms takes a logical port down. -/
  | linkDown (lport : Nat)
  /-- R173: Corrected-symbol ratio above 10^-5 over 1 s. -/
  | fecDegraded (lport symbols corrected uncorrectable : Nat)
  /-- R193: A received front frame is classified, looked up and forwarded, answered or captured. -/
  | frameReceive (f : Frame)
  /-- R197: A frame leaves the Sorting Office, releasing its cells and epoch stamp. -/
  | frameTransmit (swport q : Nat)
  /-- R188: A received PFC frame pauses queues of its priority. -/
  | pfcReceive (lport prio quanta : Nat)
  /-- R188: A received pause time runs out and the queues resume. -/
  | pfcPauseExpiry (lport prio : Nat)
  /-- R186: At half the pause time an XOFF PFC frame is repeated. -/
  | pfcRefresh (lport pcp : Nat)
  /-- R200: A flow epoch drains, releasing replies and flipping queued changes. -/
  | epochDrained
  /-- R200: A flow drain unfinished 1 s after its flip sends the reply ACCEPTED. -/
  | epochSlow
  /-- R212: A PTP Sync or delay response is timestamped and the clock steered. -/
  | ptpMessage (lport domain transport : Nat) (m : PtpMsg)
  /-- R212: 16 consecutive good Sync intervals lock time. -/
  | ptpLocked
  /-- R212: 4 bad intervals or 3 s without Sync unlock time into holdover. -/
  | ptpUnlocked
  /-- R230: Every 1 µs tokens are added and deferral queues re-marked from their heads. -/
  | tokenTick
  /-- R236: A port serves the next item from the eligible node in service order. -/
  | schedulerDispatch (qport : Nat)
  /-- R243: A gate list entry's duration ends and the next entry's mask applies. -/
  | gateEntryChange (qport : Nat)
  /-- R245: A list reaches its first aligned cycle start and begins. -/
  | gateListStart (qport : Nat)
  /-- R252: After a time step a list restarts from entry 0 at the next aligned start. -/
  | gateListRestart (qport : Nat)
  /-- R241: Each 10 ms interval updates drive node rate estimates. -/
  | rateEstimateInterval
  /-- R266: A CM REQ is checked and answered with REP or REJ. -/
  | cmReq (r : CmReq)
  /-- R268: An RTU moves a CONNECTING context to READY. -/
  | cmRtu (qpn : Nat)
  /-- R268: 100 ms without RTU resends the REP, freeing the context after three. -/
  | repResend (ctx : Nat)
  /-- R272: A host DREQ is answered with DREP and the context enters CLOSING. -/
  | cmDreq (qpn : Nat)
  /-- R273: A DREP moves an ERROR context to TIMEWAIT. -/
  | cmDrep (qpn : Nat)
  /-- R273: 100 ms without DREP moves the context to TIMEWAIT. -/
  | dreqTimeout (ctx : Nat)
  /-- R274: 50 ms in TIMEWAIT frees the context. -/
  | timewaitExpiry (ctx : Nat)
  /-- R277: A host request packet is sequence-checked and executed, duplicated or NAKed. -/
  | roceRequestPacket (p : RocePkt)
  /-- R282: A received ACK or NAK advances, resends or errors the context. -/
  | roceAckReceive (h : RoceHead) (psn : Nat) (k : AckKind)
  /-- R286: A READ Response from the host places write data into the buffer. -/
  | roceReadResponse (h : RoceHead) (psn tag gen off : Nat) (blks : List HBlk) (last : Bool)
  /-- R290: A received CNP cuts the context's rate. -/
  | roceCnpReceive (h : RoceHead)
  /-- R278: 1 µs after the oldest unacknowledged packet an ACK is sent. -/
  | ackCoalesceTimeout (ctx : Nat)
  /-- R282: The module's ACK timeout resends from the oldest unacknowledged PSN. -/
  | ackTimeout (ctx : Nat)
  /-- R284: The RNR delay ends and the resend proceeds. -/
  | rnrResend (ctx : Nat)
  /-- R290: PERIOD without a CNP recovers the context's rate. -/
  | ratePeriod (ctx : Nat)
  /-- R302: A command's data done message releases or arms its held completion. -/
  | dataDone (tag gen : Nat)
  /-- R300: A released completion is transmitted once its postmark allows. -/
  | completionRelease (ctx : Nat)
  /-- R340: A SYN takes a SYN table entry and a SYN-ACK is sent. -/
  | tcpSyn (f : SynIn)
  /-- R340: The SYN-ACK resend timer fires. -/
  | synackResend (ent : Nat)
  /-- R340: 4 s after the last resend the SYN entry is freed. -/
  | synEntryExpiry (ent : Nat)
  /-- R341: The final ACK takes a context if admission allows, else RST. -/
  | tcpHandshakeAck (ent : Nat)
  /-- R344: A segment is processed in sequence or discarded with a duplicate ACK. -/
  | tcpSegment (p : TcpSeg)
  /-- R345: 20 µs after the oldest unacknowledged byte an ACK is sent. -/
  | tcpAckTimer (ctx : Nat)
  /-- R346: The retransmission timeout resends or errors the context. -/
  | tcpRto (ctx : Nat)
  /-- R349: A host FIN puts the context into CLOSING. -/
  | tcpFin (ctx seq : Nat) (frame : List Word)
  /-- R349: A valid RST puts the context into ERROR with cause 2. -/
  | tcpRst (ctx seq : Nat) (frame : List Word)
  /-- R350: No ICReq within 10 s errors the context with cause 11. -/
  | icreqTimeout (ctx : Nat)
  /-- R361: Kumel installs traffic secrets after Finished. -/
  | tlsHandshakeDone (ctx : Nat) (ok : Bool) (group rx tx : Nat) (hostNqn subNqn : List Word)
  /-- R360: A handshake unfinished within 5 s errors with cause 5. -/
  | tlsHandshakeTimeout (ctx : Nat)
  /-- R363: Kumel installs the new key after a received KeyUpdate and decryption resumes. -/
  | keyupdateInstalled (ctx : Nat)
  /-- R371: A queued context fill starts in order of first need. -/
  | contextFillStart
  /-- R372: A fill completes and the pending list is processed in order. -/
  | contextFillDone (ctx : Nat) (poison : Bool)
  /-- R368: Fewer than 64 free slots start CLOCK eviction until 128 are free. -/
  | contextEvict
  /-- R402: A controller's keep-alive timer expires and the controller ends. -/
  | keepAliveExpiry (cntlid : Nat)
  /-- R395: A Fabrics Connect is checked on the fast path or queued for authentication. -/
  | nvmeConnect (r : ConnectReq)
  /-- R398: A DH-HMAC-CHAP Authentication Send is processed by Kumel. -/
  | nvmeAuthenticationSend (ctx cid : Nat) (m : AuthMsg)
  /-- R398: An Authentication Receive returns the next transaction message. -/
  | nvmeAuthenticationReceive (ctx cid : Nat)
  /-- R407: Property Set on CC enables, shuts down or disables the controller. -/
  | nvmePropertySet (ctx cid prop value : Nat)
  /-- R406: Returns a controller property. -/
  | nvmePropertyGet (ctx cid prop : Nat)
  /-- R405: Disconnect closes an I/O queue's connection. -/
  | nvmeDisconnect (ctx cid : Nat)
  /-- R409: Returns a supported log page. -/
  | nvmeGetLogPage (ctx cid nsid lid : Nat)
  /-- R409: Returns a supported Identify structure. -/
  | nvmeIdentify (ctx cid nsid cns cntid : Nat)
  /-- R421: An Abort command is forwarded to the target engine. -/
  | nvmeAbort (ctx cid sqid acid : Nat)
  /-- R421: The abort request reaches the command's tag state and is resolved. -/
  | abortRequestAtTag (ctx cid : Nat)
  /-- R410: Sets a supported feature, including power state entry. -/
  | nvmeSetFeatures (ctx cid nsid fid value : Nat)
  /-- R410: Returns a supported feature. -/
  | nvmeGetFeatures (ctx cid nsid fid value : Nat)
  /-- R411: An Asynchronous Event Request is held for a notice. -/
  | nvmeAsyncEventRequest (ctx cid : Nat)
  /-- R483: Creates or deletes a namespace from a host. -/
  | nvmeNamespaceManagement (ctx cid : Nat) (del : Option Nat) (c : NsCreate)
  /-- R484: Attaches or detaches controllers' host entries. -/
  | nvmeNamespaceAttachment (ctx cid nsid : Nat) (attach : Bool) (ctrls : List Nat)
  /-- R402: Keep Alive restarts the controller's keep-alive timer. -/
  | nvmeKeepAlive (ctx cid : Nat)
  /-- R411: Format NVM returns parcels and optionally replaces the key. -/
  | nvmeFormatNvm (ctx cid nsid ses lbaf pit : Nat)
  /-- R412: Crypto-erase sanitize destroys keys and returns every parcel. -/
  | nvmeSanitize (ctx cid sanact : Nat)
  /-- R416: A Read is policed, started and served from buffer or members. -/
  | nvmeRead (c : IoCmd)
  /-- R417: A Write is policed, started, grants parcels, claims pages and fetches data. -/
  | nvmeWrite (c : IoCmd)
  /-- R419: A Flush queues covered bins and completes at their retirement. -/
  | nvmeFlush (c : IoCmd)
  /-- R411: A Compare reads and compares its range. -/
  | nvmeCompare (c : IoCmd)
  /-- R471: Write Zeroes clears or zeroes extents and may return parcels. -/
  | nvmeWriteZeroes (c : IoCmd)
  /-- R472: Deallocate clears extents and may return parcels. -/
  | nvmeDatasetManagement (c : IoCmd)
  /-- R411: Verify reads and checks blocks without moving data. -/
  | nvmeVerify (c : IoCmd)
  /-- R486: Copy reads source ranges and writes the destination. -/
  | nvmeCopy (c : IoCmd)
  /-- R424: Registers or unregisters a reservation key. -/
  | nvmeReservationRegister (c : IoCmd)
  /-- R427: Returns the namespace's reservation status. -/
  | nvmeReservationReport (c : IoCmd)
  /-- R428: Acquires or preempts a reservation. -/
  | nvmeReservationAcquire (c : IoCmd)
  /-- R425: Releases or clears a reservation. -/
  | nvmeReservationRelease (c : IoCmd)
  /-- R413: A waiting command is given a tag when one frees and starts. -/
  | commandStart (sub : Nat)
  /-- R519: A command waiting for buffer space claims its pages in start order. -/
  | spaceQueueClaim
  /-- R520: Write data enters the buffer, is mirrored and may fill a bin. -/
  | writeDataArrival (tag gen off : Nat) (blocks : List HBlk)
  /-- R527: A bin's oldest dirty page passes AGEMAX and the bin is queued. -/
  | destageAgeTrigger (set_ stripe : Nat)
  /-- R527: Occupancy reaches HIGH and bins are queued until below LOW. -/
  | occupancyHigh
  /-- R527: Occupancy reaches ESCPCT and bins are queued in S0. -/
  | destageEscalated
  /-- R534: A queued bin's destage opens a journal record and chooses a method. -/
  | destageStart (set_ : Nat)
  /-- R538: 20 µs after its first record a journal block is written with FUA. -/
  | journalBlockTimer (set_ member : Nat)
  /-- R534: A record is persisted and postmarked, releasing strip writes. -/
  | journalPersisted (jseq : Nat)
  /-- R540: A strip write completes, retiring the record when all are done. -/
  | stripWriteComplete (jseq : Nat)
  /-- R544: Before serving without a shadow, a set's open records are gathered and settled. -/
  | recordRecovery (set_ : Nat) (found : List (Nat × ImgRec)) (reads : List (Nat × Nat × List Blk))
  /-- R472: A quarantined parcel becomes grantable once its conditions hold. -/
  | quarantineRelease
  /-- R488: A map cache miss fill completes and the waiting start proceeds. -/
  | mapFillDone (line : Nat)
  /-- R457: Map deltas are written to the map copy areas. -/
  | mapDeltaFlush
  /-- R495: A map epoch drains, releasing replies and flipping queued changes. -/
  | mapEpochDrained
  /-- R495: A map drain unfinished 1 s after its flip sends the reply ACCEPTED. -/
  | mapEpochSlow
  /-- R498: A migration copy pass ends and the next step of the parcel's move follows. -/
  | migrationPassDone
  /-- R463: The initialisation pass writes a stripe's parity and advances the watermark. -/
  | initStripe (set_ : Nat)
  /-- R565: A drive command's completion is handled by outcome. -/
  | driveCompletion (k : Nat)
  /-- R568: The millisecond check finds an expired drive command and ejects its member. -/
  | memberTimeoutCheck
  /-- R562: A read passes its hedge deadline and parallel reconstruction starts. -/
  | hedgeDeadline (k : Nat)
  /-- R566: Every 1 s the p99.9 latency and member timeout are recomputed. -/
  | latencyPercentileUpdate (slot : Nat)
  /-- R579: An ABSENT member missing for ABSENTWAIT fires its rebuild trigger. -/
  | absentwaitExpiry (set_ member : Nat)
  /-- R581: A fired trigger finds a qualifying target and the rebuild starts. -/
  | rebuildStart (set_ : Nat)
  /-- R581: A rebuild reconstructs and writes one stripe and advances its watermark. -/
  | rebuildStripe (set_ member : Nat)
  /-- R600: A resync rewrites one marked region and clears its bit. -/
  | resyncRegion (set_ member : Nat)
  /-- R597: The patrol round compares one stripe and repairs mismatches. -/
  | patrolStripe (set_ : Nat)
  /-- R557: Every 10 s moved watermarks are written to identity records. -/
  | identityRecordWrite (set_ : Nat)
  /-- R617: Every 100 ms a training attempt is made on a port without link. -/
  | driveTrainingAttempt (slot : Nat)
  /-- R621: A drive link comes up and initialisation starts. -/
  | driveLinkUp (slot speed width : Nat) (flit classOk : Bool) (capTo mqes mps : Nat) (tag10 : Bool)
  /-- R618: A drive data link goes down and the port enters RECOVERY. -/
  | driveLinkDown (slot : Nat)
  /-- R619: A member's port without link for DOWNMAX ejects the member. -/
  | downmaxExpiry (slot : Nat)
  /-- R621: A CSTS.RDY wait reaches its bound and initialisation fails. -/
  | cstsWaitTimeout (slot : Nat)
  /-- R621: A drive admin command completes and initialisation or admin work proceeds. -/
  | driveAdminCompletion (slot : Nat) (d : AdminDone)
  /-- R633: A drive admin command exceeds its timeout and is aborted. -/
  | driveAdminTimeout (slot : Nat)
  /-- R615: Correctable errors above CERRMAX in a second direct the link into Recovery. -/
  | driveLinkRetrain (slot errors : Nat)
  /-- R628: A drive's inbound memory request is decoded and performed or dropped. -/
  | driveDmaRequest (r : DmaReq)
  /-- R629: A completion queue write is recognised and checked. -/
  | driveCqEntry (slot q cid : Nat) (phase : Bool) (status : DriveOutcome)
  /-- R630: 1 µs after the first unrung entry a doorbell is written. -/
  | doorbellTimer (slot q : Nat)
  /-- R632: 10 ms into a drive reset pulse SLPERST_N is released. -/
  | driveResetRelease (slot : Nat)
  /-- R647: Every 24 h each core runs known-answer tests, retiring failures. -/
  | cipherSelfTest (failed : List Nat)
  /-- R660: A requested nonce reservation is persisted and postmarked and becomes live. -/
  | nonceReservationLive (core : Nat)
  /-- R680: The sweep reseals one block under the new key. -/
  | rotationSweepStep (slot : Nat)
  /-- R681: Every 10 s the sweep position is recorded with the slot. -/
  | sweepPositionRecord (slot : Nat)
  /-- R677: Once no started command uses a slot's keys they are zeroised. -/
  | keyZeroise (slot : Nat)
  /-- R699: Signal on a lane, or 10 ms in SILENT, moves a link to EQUALISE. -/
  | linkSignalDetect (link signal : Nat)
  /-- R700: A training frame updates equalisation requests and readiness. -/
  | trainingFrame (link lane : Nat) (f : TrainFrame) (errs : Option Nat) (want : Nat × Nat × Nat × Nat × Bool)
  /-- R699: 150 ms in EQUALISE marks unready lanes bad. -/
  | equaliseTimeout (link : Nat)
  /-- R696: An alignment codeword locks lanes and removes skew. -/
  | alignmentCodeword (link lane : Nat) (found : Bool) (run : Nat)
  /-- R699: A timeout in ALIGN or CONFIG returns the link to ALIGN or SILENT. -/
  | linkAlignTimeout (link : Nat)
  /-- R703: A CONFIG block is checked, and the link refused or brought to ACTIVE. -/
  | configBlock (link : Nat) (b : ConfigBlk)
  /-- R705: Every 1 s a refused link retries. -/
  | linkRefuseRetry (link : Nat)
  /-- R708: A decoded flit in sequence is accepted, else discarded with one NAK. -/
  | flitReceive (link : Nat) (f : FlitIn)
  /-- R709: 2 µs without AKSEQ progress replays unacknowledged flits. -/
  | replayTimeout (link : Nat)
  /-- R724: A lane in use loses signal or lock or errs too much and the link retrains. -/
  | laneFault (link lane : Nat)
  /-- R717: Every 0.5 µs a HEARTBEAT is sent on each ACTIVE link. -/
  | heartbeatSend (link : Nat)
  /-- R718: A received HEARTBEAT returns credits and steers time. -/
  | heartbeatReceive (link : Nat) (h : HeartbeatIn)
  /-- R724: No heartbeat for 50 µs takes the link down. -/
  | heartbeatTimeout (link : Nat)
  /-- R716: 200 ns after the first new postmark, or at 64, the standby sends POSTMARK_ACK. -/
  | postmarkAckSend
  /-- R734: PMARK advances and held transmissions are released. -/
  | postmarkAckReceive (pmark : Nat)
  /-- R732: 1 ms without PMARK progress ends the shadowing session. -/
  | postmarkStall
  /-- R731: A standby applies a shadow record to its desks and postmarks it. -/
  | shadowPacket (seq len : Nat) (placed : Bool) (body : ShadowBody)
  /-- R523: A standby places mirrored blocks in its group W. -/
  | mirrorWrite (seq len : Nat) (placed : Bool) (m : MirrorIn)
  /-- R721: A standby applies mirror state items in order. -/
  | mirrorState (seq len : Nat) (placed : Bool) (items : List MirrorItem)
  /-- R723: A forwarded frame is taken or forwarded toward DSTMOD. -/
  | forwardedFrame (m : MsgIn) (cls port : Nat) (f : Option Frame)
  /-- R726: No resume within 20 ms loses the link session. -/
  | sessionResumeTimeout (link : Nat)
  /-- R727: An unused lane usable for 10 s retrains the link wider. -/
  | linkWiden (link : Nat)
  /-- R724: MATE_IN_N goes high and the partner link goes down with cause 5. -/
  | mateInHigh
  /-- R740: Every 10 ms the holder sends RENEW. -/
  | renewSend
  /-- R740: A RENEW unanswered after 0.5 ms is resent. -/
  | renewResend
  /-- R740: Every 5 ms a non-holder sends STATUS. -/
  | statusSend
  /-- R740: In Boot, CLAIM is sent every 100 ms until granted or held. -/
  | claimSend
  /-- R746: A GRANT makes the module Active and starts resumption. -/
  | leaseGrant (f : WitnessFrame)
  /-- R770: A DENY answers a claim, renew or release. -/
  | leaseDeny (f : WitnessFrame)
  /-- R757: A witness ACK of SOLO or RELEASE lets the module proceed. -/
  | leaseAck (f : WitnessFrame)
  /-- R748: The lease expires by the module's clock and it fences. -/
  | leaseExpiry
  /-- R744: 20 ms without a witness frame. -/
  | witnessLost
  /-- R746: At 0, 1 and 10 ms after GRANT addresses are announced. -/
  | gratuitousArp
  /-- R746: 12 ms after GRANT member writes are allowed. -/
  | memberWriteHoldExpiry
  /-- R760: A self-fault condition within 100 ms of GRANT sends SELF_FAULT. -/
  | selfFaultDetect (code : Nat)
  /-- R756: Drive writes end and PMARK catches up; handover and RELEASE are sent. -/
  | takeoverFreezeDrained
  /-- R756: 1 ms of forwarding ends and the former active enters Standby. -/
  | takeoverForwardEnd
  /-- R762: The active starts resynchronisation of a non-current partner. -/
  | resyncStart
  /-- R762: A resynchronisation phase's copies complete and the next begins. -/
  | resyncPhaseDone (phase bytes : Nat)
  /-- R783: Every 1 ms HELLO is sent on each ACTIVE relay link. -/
  | helloSend (link : Nat)
  /-- R783: A HELLO updates the neighbour's REACH and checks stack identity. -/
  | helloReceive (link : Nat) (h : Hello)
  /-- R783: 5 ms without HELLO makes the neighbour reach nothing. -/
  | helloTimeout (link : Nat)
  /-- R781: A directory update is applied to the replica. -/
  | dirUpdate (m : MsgIn) (full : Bool) (es : List DirEntry) (nqn : Option (List Word)) (lis : List (Nat × List DiscEnt))
  /-- R775: A RECORD message installs the stack record. -/
  | stackRecordMessage (m : MsgIn) (r : StackRec)
  /-- R780: The master applies a forwarded Letterbox command. -/
  | adminRequest (m : MsgIn) (src op : Nat) (p : Packet)
  /-- R780: A master's reply is relayed as the local command's reply. -/
  | adminReply (m : MsgIn) (door : Nat) (tag : Word) (status : Nat)
  /-- R776: 2 s without a record-holding neighbour forms a stack of one or a candidate. -/
  | stackFormTimeout
  /-- R782: 1 s without reaching the master. -/
  | masterUnreachable
  /-- R786: A forwarded COMMAND is started at the home module. -/
  | forwardCommand (m : MsgIn) (h : FwdHead) (cls sub host : Nat) (op : IoOp) (c : IoCmd)
  /-- R787: A DATA_REQUEST makes the arrival module fetch write data. -/
  | forwardDataRequest (m : MsgIn) (cls : Nat) (h : FwdHead)
  /-- R787: Forwarded write data enters the home buffer. -/
  | forwardWriteData (m : MsgIn) (cls : Nat) (h : FwdHead) (blocks : List HBlk)
  /-- R787: Forwarded read data is passed to the host. -/
  | forwardReadData (m : MsgIn) (cls : Nat) (h : FwdHead) (data : Nat)
  /-- R787: A forwarded COMPLETION fills the held completion. -/
  | forwardCompletion (m : MsgIn) (cls : Nat) (h : FwdHead) (status : NvStatus) (dnr : Bool)
  /-- R791: A home shelf unreachable for 100 ms fails the forwarded command. -/
  | forwardTimeout (tag : Nat)
  /-- R917: An OFFER is answered ALREADY, refused or starts a session. -/
  | firmwareOffer (link orig scope : Nat) (ws : List Word)
  /-- R916: An ANSWER to an offer starts or skips the data transfer. -/
  | firmwareAnswer (link status : Nat) (already : Bool)
  /-- R917: DATA op words are applied to the receiving session. -/
  | firmwareData (link off : Nat) (ws : List Word)
  /-- R917: END starts verification of a propagated session. -/
  | firmwareEnd (link opwords : Nat)
  /-- R918: A RESULT is recorded at the originator. -/
  | firmwareResult (m : MsgIn) (status mod : Nat)
  /-- R911: The bank hash completes and the trailer is written or the bank invalidated. -/
  | updVerifyDone
  /-- R918: 10 minutes after UPD.PROPAGATE it completes regardless. -/
  | propagateTimeout
  /-- R908: 60 s after Boot ends, Kumel clears TRIAL in the selection record. -/
  | trialConfirm
  /-- R805: A read finds a corrected or uncorrectable error; it is fixed or poisoned and logged. -/
  | memoryError (e : MemErr)
  /-- R815: A queued targeted self-test starts. -/
  | selftestStart (eseq : Nat)
  /-- R814: A self-test ends and sets the record's RESULT. -/
  | selftestComplete (eseq : Nat) (r : TestEnd)
  /-- R815: A lane or port test waiting 10 minutes is marked untested. -/
  | triageTimeout (eseq : Nat)
  /-- R819: The idle scrubber reads the next line on idle or at FLOOR. -/
  | idleScrubRead (chan : Nat)
  /-- R817: A range scrub reads its next lines at its rate. -/
  | scrubRangeRead (cls lines fixed bad old : Nat) (first : Option Nat)
  /-- R931: Every PERIOD a stream snapshot is captured and offered to the DMA. -/
  | streamCapture
  /-- R887: PERST_N low resets the Service Endpoint and door 1. -/
  | perstAssert
  /-- R888: The endpoint link comes up. -/
  | seLinkUp
  /-- R900: Hot reset or link-down halts running DMA channels. -/
  | seLinkDown
  /-- R899: Clearing Bus Master Enable halts channels and blocks requests. -/
  | busMasterDisable
  /-- R899: Setting Bus Master Enable sends pending MSI-X messages and restarts no channel. -/
  | busMasterEnable
  /-- R884: Entry to D3hot halts channels as master off. -/
  | powerStateD3hot
  /-- R884: Return to D0 keeps every register. -/
  | powerStateD0
  /-- R885: Unmasking a vector sends its pending message. -/
  | msixUnmask (v : Nat)
  /-- R891: Setting EN checks the ring and starts the channel from HEAD. -/
  | chctlEnable (c : Nat) (w : Word)
  /-- R896: Clearing EN stops the channel at the next descriptor boundary. -/
  | chctlDisable (c : Nat)
  /-- R891: A write to RINGLO sets the ring base and resets HEAD to 0. -/
  | ringloWrite (c : Nat) (aligned : Bool) (w : Word)
  /-- R893: A write to KICK refetches the descriptor at HEAD. -/
  | kick (c : Nat)
  /-- R893: A descriptor fetch completes; the channel runs, waits or halts. -/
  | dmaDescriptorFetched (c : Nat) (ws : List Word)
  /-- R893: Every 100 µs a waiting channel refetches its descriptor. -/
  | dmaDescriptorPoll (c : Nat)
  /-- R894: A source record is written to the open buffer or closes it. -/
  | dmaRecordAvailable (c : Nat)
  /-- R894: FLUSHMS after the first record closes the descriptor. -/
  | dmaFlushTimeout (c : Nat)
  /-- R897: An error completion halts every channel with BUS_ERROR. -/
  | dmaBusError (ecause : Nat)
  /-- R897: A read without completion after 50 ms is a bus error. -/
  | dmaReadTimeout
  /-- R901: A completion for no outstanding read is dropped and counted. -/
  | dmaUnexpectedCompletion
  /-- R621: The drive's CSTS.RDY reaches the awaited value and controller initialisation proceeds to its next step. -/
  | driveCstsReady (slot : Nat)
  /-- R677: The boot-flash and partner copies of a destroyed slot finish erasing and KEY.SLOT_DESTROYED is raised, ending a Sanitize. -/
  | keyCopiesErased (slot : Nat)
  /-- R504: The granting of every index of a THICK namespace finishes and VOL.NS_READY completes the command. -/
  | thickCreationComplete (nsid : Nat)
  /-- R713: A forward channel holds a waiting frame for 1 ms without credits, so CREDIT_STALL is reported and counted. -/
  | creditStall (link cls : Nat)
  /-- R770: PAIR.FORCE_CLAIM gets no witness answer within 100 ms and replies HW_FAULT. -/
  | forceClaimTimeout
  /-- R57: The present reserve charge falls below 110 J usable, the reserve is reported low and PWR.RESERVE_LOW is raised. -/
  | reserveChargeLow (joules : Nat)
  /-- R739: A lease frame with a bad CRC, wrong MAGIC or unknown TYPE arrives and is ignored and counted. -/
  | leaseFrameIgnored
  /-- R132: The 1000BASE-T management link comes up and the management Ethernet door begins to answer. -/
  | managementLinkUp
  deriving DecidableEq, Repr

end Sys2Proof
end

