-- ==== Sys2Proof/Config.lean ====
section
/-! DEFINITION. What the hardware fixes and the spec does not give a number for: fuse contents, the standard algorithms'
results, and the free values. Each is opaque: no proof can see what it is. -/
namespace Sys2Proof.Config

/-- The module's 64-bit serial number (Table 4.10). DESIGN CHOICE (log 10, safe). -/
opaque serial : BitVec 64
/-- The ASIC stepping STEP (Table 4.10). -/
opaque step : BitVec 8
/-- The first 64 bits of the SHA-384 hash of the fused identity public key (Table 4.10 KEYID). -/
opaque keyId : BitVec 64
/-- A value that the spec leaves open, one for each value of the state's free counter. -/
opaque freeValue : Nat → BitVec 256
/-- What block `i` of the buffer of drive command `k` holds before the drive has written it. DESIGN CHOICE (log 8, safe). -/
opaque freeBlk (k i : Nat) : Nat
/-- HMAC-SHA-256 over words under a key, its first four words (Table 19.11 MAC). -/
opaque hmacSha256 : List Word → List Word → List Word

/-- AES-KW unwrap (RFC 3394) of a wrapped key under a key-encryption key; none where its integrity check fails (R676). -/
opaque kwUnwrap : List Word → List Word → Option (List Word)
/-- AES-KW wrap (R676). -/
opaque kwWrap : List Word → List Word → List Word

/-- XTS-AES-256 of a data unit of `bytes` bytes under a 512-bit key and a 16-byte tweak (R648, R649). DESIGN CHOICE (log 9, safe). -/
opaque xtsEnc (key : List Word) (tweak bytes data : Nat) : Nat
/-- Its inverse. -/
opaque xtsDec (key : List Word) (tweak bytes data : Nat) : Nat
/-- GCM-AES-256 encipherment under a 256-bit key and a 96-bit IV (R650). -/
opaque gcmEnc (key : List Word) (iv bytes data : Nat) : Nat
/-- GCM-AES-256 decipherment. -/
opaque gcmDec (key : List Word) (iv bytes data : Nat) : Nat
/-- The 128-bit GCM tag over additional authenticated data of `alen` bytes and a ciphertext (R650, R653). -/
opaque gcmTag (key : List Word) (iv alen aad bytes data : Nat) : Nat
/-- The first 64 bits of HMAC-SHA-384 of "TK-4824 KCV" under a key (R672). -/
opaque kcv (key : List Word) : Nat
/-- The module's fused identity public key as 25 words (R673, R687). -/
opaque identityKey : List Word
/-- The KEK that R674 derives from an ephemeral public key; none where the point is not on the curve or at infinity. -/
opaque deriveKek (pub : List Word) : Option (List Word)
/-- SHA-384 of a list of words, as 12 words (Table 22.1). -/
opaque sha384 (ws : List Word) : List Word
/-- The ECDSA P-384 signature of an Exael header verifies under image-signing key `k` (R903, R904). -/
opaque sigOk (k : Nat) (ws : List Word) : Bool

/-- Words of a record on a link, by its kind, its number and the flit it starts in: the layouts of state writes are those of
the agreed version, which the spec does not give (R706). DESIGN CHOICE (log 145, unsafe). -/
opaque recordLen (kind a fseq : Nat) : BitVec 12
/-- The SCRC in a journal record of a member's span whose data is not yet known when the record is written: R536 asks for the CRC of data that
R534 lets be read only afterwards. -/
opaque earlyScrc (jseq member : Nat) : BitVec 32
/-- Bytes of a frame beside its payload, by the kind of the message it carries: the standards' headers, and the whole of a message whose
length the spec does not give. -/
opaque frameHead (kind : Nat) : BitVec 13
/-- The hash of both QPNs that gives a connection's UDP source port (R259). -/
opaque qpnHash (own host : Nat) : BitVec 14
/-- The next TLS 1.3 traffic secret after one (RFC 8446, section 7.2). -/
opaque tlsNext (secret : Nat) : Nat
/-- Oldest and newest state-write version that the factory image can apply (R703). -/
opaque factoryDv : BitVec 16 × BitVec 16
/-- The 112-bit hash of the stack's serial numbers in a NGUID (Table 10.4). -/
opaque stackHash : List Nat → BitVec 112
/-- The serial number of the module that shares a shelf with the one of a serial number (R775). -/
opaque mateSerial : BitVec 64 → BitVec 64
/-- FWVER of the image that a firmware bank holds from the factory (Table 4.10). -/
opaque factoryVer : Nat → BitVec 32

/-- The image that a firmware bank holds from the factory, and the image-signing check covers it. -/
opaque factoryImage : Nat → List Word

/-- Where a test window lies: the address in its region or channel (R825). -/
opaque testWindow : Nat → BitVec 40
/-- The SRAM region of test window 0 (R825). -/
opaque testRegion : BitVec 3
/-- The Tally region's first key tag, drawn from the DRBG (R309, R325). -/
opaque tallyTag : BitVec 19
/-- How far one share record moves a stage's pass-FET drop, mV (R100). -/
opaque shareStep : Nat

end Sys2Proof.Config
end

