-- ==== Sys2Proof/Machine/StateMem.lean ====
section
/-! DEFINITION. State of the MEM and UPD desks: the error log, self-tests, scrubs, retirements, test windows, firmware banks
and sessions (chapters 18 and 22). -/
namespace Sys2Proof.Machine

/-- An error log record (Table 18.2). -/
structure LogRec where
  eseq : Nat
  time : Nat
  cls  : Nat
  kind : Nat
  result : Nat
  consumer : Nat
  device : Nat
  count : Nat
  loc  : Nat
  index : Nat
  syn  : Nat
  eye  : Nat
  errs : Nat
  deriving DecidableEq, Repr

/-- A self-test queued or running (R814, R815). -/
structure SelfTest where
  eseq  : Nat                    -- @ 32 | 18 R814 | its error log record | at the error
  cls   : Nat                    -- @ 4 | 18 Table 18.3 | class | at the error
  index : Nat                    -- @ 8 | 18 Table 18.3 | channel, lane or slot | at the error
  loc   : Nat                    -- @ 40 | 18 Table 18.3 | location | at the error
  run   : Bool                   -- @ 1 | 18 R815 | running | false
  since : Nat                    -- @ 64 | 18 R815, R573 | module time from which it waits | at the error
  cmd   : Bool                   -- @ 1 | 18 R828 | asked for by MEM.RUN_SELFTEST | at the error
  deriving DecidableEq, Repr

/-- A range scrub, or the summary of the last (R817, R827), keyed by class. -/
structure Scrub where
  running : Bool := false        -- @ 1 | 18 R827 RUNNING | running | 0
  index : Nat := 0               -- @ 4 | 18 Table 18.7 INDEX | channel, 15 every channel | 0
  start : Nat := 0               -- @ 40 | 18 Table 18.7 START | byte address | 0
  length : Nat := 0              -- @ 40 | 18 Table 18.7 LENGTH | bytes | 0
  rate  : Nat := 10              -- @ 8 | 18 Table 18.7 RATE | GB/s | 10
  at_   : Nat := 0               -- @ 64 | 18 R817 | when the scrub started | 0
  pos   : Nat := 0               -- @ 40 | 18 R817 | bytes read so far | 0
  lines : Nat := 0               -- @ 64 | 18 R827 | lines read | 0
  fixed : Nat := 0               -- @ 32 | 18 R827 | lines corrected | 0
  bad   : Nat := 0               -- @ 32 | 18 R827 | new uncorrectable lines | 0
  old   : Nat := 0               -- @ 32 | 18 R827 | lines found already poisoned | 0
  first : Option Nat := none     -- @ 40 | 18 R827 | LOC of the first uncorrectable line | none
  deriving DecidableEq, Repr

/-- A 64-byte unit of a test window as written (R825). -/
structure TestUnit where
  data   : List Word             -- @ 512 | 18 R825 | data bytes | DC 0
  checkb : List Word             -- @ 320 or 128 | 18 R825 | check bits | DC 0
  poison : Bool                  -- @ 1 | 18 R828 POISON | poison | 0
  deriving DecidableEq, Repr

/-- The MEM desk. -/
structure Mem where
  log    : List LogRec := []     -- @ 4,096 records | 18 R811 | error log, oldest first | empty
  eseq   : Nat := 0              -- @ 32 | 18 Table 18.2 ESEQ | highest record sequence | 0
  wrapped : Bool := false        -- @ 1 | 18 Table 18.8 event 841 | a record was overwritten | false
  faults : List LogRec := []     -- @ 256 records | 18 R813 | fault list (boot flash) | DC empty
  tests  : List SelfTest := []   -- @ 272 records | 18 R815 | self-tests running and queued, in order | empty
  overTold : Bool := false       -- @ 1 | 18 R815 | MEM.TRIAGE_OVERFLOW raised for this filling | false
  hist   : List (Nat × Nat × Nat × Nat × Bool × Nat) := [] -- @ list | 18 Table 18.4 | errors of the last 24 h: time, class, index, page or row, corrected, device | empty
  scrubs : Tab Scrub := []       -- @ 9 records | 18 R818 | range scrubs by class | none
  idleOn : Bool := true          -- @ 1 | 18 R828 ENABLE | idle scrubber enabled | 1
  floor  : Nat := 10             -- @ 8 | 18 R828 FLOOR | µs | 10
  idlePos : Tab Nat := []        -- @ 13 positions | 18 R819 | next line of each DRAM channel, and of SRAM as entry 12 | 0
  lapped : Nat := 0              -- @ 13 flags | 18 R819 | channels, and SRAM as bit 12, visited in this lap | 0
  lapAt  : Nat := 0              -- @ 64 | 18 R820 | time the lap began | 0
  lapTime : Nat := 0             -- @ 32 | 18 R820 | last lap, s | 0
  laps   : Nat := 0              -- @ 32 | 18 R828 | laps completed | 0
  pages  : List (Nat × Nat × Nat) := [] -- @ 12,288 records | 18 R823 | retired pages: class, channel, byte address (boot flash) | DC empty
  rows   : List (Nat × Nat) := [] -- @ list | 18 R824 | repaired rows: class and row (boot flash) | DC empty
  windows : Tab TestUnit := []   -- @ 4 × 4 KiB | 18 R825 | test windows by window × 64 + unit | DC 0
  deriving DecidableEq, Repr

/-- Firmware bank states (Table 22.3). -/
inductive BankSt where
  | empty | writing | verified | invalid | running
  deriving DecidableEq, Repr

/-- A firmware bank (R907). -/
structure Bank where
  st     : BankSt := .empty      -- @ 3 | 22 Table 22.3 | bank state | DC EMPTY
  head   : Option ExaelHead := none -- @ 58 words | 22 R907 | bank trailer | DC none
  image  : List Word := []       -- @ 64 MiB | 22 R905 | image words | DC empty
  deriving DecidableEq, Repr

/-- A session (R909). -/
structure Session where
  head   : ExaelHead
  src    : Nat
  rcvd   : Nat
  ops    : List Word
  inOp   : Option (Nat × Nat)
  built  : Nat
  ended  : Bool
  phase  : Nat
  orig   : Option (Nat × Nat)
  deriving DecidableEq, Repr

/-- The UPD desk. -/
structure Upd where
  a      : Bank := { st := .running } -- @ record | 22 R907 | bank A (boot flash) | DC RUNNING, image empty
  b      : Bank := {}            -- @ record | 22 R907 | bank B (boot flash) | DC EMPTY
  pref   : Nat := 0              -- @ 1 | 22 R908 PREF | bank to boot (boot flash) | DC A
  trial  : Bool := false         -- @ 1 | 22 R908 TRIAL | trial (boot flash) | DC 0
  tries  : Nat := 0              -- @ 2 | 22 R908 TRIES | tries left (boot flash) | DC 0
  run    : Nat := 0              -- @ 1 | 22 Table 4.11 BANK | running bank | A
  ownLock : Bool := false        -- @ 1 | 22 R920 | owner update lock (boot flash) | DC 0
  revoked : Bool := false        -- @ 1 | 22 R904 | fuse that revokes image-signing key 0 | DC 0
  sess   : Option Session := none -- @ record | 22 R909 | session | none
  staged : Option (ExaelHead × List Word) := none -- @ record | 22 R911 | staged delta in group T | none
  prop   : Option (Nat × Nat × Nat × Nat) := none -- @ record | 22 R918 | propagation: scope, modules awaited, modules done, start time | none
  mask   : Nat := 0              -- @ 16 | 22 Table 22.9 PROPMASK | modules reported | 0
  offered : List Nat := []       -- @ list | 22 R916 | links with an OFFER not yet answered | empty
  newBoot : Nat := 0             -- @ 2 | 22 R915 | this Boot runs a newly activated bank (1) or a fallback (2) | 0
  bootEnd : Option Nat := none   -- @ 64 | 22 R908 | module time Boot ended in Standby or Active | none
  deriving DecidableEq, Repr

end Sys2Proof.Machine
end

