-- ==== Sys2Proof/Machine/State.lean ====
section
/-! DEFINITION. The state of the module, the reasons a step can stop, and the state after reset. -/
namespace Sys2Proof.Machine

/-- An admin, fabrics or Connect command, as its row gives it. -/
inductive AdmRow where
  | connect (r : ConnectReq)
  | authenticationSend (ctx cid : Nat) (m : AuthMsg)
  | authenticationReceive (ctx cid : Nat)
  | propertySet (ctx cid prop value : Nat)
  | propertyGet (ctx cid prop : Nat)
  | disconnect (ctx cid : Nat)
  | getLogPage (ctx cid nsid lid : Nat)
  | identify (ctx cid nsid cns cntid : Nat)
  | abort (ctx cid sqid acid : Nat)
  | setFeatures (ctx cid nsid fid value : Nat)
  | getFeatures (ctx cid nsid fid value : Nat)
  | asyncEventRequest (ctx cid : Nat)
  | namespaceManagement (ctx cid : Nat) (del : Option Nat) (c : NsCreate)
  | namespaceAttachment (ctx cid nsid : Nat) (attach : Bool) (ctrls : List Nat)
  | keepAlive (ctx cid : Nat)
  | formatNvm (ctx cid nsid ses lbaf pit : Nat)
  | sanitize (ctx cid sanact : Nat)
  deriving DecidableEq, Repr

/-- What waits for the end of a Drowse exit, in arrival order (R151, R178): an I/O command, an admin, fabrics or Connect command, and
what front frames bring an engine: a RoCEv2 packet, a packet of a TCP connection by its context, port, bytes and whether it is a RST, and
the messages that open and end connections. -/
inductive Woken where
  | cmd (c : HostCmd)
  | row (i : AdmRow)
  | roce (h : RoceHead) (rc : Bool) (k : PendPkt)
  | tcp (c lport bytes : Nat) (rst : Bool) (k : PendPkt)
  | req (r : CmReq)
  | rtu (qpn : Nat)
  | dreq (qpn : Nat)
  | drep (qpn : Nat)
  | syn (f : SynIn)
  | synDone (i : Nat)
  deriving DecidableEq, Repr

/-- The whole state of one module. -/
structure State where
  pending : List Instr := []     -- @ list | model | the commands that wait, first in, first out | empty
  out     : List OutMsg := []    -- @ list | model | what the module has given out, newest first | empty
  free    : Nat := 0             -- @ counter | model | index of the next free value | DC 0
  order   : Nat := 1             -- @ 8 | 00 Table 0.1, 04 Table 4.10 ORDER | ordering code from fuses | DC 1 (TK-4824-F)
  pins    : Pins := {}
  bay     : BayCode := {}
  fe      : FrontEnd := {}
  res     : Reserve := {}
  th      : Thermal := {}
  clk     : Clk := {}
  md      : ModDesk := {}
  lb      : Letterbox := {}
  se      : Se := {}
  tal     : Tally := {}
  pwr     : Pwr := {}
  net     : Net := {}
  qos     : Qos := {}
  xpt     : Xpt := {}
  nvm     : Nvm := {}
  vol     : Vol := {}
  wbf     : Wbf := {}
  drv     : Drv := {}
  key     : KeyDesk := {}
  links   : Links := {}
  pair    : Pair := {}
  stk     : Stack := {}
  mem     : Mem := {}
  upd     : Upd := {}
  woken   : List Woken := []     -- @ list | 04 R151, 05 R178, 16 R756 | commands and frames for an engine held until the end of a Drowse exit or of a freeze, in arrival order | empty
  kwait   : List AdmRow := []     -- @ list | 04 R155 | host commands that wait for the end of a Kumel restart, in arrival order | empty
  deriving DecidableEq, Repr

/-- Why the machine stops with a fault: no command does. DESIGN CHOICE (log 11, safe). -/
inductive Fault where
  deriving DecidableEq, Repr

/-- Why a command has no meaning. -/
inductive Refusal where
  /-- Raised by exec's arm of a command whose meaning is not written; safe. -/
  | notModelled (mnemonic : String)
  deriving DecidableEq, Repr

/-- The machine right after reset. DESIGN CHOICE (log 5, unsafe). -/
def State.reset : State := {}

/-- What a meaning answers. -/
abbrev Out := Host.Outcome State Fault Refusal

end Sys2Proof.Machine
end

