-- ==== Sys2Proof/Machine/Tab.lean ====
section
/-! DEFINITION. Operations over sparse tables and over words: look-up, insertion in key order, removal, bit fields
(R6: a range includes both ends, bit 0 is the least significant) and reserved-bit checks (R10). -/
namespace Sys2Proof.Machine

/-- The entry of key `k`, if there is one. -/
def tabFind {α : Type} : Tab α → Nat → Option α
  | [], _ => none
  | (k', v) :: t, k => if k' = k then some v else tabFind t k

/-- The entry of key `k`, or `d` where the table has none. -/
def tabGet {α : Type} (d : α) (t : Tab α) (k : Nat) : α := (tabFind t k).getD d

/-- The table holds key `k`. -/
def tabHas {α : Type} (t : Tab α) (k : Nat) : Bool := (tabFind t k).isSome

/-- Insert or replace the entry of `k`, keeping the keys rising. -/
def tabIns {α : Type} : Tab α → Nat → α → Tab α
  | [], k, v => [(k, v)]
  | (k', v') :: t, k, v =>
    if k = k' then (k, v) :: t
    else if k < k' then (k, v) :: (k', v') :: t
    else (k', v') :: tabIns t k v

/-- Remove the entry of `k`. -/
def tabDel {α : Type} : Tab α → Nat → Tab α
  | [], _ => []
  | (k', v') :: t, k => if k' = k then t else (k', v') :: tabDel t k

/-- Change the entry of `k`, seen as `d` where there is none. -/
def tabMod {α : Type} (d : α) (t : Tab α) (k : Nat) (f : α → α) : Tab α := tabIns t k (f (tabGet d t k))

/-- Change the entry of `k` where there is one. -/
def tabUpd {α : Type} : Tab α → Nat → (α → α) → Tab α
  | [], _, _ => []
  | (k', v') :: t, k, f => if k' = k then (k', f v') :: t else (k', v') :: tabUpd t k f

/-- Change every value. -/
def tabMap {α : Type} (t : Tab α) (f : Nat → α → α) : Tab α := t.map fun (k, v) => (k, f k v)

/-- Keep the entries that satisfy `p`. -/
def tabFilter {α : Type} (t : Tab α) (p : Nat → α → Bool) : Tab α := t.filter fun (k, v) => p k v

/-- Some entry satisfies `p`. -/
def tabAny {α : Type} (t : Tab α) (p : Nat → α → Bool) : Bool := t.any fun (k, v) => p k v

/-- How many entries satisfy `p`. -/
def tabCount {α : Type} (t : Tab α) (p : Nat → α → Bool) : Nat := (t.filter fun (k, v) => p k v).length

/-- The first key of `lo ..< lo + n` that the table does not hold. -/
def tabFree {α : Type} (t : Tab α) : Nat → Nat → Option Nat
  | _, 0 => none
  | lo, n + 1 => if tabHas t lo then tabFree t (lo + 1) n else some lo

/-- Keys strictly rising, all above `lo`. -/
def tabWfFrom {α : Type} : Option Nat → Tab α → Bool
  | _, [] => true
  | lo, (k, _) :: t => (match lo with | none => true | some l => decide (l < k)) && tabWfFrom (some k) t

/-- The canonical form of a table. -/
def tabWf {α : Type} (t : Tab α) : Bool := tabWfFrom none t

/-- Bits [hi:lo] of a word as a number (R6). -/
def bits (hi lo : Nat) (w : Word) : Nat := (w.toNat >>> lo) % 2 ^ (hi + 1 - lo)

/-- Bit [n] of a word. -/
def bit (n : Nat) (w : Word) : Bool := w.getLsbD n

/-- A number placed in bits [hi:lo], cut to the field's width. -/
def fld (hi lo v : Nat) : Word := BitVec.ofNat 32 ((v % 2 ^ (hi + 1 - lo)) <<< lo)

/-- A flag placed in bit [n]. -/
def flag (n : Nat) (b : Bool) : Word := if b then BitVec.ofNat 32 (1 <<< n) else 0

/-- A whole number as one word. -/
def word (n : Nat) : Word := BitVec.ofNat 32 n

/-- The low and the high word of a number (R7). -/
def words2 (n : Nat) : List Word := [word n, word (n >>> 32)]

/-- The `n` words of a number, least significant first (R7). -/
def wordsOf : Nat → Nat → List Word
  | 0, _ => []
  | n + 1, v => word v :: wordsOf n (v >>> 32)

/-- The number that consecutive words spell (R7). -/
def numOf : List Word → Nat
  | [] => 0
  | w :: ws => w.toNat + numOf ws <<< 32

/-- The mask of bits [hi:lo]. -/
def mask (hi lo : Nat) : Word := fld hi lo (2 ^ (hi + 1 - lo) - 1)

/-- No bit outside `used` is set (R10). -/
def clean (used w : Word) : Bool := w &&& ~~~used == 0

/-- The numbers below `n` whose bit of `m` is set, ascending. -/
def setBits (n m : Nat) : List Nat := (List.range n).filter fun i => m.testBit i

/-- The sum of a list of numbers. -/
def sumNat : List Nat → Nat := List.foldl (· + ·) 0

/-- Word `i` of a list of words, 0 beyond its end. -/
def wordAt (ws : List Word) (i : Nat) : Word := ws.getD i 0

end Sys2Proof.Machine
end

