-- ==== Sys2Proof/Machine/Ops.lean ====
section
/-! DEFINITION. The named operations every desk uses: changing one desk's part of the state, giving something out,
counting (R922, R923), raising events and completions (R861–R865, R876), replying (R838), changing the mode (R140). -/
namespace Sys2Proof.Machine

/-- Nanoseconds in a microsecond, a millisecond and a second. -/
def us : Nat := 1000
def ms : Nat := 1000000
def sec : Nat := 1000000000

def State.onMd (f : ModDesk → ModDesk) (s : State) : State := { s with md := f s.md }
def State.onLb (f : Letterbox → Letterbox) (s : State) : State := { s with lb := f s.lb }
def State.onSe (f : Se → Se) (s : State) : State := { s with se := f s.se }
def State.onTal (f : Tally → Tally) (s : State) : State := { s with tal := f s.tal }
def State.onPwr (f : Pwr → Pwr) (s : State) : State := { s with pwr := f s.pwr }
def State.onNet (f : Net → Net) (s : State) : State := { s with net := f s.net }
def State.onFe (f : FrontEnd → FrontEnd) (s : State) : State := { s with fe := f s.fe }
def State.onRes (f : Reserve → Reserve) (s : State) : State := { s with res := f s.res }

/-- Give something out. DESIGN CHOICE (log 201, safe). -/
def send (m : OutMsg) (s : State) : State := { s with out := m :: s.out }

/-- Take the next free value: its index, and the state with the counter advanced. DESIGN CHOICE (log 7, safe). -/
def takeFree (s : State) : BitVec 256 × State := (Config.freeValue s.free, { s with free := s.free + 1 })

/-- Fold an operation over a list, first element first. -/
def forAll {α : Type} (xs : List α) (f : α → State → State) (s : State) : State := xs.foldl (fun t x => f x t) s

/-- Apply an operation where a condition holds. -/
def doIf (b : Bool) (f : State → State) (s : State) : State := if b then f s else s

/-- One door by its number (Table 19.4); numbers above 2 read as door 2. -/
def State.door (s : State) : Nat → Door
  | 0 => s.lb.d0
  | 1 => s.lb.d1
  | _ => s.lb.d2

/-- Change one door; numbers above 2 change nothing. -/
def onDoor (d : Nat) (f : Door → Door) (s : State) : State :=
  match d with
  | 0 => s.onLb fun l => { l with d0 := f l.d0 }
  | 1 => s.onLb fun l => { l with d1 := f l.d1 }
  | 2 => s.onLb fun l => { l with d2 := f l.d2 }
  | _ => s

/-! ## MSI-X and the notify conditions of the doors -/

/-- Signal an MSI-X vector: sent, or left pending while masked, in D3hot or without Bus Master Enable (R885). -/
def signalVec (v : Nat) (s : State) : State :=
  let e := tabGet {} s.se.vecs v
  if s.se.bme && !s.se.d3 && !e.masked then send { kind := .msix, a := v, b := e.addr, ws := [e.data] } s
  else s.onSe fun x => { x with vecs := tabIns x.vecs v { e with pending := true } }

/-- Bring a door's notify conditions up to date (R843, Table 21.3 vector 0): a condition that arises signals. -/
def settle (d : Nat) (s : State) : State :=
  let x := s.door d
  let ev := x.evEn && !x.evq.isEmpty
  let rp := x.rpEn && decide (x.st = .reply)
  let rise := (ev && !x.evLvl) || (rp && !x.rpLvl)
  let s := onDoor d (fun x => { x with evLvl := ev, rpLvl := rp, alert := (rise || x.alert) && (ev || rp) }) s
  if rise && d = 1 then signalVec 0 s else s

/-! ## Counters -/

/-- Add to one counter: the sum wraps modulo 2^48 and a carry sets the overflow bit (R922, R923). -/
def Ctr.add (k : Nat) (c : Ctr) : Ctr :=
  { val := BitVec.ofNat 48 (c.val.toNat + k), ovf := c.ovf || decide (2 ^ 48 ≤ c.val.toNat + k) }

/-- The addition of `k` carries past 2^48 − 1. -/
def Ctr.carries (k : Nat) (c : Ctr) : Bool := decide (2 ^ 48 ≤ c.val.toNat + k)

/-- Add to a counter and raise nothing. -/
def bump (n k : Nat) (s : State) : State :=
  if k = 0 then s else s.onTal fun t => { t with ctrs := tabMod {} t.ctrs n (Ctr.add k) }

/-! ## Events -/

/-- Events that are not completions, in a queue. -/
def ordinary (q : List EvRec) : Nat := (q.filter fun e => !e.compl).length

/-- Append a record to a door's queue; EVSEQ advances by 1 for each record (R865). -/
def pushEvent (d : Nat) (compl : Bool) (ev status : Nat) (param tag : Word) (s : State) : State :=
  settle d (onDoor d (fun x =>
    { x with evSeq := x.evSeq + 1,
             evq := x.evq ++ [{ seq := x.evSeq + 1, event := ev, compl := compl, status := status,
                                param := param, tag := tag, time := s.clk.now }] }) s)

/-- The door's mask enables the event (R863). -/
def eventOn (x : Door) (ev : Nat) : Bool := !(tabGet 0 x.maskOff (ev / 64)).getLsbD (ev % 64)

/-- Store an ordinary event at one door; where it finds no place it is counted (R862, R864). The flag answers whether
MOD.EVENT_OVERFLOW is now due for the door. -/
def storeOrdinary (ev : Nat) (param : Word) (d : Nat) (s : State) : State × Bool :=
  let x := s.door d
  if !eventOn x ev then (s, false)
  else if ordinary x.evq < 192 && x.evq.length < 256 then (pushEvent d false ev 0 param 0 s, false)
  else
    let s := onDoor d (fun x => { x with lostEv := tabMod 0 x.lostEv (ev / 64) (fun n => min 65535 (n + 1)),
                                         overTold := true }) s
    (bump (25 + d) 1 s, !x.overTold)

/-- Raise an ordinary event at some doors, and MOD.EVENT_OVERFLOW for each door that first overflows. Each door
overflows at most once between reads, so three rounds of overflow events are enough. -/
def raiseAt : Nat → List Nat → Nat → Word → State → State
  | 0, _, _, _, s => s
  | fuel + 1, ds, ev, param, s =>
    ds.foldl (fun t d =>
      let (t, told) := storeOrdinary ev param d t
      if told then raiseAt fuel [0, 1, 2] 18 (word d) t else t) s

/-- Raise TAL.OVERFLOW for a counter, at most once in any 1 s (R935). -/
def raiseOverflow (n : Nat) (s : State) : State :=
  let recent := match s.tal.ovfAt with | none => false | some t => decide (s.clk.now < t + sec)
  if recent then s
  else raiseAt 4 [0, 1, 2] 960 (word n) (s.onTal fun t => { t with ovfAt := some s.clk.now })

/-- Add `k` to counter `n` (R922), raising TAL.OVERFLOW where it carries. -/
def count (n k : Nat) (s : State) : State :=
  let c := tabGet {} s.tal.ctrs n
  doIf (c.carries k) (raiseOverflow n) (bump n k s)

/-- Add 1 to counter `n`. -/
def count1 (n : Nat) (s : State) : State := count n 1 s

/-- Raise event `ev` at every door whose mask enables it (R863). -/
def raise (ev : Nat) (param : Word) (s : State) : State := raiseAt 4 [0, 1, 2] ev param s

/-- The ACCEPTED reply of this command has not yet entered REPLY (R861). -/
def replyWaits (s : State) (d : Nat) (tag : Word) : Bool :=
  s.lb.replies.any fun r => r.door = d && r.tag = tag && r.status = 1

/-- Store a completion event at its own door, whatever the mask, once its ACCEPTED reply has entered REPLY (R861). -/
def complete (d : Nat) (tag : Word) (ev status : Nat) (param : Word) (s : State) : State :=
  if 2 < d then s
  else if replyWaits s d tag then
    s.onLb fun l => { l with heldEv := l.heldEv ++ [{ door := d, tag := tag, event := ev, status := status, param := param }] }
  else pushEvent d true ev status param tag s

/-- Complete every running command that `p` selects with event `ev`: a completion event at each issuing door, an
ordinary event at every other door (R861, R876). -/
def finish (p : Running → Bool) (ev status : Nat) (param : Word) (s : State) : State :=
  let rs := s.lb.running.filter p
  let s := s.onLb fun l => { l with running := l.running.filter fun r => !p r }
  let s := rs.foldl (fun t r => complete r.door r.tag ev status param t) s
  raiseAt 4 ([0, 1, 2].filter fun d => !rs.any fun r => r.door = d) ev param s

/-- Complete every running command that `p` selects; no ordinary event is raised. -/
def finishOnly (p : Running → Bool) (ev status : Nat) (param : Word) (s : State) : State :=
  let rs := s.lb.running.filter p
  let s := s.onLb fun l => { l with running := l.running.filter fun r => !p r }
  rs.foldl (fun t r => complete r.door r.tag ev status param t) s

/-- Note that a command returned ACCEPTED and runs (R861). -/
def accept (p : Packet) (op key key2 : Nat) (s : State) : State :=
  s.onLb fun l => { l with running := l.running ++ [{ door := p.door, tag := p.tag, op := op, key := key, key2 := key2 }] }

/-! ## Replies -/

/-- Status codes (Table 19.3). -/
def stOk : Nat := 0x00
def stAccepted : Nat := 0x01
def stBusy : Nat := 0x10
def stNotOwner : Nat := 0x11
def stBadOpcode : Nat := 0x20
def stBadParam : Nat := 0x21
def stBadLength : Nat := 0x22
def stRefusedMode : Nat := 0x30
def stRefusedMoving : Nat := 0x31
def stRefusedReserve : Nat := 0x32
def stRefusedLocked : Nat := 0x33
def stNoResource : Nat := 0x40
def stNotFound : Nat := 0x41
def stConflict : Nat := 0x42
def stIntegrity : Nat := 0x50
def stAuthFail : Nat := 0x60
def stHwFault : Nat := 0x70

/-- A desk's reply sets out for its door (R838); a BUSY reply is counted. Door 3 stands for the partner's doors, and takes none. -/
def post (d : Nat) (tag : Word) (orphan : Bool) (status : Nat) (ws : List Word) (s : State) : State :=
  if 2 < d then s else
  let s := doIf (status = stBusy) (count1 (19 + d)) s
  s.onLb fun l => { l with replies := l.replies ++ [{ door := d, tag := tag, status := status, words := ws, orphan := orphan }] }

/-! ## Modes -/

/-- The code of a mode (Table 4.5). -/
def Mode.code : Mode → Nat
  | .boot => 0 | .standby => 1 | .active => 2 | .fenced => 3 | .maintenance => 4 | .drowse => 5

/-- The code of a boot stage (Table 4.11). -/
def BootStage.code : BootStage → Nat
  | .alwaysOn => 0 | .rails => 1 | .flash => 2 | .selftest => 3 | .dram => 4 | .kumel => 5 | .enum => 6
  | .pairing => 7 | .done => 8 | .holdStrap => 14 | .holdFlash => 15

/-- The code of a restart cause (Table 4.2). -/
def Cause.code : Cause → Nat
  | .powerOn => 1 | .holdup => 2 | .thermal => 3 | .command => 4 | .fatal => 5 | .update => 6 | .reseat => 7

/-- The cause resets the always-on domain (Table 4.2). -/
def Cause.resetsAon : Cause → Bool
  | .powerOn | .holdup | .thermal => true
  | _ => false

/-- Boot step 6 has been reached (R132, Table 4.3): Kumel started and the doors open. -/
def State.step6 (s : State) : Bool :=
  match s.md.stage with
  | .kumel | .enum | .pairing | .done => true
  | _ => false

/-- The desk lock is released (R856). -/
def releaseLock (s : State) : State := s.onLb fun l => { l with lock := none }

/-- The lock's holder as a door number, 3 where none holds it. -/
def State.lockHolder (s : State) : Nat := match s.lb.lock with | none => 3 | some l => l.door

/-- A gate list kept as configuration, which does not run. -/
def Gate.kept (g : Gate) : Gate := { g with running := false, hold := false, shut := 0 }

/-- A module that is not Active runs no list: when it is Active again, each starts at its next aligned cycle start (R253). -/
def stopGates (s : State) : State := { s with qos := { s.qos with ports := tabMap s.qos.ports fun _ p => { p with gate := p.gate.kept } } }

/-- Change the mode (R140): MOD.MODE_CHANGE after Boot with the old mode in [2:0] and the new in [6:4] (R164), and the
lock released when the module leaves Active or Maintenance (R856). DEDUCED (log 32, unsafe). -/
def changeMode (m : Mode) (s : State) : State :=
  let old := s.md.mode
  if old = m then s
  else
    let s := { s with clk := { s.clk with modeAt := s.clk.now } }
    let s := s.onMd fun x => { x with mode := m }
    let s := doIf ((old = .active || old = .drowse) && m != .active && m != .drowse) stopGates s
    let s := doIf (old = .active || old = .maintenance) releaseLock s
    doIf (old != .boot) (finish (fun r => r.op = 0x0004 && m = .maintenance) 1 stOk (fld 2 0 old.code ||| fld 6 4 m.code)) s

/-- A time that is due. DESIGN CHOICE (log 3, safe). -/
def due (t now : Nat) : Bool := decide (t ≤ now)

end Sys2Proof.Machine
end

