-- ==== Sys2Proof/Machine/Wake.lean ====
section
/-! DEFINITION. The start of the Drowse exit (R150, R151), which frames and commands share. -/
namespace Sys2Proof.Machine

/-- Start the Drowse exit, once: the fabric clock returns to 1.5 GHz (R151 step 1). -/
def beginDrowseExit (s : State) : State :=
  if s.md.mode = .drowse && decide (s.md.drowse ≠ .exiting) then
    s.onMd fun m => { m with drowse := .exiting, exitAt := s.clk.now, fabricSlow := false }
  else s

/-- A command arrives after E1 and before the commit: quiescence starts over, and where E3 has begun the drives it reached
return to operation and entry resumes at E2 (R147), which is counted. -/
def entryArrival (s : State) : State :=
  match s.md.drowse with
  | .quiesce => s.onMd fun m => { m with quietAt := s.clk.now }
  | .drivesLow => count1 4 (s.onMd fun m => { m with drowse := .quiesce, quietAt := s.clk.now, fabricSlow := false })
  | _ => s

/-- Start a Drowse entry at E1 (R146). -/
def beginDrowse (s : State) : State :=
  s.onMd fun m => { m with drowse := .quiesce, drowseAt := s.clk.now, quietAt := s.clk.now, patrolPaused := true }

end Sys2Proof.Machine
end

