-- ==== Sys2Proof/Machine/Buffer.lean ====
section
/-! DEFINITION. The cell buffer of the Sorting Office (R179–R191, R202–R205): logical ports, output queues and their partitions, the PFC
frames that the module sends, ECN marks, and mirror copies. -/
namespace Sys2Proof.Machine

/-! ## Cages and logical ports -/

/-- A cage by its number: 0–3 front, 4 UP, 5 DN. -/
def State.cage (s : State) (c : Nat) : Cage := tabGet {} s.net.cages c

/-- Change a cage. -/
def onCage (c : Nat) (f : Cage → Cage) (s : State) : State := s.onNet fun n => { n with cages := tabMod {} n.cages c f }

/-- A logical port. -/
def State.lport (s : State) (l : Nat) : LPort := tabGet {} s.net.lports l

/-- Change a logical port. -/
def onLport (l : Nat) (f : LPort → LPort) (s : State) : State := s.onNet fun n => { n with lports := tabMod {} n.lports l f }

/-- The logical port exists in its port's present mode (Table 5.1). -/
def lportExists (s : State) (l : Nat) : Bool := decide (l < 32) && decide (l % 8 % (8 / 2 ^ (s.cage (l / 8)).mode) = 0)

/-- The logical port's rate, Gbit/s (Table 5.1). -/
def lportRate (s : State) (l : Nat) : Nat := 400 / 2 ^ (s.cage (l / 8)).mode

/-- Lanes of a logical port in its front port's mode (Table 5.1). -/
def lanesPer (s : State) (l : Nat) : Nat := 8 / 2 ^ (s.cage (l / 8)).mode

/-- The module processes front frames: Active or Drowse; in Maintenance only while no module of the shelf holds the lease,
so that connection attempts are answered (R143, R176, R178). -/
def servesFront (s : State) : Bool :=
  s.md.mode = .active || s.md.mode = .drowse || (s.md.mode = .maintenance && !s.pair.peerLease)

/-- The module transmits on its front ports: PFC at least, and frames unless transport egress is halted (R41, R176, R749). -/
def frontOn (s : State) : Bool := servesFront s && !s.md.egressOff

/-! ## The cell buffer -/

/-- The frames of an output queue. -/
def State.queue (s : State) (k : Nat) : List QFrame := tabGet [] s.net.queues k

/-- Replace the frames of an output queue. -/
def setQueue (k : Nat) (q : List QFrame) (s : State) : State :=
  s.onNet fun n => { n with queues := if q.isEmpty then tabDel n.queues k else tabIns n.queues k q }

/-- Sum over every queued frame. -/
def sumFrames (s : State) (f : QFrame → Nat) : Nat := sumNat (s.net.queues.map fun e => sumNat (e.2.map f))

/-- The cells a frame of `len` bytes occupies (R180). -/
def cellsOf (len : Nat) : Nat := (len + 255) / 256

/-- The PCP is lossless on the logical port (R185). -/
def lossless (x : LPort) (pcp : Nat) : Bool := decide (x.lossA = some pcp) || decide (x.lossB = some pcp)

/-- The lossless classes of a logical port. -/
def lossCount (x : LPort) : Nat := (if x.lossA.isSome then 1 else 0) + (if x.lossB.isSome then 1 else 0)

/-- PFC headroom reserved now: per up logical port per lossless class (Table 5.4). -/
def headroomNow (s : State) : Nat :=
  sumNat ((List.range 32).map fun l => if (s.lport l).up then s.net.headroom * lossCount (s.lport l) else 0)

/-- The size of the shared pool (Table 5.4). -/
def sharedSize (s : State) : Nat := 196608 - s.net.pend - s.net.dlCells - s.net.mirCells - 312 * s.net.qmin - headroomNow s

/-- Free cells of the shared pool. -/
def sharedFree (s : State) : Nat := sharedSize s - sumFrames s (·.shC)

/-- The shared pool admits `n` more cells to a queue that holds `have_` of it (R183): at most α times the free cells. -/
def sharedAdmits (s : State) (have_ n : Nat) : Bool :=
  decide (16 * have_ ≤ 2 ^ s.net.alpha * sharedFree s) && decide (n ≤ sharedFree s)

/-- Shared cells held by frames that arrived on a logical port with a PCP (R186). -/
def arrivedCells (s : State) (l pcp : Nat) : Nat := sumFrames s fun f => if f.inPort = l && f.pcp = pcp then f.shC else 0

/-- Headroom cells used by a logical port's class (R187). -/
def headroomUsed (s : State) (l pcp : Nat) : Nat := sumFrames s fun f => if f.inPort = l && f.pcp = pcp then f.hrC else 0

/-- Send a PFC frame on a front port that is up and transmits (R176, R186). -/
def sendPfc (l pcp quanta : Nat) (s : State) : State :=
  if frontOn s && (s.lport l).up then send { kind := .pfc, a := l, b := pcp, c := quanta } (count1 (1280 + l) (count1 (1056 + l) s)) else s

/-- Send XOFF where the count of a lossless class has reached it (R186). -/
def checkXoff (l pcp : Nat) (s : State) : State :=
  if lossless (s.lport l) pcp && !tabHas (s.lport l).xoff pcp && decide (s.net.xoff ≤ arrivedCells s l pcp) then
    sendPfc l pcp 0xFFFF (onLport l (fun x => { x with xoff := tabIns x.xoff pcp s.clk.now }) s)
  else s

/-- Send quanta 0 where the count has fallen below XON (R186). -/
def checkXon (l pcp : Nat) (s : State) : State :=
  if tabHas (s.lport l).xoff pcp && decide (arrivedCells s l pcp < s.net.xon) then
    sendPfc l pcp 0 (onLport l (fun x => { x with xoff := tabDel x.xoff pcp }) s)
  else s

/-- A queue carries a lossless PCP: its egress PCP is lossless on its front port, a port's map gives a lossless PCP its class, or a
frame in it came with one (R184, R190). -/
def carriesLossless (s : State) (k : Nat) : Bool :=
  (decide (k / 8 < 32) && lossless (s.lport (k / 8)) (tabGet 0 (s.lport (k / 8)).egress (k % 8)))
    || (tabAny s.net.lports fun _ x => (x.lossA.toList ++ x.lossB.toList).any fun p => decide (tabGet 2 x.pcpClass p = k % 8))
    || (s.queue k).any fun f => decide (f.inPort < 32) && lossless (s.lport f.inPort) f.pcp

/-- ECN marking at enqueue by the queue's depth in cells (R190, R191). Between KMIN and KMAX the choice is random: a free
value against the probability. DESIGN CHOICE (log 34, safe). DEDUCED (log 35, unsafe). -/
def ecnMark (k : Nat) (lossy : Bool) (ecn : Nat) (s : State) : Nat × State :=
  let e := tabGet {} s.net.ecns k
  let d := sumNat ((s.queue k).map fun f => f.minC + f.shC + f.hrC + f.mirC)
  let ect := ecn = 1 || ecn = 2
  if !e.enable || !lossy || !ect || d < e.kmin then (ecn, s)
  else if e.kmax < d then (3, s)
  else
    let (r, s) := takeFree s
    let hit := if e.kmin = e.kmax then r.getLsbD 0
      else decide (r.toNat % 65536 * 256 * (e.kmax - e.kmin) < 65536 * (e.pmax + 1) * (d - e.kmin))
    (if hit then 3 else ecn, s)

/-- Admit a frame to an output queue: the queue's minimum, the shared pool, then for a lossless frame its headroom; else it
is dropped whole and counted (R183, R187). DEDUCED (log 36, unsafe). -/
def enqueueFrame (k : Nat) (f : QFrame) (s : State) : State :=
  let n := cellsOf f.len
  let q := s.queue k
  let loss := f.inPort < 32 && lossless (s.lport f.inPort) f.pcp
  let port := if f.inPort < 32 then f.inPort else k / 8
  let m := min n (s.net.qmin - sumNat (q.map (·.minC)))
  let rest := n - m
  let put := fun (mC sC hC : Nat) (s : State) =>
    let (e, s) := ecnMark k (!loss && !carriesLossless s k) f.ecn s
    let s := doIf (e = 3 && f.ecn != 3 && port < 32) (count1 (1184 + (if k / 8 < 32 then k / 8 else port))) s
    let s := setQueue k (s.queue k ++ [{ f with ecn := e, at_ := max s.clk.now f.at_, minC := mC, shC := sC, hrC := hC }]) s
    doIf (f.inPort < 32) (checkXoff f.inPort f.pcp) s
  if rest = 0 then put m 0 0 s
  else if sharedAdmits s (sumNat (q.map (·.shC))) rest then put m rest 0 s
  else if loss then
    if headroomUsed s f.inPort f.pcp + rest ≤ s.net.headroom then put m 0 rest s
    else raise 138 (word f.inPort) (count1 1384 s)
  else doIf (port < 32) (count1 (1216 + port)) s

/-- A received frame that its lookup, or the Sorting Office, sends to a switch port: it belongs to the internal leaf (R234). -/
def rxFrame (len inPort pcp ecn : Nat) (epoch : Option Nat) : QFrame := ⟨len, inPort, pcp, ecn, epoch, 0, 0, 0, 0, 0, none, 2048, none⟩

/-- Bytes of a message's frames in pieces of at most `k`. -/
def pieces : Nat → Nat → Nat → List Nat
  | 0, _, len => [len]
  | fuel + 1, k, len => if len ≤ k then [len] else k :: pieces fuel k (len - k)

/-- The payload bytes of the frames that carry `len` bytes, at most `mtu` in each. -/
def framesOf (mtu len : Nat) : List Nat := pieces (len / max 1 mtu) (max 1 mtu) len

/-- Frames for a front port enter its output queue of their class; the message leaves with the last of them (R179, R218, R219). The
headers that the standards give a frame are a free number of bytes. DESIGN CHOICE (log 202, safe). -/
def putOut (x : TxFrames) (s : State) : State :=
  let head := (Config.frameHead x.msg.kind.ctorIdx).toNat
  let n := x.lens.length
  forAll ((List.range n).zip x.lens) (fun e =>
    enqueueFrame (x.port * 8 + x.cls % 8)
      { rxFrame (head + e.2) x.from_ 0 x.ecn none with at_ := x.after, leaf := x.leaf, msg := if e.1 + 1 = n then some x.msg else none }) s

/-- Copy a frame as it is on the wire, with its PCP and ECN, to a mirror session's analysis port, drawing on the mirror partition only
(R205). The copy is stamped with the epoch in force. DESIGN CHOICE (log 203, unsafe). -/
def mirrorCopy (i len pcp ecn : Nat) (s : State) : State :=
  let m := tabGet {} s.net.mirrors i
  if !m.enable then s
  else
    let len := if m.trunc then min len 128 else len
    let n := cellsOf len
    if s.net.mirCells < sumFrames s (·.mirC) + n then count1 (1380 + i) s
    else
      let k := m.analysis * 8 + 7
      setQueue k (s.queue k ++ [⟨len, 39, pcp, ecn, some s.net.epoch, s.clk.now, 0, 0, 0, n, some i, 2048, none⟩]) s

/-- Copies of a frame for the sessions whose source is the logical port in the given direction (R204). -/
def mirrorPort (l dirBit len pcp ecn : Nat) (s : State) : State :=
  forAll (List.range 4) (fun i s =>
    let m := tabGet {} s.net.mirrors i
    if m.src = l && m.dir.testBit dirBit then mirrorCopy i len pcp ecn s else s) s

end Sys2Proof.Machine
end

