-- ==== Sys2Proof/Machine/Base.lean ====
section
/-! DEFINITION. Operations over the data-plane desks' parts of the state, the shadow records and the Postmark rule
(R714, R730, R734), and the module's stack position (R777). -/
namespace Sys2Proof.Machine

def State.onQos (f : Qos → Qos) (s : State) : State := { s with qos := f s.qos }
def State.onXpt (f : Xpt → Xpt) (s : State) : State := { s with xpt := f s.xpt }
def State.onNvm (f : Nvm → Nvm) (s : State) : State := { s with nvm := f s.nvm }
def State.onVol (f : Vol → Vol) (s : State) : State := { s with vol := f s.vol }
def State.onWbf (f : Wbf → Wbf) (s : State) : State := { s with wbf := f s.wbf }
def State.onDrv (f : Drv → Drv) (s : State) : State := { s with drv := f s.drv }
def State.onKey (f : KeyDesk → KeyDesk) (s : State) : State := { s with key := f s.key }
def State.onLinks (f : Links → Links) (s : State) : State := { s with links := f s.links }
def State.onPair (f : Pair → Pair) (s : State) : State := { s with pair := f s.pair }
def State.onStk (f : Stack → Stack) (s : State) : State := { s with stk := f s.stk }
def State.onMem (f : Mem → Mem) (s : State) : State := { s with mem := f s.mem }
def State.onUpd (f : Upd → Upd) (s : State) : State := { s with upd := f s.upd }

/-! ## Records on the links (R707, R710–R712) -/

/-- A link: 0 partner, 1 UP, 2 DN. -/
def State.link (s : State) (k : Nat) : Link := tabGet {} s.links.links k
/-- Change a link. -/
def onLink (k : Nat) (f : Link → Link) (s : State) : State := s.onLinks fun l => { l with links := tabMod {} l.links k f }

/-- A link counter of Table 15.16: partner, and UP of the relay pair. -/
def linkCtr (k partner relay : Nat) : Nat := if k = 0 then partner else relay + (k - 1)

/-- The virtual channel of a record (Table 15.7); a forwarded frame adds its class. -/
def recordVc : OutKind → Nat
  | .shadow | .stateWrite => 1
  | .mirrorWrite | .mirrorState => 2
  | .hello | .dirUpdate | .stackRecord | .adminRequest | .adminReply | .offer | .offerAnswer | .fwData | .fwEnd | .fwResult => 3
  | .forward | .fwdCommand | .fwdDataReq | .fwdWrite | .fwdRead | .fwdComplete => 8
  | _ => 0

/-- Credits that a record of `len` words costs (R712). -/
def creditCost (len : Nat) : Nat := (len * 4 + 63) / 64

/-- Credits that a channel of a link has left (R712). -/
def creditsLeft (l : Link) (vc : Nat) : Nat := (tabGet 0 l.pool vc + tabGet 0 l.peerFreed vc + 2 ^ 24 - tabGet 0 l.used vc) % 2 ^ 24

/-- Flits that a record of `len` words takes. DESIGN CHOICE (log 241, safe). -/
def flitsOf (len : Nat) : Nat := (len + 62) / 63

/-- The record may start: the link is ACTIVE and carries it, at most 2,048 flits stay unacknowledged, and its channel has the credits, which
VC0 never needs (R707, R712, R774). -/
def recMay (l : Link) (r : LinkRec) : Bool :=
  l.st = .active && (!l.onlyHb || r.msg.kind = .heartbeat) && decide ((l.fseq + 4096 - l.acked) % 4096 + flitsOf r.len ≤ 2048)
    && (decide (r.vc = 0) || decide (creditCost r.len ≤ creditsLeft l r.vc))

/-- A postmarked record takes its PSEQ as it enters a flit, by 1 at a time (R714). -/
def takePseq (r : LinkRec) (s : State) : OutMsg × State :=
  if r.vc = 1 || r.vc = 2 then
    let n := s.pair.wire + 1
    ({ r.msg with c := n % 2 ^ 48 }, s.onPair fun p => { p with wire := n, inFlight := p.inFlight ++ [(n, r.msg.c)] })
  else (r.msg, s)

/-- A record starts on a link: its flits take FSEQ, the scrambler advances over them, and its channel's credits are consumed (R695, R707,
R712). -/
def startRecord (k : Nat) (r : LinkRec) (s : State) : State :=
  let (m, s) := takePseq r s
  send m (count1 (linkCtr k 5654 6172) (onLink k (fun l => { l with
    fseq := (l.fseq + flitsOf r.len) % 4096, txPos := l.txPos + 256 * flitsOf r.len, progAt := if l.fseq = l.acked then s.clk.now else l.progAt,
    used := if r.vc = 0 then l.used else tabMod 0 l.used r.vc fun n => (n + creditCost r.len) % 2 ^ 24 }) s))

/-- Send a record of `len` words on a link: it starts at once where it may and nothing of its channel waits; else it waits (R711, R712). VC0
has nothing to say on a link that is not ACTIVE. -/
def linkSendLen (k len : Nat) (m : OutMsg) (s : State) : State :=
  let l := s.link k
  let vc := recordVc m.kind + if recordVc m.kind = 8 then m.c % 8 else 0
  let r : LinkRec := ⟨vc, len, m⟩
  if recMay l r && !l.queue.any fun x => x.vc = vc then startRecord k r s
  else if vc = 0 && l.st != .active then s
  else onLink k (fun l => { l with queue := l.queue ++ [r] }) s

/-- The first waiting record of a channel, where it may start. -/
def chanHead (l : Link) (vc : Nat) : Option LinkRec := (l.queue.find? fun r => r.vc = vc).filter (recMay l)

/-- The record that starts next and the byte count after it (R711): VC0, VC1, VC3, then VC2 against the forward channels by their bytes,
weighted 7:1, and among the forward channels VC8 first. DESIGN CHOICE (log 242, safe). -/
def nextRec (l : Link) : Option (LinkRec × Int) :=
  match [0, 1, 3].findSome? (chanHead l) with
  | some r => some (r, l.dwrr)
  | none =>
    let fwd := [8, 9, 10, 11, 12, 13, 14, 15].findSome? (chanHead l)
    match chanHead l 2, fwd with
    | some a, some b => if 0 ≤ l.dwrr then some (a, l.dwrr - 4 * a.len) else some (b, l.dwrr + 28 * b.len)
    | some a, none => some (a, 0)
    | none, some b => some (b, 0)
    | none, none => none

/-- Waiting records start as far as they may. -/
def pumpLink : Nat → Nat → State → State
  | 0, _, s => s
  | fuel + 1, k, s => match nextRec (s.link k) with
    | none => s
    | some (r, d) => pumpLink fuel k (startRecord k r (onLink k (fun l => { l with queue := l.queue.erase r, dwrr := d }) s))

/-- Start what waits on a link and may leave. -/
def pumpRecords (k : Nat) (s : State) : State := pumpLink (s.link k).queue.length k s

/-- Send a record on a link. -/
def linkSend (k : Nat) (m : OutMsg) (s : State) : State :=
  linkSendLen k (Config.recordLen m.kind.ctorIdx m.a (s.link k).fseq).toNat m s

/-- A drive command goes out to a slot's drive, or ends: the time of its last I/O (Table 3.5). -/
def noteIo (k : Nat) (s : State) : State :=
  s.onPwr fun p => { p with slots := tabMod {} p.slots k fun x => { x with lastIo := some s.clk.now } }

/-! ## The shadow and the Postmark rule -/

/-- Send a shadow record (R714, R730). Outside a shadowing session nothing is sent. Of a state write `a` is
GROUP and `b` OBJECT + 2^24 × OFFSET (Table 15.10); of other shadow records `a` is KIND and `b` the context or opcode; of mirror
records `a` is the item's OP or the page. DESIGN CHOICE (log 165, safe). -/
def shadow (kind : OutKind) (a b : Nat) (s : State) : State :=
  if s.pair.shadowing && !((s.link 0).noDelta && decide (kind = .stateWrite)) then
    let n := s.pair.pseq + 1
    linkSend 0 { kind := kind, a := a, b := b, c := n }
      (s.onPair fun p => { p with pseq := n, markAt := if p.pmark = p.pseq then s.clk.now else p.markAt })
  else s

/-- The record that covers what was just shadowed, none where nothing is to be postmarked. -/
def State.cover (s : State) : Option Nat := if s.pair.shadowing then some s.pair.pseq else none

/-- A record is postmarked, or needs no postmark (R279, R734). -/
def State.marked (s : State) (seq : Option Nat) : Bool :=
  match seq with
  | none => true
  | some n => !s.pair.paired || decide (n ≤ s.pair.pmark)

/-- Transmit a transport packet: at once, or held until the last shadow record sent is postmarked, behind what is held
already (R734, R735), or while transport egress is halted (R749, R756, R760). A module that is not in charge of its front ports,
or whose lanes are off, transmits none (R41, R53, R731, R748). -/
def emit (m : TxFrames) (s : State) : State :=
  if s.md.mode = .standby || s.md.mode = .fenced || s.md.mode = .boot || s.md.egressOff then s
  else if s.pair.egressHalt || !s.pair.held.isEmpty || (s.pair.paired && decide (s.pair.pmark < s.pair.pseq)) then
    s.onPair fun p => { p with held := p.held ++ [⟨p.pseq, s.clk.now, m⟩] }
  else putOut m s

/-- What a standby does with a shadow record: it transmits nothing, dispatches no drive command, raises nothing and counts nothing (R731, R925). A command
that goes on stays noted, without a door of this module. -/
def silently (f : State → State) (s : State) : State :=
  let t := f s
  { t with out := s.out, lb := { s.lb with running := t.lb.running }, tal := s.tal, se := s.se,
           drv := { t.drv with cmds := s.drv.cmds, recons := s.drv.recons, passes := s.drv.passes }, pair := { t.pair with held := s.pair.held } }

/-! ## The stack -/

/-- The shelf's stack position (R777); a TK-4824-B is always at position 0. -/
def State.pos (s : State) : Nat := if s.order = 2 then 0 else match s.stk.record with | some r => r.pos | none => 0

/-- The module's number (R16). -/
def State.modnum (s : State) : Nat := 2 * s.pos + s.bay.bay

/-- Positions of the stack other than the own. -/
def otherShelves (s : State) : List Nat := match s.stk.record with | some r => (setBits 8 r.members).filter fun q => q != s.pos | none => []

/-- The module acts for its shelf: Active or Drowse, or Maintenance while no module of the shelf holds the lease (R500). -/
def actsForShelf (s : State) : Bool :=
  s.md.mode = .active || s.md.mode = .drowse || (s.md.mode = .maintenance && !s.pair.peerLease)

/-- This module is stack master: the Active module at position 0 (R25). -/
def State.master (s : State) : Bool := !s.stk.cand && decide (s.pos = 0) && (s.md.mode = .active || s.md.mode = .drowse)

/-- The module refuses host connections: its shelf is a candidate (R778), or it is in Maintenance and no module of the shelf
holds the lease (R143). DEDUCED (log 176, unsafe). -/
def refusesHosts (s : State) : Bool := (s.stk.cand && s.md.mode = .active) || (s.md.mode = .maintenance && !s.pair.peerLease)

/-- The neighbour on the way to a shelf, UP 1 or DN 2; of the partner's chain 3 and 4. -/
def toward (s : State) (q : Nat) : Nat := if s.pos < q then 2 else 1

/-- The REACH of a neighbour (R783). -/
def reachOf (s : State) (k : Nat) : Nat := (tabGet {} s.stk.near k : Neighbour).reach

/-- Shelf `q` is reachable on the own chain: its module of the same bay is in the neighbour's REACH (R784 step 1). -/
def ownPath (s : State) (q : Nat) : Bool := (reachOf s (toward s q)).testBit (2 * q + s.bay.bay)

/-- Shelf `q` is reachable through the partner (R784 step 2). -/
def partnerPath (s : State) (q : Nat) : Bool := s.links.partnerUp && (reachOf s (toward s q + 2)).testBit (2 * q + 1 - s.bay.bay)

/-- A shelf's Active module can be reached: either path exists (R784). -/
def reachable (s : State) (q : Nat) : Bool := decide (q = s.pos) || ownPath s q || partnerPath s q

/-- DSTMOD and HOPS of a record that this module sends first. -/
def firstHop (dst : Nat) : Nat := dst + 16

/-- Send a message to a shelf (R784); DSTMOD names its module in the bay of the path taken. -/
def sendTo (q : Nat) (m : OutMsg) (s : State) : State :=
  if ownPath s q then linkSend (toward s q) { m with route := firstHop (2 * q + s.bay.bay) } s
  else if s.links.partnerUp then linkSend 0 { m with route := firstHop (2 * q + 1 - s.bay.bay) } (count1 6189 s)
  else count1 6190 s

/-- The module at the other end of a link: the partner, or the relay neighbour that its HELLO names. -/
def linkPeer (s : State) (k : Nat) : Nat :=
  if k = 0 then 2 * s.pos + 1 - s.bay.bay
  else match (tabGet {} s.stk.near k : Neighbour).hello with | some h => 2 * h.pos + h.bay | none => 0

/-- A frame of the Sorting Office goes to the module at the other end of a link, in a FORWARDED_FRAME of its class (R723). DESIGN CHOICE (log 243, unsafe). -/
def forwardFrame (k cls lport len : Nat) (s : State) : State :=
  linkSendLen k (5 + (len + 3) / 4) { kind := .forward, a := lport, b := len, c := cls, route := firstHop (linkPeer s k) } s

/-- The master can be reached (R782). -/
def masterReach (s : State) : Bool := s.master || reachable s 0 && decide (s.pos ≠ 0) || decide (s.pos = 0) && s.pair.peerLease

end Sys2Proof.Machine
end

