-- ==== Sys2Proof/Machine/Banks.lean ====
section
/-! DEFINITION. The firmware banks, the Exael header and ops, and the end of an update session (R903–R908, R913). -/
namespace Sys2Proof.Machine

/-! ## Banks -/

/-- A bank of the firmware store. -/
def State.bankOf (s : State) (k : Nat) : Bank := if k = 0 then s.upd.a else s.upd.b

/-- Change a bank: 0 A, otherwise B. -/
def onBank (k : Nat) (f : Bank → Bank) (s : State) : State :=
  if k = 0 then s.onUpd fun u => { u with a := f u.a } else s.onUpd fun u => { u with b := f u.b }

/-- FWVER of the image in a bank (Table 4.10), 0 where it holds none. -/
def bankVer (s : State) (k : Nat) : Nat :=
  match (s.bankOf k).head with
  | some h => h.fwver
  | none => if (s.bankOf k).st = .running || (s.bankOf k).st = .verified then (Config.factoryVer k).toNat else 0

/-- The image words of a bank: the factory's where no session has written it. -/
def bankImage (s : State) (k : Nat) : List Word := match (s.bankOf k).head with | some _ => (s.bankOf k).image | none => Config.factoryImage k

/-- SHA-384 of a bank's image. -/
def bankHash (s : State) (k : Nat) : List Word := match (s.bankOf k).head with | some h => h.target | none => Config.sha384 (Config.factoryImage k)

/-- The bank that does not run. -/
def State.spare (s : State) : Nat := 1 - s.upd.run % 2

/-- The code of a bank's state (Table 22.3). -/
def BankSt.code : BankSt → Nat
  | .empty => 0 | .writing => 1 | .verified => 2 | .invalid => 3 | .running => 4

/-! ## The Exael header (Table 22.1) -/

/-- The header that 64 words spell. -/
def headOf (ws : List Word) : ExaelHead :=
  { full := bit 0 (wordAt ws 2), len := (wordAt ws 3).toNat, fwver := (wordAt ws 4).toNat, opwords := (wordAt ws 5).toNat,
    dvmin := bits 15 0 (wordAt ws 6), dvmax := bits 31 16 (wordAt ws 6), orders := bits 7 0 (wordAt ws 7), keyslot := bits 8 8 (wordAt ws 7),
    base := (ws.drop 10).take 12, target := (ws.drop 22).take 12, words := ws.take 64 }

/-- Check 1 of Table 22.4: MAGIC, VER, HWORDS, the reserved fields and the limits. -/
def headSane (ws : List Word) : Bool :=
  let h := headOf ws
  decide (wordAt ws 0 = 0x45415845) && decide (wordAt ws 1 = 0x00400001) && clean (mask 0 0) (wordAt ws 2) && clean (mask 8 0) (wordAt ws 7)
    && decide (wordAt ws 8 = 0) && decide (wordAt ws 9 = 0) && (ws.drop 58).all (· == 0)
    && decide (h.len % 4 = 0) && decide (h.len ≤ 64 * 1048576) && decide (h.opwords ≤ 16777216) && (!h.full || h.base.all (· == 0))

/-- Check 2: the signature verifies under a key that is not revoked (R904). -/
def headSigned (s : State) (h : ExaelHead) : Bool := !(s.upd.revoked && decide (h.keyslot = 0)) && Config.sigOk h.keyslot h.words

/-! ## Ops (Table 22.2) -/

/-- Byte `k` of an image. -/
def imageByte (img : List Word) (k : Nat) : Nat := (wordAt img (k / 4)).toNat / 2 ^ (8 * (k % 4)) % 256

/-- `n` words of an image from a byte offset. -/
def imageWords (img : List Word) (src n : Nat) : List Word :=
  (List.range n).map fun i => word (sumNat ((List.range 4).map fun j => imageByte img (src + 4 * i + j) * 2 ^ (8 * j)))

/-- The word that holds a byte four times. -/
def fillWord (w : Word) : Word := word (bits 7 0 w * 0x01010101)

/-- A first word of an op: OP in [3:0], LEN in [31:4]. -/
def opStart (w : Word) (x : Session) : Option Session :=
  let op := bits 3 0 w
  let len := bits 31 4 w
  if x.ended || len % 4 ≠ 0 || x.head.len < x.built + len then none
  else match op with
    | 1 => if x.head.full then none else some { x with inOp := some (1, len) }
    | 2 => some { x with inOp := if len = 0 then none else some (2, len) }
    | 3 => some { x with inOp := some (3, len) }
    | 15 => if len = 0 && x.built = x.head.len then some { x with ended := true } else none
    | _ => none

/-- Apply one op word to a session and the words that it has built; none where it breaks R906. -/
def opWord (base : List Word) (w : Word) (x : Session × List Word) : Option (Session × List Word) :=
  let (y, img) := x
  let y := { y with rcvd := y.rcvd + 1, ops := y.ops ++ [w] }
  if y.head.opwords < y.rcvd then none
  else match y.inOp with
    | none => (opStart w y).map fun z => (z, img)
    | some (1, len) =>
      if 4 * base.length < w.toNat + len then none
      else some ({ y with inOp := none, built := y.built + len }, img ++ imageWords base w.toNat (len / 4))
    | some (2, len) => some ({ y with inOp := if len = 4 then none else some (2, len - 4), built := y.built + 4 }, img ++ [w])
    | some (_, len) => some ({ y with inOp := none, built := y.built + len }, img ++ List.replicate (len / 4) (fillWord w))

/-- Apply op words in order. -/
def opWords (base : List Word) : List Word → Session × List Word → Option (Session × List Word)
  | [], x => some x
  | w :: ws, x => (opWord base w x).bind (opWords base ws)

/-! ## The end of a session -/

/-- A session runs: a delta is being received or verified. -/
def sessionRuns (s : State) : Bool := match s.upd.sess with | some x => decide (x.phase < 3) | none => false

/-- A running session ends without an image: its bank is INVALID (R910, R911, R913). -/
def dropSession (s : State) : State :=
  onBank s.spare (fun _ => { st := .invalid }) (s.onUpd fun u => { u with sess := none, staged := none })

/-- UPD.ABORTED with a code (R913, Table 22.10). A UPD.FINISH that waits for the hash completes with INTEGRITY. -/
def abortUpd (code : Nat) (s : State) : State :=
  if sessionRuns s then raise 901 (word code) (finishOnly (fun r => r.op = 0x0E04) 898 stIntegrity 0 (dropSession s)) else s

/-! ## The selection record (R908) -/

/-- The Boot ROM's choice of a bank, and the record after it: PREF, unless a trial has no tries left. -/
def choose (u : Upd) : Nat × Upd :=
  if !u.trial then (u.pref, u)
  else if u.tries = 0 then (1 - u.pref % 2, { u with trial := false, pref := 1 - u.pref % 2, newBoot := 2 })
  else (u.pref, { u with tries := u.tries - 1 })

/-- Table 4.3 step 3, R907, R908: the bank to boot is chosen; where its check fails, the other is tried. A bank that fails the
check has no valid trailer. DEDUCED (log 187, unsafe). -/
def bootBank (aOk bOk : Bool) (s : State) : State :=
  let s := forAll [(0, aOk), (1, bOk)] (fun e s => if e.2 || (s.bankOf e.1).st = .empty then s else onBank e.1 (fun b => { b with st := .invalid }) s) s
  let (k, u) := choose s.upd
  let ok := fun (i : Nat) => if i = 0 then aOk else bOk
  let k := if ok k then k else 1 - k % 2
  if !ok k then s
  else
    let s := s.onUpd fun _ => { u with run := k }
    let s := onBank (1 - k % 2) (fun b => { b with st := if b.st = .running then .verified else b.st }) s
    onBank k (fun b => { b with st := .running }) s

end Sys2Proof.Machine
end

