-- ==== Sys2Proof/Machine/Triage.lean ====
section
/-! DEFINITION. The error log, the fault list, and the queue of targeted self-tests (R811–R816), which the desks whose parts fail
feed. -/
namespace Sys2Proof.Machine

/-- A DRAM class. -/
def dramClass (cls : Nat) : Bool := cls = 8 || cls = 9 || cls = 10

/-- The unit that a self-test covers: an SRAM row, a DRAM page; of lanes and ports their location (Table 18.4). -/
def partOf (cls loc : Nat) : Nat := if cls < 8 then loc / 512 else if dramClass cls then loc / 4096 else loc

/-- Change a log record. -/
def onLog (eseq : Nat) (f : LogRec → LogRec) (s : State) : State :=
  s.onMem fun m => { m with log := m.log.map fun r => if r.eseq = eseq then f r else r }

/-- A record of the log. -/
def logRec (s : State) (eseq : Nat) : Option LogRec := s.mem.log.find? fun r => r.eseq = eseq

/-- Append a record to the ring; a full ring loses its oldest (R811, Table 18.8 event 841). -/
def appendLog (r : LogRec) (s : State) : State :=
  if s.mem.log.length < 4096 then s.onMem fun m => { m with log := m.log ++ [r], eseq := r.eseq }
  else
    let told := s.mem.wrapped
    let s := count1 6687 (s.onMem fun m => { m with log := m.log.drop 1 ++ [r], eseq := r.eseq, wrapped := true })
    doIf (!told) (raise 841 (fld 3 0 r.cls ||| fld 15 8 r.index)) s

/-- A new record with its ESEQ. -/
def newLog (cls kind index loc syn consumer device : Nat) (s : State) : Nat × State :=
  let n := (s.mem.eseq + 1) % 2 ^ 32
  (n, appendLog ⟨n, s.clk.now, cls, kind, 0, consumer, device, 1, loc, index, syn, 0, 0⟩ s)

/-- The record that an error folds into (R812): of the same location, class and kind within the last 1 s, or one whose self-test
of the location is under way. DEDUCED (log 179, unsafe). -/
def foldInto (s : State) (cls kind index loc : Nat) : Option Nat :=
  let same := fun (r : LogRec) => decide (r.cls = cls) && decide (r.kind = kind) && decide (r.index = index) && decide (r.loc = loc) && decide (s.clk.now < r.time + sec)
  match s.mem.tests.find? fun t => t.run && decide (t.cls = cls) && decide (t.index = index) && decide (partOf t.cls t.loc = partOf cls loc) with
  | some t => some t.eseq
  | none => (s.mem.log.reverse.find? same).map (·.eseq)

/-- Count an error into its record (R812). -/
def foldLog (eseq : Nat) (s : State) : State := onLog eseq (fun r => { r with count := min 255 (r.count + 1) }) s

/-- Self-tests that wait. -/
def waitingTests (s : State) : Nat := (s.mem.tests.filter fun t => !t.run).length

/-- A record's result is untested: MEM.TRIAGE_OVERFLOW is raised once per filling (R815). -/
def untested (eseq : Nat) (s : State) : State :=
  let told := s.mem.overTold
  let s := count1 6686 (onLog eseq (fun r => { r with result := 3 }) (s.onMem fun m => { m with overTold := true }))
  if told then s else match logRec s eseq with
    | some r => raise 839 (fld 3 0 r.cls ||| fld 15 8 r.index) s
    | none => raise 839 0 s

/-- Queue a self-test, from `since` on (R814, R815). -/
def queueTest (eseq cls index loc since : Nat) (cmd : Bool) (s : State) : State :=
  if 256 ≤ waitingTests s then untested eseq s
  else s.onMem fun m => { m with tests := m.tests ++ [⟨eseq, cls, index, loc, false, since, cmd⟩] }

/-- A lane or drive-port fault that triggers a self-test (R811, R814). -/
def partFault (cls kind index loc since : Nat) (s : State) : State :=
  match foldInto s cls kind index loc with
  | some e => foldLog e s
  | none => let (e, s) := newLog cls kind index loc 0 0 31 s; queueTest e cls index loc since false s

/-- A front lane loses its link (R171). DEDUCED (log 181, unsafe). -/
def frontLaneFault (lane : Nat) (s : State) : State := partFault 12 4 lane 0 s.clk.now s
/-- The two lanes of a slot lose their link (R618). -/
def driveLaneFault (slot : Nat) (s : State) : State :=
  partFault 13 4 (2 * slot + 1) 0 s.clk.now (partFault 13 4 (2 * slot) 0 s.clk.now s)
/-- A lane of the partner link, or of UP or DN, is lost (Table 15.13 cause 1). -/
def linkLaneFault (link lane : Nat) (s : State) : State := partFault 14 4 lane link s.clk.now s
/-- A drive port enters FAILED (R622), or 1 s after its member's ejection (R573). -/
def portFault (slot after : Nat) (s : State) : State := if slot < 24 then partFault 15 5 slot 0 (s.clk.now + after) s else s

end Sys2Proof.Machine
end

