-- ==== Sys2Proof/Machine/Geometry.lean ====
section
/-! DEFINITION. Geometry and arithmetic of the sets: strips, stripes, parity layout, parcels (R458–R462), the parity field
(R561), CRC32C, and the layout of namespace blocks in member blocks (R515, R648–R656). -/
namespace Sys2Proof.Machine

def GiB : Nat := 1073741824

/-- The member is missing: ABSENT or EJECTED. -/
def MState.out (m : MState) : Bool := m = .absent || m = .ejected

/-! ## Stripes -/

/-- Bytes of a strip (Table 10.9). -/
def stripBytes (v : VSet) : Nat := 65536 * 2 ^ v.strip
/-- 4 KiB blocks of a strip. -/
def stripBlks (v : VSet) : Nat := 16 * 2 ^ v.strip
/-- Data strips of a stripe (Table 10.2). -/
def dataStrips (v : VSet) : Nat := match v.type with | 0 => 1 | 1 => 1 | 2 => v.width - 1 | _ => v.width - 2
/-- Tag-zone stripes Z (R461). -/
def zStripes (v : VSet) : Nat := if v.tagzone then (v.stripes + 15) / 16 else 0
/-- Data stripes S − Z (R461). -/
def dataStripes (v : VSet) : Nat := v.stripes - zStripes v
/-- The set's parcels (R461). -/
def setParcels (v : VSet) : Nat := dataStripes v * dataStrips v * stripBytes v / GiB
/-- Missing strips tolerated (Table 12.1). -/
def tolerance (v : VSet) : Nat := match v.type with | 0 => 1 | 1 => 2 | 2 => 1 | _ => 2
/-- A mirror set. -/
def isMirror (v : VSet) : Bool := decide (v.type < 2)

/-- The P member of a stripe (R459). -/
def pMember (v : VSet) (n : Nat) : Nat := v.width - 1 - n % v.width
/-- The Q member of a stripe (R459). -/
def qMember (v : VSet) (n : Nat) : Nat := (pMember v n + 1) % v.width
/-- The member of data strip `j` (R459); of a mirror set, member 0. -/
def dataMember (v : VSet) (n j : Nat) : Nat :=
  match v.type with
  | 2 => (pMember v n + 1 + j) % v.width
  | 3 => (pMember v n + 2 + j) % v.width
  | _ => 0

/-- What a member holds in a stripe. -/
inductive Role where
  | data (j : Nat) | p | q
  deriving DecidableEq, Repr

/-- The role of a member in a stripe. -/
def roleOf (v : VSet) (n m : Nat) : Role :=
  if isMirror v then .data 0
  else if m = pMember v n then .p
  else if v.type = 3 && m = qMember v n then .q
  else .data ((m + v.width - (pMember v n + (if v.type = 3 then 2 else 1)) % v.width) % v.width)

/-- The place of set data byte `x`: stripe, data strip, 4 KiB block of the strip (R462). -/
def place (v : VSet) (x : Nat) : Nat × Nat × Nat :=
  let st := dataStrips v * stripBytes v
  (x / st, x % st / stripBytes v, x % stripBytes v / 4096)

/-- The drive block (4 KiB) of block `b` of a strip of stripe `n` (R459). -/
def stripLba (v : VSet) (n b : Nat) : Nat := 1048576 + n * stripBlks v + b

/-- The dirty-region log's region of a stripe's strip, block `b` (R576). -/
def regionOf (v : VSet) (n b : Nat) : Nat := (n * stripBytes v + 4096 * b) / 1048576

/-- A member of a set. -/
def VSet.mem (v : VSet) (m : Nat) : Member := tabGet {} v.members m

/-- The strip of a member is missing in a stripe (R555); for reads, also the strip of a RESYNCING member in a region that its
log slot still marks. DEDUCED (log 83, unsafe). -/
def missing (v : VSet) (n m : Nat) (reading : Bool) : Bool :=
  let x := v.mem m
  match x.st with
  | .absent | .ejected => true
  | .rebuilding => decide (x.wm ≤ n)
  | .resyncing => reading && (match x.log with | some k => (tabGet {} v.logs k : LogSlot).bits.contains (regionOf v n 0) | none => false)
  | .current => false

/-- Members of a set whose strips are missing in a stripe. -/
def missingOf (v : VSet) (n : Nat) (reading : Bool) : List Nat := (List.range v.width).filter fun m => missing v n m reading

/-! ## The parity field (R561) -/

/-- Exclusive or of two blocks; poison spreads (R806). -/
def Blk.xor (a b : Blk) : Blk := ⟨a.d ^^^ b.d, a.m ^^^ b.m, a.poison || b.poison⟩
/-- A block times a field element. -/
def Blk.scale (c : Nat) (a : Blk) : Blk := ⟨gfScale 4096 c a.d, gfScale 64 c a.m, a.poison⟩
/-- The zero block. -/
def Blk.zero : Blk := ⟨0, 0, false⟩

/-- P over data blocks in strip order. -/
def parityP (ds : List Blk) : Blk := ds.foldl Blk.xor Blk.zero
/-- Q over data blocks in strip order: the sum of g^j · D_j. -/
def parityQ (ds : List Blk) : Blk := ds.foldr (fun d q => (Blk.scale 2 q).xor d) Blk.zero

/-- The data blocks of a position from those that are known, P and Q. -/
def recoverData (ds : List (Option Blk)) (p q : Option Blk) : Option (List Blk) :=
  let idx := (List.range ds.length).filter fun j => (ds.getD j none).isNone
  let known := ds.map fun d => d.getD Blk.zero
  let put := fun (j : Nat) (b : Blk) (l : List Blk) => l.set j b
  match idx, p, q with
  | [], _, _ => some known
  | [j], some p, _ => some (put j (p.xor (parityP known)) known)
  | [j], none, some q => some (put j (Blk.scale (gfInv (gfPow j)) (q.xor (parityQ known))) known)
  | [i, j], some p, some q =>
    let a := p.xor (parityP known)
    let b := q.xor (parityQ known)
    let dj := Blk.scale (gfInv (gfPow j ^^^ gfPow i)) (b.xor (Blk.scale (gfPow i) a))
    some (put i (a.xor dj) (put j dj known))
  | _, _, _ => none

/-- The block of a member at one position from the blocks of other members (R560, Table 12.1). -/
def solveBlk (v : VSet) (n m : Nat) (have_ : Tab Blk) : Option Blk :=
  if isMirror v then (have_.head?).map (·.2)
  else
    let ds := (List.range (dataStrips v)).map fun j => tabFind have_ (dataMember v n j)
    let p := tabFind have_ (pMember v n)
    let q := if v.type = 3 then tabFind have_ (qMember v n) else none
    match recoverData ds p q with
    | none => none
    | some l => match roleOf v n m with
      | .data j => l[j]?
      | .p => some (parityP l)
      | .q => some (parityQ l)

/-! ## CRC32C -/

/-- One bit of the reflected CRC32C. -/
def crcStep (c : Nat) : Nat := if c % 2 = 1 then (c / 2) ^^^ 0x82F63B78 else c / 2

/-- CRC32C of a list of bytes (R8). -/
def crc32cBytes (bs : List Nat) : Nat :=
  (bs.foldl (fun c b => (List.range 8).foldl (fun c _ => crcStep c) (c ^^^ b)) 0xFFFFFFFF) ^^^ 0xFFFFFFFF

/-- The bytes of a number, least significant first. -/
def bytesOf : Nat → Nat → List Nat
  | 0, _ => []
  | n + 1, x => x % 256 :: bytesOf n (x / 256)

/-- CRC32C of words, each byte from [7:0] up. -/
def crc32c (ws : List Word) : Nat := crc32cBytes (ws.flatMap fun w => bytesOf 4 w.toNat)

/-- Reverse the bytes of an `n`-byte number. -/
def revBytes (n x : Nat) : Nat := (bytesOf n x).foldl (fun a b => a * 256 + b) 0

/-! ## Namespace blocks -/

/-- Data bytes of a namespace block (Table 10.3). -/
def nsBlkBytes (n : Ns) : Nat := if n.lbaf < 2 then 512 else 4096
/-- Namespace blocks in a 4 KiB span. -/
def perSpan (n : Ns) : Nat := if n.lbaf < 2 then 8 else 1
/-- Blocks of a parcel. -/
def perParcel (n : Ns) : Nat := 262144 * perSpan n
/-- Blocks of an extent of 1 MiB. -/
def perExtent (n : Ns) : Nat := 256 * perSpan n
/-- The namespace's PI is in use. -/
def hasPi (n : Ns) : Bool := decide (n.pit ≠ 0)
/-- A Sealed namespace with 512-byte blocks keeps its nonces and tags in the tag zone. -/
def usesTagZone (n : Ns) : Bool := decide (n.enc = 2) && decide (n.lbaf < 2)

/-- The tag zone entry of a block: nonce in bytes 0–11, tag in bytes 12–27 (Table 14.3). -/
def PBlk.entry (b : PBlk) : Nat := revBytes 12 b.nonce ||| (b.tag <<< 96)

/-- The member block of a page (R515, Tables 14.2 and 14.3): the page's valid blocks laid over `base`. -/
def memberBlk (n : Ns) (blks : Tab PBlk) (base : Blk) : Blk :=
  if n.lbaf < 2 then
    blks.foldl (fun b (e : Nat × PBlk) =>
      let md := (2 ^ 4096 - 1) <<< (4096 * e.1)
      let mm := (2 ^ 64 - 1) <<< (64 * e.1)
      ⟨(b.d ^^^ (b.d &&& md)) ||| (e.2.d <<< (4096 * e.1)), (b.m ^^^ (b.m &&& mm)) ||| (e.2.pi <<< (64 * e.1)), b.poison || e.2.poison⟩) base
  else match blks with
    | [] => base
    | e :: _ => ⟨e.2.d, (if n.enc = 2 then e.2.entry else 0) ||| (e.2.pi <<< 448), e.2.poison⟩

/-- The member block of a page of tag zone entries: 128 entries of 32 bytes (R656). -/
def tagBlk (blks : Tab PBlk) (base : Blk) : Blk :=
  blks.foldl (fun b (e : Nat × PBlk) =>
    let md := (2 ^ 256 - 1) <<< (256 * e.1)
    ⟨(b.d ^^^ (b.d &&& md)) ||| (e.2.entry <<< (256 * e.1)), b.m, b.poison || e.2.poison⟩) base

/-- Namespace block `i` of a span's member block, with its tag zone entry where the namespace has one. -/
def blkOfMember (n : Ns) (i : Nat) (b : Blk) (entry : Nat) : PBlk :=
  if n.lbaf < 2 then
    ⟨b.d >>> (4096 * i) % 2 ^ 4096, b.m >>> (64 * i) % 2 ^ 64, revBytes 12 (entry % 2 ^ 96), entry >>> 96 % 2 ^ 128, 0, b.poison⟩
  else ⟨b.d, b.m >>> 448 % 2 ^ 64, revBytes 12 (b.m % 2 ^ 96), b.m >>> 96 % 2 ^ 128, 0, b.poison⟩

/-- Tag-zone byte of a namespace block at set data byte `x` (R656). -/
def tzByte (x : Nat) : Nat := 32 * (x / 512)

end Sys2Proof.Machine
end

