-- ==== Sys2Proof/Machine/Cipher.lean ====
section
/-! DEFINITION. The cipher's data face: sealing and opening namespace blocks, cores, nonces and invocations (R643–R667), and
protection information (R480). -/
namespace Sys2Proof.Machine

/-- A key slot (R668). -/
def State.slotOf (s : State) (i : Nat) : KSlot := tabGet {} s.key.slots i
/-- Change a key slot. -/
def onKslot (i : Nat) (f : KSlot → KSlot) (s : State) : State := s.onKey fun k => { k with slots := tabMod {} k.slots i f }
/-- A cipher core. -/
def State.core (s : State) (c : Nat) : Core48 := tabGet {} s.key.cores c
/-- Change a cipher core. -/
def onCore (c : Nat) (f : Core48 → Core48) (s : State) : State := s.onKey fun k => { k with cores := tabMod {} k.cores c f }
/-- A slot is bound while its namespace exists with ENC 1 or 2 (R668). -/
def bound (s : State) (i : Nat) : Bool := match tabFind s.vol.ns (i + 1) with | some n => decide (n.enc ≠ 0) | none => false

/-- Cores in service. -/
def liveCores (s : State) : List Nat := (List.range 48).filter fun c => !(s.core c).retired
/-- The core for a job: the model's jobs end at once, so every queue is empty and the lowest number breaks the tie (R644). -/
def jobCore (s : State) : Option Nat := (liveCores s).head?
/-- Cores that hold a live reservation (R660, R661, Table 14.5). -/
def sealCores (s : State) : List Nat :=
  (liveCores s).filter fun c => decide ((s.core c).ctr < (s.core c).stop) && decide ((s.core c).ctr < 2 ^ 64 - 2 ^ 20)

/-- Members that hold a reservation record: present members 0–2 of every set that backs a Sealed namespace (R660). -/
def resvMembers (s : State) : List (Nat × Nat) :=
  (s.vol.sets.filter fun e => s.vol.ns.any fun n => n.2.enc = 2 && n.2.home = s.pos && (n.2.sets.contains e.1 || n.2.map.any fun l => l.2.set = e.1)).flatMap fun e =>
    ((List.range 3).filter fun m => decide (m < e.2.width) && !(e.2.mem m).st.out).map fun m => (e.1, m)

/-- The words of the reservation record (Table 14.4). -/
def resvWords (s : State) : List Word :=
  let ws := [1] ++ words2 s.key.rseq ++ [0] ++ (List.range 96).flatMap (fun i => words2 (tabGet 0 s.key.ends i)) ++ List.replicate 827 0
  ws ++ [word (crc32c ws)]

/-- Cores request their next reservations: they are entered in group T, shadowed, and written to the members, the two copies in turn
(R660–R662). DESIGN CHOICE (log 248, unsafe). -/
def askNext (cs : List Nat) (s : State) : State :=
  let s := forAll cs (fun c s =>
    let a := (max (s.core c).stop (tabGet 0 s.key.ends (48 * s.bay.bay + c)) + 2 ^ 20 - 1) / 2 ^ 20 * 2 ^ 20
    let s := onCore c (fun x => { x with ask := some a }) (s.onKey fun k => { k with ends := tabIns k.ends (48 * s.bay.bay + c) (a + 2 ^ 20) })
    let s := shadow .mirrorState 8 c s
    onCore c (fun x => { x with askSeq := s.cover }) s) s
  if cs.isEmpty then s
  else
    let s := s.onKey fun k => { k with rseq := k.rseq + 1 }
    let ws := resvWords s
    forAll (resvMembers s) (fun m => send { kind := .mapCopy, a := m.1, b := m.2, c := s.key.rseq, ws := ws, ds := [1048576 + s.key.rseq % 2 * 4096] }) s

/-- The cores of a module that becomes Active request their first reservations, above every END recorded for its bay (R661, R663). A
TK-4824-B has no cipher. -/
def firstReservations (s : State) : State :=
  if s.order = 2 then s else askNext ((List.range 48).filter fun c => (s.core c).stop ≤ (s.core c).ctr && (s.core c).ask.isNone) s

/-- The tweak of an XTS block (R649). -/
def tweak (n : Ns) (lba : Nat) : Nat := lba ^^^ n.salt
/-- The additional authenticated data of a Sealed block (R653). -/
def aadOf (nsid lba pi : Nat) : Nat := nsid ||| (lba <<< 32) ||| (pi <<< 96)
/-- The nonce (Table 14.1). -/
def nonceOf (s : State) (core gen ctr : Nat) : Nat :=
  (s.pos <<< 93) ||| (s.bay.bay <<< 92) ||| (core <<< 86) ||| ((gen % 65536) <<< 64) ||| ctr % 2 ^ 64

/-- One invocation of a slot's current key (R666, R667). -/
def invoke (i : Nat) (s : State) : State :=
  let k := s.slotOf i
  let n := k.invoc + 1
  let s := shadow .mirrorState 9 i (onKslot i (fun x => { x with invoc := n, saved := if x.saved < n then x.saved + 2 ^ 30 else x.saved }) s)
  let s := doIf (!k.warned && decide (3 * 2 ^ 38 ≤ n)) (fun s => raise 644 (fld 11 0 i) (onKslot i (fun x => { x with warned := true }) s)) s
  if n = 2 ^ 40 then
    raise 391 (fld 12 0 (i + 1)) (raise 645 (fld 11 0 i) (s.onVol fun v => { v with ns := tabUpd v.ns (i + 1) fun x => { x with ro := true } }))
  else s

/-- Encipher a block as it enters the write buffer; none where no core can take a Sealed job (R644, R661). -/
def sealBlk (nsid : Nat) (n : Ns) (lba : Nat) (h : HBlk) (order : Nat) (s : State) : Option PBlk × State :=
  let i := nsid - 1
  let k := s.slotOf i
  let bytes := nsBlkBytes n
  match n.enc with
  | 0 => (some ⟨h.d, h.pi, 0, 0, order, false⟩, s)
  | 1 => match jobCore s with
    | none => (none, s)
    | some c => (some ⟨Config.xtsEnc k.key (tweak n lba) bytes h.d, h.pi, 0, 0, order, false⟩, count1 5168 (count1 (5120 + c) s))
  | _ => match sealCores s with
    | [] =>
      let told := (List.range 48).any fun c => (s.core c).stalled
      (none, doIf (!told) (fun s => raise 647 (fld 5 0 ((jobCore s).getD 0)) (count1 5175 (s.onKey fun d =>
        { d with cores := (liveCores s).foldl (fun t c => tabMod {} t c fun x => { x with stalled := true }) d.cores }))) s)
    | c :: _ =>
      let x := s.core c
      let iv := nonceOf s c k.gen x.ctr
      let ct := Config.gcmEnc k.key iv bytes h.d
      let s := onCore c (fun x => { x with ctr := x.ctr + 1 }) s
      let s := doIf (x.ask.isNone && decide (x.stop - (x.ctr + 1) ≤ 2 ^ 19)) (askNext [c]) s
      let s := doIf (x.ctr + 1 = 2 ^ 64 - 2 ^ 20) (raise 646 (fld 5 0 c)) s
      (some ⟨ct, h.pi, iv, Config.gcmTag k.key iv 20 (aadOf nsid lba h.pi) bytes ct, order, false⟩,
       invoke i (count1 5170 (count1 (5120 + c) s)))

/-- Decipher a block and verify its tag; none is treated as a media error of that block (R658, R659). -/
def openBlk (nsid : Nat) (n : Ns) (lba : Nat) (b : PBlk) (s : State) : Option HBlk × State :=
  let k := s.slotOf (nsid - 1)
  let bytes := nsBlkBytes n
  let c := (jobCore s).getD 0
  match n.enc with
  | 0 => (some ⟨b.d, b.pi⟩, s)
  | 1 => (some ⟨Config.xtsDec k.key (tweak n lba) bytes b.d, b.pi⟩, count1 5169 (count1 (5120 + c) s))
  | _ =>
    let g := b.nonce >>> 64 % 65536
    let key := if g = k.gen % 65536 then some k.key
      else if !k.prev.isEmpty && decide (g = k.prevGen % 65536) then some k.prev else none
    match key with
    | none => (none, count1 5172 s)
    | some key =>
      if Config.gcmTag key b.nonce 20 (aadOf nsid lba b.pi) bytes b.d = b.tag then
        (some ⟨Config.gcmDec key b.nonce bytes b.d, b.pi⟩, count1 5171 (count1 (5120 + c) s))
      else (none, count1 5172 s)

/-! ## Protection information (R480) -/

/-- CRC-16 with polynomial 0x8BB7 over bytes, the 16-bit guard. -/
def guard16 (bs : List Nat) : Nat :=
  bs.foldl (fun c b => (List.range 8).foldl (fun c _ => if c ≥ 32768 then ((c * 2) ^^^ 0x8BB7) % 65536 else c * 2) (c ^^^ (b * 256))) 0

/-- The PI of a block: guard, application tag and reference tag, each big-endian, as an 8-byte number. -/
def makePi (bytes d app ref : Nat) : Nat :=
  revBytes 2 (guard16 (bytesOf bytes d)) ||| (revBytes 2 app <<< 16) ||| (revBytes 4 ref <<< 32)

/-- The expected reference tag of block `i` of a command: type 1 counts up from the initial value. -/
def refTag (n : Ns) (a : IoCmd) (i : Nat) : Nat := if n.pit = 1 then (a.ilbrt + i) % 2 ^ 32 else a.ilbrt

/-- The PI check that PRCHK selects: bit 2 guard, bit 1 application tag, bit 0 reference tag. Blocks whose tags carry the
escape values are not checked. -/
def checkPi (n : Ns) (a : IoCmd) (i : Nat) (h : HBlk) : Option NvStatus :=
  let g := revBytes 2 (h.pi % 65536)
  let app := revBytes 2 (h.pi >>> 16 % 65536)
  let ref := revBytes 4 (h.pi >>> 32 % 2 ^ 32)
  if !hasPi n then none
  else if app = 0xFFFF && (n.pit = 1 || ref = 0xFFFFFFFF) then none
  else if a.prchk.testBit 2 && g != guard16 (bytesOf (nsBlkBytes n) h.d) then some .piGuard
  else if a.prchk.testBit 1 && ((app ^^^ a.lbat) &&& a.lbatm) != 0 then some .piApp
  else if a.prchk.testBit 0 && n.pit = 1 && ref != refTag n a i then some .piRef
  else none

end Sys2Proof.Machine
end

