-- ==== Sys2Proof/Machine/Store.lean ====
section
/-! DEFINITION. The shared operations of the volume map, the write buffer and the set engine: locating spans, granting
and returning parcels, pages and bins, drive commands and reconstructions (chapters 10 to 13). -/
namespace Sys2Proof.Machine

/-! ## Look-ups -/

def State.vset (s : State) (i : Nat) : Option VSet := tabFind s.vol.sets i
def onSet (i : Nat) (f : VSet → VSet) (s : State) : State := s.onVol fun v => { v with sets := tabUpd v.sets i f }
def onMember (i m : Nat) (f : Member → Member) (s : State) : State := onSet i (fun v => { v with members := tabMod {} v.members m f }) s
def State.nsOf (s : State) (n : Nat) : Option Ns := tabFind s.vol.ns n
def onNs (n : Nat) (f : Ns → Ns) (s : State) : State := s.onVol fun v => { v with ns := tabUpd v.ns n f }
def State.port (s : State) (k : Nat) : DPort := tabGet {} s.drv.ports k
def onPort (k : Nat) (f : DPort → DPort) (s : State) : State := s.onDrv fun d => { d with ports := tabMod {} d.ports k f }
def State.cmdOf (s : State) (t : Nat) : Option Cmd := tabFind s.nvm.tags t
def onCmd (t : Nat) (f : Cmd → Cmd) (s : State) : State := s.onNvm fun n => { n with tags := tabUpd n.tags t f }
def State.page (s : State) (p : Nat) : Option Page := tabFind s.wbf.pages p
def onPage (p : Nat) (f : Page → Page) (s : State) : State := s.onWbf fun w => { w with pages := tabUpd w.pages p f }
def State.rec_ (s : State) (j : Nat) : Option JRec := tabFind s.wbf.recs j
def onRec (j : Nat) (f : JRec → JRec) (s : State) : State := s.onWbf fun w => { w with recs := tabUpd w.recs j f }

/-- A command that writes, in the sense of R416. -/
def writes (op : IoOp) : Bool := op = .write || op = .writeZeroes || op = .dsm || op = .copy

/-- The leaf entry of a parcel index. -/
def leafOf (n : Ns) (i : Nat) : Option Leaf := tabFind n.map i

/-- Where a span of a namespace lies: set, and set data byte; none where its index is unbacked. -/
def spanByte (n : Ns) (span : Nat) : Option (Nat × Nat) :=
  (leafOf n (span / 262144)).map fun l => (l.set, l.parcel * GiB + span % 262144 * 4096)

/-- The written bit of a span's extent is set (R466). -/
def spanWritten (n : Ns) (span : Nat) : Bool :=
  match leafOf n (span / 262144) with | some l => l.written.testBit (span % 262144 / 256) | none => false

/-- The spans of `nlb` blocks from `slba`. -/
def spansOf (n : Ns) (slba nlb : Nat) : List Nat :=
  if nlb = 0 then [] else
    let a := slba / perSpan n
    (List.range ((slba + nlb - 1) / perSpan n + 1 - a)).map (a + ·)

/-- The block ranges a command accesses: reads first, then writes. -/
def readRanges (c : HostCmd) : List (Nat × Nat) :=
  match c.op with
  | .read | .compare | .verify => [(c.a.slba, c.a.nlb)]
  | .copy => c.a.ranges
  | _ => []

/-- The block ranges a command writes (R416). -/
def writeRanges (c : HostCmd) : List (Nat × Nat) :=
  match c.op with
  | .write | .writeZeroes => [(c.a.slba, c.a.nlb)]
  | .dsm => c.a.ranges
  | .copy => [(c.a.slba, sumNat (c.a.ranges.map (·.2)))]
  | _ => []

/-- Two lists of block ranges overlap. -/
def overlaps (xs ys : List (Nat × Nat)) : Bool :=
  xs.any fun x => ys.any fun y => decide (x.1 < y.1 + y.2) && decide (y.1 < x.1 + x.2)

/-! ## Pages -/

/-- Data pages of group W (R514). -/
def pageCount : Nat := 15728640

/-- Pages that are not FREE. -/
def usedPages (s : State) : Nat := s.wbf.pages.length

/-- Buffer occupancy, percent (R514). -/
def occupancy (s : State) : Nat := usedPages s * 100 / pageCount

/-- The newest page of a span (R521), with its number. DESIGN CHOICE (log 63, unsafe). -/
def newestPage (s : State) (ns span : Nat) : Option (Nat × Page) :=
  (s.wbf.pages.filter fun e => e.2.ns = ns && e.2.span = span).foldl
    (fun (b : Option (Nat × Page)) e => match b with | none => some e | some x => if x.2.ver < e.2.ver then some e else b) none

/-- The valid blocks of a span in the buffer, newest version first for each block (R521). -/
def bufferBlks (s : State) (ns span : Nat) : Tab PBlk :=
  (s.wbf.pages.filter fun e => e.2.ns = ns && e.2.span = span).foldl (fun t e =>
    e.2.blks.foldl (fun t b => match tabFind t b.1 with
      | some x => if x.order ≤ b.2.order then tabIns t b.1 b.2 else t
      | none => tabIns t b.1 b.2) t) []

/-- The page of a span that may be overwritten: DIRTY or RESERVED (R518). -/
def openPage (s : State) (ns span : Nat) : Option Nat :=
  ((s.wbf.pages.find? fun e => e.2.ns = ns && e.2.span = span && e.2.st != .queued)).map (·.1)

/-- The bin of a span (R517): its set and stripe. -/
def binOf (s : State) (n : Ns) (span : Nat) : Nat × Nat :=
  match spanByte n span with
  | none => (0, 0)
  | some (i, x) => match s.vset i with | some v => (i, (place v x).1) | none => (i, 0)

/-- Where the tag zone entry of a block at set data byte `x` lies: tag-zone block, entry in it, stripe, strip, strip block. -/
def tzPlace (v : VSet) (x : Nat) : Nat × Nat × Nat × Nat × Nat :=
  let y := tzByte x
  let (n, j, b) := place v y
  (y / 4096, y % 4096 / 32, dataStripes v + n, j, b)

/-- The tag-zone blocks that hold the entries of some spans of a namespace, as the spans of their pages (R656). -/
def tagSpans (s : State) (n : Ns) (spans : List Nat) : List Nat :=
  if !usesTagZone n then [] else
    (spans.filterMap fun sp => (spanByte n sp).bind fun p => (s.vset p.1).map fun v => p.1 * 2 ^ 40 + (tzPlace v p.2).1).eraseDups

/-- Pages that a set of spans would newly claim (R518), those of their tag zone entries among them (R657). -/
def claimCount (s : State) (ns : Nat) (n : Ns) (spans : List Nat) : Nat :=
  (spans.filter fun sp => (openPage s ns sp).isNone).length + ((tagSpans s n spans).filter fun sp => (openPage s 0 sp).isNone).length

/-- Claim the page of one span for a command (R518). -/
def claimPage (t ns : Nat) (n : Ns) (span : Nat) (s : State) : State :=
  let note := fun (p : Nat) (s : State) => onCmd t (fun c => { c with pages := if c.pages.contains p then c.pages else c.pages ++ [p] }) s
  match openPage s ns span with
  | some p => note p (count1 3593 (onPage p (fun x => { x with users := if x.users.contains t then x.users else x.users ++ [t] }) s))
  | none =>
    match tabFree s.wbf.pages 0 (usedPages s + 1) with
    | none => s
    | some p =>
      let b := binOf s n span
      let v := s.wbf.ver + 1
      let x := match spanByte n span with | some (_, x) => x | none => 0
      note p (s.onWbf fun w => { w with
        ver := v, pages := tabIns w.pages p { ns := ns, span := span, st := .reserved, set := b.1, stripe := b.2, byte := x, users := [t], ver := v } })

/-- Free a page (R516); the mirror's page is freed with it (R524), and who waited for it waits no longer. -/
def freePage (p : Nat) (s : State) : State :=
  let s := s.onWbf fun w => { w with pages := tabDel w.pages p,
                                     waits := w.waits.map fun d => { d with pages := d.pages.erase p } }
  let s := s.onVol fun v => { v with quar := v.quar.map fun q => { q with pages := q.pages.erase p } }
  let s := s.onNvm fun n => { n with tags := tabMap n.tags fun _ c => { c with waitPg := c.waitPg.erase p } }
  shadow .mirrorState 1 p s

/-- Put one block into a page: it replaces an older command's block only (R520). A RESERVED page becomes DIRTY. -/
def putBlk (p i : Nat) (b : PBlk) (s : State) : State :=
  onPage p (fun x =>
    let keep := match tabFind x.blks i with | some y => decide (b.order < y.order) | none => false
    { x with blks := if keep then x.blks else tabIns x.blks i b,
             st := if x.st = .reserved then .dirty else x.st,
             dirtyAt := if x.st = .reserved then s.clk.now else x.dirtyAt }) s

/-- The page of a tag zone block (R657), claimed where the buffer has none that may be written. -/
def tagPage (set_ stripe tzBlk : Nat) (s : State) : Option Nat × State :=
  match openPage s 0 (set_ * 2 ^ 40 + tzBlk) with
  | some p => (some p, s)
  | none => match tabFree s.wbf.pages 0 (usedPages s + 1) with
    | none => (none, s)
    | some p =>
      let v := s.wbf.ver + 1
      (if p < pageCount then some p else none, if p < pageCount then s.onWbf fun w => { w with
        ver := v, pages := tabIns w.pages p { ns := 0, span := set_ * 2 ^ 40 + tzBlk, st := .reserved, set := set_, stripe := stripe, byte := tzBlk * 4096, ver := v } } else s)

/-! ## The allocator (R466–R477) -/

/-- Free parcels of a set. -/
def freeParcels (v : VSet) : Nat := setParcels v - v.parcels.length

/-- A namespace's backed parcels. -/
def backed (n : Ns) : Nat := n.map.length

/-- The quota in force, in parcels (R475). -/
def quotaOf (n : Ns) : Nat := if n.quota = 0 then n.size else n.quota

/-- The set can grant to the namespace (R474). -/
def canGrant (n : Ns) (v : VSet) : Bool := decide ((if n.userResv then 0 else v.reserve) < freeParcels v)

/-- The order in which a namespace's sets are tried for an index (R473). -/
def setOrder (n : Ns) (i : Nat) : List Nat :=
  if n.spread && !n.sets.isEmpty then (n.sets.drop (i % n.sets.length)) ++ n.sets.take (i % n.sets.length) else n.sets

/-- VOL.SET_LOW and VOL.SET_FULL after a set's free parcels fell, and the re-arming after they rose (R477). DEDUCED (log 195, unsafe). -/
def noteFree (i : Nat) (s : State) : State :=
  match s.vset i with
  | none => s
  | some v =>
    let f := 100 * freeParcels v
    let s := if !v.lowTold && f ≤ 100 * v.reserve + setParcels v then raise 386 (fld 4 0 i) (onSet i (fun v => { v with lowTold := true }) s)
      else if v.lowTold && 100 * v.reserve + 2 * setParcels v < f then onSet i (fun v => { v with lowTold := false }) s else s
    doIf (decide (freeParcels v = 0)) (raise 387 (fld 4 0 i)) s

/-- The lowest written-map index in no use (Table 10.5 WMAP). -/
def freeWmap (s : State) : Nat :=
  let used := s.vol.ns.flatMap fun e => e.2.map.map fun l => l.2.wmap
  ((List.range (used.length + 1)).find? fun i => !used.contains i).getD 0

/-- Grant one parcel to an index (R473, R474): the lowest free parcel of the first set that can. -/
def grantOne (ns i : Nat) (thick : Bool) (s : State) : Option State :=
  match s.nsOf ns with
  | none => none
  | some n =>
    if !thick && !n.thick && quotaOf n ≤ backed n then none
    else match (setOrder n i).find? fun k => match s.vset k with | some v => canGrant n v | none => false with
      | none => none
      | some k => match s.vset k with
        | none => none
        | some v => match tabFree v.parcels 0 (v.parcels.length + 1) with
          | none => none
          | some p =>
            let w := freeWmap s
            let s := onSet k (fun v => { v with parcels := tabIns v.parcels p true }) s
            let s := onNs ns (fun n => { n with map := tabIns n.map i { set := k, parcel := p, wmap := w } }) s
            let s := s.onVol fun v => { v with deltas := v.deltas.or (some s.clk.now) }
            some (shadow .mirrorState 5 i (noteFree k (count1 3072 s)))

/-- Grant every index of a list, or none (R467). -/
def grantAll (ns : Nat) (thick : Bool) (s : State) : List Nat → Option State
  | [] => some s
  | i :: is => match grantOne ns i thick s with | none => none | some t => grantAll ns thick t is

/-- The state as the grants of a list leave it before the first that is refused. -/
def grantedTo (ns : Nat) (thick : Bool) (s : State) : List Nat → State
  | [] => s
  | i :: is => match grantOne ns i thick s with | none => s | some t => grantedTo ns thick t is

/-- Why the grants of a list were refused, at the first that cannot be made: quota, reserve or set space, counted and, for quota, raised
(R475, R477, Table 10.14). -/
def noteRefused (ns : Nat) (thick : Bool) (is : List Nat) (s : State) : State :=
  let t := grantedTo ns thick s is
  match t.nsOf ns with
  | none => s
  | some n =>
    if !thick && !n.thick && quotaOf n ≤ backed n then raise 388 (fld 12 0 ns) (count1 3074 s)
    else if n.sets.any fun k => match t.vset k with | some v => decide (0 < freeParcels v) | none => false then count1 3075 s
    else count1 3076 s

/-- The orders of the commands started and not ended. -/
def liveOrders (s : State) : List Nat := s.nvm.tags.map fun e => e.2.order

/-- A stripe of a set holds some block of a parcel (R462, R472). -/
def stripeTouches (v : VSet) (stripe p : Nat) : Bool :=
  let st := dataStrips v * stripBytes v
  decide (stripe * st < (p + 1) * GiB) && decide (p * GiB < (stripe + 1) * st)

/-- A page holds tag zone entries of a parcel (R656). -/
def ofParcelTags (set_ parcel : Nat) (p : Page) : Bool :=
  decide (p.ns = 0) && decide (p.span / 2 ^ 40 = set_) && decide (p.span % 2 ^ 40 * 65536 / GiB = parcel)

/-- Return the parcel of a backed index with quarantine (R472). -/
def returnParcel (ns i : Nat) (s : State) : State :=
  match (s.nsOf ns).bind fun n => leafOf n i with
  | none => s
  | some l =>
    let pages := (s.wbf.pages.filter fun e => (e.2.ns = ns && e.2.span / 262144 = i) || ofParcelTags l.set l.parcel e.2).map (·.1)
    let recs := (s.wbf.recs.filter fun e => e.2.set = l.set &&
      (match s.vset l.set with | some v => stripeTouches v e.2.stripe l.parcel | none => false)).map (·.1)
    let s := onNs ns (fun n => { n with map := tabDel n.map i }) s
    let s := onSet l.set (fun v => { v with parcels := tabIns v.parcels l.parcel false }) s
    let s := s.onVol fun v => { v with quar := v.quar ++ [⟨ns, i, l.set, l.parcel, liveOrders s, pages, recs⟩],
                                       deltas := v.deltas.or (some s.clk.now) }
    shadow .mirrorState 5 i (count1 3073 s)

/-! ## Bins (R526–R528) -/

/-- A stripe has a record open. -/
def recOpen (s : State) (set_ stripe : Nat) : Bool := tabAny s.wbf.recs fun _ r => r.set = set_ && r.stripe = stripe

/-- Queue one bin: its DIRTY pages become QUEUED; a bin already queued keeps the lowest class (R527, R528). -/
def queueOne (set_ stripe cls : Nat) (ahead : Bool) (s : State) : State :=
  let off : Bool := match s.vset set_ with | some v => decide (v.st = SState.offline) | none => true
  if off then s
  else
    let s := s.onWbf fun w => { w with pages := tabMap w.pages fun _ (p : Page) =>
      if p.set = set_ && p.stripe = stripe && p.st = PageSt.dirty then { p with st := .queued } else p }
    if s.wbf.bins.any fun (b : QBin) => b.set = set_ && b.stripe = stripe then
      s.onWbf fun w => { w with bins := w.bins.map fun (b : QBin) =>
        if b.set = set_ && b.stripe = stripe then { b with cls := min b.cls cls, ahead := b.ahead || ahead } else b }
    else if tabAny s.wbf.pages fun _ (p : Page) => p.set = set_ && p.stripe = stripe && p.st = PageSt.queued then
      s.onWbf fun w => { w with order := w.order + 1, bins := w.bins ++ [⟨set_, stripe, cls, ahead, w.order + 1⟩] }
    else s

/-- The bin of the tag zone entries of a page's blocks (R656). -/
def tagBin (s : State) (p : Page) : Option (Nat × Nat) :=
  (s.nsOf p.ns).bind fun n => if !usesTagZone n then none else
    (spanByte n p.span).bind fun x => (s.vset x.1).map fun v => (x.1, (tzPlace v x.2).2.2.1)

/-- Queue a bin, with the bins of the tag zone entries of its blocks (R527, R657). -/
def queueBin (set_ stripe cls : Nat) (ahead : Bool) (s : State) : State :=
  let tags := ((s.wbf.pages.filter fun e => e.2.set = set_ && e.2.stripe = stripe && e.2.st != .reserved).filterMap fun e => tagBin s e.2).eraseDups
  forAll tags (fun b => queueOne b.1 b.2 cls ahead) (queueOne set_ stripe cls ahead s)

/-- Queue the bins of some pages (R527). -/
def queuePages (ps : List Nat) (cls : Nat) (ahead : Bool) (s : State) : State :=
  forAll ps (fun p s => match s.page p with | some x => queueBin x.set x.stripe cls ahead s | none => s) s

/-- Some pages with those of the tag zone entries of their blocks (R657). -/
def withTags (s : State) (ps : List Nat) : List Nat :=
  (ps ++ ps.flatMap fun p => match s.page p with
    | none => []
    | some x => match s.nsOf x.ns with
      | none => []
      | some n => (s.wbf.pages.filter fun e => decide (e.2.ns = 0) && e.2.st != .reserved && (tagSpans s n [x.span]).contains e.2.span).map (·.1)).eraseDups

/-- Every block of a page is valid. -/
def pageWhole (s : State) (p : Page) : Bool :=
  decide (p.blks.length = if p.ns = 0 then 128 else match s.nsOf p.ns with | some n => perSpan n | none => 8)

/-- The block of data strip `j`, block `b`, of a stripe is present without a page (R526): in a free parcel not quarantined, or in
an extent whose written bit is clear. -/
def zeroAt (s : State) (set_ : Nat) (v : VSet) (stripe j b : Nat) : Bool :=
  let x := stripe * dataStrips v * stripBytes v + j * stripBytes v + b * 4096
  let parcel := x / GiB
  let free := decide (stripe < dataStripes v) && decide (parcel < setParcels v) && !tabHas v.parcels parcel
  let clear := decide (stripe < dataStripes v) && s.vol.ns.any fun e => e.2.map.any fun l =>
    decide (l.2.set = set_) && decide (l.2.parcel = parcel) && !l.2.written.testBit (x % GiB / 1048576)
  free || clear

/-- The block of a bin's data strip `j`, block `b`, is present (R526): valid in a DIRTY page, or present as zero. -/
def blockPresent (s : State) (set_ : Nat) (v : VSet) (stripe j b : Nat) : Bool :=
  (tabAny s.wbf.pages fun _ (p : Page) => p.set = set_ && p.stripe = stripe && p.st = .dirty &&
    decide ((place v p.byte).2 = (j, b)) && pageWhole s p) || zeroAt s set_ v stripe j b

/-- A bin is full (R526). -/
def binFull (s : State) (set_ stripe : Nat) : Bool :=
  match s.vset set_ with
  | none => false
  | some v => (List.range (dataStrips v)).all fun j => (List.range (stripBlks v)).all fun b => blockPresent s set_ v stripe j b

/-- Queue each of some bins that has become full, at once, in S5 (R527). -/
def checkFull (bins : List (Nat × Nat)) (s : State) : State :=
  forAll bins (fun b s => if binFull s b.1 b.2 then queueBin b.1 b.2 5 false s else s) s

/-! ## Drive commands (R559–R564, R627) -/

/-- Outstanding drive commands of a slot: placed on its queues and not answered. -/
def outAt (s : State) (slot : Nat) : Nat := tabCount s.drv.cmds fun _ c => c.slot = slot && c.at_.isSome && c.answer.isNone

/-- A part of a command's need, `k` blocks on. -/
def DUse.shift (k : Nat) : DUse → DUse
  | .host t g sp tz => .host t g (sp + k) tz
  | .pass p key => .pass p (key + k)
  | u => u

/-- 4 KiB blocks that one command to a slot's drive may move: 256 KiB, and the drive's MDTS (R627). -/
def maxBlks (s : State) (slot : Nat) : Nat :=
  match (s.port slot).info with | some i => if i.mdtsKib = 0 then 64 else max 1 (min 64 (i.mdtsKib / 4)) | none => 64

/-- Give the set engine a drive need: it waits in its drive QPORT (R236), split into several commands where it is longer than
one may be (R627). -/
def issue (c : DCmd) (s : State) : State :=
  let k := maxBlks s c.slot
  forAll (List.range ((c.n + k - 1) / k)) (fun i s => s.onDrv fun d => { d with
    seq := d.seq + 1, cmds := tabIns d.cmds (d.seq + 1) { c with
      born := s.clk.now, first := c.first + i * k, lba := c.lba + i * k, n := min k (c.n - i * k), data := (c.data.drop (i * k)).take k, use := c.use.shift (i * k) } }) s

/-- A command for blocks of a member's strip, in the internal leaf (R234). -/
def stripCmd (i : Nat) (v : VSet) (stripe m first n cls : Nat) (use : DUse) (write : Bool) (data : List Blk) : DCmd :=
  { slot := ((v.mem m).slot).getD 0, set := i, member := m, stripe := stripe, first := first, write := write, lba := stripLba v stripe first, n := n,
    cls := cls, sub := 2048, fua := false, data := data, use := use }

/-- Read blocks of a stripe, keyed by member × 64 + block, from their members: a member's blocks that lie together in one read. -/
def readKeys (i : Nat) (v : VSet) (stripe cls : Nat) (use : Nat → Nat → DUse) (keys : List Nat) (s : State) : State :=
  forAll ((keys.map (· / 64)).eraseDups) (fun m s =>
    let bs := (keys.filter fun k => k / 64 = m).map (· % 64)
    let lo := bs.foldl min 64
    let one := fun (b n : Nat) (s : State) => issue (stripCmd i v stripe m b n cls (use m b) false []) s
    if bs.length = bs.foldl max 0 + 1 - lo then one lo bs.length s else forAll bs (fun b => one b 1) s) s

/-- Present copies of a mirror, and the one with the fewest outstanding commands, lowest index first (R559). -/
def mirrorPick (s : State) (v : VSet) (stripe : Nat) (but : List Nat) : Option Nat :=
  ((List.range v.width).filter fun m => !missing v stripe m true && !but.contains m).foldl
    (fun (b : Option Nat) m => match b, (v.mem m).slot with
      | _, none => b
      | none, some _ => some m
      | some x, some sl => if outAt s sl < outAt s (((v.mem x).slot).getD 0) then some m else b) none

/-- Entries that cover a block of a member's strip in a stripe (R593). -/
def badAt (v : VSet) (stripe m b : Nat) : Option BadRange :=
  v.bad.find? fun e => e.member = m && decide (e.stripe ≤ stripe) && decide (stripe < e.stripe + e.nstripes)
    && decide (e.first ≤ b) && decide (b < e.first + e.count)

/-- The block stands in the table for the value zero (R941). -/
def badZero (v : VSet) (stripe m b : Nat) : Bool := match badAt v stripe m b with | some e => e.cause != 3 | none => false

/-- The members that can give their part of a block position, in the order in which they are read (R560): data strips, then
P, then Q; for a mirror the present copies, the one with the fewest outstanding commands first. -/
def sources (s : State) (v : VSet) (stripe m b : Nat) (but : List Nat) : List Nat :=
  let ok := fun x => x != m && !but.contains x && (!missing v stripe x true || badZero v stripe x b)
  if isMirror v then (match mirrorPick s v stripe (m :: but) with | some x => [x] | none => [])
  else ((List.range (dataStrips v)).map fun j => dataMember v stripe j).filter ok
    ++ ([pMember v stripe] ++ (if v.type = 3 then [qMember v stripe] else [])).filter ok

/-- Strips that a reconstruction needs at each block position (Table 12.1). -/
def needStrips (v : VSet) : Nat := if isMirror v then 1 else dataStrips v

/-- The members that a reconstruction of a block reads; none where too few remain. -/
def reconMembers (s : State) (v : VSet) (stripe m b : Nat) (but : List Nat) : Option (List Nat) :=
  let l := sources s v stripe m b but
  if l.length < needStrips v then none else some (l.take (needStrips v))

/-- A key of one block of a member's strip. -/
def blkKey (m b : Nat) : Nat := m * 64 + b

/-- Start a reconstruction of blocks of a member's strip (R560); false where the other strips do not allow it, unless `holes` lets every
strip that is left be read, for a set that is online with holes (R592). Blocks that stand in the bad-range table for zero are not read (R941). -/
def startRecon (set_ : Nat) (v : VSet) (stripe m first n cls sub : Nat) (use : DUse) (hedge : Option Nat) (repair holes : Bool)
    (failed : List Nat) (s : State) : Bool × State :=
  let plan := (List.range n).map fun i => reconMembers s v stripe m (first + i) failed
  if plan.any (·.isNone) && !holes then (false, s)
  else
    let keys := (List.range n).flatMap fun i => ((plan.getD i none).getD (sources s v stripe m (first + i) failed)).map fun x => blkKey x (first + i)
    let zero := keys.filter fun k => badZero v stripe (k / 64) (k % 64)
    let want := keys.filter fun k => !badZero v stripe (k / 64) (k % 64)
    let job := s.drv.recSeq + 1
    let s := s.onDrv fun d => { d with
      recSeq := job, recons := tabIns d.recons job ⟨set_, stripe, m, first, n, cls, sub, want, zero.map fun k => (k, Blk.zero), failed.flatMap fun x => (List.range n).map fun i => blkKey x (first + i), use, hedge, repair⟩ }
    let read := fun (x b k : Nat) (s : State) => issue ⟨((v.mem x).slot).getD 0, set_, x, stripe, b, false, stripLba v stripe b, k, cls, sub,
      false, [], .recon job x, none, none, none, [], none, false, false, none, 0, 0, false⟩ s
    let ms := (want.map (· / 64)).eraseDups
    let whole := ms.all fun x => (List.range n).all fun i => want.contains (blkKey x (first + i))
    (true, if whole then forAll ms (fun x => read x first n) s else forAll want (fun k => read (k / 64) (k % 64) 1) s)

/-- A degraded read (R560). -/
def degraded (r : Bool × State) : Bool × State := (r.1, doIf r.1 (count1 4192) r.2)

/-- Read blocks of a member's strip for a use: from the member, from the least busy copy of a mirror, or, where the strip
is missing, by reconstruction (R559, R560). -/
def readStrip (set_ : Nat) (v : VSet) (stripe m first n cls sub : Nat) (use : DUse) (s : State) : Bool × State :=
  let pick := if isMirror v then mirrorPick s v stripe [] else if missing v stripe m true then none else some m
  match pick with
  | some x => (true, issue ⟨((v.mem x).slot).getD 0, set_, x, stripe, first, false, stripLba v stripe first, n, cls, sub, false, [], use,
      none, none, none, [], none, false, false, none, 0, 0, false⟩ s)
  | none => degraded (startRecon set_ v stripe m first n cls sub use none false v.holes [] s)

/-! ## The bad-range table (R593–R595, R941) -/

/-- Insert an entry in ascending stripe order. DEDUCED (log 100, unsafe). -/
def insBad (e : BadRange) : List BadRange → List BadRange
  | [] => [e]
  | x :: xs => if e.stripe < x.stripe then e :: x :: xs else x :: insBad e xs

end Sys2Proof.Machine
end

