-- ==== Sys2Proof/Machine/Police.lean ====
section
/-! DEFINITION. The policer: subscribers, marking (Table 6.2), and the deferral queues' limits (R219–R232). -/
namespace Sys2Proof.Machine

/-- A subscriber's settings; 2048 is the internal leaf. -/
def State.sub (s : State) (i : Nat) : Sub := tabGet {} s.qos.subs i
/-- Change a subscriber. -/
def onSub (i : Nat) (f : Sub → Sub) (s : State) : State := s.onQos fun q => { q with subs := tabMod {} q.subs i f }

/-- Marking colours: 0 green, 1 yellow, 2 red. -/
def colourOf (s : State) (dscp : Nat) : Nat := tabGet 0 s.qos.colour (dscp % 64)

/-- Colour and the buckets after the debit (Table 6.2): the conditions of each mode in order. -/
def mark (x : Sub) (input cost : Nat) : Nat × Sub :=
  let k : Int := Int.ofNat cost
  let floorC := fun (v : Int) => max (-(1024 * (x.pol.cbs : Int))) v
  let floorP := fun (v : Int) => max (-(1024 * (x.pol.pbs : Int))) v
  let debC := fun (x : Sub) => { x with c := floorC (x.c - k) }
  let debP := fun (x : Sub) => { x with p := floorP (x.p - k) }
  if !x.pol.enable then (0, x)
  else
    let inp := if x.pol.aware then input else 0
    if !x.pol.mode1 then
      if inp = 2 || decide (x.p ≤ 0) then (2, x)
      else if inp = 1 || decide (x.c ≤ 0) then (1, debP x)
      else (0, debC (debP x))
    else
      if inp = 0 && decide (0 < x.c) then (0, debC x)
      else if inp != 2 && decide (0 < x.p) then (1, debP x)
      else (2, x)

/-- Count a marked item for the watches on its subscriber (Table 6.10); column 3 counts deferred commands admitted. -/
def countWatch (sub col : Nat) (s : State) : State :=
  forAll s.qos.watch (fun w s => if w.2 = sub then count1 (1536 + 4 * w.1 + col) s else s) s

/-- Mark an item of a subscriber and debit its buckets. -/
def markItem (sub dscp cost : Nat) (s : State) : Nat × State :=
  let (col, x) := mark (s.sub sub) (colourOf s dscp) cost
  (col, if (s.sub sub).pol.enable then onSub sub (fun _ => x) s else s)

/-- Tokens of one tick of 1 µs (R222, R223): a rate in MB/s adds as many bytes; a level never exceeds its size. -/
def addTokens (x : Sub) : Sub :=
  if !x.pol.enable then x
  else { x with c := min (1024 * (x.pol.cbs : Int)) (x.c + x.pol.cir), p := min (1024 * (x.pol.pbs : Int)) (x.p + x.pol.pir) }

/-- Put a subscriber's new policer in force (R232): levels above a new size are clipped; an enabled policer that was not
enabled starts with full buckets (R227). -/
def installPolicer (n : Policer) (x : Sub) : Sub :=
  let cs : Int := 1024 * n.cbs
  let ps : Int := 1024 * n.pbs
  if n.enable && !x.pol.enable then { x with pol := n, c := cs, p := ps, next := none }
  else { x with pol := n, c := min x.c cs, p := min x.p ps, next := none }

/-- Commands in every deferral queue of the module (R231). -/
def deferredAll (s : State) : Nat := sumNat (s.qos.subs.map fun e => e.2.queue.length)

/-- A further command finds a deferral limit reached (R231). -/
def deferFull (s : State) (sub : Nat) : Bool :=
  decide ((s.sub sub).defMax ≤ (s.sub sub).queue.length) || decide (65536 ≤ deferredAll s)

/-- Refuse a command under R231, counted; QOS.DEFER_OVERFLOW once per filling. -/
def noteDeferFull (sub : Nat) (s : State) : State :=
  let s := count1 1904 s
  if (s.sub sub).defTold then s else raise 194 (word sub) (onSub sub (fun x => { x with defTold := true }) s)

/-- Put a command at the tail of its subscriber's deferral queue. -/
def deferCmd (sub : Nat) (d : Deferred) (s : State) : State := onSub sub (fun x => { x with queue := x.queue ++ [d] }) s

/-- Change a deferral queue; a queue below its limit may report its next filling. -/
def setDeferred (sub : Nat) (q : List Deferred) (s : State) : State :=
  onSub sub (fun x => { x with queue := q, defTold := x.defTold && decide (x.defMax ≤ q.length) }) s

/-- The class of a marked command (R219): green CLASS, yellow YCLASS, red S7 under DEMOTE. -/
def classOf (x : Sub) (colour : Nat) : Nat := match colour with | 0 => x.cls | 1 => x.ycls | _ => 7

end Sys2Proof.Machine
end

