-- ==== Sys2Proof/Machine/Complete.lean ====
section
/-! DEFINITION. Contexts, transmission to hosts, held and released completions, and the end of a command (R275, R299–R306,
R355, R413). -/
namespace Sys2Proof.Machine

/-! ## Contexts -/

/-- A connection context; FREE where the table has none. -/
def State.ctx (s : State) (c : Nat) : Ctx := tabGet {} s.xpt.ctxs c
/-- Change a context in use. -/
def onCtx (c : Nat) (f : Ctx → Ctx) (s : State) : State := s.onXpt fun x => { x with ctxs := tabUpd x.ctxs c f }
/-- The controller of a context, by its CNTLID. -/
def ctrlOf (s : State) (c : Nat) : Option Ctrl := (s.ctx c).ctrl.bind fun n => tabFind s.nvm.ctrls n
/-- Change a controller. -/
def onCtrl (n : Nat) (f : Ctrl → Ctrl) (s : State) : State := s.onNvm fun d => { d with ctrls := tabUpd d.ctrls n f }

/-- A difference of two 32-bit numbers is not negative. -/
def reached32 (have_ want : Nat) : Bool := decide ((have_ + 2 ^ 32 - want % 2 ^ 32) % 2 ^ 32 < 2 ^ 31)

/-! ## Transmission -/

/-- The RDMA ACK timeout, ns (R281). -/
def ackTimeout (s : State) : Nat := 4096 * 2 ^ s.xpt.ackto

/-- The send horizon covers the next `k` PSNs of a context with 512 to spare; a horizon record advances it by 1,024s (R737). DEDUCED (log 136, unsafe). -/
def coverHorizon (c k : Nat) (s : State) : State :=
  if !s.pair.shadowing then s
  else
    let next := (s.ctx c).npsn + k
    let h := match tabFind s.pair.horizon c with | some h => h.1 | none => (s.ctx c).npsn
    let left := (h + 2 ^ 24 - next % 2 ^ 24) % 2 ^ 24
    if 512 ≤ left && left < 2 ^ 23 then s
    else
      let short := if left < 2 ^ 23 then 512 - left else 512 + (2 ^ 24 - left)
      let s := shadow .stateWrite 4 (c + 0xFFF1 * 2 ^ 24) s
      s.onPair fun p => { p with horizon := tabIns p.horizon c ((h + (short + 1023) / 1024 * 1024) % 2 ^ 24, p.pseq) }

/-- A range of a context's TCP send stream is laid out, and recorded in a layout record (R738). -/
def layOut (c bytes : Nat) (s : State) : State :=
  if !s.pair.shadowing then s
  else
    let s := shadow .stateWrite 4 (c + 0xFFF2 * 2 ^ 24) s
    s.onPair fun p => { p with layout := tabIns p.layout c (((s.ctx c).sndNxt + bytes) % 2 ^ 32, p.pseq) }

/-- A need of a context that is not resident starts its fill (R370). -/
def needFill (c : Nat) (s : State) : State :=
  let x := s.ctx c
  if x.resident || x.fill ≠ 0 || x.st = .free then s
  else (onCtx c (fun x => { x with fill := 1 }) s).onXpt fun d => { d with fillq := d.fillq ++ [c] }

/-- What an engine needs a context for happens once its record is resident (R370): until then only the fill is asked for. -/
def withCtx (c : Nat) (f : State → State) (s : State) : State :=
  if (s.ctx c).resident || (s.ctx c).st = .free then f s else needFill c s

/-- Bytes of an RDMA context count against its current rate: the time at which they may go, and the state in which what follows them waits
until the rate has carried them (R289). TCP keeps no such rate. DEDUCED (log 233, unsafe). -/
def paceCtx (c bytes : Nat) (s : State) : Nat × State :=
  let x := s.ctx c
  if x.tcp then (s.clk.now, s)
  else
    let start := max s.clk.now x.rate.next
    (start, onCtx c (fun x => { x with rate := { x.rate with next := start + ((bytes : Rat) * 1000 / max 1 x.rate.rc).ceil.toNat } }) s)

/-- Give an engine's frames of a context to its logical port: the class of the command that they carry, else the CLASS of the
connection's subscriber; before a Connect has bound one, S0 and the internal leaf, as for Kumel (R218, R219, R234). RoCEv2 packets are
ECT(0), a CNP ECT(1) (R288), and TCP segments ECT(0) where ECN is in use. DESIGN CHOICE (log 208, unsafe). -/
def emitCtx (c : Nat) (cls : Option Nat) (lens : List Nat) (m : OutMsg) (s : State) : State :=
  let x := s.ctx c
  let own := if x.ctrl.isSome then (s.sub x.sub).cls else 0
  let ecn := if m.kind = .cnp then 1 else if x.tcp then (if x.ecnOk then 2 else 0) else 2
  let (start, s) := paceCtx c (sumNat lens + lens.length * (Config.frameHead m.kind.ctorIdx).toNat) s
  emit ⟨x.lport, cls.getD own, if x.ctrl.isSome then x.sub else 2048, if x.tcp then 37 else 36, ecn, start, lens, m⟩ s

/-- Bytes of TCP sent and not acknowledged. -/
def flight (x : Ctx) : Nat := (x.sndNxt + 2 ^ 32 - x.sndUna) % 2 ^ 32

/-- A difference of PSNs, modulo 2^24. PRESUMED (log 130, unsafe). -/
def psnDiff (a b : Nat) : Nat := (a + 2 ^ 24 - b % 2 ^ 24) % 2 ^ 24

/-- PSNs that `len` bytes take on a path (R319). -/
def psnsOf (mtu len : Nat) : Nat := max 1 ((len + mtu - 1) / max 1 mtu)

/-- Send an RDMA message of `bytes` payload bytes at the next PSN: its packets take PSNs, and it awaits the host's acknowledgement. -/
def rdmaPart (c bytes : Nat) (write : Bool) (cls : Option Nat) (m : OutMsg) (s : State) : State :=
  let x := s.ctx c
  let k := max 1 ((bytes + x.mtu - 1) / max 1 x.mtu)
  let last := (x.npsn + k - 1) % 2 ^ 24
  let s := coverHorizon c k s
  let s := onCtx c (fun x =>
    let w := if write then (x.wsn + 1) % 2 ^ 32 else x.wsn
    { x with npsn := (x.npsn + k) % 2 ^ 24, wsn := w, sent := x.sent ++ [⟨last, if write then some w else none⟩],
             toAt := some (x.toAt.getD (s.clk.now + ackTimeout s)), ref := true }) s
  emitCtx c cls (framesOf x.mtu bytes) { m with c := last } (count 2049 k s)

/-- PSNs from the next one to the next recorded SEND of the former active, or to the end of what a new active fills (R750). -/
def fillRun (x : Ctx) (h : Nat) : Nat := x.sends.foldl (fun n e => min n (psnDiff e.1 x.npsn)) (psnDiff h x.npsn)

/-- A new active that fills the PSNs below H: it sends the recorded SENDs that stand at the next PSN, each at its PSN, and leaves off
at H (R750). -/
def sendRecorded : Nat → Nat → State → State
  | 0, _, s => s
  | fuel + 1, c, s =>
    let x := s.ctx c
    match x.fillH with
    | none => s
    | some h =>
      if psnDiff h x.npsn = 0 || 2 ^ 23 ≤ psnDiff h x.npsn then onCtx c (fun x => { x with fillH := none, sends := [] }) s
      else match x.sends.find? fun e => e.1 = x.npsn with
        | none => s
        | some (_, m) =>
          sendRecorded fuel c (emitCtx c none [16] { m with c := x.npsn } (count1 2049 (onCtx c (fun x =>
            { x with npsn := (x.npsn + 1) % 2 ^ 24, sends := x.sends.filter fun e => e.1 != x.npsn,
                     toAt := some (x.toAt.getD (s.clk.now + ackTimeout s)) }) s)))

/-- Send an RDMA message; below the horizon of a take-over, round the recorded SENDs (R750). -/
def rdmaFill : Nat → Nat → Nat → Bool → Option Nat → OutMsg → State → State
  | 0, c, bytes, write, cls, m, s => rdmaPart c bytes write cls m s
  | fuel + 1, c, bytes, write, cls, m, s =>
    let s := sendRecorded (fuel + 1) c s
    let x := s.ctx c
    match x.fillH with
    | none => rdmaPart c bytes write cls m s
    | some h =>
      let run := fillRun x h
      if psnsOf x.mtu bytes ≤ run then rdmaPart c bytes write cls m s
      else rdmaFill fuel c (bytes - run * x.mtu) write cls m (rdmaPart c (run * x.mtu) false cls { m with kind := .segment } s)

/-- Send an RDMA message. DESIGN CHOICE (log 56, unsafe). -/
def rdmaSend (c bytes : Nat) (write : Bool) (cls : Option Nat) (m : OutMsg) (s : State) : State :=
  rdmaFill ((s.ctx c).sends.length + 1) c bytes write cls m s

/-- Nothing remains to be sent below H: the rest is filled with zero-length RDMA WRITEs round the recorded SENDs; the packet at H − 1 carries
AckReq (R750). -/
def fillRest : Nat → Nat → State → State
  | 0, _, s => s
  | fuel + 1, c, s =>
    let s := sendRecorded (fuel + 1) c s
    let x := s.ctx c
    match x.fillH with
    | none => s
    | some h =>
      let run := fillRun x h
      let last := (x.npsn + run - 1) % 2 ^ 24
      fillRest fuel c (emitCtx c none (List.replicate run 0) { kind := .hostData, a := c, c := last, ws := [0, 0, 0, flag 0 (psnDiff h last = 1)] }
        (count 2049 run (count 5670 run (onCtx c (fun x =>
          { x with npsn := (x.npsn + run) % 2 ^ 24, sent := x.sent ++ [⟨last, none⟩], toAt := some (x.toAt.getD (s.clk.now + ackTimeout s)) }) s))))

/-- A command of the context still has packets to send: data of a read, RDMA READ Requests, or a released completion. -/
def toSend (s : State) (c : Nat) : Bool :=
  !(s.ctx c).readq.isEmpty || !(s.ctx c).ready.isEmpty || s.nvm.tags.any fun e => decide (e.2.cmd.a.ctx = c) && !e.2.gone && e.2.cmd.op = .read && !e.2.ready

/-- A new active has nothing more to send on a context: what is left below its horizon is filled (R750). -/
def fillEnd (c : Nat) (s : State) : State :=
  if (s.ctx c).fillH.isNone || toSend s c then s else fillRest ((s.ctx c).sends.length + 1) c s

/-- TLS records that carry `n` plaintext bytes (R362). -/
def tlsRecords (n : Nat) : Nat := (n + 16383) / 16384

/-- A context's retransmission timeout, within RTOMIN and RTOMAX as they are now (R346, R381). -/
def rtoOf (s : State) (x : Ctx) : Nat := max (s.xpt.rtomin * 100 * us) (min (s.xpt.rtomax * ms) x.rto)

/-- Bytes from one sequence number to a later one. -/
def seqDist (a b : Nat) : Nat := (b + 2 ^ 32 - a) % 2 ^ 32

/-- All that a laid-out PDU carries has come. -/
def TcpPdu.here (p : TcpPdu) : Bool := decide (p.len ≤ p.got)

/-- Bytes that a TCP context may have unacknowledged: its congestion window, the host's window and the 128 KiB send buffer (Table 8.1). -/
def sendWindow (x : Ctx) : Nat := min x.cwnd (min x.wnd 131072)

/-- Bytes that may be sent now of `left`: full-sized segments as the window has room, and the last one whole; a window smaller than a
segment is filled where nothing is unacknowledged (RFC 9293). -/
def sendNow (x : Ctx) (left : Nat) : Nat :=
  let room := sendWindow x - flight x
  if left ≤ room then left else if flight x = 0 && decide (room < x.mtu) then room else room / max 1 x.mtu * x.mtu

/-- Send the next `n` bytes of a laid-out PDU in segments; its message leaves with its last byte. Segments acknowledge what has been
received (R345). -/
def sendPart (c n : Nat) (last : Bool) (p : TcpPdu) (s : State) : State :=
  let x := s.ctx c
  let lens := framesOf x.mtu n
  let s := onCtx c (fun x =>
    { x with sndNxt := (x.sndNxt + n) % 2 ^ 32, toAt := some (x.toAt.getD (s.clk.now + rtoOf s x)),
             timed := x.timed.or (some (x.sndNxt, s.clk.now)), ackAt := none, segs := 0, ref := true }) s
  emitCtx c p.cls lens (if last then p.msg else { kind := .segment, a := c, b := x.sndNxt }) (count 2081 lens.length s)

/-- Send what is laid out and here, in stream order, as the windows allow. -/
def pumpPdus (c : Nat) : List TcpPdu → State → State
  | [], s => s
  | p :: ps, s =>
    let x := s.ctx c
    let done := seqDist p.first x.sndNxt
    let left := p.size - done
    if 2 ^ 31 ≤ done || left = 0 then pumpPdus c ps s
    else
      let n := sendNow x left
      if !p.here || n = 0 then s
      else if n = left then pumpPdus c ps (sendPart c n true p s) else sendPart c n false p s

/-- The send stream goes on: not before what a timeout sends again has been sent, nor before the record is resident (R370). -/
def pumpTcp (c : Nat) (s : State) : State :=
  let x := s.ctx c
  if x.rex.isSome || !x.pdus.any TcpPdu.here then s
  else if !x.resident then needFill c s
  else pumpPdus c x.pdus s

/-- Lay out a PDU of `bytes` bytes at the end of the send stream (R738): in TLS records where TLS is in use (R362). -/
def layPdu (c bytes off len : Nat) (tag : Option (Nat × Nat)) (cls : Option Nat) (m : OutMsg) (s : State) : State :=
  let x := s.ctx c
  let k := if x.tlsOn then tlsRecords bytes else 0
  let size := bytes + 22 * k
  let s := layOut c size (count 5173 k (count 2092 k s))
  onCtx c (fun x =>
    { x with laid := (x.laid + size) % 2 ^ 32, tlsTx := x.tlsTx + k,
             pdus := x.pdus ++ [⟨x.laid, size, tag, off, len, 0, cls, { m with c := (x.laid + size) % 2 ^ 32 }⟩] }) s

/-- Lay out a KeyUpdate (update_not_requested); the records after it have the next sending key (R364). -/
def layKeyUpdate (c : Nat) (s : State) : State :=
  onCtx c (fun x => { x with tlsTx := 0, txKey := Config.tlsNext x.txKey })
    (layPdu c 5 0 0 none none { kind := .tlsKeyUpdate, a := c } (count1 2093 s))

/-- Lay out a PDU, with a KeyUpdate before the 2^24th record under one key (R364). -/
def layNext (c bytes off len : Nat) (tag : Option (Nat × Nat)) (cls : Option Nat) (m : OutMsg) (s : State) : State :=
  let x := s.ctx c
  let upd := x.tlsOn && decide (2 ^ 24 ≤ x.tlsTx + tlsRecords bytes + 1)
  layPdu c bytes off len tag cls m (doIf upd (layKeyUpdate c) s)

/-- Send a PDU of `bytes` bytes that is not a read's C2HData: it is laid out as it is issued. -/
def tcpSend (c bytes : Nat) (cls : Option Nat) (m : OutMsg) (s : State) : State :=
  pumpTcp c (layNext c bytes 0 0 none cls m s)

/-- Send a connection's last message: it takes the place of all that is not sent yet (R275), whatever the windows. DESIGN CHOICE (log 213, unsafe). -/
def tcpLast (c bytes : Nat) (m : OutMsg) (s : State) : State :=
  let s := onCtx c (fun x => { x with pdus := [], laid := x.sndNxt }) s
  let s := layPdu c bytes 0 0 none none m s
  (s.ctx c).pdus.foldl (fun s p => sendPart c p.size true p s) s

/-- Bytes of a PDU with `hdr` header bytes and `n` data bytes, with the digests in use and the data padded to the host's alignment (R351). -/
def pduBytes (x : Ctx) (hdr n : Nat) : Nat :=
  let h := hdr + if x.hdgst then 4 else 0
  let unit := 4 * (x.hpda + 1)
  if n = 0 then h else (h + unit - 1) / unit * unit + n + if x.ddgst then 4 else 0

/-- The chunks of `len` bytes from `off` in pieces of at most `k`. -/
def chunks : Nat → Nat → Nat → Nat → List (Nat × Nat)
  | 0, _, _, _ => []
  | fuel + 1, k, off, len => if len = 0 then [] else (off, min k len) :: chunks fuel k (off + min k len) (len - min k len)

/-- The keyed descriptors of a data pointer, as lengths and keys (R294). -/
def descsOf : Sgl → List (Nat × Nat × Bool)
  | .keyed ds => ds
  | _ => []

/-- The mark of a command's held completion becomes the end of the data that it has been given so far (R304, R357). -/
def setMark (c : Nat) (tag : Nat × Nat) (s : State) : State :=
  onCtx c (fun x => { x with held := x.held.map fun h => if h.tag = some tag then { h with mark := if x.tcp then x.laid else x.wsn } else h }) s

/-- Bytes `off` to `off + n` of a command's data. -/
def dataPiece (data off n : Nat) : Nat := data >>> (8 * off) % 2 ^ (8 * n)

/-- Lay out the C2HData PDUs of a read as it starts (R738): at most 128 KiB of data each, in ascending offset order, LAST_PDU on the last
(bit 2) and the SUCCESS flag (bit 3) on none (R355). Their bytes come with the data. -/
def layRead (c cid len : Nat) (tag : Nat × Nat) (s : State) : State :=
  let cls := (s.cmdOf tag.1).map (·.cls)
  let one := fun (s : State) (k : Nat × Nat) =>
    layNext c (pduBytes (s.ctx c) 24 k.2) k.1 k.2 (some tag) cls
      { kind := .hostData, a := c, b := cid, ws := [word k.1, word k.2, flag 2 (k.1 + k.2 = len)] } s
  setMark c tag ((chunks 513 131072 0 len).foldl one s)

/-- A range of a command's data comes for the PDUs laid out for it. -/
def fillRead (c off len data : Nat) (tag : Nat × Nat) (s : State) : State :=
  let fill := fun (p : TcpPdu) =>
    let a := max off p.off
    let n := min (off + len) (p.off + p.len) - a
    if p.tag = some tag && decide (0 < n) then
      { p with got := p.got + n, msg := { p.msg with ds := [p.msg.ds.headD 0 ||| dataPiece data (a - off) n <<< (8 * (a - p.off))] } } else p
  pumpTcp c (onCtx c (fun x => { x with pdus := x.pdus.map fill }) s)

/-- Give read data to the host: RDMA WRITE messages, one for each keyed descriptor (R297), or the C2HData PDUs laid out for it (R355);
the mark of the held completion becomes the last of them (R304, R357). `data` spells the bytes. -/
def sendData (c cid len data : Nat) (sgl : Sgl) (tag : Nat × Nat) (s : State) : State :=
  let cls := (s.cmdOf tag.1).map (·.cls)
  if (s.ctx c).tcp then fillRead c 0 len data tag s
  else
    setMark c tag ((descsOf sgl).foldl (fun (a : Nat × State) d => (a.1 + d.1, rdmaSend c d.1 true cls
      { kind := .hostData, a := c, b := cid, ws := [word a.1, word d.1, word d.2.1], ds := [dataPiece data a.1 d.1] } a.2)) (0, s)).2

/-- Give the host `bytes` bytes of data that a command of no tag, or a Reservation Report, returns: RDMA WRITE packets (R292), or C2HData
PDUs (R355), of which the last carries the message. -/
def giveData (c bytes : Nat) (cls : Option Nat) (m : OutMsg) (s : State) : State :=
  if (s.ctx c).tcp then
    (chunks 513 131072 0 bytes).foldl (fun s k => tcpSend c (pduBytes (s.ctx c) 24 k.2) cls (if k.1 + k.2 = bytes then m else { kind := .segment, a := c }) s) s
  else rdmaSend c bytes true cls m s

/-- All the data given for a command has been handed to the Sorting Office (R302, R357): none is laid out and unsent, waits for a
postmark, or waits for its rate. -/
def dataHanded (s : State) (c : Nat) (tag : Nat × Nat) (cid : Nat) : Bool :=
  let x := s.ctx c
  let mine := fun (m : OutMsg) => m.kind = .hostData && decide (m.a = c) && decide (m.b = cid)
  !(x.tcp && x.pdus.any fun p => p.tag = some tag && !reached32 x.sndNxt (p.first + p.size))
    && !(s.pair.held.any fun h => mine h.msg.msg)
    && !(s.net.queues.any fun q => q.2.any fun f => decide (s.clk.now < f.at_) && f.msg.any mine)

/-! ## Released completions -/

/-- Do not retry, for each status as Table 9.12 gives it. -/
def NvStatus.dnrBit : NvStatus → Bool
  | .success | .sanitizeInProgress | .anaInaccessible | .nsNotReady | .capacityExceeded | .transientTransport
  | .abortRequested | .interrupted | .connectBusy => false
  | _ => true

/-- Release a completion (R300): it joins the context's released completions, covered by a shadow record (R306). Nothing is
released on a connection that is not READY (R275). -/
def release (c : Nat) (h : Held) (s : State) : State :=
  if (s.ctx c).st != .ready then s
  else
    let s := shadow .stateWrite 4 (c + 0xFFF0 * 2 ^ 24) s
    let s := doIf (h.status != .success) (count1 2583) s
    let s := doIf (h.status = .reservationConflict) (count1 2582) s
    let s := match (s.ctx c).ctrl with
      | some n => if h.status = .success then s else onCtrl n (fun k => { k with errLog := (((s.ctx c).qid, h.cid, h.status.ctorIdx) :: k.errLog).take 64 }) s
      | none => s
    let s := doIf (!(s.ctx c).tcp && h.tag.isSome) (count1 (if h.cwait then 2071 else 2070)) s
    onCtx c (fun x => { x with ready := x.ready ++ [{ h with seq := s.cover }] }) s

/-- The arrival position and tag of a forwarded command, and 8 × its generation there + its class: its `ctx` is
65,536 × (Host Identifier + 1), its `cid` spells the three (Table 17.2). -/
def fwdOf (ctx cid : Nat) : Option (Nat × Nat × Nat) :=
  if ctx < 65536 then none else some (cid / 2 ^ 27, cid / 2 ^ 9 % 2 ^ 18, cid % 512)

/-- Send a forwarded command's COMPLETION to its arrival module (R787). -/
def sendCompletion (q ft fg : Nat) (st : NvStatus) (dnr : Bool) (s : State) : State :=
  sendTo q { kind := .fwdComplete, a := q, b := ft, c := fg, ds := [st.ctorIdx, if dnr then 1 else 0] } s

/-- Send forwarded data in messages of at most 1,024 words (Table 17.2). -/
def sendPieces (kind : OutKind) (q ft fg off len data : Nat) (s : State) : State :=
  count 6184 len ((List.range ((len + 4095) / 4096)).foldl (fun s i =>
    let n := min 4096 (len - 4096 * i)
    sendTo q { kind := kind, a := q, b := ft, c := fg, ws := [word (off + 4096 * i), word n], ds := [data >>> (32768 * i) % 2 ^ (8 * n)] } s) s)

/-- Complete a command that holds no tag (admin, fabrics, and commands refused before their start). -/
def completeOn (c cid : Nat) (st : NvStatus) (dw0 : Nat) (s : State) : State :=
  match fwdOf c cid with
  | some (q, ft, fg) => sendCompletion q ft fg st st.dnrBit s
  | none => release c ⟨cid, none, st, st.dnrBit, dw0, none, false, 0, true, none, none⟩ s

/-- R300, R306: the next released completion leaves once its shadow record is postmarked. -/
def execCompletionRelease (ctx : Nat) (s : State) : Out :=
  .next (match (s.ctx ctx).ready with
    | [] => s
    | h :: hs =>
      if (s.ctx ctx).st != .ready || !s.marked h.seq then s
      else if !(s.ctx ctx).resident then needFill ctx s
      else
        let s := onCtx ctx (fun x => { x with ready := hs }) s
        let m : OutMsg := { kind := .capsuleResp, a := ctx, b := h.cid, ws := [word h.dw0, word (h.inv.getD 0), flag 0 h.inv.isSome ||| flag 1 h.dnr, word (h.dw0 / 2 ^ 32)],
                            ds := [h.status.ctorIdx] }
        if (s.ctx ctx).tcp then tcpSend ctx (pduBytes (s.ctx ctx) 24 0) h.cls m s
        else fillEnd ctx (rdmaSend ctx 16 false h.cls m (doIf h.inv.isSome (count1 2072) s)))

/-- The release condition of count-wait (R301, R303, R357). -/
def countReached (x : Ctx) (h : Held) : Bool := if x.tcp then reached32 x.sndUna h.mark else reached32 x.acked h.mark

/-- Release the completions whose data done has come and whose count has been reached (R301). -/
def releaseWaiting (c : Nat) (s : State) : State :=
  let x := s.ctx c
  let go := x.held.filter fun h => h.done && countReached x h
  forAll go (release c) (onCtx c (fun x => { x with held := x.held.filter fun h => !(h.done && countReached x h) }) s)

/-- Complete a command of no tag whose data has just been given: its mark is the end of that data (R301, R304). -/
def completeData (c cid : Nat) (s : State) : State :=
  let x := s.ctx c
  let h : Held := ⟨cid, none, .success, false, 0, none, (s.sub x.sub).countWait, if x.tcp then x.laid else x.wsn, true, none, none⟩
  if h.cwait && !countReached x h then onCtx c (fun x => { x with held := x.held ++ [h] }) s else release c h s

/-! ## The end of a command -/

/-- A context in CLOSING goes to TIMEWAIT once its commands have ended (R274); a host's FIN is answered first (R349). -/
def closeStep (c : Nat) (s : State) : State :=
  let x := s.ctx c
  if x.st = .closing && x.inflight = 0 then
    let s := doIf (x.tcp && x.finAns) (fun s => emitCtx c none [0] { kind := .tcpFin, a := c } (count1 2081 (onCtx c (fun x => { x with sndNxt := (x.sndNxt + 1) % 2 ^ 32, laid := (x.sndNxt + 1) % 2 ^ 32 }) s))) s
    onCtx c (fun x => { x with st := .timewait, finAns := false, freeAt := some (s.clk.now + 50 * ms), toAt := none, ackAt := none, resendAt := none }) s
  else s

/-- Free a command's tag at its internal end (R413): what waited for the command waits no longer. A command whose context has been freed
since is none of the context's next connection. -/
def freeTag (t : Nat) (c : Cmd) (s : State) : State :=
  let ctx := c.cmd.a.ctx
  let s := s.onNvm fun n => { n with tags := tabMap (tabDel n.tags t) fun _ x => { x with preempt := x.preempt.erase c.order } }
  let s := s.onStk fun k => { k with fwd := tabDel k.fwd t }
  let s := s.onVol fun v => { v with quar := v.quar.map fun q => { q with cmds := q.cmds.erase c.order } }
  let s := s.onKey fun k => { k with slots := tabMap k.slots fun _ x => { x with users := x.users.erase c.order } }
  let s := s.onWbf fun w => { w with space := w.space.erase t, pages := tabMap w.pages fun _ p => { p with users := p.users.erase t } }
  let s := onSub c.sub (fun x => { x with tagTold := false }) s
  if c.orphan then s else closeStep ctx (onCtx ctx (fun x => { x with inflight := x.inflight - 1, readq := x.readq.filter fun r => r.1 != t }) s)

/-- The command is run for another shelf (R786): its arrival position and tag there, and 8 × its generation there + its class. -/
def homedOf (s : State) (t gen : Nat) : Option (Nat × Nat × Nat) :=
  (s.stk.homed.find? fun h => h.2.2.2.1 = t && h.2.2.2.2 = gen).map fun h => (h.1, h.2.1, h.2.2.1)

/-- A read ends without its data: the PDUs laid out for it leave all the same, with bytes that the model does not name, so that the stream
goes on. DESIGN CHOICE (log 214, safe). -/
def giveUp (c : Nat) (tag : Nat × Nat) (s : State) : State :=
  if (s.ctx c).pdus.any fun p => p.tag = some tag && !p.here then
    pumpTcp c (onCtx c (fun x => { x with pdus := x.pdus.map fun p => if p.tag = some tag then { p with got := p.len } else p }) s)
  else s

/-- End a command: its completion takes its status and is released, or waits for its count (R301); its tag is freed. A
forwarded command's completion goes back to its arrival module (R789). -/
def endCmd (t : Nat) (s : State) : State :=
  match s.cmdOf t with
  | none => s
  | some c =>
    match homedOf s t c.gen with
    | some (q, ft, fg) =>
      let s := s.onStk fun k => { k with homed := k.homed.filter fun h => !(h.2.2.2.1 = t && h.2.2.2.2 = c.gen) }
      freeTag t c (sendCompletion q ft fg c.status c.dnr s)
    | none =>
      let ctx := c.cmd.a.ctx
      let x := s.ctx ctx
      match x.held.find? fun h => h.tag = some (t, c.gen) with
      | none => freeTag t c s
      | some h =>
        let h := { h with status := c.status, dnr := c.dnr, done := true }
        let s := giveUp ctx (t, c.gen) (onCtx ctx (fun x => { x with held := x.held.filter fun h => h.tag != some (t, c.gen) }) s)
        let s := if h.cwait && !countReached x h then onCtx ctx (fun x => { x with held := x.held ++ [h] }) s else release ctx h s
        freeTag t c s

/-- End a command with a status. -/
def failCmd (t : Nat) (st : NvStatus) (s : State) : State := endCmd t (onCmd t (fun c => { c with status := st, dnr := st.dnrBit }) s)

/-- Give a pending notice to a controller: an outstanding Asynchronous Event Request is completed, or the notice waits. -/
def notify (n kind info : Nat) (s : State) : State :=
  match tabFind s.nvm.ctrls n with
  | none => s
  | some c => match c.aers with
    | [] => onCtrl n (fun c => { c with notices := c.notices ++ [(kind, info)] }) s
    | a :: as => completeOn a.1 a.2 .success (kind + info * 256) (onCtrl n (fun c => { c with aers := as }) s)

/-- The module's own listeners: one for each listener on each address of a logical port (R436). -/
def ownListeners (s : State) : List DiscEnt :=
  (List.range 32).flatMap fun l =>
    (tabGet {} s.net.lports l : LPort).addrs.flatMap fun a =>
      let e := fun (rdma : Bool) (port : Nat) (tls : Bool) => (⟨rdma, a.2.ipv6, a.2.ip, port, s.pos * 32 + l, tls⟩ : DiscEnt)
      (if s.xpt.rports.testBit l && (if a.2.ipv6 then s.xpt.rv6 else s.xpt.rv4) then [e true s.xpt.svc false] else [])
        ++ (if s.xpt.tports.testBit l && (if a.2.ipv6 then s.xpt.tv6 else s.xpt.tv4) then
            (if s.xpt.plain then [e false s.xpt.port false] else []) ++ (if s.xpt.tls then [e false s.xpt.tlsPort true] else []) else [])

/-- The discovery log is rebuilt: its generation advances, and the discovery controllers hear of it (R438). -/
def discRebuilt (s : State) : State :=
  let s := s.onNvm fun n => { n with chgDisc := n.chgDisc + 1 }
  forAll ((s.nvm.ctrls.filter fun c => c.2.disc && c.2.aec.testBit 31).map (·.1)) (fun k s => notify k 2 0x70F0 s) s

/-- A listener as numbers. -/
def DiscEnt.nums (e : DiscEnt) : List Nat := [if e.rdma then 1 else 3, if e.v6 then 2 else 1, e.ip, e.port, e.id, if e.tls then 1 else 0]

/-- Tell a shelf the own listeners, and as master the subsystem NQN where one is set (R387, R436). -/
def sendDisc (q : Nat) (s : State) : State :=
  sendTo q { kind := .dirUpdate, a := q, c := 1, ws := if s.master then s.nvm.nqn.getD [] else [], ds := s.pos :: (ownListeners s).flatMap DiscEnt.nums } s

/-- A listener, a port address, a shelf or the master has changed (R438). -/
def discChanged (s : State) : State := forAll ((otherShelves s).filter (reachable s)) sendDisc (discRebuilt s)

/-- A group's state changed on this shelf's controllers: log 0Ch's change count and the ANA change notice (R434). -/
def anaChanged (g : Nat) (s : State) : State :=
  let s := s.onNvm fun n => { n with ctrls := tabMap n.ctrls fun _ c => if c.disc then c else { c with anaChg := c.anaChg + 1 } }
  let s := forAll ((s.nvm.ctrls.filter fun c => !c.2.disc && c.2.aec.testBit 11).map (·.1)) (fun k s => notify k 2 0x0C03 s) s
  raise 328 (word g) s

end Sys2Proof.Machine
end

