-- ==== Sys2Proof/Machine/Operands.lean ====
section
/-! DEFINITION. How a Letterbox command is taken: Table 20.4, the order of checks (R875), the words of a packet, and the
frame in which every Letterbox command's own checks and effect stand. -/
namespace Sys2Proof.Machine

/-- Mode classes (Table 20.2), or the modes by name. -/
inductive ModeClass where
  | any | q | c | cf | u
  | only (ms : List Mode)
  deriving DecidableEq, Repr

/-- Reply classes (Table 20.3). -/
inductive ReplyClass where
  | final | epoch | event
  deriving DecidableEq, Repr

/-- A row of Table 20.4: opcode, Lock Y, By K, Modes, Reply, and the mark R. -/
structure CatRow where
  op    : Nat
  lock  : Bool
  byK   : Bool
  modes : ModeClass
  reply : ReplyClass
  recov : Bool
  deriving DecidableEq, Repr

/-- Table 20.4, group MOD: NOP, GET_IDENTITY, GET_STATUS, RESTART, ENTER_MAINTENANCE, SET_BOOT_OPTIONS, ENTER_DROWSE, WAKE, ACQUIRE_LOCK, RELEASE_LOCK, GET_DOOR, READ_EVENTS, SET_EVENT_MASK, SET_DOOR_KEY, SET_MGMT_ADDR. -/
def catMod : List CatRow := [
  ⟨0x0000, false, false, .any, .final, false⟩,
  ⟨0x0001, false, false, .any, .final, false⟩,
  ⟨0x0002, false, false, .any, .final, false⟩,
  ⟨0x0003, true, false, .q, .event, false⟩,
  ⟨0x0004, true, true, .only [.standby, .fenced, .active, .drowse], .event, false⟩,
  ⟨0x0005, true, true, .q, .final, false⟩,
  ⟨0x0006, true, true, .only [.active], .event, false⟩,
  ⟨0x0007, false, false, .only [.active, .drowse], .final, false⟩,
  ⟨0x0010, false, false, .q, .final, false⟩,
  ⟨0x0011, false, false, .q, .final, false⟩,
  ⟨0x0012, false, false, .q, .final, false⟩,
  ⟨0x0013, false, false, .q, .final, false⟩,
  ⟨0x0014, false, false, .q, .final, false⟩,
  ⟨0x0015, true, true, .q, .final, false⟩,
  ⟨0x0016, true, true, .q, .final, false⟩]

/-- Table 20.4, group PWR: SET_SLOT_LIMITS, GET_SLOT_STATUS, SET_SLOT_POWER, CLEAR_LOCKOUT, SET_BUDGET, GET_BUDGET, SET_INDICATOR, GET_FEEDS. -/
def catPwr : List CatRow := [
  ⟨0x0101, true, true, .c, .final, false⟩,
  ⟨0x0102, false, false, .q, .final, false⟩,
  ⟨0x0103, true, true, .c, .final, false⟩,
  ⟨0x0104, true, true, .c, .final, false⟩,
  ⟨0x0105, true, true, .c, .final, false⟩,
  ⟨0x0106, false, false, .q, .final, false⟩,
  ⟨0x0107, false, false, .q, .final, false⟩,
  ⟨0x0108, false, false, .q, .final, false⟩]

/-- Table 20.4, group NET: SET_PORT_MODE, GET_PORT_STATUS, SET_PORT_ADDR, SET_CLASS_MAP, SET_QUEUE, GET_QUEUE, FLUSH_QUEUE, SET_BUFFER, SET_FLOW, DELETE_FLOW, GET_EPOCH, SET_MIRROR, SET_DEAD_LETTER, READ_DEAD_LETTER, SET_PTP, GET_PTP. -/
def catNet : List CatRow := [
  ⟨0x0201, true, true, .c, .final, false⟩,
  ⟨0x0202, false, false, .q, .final, false⟩,
  ⟨0x0203, true, true, .c, .final, false⟩,
  ⟨0x0204, true, true, .c, .final, false⟩,
  ⟨0x0205, true, true, .c, .final, false⟩,
  ⟨0x0206, false, false, .q, .final, false⟩,
  ⟨0x0207, true, false, .c, .final, false⟩,
  ⟨0x0208, true, true, .c, .final, false⟩,
  ⟨0x0209, true, true, .c, .epoch, false⟩,
  ⟨0x020A, true, true, .c, .epoch, false⟩,
  ⟨0x020B, false, false, .q, .final, false⟩,
  ⟨0x020C, true, true, .c, .final, false⟩,
  ⟨0x020D, true, true, .c, .final, false⟩,
  ⟨0x020E, false, false, .q, .final, false⟩,
  ⟨0x020F, true, true, .c, .final, false⟩,
  ⟨0x0210, false, false, .q, .final, false⟩]

/-- Table 20.4, group QOS: SET_POLICER, SET_SUBSCRIBER, GET_POLICER, SET_COLOUR_MAP, SET_NODE, SET_PORT_SHAPER, SET_GATE_LIST, GET_GATE_STATUS, GET_NODE, SET_WATCH. -/
def catQos : List CatRow := [
  ⟨0x0301, true, true, .c, .final, false⟩,
  ⟨0x0302, true, true, .c, .final, false⟩,
  ⟨0x0303, false, false, .q, .final, false⟩,
  ⟨0x0304, true, true, .c, .final, false⟩,
  ⟨0x0305, true, true, .c, .final, false⟩,
  ⟨0x0306, true, true, .c, .final, false⟩,
  ⟨0x0307, true, true, .c, .final, false⟩,
  ⟨0x0308, false, false, .q, .final, false⟩,
  ⟨0x0309, false, false, .q, .final, false⟩,
  ⟨0x030A, true, true, .c, .final, false⟩]

/-- Table 20.4, group XPT: SET_RDMA_PORTS, SET_RDMA_PARAMS, SET_RELEASE, GET_CONNECTION, CLOSE_CONNECTION, CREATE_REGION, DELETE_REGION, GRANT_REGION, REKEY_REGION, GET_REGION, SET_TCP_PORTS, SET_TCP_PARAMS, SET_TLS, SET_POOL, GET_POOL. -/
def catXpt : List CatRow := [
  ⟨0x0401, true, true, .c, .final, false⟩,
  ⟨0x0402, true, true, .c, .final, false⟩,
  ⟨0x0403, true, true, .c, .final, false⟩,
  ⟨0x0404, false, false, .q, .final, false⟩,
  ⟨0x0405, true, false, .c, .final, false⟩,
  ⟨0x0406, true, true, .c, .final, false⟩,
  ⟨0x0407, true, true, .c, .final, false⟩,
  ⟨0x0408, true, true, .c, .final, false⟩,
  ⟨0x0409, true, true, .c, .final, false⟩,
  ⟨0x040A, false, false, .q, .final, false⟩,
  ⟨0x040B, true, true, .c, .final, false⟩,
  ⟨0x040C, true, true, .c, .final, false⟩,
  ⟨0x040D, true, true, .c, .final, false⟩,
  ⟨0x040E, true, true, .c, .final, false⟩,
  ⟨0x040F, false, false, .q, .final, false⟩]

/-- Table 20.4, group NVM: SET_SUBSYSTEM, GET_SUBSYSTEM, SET_HOST, DELETE_HOST, GET_HOST, SET_HOST_SECRET, GET_CONTROLLER, END_CONTROLLER, SET_TAG_LIMIT, GET_TAGS. -/
def catNvm : List CatRow := [
  ⟨0x0501, true, true, .c, .final, false⟩,
  ⟨0x0502, false, true, .q, .final, false⟩,
  ⟨0x0503, true, true, .c, .final, false⟩,
  ⟨0x0504, true, true, .c, .final, false⟩,
  ⟨0x0505, false, true, .q, .final, false⟩,
  ⟨0x0506, true, true, .c, .final, false⟩,
  ⟨0x0507, false, true, .q, .final, false⟩,
  ⟨0x0508, true, true, .c, .final, false⟩,
  ⟨0x0509, true, true, .c, .final, false⟩,
  ⟨0x050A, false, false, .q, .final, false⟩]

/-- Table 20.4, group VOL: CREATE_SET, DELETE_SET, GET_SET, SET_RESERVE, CREATE_NAMESPACE, DELETE_NAMESPACE, RESIZE_NAMESPACE, SET_NS_POLICY, ATTACH_NAMESPACE, GET_NAMESPACE, MIGRATE_PARCELS, GET_PARCEL, SET_NS_DEFAULTS, GET_EPOCH. -/
def catVol : List CatRow := [
  ⟨0x0601, true, true, .c, .final, false⟩,
  ⟨0x0602, true, true, .c, .final, false⟩,
  ⟨0x0603, false, false, .q, .final, false⟩,
  ⟨0x0604, true, true, .c, .final, false⟩,
  ⟨0x0605, true, true, .c, .epoch, false⟩,
  ⟨0x0606, true, true, .c, .epoch, false⟩,
  ⟨0x0607, true, true, .c, .epoch, false⟩,
  ⟨0x0608, true, true, .c, .final, false⟩,
  ⟨0x0609, true, true, .c, .epoch, false⟩,
  ⟨0x060A, false, false, .q, .final, false⟩,
  ⟨0x060B, true, true, .c, .event, false⟩,
  ⟨0x060C, false, false, .q, .final, false⟩,
  ⟨0x060D, true, true, .c, .final, false⟩,
  ⟨0x060E, false, false, .q, .final, false⟩]

/-- Table 20.4, group WBF: SET_POLICY, GET_STATUS, DESTAGE, GET_JOURNAL. -/
def catWbf : List CatRow := [
  ⟨0x0701, true, true, .c, .final, false⟩,
  ⟨0x0702, false, false, .q, .final, false⟩,
  ⟨0x0703, true, true, .c, .event, false⟩,
  ⟨0x0704, false, false, .q, .final, false⟩]

/-- Table 20.4, group RED: SET_POLICY, GET_HEALTH, GET_MEMBER, SET_SPARE, EJECT_MEMBER, READMIT, START_REBUILD, FORCE_ONLINE, READ_BAD_RANGES, CLEAR_BAD_RANGES. -/
def catRed : List CatRow := [
  ⟨0x0801, true, true, .c, .final, false⟩,
  ⟨0x0802, false, false, .q, .final, false⟩,
  ⟨0x0803, false, false, .q, .final, false⟩,
  ⟨0x0804, true, true, .c, .final, false⟩,
  ⟨0x0805, true, true, .c, .final, false⟩,
  ⟨0x0806, true, true, .c, .final, false⟩,
  ⟨0x0807, true, true, .c, .event, false⟩,
  ⟨0x0808, true, true, .c, .final, false⟩,
  ⟨0x0809, false, true, .q, .final, false⟩,
  ⟨0x080A, true, true, .c, .final, false⟩]

/-- Table 20.4, group DRV: SET_PORT, GET_PORT, GET_DRIVE, RESET_DRIVE, FORMAT_DRIVE, READ_LOG. -/
def catDrv : List CatRow := [
  ⟨0x0901, true, true, .c, .final, false⟩,
  ⟨0x0902, false, false, .q, .final, false⟩,
  ⟨0x0903, false, true, .q, .final, false⟩,
  ⟨0x0904, true, true, .c, .final, false⟩,
  ⟨0x0905, true, true, .c, .event, false⟩,
  ⟨0x0906, false, true, .c, .final, false⟩]

/-- Table 20.4, group KEY: GET_IDENTITY_KEY, ESTABLISH_KEK, IMPORT_KEY, GENERATE_KEY, EXPORT_KEY, DESTROY_KEY, ROTATE_KEY, GET_SLOT, RUN_VECTOR. -/
def catKey : List CatRow := [
  ⟨0x0A01, false, false, .q, .final, false⟩,
  ⟨0x0A02, true, true, .q, .final, false⟩,
  ⟨0x0A03, true, true, .c, .final, false⟩,
  ⟨0x0A04, true, true, .c, .final, false⟩,
  ⟨0x0A05, true, true, .c, .final, false⟩,
  ⟨0x0A06, true, true, .c, .final, false⟩,
  ⟨0x0A07, true, true, .c, .event, false⟩,
  ⟨0x0A08, false, false, .q, .final, false⟩,
  ⟨0x0A09, true, true, .only [.maintenance], .final, false⟩]

/-- Table 20.4, group PAIR: GET_STATUS, TAKEOVER, SET_POLICY, START_RESYNC, FORCE_CLAIM. -/
def catPair : List CatRow := [
  ⟨0x0B01, false, false, .q, .final, false⟩,
  ⟨0x0B02, true, true, .only [.active], .event, false⟩,
  ⟨0x0B03, true, true, .cf, .final, false⟩,
  ⟨0x0B04, true, true, .only [.active], .event, false⟩,
  ⟨0x0B05, true, true, .only [.boot, .standby, .fenced, .maintenance], .final, false⟩]

/-- Table 20.4, group STK: GET_STATUS, GET_SHELF, ADD_SHELF, REMOVE_SHELF, LEAVE_STACK. -/
def catStk : List CatRow := [
  ⟨0x0C01, false, false, .q, .final, false⟩,
  ⟨0x0C02, false, false, .q, .final, false⟩,
  ⟨0x0C03, true, true, .c, .event, false⟩,
  ⟨0x0C04, true, true, .c, .final, false⟩,
  ⟨0x0C05, true, true, .c, .final, false⟩]

/-- Table 20.4, group MEM: GET_STATUS, READ_LOG, SCRUB_RANGE, GET_SCRUB, SET_IDLE_SCRUB, GET_IDLE_SCRUB, RETIRE_PAGE, RETIRE_ROW, TEST_WRITE, TEST_READ, RELOAD_MAP, RUN_SELFTEST. -/
def catMem : List CatRow := [
  ⟨0x0D01, false, false, .q, .final, false⟩,
  ⟨0x0D02, false, false, .q, .final, false⟩,
  ⟨0x0D03, true, false, .only [.boot, .standby, .active, .fenced, .maintenance], .event, false⟩,
  ⟨0x0D04, false, false, .q, .final, false⟩,
  ⟨0x0D05, true, false, .q, .final, false⟩,
  ⟨0x0D06, false, false, .q, .final, false⟩,
  ⟨0x0D07, true, true, .q, .final, false⟩,
  ⟨0x0D08, true, true, .q, .final, false⟩,
  ⟨0x0D09, true, false, .only [.active, .maintenance], .final, false⟩,
  ⟨0x0D0A, false, false, .only [.active, .maintenance], .final, false⟩,
  ⟨0x0D0B, true, true, .only [.active], .final, false⟩,
  ⟨0x0D0C, true, false, .only [.active, .maintenance], .event, false⟩]

/-- Table 20.4, group UPD: GET_STATUS, BEGIN, WRITE_DELTA, FINISH, ACTIVATE, PROPAGATE, SET_OWNER_LOCK, ABORT. -/
def catUpd : List CatRow := [
  ⟨0x0E01, false, true, .q, .final, true⟩,
  ⟨0x0E02, true, true, .u, .final, true⟩,
  ⟨0x0E03, true, true, .u, .final, true⟩,
  ⟨0x0E04, true, true, .u, .event, true⟩,
  ⟨0x0E05, true, true, .u, .final, false⟩,
  ⟨0x0E06, true, true, .u, .event, false⟩,
  ⟨0x0E07, true, true, .q, .final, false⟩,
  ⟨0x0E08, true, true, .u, .final, true⟩]

/-- Table 20.4, group TAL: READ, SNAPSHOT, CLEAR, GET_OVERFLOW, SET_STREAM. -/
def catTal : List CatRow := [
  ⟨0x0F01, false, false, .q, .final, false⟩,
  ⟨0x0F02, false, false, .q, .final, false⟩,
  ⟨0x0F03, true, false, .q, .final, false⟩,
  ⟨0x0F04, false, false, .q, .final, false⟩,
  ⟨0x0F05, true, true, .q, .final, false⟩]

/-- Table 20.4. -/
def catalogue : List CatRow :=
  catMod ++ catPwr ++ catNet ++ catQos ++ catXpt ++ catNvm ++ catVol ++ catWbf ++ catRed ++ catDrv ++ catKey ++ catPair ++ catStk ++ catMem ++ catUpd ++ catTal

/-- The row of an opcode. -/
def catRow (op : Nat) : Option CatRow := catalogue.find? fun r => r.op = op

/-- The unit behind an opcode is fused off on a TK-4824-B (R877). -/
def fusedOff (order op : Nat) : Bool := decide (order = 2) && (decide (op / 256 = 0x0A) || decide (op = 0x040D))

/-- The boot ROM takes recovery commands at the SMBus door (R878). -/
def atHoldFlash (s : State) (door : Nat) : Bool := decide (s.md.stage = .holdFlash) && decide (door = 0)

/-- The mode admits the command (R873, Table 20.2). -/
def modeAdmits (r : CatRow) (s : State) (door : Nat) : Bool :=
  match r.modes with
  | .any => true
  | .q => s.step6 || (r.recov && atHoldFlash s door)
  | .c => [Mode.active, .maintenance, .drowse].contains s.md.mode
  | .cf => [Mode.active, .maintenance, .drowse, .fenced].contains s.md.mode
  | .u => [Mode.standby, .active, .maintenance].contains s.md.mode || (r.recov && atHoldFlash s door)
  | .only ms => ms.contains s.md.mode

/-- The command wakes the module first in Drowse (R150, R161, R163, Table 20.2). -/
def wakesFirst (r : CatRow) (s : State) : Bool :=
  decide (s.md.mode = .drowse) &&
    (decide (r.modes = .c) || decide (r.modes = .cf) || decide (r.op = 0x0004) || decide (r.op = 0x0007))

/-- ACCEPTED commands of a door whose completion events have not been read (Table 19.12). -/
def outstanding (s : State) (d : Nat) : Nat :=
  (s.lb.running.filter fun r => r.door = d).length + (s.lb.heldEv.filter fun e => e.door = d).length
    + ((s.door d).evq.filter fun e => e.compl).length

/-- Checks 1–7 of R875, in order: the status and result words of the reply of the first that fails. -/
def preCheck (op : Nat) (p : Packet) (s : State) : Option (Nat × List Word) :=
  if p.words.length < p.pwc then some (stBadLength, [])
  else if !s.step6 && !([0x0000, 0x0001, 0x0002].contains op) &&
      !(atHoldFlash s p.door && (match catRow op with | some r => r.recov | none => false)) then
    some (stBusy, [word 1000])
  else if p.flags ≠ 0 then some (stBadParam, [])
  else match catRow op with
    | none => some (stBadOpcode, [])
    | some r =>
      if fusedOff s.order op then some (stBadOpcode, [])
      else if !modeAdmits r s p.door then some (stRefusedMode, [])
      else if r.lock && decide (s.lockHolder ≠ p.door) && !atHoldFlash s p.door then
        some (stNotOwner, [fld 1 0 s.lockHolder ||| flag 8 true])
      else if r.byK && decide (s.md.kumel ≠ .running) && !atHoldFlash s p.door then some (stBusy, [word 1000])
      else if decide (r.reply ≠ .final) && decide (64 ≤ outstanding s p.door) then some (stBusy, [word 100])
      else none

/-- A command from the door that holds the lock restarts LOCKTO (R856). -/
def touchLock (d : Nat) (s : State) : State :=
  s.onLb fun l => { l with lock := l.lock.map fun k => if k.door = d then { k with last := s.clk.now } else k }

/-- The desk entry of this packet, where the packet has passed its door. -/
def deskEntry (op : Nat) (p : Packet) (s : State) : Option DeskEntry :=
  s.lb.inbox.find? fun e => e.door = p.door && e.tag = p.tag && e.op = op && e.words = p.words

/-- Remove the first desk entry of this packet. -/
def dropEntry (op : Nat) (p : Packet) (s : State) : State :=
  s.onLb fun l => { l with inbox := l.inbox.eraseP fun e => e.door = p.door && e.tag = p.tag && e.op = op && e.pwc = p.pwc && e.words = p.words }

/-- What a desk answers: a status, the result words, and the state after its effect. -/
abbrev Desk := Nat × List Word × State

/-- A reply without result words and without effect. -/
def deny (st : Nat) (s : State) : Desk := (st, [], s)

/-- OK without result words. -/
def okay (s : State) : Desk := (stOk, [], s)

/-- OK with result words. -/
def answer (ws : List Word) (s : State) : Desk := (stOk, ws, s)

/-- The status that stands for a reply withheld until epochs drain (R198, R493): nothing is posted now. -/
def stWithheld : Nat := 0xFFFF

/-- Commands that change the shelf's configuration and whose effect a standby derives from the packet (R730, Table 15.10 kind 2). DESIGN CHOICE (log 158, unsafe). -/
def derivedOps : List Nat :=
  [0x0101, 0x0105, 0x0201, 0x0203, 0x0204, 0x0205, 0x0208, 0x0209, 0x020A, 0x020C, 0x020D, 0x020F,
   0x0301, 0x0302, 0x0304, 0x0305, 0x0306, 0x0307, 0x030A, 0x0401, 0x0402, 0x0403, 0x0407, 0x0408, 0x040B, 0x040C, 0x040D, 0x040E,
   0x0501, 0x0503, 0x0504, 0x0506, 0x0509, 0x0604, 0x0608, 0x060D, 0x0701, 0x0801, 0x080A, 0x0901, 0x0B03]

/-- Commands that change the shelf's configuration and draw on the DRBG, a drive or an epoch: what they change follows as state
writes (R730). -/
def writtenOps : List Nat :=
  [0x0406, 0x0409, 0x0601, 0x0602, 0x0605, 0x0606, 0x0607, 0x0609, 0x0804, 0x0A03, 0x0A04, 0x0A06, 0x0A07]

/-- An applied command that changes configuration is shadowed (R730). -/
def shadowLetter (op : Nat) (p : Packet) (s : State) : State :=
  if derivedOps.contains op || writtenOps.contains op then shadow .shadow 2 (op * 4 + p.door) s else s

/-- Take a checked packet to its desk and post the reply. An ACCEPTED reply sets out before the effect, so that a completion that
follows at once waits for it (R861). -/
def atDesk (op : Nat) (p : Packet) (orphan : Bool) (lenOk : Bool) (s : State) (desk : State → Desk) : State :=
  if !lenOk then post p.door p.tag orphan stBadLength [] s
  else
    let (st, ws, t) := desk s
    if st = stWithheld then shadowLetter op p t
    else if st = stAccepted then
      let t := shadowLetter op p (desk (post p.door p.tag orphan stAccepted ws s)).2.2
      if replyWaits t p.door p.tag then t else post p.door p.tag orphan stAccepted ws t
    else post p.door p.tag orphan st ws (doIf (st = stOk) (shadowLetter op p) t)

/-- A command that needs a drive or a data face (classes C and CF) arrives, perhaps during a Drowse entry (R147). -/
def arriveInEntry (op : Nat) (s : State) : State :=
  match catRow op with
  | some r => doIf (decide (r.modes = .c) || decide (r.modes = .cf)) entryArrival s
  | none => s

/-- The whole of a Letterbox command's step. A packet that its door has already checked (COMMAND_ENTER_BUSY) goes to its
desk at once (R857); any other is checked now, in the order of R875. A command that wakes the module first is held until
the exit ends (R150). DESIGN CHOICE (log 15, unsafe). -/
def runLetter (op : Nat) (p : Packet) (s : State) (lenOk : Bool) (desk : State → Desk) : State :=
  match deskEntry op p s with
  | some e =>
    if s.md.mode = .drowse && (match catRow op with | some r => wakesFirst r s | none => false) then beginDrowseExit s
    else if !(match catRow op with | some r => modeAdmits r s p.door | none => false) then
      post p.door p.tag e.orphan stRefusedMode [] (dropEntry op p s)
    else atDesk op p e.orphan lenOk (dropEntry op p s) desk
  | none =>
    let s := touchLock p.door (count1 (16 + p.door) s)
    match preCheck op p s with
    | some (st, ws) => post p.door p.tag false st ws s
    | none =>
      if (match catRow op with | some r => wakesFirst r s | none => false) then
        beginDrowseExit (s.onLb fun l => { l with inbox := l.inbox ++ [⟨p.door, p.tag, op, p.pwc, p.words, true, false⟩] })
      else atDesk op p false lenOk (arriveInEntry op s) desk

/-- A Letterbox command without data: exactly `n` parameter words (R832). DESIGN CHOICE (log 12, unsafe). DEDUCED (log 13, unsafe). -/
def letter (op n : Nat) (p : Packet) (s : State) (desk : State → Desk) : Out :=
  .next (runLetter op p s (decide (p.pwc = n) && decide (p.words.length = n)) desk)

/-- A Letterbox command with data: `n` parameter words, the first of them holding the data word count `dwc` (R831, R832). -/
def letterData (op n dwc : Nat) (p : Packet) (s : State) (desk : State → Desk) : Out :=
  .next (runLetter op p s (decide (p.pwc = n) && decide (p.words.length = n + dwc)) desk)

/-- Word `i` of a packet as the chapters number them: the parameters start at word 2 (Table 19.1). -/
def Packet.w (p : Packet) (i : Nat) : Word := wordAt p.words (i - 2)

/-- The data words after `n` parameter words. -/
def Packet.data (p : Packet) (n : Nat) : List Word := p.words.drop n

/-- Reserved-bit check of the parameter words (R10): word 2 + i may hold bits of the i-th mask only. -/
def reservedOk : List Word → List Word → Bool
  | m :: ms, w :: ws => clean m w && reservedOk ms ws
  | _, _ => true

/-- A parameter or reserved-bit check: BAD_PARAM where it fails. -/
def guardParam (b : Bool) (s : State) (k : State → Desk) : Desk := if b then k s else deny stBadParam s

/-- Any check: the status where it fails. -/
def check (b : Bool) (st : Nat) (s : State) (k : State → Desk) : Desk := if b then k s else deny st s

end Sys2Proof.Machine
end

