-- ==== Sys2Proof/Machine/Flags.lean ====
section
/-! DEFINITION. The status words and status signals that the module computes from its state: LBSTAT, LBCNT, SMB_ALERT_N,
SESTAT, CHSTAT, MATE_OUT_N, the clock of LASTTRIP. -/
namespace Sys2Proof.Machine

/-- The code of a door state (Table 19.6). -/
def DoorState.code : DoorState → Nat
  | .idle => 0 | .filling => 1 | .busy => 2 | .reply => 3 | .error => 4

/-- LBSTAT of a door (Table 19.6). -/
def lbstat (s : State) (d : Nat) : Word :=
  let x := s.door d
  fld 2 0 x.st.code ||| fld 7 4 x.ecode ||| flag 8 (!x.evq.isEmpty) ||| flag 9 (decide (s.lockHolder = d))
    ||| flag 10 (decide (s.md.kumel = .running)) ||| flag 11 x.discard

/-- LBCNT of a door as read (Table 19.7). -/
def lbcnt (s : State) (d : Nat) : Nat :=
  let x := s.door d
  match x.st with
  | .filling => x.expect
  | .reply => x.reply.length
  | _ => 0

/-- LBCTL of a door as read (Table 19.5). -/
def lbctl (s : State) (d : Nat) : Word := flag 8 (s.door d).evEn ||| flag 9 (s.door d).rpEn

/-- SMB_ALERT_N is low (R843). -/
def smbAlertLow (s : State) : Bool := s.lb.d0.alert && (s.lb.d0.evLvl || s.lb.d0.rpLvl)

/-- The SMBus door's 7-bit address (R840). -/
def smbAddr (s : State) : Nat := if s.bay.bay = 0 then 0x32 else 0x33

/-- SESTAT (Table 21.6). -/
def sestat (e : Se) : Word := flag 0 e.busErr ||| flag 1 e.mOff ||| flag 2 e.unexp ||| flag 3 e.linkLoss ||| fld 7 4 e.ecause

/-- The code of a channel state (Table 21.8). -/
def ChState.code : ChState → Nat
  | .off => 0 | .running => 1 | .waiting => 2 | .stopping => 3 | .halted => 4

/-- The code of a halt cause (Table 21.8). -/
def HaltCode.code : HaltCode → Nat
  | .none => 0 | .stopped => 1 | .busError => 2 | .masterOff => 3 | .linkDown => 4 | .badDesc => 5 | .srcConflict => 6 | .badRing => 7

/-- CHSTAT (Table 21.8). -/
def chstat (c : Channel) : Word := fld 2 0 c.st.code ||| fld 7 4 c.halt.code ||| flag 8 c.done

/-- The front end is on, and MATE_OUT_N is low (R938). -/
def frontEndOn (s : State) : Bool :=
  s.pins.seated && (s.fe.f1.closed || s.fe.f2.closed) && s.fe.charged && !s.fe.holdup && s.fe.coreOn
    && decide (s.fe.latch = .none)

/-- Both feeds are good. -/
def bothGood (s : State) : Bool := s.fe.f1.good && s.fe.f2.good

/-- Some feed is good. -/
def someGood (s : State) : Bool := s.fe.f1.good || s.fe.f2.good

/-- The door can be reached: the SMBus door is silent while the bay decode is invalid (R39), the Service Endpoint's needs
its link (R887) and the management Ethernet door its link (R132). -/
def doorOpen (s : State) : Nat → Bool
  | 0 => s.bay.valid
  | 1 => s.se.link
  | 2 => s.md.mgmtLink
  | _ => false

/-- The six words of an event record (Table 19.13). -/
def EvRec.toWords (e : EvRec) : List Word :=
  [e.seq, fld 9 0 e.event ||| flag 15 e.compl ||| fld 31 16 e.status, e.param, e.tag] ++ words2 e.time

/-- The two words of a counter (Table 23.1). -/
def Ctr.toWords (c : Ctr) : List Word := [word c.val.toNat, fld 15 0 (c.val.toNat >>> 32) ||| flag 16 c.ovf]

/-- The eight words of a record (Table 18.2). -/
def LogRec.words (r : LogRec) : List Word :=
  [word r.eseq] ++ words2 r.time ++ [fld 3 0 r.cls ||| fld 6 4 r.kind ||| fld 9 8 r.result ||| fld 15 12 r.consumer ||| fld 20 16 r.device ||| fld 31 24 r.count, word r.loc,
    fld 7 0 (r.loc / 2 ^ 32) ||| fld 15 8 r.index, word r.syn, fld 15 0 r.eye ||| fld 31 16 r.errs]

end Sys2Proof.Machine
end

