-- ==== Sys2Proof/Machine/Letterbox.lean ====
section
/-! DEFINITION. The Letterbox (chapter 19): the doors' registers, the SMBus and Ethernet transports, the hand-over to the
desks, the desk lock, and the Letterbox commands of the MOD group. -/
namespace Sys2Proof.Machine

/-! ## Registers -/

/-- A door enters ERROR: the packet or reply it holds is discarded, the entry is counted, and MOD.DOOR_ERROR is raised for
the first in any 1 s (Tables 19.9, 19.16, 19.17). -/
def enterError (d code : Nat) (s : State) : State :=
  let recent := match (s.door d).errAt with | none => false | some t => decide (s.clk.now < t + sec)
  let s := onDoor d (fun x => { x with st := .error, ecode := code, buf := [], reply := [], expect := 0,
                                       errAt := if recent then x.errAt else some s.clk.now }) s
  let s := settle d (count1 (22 + d) s)
  doIf (!recent) (raise 20 (fld 1 0 d ||| fld 11 8 code)) s

/-- An access that the door ignores is counted (R836, R844). -/
def ignored (d : Nat) (s : State) : State := count1 (28 + d) s

/-- The door enters FILLING for a packet of `n` words; a reply it holds is discarded (Table 19.9). -/
def startFilling (d n : Nat) (s : State) : State :=
  settle d (onDoor d (fun x => { x with st := .filling, expect := n, buf := [], reply := [], lastWr := s.clk.now }) s)

/-- A write of `n` to LBCNT (Table 19.9). -/
def writeLbcnt (d n : Nat) (s : State) : State :=
  let ok := decide (2 ≤ n) && decide (n ≤ 4096)
  match (s.door d).st with
  | .idle => if ok then startFilling d n s else enterError d 1 s
  | .filling => enterError d 2 s
  | .busy => ignored d s
  | .reply => if ok then startFilling d n s else enterError d 1 s
  | .error => ignored d s

/-- A write of a word to LBDATA (Table 19.9). -/
def writeLbdata (d : Nat) (w : Word) (s : State) : State :=
  match (s.door d).st with
  | .idle => enterError d 3 s
  | .filling =>
    onDoor d (fun x => { x with buf := x.buf ++ [w], expect := x.expect - 1, lastWr := s.clk.now,
                                st := if x.expect ≤ 1 then .busy else .filling }) s
  | _ => ignored d s

/-- A read of LBDATA: the word and the state after it (Table 19.9). -/
def readLbdata (d : Nat) (s : State) : Word × State :=
  match (s.door d).st, (s.door d).reply with
  | .reply, w :: ws =>
    (w, settle d (onDoor d (fun x => { x with reply := ws, st := if ws.isEmpty then .idle else .reply }) s))
  | _, _ => (0, s)

/-- Read up to `n` words of a reply, stopping at its end. -/
def readWords (d : Nat) : Nat → State → List Word × State
  | 0, s => ([], s)
  | n + 1, s =>
    if (s.door d).st = .reply then
      let (w, s) := readLbdata d s
      let (ws, s) := readWords d n s
      (w :: ws, s)
    else ([], s)

/-- The ABORT bit of LBCTL (Table 19.9). -/
def abortDoor (d : Nat) (s : State) : State :=
  match (s.door d).st with
  | .idle => s
  | .busy => onDoor d (fun x => { x with discard := true }) s
  | _ => settle d (onDoor d (fun x => { x with st := .idle, buf := [], reply := [], expect := 0 }) s)

/-- A write to LBCTL: EVEN and RPEN take the written bits, and ABORT acts (Table 19.5). -/
def writeLbctl (d : Nat) (w : Word) (s : State) : State :=
  let s := doIf (bit 0 w) (abortDoor d) s
  settle d (onDoor d (fun x => { x with evEn := bit 8 w, rpEn := bit 9 w }) s)

/-- A register access reaches its door: at door 1 an access that is not an aligned 32-bit request is ignored and
counted (R844). -/
def access (d : Nat) (aligned : Bool) (f : State → State) (s : State) : State :=
  if !doorOpen s d then s
  else if d = 1 && !aligned then ignored 1 s
  else f s

/-- R836: a write to LBCNT. -/
def execLbcntWrite (door : Nat) (aligned : Bool) (w : Word) (s : State) : Out :=
  .next (access door aligned (writeLbcnt door (bits 12 0 w)) s)

/-- R836: a write to LBDATA. -/
def execLbdataWrite (door : Nat) (aligned : Bool) (w : Word) (s : State) : Out :=
  .next (access door aligned (writeLbdata door w) s)

/-- R836: a read of LBDATA; the word read is given out. -/
def execLbdataRead (door : Nat) (aligned : Bool) (s : State) : Out :=
  .next (if doorOpen s door && door = 1 && !aligned then send { kind := .readData, a := door, ws := [0] } (ignored 1 s)
    else access door aligned (fun s =>
      let (w, s) := readLbdata door s
      send { kind := .readData, a := door, ws := [w] } s) s)

/-- R838, Table 19.9: a write to LBCTL that holds ABORT. -/
def execLbctlAbort (door : Nat) (aligned : Bool) (w : Word) (s : State) : Out :=
  .next (access door aligned (writeLbctl door (w ||| 1)) s)

/-- R837: 1 s in FILLING without an LBDATA write. -/
def execDoorFillingTimeout (door : Nat) (s : State) : Out :=
  .next (if (s.door door).st = .filling && due ((s.door door).lastWr + sec) s.clk.now && door < 3 then enterError door 4 s else s)

/-! ## From a door to a desk and back -/

/-- The packet that a door holds in BUSY and has not handed over, with its opcode. -/
def doorPacket (s : State) (d : Nat) : Option (Nat × Packet) :=
  match (s.door d).st, (s.door d).buf with
  | .busy, w0 :: w1 :: ws =>
    some (bits 31 16 w0, { door := d, flags := bits 15 8 w0, pwc := bits 7 0 w0, tag := w1, words := ws })
  | _, _ => none

/-- R875: a complete packet is counted, checked in order, and answered by its door or handed to its desk. -/
def execCommandEnterBusy (door : Nat) (s : State) : Out :=
  .next (match doorPacket s door with
    | none => s
    | some (op, p) =>
      let s := touchLock door (count1 (16 + door) s)
      let s := onDoor door (fun x => { x with buf := [] }) s
      match preCheck op p s with
      | some (st, ws) => post door p.tag false st ws s
      | none =>
        match catRow op with
        | none => s
        | some r =>
          let s := s.onLb fun l => { l with inbox := l.inbox ++ [⟨door, p.tag, op, p.pwc, p.words, !r.byK, false⟩] }
          if wakesFirst r s then beginDrowseExit s else arriveInEntry op s)

/-- The first packet of a door that waits for Kumel to take it from its backlog. -/
def backlogged (d : Nat) (e : DeskEntry) : Bool := e.door = d && !e.begun

/-- R860: Kumel takes the door's command from its backlog. -/
def execKumelBeginCommand (door : Nat) (s : State) : Out :=
  .next (if s.md.kumel = .running then
      match s.lb.inbox.find? (backlogged door) with
      | none => s
      | some e => s.onLb fun l =>
        { l with inbox := (l.inbox.eraseP (backlogged door)) ++ [{ e with begun := true }] }
    else s)

/-- R859, Table 19.12: Kumel cannot begin the command within 50 ms; the hint is its estimate, 10–1,000 ms. -/
def execKumelBacklogTimeout (door backlogMs : Nat) (s : State) : Out :=
  .next (match s.lb.inbox.find? (backlogged door) with
    | none => s
    | some e =>
      post e.door e.tag e.orphan stBusy [word (max 10 (min 1000 backlogMs))]
        (s.onLb fun l => { l with inbox := l.inbox.eraseP (backlogged door) }))

/-- Store the completions that waited for this command's ACCEPTED reply (R861). -/
def releaseHeld (d : Nat) (tag : Word) (s : State) : State :=
  let es := s.lb.heldEv.filter fun e => e.door = d && e.tag = tag
  let s := s.onLb fun l => { l with heldEv := l.heldEv.filter fun e => !(e.door = d && e.tag = tag) }
  es.foldl (fun t e => pushEvent e.door true e.event e.status e.param e.tag t) s

/-- Words 2 to 8 of MOD.SET_MGMT_ADDR, in force (R868). -/
def setMgmt (ws : List Word) (l : Letterbox) : Letterbox :=
  let w0 := ws.getD 0 0
  { l with mgmtNew := none, mgmtMode := bits 1 0 w0, mgmtPfx4 := bits 13 8 w0, mgmtPfx6 := bits 23 16 w0,
           mgmt4 := ws.getD 1 0, mgmtGw := ws.getD 2 0, mgmt6 := ws.drop 3 }

/-- A management address change applies once its reply has left for the door (R868). -/
def takeMgmt (d : Nat) (tag : Word) (s : State) : State :=
  match s.lb.mgmtNew with
  | some (e, u, ws) => doIf (e = d && u = tag) (fun s => s.onLb (setMgmt ws)) s
  | none => s

/-- R838, R839: the first reply on its way to the door arrives: discarded if its packet was disowned (R845) or DISCARD is
set, else the door enters REPLY with its 2 + RWC words. -/
def execCommandReplyReady (door : Nat) (s : State) : Out :=
  .next (match s.lb.replies.find? (fun r => r.door = door) with
    | none => s
    | some r =>
      let s := takeMgmt door r.tag s
      let drop := fun (s : State) => s.onLb fun l => { l with replies := l.replies.eraseP fun x => x.door = door }
      let x := s.door door
      if r.orphan then releaseHeld door r.tag (drop s)
      else if x.discard then
        releaseHeld door r.tag (settle door (onDoor door (fun x => { x with st := .idle, discard := false, buf := [] }) (drop s)))
      else if x.st = .busy || x.st = .idle then
        releaseHeld door r.tag (settle door (onDoor door (fun x => { x with
          st := .reply, buf := [],
          reply := (fld 15 0 r.words.length ||| fld 31 16 r.status) :: r.tag :: r.words }) (drop s)))
      else s)

/-- R856: LOCKTO passes without a command from the holding door. -/
def execLockExpired (s : State) : Out :=
  .next (match s.lb.lock with
    | none => s
    | some l => if due (l.last + l.span * sec) s.clk.now then raise 17 (fld 1 0 l.door) (releaseLock s) else s)

/-! ## The SMBus door -/

/-- R840, R841: a Block Write to code 0x04. A wrong PEC refuses the whole transaction. -/
def execSmbusBlockWrite (count : Nat) (ws : List Word) (pecBad : Bool) (s : State) : Out :=
  .next (if !doorOpen s 0 then s
    else if pecBad then count1 35 s
    else if count % 4 = 0 && 4 ≤ count && count ≤ 252 && ws.length * 4 = count then forAll ws (writeLbdata 0) s
    else s)

/-- R840: a Block Read from code 0x04: 4 × the lesser of 63 and LBCNT bytes in REPLY, else none. -/
def execSmbusBlockRead (pecBad : Bool) (s : State) : Out :=
  .next (if !doorOpen s 0 then s
    else if pecBad then count1 35 s
    else
      let n := if s.lb.d0.st = .reply then min 63 (lbcnt s 0) else 0
      let (ws, s) := readWords 0 n s
      send { kind := .smbBlock, a := 4 * n, ws := ws } s)

/-- R843: a read of the Alert Response Address returns the door's address and releases the alert. -/
def execAlertResponseRead (s : State) : Out :=
  .next (if doorOpen s 0 && smbAlertLow s then
      send { kind := .ara, a := smbAddr s } (onDoor 0 (fun x => { x with alert := false }) s)
    else s)

/-! ## The management Ethernet door -/

/-- A key slot of the door. -/
def State.doorKey (s : State) (k : Nat) : DoorKey := if k = 0 then s.lb.k0 else s.lb.k1

/-- Change a key slot of the door. -/
def onKey (k : Nat) (f : DoorKey → DoorKey) (s : State) : State :=
  s.onLb fun l => if k = 0 then { l with k0 := f l.k0 } else { l with k1 := f l.k1 }

/-- A response datagram (Table 19.11) with its MAC under the request's key slot (R848). -/
def response (s : State) (keyId seq result : Nat) (ws : List Word) : List Word :=
  let body := (fld 15 0 0x4C42 ||| fld 23 16 1 ||| fld 24 24 keyId ||| flag 27 true) :: lbstat s 2 :: words2 seq
    ++ [fld 31 16 ws.length, fld 12 0 (lbcnt s 2) ||| fld 31 16 result] ++ ws
  body ++ Config.hmacSha256 (s.doorKey keyId).key body

/-- Send a response and cache it in its key slot (R849). -/
def respond (keyId seq result : Nat) (ws : List Word) (s : State) : State :=
  let r := response s keyId seq result ws
  send { kind := .dgram, ws := r } (onKey keyId (fun k => { k with cache := r }) s)

/-- The reads and the response of a request (R851 step 6). -/
def finishDatagram (keyId seq nrd : Nat) (s : State) : State :=
  let (ws, s) := readWords 2 nrd s
  respond keyId seq 0 ws s

/-- Apply a new request (R851 steps 1–5). DESIGN CHOICE (log 16, unsafe). -/
def applyDatagram (d : Datagram) (s : State) : State :=
  let s := onKey d.keyId (fun k => { k with last := d.seq, floor := if k.floor < d.seq then d.seq + 65536 else k.floor }) s
  if 358 < d.nrd then respond d.keyId d.seq 0x22 [] s
  else
    let s := s.onLb fun l => { l with authKey := d.keyId }
    let s := doIf d.ctlv (writeLbctl 2 d.ctl) s
    let s := doIf (d.cnt != 0) (writeLbcnt 2 d.cnt) s
    let s := forAll d.words (writeLbdata 2) s
    if d.wait && s.lb.d2.st = .busy then
      s.onLb fun l => { l with wait := some ⟨d.seq, d.keyId, d.nrd, s.clk.now + 10 * ms⟩ }
    else finishDatagram d.keyId d.seq d.nrd s

/-- The words of a request that its MAC covers (Table 19.11). -/
def Datagram.covered (d : Datagram) : List Word :=
  (fld 15 0 d.magic ||| fld 23 16 d.ver ||| fld 24 24 d.keyId ||| flag 25 d.ctlv ||| flag 26 d.wait) :: d.ctl :: words2 d.seq
    ++ [fld 15 0 d.nwr ||| fld 31 16 d.nrd, fld 12 0 d.cnt] ++ d.words

/-- A request is malformed (R846, R847). -/
def Datagram.malformed (d : Datagram) : Bool :=
  d.fragment || decide (1472 < d.bytes) || decide (d.bytes ≠ 4 * (10 + d.nwr)) || decide (d.words.length ≠ d.nwr)
    || decide (d.magic ≠ 0x4C42) || decide (d.ver ≠ 1) || decide (2 ≤ d.keyId)

/-- The datagram falls over the rate of 20,000 in a second (R846). -/
def overRate (s : State) : Bool := decide (s.clk.now < s.lb.rateAt + sec) && decide (20000 ≤ s.lb.rateN)

/-- Count a datagram against the rate. -/
def countRate (s : State) : State :=
  s.onLb fun l => if s.clk.now < l.rateAt + sec then { l with rateN := l.rateN + 1 }
    else { l with rateAt := s.clk.now, rateN := 1 }

/-- A request whose MAC fails (R848). -/
def authFail (s : State) : State :=
  let recent := match s.lb.authAt with | none => false | some t => decide (s.clk.now < t + sec)
  let s := count1 31 s
  if recent then s else raise 19 (word 2) (s.onLb fun l => { l with authAt := some s.clk.now })

/-- R846–R852: a datagram to port 48240. While a WAIT datagram is held, no other is taken (R851). DEDUCED (log 17, safe). -/
def execDoorDatagram (d : Datagram) (s : State) : Out :=
  .next (if !doorOpen s 2 || s.lb.wait.isSome then s
    else if overRate s || (!s.lb.k0.held && !s.lb.k1.held) || d.malformed then count1 34 s
    else
      let s := countRate s
      let k := s.doorKey d.keyId
      if !k.held || Config.hmacSha256 k.key d.covered != d.mac then authFail s
      else if k.last < d.seq then applyDatagram d s
      else if d.seq = k.last then send { kind := .dgram, ws := k.cache } (count1 33 s)
      else send { kind := .dgram, ws := response s d.keyId k.last 0x60 [] } (count1 32 s))

/-- R851 step 5: the door has left BUSY, or 10 ms have passed. -/
def execDatagramWaitEnd (s : State) : Out :=
  .next (match s.lb.wait with
    | none => s
    | some w =>
      if s.lb.d2.st != .busy || due w.due s.clk.now then
        finishDatagram w.keyId w.seq w.nrd (s.onLb fun l => { l with wait := none })
      else s)

/-! ## Commands -/

/-- NOP (R13, R834): OK with no result words. -/
def execNop (p : Packet) (s : State) : Out := letter 0x0000 0 p s okay

/-- MOD.ACQUIRE_LOCK (R855, R856, R868). -/
def deskModAcquireLock (p : Packet) (s : State) : Desk :=
    let force := bit 16 (p.w 2)
    let span := bits 11 0 (p.w 2)
    guardParam (clean (mask 11 0 ||| mask 16 16) (p.w 2) && decide (1 ≤ span) && decide (span ≤ 3600)
        && decide (p.w 3 = if force then 0x00004824 else 0)) s fun s =>
      let take := fun (s : State) => s.onLb fun l => { l with lock := some ⟨p.door, span, s.clk.now⟩ }
      match s.lb.lock with
      | none => okay (take s)
      | some l =>
        if l.door = p.door then okay (take s)
        else if force then okay (raise 16 (fld 1 0 p.door ||| fld 5 4 l.door) (take s))
        else (stConflict, [fld 1 0 l.door], s)

/-- MOD.ACQUIRE_LOCK (R855, R856, R868). -/
def execModAcquireLock (p : Packet) (s : State) : Out := letter 0x0010 2 p s (deskModAcquireLock p)

/-- MOD.RELEASE_LOCK (R856, R868). -/
def deskModReleaseLock (p : Packet) (s : State) : Desk := check (decide (s.lockHolder = p.door)) stConflict s fun s => okay (releaseLock s)

/-- MOD.RELEASE_LOCK (R856, R868). -/
def execModReleaseLock (p : Packet) (s : State) : Out := letter 0x0011 0 p s (deskModReleaseLock p)

/-- MOD.GET_DOOR (R868). DEDUCED (log 19, unsafe). -/
def deskModGetDoor (p : Packet) (s : State) : Desk :=
    let d := bits 1 0 (p.w 2)
    guardParam (clean (mask 1 0) (p.w 2) && decide (d < 3)) s fun s =>
      let left := match s.lb.lock with | none => 0 | some l => (l.last + l.span * sec - s.clk.now) / sec
      answer [fld 2 0 (s.door d).st.code ||| fld 5 4 s.lockHolder ||| fld 14 8 (outstanding s d) ||| fld 24 16 (s.door d).evq.length,
        word left, word (tabGet {} s.tal.ctrs (16 + d)).val.toNat, if d = 2 then word s.lb.k0.last else 0] s

/-- MOD.GET_DOOR (R868). -/
def execModGetDoor (p : Packet) (s : State) : Out := letter 0x0012 1 p s (deskModGetDoor p)

/-- The eight words of a door's overflow counts (R868). -/
def overWords (x : Door) : List Word :=
  (List.range 8).map fun g => fld 15 0 (tabGet 0 x.lostEv (2 * g)) ||| fld 31 16 (tabGet 0 x.lostEv (2 * g + 1))

/-- MOD.READ_EVENTS (R866, R868): the oldest records and the overflow counts, both removed. -/
def deskModReadEvents (p : Packet) (s : State) : Desk :=
    let n := bits 5 0 (p.w 2)
    guardParam (clean (mask 5 0) (p.w 2) && decide (1 ≤ n) && decide (n ≤ 32)) s fun s =>
      let x := s.door p.door
      let out := x.evq.take n
      let rest := x.evq.drop n
      answer ((fld 5 0 out.length ||| flag 8 (!rest.isEmpty)) :: overWords x ++ out.flatMap EvRec.toWords)
        (settle p.door (onDoor p.door (fun x => { x with evq := rest, lostEv := [], overTold := false }) s))

/-- MOD.READ_EVENTS (R866, R868): the oldest records and the overflow counts, both removed. -/
def execModReadEvents (p : Packet) (s : State) : Out := letter 0x0013 1 p s (deskModReadEvents p)

/-- MOD.SET_EVENT_MASK (R863, R868): the enables of one group at the issuing door. -/
def deskModSetEventMask (p : Packet) (s : State) : Desk :=
    guardParam (clean (mask 3 0) (p.w 2)) s fun s =>
      let off := BitVec.ofNat 64 (2 ^ 64 - 1 - numOf [p.w 3, p.w 4])
      okay (onDoor p.door (fun x => { x with maskOff := tabIns x.maskOff (bits 3 0 (p.w 2)) off }) s)

/-- MOD.SET_EVENT_MASK (R863, R868): the enables of one group at the issuing door. -/
def execModSetEventMask (p : Packet) (s : State) : Out := letter 0x0014 3 p s (deskModSetEventMask p)

/-- MOD.SET_DOOR_KEY (R850, R868). DEDUCED (log 18, unsafe). -/
def deskModSetDoorKey (p : Packet) (s : State) : Desk :=
    let dwc := bits 4 0 (p.w 2)
    let k := bits 0 0 (p.w 3)
    let wrapped := bit 8 (p.w 3)
    let clr := bit 9 (p.w 3)
    let want := if clr then 0 else if wrapped then 10 else 8
    check (decide (dwc = want)) stBadLength s fun s =>
    guardParam (clean (mask 4 0) (p.w 2) && clean (mask 0 0 ||| mask 9 8) (p.w 3)
        && !(wrapped && decide (s.order = 2))) s fun s =>
    check (!wrapped || clr || s.key.kek.isSome) stNotFound s fun s =>
      let plain := if wrapped then Config.kwUnwrap (s.key.kek.getD []) (p.data 2) else some (p.data 2)
      match if clr then some [] else plain with
      | none => deny stIntegrity (count1 5177 s)
      | some key =>
        check (!(decide (p.door = 2) && decide (s.lb.authKey = k))) stConflict s fun s =>
          okay (onKey k (fun _ => { held := !clr, key := key }) s)

/-- MOD.SET_DOOR_KEY (R850, R868). -/
def execModSetDoorKey (p : Packet) (s : State) : Out := letterData 0x0015 2 (bits 4 0 (p.w 2)) p s (deskModSetDoorKey p)

/-- MOD.SET_MGMT_ADDR (R868). -/
def deskModSetMgmtAddr (p : Packet) (s : State) : Desk :=
    guardParam (clean (mask 1 0 ||| mask 13 8 ||| mask 23 16) (p.w 2) && decide (bits 13 8 (p.w 2) ≤ 32)
        && decide (bits 23 16 (p.w 2) ≤ 128)) s fun s =>
      okay (s.onLb fun l => { l with mgmtNew := some (p.door, p.tag, (List.range 7).map fun k => p.w (2 + k)) })

/-- MOD.SET_MGMT_ADDR (R868). -/
def execModSetMgmtAddr (p : Packet) (s : State) : Out := letter 0x0016 7 p s (deskModSetMgmtAddr p)

end Sys2Proof.Machine
end

