-- ==== Sys2Proof/Machine/Target.lean ====
section
/-! DEFINITION. The NVMe target engine's run of a started I/O command: checks, map lines, order, grants, claims, reads, data
arrival and the end (chapters 9, 10 and 11). -/
namespace Sys2Proof.Machine

/-! ## Order and progress -/

/-- Insert a command in start order. -/
def insOrder (e : Nat × Cmd) : List (Nat × Cmd) → List (Nat × Cmd)
  | [] => [e]
  | x :: xs => if e.2.order < x.2.order then e :: x :: xs else x :: insOrder e xs

/-- The started commands in start order. -/
def byOrder (t : Tab Cmd) : List (Nat × Cmd) := t.foldl (fun l e => insOrder e l) []

/-- The command has taken effect on the map and the buffer as far as its start goes. -/
def Cmd.placed (c : Cmd) : Bool := c.phase = .run || c.phase = .ended

/-- The data of a write-type command is in the buffer and, in paired operation, mirrored (R302, R416). DEDUCED (log 59, unsafe). -/
def dataIn (s : State) (c : Cmd) : Bool := c.placed && c.done && s.marked c.seq

/-- Every block range of a command. -/
def allRanges (c : HostCmd) : List (Nat × Nat) := readRanges c ++ writeRanges c

/-- The extents that block ranges touch. -/
def extentsOf (n : Ns) (rs : List (Nat × Nat)) : List Nat :=
  (rs.flatMap fun r => if r.2 = 0 then [] else
    (List.range ((r.1 + r.2 - 1) / perExtent n + 1 - r.1 / perExtent n)).map (r.1 / perExtent n + ·)).eraseDups

/-- Two lists share an element. -/
def meets (xs ys : List Nat) : Bool := xs.any fun x => ys.contains x

/-- A reservation command. -/
def isResv (op : IoOp) : Bool := op = .resRegister || op = .resReport || op = .resAcquire || op = .resRelease

/-- The host identifier of a command's controller. -/
def hostIdOf (s : State) (c : Nat) : Nat := match ctrlOf s c with | some k => k.hostId | none => 0

/-- The namespace is attached to the controller of a context. -/
def attachedTo (s : State) (c : Nat) (n : Ns) : Bool :=
  match ctrlOf s c with | some k => n.hosts.contains k.host && !n.deleting && !n.creating | none => false

/-- An earlier command has a say in a later one's order (R416, R419, R425, R470): same namespace, and blocks, extents,
write-type commands or reservations in common. DEDUCED (log 57, unsafe). -/
def relates (s : State) (w c : HostCmd) : Bool :=
  if c.op = .flush then writes w.op && (decide (w.a.nsid = c.a.nsid)
    || (decide (c.a.nsid = 0xFFFFFFFF) && (s.nsOf w.a.nsid).any fun n => attachedTo s c.a.ctx n))
  else decide (w.a.nsid = c.a.nsid) &&
    (if isResv c.op then isResv w.op
    else match s.nsOf c.a.nsid with
      | none => false
      | some n =>
        let near := meets (extentsOf n (allRanges w)) (extentsOf n (allRanges c))
        if writes c.op then near else writes w.op && near)

/-- An earlier command still holds back a later one. -/
def holdsBack (s : State) (w c : Cmd) : Bool :=
  if c.cmd.op = .flush then !dataIn s w
  else if isResv c.cmd.op then true
  else if writes c.cmd.op then !w.placed || (c.cmd.op = .copy && writes w.cmd.op && overlaps (writeRanges w.cmd) (readRanges c.cmd) && !dataIn s w)
  else if overlaps (writeRanges w.cmd) (readRanges c.cmd) then !dataIn s w
  else !w.placed

/-- Some command that a command follows still holds it back. -/
def blocked (s : State) (c : Cmd) : Bool := s.nvm.tags.any fun e => c.after.contains e.2.order && holdsBack s e.2 c

/-! ## Checks at the start (Table 9.12) -/

/-- Data bytes a command moves with the host, for each block. -/
def wireBytes (n : Ns) (a : IoCmd) : Nat := nsBlkBytes n + (if hasPi n && !a.pract then 8 else 0)

/-- The command moves host data by its data pointer. -/
def movesData (op : IoOp) : Bool := op = .read || op = .write || op = .compare

/-- The check of a data pointer (R294, R295). -/
def sglFail (op : IoOp) (len : Nat) (g : Sgl) : Option NvStatus :=
  match g with
  | .none | .invalid => some .sglTypeInvalid
  | .inCapsule n => if op = .read then some .sglTypeInvalid else if n = len && n ≤ 8192 then none else some .sglLengthInvalid
  | .keyed ds =>
    if 16 < ds.length then some .sglCountInvalid
    else if sumNat (ds.map (·.1)) = len && ds.all (fun d => decide (1 ≤ d.1) && decide (d.1 < 2 ^ 24)) then none
    else some .sglLengthInvalid

/-- The command is a read for a reservation's purposes (R423). -/
def readsForResv (op : IoOp) : Bool := op = .read || op = .compare || op = .verify

/-- The reservation forbids the command (R425, R429): write exclusive types bar writes, exclusive access types bar reads too. -/
def resvForbids (r : Resv) (host : Nat) (op : IoOp) : Bool :=
  if r.rtype = 0 || isResv op then false
  else
    let reg := r.regs.any fun g => g.1 = host
    let may := if r.rtype = 1 || r.rtype = 2 then decide (r.holder = some host) else reg
    !may && (!readsForResv op || r.rtype = 2 || r.rtype = 4 || r.rtype = 6)

/-- The fields of a command are outside the chapter's limits (Tables 9.5 and 9.8). -/
def fieldsBad (a : IoCmd) (op : IoOp) : Bool :=
  a.bad || match op with
    | .writeZeroes | .verify => decide (65536 < a.nlb)
    | .dsm => decide (256 < a.ranges.length)
    | .copy => decide (128 < a.ranges.length) || a.ranges.any (fun r => decide (65536 < r.2)) || decide (1048576 < sumNat (a.ranges.map (·.2)))
    | .resRegister => decide (a.cptpl = 3)
    | _ => false

/-- The sets that back a command's range are not all in service. -/
def setsDown (s : State) (n : Ns) (rs : List (Nat × Nat)) : Bool :=
  rs.any fun r => decide (0 < r.2) && (n.map.any fun l => decide (r.1 / perParcel n ≤ l.1) && decide (l.1 ≤ (r.1 + r.2 - 1) / perParcel n) &&
    match s.vset l.2.set with | some v => v.st = .offline || v.recover | none => true)

/-- The first failing row of Table 9.12 that the start can see; `home` says that the command runs at its home shelf. -/
def startFail (s : State) (c : HostCmd) (host : Nat) (attached home : Bool) : Option NvStatus :=
  let a := c.a
  if fieldsBad a c.op then some .invalidField
  else if c.op = .flush && a.nsid = 0xFFFFFFFF then (if s.nvm.sanitize.isSome then some .sanitizeInProgress else none)
  else match s.nsOf a.nsid with
    | none => some .invalidNamespace
    | some n =>
      let len := a.nlb * wireBytes n a
      let rs := allRanges c
      if !attached then some .invalidNamespace
      else if s.nvm.sanitize.isSome then some .sanitizeInProgress
      else if !reachable s n.home then some .anaInaccessible
      else if home && rs.any fun r => decide (n.size * perParcel n < r.1 + r.2) then some .lbaRange
      else if home && movesData c.op && decide (4194304 < a.nlb * nsBlkBytes n) then some .invalidField
      else match (if movesData c.op && decide (a.ctx < 65536) then sglFail c.op len a.sgl else none) with
        | some f => some f
        | none =>
          if !home then none
          else if resvForbids n.resv host c.op then some .reservationConflict
          else if writes c.op && n.ro then some .writeProtected
          else if setsDown s n rs || (decide (n.enc ≠ 0) && (decide ((s.slotOf (a.nsid - 1)).st = .missing) || decide ((s.slotOf (a.nsid - 1)).st = .empty))) then some .nsNotReady
          else none

/-- A map epoch is newer than another; at most four are live (R494). -/
def newerEpoch (a b : Nat) : Bool := decide (0 < (a + 65536 - b) % 65536) && decide ((a + 65536 - b) % 65536 < 32768)

/-- A command's namespace as its map epoch shows it (R491): a parcel that was switched under a newer epoch still lies at its
old place, which the waiting change keeps. DEDUCED (log 115, unsafe). -/
def State.nsFor (s : State) (c : Cmd) : Option Ns :=
  (s.nsOf c.cmd.a.nsid).map fun n => s.vol.waits.foldr (fun w n =>
    if !newerEpoch w.epoch c.epoch then n
    else w.chg.foldr (fun g n => match g with
      | .switch m i k p => if m = c.cmd.a.nsid then { n with map := tabUpd n.map i fun l => { l with set := k, parcel := p } } else n
      | _ => n) n) n

/-! ## The map cache (R488) -/

/-- The map lines a command's start needs: level-1 parts, leaves, and the written maps of backed parcels. -/
def linesOf (nsid : Nat) (n : Ns) (rs : List (Nat × Nat)) : List Nat :=
  (rs.flatMap fun r => if r.2 = 0 then [] else
    ((List.range ((r.1 + r.2 - 1) / perParcel n + 1 - r.1 / perParcel n)).map (r.1 / perParcel n + ·)).flatMap fun i =>
      [3 * (nsid * 4 + i / 1048576) + 1, 3 * (nsid * 4096 + i / 1024)]
        ++ (match leafOf n i with | some l => [3 * (l.wmap / 64) + 2] | none => [])).eraseDups

/-- Look lines up: a hit sets the line's CLOCK bit, a miss starts a fill of at most 1 µs. -/
def lookLines (ls : List Nat) (s : State) : List Nat × State :=
  ls.foldl (fun (a : List Nat × State) l =>
    if tabHas a.2.vol.lines l then (a.1, count1 3080 (a.2.onVol fun v => { v with lines := tabIns v.lines l true }))
    else (a.1 ++ [l], count1 3081 (a.2.onVol fun v => { v with fills := if tabHas v.fills l then v.fills else tabIns v.fills l (a.2.clk.now + 1000) }))) ([], s)

/-! ## Blocks -/

/-- Set, set record and set data byte of a block of a namespace. -/
def blockLoc (s : State) (n : Ns) (lba : Nat) : Option (Nat × VSet × Nat) :=
  (spanByte n (lba / perSpan n)).bind fun p => (s.vset p.1).map fun v => (p.1, v, p.2 + (if n.lbaf < 2 then 512 * (lba % 8) else 0))

/-- The key under which a command keeps its view of a buffered page of tag zone entries. -/
def tzKey (set_ tb : Nat) : Nat := 2 ^ 60 + set_ * 2 ^ 40 + tb

/-- The page that a command's data for a span goes to: its own page, not queued; none where the page was freed (R521). A
page queued in the meantime gives way to a new version (R518). -/
def ownPage (t ns : Nat) (n : Ns) (span : Nat) (s : State) : Option Nat × State :=
  let mine := match s.cmdOf t with
    | some c => c.pages.filter fun p => match s.page p with | some x => decide (x.ns = ns) && decide (x.span = span) | none => false
    | none => []
  match mine with
  | [] => (none, s)
  | _ => match mine.find? fun p => match s.page p with | some x => x.st != .queued | none => false with
    | some p => (some p, s)
    | none => if usedPages s < pageCount then
        let s := claimPage t ns n span s
        (openPage s ns span, s)
      else (none, s)

/-- A block enters the buffer with its tag zone entry where it has one, and is mirrored (R515, R520, R523, R657). The block
it replaces is noted for R275. -/
def enterBlk (t nsid : Nat) (n : Ns) (lba : Nat) (b : PBlk) (s : State) : State :=
  match ownPage t nsid n (lba / perSpan n) s with
  | (none, s) => s
  | (some p, s) =>
    let i := lba % perSpan n
    let old := (s.page p).bind fun x => tabFind x.blks i
    let s := onCmd t (fun c => { c with displaced := if tabHas c.displaced lba then c.displaced else tabIns c.displaced lba old, moved := true }) s
    let s := shadow .mirrorWrite p lba (count 3584 (nsBlkBytes n) (putBlk p i b s))
    if !usesTagZone n then s
    else match blockLoc s n lba with
      | none => s
      | some (i, v, x) =>
        let (tb, e, st, _, _) := tzPlace v x
        match tagPage i st tb s with
        | (some q, s) => shadow .mirrorWrite q e (putBlk q e b s)
        | (none, s) => s

/-- A block cannot enter the buffer now: its page has been queued, or its tag zone entry has no page, and no page is FREE. -/
def noRoom (t nsid : Nat) (n : Ns) (lba : Nat) (s : State) : Bool :=
  let sp := lba / perSpan n
  let mine := match s.cmdOf t with
    | some c => c.pages.filterMap fun p => (s.page p).bind fun x => if x.ns = nsid && x.span = sp then some x else none
    | none => []
  let lackData := !mine.isEmpty && mine.all fun x => x.st = .queued && (openPage s nsid sp).isNone
  let lackTag := (tagSpans s n [sp]).any fun k => (openPage s 0 k).isNone
  let need := (if lackData then 1 else 0) + if lackTag then 1 else 0
  decide (0 < need) && !mine.isEmpty && decide (pageCount < usedPages s + need)

/-- Seal a block and enter it; none while no core can seal it (R661), or the buffer has no page for it. -/
def sealEnter (t nsid : Nat) (n : Ns) (order lba : Nat) (h : HBlk) (s : State) : Option State :=
  if noRoom t nsid n lba s then none else match sealBlk nsid n lba h order s with
  | (none, _) => none
  | (some b, s) => some (enterBlk t nsid n lba b s)

/-- Enter several blocks, all or none. -/
def sealAll (t nsid : Nat) (n : Ns) (order : Nat) : List (Nat × HBlk) → State → Option State
  | [], s => some s
  | (lba, h) :: xs, s => match sealEnter t nsid n order lba h s with | none => none | some s => sealAll t nsid n order xs s

/-- A zero block as if a host had written it, with generated PI where the namespace has PI (R470). DEDUCED (log 64, unsafe). -/
def zeroBlk (n : Ns) (lba : Nat) : HBlk := ⟨0, if hasPi n then makePi (nsBlkBytes n) 0 0 (lba % 2 ^ 32) else 0⟩

/-- Blocks of an extent outside some ranges. -/
def fillLbas (n : Ns) (rs : List (Nat × Nat)) (e : Nat) : List Nat :=
  ((List.range (perExtent n)).map (e * perExtent n + ·)).filter fun l => !rs.any fun r => decide (r.1 ≤ l) && decide (l < r.1 + r.2)

/-- Change the written bit of an extent of a namespace (R466). -/
def setWritten (nsid e : Nat) (b : Bool) (s : State) : State :=
  let upd := fun (l : Leaf) => { l with written := if b then l.written ||| 2 ^ (e % 1024) else if l.written.testBit (e % 1024) then l.written - 2 ^ (e % 1024) else l.written }
  shadow .mirrorState 6 e (s.onVol fun v => { v with
    deltas := v.deltas.or (some s.clk.now),
    ns := tabUpd v.ns nsid fun n => { n with map := tabUpd n.map (e / 1024) upd } })

/-- The written bit of an extent. -/
def extentWritten (n : Ns) (e : Nat) : Bool := match leafOf n (e / 1024) with | some l => l.written.testBit (e % 1024) | none => false

/-- The spans of a list of blocks ranges, and of whole extents. -/
def claimSpans (n : Ns) (rs : List (Nat × Nat)) (es : List Nat) : List Nat :=
  ((rs.flatMap fun (r : Nat × Nat) => spansOf n r.1 r.2) ++ es.flatMap fun e => (List.range 256).map (e * 256 + ·)).eraseDups

/-- The start order of the command of a tag. -/
def orderOf (s : State) (t : Nat) : Nat := match s.cmdOf t with | some c => c.order | none => 0

/-- Wait in the space queue, in start order (R519). -/
def joinSpace (t : Nat) (s : State) : State :=
  if s.wbf.space.contains t then s
  else
    let s := doIf s.wbf.space.isEmpty (raise 450 0) (count1 3592 s)
    let before := fun (x : Nat) => decide (orderOf s x < orderOf s t)
    onCmd t (fun c => { c with phase := .space }) (s.onWbf fun w => { w with space := w.space.filter before ++ [t] ++ w.space.filter fun x => !before x })

/-- Room for a claim, and no earlier command waits (R519). -/
def claimOk (s : State) (t ns : Nat) (n : Ns) (spans : List Nat) : Bool :=
  (match s.wbf.space with | [] => true | x :: _ => decide (x = t) || decide (orderOf s t < orderOf s x)) && decide (usedPages s + claimCount s ns n spans ≤ pageCount)

/-- Claim the pages of some spans for a command, with those of their tag zone entries (R657). DEDUCED (log 58, unsafe). -/
def claimAll (t ns : Nat) (n : Ns) (spans : List Nat) (s : State) : State :=
  forAll (tagSpans s n spans) (fun k s => match s.vset (k / 2 ^ 40) with
    | some v => (tagPage (k / 2 ^ 40) (dataStripes v + (place v (k % 2 ^ 40 * 4096)).1) (k % 2 ^ 40) s).2
    | none => s) (forAll spans (claimPage t ns n) (s.onWbf fun w => { w with space := w.space.erase t }))

/-! ## Reads -/

/-- The blocks that a command reads, in order. -/
def readLbas (c : HostCmd) : List Nat := (readRanges c).flatMap fun r => (List.range r.2).map (r.1 + ·)

/-- The buffered pages that hold some block of ranges (R418). -/
def bufferedIn (s : State) (nsid : Nat) (n : Ns) (rs : List (Nat × Nat)) : List Nat :=
  let sp := rs.flatMap fun r => spansOf n r.1 r.2
  (s.wbf.pages.filter fun e => e.2.ns = nsid && e.2.st != .reserved && sp.contains e.2.span).map (·.1)

/-- Group spans that follow one another in one strip: set, stripe, data strip, first block, blocks, first span. -/
def groupSpans (s : State) (n : Ns) (spans : List Nat) : List (Nat × Nat × Nat × Nat × Nat × Nat) :=
  (spans.foldl (fun (acc : List (Nat × Nat × Nat × Nat × Nat × Nat)) sp =>
    match blockLoc s n (sp * perSpan n) with
    | none => acc
    | some (i, v, x) =>
      let (st, j, b) := place v x
      match acc with
      | (i', st', j', b', k', sp') :: r =>
        if i = i' && st = st' && j = j' && b = b' + k' && sp = sp' + k' then (i', st', j', b', k' + 1, sp') :: r else (i, st, j, b, 1, sp) :: acc
      | [] => [(i, st, j, b, 1, sp)]) []).reverse

/-- A read that the command needs has failed: its blocks are not served (R444). -/
def readFailed (t : Nat) (spans tzs : List Nat) (s : State) : State :=
  onCmd t (fun c => { c with status := .unrecoveredRead, dnr := true, need := c.need.filter fun x => !spans.contains x,
                             tzNeed := c.tzNeed.filter fun x => !tzs.contains x }) s

/-- Read groups of spans from the members, with the bad-range hits refused (R594). -/
def readGroups (t gen cls sub : Nat) (gs : List (Nat × Nat × Nat × Nat × Nat × Nat)) (s : State) : State :=
  forAll gs (fun g s =>
    let (i, st, j, b, k, sp) := g
    match s.vset i with
    | none => s
    | some v =>
      let m := dataMember v st j
      let spans := (List.range k).map (sp + ·)
      if (List.range k).any fun x => (badAt v st m (b + x)).isSome then
        readFailed t spans [] (doIf (match s.cmdOf t with | some c => c.status = .success | none => false) (count1 4205) s)
      else
        let (ok, s) := readStrip i v st m b k cls sub (.host t gen sp false) s
        if ok then s else readFailed t spans [] s) s

/-- Read tag zone blocks from the members. -/
def readTags (t gen cls sub : Nat) (ks : List Nat) (s : State) : State :=
  forAll ks (fun key s =>
    let i := (key - 2 ^ 60) / 2 ^ 40
    match s.vset i with
    | none => s
    | some v =>
      let (n, j, b) := place v ((key % 2 ^ 40) * 4096)
      let (ok, s) := readStrip i v (dataStripes v + n) (dataMember v (dataStripes v + n) j) b 1 cls sub (.host t gen key true) s
      if ok then s else readFailed t [] [key] s) s

/-- Take the command's view of the buffer and of the map, and read the rest from the members (R416, R466, R521). -/
def serveRead (t : Nat) (c : Cmd) (n : Ns) (s : State) : State :=
  let nsid := c.cmd.a.nsid
  let lbas := readLbas c.cmd
  let spans := (lbas.map (· / perSpan n)).eraseDups
  let zeros := spans.filter fun sp => !spanWritten n sp
  let live := spans.filter fun sp => spanWritten n sp
  let want := fun (sp : Nat) => lbas.filter fun l => l / perSpan n = sp
  let bufs := live.map fun sp => (sp, (bufferBlks s nsid sp).filter fun b => (want sp).contains (sp * perSpan n + b.1))
  let need := (bufs.filter fun e => e.2.length < (want e.1).eraseDups.length).map (·.1)
  let tz := if !usesTagZone n then [] else
    ((need.flatMap want).filterMap fun l => (blockLoc s n l).map fun (i, v, x) => tzKey i (tzPlace v x).1).eraseDups
  let tzBuf := tz.map fun k => (k, bufferBlks s 0 (k - 2 ^ 60))
  let buf : Tab (Tab PBlk) := (bufs ++ tzBuf).foldl (fun a e => tabIns a e.1 e.2) []
  let s := count 3079 (zeros.flatMap want).length s
  let s := doIf (c.cmd.op = .read && need.isEmpty && zeros.isEmpty) (count1 2572) s
  let s := onCmd t (fun c => { c with phase := .run, zeros := zeros, buf := buf, need := need, tzNeed := tz }) s
  readTags t c.gen c.cls c.sub tz (readGroups t c.gen c.cls c.sub (groupSpans s n need) s)

/-- The block a command reads at `lba`: none where it reads as zero (R466). -/
def blockOf (s : State) (c : Cmd) (n : Ns) (lba : Nat) : Option PBlk :=
  let sp := lba / perSpan n
  let i := lba % perSpan n
  if c.zeros.contains sp then none
  else match (tabFind c.buf sp).bind fun t => tabFind t i with
    | some b => some b
    | none =>
      let entry := if !usesTagZone n then 0 else match blockLoc s n lba with
        | none => 0
        | some (st, v, x) =>
          let (tb, e, _, _, _) := tzPlace v x
          match (tabFind c.buf (tzKey st tb)).bind fun t => tabFind t e with
          | some b => b.entry
          | none => match tabFind c.tz (tzKey st tb) with | some b => b.d >>> (256 * e) % 2 ^ 256 | none => 0
      some (blkOfMember n i (tabGet ⟨0, 0, true⟩ c.raw sp) entry)

/-- Decipher and check the blocks that a command has read; the status of the first that fails (R444, R480, R658). -/
def openAll (c : Cmd) (nsid : Nat) (n : Ns) (check_ : Bool) : Nat → List Nat → State → List HBlk × Option NvStatus × State
  | _, [], s => ([], none, s)
  | i, l :: ls, s =>
    match blockOf s c n l with
    | none => let (hs, f, s) := openAll c nsid n check_ (i + 1) ls s; (⟨0, 0⟩ :: hs, f, s)
    | some b =>
      if b.poison then ([], some .unrecoveredRead, s)
      else match openBlk nsid n l b s with
        | (none, s) => ([], some .unrecoveredRead, s)
        | (some h, s) => match (if check_ then checkPi n c.cmd.a i h else none) with
          | some f => ([], some f, s)
          | none => let (hs, f, s) := openAll c nsid n check_ (i + 1) ls s; (h :: hs, f, s)

/-- The wire image of blocks: data bytes, then PI where it is sent. -/
def wireData (n : Ns) (a : IoCmd) (hs : List HBlk) : Nat :=
  let k := wireBytes n a
  (hs.foldl (fun (acc : Nat × Nat) h =>
    (acc.1 ||| ((h.d ||| (if k = nsBlkBytes n then 0 else h.pi <<< (8 * nsBlkBytes n))) <<< (8 * k * acc.2)), acc.2 + 1)) (0, 0)).1

/-- The command's data done moment has come (R302): it is covered by what was shadowed last. -/
def makeReady (t : Nat) (s : State) : State := onCmd t (fun c => { c with ready := true, done := true, seq := s.cover }) s

/-- Finish a Copy: deciphered blocks are enciphered for their destination and enter the buffer (R486). PRESUMED (log 65, unsafe). -/
def copyOut (t : Nat) (c : Cmd) (n : Ns) (hs : List HBlk) (s : State) : Option State :=
  let nsid := c.cmd.a.nsid
  let out := (List.range hs.length).filterMap fun i =>
    let l := c.cmd.a.slba + i
    if extentWritten n (l / perExtent n) then
      let h := hs.getD i ⟨0, 0⟩
      some (l, if hasPi n then ⟨h.d, makePi (nsBlkBytes n) h.d (revBytes 2 (h.pi >>> 16 % 65536)) (if n.pit = 1 then l % 2 ^ 32 else revBytes 4 (h.pi >>> 32))⟩ else h)
    else none
  sealAll t nsid n c.order out s

/-- Whether the writes through a controller behave as FUA (R56, R410 FID 06h, R417, R525). DEDUCED (log 60, unsafe). -/
def fuaMode (s : State) (a : IoCmd) : Bool :=
  a.fua || s.res.low || (s.wbf.unpfua && !s.pair.paired) || (match ctrlOf s a.ctx with | some k => !k.vwc | none => false)

/-- The data of a write-type command is wholly in the buffer: it is done, or, under FUA, its bins are destaged first
(R417, R527). -/
def dataWhole (t : Nat) (s : State) : State :=
  match s.cmdOf t with
  | none => s
  | some c =>
    let s := onCmd t (fun c => { c with done := true, seq := s.cover }) s
    let ps := withTags s (c.pages.filter fun p => (s.page p).isSome)
    let bins := (ps.filterMap s.page).map fun p => (p.set, p.stripe)
    if fuaMode s c.cmd.a && !ps.isEmpty && c.status = .success then
      queuePages ps c.cls true (count1 3590 (count1 2574 (onCmd t (fun c => { c with waitPg := ps }) s)))
    else checkFull bins.eraseDups (makeReady t s)

/-- A block that a member gave fails its tag: it is reconstructed (R659); false where it has been already, or cannot be. -/
def retryTag (t : Nat) (c : Cmd) (n : Ns) (s : State) : Bool × State :=
  let bad := (readLbas c.cmd).find? fun l =>
    !c.zeros.contains (l / perSpan n) && decide (tabGet 99 c.src (l / perSpan n) < 64) && match blockOf s c n l with
      | some b => !b.poison && (openBlk c.cmd.a.nsid n l b s).1.isNone
      | none => false
  match bad with
  | none => (false, s)
  | some l => match blockLoc s n l with
    | none => (false, s)
    | some (i, v, x) =>
      let (st, j, b) := place v x
      let sp := l / perSpan n
      let m := tabGet 0 c.src sp
      let (ok, s) := startRecon i v st (if isMirror v then m else dataMember v st j) b 1 c.cls c.sub (.host t c.gen sp false) none false false [m] s
      (ok, if ok then onCmd t (fun c => { c with need := c.need ++ [sp], src := tabIns c.src sp (64 + m) }) s else s)

/-- Blocks that were reconstructed for a failed tag and now verify are written back to their member in S4 (R659, R564). -/
def repairTags (c : Cmd) (n : Ns) (s : State) : State :=
  forAll (c.src.filter fun e => decide (64 ≤ e.2)) (fun e s =>
    match blockLoc s n (e.1 * perSpan n) with
    | none => s
    | some (i, v, x) =>
      let (st, _, b) := place v x
      let m := e.2 - 64
      let sl := ((v.mem m).slot).getD 0
      issue ⟨sl, i, m, st, b, true, stripLba v st b, 1, 4, 2048, false, [tabGet Blk.zero c.raw e.1], .repair, none, none, none, [], none, false, false, none, 0, 0, false⟩
        (count1 (4168 + sl) s)) s

/-- A command that gathers has gathered all: its data moves, is compared, checked or written (R302, R420). A command whose
connection is gone only ends (R275). -/
def conclude (t : Nat) (s : State) : State :=
  match s.cmdOf t with
  | none => s
  | some c =>
    if c.phase != .run || c.ready || c.done || !c.need.isEmpty || !c.tzNeed.isEmpty || decide (c.left ≠ 0) then s
    else if !(readsForResv c.cmd.op || c.cmd.op = .copy) then s
    else if c.gone && c.cmd.op != .copy then freeTag t c s
    else match s.nsFor c with
      | none => s
      | some n =>
        let nsid := c.cmd.a.nsid
        let stop := fun (f : NvStatus) (s : State) => makeReady t (onCmd t (fun c => { c with status := f, dnr := f.dnrBit }) s)
        if c.status != .success then stop c.status s
        else match openAll c nsid n (c.cmd.op != .copy && c.cmd.op != .compare) 0 (readLbas c.cmd) s with
          | (_, some f, s) => (match (if f = .unrecoveredRead then retryTag t c n s else (false, s)) with
            | (true, s) => s
            | (false, s) => stop f s)
          | (hs, none, s) =>
            let s := repairTags c n s
            match c.cmd.op with
            | .read =>
              let len := c.cmd.a.nlb * wireBytes n c.cmd.a
              let s := count 2570 (c.cmd.a.nlb * nsBlkBytes n) s
              match homedOf s t c.gen with
              | some (q, ft, fg) => makeReady t (sendPieces .fwdRead q ft fg 0 len (wireData n c.cmd.a hs) s)
              | none =>
                let s := sendData c.cmd.a.ctx c.cmd.a.cid len (wireData n c.cmd.a hs) c.cmd.a.sgl (t, c.gen) s
                makeReady t (onCmd t (fun c => { c with moved := true }) s)
            | .compare =>
              let same := (List.range hs.length).all fun i => tabFind c.host i = some (if hasPi n && !c.cmd.a.pract then hs.getD i ⟨0, 0⟩ else ⟨(hs.getD i ⟨0, 0⟩).d, 0⟩)
              if same then makeReady t s else stop .compareFailure s
            | .copy => match copyOut t c n hs s with
              | none => s
              | some s => dataWhole t s
            | _ => makeReady t s

/-! ## Placing a command -/

/-- The host data of a command that still has to come: RDMA READ Requests or R2Ts of at most 1 MiB, in order (R298, R354);
in-capsule data comes of itself, and a forwarded command asks its arrival module (R787). -/
def askData (t : Nat) (c : Cmd) (n : Ns) (s : State) : State :=
  let len := c.cmd.a.nlb * wireBytes n c.cmd.a
  let s := onCmd t (fun c => { c with left := c.cmd.a.nlb }) s
  match homedOf s t c.gen with
  | some (q, ft, fg) => (chunks 5 1048576 0 len).foldl (fun s k => sendTo q { kind := .fwdDataReq, a := q, b := ft, c := fg, ws := [word k.1, word k.2] } s) s
  | none => match c.cmd.a.sgl with
    | .inCapsule _ => s
    | _ => onCtx c.cmd.a.ctx (fun x => { x with readq := x.readq ++ (chunks 5 1048576 0 len).map fun k => (t, k.1, k.2) }) s

/-- The READ Requests or R2Ts still to send: the first cut where a take-over's recorded SEND takes a PSN that it would ask for (R750). -/
def cutRead (x : Ctx) : List (Nat × Nat × Nat) :=
  match x.fillH, x.readq with
  | some h, (t, o, n) :: rs =>
    let run := fillRun x h
    if run < psnsOf x.mtu n then (t, o, run * x.mtu) :: (t, o + run * x.mtu, n - run * x.mtu) :: rs else x.readq
  | _, q => q

/-- Send the READ Requests or R2Ts that the context's depth allows (R285, R354). -/
def pumpReads : Nat → Nat → State → State
  | 0, _, s => s
  | fuel + 1, c, s =>
    let s := sendRecorded ((s.ctx c).sends.length + 1) c s
    let x := s.ctx c
    match cutRead x with
    | [] => s
    | r :: rs =>
      let mine := (x.readOut.filter fun q => q.1 = r.1).length
      let ok := if x.tcp then decide (x.readOut.length < 64) && decide (mine < min 4 x.maxr2t) else decide (x.reads < x.depth)
      if x.st != .ready || !ok then s
      else
        let s := onCtx c (fun x => { x with readq := rs, readOut := x.readOut ++ [r], reads := x.reads + 1, rdAt := if x.tcp then [] else x.rdAt ++ [x.npsn] }) s
        let cls := (s.cmdOf r.1).map (·.cls)
        let m : OutMsg := { kind := if x.tcp then .r2t else .rdmaRead, a := c, b := r.1, ws := [word r.2.1, word r.2.2] }
        pumpReads fuel c (if x.tcp then tcpSend c (pduBytes x 24 0) cls m s
          else
            let k := psnsOf x.mtu r.2.2
            let s := coverHorizon c k s
            (paceCtx c r.2.2 (emitCtx c cls [0] { m with c := x.npsn } (count1 2049 (onCtx c (fun x =>
              { x with npsn := (x.npsn + k) % 2 ^ 24, toAt := some (x.toAt.getD (s.clk.now + ackTimeout s)) }) s)))).2)

/-- The parcel at a block range is held for a migration's last steps, up to the flip (R498 steps 3 to 6). -/
def migrationHolds (s : State) (nsid : Nat) (n : Ns) (rs : List (Nat × Nat)) : Bool :=
  match s.vol.mig with
  | none => false
  | some m => decide (m.ns = nsid) && decide (3 ≤ m.step) && decide (m.step ≤ 5) && rs.any fun r => decide (0 < r.2) && decide (r.1 / perParcel n ≤ m.index) && decide (m.index ≤ (r.1 + r.2 - 1) / perParcel n)

/-- The source of a Copy's part that lands in an extent reads as zero throughout (R469). -/
def copyZero (n : Ns) (a : IoCmd) (e : Nat) : Bool :=
  let lbas := a.ranges.flatMap fun r => (List.range r.2).map (r.1 + ·)
  (List.range lbas.length).all fun i => (a.slba + i) / perExtent n != e || !extentWritten n (lbas.getD i 0 / perExtent n)

/-- Place a Write or a Copy: grants, written bits with their zero fills, and pages (R467–R470, R518). -/
def placeWrite (t : Nat) (c : Cmd) (n : Ns) (s : State) : State :=
  let nsid := c.cmd.a.nsid
  let rs := writeRanges c.cmd
  let es := (extentsOf n rs).filter fun e => !(c.cmd.op = .copy && (fillLbas n rs e).isEmpty && copyZero n c.cmd.a e && !extentWritten n e)
  let lack := ((es.map (· / 1024)).eraseDups).filter fun i => (leafOf n i).isNone
  match grantAll nsid false s lack with
  | none => failCmd t .capacityExceeded (noteRefused nsid false lack s)
  | some s => match s.nsOf nsid with
    | none => s
    | some n =>
      let fill := es.filter fun e => !extentWritten n e
      let spans := claimSpans n (if c.cmd.op = .copy then [] else rs) (if c.cmd.op = .copy then es else fill)
      if !claimOk s t nsid n spans then joinSpace t s
      else
        let s' := claimAll t nsid n spans s
        let s' := forAll fill (fun e => setWritten nsid e true) (count 3077 fill.length s')
        match sealAll t nsid n c.order (fill.flatMap fun e => (fillLbas n rs e).map fun l => (l, zeroBlk n l)) s' with
        | none => s
        | some s =>
          let s := onCmd t (fun c => { c with phase := .run, fills := fill, moved := false }) s
          match c.cmd.op with
          | .copy => match s.nsFor c with | some n => conclude t (serveRead t c n s) | none => s
          | _ => pumpReads 8 c.cmd.a.ctx (askData t c n s)

/-- Place a Write Zeroes or a deallocate: extents covered whole are cleared, partly covered written extents take zero
blocks, and parcels left without a written extent are returned (R469, R471, R472, R521). -/
def placeClear (t : Nat) (c : Cmd) (n : Ns) (s : State) : State :=
  let nsid := c.cmd.a.nsid
  let rs := writeRanges c.cmd
  let clears := c.cmd.op = .dsm || decide (c.cmd.a.deac ≤ 1)
  let es := (extentsOf n rs).filter (extentWritten n)
  let whole := fun (e : Nat) => (fillLbas n rs e).isEmpty
  let full := es.filter fun e => clears && whole e
  let part := es.filter fun e => !(clears && whole e)
  let lbas := part.flatMap fun e => ((List.range (perExtent n)).map (e * perExtent n + ·)).filter fun l => rs.any fun r => decide (r.1 ≤ l) && decide (l < r.1 + r.2)
  let spans := (lbas.map (· / perSpan n)).eraseDups
  if !claimOk s t nsid n spans then joinSpace t s
  else
    match sealAll t nsid n c.order (lbas.map fun l => (l, zeroBlk n l)) (claimAll t nsid n spans s) with
    | none => s
    | some s =>
      let s := forAll full (fun e => setWritten nsid e false) (count 3078 full.length s)
      let dead := (s.wbf.pages.filter fun p => p.2.ns = nsid && full.contains (p.2.span / 256) && p.2.st != .queued).map (·.1)
      let s := forAll dead freePage s
      let idx := ((extentsOf n rs).map (· / 1024)).eraseDups
      let gives := c.cmd.op = .dsm || c.cmd.a.deac = 1
      let s := forAll idx (fun i s => match (s.nsOf nsid).bind fun n => leafOf n i with
        | some l => if gives && !n.thick && l.written = 0 then returnParcel nsid i s else s
        | none => s) s
      let s := onCmd t (fun c => { c with phase := .run }) s
      let s := shadow .mirrorState 5 nsid s
      dataWhole t s

/-- Place a Flush: the pages that earlier writes put their blocks into are queued, and it waits for them (R419). -/
def placeFlush (t : Nat) (c : Cmd) (s : State) : State :=
  let inScope := fun (ns : Nat) => if c.cmd.a.nsid = 0xFFFFFFFF then
      (match s.nsOf ns with | some n => attachedTo s c.cmd.a.ctx n | none => false) else decide (ns = c.cmd.a.nsid)
  let ps := withTags s ((s.wbf.pages.filter fun p => p.2.ns ≠ 0 && inScope p.2.ns && p.2.st != .reserved
    && p.2.blks.any fun b => decide (b.2.order < c.order)).map (·.1))
  let s := onCmd t (fun c => { c with phase := .run, waitPg := ps }) s
  if ps.isEmpty then makeReady t s else queuePages ps c.cls true (count1 3590 s)

/-- The reservation types that an Acquire may name. -/
def resvTypeOk (r : Nat) : Bool := decide (1 ≤ r) && decide (r ≤ 6)

/-- All registrants hold the reservation. -/
def allRegs (r : Nat) : Bool := r = 5 || r = 6

/-- The outcome of a reservation command against the namespace's state: status, the state after it, and the Host
Identifiers it preempts (R424–R428). -/
def resvOutcome (s : State) (host : Nat) (c : HostCmd) (r : Resv) : NvStatus × Resv × List Nat :=
  let a := c.a
  let mine := r.regs.find? fun g => g.1 = host
  let holds := if allRegs r.rtype then mine.isSome else decide (r.holder = some host)
  let drop := fun (r : Resv) => { r with holder := none, rtype := 0 }
  let unreg := fun (hs : List Nat) (r : Resv) =>
    let regs := r.regs.filter fun g => !hs.contains g.1
    let gone := if allRegs r.rtype then regs.isEmpty else (match r.holder with | some h => hs.contains h | none => false)
    let r := { r with regs := regs, gen := (r.gen + 1) % 2 ^ 32 }
    if gone then drop r else r
  match c.op with
  | .resRegister =>
    match a.action with
    | 0 => match mine with
      | some g => if g.2 = a.prkey then (.success, r, []) else (.reservationConflict, r, [])
      | none => if 2048 ≤ r.regs.length || 65536 ≤ s.nvm.regs then (.invalidField, r, [])
          else (.success, { r with regs := r.regs ++ [(host, a.prkey)], gen := (r.gen + 1) % 2 ^ 32 }, [])
    | 1 => match mine with
      | some g => if a.iekey || g.2 = a.crkey then (.success, unreg [host] r, []) else (.reservationConflict, r, [])
      | none => (.reservationConflict, r, [])
    | 2 =>
      let put := fun (_ : Unit) => { r with regs := (r.regs.filter fun g => g.1 != host) ++ [(host, a.prkey)], gen := (r.gen + 1) % 2 ^ 32 }
      match mine with
      | some g => if a.iekey || g.2 = a.crkey then (.success, put (), []) else (.reservationConflict, r, [])
      | none => if !a.iekey then (.reservationConflict, r, [])
          else if 2048 ≤ r.regs.length || 65536 ≤ s.nvm.regs then (.invalidField, r, []) else (.success, put (), [])
    | _ => (.invalidField, r, [])
  | .resAcquire =>
    if !resvTypeOk a.rtype || 2 < a.action then (.invalidField, r, [])
    else match mine with
    | none => (.reservationConflict, r, [])
    | some g =>
      if !a.iekey && g.2 != a.crkey then (.reservationConflict, r, [])
      else if a.action = 0 then
        if r.rtype = 0 then (.success, { r with holder := some host, rtype := a.rtype }, [])
        else if holds && r.rtype = a.rtype then (.success, r, []) else (.reservationConflict, r, [])
      else
        let keyed := (r.regs.filter fun g => g.2 = a.prkey).map (·.1)
        let holderKeyed := match r.holder with | some h => keyed.contains h | none => false
        let others := fun (hs : List Nat) => hs.filter (· != host)
        if r.rtype = 0 then
          if keyed.isEmpty then (.reservationConflict, r, []) else (.success, unreg (others keyed) r, others keyed)
        else if allRegs r.rtype then
          if a.prkey = 0 then
            let hs := others (r.regs.map (·.1))
            (.success, { unreg hs r with holder := some host, rtype := a.rtype }, hs)
          else if keyed.isEmpty then (.reservationConflict, r, []) else (.success, unreg (others keyed) r, others keyed)
        else if holderKeyed then
          (.success, { unreg (others keyed) r with holder := some host, rtype := a.rtype }, others keyed)
        else if keyed.isEmpty then (.reservationConflict, r, []) else (.success, unreg (others keyed) r, others keyed)
  | .resRelease =>
    match mine with
    | none => (.reservationConflict, r, [])
    | some g =>
      if !a.iekey && g.2 != a.crkey then (.reservationConflict, r, [])
      else match a.action with
        | 0 => if r.rtype = 0 || !holds then (.success, r, [])
            else if r.rtype = a.rtype then (.success, drop r, []) else (.invalidField, r, [])
        | 1 => (.success, { drop r with regs := [], gen := (r.gen + 1) % 2 ^ 32 }, (r.regs.map (·.1)).filter (· != host))
        | _ => (.invalidField, r, [])
  | _ => if a.eds then (.success, r, []) else (.hostIdFormat, r, [])

/-- The Host Identifier a command acts for. -/
def hostOf (s : State) (c : HostCmd) : Nat := if c.a.ctx < 65536 then hostIdOf s c.a.ctx else c.a.ctx / 65536 - 1

/-- The Host Identifier a started command acts for, which a forwarded command carries in `ctx` (R786). -/
def cmdHost (s : State) (c : Cmd) : Nat := hostOf s c.cmd

/-- Abort a started command where nothing has moved and nothing was dispatched (Table 9.9): true where it was cancelled. -/
def cancel (t : Nat) (s : State) : Bool × State :=
  match s.cmdOf t with
  | none => (false, s)
  | some c =>
    if c.moved || c.disp || c.ready || c.done || (c.phase = .run && writes c.cmd.op) then (false, s)
    else
      let s := s.onDrv fun d => { d with cmds := d.cmds.filter fun e => !(match e.2.use with | .host tag gen _ _ => tag = t && gen = c.gen && e.2.at_.isNone | _ => false) }
      let own := (s.wbf.pages.filter fun p => p.2.users = [t] && p.2.st = .reserved && p.2.blks.isEmpty).map (·.1)
      (true, failCmd t .abortRequested (forAll own freePage s))

/-- Remove the not-started commands of a subscriber's queue that `p` selects, each completing with a status. -/
def dropDeferred (p : HostCmd → Bool) (st : Option NvStatus) (s : State) : State :=
  forAll (s.qos.subs.map (·.1)) (fun i s =>
    let q := (s.sub i).queue
    let s := setDeferred i (q.filter fun d => !p d.cmd) s
    match st with
    | none => s
    | some f => forAll (q.filter fun d => p d.cmd) (fun d s => completeOn d.cmd.a.ctx d.cmd.a.cid f 0 s) s) s

/-- Place a reservation command: an Acquire with preempt-and-abort applies Table 9.9 to the commands of the hosts it
preempts, and waits for those that run on (R428). -/
def placeResv (t : Nat) (c : Cmd) (n : Ns) (s : State) : State :=
  let (st, _, hs) := resvOutcome s (cmdHost s c) c.cmd n.resv
  let s := onCmd t (fun c => { c with phase := .run, status := st, dnr := st.dnrBit }) s
  if c.cmd.op = .resAcquire && c.cmd.a.action = 2 && st = .success then
    let theirs := fun (x : HostCmd) => decide (x.a.nsid = c.cmd.a.nsid) && hs.contains (hostOf s x)
    let s := dropDeferred theirs (some .abortRequested) s
    let ts := (s.nvm.tags.filter fun e => e.1 != t && decide (e.2.cmd.a.nsid = c.cmd.a.nsid) && hs.contains (cmdHost s e.2)).map (·.1)
    let s := forAll ts (fun x s => (cancel x s).2) s
    let left := (s.nvm.tags.filter fun e => ts.contains e.1).map fun e => e.2.order
    if left.isEmpty then makeReady t s else onCmd t (fun c => { c with preempt := left }) s
  else makeReady t s

/-- Place a command that nothing holds back. -/
def placeCmd (t : Nat) (s : State) : State :=
  match s.cmdOf t with
  | none => s
  | some c =>
    if c.cmd.op = .flush then placeFlush t c s
    else match s.nsFor c with
      | none => s
      | some n =>
        match c.cmd.op with
          | .write | .copy => placeWrite t c n s
          | .writeZeroes | .dsm => placeClear t c n s
          | .read =>
            let ps := if c.cmd.a.fua then withTags s (bufferedIn s c.cmd.a.nsid n (readRanges c.cmd)) else []
            if ps.isEmpty then conclude t (serveRead t c n s)
            else queuePages ps c.cls true (count1 3590 (onCmd t (fun c => { c with phase := .order, waitPg := ps }) s))
          | .compare => conclude t (pumpReads 8 c.cmd.a.ctx (askData t c n (serveRead t c n s)))
          | .verify => conclude t (serveRead t c n s)
          | _ => placeResv t c n s

/-- The lines of an earlier command of the same namespace are still to come: the start order is kept. -/
def mapBehind (s : State) (c : Cmd) : Bool :=
  s.nvm.tags.any fun e => decide (e.2.order < c.order) && e.2.phase = .map && decide (e.2.cmd.a.nsid = c.cmd.a.nsid) && !e.2.lines.isEmpty

/-- What a waiting command can do now. -/
def settleOne (t : Nat) (s : State) : State :=
  match s.cmdOf t with
  | none => s
  | some c => match c.phase with
    | .map => if c.lines.isEmpty && !mapBehind s c then
        if blocked s c then onCmd t (fun c => { c with phase := .order }) s else placeCmd t s
      else s
    | .order => if c.waitPg.isEmpty && !blocked s c then placeCmd t s else s
    | .run =>
      if c.ready then s
      else if c.done && c.waitPg.isEmpty && writes c.cmd.op then onCmd t (fun c => { c with ready := true }) s
      else if c.cmd.op = .flush && c.waitPg.isEmpty then makeReady t s
      else if isResv c.cmd.op && c.preempt.isEmpty then makeReady t s
      else conclude t s
    | _ => s

/-- Let every started command go on as far as it can, in start order. -/
def settleCmds (s : State) : State := forAll ((byOrder s.nvm.tags).map (·.1)) settleOne s

end Sys2Proof.Machine
end

