-- ==== Sys2Proof/Machine/Host.lean ====
section
/-! DEFINITION. I/O commands of hosts: arrival, policing, start, data arrival, data done, Abort (R220–R231, R302, R413–R422). -/
namespace Sys2Proof.Machine

/-! ## Starting -/

/-- Tags that a subscriber's commands hold (R415). -/
def tagsOf (s : State) (sub : Nat) : Nat := tabCount s.nvm.tags fun _ c => decide (c.sub = sub)

/-- A command of the subscriber can be given a tag now (R415). -/
def tagFree (s : State) (sub : Nat) : Bool := decide (tagsOf s sub < (s.sub sub).maxTags) && decide (s.nvm.tags.length < 262144)

/-- The counter of a command's kind (Table 9.18). -/
def kindCounter : IoOp → Nat
  | .read => 2561 | .write => 2562 | .flush => 2563 | .writeZeroes => 2564 | .dsm => 2565 | .compare => 2566 | .verify => 2567
  | .copy => 2568 | _ => 2569

/-- The body of a COMMAND message (Table 17.2): operation, NSID, subscriber, blocks, first block, Host
Identifier. -/
def cmdWords (op : IoOp) (c : IoCmd) (sub host : Nat) : List Word := [word op.ctorIdx, word c.nsid, fld 10 0 sub, word c.nlb] ++ words2 c.slba ++ wordsOf 4 host

/-- The COMMAND message of a command that has its tag (Table 17.2). -/
def fwdMsg (s : State) (t gen : Nat) (c : HostCmd) (sub cls home : Nat) : OutMsg :=
  { kind := .fwdCommand, a := home, b := t, c := 8 * gen + cls, ws := cmdWords c.op c.a sub (hostIdOf s c.a.ctx) }

/-- Send a command on to its home shelf (R785). DESIGN CHOICE (log 68, safe). -/
def forwardCmd (t gen : Nat) (c : HostCmd) (sub cls home : Nat) (s : State) : State :=
  let s := s.onStk fun k => { k with fwd := tabIns k.fwd t ⟨gen, home, none, 0⟩ }
  count1 6182 (sendTo home (fwdMsg s t gen c sub cls home) (onCmd t (fun c => { c with phase := .run, disp := true }) s))

/-- New starts of the command are held: for a Format or a Sanitize of its namespace (R677), or, of a write-type command, for
the last steps of a migration of one of its parcels (R498 step 3). DEDUCED (log 102, unsafe). -/
def startHeld (s : State) (c : HostCmd) : Bool :=
  match s.nsOf c.a.nsid with
  | none => false
  | some n => decide (n.home = s.pos) && (n.held || writes c.op && migrationHolds s c.a.nsid n (writeRanges c))

/-- The start of a command that has its tag (R413): it takes the next start order and the map epoch in force, its checks are
made, its map lines looked up, and it is placed behind the commands it follows. -/
def beginCmd (t : Nat) (s : State) : State :=
  match s.cmdOf t with
  | none => s
  | some k =>
    let c := k.cmd
    let order := s.nvm.order + 1
    let after := ((byOrder s.nvm.tags).filter fun w => w.1 != t && w.2.phase != .hold && relates s w.2.cmd c).map fun w => w.2.order
    let s := s.onNvm fun n => { n with order := order }
    if startHeld s c then onCmd t (fun k => { k with phase := .hold, order := order }) s
    else
      let s := onCmd t (fun k => { k with phase := .order, order := order, after := after, epoch := s.vol.epoch }) s
      let ns := s.nsOf c.a.nsid
      let home := match ns with | some n => decide (n.home = s.pos) | none => true
      let host := if c.a.ctx < 65536 then hostIdOf s c.a.ctx else c.a.ctx / 65536 - 1
      let att := match ns with | some n => if c.a.ctx < 65536 then attachedTo s c.a.ctx n else home && !n.deleting && !n.creating | none => false
      match startFail s c host att home with
      | some f =>
        let sgl := f = .sglTypeInvalid || f = .sglCountInvalid || f = .sglLengthInvalid
        failCmd t f (doIf (sgl && !(s.ctx c.a.ctx).tcp) (count1 2073) s)
      | none =>
        if !home then
          let s := doIf (c.op = .read && (s.ctx c.a.ctx).tcp)
            (layRead c.a.ctx c.a.cid (c.a.nlb * match ns with | some n => wireBytes n c.a | none => 0) (t, k.gen)) s
          forwardCmd t k.gen c k.sub k.cls (match ns with | some n => n.home | none => 0) s
        else
          let s := doIf (c.op = .read && decide (c.a.ctx < 65536) && (s.ctx c.a.ctx).tcp)
            (layRead c.a.ctx c.a.cid (c.a.nlb * match ns with | some n => wireBytes n c.a | none => 0) (t, k.gen)) s
          let s := doIf ((c.op = .read) && (match s.cmdOf t with | some k => blocked s k | none => false)) (count1 2573) s
          let lines := match ns with | some n => linesOf c.a.nsid n (allRanges c) | none => []
          let (miss, s) := lookLines lines s
          settleOne t (onCmd t (fun k => { k with phase := .map, lines := miss }) s)

/-- Start the held commands that may start now, in the order in which they came (R498 step 6, R678). -/
def restartHeld (s : State) : State :=
  forAll (((byOrder s.nvm.tags).filter fun e => e.2.phase = .hold).map (·.1)) (fun t s =>
    match s.cmdOf t with | some k => if startHeld s k.cmd then s else beginCmd t s | none => s) s

/-- The key that the response capsule of a command invalidates: that of its first descriptor that asks for it (R296). -/
def invKey (g : Sgl) : Option Nat := ((descsOf g).find? (·.2.2)).map (·.2.1)

/-- Give a command its tag and start it (R413); its completion is pre-posted (R299), that of a command run for another shelf at
its arrival module (R785). -/
def startCmd (c : HostCmd) (sub cls : Nat) (s : State) : State :=
  match tabFree s.nvm.tags 0 (s.nvm.tags.length + 1) with
  | none => s
  | some t =>
    let gen := (tabGet 0 s.nvm.gens t + 1) % 64
    let s := s.onNvm fun n => { n with gens := tabIns n.gens t gen, tags := tabIns n.tags t ⟨c, gen, 0, sub, cls, 0, .order, [], [], [], [], [], [], [], [], [], 0, [], [], false, false, .success, false, false, none, false, false, [], [], [], [], false, false⟩ }
    let s := count1 (kindCounter c.op) (count1 2560 s)
    let s := match fwdOf c.a.ctx c.a.cid with
      | some (q, ft, fg) => s.onStk fun k => { k with homed := k.homed ++ [(q, ft, fg, t, gen)] }
      | none => onCtx c.a.ctx (fun x => { x with
          inflight := x.inflight + 1,
          held := x.held ++ [⟨c.a.cid, some (t, gen), .success, false, 0, invKey c.a.sgl, (s.sub sub).countWait, if x.tcp then x.sndUna else x.wsn, false, none, some cls⟩] }) s
    beginCmd t s

/-! ## Arrival and policing -/

/-- What a command is charged (R221). DEDUCED (log 66, unsafe). -/
def costOf (s : State) (c : HostCmd) (x : Sub) : Nat :=
  x.pol.const + (if movesData c.op then c.a.nlb * (match s.nsOf c.a.nsid with | some n => nsBlkBytes n | none => 0) else 0)

/-- Start a marked command, or let it wait for a tag in its subscriber's deferral queue (R415). -/
def startOrWait (sub cls : Nat) (c : HostCmd) (s : State) : State :=
  if tagFree s sub && (s.sub sub).queue.isEmpty then startCmd c sub cls s
  else if deferFull s sub then completeOn c.a.ctx c.a.cid .interrupted 0 (noteDeferFull sub s)
  else
    let s := count1 2584 (deferCmd sub ⟨c, some cls⟩ s)
    if (s.sub sub).tagTold then s
    else raise 324 (match (s.ctx c.a.ctx).ctrl with | some n => fld 15 0 n | none => 0) (onSub sub (fun x => { x with tagTold := true }) s)

/-- Police an arriving command (R220–R231). -/
def police (c : HostCmd) (s : State) : State :=
  let sub := (s.ctx c.a.ctx).sub
  let x := s.sub sub
  if !x.queue.isEmpty then
    if deferFull s sub then completeOn c.a.ctx c.a.cid .interrupted 0 (noteDeferFull sub s) else deferCmd sub ⟨c, none⟩ s
  else
    let (col, s) := markItem sub c.a.dscp (costOf s c x) s
    let s := countWatch sub col s
    if col < 2 then startOrWait sub (classOf x col) c s
    else if x.demote then startOrWait sub 7 c (count1 1906 s)
    else if deferFull s sub then completeOn c.a.ctx c.a.cid .interrupted 0 (noteDeferFull sub s)
    else deferCmd sub ⟨c, none⟩ s

/-- The command identifier is outstanding on the queue (R415). -/
def cidTaken (s : State) (ctx cid : Nat) : Bool :=
  (s.ctx ctx).held.any (fun h => h.cid = cid) || (s.ctx ctx).ready.any (fun h => h.cid = cid)
    || s.qos.subs.any fun e => e.2.queue.any fun d => decide (d.cmd.a.ctx = ctx) && decide (d.cmd.a.cid = cid)

/-- Take a command capsule from the capsule store (R280). -/
def takeCapsule (ctx : Nat) (s : State) : State :=
  s.onXpt fun x =>
    let q := x.store.eraseP fun e => e.1 = ctx
    { x with store := q, storeTold := x.storeTold && decide (3774873 ≤ sumNat (q.map (·.2))) }

/-- An I/O command is checked and policed. -/
def admitCmd (c : HostCmd) (s : State) : State :=
  let x := s.ctx c.a.ctx
  let auth := match ctrlOf s c.a.ctx with | some k => k.needAuth && !k.authd | none => false
  if x.qid = 0 || x.disc then completeOn c.a.ctx c.a.cid .invalidOpcode 0 s
  else if auth then completeOn c.a.ctx c.a.cid .authRequired 0 s
  else if cidTaken s c.a.ctx c.a.cid then completeOn c.a.ctx c.a.cid .cidConflict 0 s
  else police c s

/-- An I/O command capsule reaches the target engine: it is served while the module is Active; in Drowse it wakes the module
and waits for the exit (R150); during a Drowse entry it counts as an arrival (R147). DEDUCED (log 67, unsafe). DEDUCED (log 193, unsafe). -/
def arriveCmd (op : IoOp) (a : IoCmd) (s : State) : State :=
  let x := s.ctx a.ctx
  if s.md.admitStop then s
  else if x.st != .ready || x.ctrl.isNone then takeCapsule a.ctx s
  else match s.md.mode with
    | .active => admitCmd ⟨op, a⟩ (entryArrival (takeCapsule a.ctx s))
    | .drowse => beginDrowseExit { s with woken := s.woken ++ [.cmd ⟨op, a⟩] }
    | _ => takeCapsule a.ctx s

/-- R416: a Read. -/
def execNvmeRead (c : IoCmd) (s : State) : Out := .next (arriveCmd .read c s)
/-- R417: a Write. -/
def execNvmeWrite (c : IoCmd) (s : State) : Out := .next (arriveCmd .write c s)
/-- R419: a Flush. -/
def execNvmeFlush (c : IoCmd) (s : State) : Out := .next (arriveCmd .flush c s)
/-- R411: a Compare. -/
def execNvmeCompare (c : IoCmd) (s : State) : Out := .next (arriveCmd .compare c s)
/-- R471: a Write Zeroes. -/
def execNvmeWriteZeroes (c : IoCmd) (s : State) : Out := .next (arriveCmd .writeZeroes c s)
/-- R472: a Dataset Management deallocate. -/
def execNvmeDatasetManagement (c : IoCmd) (s : State) : Out := .next (arriveCmd .dsm c s)
/-- R411: a Verify. -/
def execNvmeVerify (c : IoCmd) (s : State) : Out := .next (arriveCmd .verify c s)
/-- R486: a Copy. -/
def execNvmeCopy (c : IoCmd) (s : State) : Out := .next (arriveCmd .copy c s)
/-- R424: a Reservation Register. -/
def execNvmeReservationRegister (c : IoCmd) (s : State) : Out := .next (arriveCmd .resRegister c s)
/-- R427: a Reservation Report. -/
def execNvmeReservationReport (c : IoCmd) (s : State) : Out := .next (arriveCmd .resReport c s)
/-- R428: a Reservation Acquire. -/
def execNvmeReservationAcquire (c : IoCmd) (s : State) : Out := .next (arriveCmd .resAcquire c s)
/-- R425: a Reservation Release. -/
def execNvmeReservationRelease (c : IoCmd) (s : State) : Out := .next (arriveCmd .resRelease c s)

/-- Admit the head of a deferral queue (R229, R230, R415): a command that is marked and finds a tag starts; an unmarked one is
marked first, and a red one stays, or under DEMOTE takes S7. The flag answers whether the head left. -/
def admitHead (remark : Bool) (sub : Nat) (s : State) : Bool × State :=
  let x := s.sub sub
  match x.queue with
  | [] => (false, s)
  | d :: ds =>
    let go := fun (cls : Nat) (s : State) =>
      if tagFree s sub then (true, startCmd d.cmd sub cls (setDeferred sub ds s))
      else (false, setDeferred sub (⟨d.cmd, some cls⟩ :: ds) s)
    match d.cls with
    | some cls => go cls s
    | none =>
      if !remark then (false, s)
      else
        let (col, s) := markItem sub d.cmd.a.dscp (costOf s d.cmd x) s
        if col < 2 then go (classOf x col) (countWatch sub 3 (countWatch sub col s))
        else if x.demote then go 7 (count1 1906 (countWatch sub 3 (countWatch sub col s)))
        else (false, s)

/-- Admit head commands until one stays. -/
def admitHeads (remark : Bool) (sub : Nat) : Nat → State → State
  | 0, s => s
  | fuel + 1, s => match admitHead remark sub s with
    | (true, s) => admitHeads remark sub fuel s
    | (false, s) => s

/-- R413, R415: a waiting command is given a tag when one frees, in queue order. -/
def execCommandStart (sub : Nat) (s : State) : Out := .next (admitHeads false sub (s.sub sub).queue.length s)

/-- R519: the command at the head of the space queue claims its pages. -/
def execSpaceQueueClaim (s : State) : Out :=
  .next (match s.wbf.space with
    | [] => s
    | t :: _ => settleCmds (placeCmd t s))

/-- R488: a fill of a map line completes; the starts that waited for it proceed in start order. CLOCK chooses the line that
leaves a full cache. -/
def clockOut : Nat → Nat → Tab Bool → Nat × Tab Bool
  | 0, h, t => (h, t)
  | fuel + 1, h, t =>
    match t[h % max 1 t.length]? with
    | none => (h, t)
    | some (k, true) => clockOut fuel ((h + 1) % max 1 t.length) (tabIns t k false)
    | some (k, false) => (h % max 1 t.length, tabDel t k)

/-- R488: a map cache miss fill ends. -/
def execMapFillDone (line : Nat) (s : State) : Out :=
  .next (if !tabHas s.vol.fills line then s else
    let s := s.onVol fun v =>
      let (h, t) := if v.lines.length < 2048 then (v.hand, v.lines) else clockOut 4097 v.hand v.lines
      { v with hand := h, lines := tabIns t line true, fills := tabDel v.fills line }
    settleCmds (s.onNvm fun n => { n with tags := tabMap n.tags fun _ c => { c with lines := c.lines.erase line } }))

/-! ## Data and ends -/

/-- Discard a write whose data is not wholly in the buffer (R275): the blocks it replaced return, blocks of the extents it
filled become zero, and pages that it alone held are freed. DESIGN CHOICE (log 62, unsafe). -/
def discardWrite (t : Nat) (s : State) : State :=
  match s.cmdOf t with
  | none => s
  | some c => match s.nsOf c.cmd.a.nsid with
    | none => s
    | some n =>
      let nsid := c.cmd.a.nsid
      let s := forAll c.displaced (fun e s =>
        let fix := fun (o : Option PBlk) => match o with | some b => if b.order = c.order then e.2 else o | none => o
        let s := s.onNvm fun m => { m with tags := tabMap m.tags fun _ k => { k with displaced := tabMap k.displaced fun l o => if l = e.1 then fix o else o } }
        forAll ((s.wbf.pages.filter fun p => p.2.ns = nsid && p.2.span = e.1 / perSpan n && p.2.st != .queued).map (·.1)) (fun p s =>
          onPage p (fun x => match tabFind x.blks (e.1 % perSpan n) with
            | some b => if b.order = c.order then { x with blks := match e.2 with | some o => tabIns x.blks (e.1 % perSpan n) o | none => tabDel x.blks (e.1 % perSpan n) } else x
            | none => x) s) s) s
      let lbas := ((writeRanges c.cmd).flatMap fun r => (List.range r.2).map (r.1 + ·)).filter fun l => c.fills.contains (l / perExtent n)
      let s := match sealAll t nsid n c.order (lbas.map fun l => (l, zeroBlk n l)) s with | some s => s | none => s
      let own := (s.wbf.pages.filter fun p => p.2.users = [t] && p.2.blks.isEmpty).map (·.1)
      forAll own freePage s

/-- One host block of a command arrives: PI is generated or checked (R480), and it is enciphered and entered, or kept for a
Compare. None while no core can seal it. -/
def arriveBlk (t : Nat) (c : Cmd) (n : Ns) (i : Nat) (h : HBlk) (s : State) : Option State :=
  let a := c.cmd.a
  let lba := a.slba + i
  let h := if hasPi n && a.pract then ⟨h.d, makePi (nsBlkBytes n) h.d a.lbat (refTag n a i)⟩ else if hasPi n then h else ⟨h.d, 0⟩
  match (if a.pract then none else checkPi n a i h) with
  | some f => some (onCmd t (fun c => if c.status = .success then { c with status := f, dnr := f.dnrBit } else c) s)
  | none =>
    if c.cmd.op = .compare then some (onCmd t (fun c => { c with host := tabIns c.host i (if a.pract then ⟨h.d, 0⟩ else h), moved := true }) s)
    else sealEnter t a.nsid n c.order lba h s

/-- Blocks of a command arrive, all or none. -/
def arriveBlks (t : Nat) (c : Cmd) (n : Ns) : Nat → List HBlk → State → Option State
  | _, [], s => some s
  | i, h :: hs, s => match arriveBlk t c n i h s with | none => none | some s => arriveBlks t c n (i + 1) hs s

/-- R520, R417: write data enters the buffer, is mirrored, and may fill a bin; or the host's data of a Compare comes. The
last of it makes the command's data whole. -/
def arriveData (t gen off : Nat) (hs : List HBlk) (s : State) : State :=
  match s.cmdOf t with
  | none => count1 2585 s
  | some c =>
    if c.gen ≠ gen then count1 2585 s
    else if c.phase != .run || c.left < hs.length || c.left = 0 then s
    else match s.nsOf c.cmd.a.nsid with
      | none => s
      | some n => match arriveBlks t c n off hs s with
        | none => s
        | some s =>
          let s := onCmd t (fun c => { c with left := c.left - hs.length, moved := true }) (doIf (c.cmd.op = .write) (count 2571 (hs.length * nsBlkBytes n)) s)
          if c.left ≠ hs.length then s
          else if c.cmd.op = .compare then settleCmds (conclude t s)
          else match s.cmdOf t with
            | none => s
            | some c' => settleCmds (if c'.status = .success then dataWhole t s else makeReady t (discardWrite t s))

/-- The wire image of host blocks of `k` bytes each. -/
def wireBlks (b k : Nat) (hs : List HBlk) : Nat :=
  (hs.foldl (fun (a : Nat × Nat) h => (a.1 ||| ((h.d ||| (if k = b then 0 else h.pi <<< (8 * b))) <<< (8 * k * a.2)), a.2 + 1)) (0, 0)).1

/-- Host data of a forwarded command comes at its arrival module: what the home module has asked for goes on to it (R787). -/
def passData (t gen off : Nat) (hs : List HBlk) (f : FwdOut) (s : State) : State :=
  match s.cmdOf t with
  | none => count1 2585 s
  | some c => match s.nsOf c.cmd.a.nsid with
    | none => s
    | some n =>
      let k := wireBytes n c.cmd.a
      let len := hs.length * k
      if c.gen ≠ gen then count1 2585 s
      else if f.asked < len || len = 0 then s
      else sendPieces .fwdWrite f.home t (8 * gen + c.cls) (off * k) len (wireBlks (nsBlkBytes n) k hs)
        (onCmd t (fun c => { c with moved := true }) (s.onStk fun x => { x with fwd := tabUpd x.fwd t fun f => { f with asked := f.asked - len } }))

/-- R520: write data of a command comes from the host. -/
def execWriteDataArrival (tag gen off : Nat) (blocks : List HBlk) (s : State) : Out :=
  .next (match tabFind s.stk.fwd tag with
    | some f => passData tag gen off blocks f s
    | none => arriveData tag gen off blocks s)

/-- Reservation notices for controllers of a host (R430). -/
def resvNotice (nsid kind : Nat) (hosts : List Nat) (s : State) : State :=
  forAll (s.nvm.ctrls.map (·.1)) (fun k s => match tabFind s.nvm.ctrls k with
    | none => s
    | some c =>
      if !hosts.contains c.hostId || c.disc || (tabGet 0 c.rmask nsid).testBit kind then s
      else if 32 ≤ c.resLog.length then onCtrl k (fun c => { c with resLost := c.resLost + 1 }) s
      else
        let s := onCtrl k (fun c => { c with resLog := c.resLog ++ [(nsid, kind)] }) s
        doIf (c.aec.testBit 3) (notify k 6 0) s) s

/-- Put a reservation command's outcome in force at its data done (R426). DEDUCED (log 61, unsafe). -/
def commitResv (c : Cmd) (s : State) : State :=
  match s.nsOf c.cmd.a.nsid with
  | none => s
  | some n =>
    let host := cmdHost s c
    let (st, r, hs) := resvOutcome s host c.cmd n.resv
    if st != .success then s
    else if c.cmd.op = .resReport then
      doIf (!c.gone && (s.ctx c.cmd.a.ctx).st = .ready) (giveData c.cmd.a.ctx (24 + 64 * r.regs.length) (some c.cls) { kind := .resReport, a := c.cmd.a.ctx, b := c.cmd.a.cid, ws := [word r.gen, fld 7 0 r.rtype, word r.regs.length], ds := r.regs.flatMap fun g => [g.1, g.2, if r.holder = some g.1 || allRegs r.rtype then 1 else 0] }) s
    else
      let d : Int := (r.regs.length : Int) - n.resv.regs.length
      let s := onNs c.cmd.a.nsid (fun x => { x with resv := r }) (s.onNvm fun m => { m with regs := ((m.regs : Int) + d).toNat })
      let s := shadow .stateWrite 5 c.cmd.a.nsid s
      let lost := hs.filter fun h => n.resv.regs.any fun g => g.1 = h
      let s := match c.cmd.op with
        | .resAcquire => if c.cmd.a.action = 0 then s else
            let s := resvNotice c.cmd.a.nsid 1 lost s
            let s := doIf (n.resv.rtype != 0 && n.resv.rtype != r.rtype) (resvNotice c.cmd.a.nsid 2 ((r.regs.map (·.1)).filter (· != host))) s
            doIf (!lost.isEmpty) (raise 325 (fld 12 0 c.cmd.a.nsid)) s
        | .resRelease => if c.cmd.a.action = 1 then resvNotice c.cmd.a.nsid 3 lost s
            else doIf (n.resv.rtype != 0 && r.rtype = 0) (resvNotice c.cmd.a.nsid 2 ((r.regs.map (·.1)).filter (· != host))) s
        | _ => doIf (n.resv.rtype = 3 || n.resv.rtype = 4) (fun s => doIf (r.rtype = 0) (resvNotice c.cmd.a.nsid 2 (r.regs.map (·.1))) s) s
      s

/-- The command is a write that is acknowledged. -/
def ackedWrite (c : Cmd) : Bool := c.cmd.op = .write && c.status = .success

/-- Four times the bytes of writes that the module acknowledges in each nanosecond: in paired operation 6.25 for each lane of the partner
link's width, else 188 (R18, R19, R698). -/
def ackRate (s : State) : Nat := if s.pair.paired then 25 * max 1 (s.link 0).width else 752

/-- A write of `n` bytes is acknowledged: the next one waits until the rate has carried it. DEDUCED (log 249, unsafe). -/
def paceAck (n : Nat) (s : State) : State := s.onWbf fun w => { w with ackAt := max s.clk.now w.ackAt + (4 * n + ackRate s - 1) / ackRate s }

/-- Bytes in a block of a namespace. -/
def State.blkOf (s : State) (nsid : Nat) : Nat := match s.nsOf nsid with | some n => nsBlkBytes n | none => 0

/-- R18, R19, R302: a command's data done releases its held completion, or arms it (R301), and the command ends. -/
def execDataDone (tag gen : Nat) (s : State) : Out :=
  .next (match s.cmdOf tag with
    | none => count1 2585 s
    | some c =>
      if c.gen ≠ gen then count1 2585 s
      else if !c.ready || !s.marked c.seq || !dataHanded s c.cmd.a.ctx (tag, gen) c.cmd.a.cid || (ackedWrite c && !due s.wbf.ackAt s.clk.now) then s
      else if (s.ctx c.cmd.a.ctx).st = .ready && !(s.ctx c.cmd.a.ctx).resident then needFill c.cmd.a.ctx s
      else settleCmds (endCmd tag (doIf (ackedWrite c) (paceAck (c.cmd.a.nlb * s.blkOf c.cmd.a.nsid)) <| doIf (isResv c.cmd.op && c.status = .success) (fun s =>
        doIf (c.cmd.op = .resReport) (setMark c.cmd.a.ctx (tag, gen)) (commitResv c s)) s)))

/-! ## Abort -/

/-- The Abort's own completion (R422), and its count (Table 9.18). -/
def endAbort (ctx cid : Nat) (not_ : Bool) (s : State) : State :=
  let s := count1 (if not_ then 2576 else 2575) s
  let drop := fun (c : Ctrl) => { c with aborts := c.aborts.filter fun a => !(a.1 = ctx && a.2.1 = cid) }
  let s := s.onNvm fun n => { n with ctrls := tabMap n.ctrls fun _ c => drop c }
  completeOn ctx cid .success (if not_ then 1 else 0) s

/-- R421, Table 9.9: the abort request of an outstanding Abort reaches the tag state of the command it names. -/
def execAbortRequestAtTag (ctx cid : Nat) (s : State) : Out :=
  .next (match (ctrlOf s ctx).bind fun k => k.aborts.find? fun a => a.1 = ctx && a.2.1 = cid with
    | none => s
    | some (_, _, sqid, acid) =>
      let q := (s.xpt.ctxs.find? fun e => e.2.ctrl = (s.ctx ctx).ctrl && e.2.qid = sqid && e.2.st = .ready).map (·.1)
      match q with
      | none => endAbort ctx cid true s
      | some c =>
        let named := fun (h : HostCmd) => decide (h.a.ctx = c) && decide (h.a.cid = acid)
        if s.qos.subs.any fun e => e.2.queue.any fun d => named d.cmd then
          endAbort ctx cid false (dropDeferred named (some .abortRequested) s)
        else match s.nvm.tags.find? fun e => named e.2.cmd with
          | none => endAbort ctx cid true s
          | some (t, _) =>
            let (ok, s) := cancel t s
            endAbort ctx cid (!ok) (settleCmds s))

end Sys2Proof.Machine
end

