-- ==== Sys2Proof/Machine/Conn.lean ====
section
/-! DEFINITION. The ends of connections: leaving READY, ERROR, CLOSING, TIMEWAIT and FREE, for both transports (R272–R276,
R349, R350), and the engines' flow entries (R261, R342). -/
namespace Sys2Proof.Machine

/-- The context carries a connection. -/
def Ctx.live (x : Ctx) : Bool := x.st = .connecting || x.st = .ready || x.st = .closing || x.st = .tls

/-- The commands of a connection end, at its leaving READY (R275) or at CC.EN 0 (R406): nothing more is sent for them. What has been sent
stays the transport's to acknowledge and to resend. Writes whose data is not wholly
in the buffer are discarded, and commands that have not begun to move end at once. -/
def leaveReady (c : Nat) (s : State) : State :=
  let s := dropDeferred (fun h => h.a.ctx = c) none s
  let s := onCtx c (fun x => { x with held := [], ready := [], readq := [], laid := if x.tcp then x.sndNxt else x.laid,
                                       pdus := x.pdus.filter fun p => !reached32 p.first x.sndNxt }) s
  let mine := (byOrder s.nvm.tags).filter fun e => e.2.cmd.a.ctx = c
  let s := forAll mine (fun e s =>
    let k := e.2
    let s := onCmd e.1 (fun k => { k with gone := true }) s
    let op := k.cmd.op
    if k.disp && tabHas s.stk.fwd e.1 then s
    else if k.phase != .run then freeTag e.1 k s
    else if (op = .write && decide (k.left ≠ 0)) || (op = .copy && !k.done) then freeTag e.1 k (discardWrite e.1 s)
    else if op = .compare && decide (k.left ≠ 0) then freeTag e.1 k s
    else s) s
  settleCmds s

/-- The parameter word of a connection's events (R337). -/
def ctxParam (c cause : Nat) : Word := fld 15 0 c ||| fld 23 16 cause

/-- A context enters ERROR (R273, R276, R349, R350): one DREQ leaves on RDMA, one RST on TCP, which then is in TIMEWAIT. -/
def ctxError (c cause : Nat) (s : State) : State :=
  let x := s.ctx c
  if !x.live then s
  else
    let s := if x.st = .ready then leaveReady c s else s
    let s := onCtx c (fun x => { x with st := .error, cause := cause, pend := [], icAt := none, tlsAt := none, repAt := none, toAt := none, ackAt := none, resendAt := none, finAns := false, reads := 0, readOut := [], rdAt := [] }) s
    let s := s.onXpt fun d => { d with hsq := d.hsq.erase c, store := d.store.filter fun e => e.1 != c, admq := d.admq.filter fun r => r.ctx != c }
    if x.tcp then
      let s := doIf (x.st = .tls) (fun s => raise 262 (ctxParam c cause) (count1 2090 s)) s
      let s := emitCtx c none [0] { kind := .tcpRst, a := c } (count1 2081 (raise 261 (ctxParam c cause) s))
      onCtx c (fun x => { x with st := .timewait, freeAt := some (s.clk.now + 50 * ms) }) s
    else
      let s := emitCtx c none [0] { kind := .cmDreq, a := c } (raise 256 (ctxParam c cause) (count1 2068 s))
      onCtx c (fun x => { x with dreqAt := some (s.clk.now + 100 * ms) }) s

/-- A host-initiated close (R272, R349): the context enters CLOSING, and TIMEWAIT once its commands have ended. -/
def closeCtx (c : Nat) (fin : Bool) (s : State) : State :=
  let x := s.ctx c
  if !x.live || x.st = .closing then s
  else
    let s := if x.st = .ready then leaveReady c s else s
    closeStep c (onCtx c (fun x => { x with st := .closing, finAns := fin, icAt := none, tlsAt := none, repAt := none }) s)

/-- An RDMA context in ERROR is released (R273). -/
def errorToTimewait (c : Nat) (s : State) : State :=
  onCtx c (fun x => { x with st := .timewait, dreqAt := none, freeAt := some (s.clk.now + 50 * ms) }) s

/-- Contexts that are pinned (R369). -/
def pinnedCtxs (s : State) : Nat := tabCount s.xpt.ctxs fun _ x => x.pinned

/-- A connection is bound to its host's subscriber: pinned where the subscriber is, as far as the limit allows (R369). -/
def bindSub (c sub : Nat) (s : State) : State :=
  let pin := (s.sub sub).pin
  let room := decide (pinnedCtxs s < 4096)
  let s := onCtx c (fun x => { x with sub := sub, pinned := pin && room }) s
  doIf (pin && !room) (raise 267 (ctxParam c 0)) s

/-- The flow entry of a context's connection. -/
def connFlow (s : State) (c : Nat) : Option FlowEntry := (s.net.flows.find? fun e => decide (8192 ≤ e.1) && decide (e.2.ctx = some c)).map (·.2)

/-- Install an engine's flow entry at the lowest free index of 8,192–73,727; a full table takes none (R192). -/
def putFlow (t : Tab FlowEntry) (e : FlowEntry) : Tab FlowEntry :=
  match tabFree t 8192 65536 with
  | some i => tabIns t i e
  | none => t

/-- A context becomes FREE: its record keeps only the QPN generation, and its flow entry is removed (R342). Commands that still run to
their internal end no longer count for it (R275). -/
def freeCtx (c : Nat) (s : State) : State :=
  let s := s.onNet fun n => { n with flows := tabFilter n.flows fun _ e => decide (e.ctx ≠ some c) }
  let s := s.onNvm fun n => { n with tags := tabMap n.tags fun _ k => if k.cmd.a.ctx = c then { k with orphan := true } else k }
  let s := s.onXpt fun x => { x with ctxs := tabIns x.ctxs c { gen := (tabGet {} x.ctxs c : Ctx).gen }, fillq := x.fillq.erase c, poolTold := false }
  let s := s.onPair fun p => { p with horizon := tabDel p.horizon c, layout := tabDel p.layout c }
  shadow .stateWrite 4 c s

/-- A connection context is bound to the logical port. -/
def ctxBound (s : State) (lp : Nat) : Bool := s.xpt.ctxs.any fun e => e.2.live && e.2.lport = lp

/-- Close every connection bound to a logical port (R169): TCP by reset, RDMA by disconnect request. -/
def closeLport (lp : Nat) (s : State) : State :=
  forAll ((s.xpt.ctxs.filter fun e => e.2.live && e.2.lport = lp).map (·.1)) (fun c => ctxError c 9) s

/-- The context is in error: packets for it go to the dead-letter queue (R264). -/
def ctxInError (s : State) (c : Nat) : Bool := (s.ctx c).st = .error || (s.ctx c).st = .timewait

/-- The partner holds the lease, as this module knows it. -/
def partnerLease (s : State) : Bool := s.pair.peerLease

/-- The listener entries of the engines (R261, R339): for each enabled logical port and each of its addresses of an accepted
family, UDP 4791 to switch port 36 and the TCP listener ports to switch port 37. -/
def listenerEntries (s : State) : List FlowEntry :=
  ((List.range 32).flatMap fun l =>
    (tabGet {} s.net.lports l : LPort).addrs.flatMap fun a =>
      let key := fun (dport proto target : Nat) =>
        ({ key := ⟨true, a.2.ipv6, 0, a.2.ip, 0, dport, proto, a.2.vid, a.2.tagged, l⟩, action := 0, target := target, mirror := none, ctx := none } : FlowEntry)
      (if s.xpt.rports.testBit l && (if a.2.ipv6 then s.xpt.rv6 else s.xpt.rv4) then [key 4791 17 36] else [])
        ++ (if s.xpt.tports.testBit l && (if a.2.ipv6 then s.xpt.tv6 else s.xpt.tv4) then
            (if s.xpt.plain then [key s.xpt.port 6 37] else []) ++ (if s.xpt.tls then [key s.xpt.tlsPort 6 37] else []) else [])).eraseDups

/-- Put the listener entries in force. -/
def syncListeners (s : State) : State :=
  let es := listenerEntries s
  s.onNet fun n => { n with flows := es.foldl putFlow (tabFilter n.flows fun k e => decide (k < 8192) || !e.key.service) }

/-- A manager flow entry holds the key. -/
def managerHolds (s : State) (k : FlowKey) : Bool := s.net.flows.any fun f => decide (f.1 < 8192) && decide (f.2.key = k)

/-- A manager flow entry holds a key that a listener needs (R194, R262, R380). -/
def listenerClash (s : State) : Bool := (listenerEntries s).any fun e => managerHolds s e.key

end Sys2Proof.Machine
end

