-- ==== Sys2Proof/Machine/Net.lean ====
section
/-! DEFINITION. The front ports and the Sorting Office (chapter 5): cages, links, the cell buffer, PFC and ECN, the flow
table and its epochs, mirrors, the dead-letter queue, PTP, and the NET commands. -/
namespace Sys2Proof.Machine

/-! ## Cages and links -/

/-- The first number that a cage's events carry: the logical port of a front cage, the switch port of a relay cage. -/
def cagePort (c : Nat) : Nat := if c < 4 then 8 * c else 28 + c

/-- The power a cage supplies, W (Table 2.1). -/
def cageSupply (c : Nat) : Nat := if c < 4 then 16 else 12

/-- A logical port goes down (R171): NET.LINK_DOWN where it was up, and its lanes are tested (Table 18.4). Its queued frames stay
(R174). -/
def lportDown (l : Nat) (s : State) : State :=
  if (s.lport l).up then
    forAll (List.range (lanesPer s l)) (fun i => frontLaneFault (l + i)) (raise 129 (word l) (onLport l (fun x => { x with up := false }) s))
  else s

/-- R29: a pluggable is found in a cage. DESIGN CHOICE (log 218, unsafe). -/
def execPluggableInserted (cage : Nat) (s : State) : Out :=
  .next (if cage < 6 && !(s.cage cage).present then
      raise 130 (word (cagePort cage)) (onCage cage (fun x => { x with present := true, lowPwr := true, ready := false, cmis := false, watts := 0, readyDue := none }) s)
    else s)

/-- R29, R30: the CMIS pages are read; low-power mode is released where the cage supplies the declared power. -/
def execPluggableCmisRead (cage watts : Nat) (s : State) : Out :=
  .next (if cage < 6 && (s.cage cage).present then
      let s := onCage cage (fun x => { x with cmis := true, watts := watts }) s
      if cageSupply cage < watts then raise 132 (word (cagePort cage)) (onCage cage (fun x => { x with lowPwr := true, readyDue := none }) s)
      else onCage cage (fun x => { x with lowPwr := false, readyDue := some (s.clk.now + 5 * sec) }) s
    else s)

/-- R172: the pluggable reports ModuleReady and the module enables its transmitters. -/
def execPluggableReady (cage : Nat) (s : State) : Out :=
  .next (if cage < 6 && (s.cage cage).present && !(s.cage cage).lowPwr then
      onCage cage (fun x => { x with ready := true, readyDue := none }) s
    else s)

/-- R172: no ModuleReady within 5 s holds the pluggable in low-power mode. -/
def execPluggableFault (cage : Nat) (s : State) : Out :=
  .next (match (s.cage cage).readyDue with
    | some t =>
      if due t s.clk.now && !(s.cage cage).ready && cage < 6 then
        raise 133 (word (cagePort cage)) (onCage cage (fun x => { x with lowPwr := true, readyDue := none }) s)
      else s
    | none => s)

/-- R171: a pluggable is removed and its logical ports go down. -/
def execPluggableRemoved (cage : Nat) (s : State) : Out :=
  .next (if cage < 6 && (s.cage cage).present then
      let s := onCage cage (fun x => { mode := x.mode }) s
      let s := raise 131 (word (cagePort cage)) s
      if cage < 4 then forAll (List.range 8) (fun i => lportDown (8 * cage + i)) s else s
    else s)

/-- R170: alignment-marker lock and FEC lock have held for 100 ms. -/
def execLinkUp (lport : Nat) (s : State) : Out :=
  .next (if lportExists s lport && (s.cage (lport / 8)).ready && !(s.lport lport).up && !s.md.egressOff then
      raise 128 (word lport) (onLport lport (fun x => { x with up := true }) s)
    else s)

/-- R171: alignment lost, or a remote fault, for 1 ms. -/
def execLinkDown (lport : Nat) (s : State) : Out := .next (if lport < 32 then lportDown lport s else s)

/-- The corrected symbols of 1 s that make 10^-5 of a logical port's: each lane carries 53.125 Gbit/s in symbols of 10 bits (R166,
R173). -/
def fecLimit (s : State) (l : Nat) : Nat := 53125 * lanesPer s l

/-- R173: a second of a logical port's FEC ends. Its codewords are counted (Table 5.10), and a ratio of corrected symbols above 10^-5
raises the event; the link stays up. More than 100 uncorrectable codewords start a self-test of its lanes (Table 18.4). DEDUCED (log 204, safe). -/
def execFecDegraded (lport symbols corrected uncorrectable : Nat) (s : State) : Out :=
  .next (if (s.lport lport).up && lport < 32 then
      let s := count (1120 + lport) uncorrectable (count (1152 + lport) corrected s)
      let s := doIf (100 < uncorrectable) (forAll (List.range (lanesPer s lport)) fun i => frontLaneFault (lport + i)) s
      doIf (fecLimit s lport < symbols) (raise 134 (word lport)) s
    else s)

/-! ## Analysis ports -/

/-- The logical port is the analysis port of an enabled session (R206). -/
def isAnalysis (s : State) (l : Nat) : Bool := tabAny s.net.mirrors fun _ m => m.enable && decide (m.analysis = l)

/-! ## The dead-letter queue -/

/-- The cells a capture record takes. -/
def Capture.cells (c : Capture) : Nat := cellsOf (20 + c.capLen)

/-- PTP time, ns: what was taken at its base, and the time since at the clock's frequency (R211, R212). -/
def ptpTime (s : State) : Nat :=
  let d : Int := (s.clk.now : Int) - s.net.ptp.base
  (s.net.ptp.ns + d + d * s.net.ptp.freq / 1000000000).toNat

/-- Make room in ring mode by discarding the oldest records (R208). -/
def ringRoom (limit need : Nat) : List Capture → List Capture × Nat
  | [] => ([], 0)
  | c :: cs =>
    if sumNat ((c :: cs).map Capture.cells) + need ≤ limit then (c :: cs, 0)
    else let (r, n) := ringRoom limit need cs; (r, n + 1)

/-- A frame goes to the dead-letter queue: counted under its reason and, where enabled, captured (R207, R208). DEDUCED (log 44, unsafe). -/
def deadLetter (reason swport len : Nat) (ctx : Option Nat) (body : List Word) (s : State) : State :=
  let s := count1 (1375 + reason) s
  if !s.net.dlEnable.testBit (reason - 1) then s
  else
    let cap := min len (32 * s.net.dlTrunc)
    let r : Capture := ⟨s.net.dlSeq + 1, len, reason, swport, ctx, s.net.epoch, ptpTime s, cap, body.take ((cap + 3) / 4)⟩
    let used := sumNat (s.net.dlq.map Capture.cells)
    let add := fun (q : List Capture) (s : State) => s.onNet fun n => { n with dlq := q ++ [r], dlSeq := n.dlSeq + 1 }
    if used + r.cells ≤ s.net.dlCells then add s.net.dlq s
    else if s.net.dlRing then
      let (q, lost) := ringRoom s.net.dlCells r.cells s.net.dlq
      if r.cells ≤ s.net.dlCells then add q (count 1379 lost s) else count1 1379 s
    else
      let s := count1 1379 s
      if s.net.dlFull then s else raise 137 (word swport) (s.onNet fun n => { n with dlFull := true })

/-! ## Frames -/

/-- The service class of a received frame (R184). -/
def frameClass (x : LPort) (f : Frame) : Nat :=
  if x.trust then tabGet 2 x.dscpClass f.dscp else tabGet 2 x.pcpClass (if f.tagged then f.pcp else 0)

/-- The flow entry that a frame matches: a CONNECTION first, then a SERVICE (R193). -/
def lookupFlow (s : State) (f : Frame) : Option FlowEntry :=
  match f.kind with
  | .ip v6 src dst proto sport dport =>
    let conn : FlowKey := ⟨false, v6, src, dst, sport, dport, proto, f.vid, f.tagged, f.lport⟩
    let serv : FlowKey := ⟨true, v6, 0, dst, 0, dport, proto, f.vid, f.tagged, f.lport⟩
    match s.net.flows.find? fun e => e.2.key = conn with
    | some e => some e.2
    | none => (s.net.flows.find? fun e => e.2.key = serv).map (·.2)
  | _ => none

/-- Apply a flow entry's action (R195, R196). A frame that DEAD_LETTER sends there is counted as NO_MATCH. DESIGN CHOICE (log 205,
unsafe). DESIGN CHOICE (log 205, unsafe). -/
def applyFlow (e : FlowEntry) (f : Frame) (cls : Nat) (s : State) : State :=
  let pcp := if f.tagged then f.pcp else 0
  let s := match e.mirror with | some i => mirrorCopy i f.len pcp f.ecn s | none => s
  match e.action with
  | 0 =>
    if (match e.ctx with | some c => ctxInError s c | none => false) then deadLetter 2 f.lport f.len e.ctx f.body s
    else enqueueFrame (e.target * 8 + cls) (rxFrame f.len f.lport pcp f.ecn (some s.net.epoch)) s
  | 1 => enqueueFrame (e.target * 8 + cls) (rxFrame f.len f.lport pcp f.ecn (some s.net.epoch)) s
  | 2 => enqueueFrame (38 * 8 + cls) (rxFrame f.len f.lport pcp f.ecn (some s.net.epoch)) s
  | 3 => deadLetter 1 f.lport f.len none f.body s
  | _ => count1 1387 s

/-- The frame is addressed to the logical port: its MAC, broadcast, or a multicast address it accepts (R193). -/
def forPort (x : LPort) (f : Frame) : Bool :=
  f.mcast || decide (f.dstMac = 0xFFFFFFFFFFFF) || tabAny x.addrs fun _ a => decide (a.mac = f.dstMac)

/-- A frame enters the Sorting Office from a front port: it is checked, answered, classified and forwarded, or captured
(R167, R175, R176, R193). A solicitation for an address that is not configured is other neighbour discovery, for Kumel. DEDUCED (log 42, safe). DEDUCED (log 206, unsafe). -/
def frameIn (f : Frame) (s : State) : State :=
    let l := f.lport
    let x := s.lport l
    let s := count1 (1024 + l) s
    if !f.fcsOk then count1 (1088 + l) s
    else if 9216 < f.len then count1 (1312 + l) s
    else if !servesFront s || isAnalysis s l then count1 (1344 + l) s
    else
      let pcp := if f.tagged then f.pcp else 0
      let s := mirrorPort l 0 f.len pcp f.ecn s
      let cls := frameClass x f
      match f.kind with
      | .solicit v6 target =>
        match x.addrs.find? fun a => decide (a.2.ipv6 = v6) && decide (a.2.ip = target) && decide (a.2.vid = f.vid) && decide (a.2.tagged = f.tagged) with
        | some a => putOut ⟨l, 0, 2048, 38, 0, 0, [0], { kind := .arpReply, a := l, b := target, c := f.vid, ws := words2 a.2.mac }⟩ s
        | none => enqueueFrame (38 * 8 + cls) (rxFrame f.len l pcp f.ecn (some s.net.epoch)) s
      | .kumel => enqueueFrame (38 * 8 + cls) (rxFrame f.len l pcp f.ecn (some s.net.epoch)) s
      | _ =>
        if !forPort x f then deadLetter 3 l f.len none f.body s
        else match lookupFlow s f with
          | some e => applyFlow e f cls s
          | none => deadLetter 1 l f.len none f.body s

/-- R193, R756: a front frame. From the freeze of a planned take-over the Sorting Office holds it, and after the handover it goes
to the new active. -/
def execFrameReceive (f : Frame) (s : State) : Out :=
  .next (if !(s.lport f.lport).up || 32 ≤ f.lport then s else
    match s.pair.take with
    | none => frameIn f s
    | some .forward => forwardFrame 0 (frameClass (s.lport f.lport) f) f.lport f.len s
    | some _ => s.onPair fun p => { p with frozen := p.frozen ++ [f] })

/-- The queue is held: its port is down or without credit, or PFC pauses its egress PCP (R188, R202). -/
def queuePaused (s : State) (swport q : Nat) : Bool :=
  decide (swport < 32) && decide (s.clk.now < tabGet 0 (s.lport swport).paused (tabGet 0 (s.lport swport).egress q))

/-- The link of a relay or partner switch port: 32 UP, 33 DN, 34 the partner. -/
def swLink (swport : Nat) : Nat := if swport = 34 then 0 else swport - 31

/-- The queue's head frame finds no credits on its forward channel, or its record no place on the link (R189, R707, R712): a record is the
header, the frame's bytes and the trailer (Tables 15.6 and 15.10). -/
def noCredit (s : State) (swport q : Nat) : Bool :=
  match s.queue (swport * 8 + q) with
  | [] => false
  | f :: _ => !recMay (s.link (swLink swport)) ⟨8 + q, 5 + (f.len + 3) / 4, { kind := .forward }⟩

/-- The front port's link is down, or a relay or partner port has no link or no credit. -/
def portHeld (s : State) (swport q : Nat) : Bool :=
  (decide (swport < 32) && !(s.lport swport).up)
    || (decide (32 ≤ swport) && decide (swport < 35) && noCredit s swport q)

/-- The port may transmit: front egress stops outside the modes that serve it, after unseating, and while transport egress is halted;
relay and partner egress after unseating, and the relay's outside Active and Drowse (R41, R176, R749). DEDUCED (log 45, unsafe). -/
def egressOn (s : State) (swport : Nat) : Bool :=
  if swport < 32 then frontOn s && !s.pair.egressHalt
  else if swport < 35 then !s.md.egressOff && (s.md.mode = .active || s.md.mode = .drowse || swport = 34) else true

/-- A Delay_Req has left its port: its MAC timestamp, of 2 ns resolution, is kept (R210, R211). -/
def noteDelayReq (s : State) : State :=
  s.onNet fun n => { n with ptp := { n.ptp with up := n.ptp.up.map fun u => (u.1, ptpTime s / 2 * 2) } }

/-- A frame that has left a front port is counted and mirrored, as it was on the wire: with its egress PCP (R204, R205, R215). -/
def frontSent (swport q : Nat) (f : QFrame) (s : State) : State :=
  let pcp := tabGet 0 (s.lport swport).egress q
  count1 (1056 + swport) (doIf f.mirror.isNone (mirrorPort swport 1 f.len pcp f.ecn) s)

/-- A frame leaves a queue, the head of its leaf (R174, R197, R202): a front port puts it on its wire, and what an engine sends ends with
it; a relay or partner port puts it into a record of the class's forward channel (R189); any other switch port takes it, and what goes to Kumel is shadowed first (R730). DEDUCED (log 234, unsafe). -/
def transmitHead (swport q : Nat) (f : QFrame) (rest : List QFrame) (s : State) : State :=
  let s := setQueue (swport * 8 + q) rest s
  let s := if swport < 32 then
      frontSent swport q f (doIf (f.msg.any fun m => m.kind = .ptpDelayReq) noteDelayReq
        ((f.msg.elim id send) (send { kind := .frameOut, a := swport, b := f.len, c := f.ecn, ws := [word (tabGet 0 (s.lport swport).egress q)] } s)))
    else if swport < 35 then forwardFrame (swLink swport) q f.inPort f.len s
    else send { kind := if swport = 38 then .toKumel else if swport = 35 then .frameOut else .toEngine, a := swport, b := f.len, c := f.ecn } (doIf (swport = 38) (shadow .shadow 1 f.inPort) s)
  doIf (f.inPort < 32) (checkXon f.inPort f.pcp) s

/-- A queue of a switch port may give its head frame now, its order apart. -/
def queueMay (s : State) (swport q : Nat) : Bool :=
  !(decide (8 ≤ q) || decide (39 ≤ swport) || queuePaused s swport q || portHeld s swport q || !egressOn s swport
    || s.md.mode = .drowse && (decide (swport = 36) || decide (swport = 37))) && !(s.queue (swport * 8 + q)).isEmpty

/-- R188: a received PFC frame pauses the queues of its priority for the time the quanta give, 512 bit times each. PRESUMED (log 37, unsafe). -/
def execPfcReceive (lport prio quanta : Nat) (s : State) : Out :=
  .next (if !(s.lport lport).up || 32 ≤ lport || 8 ≤ prio then s
    else if isAnalysis s lport then count1 (1344 + lport) (count1 (1024 + lport) s)
    else
    let until_ := s.clk.now + quanta * 512 / lportRate s lport
    count1 (1248 + lport) (count1 (1024 + lport) (onLport lport (fun x =>
      { x with paused := if quanta = 0 then tabDel x.paused prio else tabIns x.paused prio until_ }) s)))

/-- R188: a pause runs out. -/
def execPfcPauseExpiry (lport prio : Nat) (s : State) : Out :=
  .next (match tabFind (s.lport lport).paused prio with
    | some t => if due t s.clk.now then onLport lport (fun x => { x with paused := tabDel x.paused prio }) s else s
    | none => s)

/-- R186: XOFF is repeated at half the pause time. -/
def execPfcRefresh (lport pcp : Nat) (s : State) : Out :=
  .next (match tabFind (s.lport lport).xoff pcp with
    | some t =>
      if due (t + 0xFFFF * 512 / lportRate s lport / 2) s.clk.now then
        sendPfc lport pcp 0xFFFF (onLport lport (fun x => { x with xoff := tabIns x.xoff pcp s.clk.now }) s)
      else s
    | none => s)

/-! ## Epochs -/

/-- Frames stamped with an epoch that are still inside (R198). -/
def stamped (s : State) (e : Nat) : Nat := sumNat (s.net.queues.map fun q => (q.2.filter fun f => f.epoch = some e).length)

/-- Live epochs (R199). -/
def liveNet (s : State) : Nat := 1 + s.net.older.length

/-- Put a change of the flow table in force. -/
def applyChange (c : FlowChange) (s : State) : State :=
  s.onNet fun n => { n with flows := match c.entry with | some e => tabIns n.flows c.index e | none => tabDel n.flows c.index }

/-- Flip the epoch and apply changes together (R197, R199); each change's reply waits for its drain. DEDUCED (log 43, unsafe). -/
def flipNet (cs : List FlowChange) (s : State) : State :=
  let old := s.net.epoch
  let new := (old + 1) % 65536
  let s := s.onNet fun n =>
    { n with epoch := new, older := n.older ++ [old],
             waits := n.waits ++ cs.map fun c => ⟨c.door, c.tag, c.op, new, s.clk.now, [word new], false, false⟩ }
  forAll cs applyChange (count1 1385 s)

/-- Remove the oldest epochs that have drained (R198). -/
def dropDrained (s : State) : List Nat → List Nat
  | [] => []
  | e :: es => if stamped s e = 0 then dropDrained s es else e :: dropDrained s es

/-- No epoch older than the change's own is live. -/
def netDrained (s : State) (w : EpochWait) : Bool := s.net.older.all fun e => decide ((e + 65536 - w.epoch) % 65536 < 32768)

/-- The drain of a change is complete: its reply is sent, or, where ACCEPTED went out, NET.EPOCH_DRAINED completes it (R198,
R200). -/
def netReply (w : EpochWait) (s : State) : State :=
  if w.sent then finish (fun r => r.door = w.door && r.tag = w.tag && r.op = w.op && r.key = w.epoch) 136 stOk (word w.epoch) s
  else post w.door w.tag w.orphan stOk w.words s

/-- Settle the drains: epochs without frames leave, blocked changes flip together, and replies whose drain is complete go
out (R198–R200). -/
def settleNet (s : State) : State :=
  let s := s.onNet fun n => { n with older := dropDrained s n.older }
  let s := if !s.net.changes.isEmpty && liveNet s < 4 then
      let cs := s.net.changes
      let s := flipNet cs (s.onNet fun n => { n with changes := [] })
      s.onNet fun n => { n with older := dropDrained s n.older }
    else s
  let done := s.net.waits.filter (netDrained s)
  let s := s.onNet fun n => { n with waits := n.waits.filter fun w => !netDrained s w }
  forAll done netReply s

/-- R198–R200: an epoch drains. -/
def execEpochDrained (s : State) : Out := .next (settleNet s)

/-- R200: a drain has not finished 1 s after its flip: the reply is ACCEPTED and NET.EPOCH_SLOW is raised. -/
def execEpochSlow (s : State) : Out :=
  .next (
    let late := fun (w : EpochWait) => !w.sent && due (w.flipAt + sec) s.clk.now
    let ws := s.net.waits.filter late
    let s := s.onNet fun n => { n with waits := n.waits.map fun w => if late w then { w with sent := true } else w }
    forAll ws (fun w s =>
      let s := s.onLb fun l => { l with running := l.running ++ [⟨w.door, w.tag, w.op, w.epoch, 0⟩] }
      raise 135 (word w.epoch) (post w.door w.tag w.orphan stAccepted w.words s)) s)

/-- A change arrives: a flip while fewer than four epochs are live, else the queue of 64, else BUSY (R199). -/
def submitChange (c : FlowChange) (s : State) : Desk :=
  let s := s.onNet fun n => { n with older := dropDrained s n.older }
  if s.net.changes.isEmpty && liveNet s < 4 then (stWithheld, [], settleNet (flipNet [c] s))
  else if s.net.changes.length < 64 then (stWithheld, [], settleNet (s.onNet fun n => { n with changes := n.changes ++ [c] }))
  else (stBusy, [word 100], s)

/-! ## PTP -/

/-- The first cycle start of a gate list at or after a PTP time (R245). DEDUCED (log 46, unsafe). -/
def GateList.startAfter (g : GateList) (t : Nat) : Nat :=
  let cycle := max 1 (sumNat (g.entries.map (·.2)))
  if t ≤ g.base then g.base - (g.base - t) / cycle * cycle else g.base + (t - g.base + cycle - 1) / cycle * cycle

/-- A time step (R252): every running list holds its entry until its next aligned cycle start. -/
def stepGates (s : State) : State :=
  let hold := fun (q : QPort) => match q.gate.cur with
    | some g => if q.gate.running then { q with gate := { q.gate with hold := true, stepAt := g.startAfter (ptpTime s) } } else q
    | none => q
  s.onQos fun d => { d with ports := tabMap d.ports fun _ q => hold q }

/-- Change PTP. -/
def onPtp (f : Ptp → Ptp) (s : State) : State := s.onNet fun n => { n with ptp := f n.ptp }

/-- A data set ranks before another: the standard's comparison goes through its members in order, the lesser first. -/
def rankBefore : List Nat → List Nat → Bool
  | [], _ => false
  | _, [] => true
  | a :: as, b :: bs => decide (a < b) || (a = b && rankBefore as bs)

/-- Of two transmitters the one that the best-master algorithm takes: the better data set, then the lesser identity and port. -/
def betterMaster (a b : PtpMaster) : PtpMaster :=
  if rankBefore (a.rank ++ [a.src, a.lport]) (b.rank ++ [b.src, b.lport]) then a else b

/-- The selected time transmitter (R211): the best of those heard on an enabled port that is up, their last Announce not older than
6 s. -/
def bestMaster (s : State) : Option PtpMaster :=
  let live := s.net.ptp.masters.filter fun m => s.net.ptp.ports.testBit m.lport && (s.lport m.lport).up && decide (s.clk.now < m.heardAt + 6 * sec)
  live.foldl (fun b m => some (match b with | none => m | some x => betterMaster x m)) none

/-- A Sync interval has its offset: the clock is corrected by it at a frequency that its servo gives, which is free, and the interval is
judged (R212); a correction above 10 µs is a step (R252). -/
def steerPtp (lport : Nat) (diff : Int) (s : State) : State :=
  let off := diff - s.net.ptp.delay
  let ok := decide (-1000 ≤ off) && decide (off ≤ 1000)
  let (v, s) := takeFree s
  let now : Int := ptpTime s
  let s := onPtp (fun p => { p with
    offset := off, lport := lport, ns := now - off, base := s.clk.now, freq := ((v.toNat % 2 ^ 20 : Nat) : Int) - 2 ^ 19, lastSync := s.clk.now,
    good := if ok then p.good + 1 else 0, bad := if ok then 0 else p.bad + 1, up := some (diff - off, 0) }) s
  let s := if off < -10000 || 10000 < off then stepGates s else s
  putOut ⟨lport, 0, 2048, 38, 0, 0, [0], { kind := .ptpDelayReq, a := lport, b := s.net.ptp.domain }⟩ s

/-- What a PTP message of the selected domain does (R210, R211). The timestamps are the MAC's, of 2 ns resolution. A two-step Sync is
complete with its Follow_Up. -/
def ptpIn (lport : Nat) (m : PtpMsg) (s : State) : State :=
  let t := ptpTime s / 2 * 2
  let sel := fun (src : Nat) => match bestMaster s with | some b => decide (b.lport = lport) && decide (b.src = src) | none => false
  match m with
  | .announce src rank =>
    onPtp (fun p => { p with masters := (p.masters.filter fun x => !(x.lport = lport && x.src = src)) ++ [⟨lport, src, rank, s.clk.now⟩] }) s
  | .sync src two origin =>
    if !sel src then s
    else if two then onPtp (fun p => { p with sync := some (src, t) }) s
    else steerPtp lport ((t : Int) - origin) s
  | .followUp src origin => match s.net.ptp.sync with
    | some (who, at_) => if sel src && who = src then steerPtp lport ((at_ : Int) - origin) (onPtp (fun p => { p with sync := none }) s) else s
    | none => s
  | .delayResp src origin => match s.net.ptp.up with
    | some (diff, sent) => if sel src && sent ≠ 0 then onPtp (fun p => { p with delay := (diff + ((origin : Int) - sent)) / 2, up := none }) s else s
    | none => s

/-- R206, R211–R213: a PTP message on a front port. An Active module takes it on an enabled logical port; an analysis port discards
it. PRESUMED (log 199, unsafe). -/
def execPtpMessage (lport domain transport : Nat) (m : PtpMsg) (s : State) : Out :=
  .next (
    let p := s.net.ptp
    if !(s.lport lport).up || 32 ≤ lport then s
    else if isAnalysis s lport then count1 (1344 + lport) (count1 (1024 + lport) s)
    else
      let s := count1 (1024 + lport) s
      if !p.enable || p.domain ≠ domain || p.transport ≠ transport || !p.ports.testBit lport || !(s.md.mode = .active || s.md.mode = .drowse) then s
      else ptpIn lport m s)

/-- R212: 16 consecutive Sync intervals within ±1 µs. -/
def execPtpLocked (s : State) : Out :=
  .next (if 16 ≤ s.net.ptp.good && !s.net.ptp.locked then
      raise 139 (word s.net.ptp.lport) (s.onNet fun n => { n with ptp := { n.ptp with locked := true, lockedAt := if n.ptp.everLocked then n.ptp.lockedAt else s.clk.now, everLocked := true, holdover := false } })
    else s)

/-- R212: 4 consecutive intervals outside ±1 µs, or 3 s without Sync. -/
def execPtpUnlocked (s : State) : Out :=
  .next (if s.net.ptp.locked && (4 ≤ s.net.ptp.bad || due (s.net.ptp.lastSync + 3 * sec) s.clk.now) then
      raise 140 (word s.net.ptp.lport) (count1 1388 (s.onNet fun n => { n with ptp := { n.ptp with locked := false, holdover := true, good := 0 } }))
    else s)

/-! ## Commands -/

/-- NET.SET_PORT_MODE (R168, R169). DEDUCED (log 39, unsafe). -/
def deskNetSetPortMode (p : Packet) (s : State) : Desk :=
    let port := bits 1 0 (p.w 2)
    let force := bit 8 (p.w 2)
    let ls := (List.range 8).map (8 * port + ·)
    guardParam (clean (mask 3 0 ||| mask 8 8) (p.w 2)) s fun s =>
    check (force || !ls.any (ctxBound s)) stConflict s fun s =>
      let s := doIf force (forAll ls closeLport) s
      let s := forAll ls lportDown s
      okay (onCage port (fun x =>
        { x with mode := bits 3 2 (p.w 2), lowPwr := x.lowPwr && (!x.cmis || decide (cageSupply port < x.watts)),
                 readyDue := if x.present && x.cmis && !x.ready && decide (x.watts ≤ cageSupply port) then some (s.clk.now + 5 * sec) else x.readyDue }) s)

/-- NET.SET_PORT_MODE (R168, R169). -/
def execNetSetPortMode (p : Packet) (s : State) : Out := letter 0x0201 1 p s (deskNetSetPortMode p)

/-- NET.GET_PORT_STATUS (R215). -/
def deskNetGetPortStatus (p : Packet) (s : State) : Desk :=
    let l := bits 4 0 (p.w 2)
    guardParam (clean (mask 4 0) (p.w 2)) s fun s =>
      let c := s.cage (l / 8)
      answer [flag 0 (s.lport l).up ||| flag 1 c.present ||| flag 2 c.lowPwr ||| fld 5 3 c.mode ||| fld 15 8 c.watts] s

/-- NET.GET_PORT_STATUS (R215). -/
def execNetGetPortStatus (p : Packet) (s : State) : Out := letter 0x0202 1 p s (deskNetGetPortStatus p)

/-- NET.SET_PORT_ADDR (R177, R194, R215): an address whose listener key a manager entry holds is refused. -/
def deskNetSetPortAddr (p : Packet) (s : State) : Desk :=
    let v6 := bit 5 (p.w 2)
    let ip := if v6 then numOf [p.w 6, p.w 7, p.w 8, p.w 9] else (p.w 6).toNat
    guardParam (clean (mask 8 0) (p.w 2) && clean (mask 15 0) (p.w 4) && clean (mask 12 0) (p.w 5)
        && (v6 || (p.w 7 == 0 && p.w 8 == 0 && p.w 9 == 0))) s fun s =>
      let a : AddrSlot := ⟨numOf [p.w 3, p.w 4], bits 11 0 (p.w 5), bit 12 (p.w 5), v6, ip⟩
      let set := onLport (bits 4 0 (p.w 2)) (fun x =>
        { x with addrs := if bit 8 (p.w 2) then tabDel x.addrs (bits 7 6 (p.w 2)) else tabIns x.addrs (bits 7 6 (p.w 2)) a })
      check (!listenerClash (set s)) stConflict s fun s => okay (discChanged (syncListeners (set s)))

/-- NET.SET_PORT_ADDR (R177, R215). -/
def execNetSetPortAddr (p : Packet) (s : State) : Out := letter 0x0203 8 p s (deskNetSetPortAddr p)

/-- The lossless PCP values of all logical ports other than `l`, with two more. -/
def lossValues (s : State) (l : Nat) (a b : Option Nat) : List Nat :=
  (((s.net.lports.filter fun e => e.1 != l).flatMap fun e => [e.2.lossA, e.2.lossB]) ++ [a, b]).filterMap id |>.eraseDups

/-- NET.SET_CLASS_MAP (R184, R185, R215). -/
def deskNetSetClassMap (p : Packet) (s : State) : Desk :=
    let l := bits 4 0 (p.w 2)
    let a := if bit 11 (p.w 2) then some (bits 10 8 (p.w 2)) else none
    let b := if bit 15 (p.w 2) then some (bits 14 12 (p.w 2)) else none
    guardParam (clean (mask 5 0 ||| mask 15 8) (p.w 2) && clean (mask 23 0) (p.w 3)
        && ([4, 5, 6, 7, 8, 9].all fun i => clean (mask 29 0) (p.w i)) && clean (mask 11 0) (p.w 10) && clean (mask 23 0) (p.w 11)) s fun s =>
    check (decide ((lossValues s l a b).length ≤ 2)) stNoResource s fun s =>
      let three := fun (w : Word) (i : Nat) => bits (3 * i + 2) (3 * i) w
      okay (onLport l (fun x =>
        { x with trust := bit 5 (p.w 2), lossA := a, lossB := b,
                 pcpClass := (List.range 8).map fun i => (i, three (p.w 3) i),
                 dscpClass := (List.range 64).map fun d => (d, three (p.w (4 + d / 10)) (d % 10)),
                 egress := (List.range 8).map fun q => (q, three (p.w 11) q) }) s)

/-- NET.SET_CLASS_MAP (R184, R185, R215). -/
def execNetSetClassMap (p : Packet) (s : State) : Out := letter 0x0204 10 p s (deskNetSetClassMap p)

/-- NET.SET_QUEUE (R190, R215). DESIGN CHOICE (log 40, unsafe). -/
def deskNetSetQueue (p : Packet) (s : State) : Desk :=
    let sw := bits 5 0 (p.w 2)
    let e : EcnSet := ⟨bits 15 0 (p.w 3), bits 31 16 (p.w 3), bits 7 0 (p.w 4), bit 8 (p.w 4)⟩
    guardParam (clean (mask 5 0 ||| mask 15 8) (p.w 2) && clean (mask 8 0) (p.w 4) && decide (sw ≤ 38) && decide (e.kmin ≤ e.kmax)) s fun s =>
      okay (s.onNet fun n => { n with ecns := (setBits 8 (bits 15 8 (p.w 2))).foldl (fun t q => tabIns t (sw * 8 + q) e) n.ecns })

/-- NET.SET_QUEUE (R190, R215). -/
def execNetSetQueue (p : Packet) (s : State) : Out := letter 0x0205 3 p s (deskNetSetQueue p)

/-- NET.GET_QUEUE (R202, R215). -/
def deskNetGetQueue (p : Packet) (s : State) : Desk :=
    let sw := bits 5 0 (p.w 2)
    let q := bits 10 8 (p.w 2)
    guardParam (clean (mask 5 0 ||| mask 10 8) (p.w 2) && decide (sw ≤ 38)) s fun s =>
      let fs := s.queue (sw * 8 + q)
      let age := match fs with | [] => 0 | f :: _ => min 0xFFFFFFFF ((s.clk.now - f.at_) / us)
      let oldest := match fs.findSome? (·.epoch) with | none => 0 | some e => flag 16 true ||| fld 15 0 e
      answer [fld 17 0 (sumNat (fs.map fun f => f.minC + f.shC + f.hrC + f.mirC)), word age,
        flag 0 (queuePaused s sw q) ||| flag 1 (tabGet false s.net.stall (sw * 8 + q)) ||| flag 2 (decide (sw < 32) && !(s.lport sw).up), oldest] s

/-- NET.GET_QUEUE (R202, R215). -/
def execNetGetQueue (p : Packet) (s : State) : Out := letter 0x0206 1 p s (deskNetGetQueue p)

/-- NET.FLUSH_QUEUE (R203). -/
def deskNetFlushQueue (p : Packet) (s : State) : Desk :=
    let sw := bits 5 0 (p.w 2)
    guardParam (clean (mask 5 0 ||| mask 15 8) (p.w 2) && decide (sw ≤ 38)) s fun s =>
      let ks := (setBits 8 (bits 15 8 (p.w 2))).map (sw * 8 + ·)
      let fs := ks.flatMap s.queue
      let s := forAll ks (fun k => setQueue k []) (count 1386 fs.length s)
      answer [word fs.length] (forAll fs (fun f s => doIf (f.inPort < 32) (checkXon f.inPort f.pcp) s) s)

/-- NET.FLUSH_QUEUE (R203). -/
def execNetFlushQueue (p : Packet) (s : State) : Out := letter 0x0207 1 p s (deskNetFlushQueue p)

/-- NET.SET_BUFFER (R181, R182, R215, Table 5.4). -/
def deskNetSetBuffer (p : Packet) (s : State) : Desk :=
    let pend := bits 16 0 (p.w 2)
    let dl := bits 16 0 (p.w 3)
    let mir := bits 16 0 (p.w 4)
    let qmin := bits 8 0 (p.w 5)
    let hr := bits 12 0 (p.w 6)
    let xoff := bits 15 0 (p.w 7)
    let xon := bits 31 16 (p.w 7)
    guardParam (clean (mask 16 0) (p.w 2) && clean (mask 16 0) (p.w 3) && clean (mask 16 0) (p.w 4) && clean (mask 8 0 ||| mask 18 16) (p.w 5)
        && clean (mask 12 0) (p.w 6) && decide (4096 ≤ pend) && decide (pend ≤ 65536) && decide (dl ≤ 16384) && decide (mir ≤ 32768)
        && decide (qmin ≤ 256) && decide (hr ≤ 4096) && decide (xon < xoff)) s fun s =>
    check (decide (pend + dl + mir + 312 * qmin + 64 * hr + 32768 ≤ 196608)) stNoResource s fun s =>
      okay (s.onNet fun n => { n with pend := pend, dlCells := dl, mirCells := mir, qmin := qmin, alpha := bits 18 16 (p.w 5),
                                      headroom := hr, xoff := xoff, xon := xon, dlFull := n.dlFull && decide (dl ≤ n.dlCells) })

/-- NET.SET_BUFFER (R181, R182, R215, Table 5.4). -/
def execNetSetBuffer (p : Packet) (s : State) : Out := letter 0x0208 6 p s (deskNetSetBuffer p)

/-- The flow entry that NET.SET_FLOW spells (Table 5.8). -/
def flowOf (p : Packet) : FlowEntry :=
  let v6 := bit 20 (p.w 2)
  let ip := fun i => if v6 then numOf [p.w i, p.w (i + 1), p.w (i + 2), p.w (i + 3)] else (p.w i).toNat
  { key := ⟨decide (bits 19 17 (p.w 2) = 2), v6, ip 3, ip 7, bits 15 0 (p.w 11), bits 31 16 (p.w 11), bits 7 0 (p.w 12),
            bits 19 8 (p.w 12), bit 20 (p.w 12), bits 25 21 (p.w 12)⟩,
    action := bits 2 0 (p.w 13), target := bits 8 3 (p.w 13),
    mirror := if bit 9 (p.w 13) then some (bits 11 10 (p.w 13)) else none, ctx := none }

/-- The ranges of NET.SET_FLOW (R195, R215, Table 5.8). -/
def flowOk (p : Packet) : Bool :=
  let e := flowOf p
  let kind := bits 19 17 (p.w 2)
  clean (mask 20 0) (p.w 2) && clean (mask 25 0) (p.w 12) && clean (mask 11 0) (p.w 13) && p.w 14 == 0
    && decide (bits 16 0 (p.w 2) ≤ 8191) && (kind = 1 || kind = 2)
    && (bit 20 (p.w 2) || ([4, 5, 6, 8, 9, 10].all fun i => p.w i == 0))
    && (kind = 1 || (decide (e.key.src = 0) && decide (e.key.sport = 0))) && (e.key.proto = 6 || e.key.proto = 17)
    && decide (e.action ≤ 4) && (e.action != 0 || ((e.target = 36 || e.target = 37) && kind = 2))
    && (e.action != 1 || decide (e.target ≤ 35))

/-- NET.SET_FLOW (R192–R200). DEDUCED (log 41, unsafe). -/
def deskNetSetFlow (p : Packet) (s : State) : Desk :=
    let i := bits 16 0 (p.w 2)
    let e := flowOf p
    guardParam (flowOk p) s fun s =>
    check (!(s.net.flows.any fun x => x.1 != i && x.2.key = e.key)
        && !(s.net.changes.any fun c => c.index != i && (match c.entry with | some x => x.key = e.key | none => false))) stConflict s fun s =>
      submitChange ⟨p.door, p.tag, 0x0209, i, some e⟩ s

/-- NET.SET_FLOW (R192–R200). -/
def execNetSetFlow (p : Packet) (s : State) : Out := letter 0x0209 13 p s (deskNetSetFlow p)

/-- NET.DELETE_FLOW (R197, R215). -/
def deskNetDeleteFlow (p : Packet) (s : State) : Desk :=
    let i := bits 16 0 (p.w 2)
    guardParam (clean (mask 16 0) (p.w 2) && decide (i ≤ 8191)) s fun s =>
    check (tabHas s.net.flows i || s.net.changes.any fun c => c.index = i && c.entry.isSome) stNotFound s fun s =>
      submitChange ⟨p.door, p.tag, 0x020A, i, none⟩ s

/-- NET.DELETE_FLOW (R197, R215). -/
def execNetDeleteFlow (p : Packet) (s : State) : Out := letter 0x020A 1 p s (deskNetDeleteFlow p)

/-- NET.GET_EPOCH (R199, R215). -/
def deskNetGetEpoch (_p : Packet) (s : State) : Desk :=
    let older := dropDrained s s.net.older
    let oldest := older.headD s.net.epoch
    answer [fld 15 0 s.net.epoch ||| fld 31 16 oldest, fld 2 0 (1 + older.length) ||| fld 15 8 s.net.changes.length, word (stamped s oldest)] s

/-- NET.GET_EPOCH (R199, R215). -/
def execNetGetEpoch (p : Packet) (s : State) : Out := letter 0x020B 0 p s (deskNetGetEpoch p)

/-- NET.SET_MIRROR (R204, R206, R215). -/
def deskNetSetMirror (p : Packet) (s : State) : Desk :=
    let m : Mirror := ⟨bit 2 (p.w 2), bits 12 8 (p.w 2), bits 14 13 (p.w 2), bits 20 16 (p.w 2), bit 21 (p.w 2)⟩
    guardParam (clean (mask 2 0 ||| mask 14 8 ||| mask 21 16) (p.w 2)) s fun s =>
    check (!m.enable || !ctxBound s m.analysis) stConflict s fun s =>
      okay (s.onNet fun n => { n with mirrors := tabIns n.mirrors (bits 1 0 (p.w 2)) m })

/-- NET.SET_MIRROR (R204, R206, R215). -/
def execNetSetMirror (p : Packet) (s : State) : Out := letter 0x020C 1 p s (deskNetSetMirror p)

/-- NET.SET_DEAD_LETTER (R207, R208, R215). -/
def deskNetSetDeadLetter (p : Packet) (s : State) : Desk :=
    let tr := bits 14 8 (p.w 2)
    guardParam (clean (mask 3 0 ||| mask 14 8) (p.w 2) && decide (2 ≤ tr) && decide (tr ≤ 64)) s fun s =>
      okay (s.onNet fun n => { n with dlEnable := bits 2 0 (p.w 2), dlRing := bit 3 (p.w 2), dlTrunc := tr })

/-- NET.SET_DEAD_LETTER (R207, R208, R215). -/
def execNetSetDeadLetter (p : Packet) (s : State) : Out := letter 0x020D 1 p s (deskNetSetDeadLetter p)

/-- The words of a capture record (Table 5.6). -/
def Capture.toWords (c : Capture) : List Word :=
  [fld 15 0 c.capLen ||| fld 31 16 c.origLen, fld 1 0 c.reason ||| fld 7 2 c.swport ||| flag 8 c.ctx.isSome,
   fld 15 0 (c.ctx.getD 0) ||| fld 31 16 c.epoch] ++ words2 c.time ++ (c.body ++ List.replicate ((c.capLen + 3) / 4 - c.body.length) 0)

/-- A capture record leaves the queue; an emptied queue may report its next filling. -/
def dropCapture (id : Nat) (s : State) : State :=
  s.onNet fun n =>
    let q := n.dlq.filter fun c => c.id != id
    { n with dlq := q, dlFull := n.dlFull && decide (q.length = n.dlq.length) }

/-- The record lies in an open descriptor of a Service DMA stream of the dead-letter queue. -/
def streamed (s : State) (id : Nat) : Bool :=
  tabAny s.se.chans fun _ x => decide (x.src = 3) && (match x.desc with | some d => d.recs.contains id | none => false)

/-- NET.READ_DEAD_LETTER (R209): the oldest record that no stream delivers already, so that each is delivered once. -/
def deskNetReadDeadLetter (_p : Packet) (s : State) : Desk :=
    match s.net.dlq.find? fun c => !streamed s c.id with
    | none => deny stNotFound s
    | some c => answer c.toWords (dropCapture c.id s)

/-- NET.READ_DEAD_LETTER (R209). -/
def execNetReadDeadLetter (p : Packet) (s : State) : Out := letter 0x020E 0 p s (deskNetReadDeadLetter p)

/-- NET.SET_PTP (R210, R211, R215). -/
def deskNetSetPtp (p : Packet) (s : State) : Desk :=
    guardParam (clean (mask 6 0 ||| mask 10 8) (p.w 2) && decide (bits 10 9 (p.w 2) ≤ 2)) s fun s =>
      okay (s.onNet fun n => { n with ptp := { n.ptp with domain := bits 6 0 (p.w 2), enable := bit 8 (p.w 2), transport := bits 10 9 (p.w 2), ports := (p.w 3).toNat } })

/-- NET.SET_PTP (R210, R211, R215). -/
def execNetSetPtp (p : Packet) (s : State) : Out := letter 0x020F 2 p s (deskNetSetPtp p)

/-- NET.GET_PTP (R215). -/
def deskNetGetPtp (_p : Packet) (s : State) : Desk :=
    let t := s.net.ptp
    let secs := ptpTime s / sec
    answer [flag 0 t.locked ||| flag 1 t.holdover ||| fld 12 8 t.lport, BitVec.ofInt 32 t.offset, word secs, fld 15 0 (secs >>> 32)] s

/-- NET.GET_PTP (R215). -/
def execNetGetPtp (p : Packet) (s : State) : Out := letter 0x0210 0 p s (deskNetGetPtp p)

end Sys2Proof.Machine
end

