-- ==== Sys2Proof/Machine/Sources.lean ====
section
/-! DEFINITION. The sources of the Service DMA (Table 21.10): the records each holds, and their removal at write-back. -/
namespace Sys2Proof.Machine

/-- The body of a stream record (Table 23.2). -/
def StreamRec.toWords (r : StreamRec) : List Word :=
  word r.seq :: words2 r.time ++ [fld 12 0 r.first ||| fld 24 16 256]
    ++ (List.range 256).flatMap fun i => (tabGet {} r.vals (r.first + i) : Ctr).toWords

/-- The records a source holds, oldest first: an identifier and the body's words. -/
def sourceRecords (s : State) (src : Nat) : List (Nat × List Word) :=
  match src with
  | 1 => s.lb.d1.evq.map fun e => (e.seq.toNat, e.toWords)
  | 2 => s.tal.stLeft.map fun r => (r.id, r.toWords)
  | 3 => s.net.dlq.map fun c => (c.id, c.toWords)
  | 4 => s.mem.log.map fun r => (r.eseq, r.words)
  | _ => []

/-- The records leave their source when the write of word 2 is issued (R894); the error log keeps its own. -/
def removeRecords (src : Nat) (ids : List Nat) (s : State) : State :=
  match src with
  | 1 => settle 1 (onDoor 1 (fun x => { x with evq := x.evq.filter fun e => !ids.contains e.seq.toNat }) s)
  | 2 => s.onTal fun t => { t with stLeft := t.stLeft.filter fun r => !ids.contains r.id }
  | 3 => forAll ids dropCapture s
  | _ => s

end Sys2Proof.Machine
end

