-- ==== Sys2Proof/Machine/Endpoint.lean ====
section
/-! DEFINITION. The Service Endpoint and the Service DMA (chapter 21). -/
namespace Sys2Proof.Machine

/-- One DMA channel by its number. -/
def State.chan (s : State) (c : Nat) : Channel := tabGet {} s.se.chans c

/-- Change one DMA channel. -/
def onChan (c : Nat) (f : Channel → Channel) (s : State) : State :=
  s.onSe fun e => { e with chans := tabMod {} e.chans c f }

/-- The channel is neither OFF nor HALTED. -/
def Channel.active (c : Channel) : Bool := c.st != .off && c.st != .halted

/-- The channels that are neither OFF nor HALTED. -/
def activeChans (s : State) : List Nat := (List.range 8).filter fun c => (s.chan c).active

/-- A channel halts (R891, R893, R896–R900): its open descriptor is left, its records stay in their source, and its vector
may be signalled (Table 21.3). -/
def haltChan (code : HaltCode) (c : Nat) (s : State) : State :=
  let s := onChan c (fun x => { x with st := .halted, halt := code, desc := none }) s
  doIf (s.chan c).irqEn (signalVec (1 + c)) s

/-- SESTAT gains a bit: vector 9 (Table 21.3). -/
def gainStat (was : Bool) (f : Se → Se) (s : State) : State :=
  let s := s.onSe f
  doIf (!was) (signalVec 9) s

/-- The mask of a list of channels (R902). -/
def chanMask (cs : List Nat) : Nat := sumNat (cs.map fun c => 2 ^ c)

/-- Halt every active channel for Bus Master Enable or D3hot (R884, R899). -/
def masterOff (s : State) : State :=
  let cs := activeChans s
  let s := forAll cs (haltChan .masterOff) s
  let s := gainStat s.se.mOff (fun e => { e with mOff := true }) s
  raise 28 (fld 7 0 (chanMask cs)) s

/-- A bus error stops every channel (R897). -/
def busError (ecause : Nat) (s : State) : State :=
  let cs := activeChans s
  let s := forAll cs (haltChan .busError) s
  let s := gainStat s.se.busErr (fun e => { e with busErr := true, ecause := ecause }) s
  raise 27 (fld 7 0 (chanMask cs) ||| fld 11 8 ecause) (count1 48 s)

/-- Send the messages that fell due and can now leave (R885). -/
def sendPending (s : State) : State :=
  forAll (List.range 10) (fun v s =>
    let e := tabGet {} s.se.vecs v
    if e.pending && !e.masked && s.se.bme && !s.se.d3 then
      send { kind := .msix, a := v, b := e.addr, ws := [e.data] }
        (s.onSe fun x => { x with vecs := tabIns x.vecs v { e with pending := false } })
    else s) s

/-- The replies of door 1's packets are disowned, wherever they wait (R845). -/
def disown (s : State) : State :=
  let s := s.onLb fun l =>
    { l with inbox := l.inbox.map fun e => if e.door = 1 then { e with orphan := true } else e,
             replies := l.replies.map fun r => if r.door = 1 then { r with orphan := true } else r }
  let s := s.onVol fun n => { n with waits := n.waits.map fun w => match w.who with | .letter 1 _ _ => { w with orphan := true } | _ => w }
  s.onNet fun n => { n with waits := n.waits.map fun w => if w.door = 1 then { w with orphan := true } else w }

/-- Door 1 takes its Reset values; its event queue and mask stay (R845, R887). DEDUCED (log 197, unsafe). -/
def resetDoor1 (s : State) : State :=
  onDoor 1 (fun x => { x with st := .idle, ecode := 0, discard := false, evEn := false, rpEn := false,
                              expect := 0, buf := [], reply := [] }) s

/-- R887, R845: PERST_N is asserted. The endpoint takes its Reset values and door 1 returns to IDLE; a packet in its desk
runs to its end and its reply is disowned. -/
def execPerstAssert (s : State) : Out :=
  .next (
    let s := resetDoor1 (disown { s with pins := { s.pins with perstN := false }, se := {} })
    raise 26 0 (count1 51 (settle 1 (doIf (s.lockHolder = 1) releaseLock s))))

/-- R888: the endpoint's link comes up, PERST_N being high. -/
def execSeLinkUp (s : State) : Out :=
  .next (if s.se.link then s else
    raise 24 0 ({ s with pins := { s.pins with perstN := true } }.onSe fun e => { e with link := true }))

/-- The endpoint's link goes down (R888, R900). -/
def seDown (s : State) : State :=
  if !s.se.link then s
  else
    let cs := activeChans s
    let s := forAll cs (haltChan .linkDown) (s.onSe fun e => { e with link := false })
    let s := gainStat s.se.linkLoss (fun e => { e with linkLoss := true }) s
    raise 25 0 (count1 52 s)

/-- R888, R900: a hot reset or link-down. -/
def execSeLinkDown (s : State) : Out := .next (seDown s)

/-- R61, R899: Bus Master Enable is cleared. -/
def execBusMasterDisable (s : State) : Out :=
  .next (if s.se.link && s.se.bme then masterOff (s.onSe fun e => { e with bme := false }) else s)

/-- R61, R885, R899: Bus Master Enable is set; pending messages are sent and no channel restarts. While PERST_N is low or the link is
down nothing reaches the endpoint. -/
def execBusMasterEnable (s : State) : Out := .next (if s.se.link then sendPending (s.onSe fun e => { e with bme := true }) else s)

/-- R61, R884: entry to D3hot. -/
def execPowerStateD3hot (s : State) : Out :=
  .next (if !s.se.link || s.se.d3 then s else masterOff (s.onSe fun e => { e with d3 := true }))

/-- R61, R884: return to D0 keeps every register; pending messages are sent (R885). -/
def execPowerStateD0 (s : State) : Out := .next (if s.se.link then sendPending (s.onSe fun e => { e with d3 := false }) else s)

/-- Unmask a vector and send its pending message (R885). -/
def unmask (v : Nat) (s : State) : State :=
  sendPending (s.onSe fun e => { e with vecs := tabMod {} e.vecs v fun x => { x with masked := false } })

/-- R61, R885: a vector is unmasked. -/
def execMsixUnmask (v : Nat) (s : State) : Out := .next (if s.se.link && decide (v < 10) then unmask v s else s)

/-! ## Channels -/

/-- The address of the descriptor at HEAD, 32 bytes each (Tables 21.9, 21.11). -/
def Channel.descAddr (x : Channel) : Nat := numOf [x.baseLo, x.baseHi] + 32 * x.head

/-- Issue the fetch of the 32 bytes of the descriptor at HEAD (R893). -/
def startFetch (c : Nat) (s : State) : State :=
  onChan c (fun x => { x with fetch := true, fetchAt := s.clk.now }) (send { kind := .dmaRead, a := c, b := (s.chan c).descAddr, c := 32 } s)

/-- The ring's base is aligned and its size within 4–12 (R891). -/
def Channel.ringOk (x : Channel) : Bool :=
  decide (4 ≤ x.log2n) && decide (x.log2n ≤ 12) && decide (bits 5 0 x.baseLo = 0)

/-- Another channel that is not OFF serves the same source (R891). -/
def srcTaken (s : State) (c : Nat) : Bool :=
  (List.range 8).any fun k => k != c && (s.chan k).st != .off && (s.chan k).src == (s.chan c).src

/-- EN is written 1 (R891, R898): a channel that is OFF or HALTED checks its ring and its source and starts from HEAD. DESIGN CHOICE (log 20, unsafe). -/
def enableChan (c : Nat) (s : State) : State :=
  let x := s.chan c
  if x.active then s
  else
    let s := onChan c (fun x => { x with en := true }) s
    if !x.ringOk then haltChan .badRing c s
    else if x.src = 0 || srcTaken s c then haltChan .srcConflict c s
    else if s.se.busErr then haltChan .busError c s
    else if !s.se.bme || s.se.d3 then haltChan .masterOff c s
    else startFetch c (onChan c (fun x => { x with st := .running, halt := .none, desc := none }) s)

/-- Close the open descriptor and write words 3 to 7 back, then word 2 with OWN clear (R894): its records leave their source, DONE is set, HEAD advances and the
vector is signalled if IRQ and IRQEN are set. -/
def closeDesc (c status : Nat) (s : State) : State :=
  match (s.chan c).desc with
  | none => s
  | some d =>
    let place := (s.chan c).descAddr
    let s := removeRecords (s.chan c).src d.recs s
    let s := onChan c (fun x => { x with done := true, head := (x.head + 1) % 2 ^ x.log2n, dseq := x.dseq + 1, desc := none,
                                         logNext := if x.src = 4 then d.recs.foldl max x.logNext else x.logNext }) s
    let ws := [fld 20 0 d.used, fld 15 0 d.recs.length ||| fld 19 16 status] ++ words2 s.clk.now
      ++ [word (s.chan c).dseq, fld 20 0 d.len ||| flag 30 d.irq]
    let s := send { kind := .dmaBack, a := c, b := place, ws := ws } s
    doIf (d.irq && (s.chan c).irqEn) (signalVec (1 + c)) (count1 (40 + c) s)

/-- EN is cleared (R896): an open descriptor that holds a record closes with STATUS 2, and the channel halts. -/
def disableChan (c : Nat) (s : State) : State :=
  let s := onChan c (fun x => { x with en := false }) s
  if !(s.chan c).active then s
  else
    let holds := match (s.chan c).desc with | some d => !d.recs.isEmpty | none => false
    haltChan .stopped c (doIf holds (closeDesc c 2) s)

/-- A write to CHCTL: IRQEN always; SRC and FLUSHMS while OFF or HALTED (R891); then EN. -/
def writeChctl (c : Nat) (w : Word) (s : State) : State :=
  let s := onChan c (fun x =>
    let x := { x with irqEn := bit 1 w }
    if x.active then x else { x with src := bits 6 4 w, flush := bits 23 16 w }) s
  if bit 0 w then enableChan c s else doIf (s.chan c).en (disableChan c) s

/-- R891: a write to CHCTL that sets EN. -/
def execChctlEnable (c : Nat) (w : Word) (s : State) : Out :=
  .next (if c < 8 && doorOpen s 1 then writeChctl c (w ||| 1) s else s)

/-- R896: EN is cleared. -/
def execChctlDisable (c : Nat) (s : State) : Out := .next (if c < 8 && doorOpen s 1 then disableChan c s else s)

/-- A write to RINGLO: the ring base and HEAD to 0, while OFF or HALTED (Table 21.9, R891). -/
def writeRinglo (c : Nat) (w : Word) (s : State) : State :=
  onChan c (fun x => if x.active then x else { x with baseLo := w, head := 0 }) s

/-- R891: a write to RINGLO. -/
def execRingloWrite (c : Nat) (aligned : Bool) (w : Word) (s : State) : Out :=
  .next (access 1 aligned (fun s => if c < 8 then writeRinglo c w s else s) s)

/-- A write to KICK: a waiting channel fetches again (R893). -/
def kick (c : Nat) (s : State) : State := doIf ((s.chan c).st = .waiting) (startFetch c) s

/-- R893: a write to KICK. -/
def execKick (c : Nat) (s : State) : Out := .next (if c < 8 && doorOpen s 1 then kick c s else s)

/-- A completion for no outstanding read is dropped and counted (R901). -/
def unexpected (s : State) : State := count1 49 (gainStat s.se.unexp (fun e => { e with unexp := true }) s)

/-- R893, R899, R901: the completion of a descriptor fetch arrives. DEDUCED (log 21, unsafe). -/
def execDmaDescriptorFetched (c : Nat) (ws : List Word) (s : State) : Out :=
  .next (
    let x := s.chan c
    if !s.se.link then s
    else if !x.fetch || 8 ≤ c then unexpected s
    else
      let s := onChan c (fun x => { x with fetch := false }) s
      if !x.active then (if x.halt = .masterOff then count1 50 s else unexpected s)
      else
        let w2 := wordAt ws 2
        let len := bits 20 0 w2
        if !bit 31 w2 then onChan c (fun x => { x with st := .waiting, pollAt := s.clk.now + 100 * us }) s
        else if len < 4096 || 1048576 < len || len % 64 != 0 || bits 5 0 (wordAt ws 0) != 0 then haltChan .badDesc c s
        else onChan c (fun x => { x with st := .running, desc := some ⟨numOf [wordAt ws 0, wordAt ws 1], len, bit 30 w2, 0, [], none⟩ }) s)

/-- R893: 100 µs pass in WAITING. -/
def execDmaDescriptorPoll (c : Nat) (s : State) : Out :=
  .next (if (s.chan c).st = .waiting && due (s.chan c).pollAt s.clk.now && c < 8 then
      startFetch c (onChan c (fun x => { x with pollAt := s.clk.now + 100 * us }) s)
    else s)

/-- The next record of a channel's source that its open descriptor does not hold yet. -/
def nextRecord (s : State) (c : Nat) (d : OpenDesc) : Option (Nat × List Word) :=
  (sourceRecords s (s.chan c).src).find? fun r => !d.recs.contains r.1 && ((s.chan c).src != 4 || decide ((s.chan c).logNext < r.1))

/-- R892, R894: the source's next record is written to the open descriptor, or closes it full and the next descriptor is
fetched. -/
def execDmaRecordAvailable (c : Nat) (s : State) : Out :=
  .next (if !(s.chan c).active || 8 ≤ c then s else
    match (s.chan c).desc with
    | none => s
    | some d =>
      match nextRecord s c d with
      | none => s
      | some (id, body) =>
        let n := 4 * (body.length + 1)
        if d.len < d.used + n then startFetch c (closeDesc c 0 s)
        else
          let d' : OpenDesc := { d with used := d.used + n, recs := d.recs ++ [id], first := some (d.first.getD s.clk.now) }
          send { kind := .dmaData, a := c, b := d.buf + d.used, ws := (fld 3 0 (s.chan c).src ||| fld 31 16 body.length) :: body }
            (onChan c (fun x => { x with desc := some d' }) s))

/-- R894: FLUSHMS has passed since the descriptor's first record. -/
def execDmaFlushTimeout (c : Nat) (s : State) : Out :=
  .next (match (s.chan c).desc with
    | some { first := some t, .. } =>
      if due (t + max 1 (s.chan c).flush * ms) s.clk.now && (s.chan c).active && c < 8 then startFetch c (closeDesc c 1 s) else s
    | _ => s)

/-- R897: a bus error with its cause (Table 21.6). -/
def execDmaBusError (ecause : Nat) (s : State) : Out := .next (if s.se.link then busError ecause s else s)

/-- R897: a read has had no completion for 50 ms. -/
def execDmaReadTimeout (s : State) : Out :=
  .next (if (activeChans s).any fun c => (s.chan c).fetch && due ((s.chan c).fetchAt + 50 * ms) s.clk.now then busError 3 s else s)

/-- R901: a completion whose tag names no outstanding read. -/
def execDmaUnexpectedCompletion (s : State) : Out := .next (if s.se.link then unexpected s else s)

/-! ## Register writes -/

/-- A write to the MSI-X table, 16 bytes a vector: address, data and the mask bit. -/
def writeMsix (v word : Nat) (w : Word) (s : State) : State :=
  let s := s.onSe fun e => { e with vecs := tabMod {} e.vecs v fun x =>
    match word with
    | 0 => { x with addr := x.addr / 2 ^ 32 * 2 ^ 32 + w.toNat }
    | 1 => { x with addr := x.addr % 2 ^ 32 + w.toNat * 2 ^ 32 }
    | 2 => { x with data := w }
    | _ => { x with masked := bit 0 w } }
  sendPending s

/-- A write to a channel's register at offset `o` of its block (Tables 21.7–21.9). -/
def writeChanReg (c o : Nat) (w : Word) (s : State) : State :=
  match o with
  | 0x00 => writeChctl c w s
  | 0x04 => doIf (bit 8 w) (onChan c fun x => { x with done := false }) s
  | 0x08 => writeRinglo c w s
  | 0x0C => onChan c (fun x => if x.active then x else { x with baseHi := w }) s
  | 0x10 => onChan c (fun x => if x.active then x else { x with log2n := bits 3 0 w }) s
  | 0x18 => kick c s
  | _ => s

/-- An aligned write to BAR0 (Table 21.4); reserved and read-only registers ignore it (R9, R11). -/
def writeBar0 (o : Nat) (w : Word) (s : State) : State :=
  if o = 0x0008 then s.onSe fun e =>
    { e with busErr := e.busErr && !bit 0 w, mOff := e.mOff && !bit 1 w, unexp := e.unexp && !bit 2 w,
             linkLoss := e.linkLoss && !bit 3 w }
  else if o = 0x0100 then writeLbctl 1 w s
  else if o = 0x0108 then writeLbcnt 1 (bits 12 0 w) s
  else if o = 0x010C then writeLbdata 1 w s
  else if 0x1000 ≤ o && o < 0x1200 then writeChanReg ((o - 0x1000) / 0x40) ((o - 0x1000) % 0x40) w s
  else if 0x2000 ≤ o && o < 0x20A0 then writeMsix ((o - 0x2000) / 16) ((o - 0x2000) % 16 / 4) w s
  else s

/-- The word that a read of a channel's register returns (Tables 21.7–21.9); KICK, being write-only, and reserved offsets read as zero
(R9, R11). -/
def readChanReg (x : Channel) (o : Nat) : Word :=
  match o with
  | 0x00 => flag 0 x.en ||| flag 1 x.irqEn ||| fld 6 4 x.src ||| fld 23 16 x.flush
  | 0x04 => chstat x
  | 0x08 => x.baseLo
  | 0x0C => x.baseHi
  | 0x10 => fld 3 0 x.log2n
  | 0x14 => fld 11 0 x.head
  | _ => 0

/-- The word of the MSI-X table that a read returns, 16 bytes a vector (R882). -/
def readMsix (x : Vector10) (word_ : Nat) : Word :=
  match word_ with
  | 0 => word (x.addr % 2 ^ 32)
  | 1 => word (x.addr / 2 ^ 32)
  | 2 => x.data
  | _ => flag 0 x.masked

/-- The word that an aligned read of BAR0 returns (Table 21.4), except LBDATA, whose read acts (LBDATA_READ); reserved offsets and bits
read as zero (R9, R11). -/
def readBar0 (s : State) (o : Nat) : Word :=
  if o = 0x0000 then 0x48241F3A
  else if o = 0x0004 then fld 7 0 s.order ||| fld 8 8 s.bay.bay ||| fld 11 9 s.pos ||| fld 15 12 8 ||| fld 23 16 10
  else if o = 0x3000 then word (sumNat ((List.range 10).map fun v => if (tabGet {} s.se.vecs v).pending then 2 ^ v else 0))
  else if o = 0x0100 then lbctl s 1
  else if o = 0x0104 then lbstat s 1
  else if o = 0x0108 then fld 12 0 (lbcnt s 1)
  else if o = 0x0008 then sestat s.se
  else if 0x1000 ≤ o && o < 0x1200 then readChanReg (s.chan ((o - 0x1000) / 0x40)) ((o - 0x1000) % 0x40)
  else if 0x2000 ≤ o && o < 0x20A0 then readMsix (tabGet {} s.se.vecs ((o - 0x2000) / 16)) ((o - 0x2000) % 16 / 4)
  else 0

/-- The word that a read of configuration space returns where the spec gives its place: Vendor and Device ID, Bus Master Enable, class
and Revision ID, BAR0, BAR1 to BAR5 and the expansion ROM absent, Subsystem ID, and no Interrupt Pin (Table 21.1). The offsets are those
of the PCIe base specification. PRESUMED (log 252, unsafe). -/
def readConfig (s : State) (o : Nat) : Word :=
  match o with
  | 0x00 => 0x48241F3A
  | 0x04 => flag 2 s.se.bme ||| flag 20 true
  | 0x08 => fld 31 8 0x088000 ||| fld 7 0 Config.step.toNat
  | 0x10 => word (s.se.bar0 % 2 ^ 32) ||| 4
  | 0x14 => word (s.se.bar0 / 2 ^ 32)
  | 0x2C => fld 15 0 0x1F3A ||| fld 31 16 s.order
  | _ => 0

/-- A write to configuration space: BAR0 is assigned; Initiate FLR and every other field without a row of its own has no
effect (R881, R882, R889). -/
def writeConfig (o : Nat) (w : Word) (s : State) : State :=
  if o = 0x10 then s.onSe fun e => { e with bar0 := e.bar0 / 2 ^ 32 * 2 ^ 32 + w.toNat / 65536 * 65536 }
  else if o = 0x14 then s.onSe fun e => { e with bar0 := e.bar0 % 2 ^ 32 + w.toNat * 2 ^ 32 }
  else s

/-- R11, R886: a write to a register acts by its access code; a BAR0 write that is not an aligned 32-bit request is ignored
and counted. -/
def execRegisterWrite (r : RegTarget) (aligned : Bool) (w : Word) (s : State) : Out :=
  .next (match r with
    | .lbctl d => access d aligned (writeLbctl d w) s
    | .lbstat d => access d aligned id s
    | .bar0 o => access 1 aligned (writeBar0 o w) s
    | .config o => if s.se.link then writeConfig o w s else s)

end Sys2Proof.Machine
end

