-- ==== Sys2Proof/Machine/Counters.lean ====
section
/-! DEFINITION. The performance counters (chapter 23): reads, snapshots, clearing and streaming. -/
namespace Sys2Proof.Machine

/-- The counter ranges that Table 20.6 assigns. -/
def ctrRanges : List (Nat × Nat) :=
  [(0, 7), (16, 35), (40, 52), (512, 616), (1024, 1388), (1536, 1907), (2048, 2073), (2080, 2102), (2560, 2585),
   (3072, 3085), (3584, 3601), (4096, 4207), (4608, 4804), (5120, 5178), (5632, 5675), (6144, 6190), (6656, 6696),
   (7168, 7174), (7680, 7682)]

/-- Table 20.6 assigns counter `n`. -/
def ctrAssigned (n : Nat) : Bool := ctrRanges.any fun r => decide (r.1 ≤ n) && decide (n ≤ r.2)

/-- How many counters Table 20.6 assigns within group `g`. -/
def assignedIn (g : Nat) : Nat := sumNat ((ctrRanges.filter fun r => r.1 / 512 = g).map fun r => r.2 + 1 - r.1)

/-- Latch every counter into the snapshot bank (R926); the snapshot's own copy of counter 7,680 includes it (R935). -/
def takeSnapshot (s : State) : State :=
  let s := count1 7680 s
  s.onTal fun t => { t with bank := t.ctrs, sseq := t.sseq + 1, stime := s.clk.now }

/-- The reply words of a snapshot: SSEQ and the time (R934). -/
def snapWords (s : State) : List Word := word s.tal.sseq :: words2 s.tal.stime

/-- TAL.READ (R934). -/
def deskTalRead (p : Packet) (s : State) : Desk :=
    let first := bits 12 0 (p.w 2)
    let snap := bit 16 (p.w 2)
    let n := bits 6 0 (p.w 3)
    guardParam (clean (mask 12 0 ||| mask 16 16) (p.w 2) && clean (mask 6 0) (p.w 3) && decide (1 ≤ n) && decide (n ≤ 64)
        && decide (first + n ≤ 8192)) s fun s =>
    check (!snap || decide (s.tal.sseq ≠ 0)) stNotFound s fun s =>
      let t := if snap then s.tal.bank else s.tal.ctrs
      let vals := (List.range n).flatMap fun i => (tabGet {} t (first + i) : Ctr).toWords
      answer ((if snap then snapWords s else 0 :: words2 s.clk.now) ++ vals) s

/-- TAL.READ (R934). -/
def execTalRead (p : Packet) (s : State) : Out := letter 0x0F01 2 p s (deskTalRead p)

/-- TAL.SNAPSHOT (R926, R934). -/
def deskTalSnapshot (_p : Packet) (s : State) : Desk := let s := takeSnapshot s; answer (snapWords s) s

/-- TAL.SNAPSHOT (R926, R934). -/
def execTalSnapshot (p : Packet) (s : State) : Out := letter 0x0F02 0 p s (deskTalSnapshot p)

/-- Clear the counters of the selected groups, or their overflow bits alone (R927). -/
def clearCtrs (m : Nat) (ovfOnly : Bool) (t : Tab Ctr) : Tab Ctr :=
  if ovfOnly then tabMap t fun n c => if m.testBit (n / 512) then { c with ovf := false } else c
  else tabFilter t fun n _ => !m.testBit (n / 512)

/-- TAL.CLEAR (R927, R928). -/
def deskTalClear (p : Packet) (s : State) : Desk :=
    let m := bits 15 0 (p.w 2)
    let snap := bit 16 (p.w 2)
    let ovfOnly := bit 17 (p.w 2)
    guardParam (clean (mask 17 0) (p.w 2) && decide (m ≠ 0)) s fun s =>
      let s := doIf snap takeSnapshot s
      let s := s.onTal fun t => { t with ctrs := clearCtrs m ovfOnly t.ctrs }
      let s := doIf (!ovfOnly) (count 7682 (sumNat ((setBits 16 m).map assignedIn))) s
      answer (if snap then snapWords s else [0, 0, 0]) s

/-- TAL.CLEAR (R927, R928). -/
def execTalClear (p : Packet) (s : State) : Out := letter 0x0F03 1 p s (deskTalClear p)

/-- Some counter of group `g` has its overflow bit set. -/
def groupOverflowed (t : Tab Ctr) (g : Nat) : Bool := tabAny t fun n c => decide (n / 512 = g) && c.ovf

/-- Word `k` of the overflow bits of group `g` (R934). -/
def overflowWord (t : Tab Ctr) (g k : Nat) : Word :=
  word (sumNat ((List.range 32).map fun i => if (tabGet {} t (512 * g + 32 * k + i) : Ctr).ovf then 2 ^ i else 0))

/-- TAL.GET_OVERFLOW (R934). -/
def deskTalGetOverflow (p : Packet) (s : State) : Desk :=
    guardParam (clean (mask 3 0) (p.w 2)) s fun s =>
      let t := s.tal.ctrs
      answer (word (sumNat ((List.range 16).map fun g => if groupOverflowed t g then 2 ^ g else 0))
        :: (List.range 16).map (overflowWord t (bits 3 0 (p.w 2)))) s

/-- TAL.GET_OVERFLOW (R934). -/
def execTalGetOverflow (p : Packet) (s : State) : Out := letter 0x0F04 1 p s (deskTalGetOverflow p)

/-- TAL.SET_STREAM (R934). -/
def deskTalSetStream (p : Packet) (s : State) : Desk :=
    let period := bits 15 0 (p.w 2)
    let m := bits 15 0 (p.w 3)
    guardParam (clean (mask 15 0) (p.w 2) && clean (mask 15 0) (p.w 3)
        && (decide (period = 0) || (decide (10 ≤ period) && decide (period ≤ 60000) && decide (m ≠ 0)))) s fun s =>
      okay (s.onTal fun t => { t with period := period, smask := m, stDue := s.clk.now + period * ms })

/-- TAL.SET_STREAM (R934). -/
def execTalSetStream (p : Packet) (s : State) : Out := letter 0x0F05 2 p s (deskTalSetStream p)

/-- A capture is skipped: TAL.STREAM_STOPPED at the first skip after a successful capture (R932). -/
def skipCapture (cause : Nat) (s : State) : State :=
  doIf s.tal.stOk (raise 961 (fld 1 0 cause)) (s.onTal fun t => { t with stOk := false })

/-- The record lies in a buffer of a channel that serves SRC 2 (R932). -/
def inBuffer (s : State) (id : Nat) : Bool :=
  tabAny s.se.chans fun _ x => decide (x.src = 2) && (match x.desc with | some d => d.recs.contains id | none => false)

/-- The records of a stream snapshot of the groups in the mask, two for each group, in ascending order (R931). -/
def streamRecs (t : Tally) (now : Nat) : List StreamRec :=
  (setBits 16 t.smask).flatMap fun g => [0, 1].map fun h =>
    let k := 2 * g + h
    { id := 32 * (t.stseq + 1) + k, seq := t.stseq + 1, time := now, first := 256 * k,
      vals := tabFilter t.ctrs fun n _ => decide (n / 256 = k) }

/-- R931, R932: every PERIOD the groups of the stream mask are captured, two records for each group. -/
def execStreamCapture (s : State) : Out :=
  .next (if s.tal.period = 0 || !due s.tal.stDue s.clk.now then s else
    let ready := (List.range 8).any fun c => (s.chan c).src = 2 && ((s.chan c).st = .running || (s.chan c).st = .waiting)
    let s' := s.onTal fun t => { t with stDue := t.stDue + t.period * ms }
    if !ready then skipCapture 1 s'
    else if !s.tal.stLeft.all (fun r => inBuffer s r.id) then skipCapture 2 s'
    else s'.onTal fun t =>
      { t with stseq := t.stseq + 1, stOk := true, stLeft := t.stLeft ++ streamRecs t s.clk.now })

end Sys2Proof.Machine
end

