-- ==== Sys2Proof/Machine/Qos.lean ====
section
/-! DEFINITION. The scheduler's nodes and gate lists, and the commands of the QOS desk (chapter 6). -/
namespace Sys2Proof.Machine

/-! ## Scheduler ports -/

/-- A QPORT (R233). -/
def State.qport (s : State) (q : Nat) : QPort := tabGet {} s.qos.ports q
/-- Change a QPORT. -/
def onQport (q : Nat) (f : QPort → QPort) (s : State) : State := s.onQos fun d => { d with ports := tabMod {} d.ports q f }

/-- The shaper rate in force, MB/s (Table 6.5). -/
def shaperRate (s : State) (q : Nat) : Nat :=
  let r := (s.qport q).rate
  if r ≠ 0 then r else if q < 32 then lportRate s q * 125 else 16000

/-- The node of a class with its defaults (Table 6.5). DEDUCED (log 50, unsafe). -/
def nodeOf (s : State) (q cls : Nat) : Node :=
  match tabFind (s.qport q).nodes cls with
  | some n => n
  | none =>
    let w := if q < 32 then [1, 32, 16, 8, 4, 4, 4, 1] else [1, 32, 16, 8, 8, 16, 4, 1]
    { strict := decide (cls = 0), weight := w.getD cls 1, ovh := if q < 32 then 24 else 4096, quantum := if q < 32 then 16 else 64 }

/-- A node's rate estimate, MB/s or kitem/s (R240, Table 4.4): until the first measured interval ends it is the configured rate, the
node's RATE or else the port's shaper RATE; front QPORTs keep none (R242). DEDUCED (log 212, unsafe). -/
def nodeEst (s : State) (q cls : Nat) : Nat :=
  let n := nodeOf s q cls
  if q < 32 then 0 else n.est.getD (if n.rate ≠ 0 then n.rate else shaperRate s q)

/-- Change a node. -/
def onNode (q cls : Nat) (f : Node → Node) (s : State) : State :=
  let n := nodeOf s q cls
  onQport q (fun p => { p with nodes := tabIns p.nodes cls (f n) }) s

/-- The shaper's size, bytes. -/
def shaperSize (p : QPort) : Nat := p.burst * 16384

/-- An item's cost in a node's count (R238). PRESUMED (log 49, unsafe). -/
def nodeCost (n : Node) (bytes : Nat) : Nat := if n.items then 1 else bytes + n.ovh

/-! ## Gate lists -/

/-- The cycle of a gate list, ns. -/
def GateList.cycle (g : GateList) : Nat := sumNat (g.entries.map (·.2))

/-- The entry in force and its mask; every class is open where no list runs (R251). -/
def openMask (g : Gate) : Nat :=
  match g.cur with
  | some l => if g.running then ((l.entries[g.idx]?).map (·.1)).getD 255 else 255
  | none => 255

/-- When the first entry begins that closes a class, of entries that follow one another from a PTP time on. -/
def firstShut (cls : Nat) : List (Nat × Nat) → Nat → Option Nat
  | [], _ => none
  | e :: es, t => if e.1.testBit cls then firstShut cls es (t + e.2) else some t

/-- The entries of one cycle, from an index on. -/
def GateList.turnFrom (l : GateList) (i : Nat) : List (Nat × Nat) := l.entries.drop i ++ l.entries.take i

/-- The PTP time at which an open class next closes, looked for across cycle boundaries; none where it never does (R247). After a time
step the running list goes on from entry 0 (R252); where a new list or a deactivation waits, it governs from its start (R246, R256). -/
def nextClose (g : Gate) (l : GateList) (cls : Nat) : Option Nat :=
  let old := if g.hold then firstShut cls l.entries g.stepAt else firstShut cls (l.turnFrom (g.idx + 1)) g.entryEnd
  match g.next with
  | none => old
  | some nl =>
    let start := nl.elim g.change (·.startAfter g.change)
    if (old.elim false fun t => decide (t < start)) then old else nl.bind fun n => firstShut cls n.entries start

/-- The longest continuous open time of a class in a list (R249), across the cycle boundary. -/
def longestOpen (l : GateList) (cls : Nat) : Nat :=
  ((l.entries ++ l.entries).foldl (fun (a : Nat × Nat) e =>
    if e.1.testBit cls then (a.1 + e.2, max a.2 (a.1 + e.2)) else (0, a.2)) (0, 0)).2

/-- The estimated duration of an item, ns (R242, R247): the wire time on a front port, and on a drive port the node's
dispatched cost with the item's own over the node's estimate; none where the estimate is 0. -/
def duration (s : State) (q cls bytes : Nat) : Option Nat :=
  if q < 32 then some (((bytes + 20) * 8 + lportRate s q - 1) / max 1 (lportRate s q))
  else
    let n := nodeOf s q cls
    let e := nodeEst s q cls
    if e = 0 then none else some (((n.out + nodeCost n bytes) * (if n.items then 1000000 else 1000) + e - 1) / e)

/-- What the gate lists say of an item: its class is closed, it passes the guard, passes it as an overrun, or is held (R236,
R247–R249). -/
inductive Guard where
  | closed | pass | tooFar | hold
  deriving DecidableEq, Repr

/-- An item that waits at a QPORT: its class and leaf, its data or frame bytes, since when it waits, and its place in its queue or its
number as a drive command. -/
structure QItem where
  cls   : Nat
  leaf  : Nat
  bytes : Nat
  born  : Nat
  num   : Nat
  deriving DecidableEq, Repr

/-- The gate guard (R247–R249). An item that lasts longer than its class's longest open time, and that waited when the class opened,
starts in that open time without regard to the close. DEDUCED (log 231, unsafe). -/
def gateGuard (s : State) (q : Nat) (i : QItem) : Guard :=
  let g := (s.qport q).gate
  match g.cur with
  | none => .pass
  | some l =>
    if !g.running then .pass
    else if !(openMask g).testBit i.cls then .closed
    else match nextClose g l i.cls with
      | none => .pass
      | some t =>
        let d := duration s q i.cls i.bytes
        if g.shut.testBit i.cls then .hold
        else if d.elim true fun d => decide (longestOpen l i.cls < d) then (if i.born ≤ tabGet 0 g.openAt i.cls then .tooFar else .hold)
        else if ptpTime s + d.getD 0 ≤ t then .pass else .hold

/-- Count a gate overrun; QOS.GATE_OVERRUN for the first on a QPORT in any 1 s (R249, R250, Table 6.9). -/
def gateOverrun (q : Nat) (s : State) : State :=
  let recent := match (s.qport q).gate.overAt with | none => false | some t => decide (s.clk.now < t + sec)
  let s := count1 (1792 + q) s
  if recent then s else raise 195 (word q) (onQport q (fun p => { p with gate := { p.gate with overAt := some s.clk.now } }) s)

/-- The drive commands of a QPORT that are dispatched when their class closes will end after it (R250). -/
def noteShut (q mask : Nat) (s : State) : State :=
  s.onDrv fun d => { d with cmds := tabMap d.cmds fun _ c => if c.slot + 32 = q && c.at_.isSome && !mask.testBit c.cls then { c with shut := true } else c }

/-- Enter an entry of a list at a PTP time: a class that opens there frees its node (R248, R249), and one that closes catches what is
dispatched (R250). -/
def enterEntry (q idx startAt : Nat) (l : GateList) (s : State) : State :=
  let old := openMask (s.qport q).gate
  let was := (s.qport q).gate.running
  let e := l.entries.getD idx (255, 0)
  let opens := (List.range 8).filter fun c => e.1.testBit c && (!was || !old.testBit c || l.entries.all fun x => x.1.testBit c)
  noteShut q e.1 (onQport q (fun p => { p with gate := { p.gate with
    cur := some l, running := true, idx := idx, entryEnd := startAt + e.2, hold := false,
    openAt := opens.foldl (fun t c => tabIns t c s.clk.now) p.gate.openAt,
    shut := sumNat (((setBits 8 p.gate.shut).filter fun c => !opens.contains c).map (2 ^ ·)),
    cycleAt := if idx = 0 then startAt else p.gate.cycleAt } }) s)

/-- R243: an entry's duration ends and the next entry's mask applies. -/
def execGateEntryChange (qport : Nat) (s : State) : Out :=
  .next (
    let g := (s.qport qport).gate
    match g.cur with
    | none => s
    | some l =>
      if !g.running || g.hold || ptpTime s < g.entryEnd || l.entries.isEmpty then s
      else enterEntry qport ((g.idx + 1) % l.entries.length) g.entryEnd l s)

/-- The latest aligned start of a list at or before now, where now lies within its first entry. -/
def freshStart (l : GateList) (now : Nat) : Option Nat :=
  let t := l.startAfter now
  let t := if t = now then t else t - min t l.cycle
  if t ≤ now && now < t + (l.entries.getD 0 (0, 0)).2 && l.base % max 1 l.cycle = t % max 1 l.cycle then some t else none

/-- The earliest cycle start that a list which does not run may take: not before the module is Active with PTP locked (R253). -/
def gateFloor (s : State) (g : Gate) : Nat :=
  if g.running then 0 else ptpTime s - (s.clk.now - max s.net.ptp.lockedAt s.clk.modeAt)

/-- A list begins at a cycle start `t` that is not before its change's time and not before the earliest it may take. -/
def beginGateAt (q : Nat) (l : GateList) (s : State) (t : Nat) : State :=
  if (s.qport q).gate.change ≤ t ∧ gateFloor s (s.qport q).gate ≤ t then
    raise 192 (word q) (enterEntry q 0 t l (onQport q (fun p => { p with gate := { p.gate with next := none } }) s))
  else s

/-- A list begins where an aligned cycle start has come (R245, R246). -/
def beginGate (q : Nat) (l : GateList) (s : State) : State := (freshStart l (ptpTime s)).elim s (beginGateAt q l s)

/-- A deactivation that is due by the cycle start `t` takes effect. -/
def endGateAt (q : Nat) (s : State) (t : Nat) : State :=
  if (s.qport q).gate.change ≤ t then
    onQport q (fun p => { p with gate := { p.gate with cur := none, next := none, running := false, hold := false, shut := 0 } }) s
  else s

/-- A deactivation takes effect at the running list's next cycle start (R256). -/
def endGate (q : Nat) (s : State) : State :=
  match (s.qport q).gate.cur with
  | none => s
  | some l => (freshStart l (ptpTime s)).elim s (endGateAt q s)

/-- A list that another waits to replace begins where an aligned cycle start has come, after the module has become Active (R246,
R253). -/
def rerunGate (q : Nat) (s : State) : State :=
  let g := (s.qport q).gate
  match g.cur with
  | some l => if g.running then s else (freshStart l (ptpTime s)).elim s fun t => if gateFloor s g ≤ t then raise 192 (word q) (enterEntry q 0 t l s) else s
  | none => s

/-- R245, R246, R251, R253: a list reaches its first aligned cycle start and begins; or a deactivation takes effect at the
running list's next cycle start (R256). DESIGN CHOICE (log 47, unsafe). -/
def execGateListStart (qport : Nat) (s : State) : Out :=
  .next (if !s.net.ptp.everLocked || s.md.mode != .active then s
    else match (s.qport qport).gate.next with
      | some none => endGate qport s
      | some (some l) => beginGate qport l (rerunGate qport s)
      | none => match (s.qport qport).gate.cur with
        | some l => if (s.qport qport).gate.running then s else beginGate qport l s
        | none => s)

/-- R252: after a time step the list restarts from entry 0 at the next aligned cycle start. -/
def execGateListRestart (qport : Nat) (s : State) : Out :=
  .next (
    let g := (s.qport qport).gate
    match g.cur with
    | some l => if g.running && g.hold && g.stepAt ≤ ptpTime s then
        raise 193 (word qport) (count1 1907 (enterEntry qport 0 g.stepAt l s)) else s
    | none => s)

/-! ## Commands -/

/-- QOS.SET_POLICER (R232, R255). -/
def deskQosSetPolicer (p : Packet) (s : State) : Desk :=
  let n : Policer := ⟨bit 12 (p.w 2), bit 13 (p.w 2), bit 14 (p.w 2), bits 23 0 (p.w 3), bits 23 0 (p.w 4), bits 23 0 (p.w 5), bits 23 0 (p.w 6), bits 15 0 (p.w 7)⟩
  guardParam (clean (mask 10 0 ||| mask 14 12) (p.w 2) && ([3, 4, 5, 6].all fun i => clean (mask 23 0) (p.w i)) && clean (mask 15 0) (p.w 7)
      && (n.mode1 || decide (n.cir ≤ n.pir)) && decide (1 ≤ n.cbs) && decide (n.cbs ≤ 1048576) && decide (1 ≤ n.pbs) && decide (n.pbs ≤ 1048576)) s fun s =>
    okay (onSub (bits 10 0 (p.w 2)) (fun x => { x with next := some n }) s)

/-- QOS.SET_POLICER (R232, R255). -/
def execQosSetPolicer (p : Packet) (s : State) : Out := letter 0x0301 6 p s (deskQosSetPolicer p)

/-- QOS.SET_SUBSCRIBER (R219, R255); for the internal leaf only WEIGHT applies. REDACT changes at the next token tick (R232). -/
def deskQosSetSubscriber (p : Packet) (s : State) : Desk :=
  let sub := bits 11 0 (p.w 2)
  let y := bits 6 4 (p.w 3)
  let w := bits 23 16 (p.w 3)
  let d := bits 12 0 (p.w 4)
  guardParam (clean (mask 11 0) (p.w 2) && clean (mask 2 0 ||| mask 6 4 ||| mask 8 8 ||| mask 23 16) (p.w 3) && clean (mask 12 0) (p.w 4)
      && decide (sub ≤ 2048) && decide (1 ≤ w)
      && (decide (sub = 2048) || (decide (bits 2 0 (p.w 3) ≤ 3) && (decide (y ≤ 3) || decide (y = 7)) && decide (1 ≤ d) && decide (d ≤ 4096)))) s fun s =>
    okay (onSub sub (fun x => if sub = 2048 then { x with weight := w }
      else { x with cls := bits 2 0 (p.w 3), ycls := y, toDemote := some (bit 8 (p.w 3)), weight := w, defMax := d }) s)

/-- QOS.SET_SUBSCRIBER (R219, R255). -/
def execQosSetSubscriber (p : Packet) (s : State) : Out := letter 0x0302 3 p s (deskQosSetSubscriber p)

/-- QOS.GET_POLICER (R255). -/
def deskQosGetPolicer (p : Packet) (s : State) : Desk :=
  guardParam (clean (mask 10 0) (p.w 2)) s fun s =>
    let x := s.sub (bits 10 0 (p.w 2))
    answer [BitVec.ofInt 32 x.c, BitVec.ofInt 32 x.p, fld 12 0 x.queue.length] s

/-- QOS.GET_POLICER (R255). -/
def execQosGetPolicer (p : Packet) (s : State) : Out := letter 0x0303 1 p s (deskQosGetPolicer p)

/-- QOS.SET_COLOUR_MAP (R225, R255). -/
def deskQosSetColourMap (p : Packet) (s : State) : Desk :=
  let cs := (List.range 64).map fun d => (d, bits (2 * (d % 16) + 1) (2 * (d % 16)) (p.w (2 + d / 16)))
  guardParam (cs.all fun c => decide (c.2 ≠ 3)) s fun s => okay (s.onQos fun q => { q with colour := cs.filter fun c => c.2 ≠ 0 })

/-- QOS.SET_COLOUR_MAP (R225, R255). -/
def execQosSetColourMap (p : Packet) (s : State) : Out := letter 0x0304 4 p s (deskQosSetColourMap p)

/-- QOS.SET_NODE (R255). -/
def deskQosSetNode (p : Packet) (s : State) : Desk :=
  let q := bits 5 0 (p.w 2)
  let cls := bits 10 8 (p.w 2)
  let strict := bit 11 (p.w 2)
  let items := bit 12 (p.w 2)
  let w := bits 23 16 (p.w 2)
  let quantum := bits 31 16 (p.w 3)
  let rate := bits 23 0 (p.w 4)
  guardParam (clean (mask 5 0 ||| mask 12 8 ||| mask 23 16) (p.w 2) && clean (mask 23 0) (p.w 4) && decide (q ≤ 55)
      && (strict || decide (1 ≤ w)) && decide (1 ≤ quantum)) s fun s =>
    okay (onNode q cls (fun n => { n with
      strict := strict, weight := if strict then n.weight else w, items := items, ovh := bits 15 0 (p.w 3), quantum := quantum, rate := rate,
      est := if items != n.items then none else n.est,
      tokens := if items then min n.tokens 64000 else min n.tokens 65536 }) s)

/-- QOS.SET_NODE (R255). -/
def execQosSetNode (p : Packet) (s : State) : Out := letter 0x0305 3 p s (deskQosSetNode p)

/-- QOS.SET_PORT_SHAPER (R255). -/
def deskQosSetPortShaper (p : Packet) (s : State) : Desk :=
  let q := bits 5 0 (p.w 2)
  let b := bits 31 24 (p.w 3)
  guardParam (clean (mask 5 0) (p.w 2) && decide (q ≤ 55) && decide (1 ≤ b)) s fun s =>
    okay (onQport q (fun x => { x with rate := bits 23 0 (p.w 3), burst := b, level := min x.level ((b * 16384 : Nat) : Int) }) s)

/-- QOS.SET_PORT_SHAPER (R255). -/
def execQosSetPortShaper (p : Packet) (s : State) : Out := letter 0x0306 2 p s (deskQosSetPortShaper p)

/-- The entries that QOS.SET_GATE_LIST spells (Table 6.8). -/
def gateEntries : List Word → List (Nat × Nat)
  | m :: d :: ws => (bits 7 0 m, d.toNat) :: gateEntries ws
  | _ => []

/-- The masks of the entries hold no reserved bit. -/
def gateMasksClean : List Word → Bool
  | m :: _ :: ws => clean (mask 7 0) m && gateMasksClean ws
  | _ => true

/-- QOS.SET_GATE_LIST (R243–R246, R251, R253, R256). DEDUCED (log 48, unsafe). -/
def deskQosSetGateList (p : Packet) (s : State) : Desk :=
  let q := bits 5 0 (p.w 3)
  let act := bit 8 (p.w 3)
  let dwc := bits 9 0 (p.w 2)
  let es := gateEntries (p.data 6)
  let l : GateList := ⟨es, numOf [p.w 4, p.w 5]⟩
  let g := (s.qport q).gate
  let now := if s.net.ptp.everLocked then ptpTime s else 0
  guardParam (clean (mask 9 0) (p.w 2) && clean (mask 5 0 ||| mask 8 8) (p.w 3) && decide (q ≤ 55) && gateMasksClean (p.data 6)) s fun s =>
    if !act && dwc = 0 then
      match g.cur with
      | some c => if g.running then
          let t := c.startAfter (now + 1)
          answer (words2 t) (onQport q (fun x => { x with gate := { x.gate with next := some none, change := t } }) s)
        else answer [0, 0] (onQport q (fun x => { x with gate := { x.gate with cur := none, next := none, hold := false } }) s)
      | none => answer [0, 0] (onQport q (fun x => { x with gate := { x.gate with next := none } }) s)
    else guardParam (decide (1 ≤ es.length) && decide (es.length ≤ 256) && decide (dwc % 2 = 0)
        && (es.all fun e => e.1.testBit 0 && decide (1000 ≤ e.2) && decide (e.2 ≤ sec)) && decide (10000 ≤ l.cycle) && decide (l.cycle ≤ sec)) s fun s =>
      let c := max now (numOf [p.w 6, p.w 7])
      let start := l.startAfter c
      let s := onQport q (fun x => { x with gate := if x.gate.running then { x.gate with next := some (some l), change := c }
        else { x.gate with cur := some l, next := none, change := c } }) s
      answer (if s.net.ptp.everLocked then words2 start else [0, 0]) s

/-- QOS.SET_GATE_LIST (R256). -/
def execQosSetGateList (p : Packet) (s : State) : Out := letterData 0x0307 6 (bits 9 0 (p.w 2)) p s (deskQosSetGateList p)

/-- The items that wait at a QPORT, head first within each leaf (R233, R234); a frame that its context's rate keeps waits there from the
time that the rate gives (R289). -/
def itemsOf (s : State) (q : Nat) : List QItem :=
  if q < 32 then (List.range 8).flatMap fun c => ((s.queue (q * 8 + c)).zipIdx.filter fun f => decide (f.1.at_ ≤ s.clk.now)).map fun f => ⟨c, f.1.leaf, f.1.len, f.1.at_, f.2⟩
  else (s.drv.cmds.filter fun e => decide (e.2.slot = q - 32) && e.2.at_.isNone && e.2.answer.isNone).map fun e => ⟨e.2.cls, e.2.sub, e.2.n * 4096, e.2.born, e.1⟩

/-- The gate guard holds an item of the class now (R248, R255). -/
def heldNow (s : State) (q cls : Nat) : Bool := (s.qport q).gate.shut.testBit cls && (itemsOf s q).any fun i => decide (i.cls = cls)

/-- QOS.GET_GATE_STATUS (R255). -/
def deskQosGetGateStatus (p : Packet) (s : State) : Desk :=
  let q := bits 5 0 (p.w 2)
  guardParam (clean (mask 5 0) (p.w 2) && decide (q ≤ 55)) s fun s =>
    let x := s.qport q
    let g := x.gate
    let pending := match g.next with | some (some _) => true | _ => g.cur.isSome && !g.running
    answer ([flag 0 g.running ||| flag 1 pending ||| fld 15 8 g.idx ||| fld 23 16 (openMask g)] ++ words2 g.cycleAt ++ [fld 15 0 ((List.range 8).filter (heldNow s q)).length]) s

/-- QOS.GET_GATE_STATUS (R255). -/
def execQosGetGateStatus (p : Packet) (s : State) : Out := letter 0x0308 1 p s (deskQosGetGateStatus p)

/-- QOS.GET_NODE (R255). -/
def deskQosGetNode (p : Packet) (s : State) : Desk :=
  let q := bits 5 0 (p.w 2)
  let cls := bits 10 8 (p.w 2)
  guardParam (clean (mask 5 0 ||| mask 10 8) (p.w 2) && decide (q ≤ 55)) s fun s =>
    let n := nodeOf s q cls
    let is := (itemsOf s q).filter fun i => i.cls = cls
    let cost := sumNat (is.map fun i => nodeCost n i.bytes)
    answer [fld 23 0 (nodeEst s q cls), word (if n.items then cost else cost / 1024), fld 11 0 ((is.map QItem.leaf).eraseDups.length)] s

/-- QOS.GET_NODE (R255). -/
def execQosGetNode (p : Packet) (s : State) : Out := letter 0x0309 1 p s (deskQosGetNode p)

/-- QOS.SET_WATCH (R255). -/
def deskQosSetWatch (p : Packet) (s : State) : Desk :=
  guardParam (clean (mask 5 0 ||| mask 26 16 ||| mask 31 31) (p.w 2)) s fun s =>
    let w := bits 5 0 (p.w 2)
    okay (s.onQos fun d => { d with watch := if bit 31 (p.w 2) then tabIns d.watch w (bits 26 16 (p.w 2)) else tabDel d.watch w })

/-- QOS.SET_WATCH (R255). -/
def execQosSetWatch (p : Packet) (s : State) : Out := letter 0x030A 1 p s (deskQosSetWatch p)

end Sys2Proof.Machine
end

