-- ==== Sys2Proof/Machine/Sched.lean ====
section
/-! DEFINITION. The hierarchical scheduler: the order of Table 6.4, dispatch on front and drive QPORTs, the token tick and
the rate estimates (R233–R242), and the transmission of frames (R174, R235). -/
namespace Sys2Proof.Machine

/-- The item may leave, its turn apart: a front queue as R188 and R202 allow, a drive command while the module dispatches
(R624), no take-over freezes it (R756) and no member-write hold keeps it (R746). -/
def itemMay (s : State) (q : Nat) (i : QItem) : Bool :=
  if q < 32 then queueMay s q i.cls
  else (s.md.mode = .active || s.md.mode = .drowse) && s.pair.take.isNone &&
    match tabFind s.drv.cmds i.num with
    | none => false
    | some c => !(c.write && (match s.drv.writeHold with | some t => decide (s.clk.now < t) | none => false))

/-- The head items of a node's leaves, in leaf order. -/
def headItems (s : State) (q cls : Nat) : List QItem :=
  (itemsOf s q).foldl (fun acc i => if i.cls = cls && !(acc.any fun j => j.leaf = i.leaf) then acc ++ [i] else acc) []

/-- The share of service that a node has had, for the comparison of WRR nodes: `a` comes before `b` where its cost over its
weight is the lesser (Table 6.4). -/
def wrrBefore (a b : Node) : Bool := decide (a.share * max 1 b.weight < b.share * max 1 a.weight)

/-- The weight of a leaf (R255). -/
def leafWeight (s : State) (leaf : Nat) : Nat := max 1 (s.sub leaf).weight

/-- What one DWRR round adds to a leaf (Table 6.4): QUANTUM, in 256-byte units or items, times its WEIGHT. -/
def roundGain (s : State) (n : Node) (leaf : Nat) : Nat := max 1 ((if n.items then n.quantum else n.quantum * 256) * leafWeight s leaf)

/-- DWRR rounds until a leaf's deficit covers a cost. -/
def roundsFor (s : State) (n : Node) (leaf cost : Nat) : Nat :=
  let d := tabGet 0 n.deficit leaf
  if cost ≤ d then 0 else (cost - d + roundGain s n leaf - 1) / roundGain s n leaf

/-- The item that DWRR sends next among a node's items: the fewest further rounds, from the leaf whose turn it is on. -/
def pickLeaf (s : State) (n : Node) (is : List QItem) : Option (QItem × Nat) :=
  let after := fun (l : Nat) => (l + 2049 - n.turn % 2049) % 2049
  is.foldl (fun b i =>
    let r := roundsFor s n i.leaf (nodeCost n i.bytes)
    match b with
    | none => some (i, r)
    | some (j, k) => if r < k || (r = k && after i.leaf < after j.leaf) then some (i, r) else some (j, k)) none

/-- The head item of a node with its DWRR rounds: what DWRR sends next of the items that may leave (R236, Table 6.4). -/
def nodeHead (s : State) (q cls : Nat) : Option (QItem × Nat) := pickLeaf s (nodeOf s q cls) ((headItems s q cls).filter (itemMay s q))

/-- What the gate lists say of a node's head item; none where the node has no item, or no tokens under its rate limit (R236). -/
def nodeGuard (s : State) (q cls : Nat) : Option Guard :=
  let n := nodeOf s q cls
  if decide (n.rate ≠ 0) && decide (n.tokens ≤ 0) then none else (nodeHead s q cls).map fun h => gateGuard s q h.1

/-- The node that serves next (Table 6.4): of the eligible ones. DESIGN CHOICE (log 51, unsafe). -/
def pickNode (s : State) (q : Nat) : Option Nat :=
  let live := (List.range 8).filter fun c => nodeGuard s q c = some .pass || nodeGuard s q c = some .tooFar
  match live.find? fun c => (nodeOf s q c).strict with
  | some c => some c
  | none => live.foldl (fun (b : Option Nat) c => match b with
      | none => some c
      | some x => if wrrBefore (nodeOf s q c) (nodeOf s q x) then some c else some x) none

/-- Charge an item that starts: shaper, node tokens, WRR share and DWRR deficits (R237, R238, Table 6.4). -/
def chargeItem (q : Nat) (i : QItem) (rounds : Nat) (s : State) : State :=
  let n := nodeOf s q i.cls
  let cost := nodeCost n i.bytes
  let mine := headItems s q i.cls
  let least := ((List.range 8).filter fun c => !(headItems s q c).isEmpty && !(nodeOf s q c).strict).map fun c => (nodeOf s q c).share / max 1 (nodeOf s q c).weight
  let floor_ := match least with | [] => 0 | x :: xs => xs.foldl min x
  let gain := fun (l : Nat) => tabGet 0 n.deficit l + rounds * roundGain s n l
  let more := (itemsOf s q).filter fun j => j.cls = i.cls && j.leaf = i.leaf
  let def' := (mine.foldl (fun t j => tabIns t j.leaf (gain j.leaf)) ([] : Tab Nat))
  let def' := if more.length ≤ 1 then tabDel def' i.leaf else tabIns def' i.leaf (gain i.leaf - cost)
  let idle := (List.range 8).filter fun c => (headItems s q c).isEmpty && !(nodeOf s q c).strict
  let s := forAll idle (fun c => onNode q c fun m => { m with share := max m.share (floor_ * max 1 m.weight) }) s
  let s := onNode q i.cls (fun m => { m with share := m.share + cost, deficit := def', turn := i.leaf,
                                             tokens := if m.rate = 0 then m.tokens else m.tokens - (if m.items then 1000 else (cost : Int)) }) s
  onQport q (fun p => { p with level := p.level - (if q < 32 then (i.bytes : Int) + 24 else (i.bytes : Int)) }) s

/-- The gate guard holds the head items of nodes: each is counted, and its node is ineligible until its class reopens (R248,
Table 6.10). -/
def noteHeld (q : Nat) (s : State) : State :=
  let new := (List.range 8).filter fun c => nodeGuard s q c = some .hold && !(s.qport q).gate.shut.testBit c
  count (1848 + q) new.length (onQport q (fun p => { p with gate := { p.gate with shut := p.gate.shut + sumNat (new.map (2 ^ ·)) } }) s)

/-! ## The drive queue engine's placing (R618, R630) -/

/-- Entries of a queue of a slot that are in use. -/
def entriesOf (s : State) (slot q : Nat) : List Nat :=
  s.drv.cmds.filterMap fun e => if e.2.slot = slot && e.2.answer.isNone then e.2.tag.bind fun t => if t.1 = q then some t.2.1 else none else none

/-- The next queue of the round-robin with room, full queues skipped (R630). -/
def nextQueue (s : State) (slot : Nat) : Option Nat :=
  let x := s.port slot
  ((List.range x.built).map fun i => (x.rr + i) % max 1 x.built).find? fun q => decide ((entriesOf s slot q).length + 1 < x.depth)

/-- Ring the tail doorbell of a queue: its entries' latency begins (R566, R630). -/
def ringQueue (slot q : Nat) (s : State) : State :=
  if !tabHas (s.port slot).unrung q then s else
  let s := send { kind := .doorbell, a := slot, b := q + 1 } s
  let s := onPort slot (fun x => { x with unrung := tabDel x.unrung q }) s
  s.onDrv fun d => { d with cmds := tabMap d.cmds fun _ c =>
    if c.slot = slot && c.rungAt.isNone && (match c.tag with | some t => t.1 = q | none => false) then { c with rungAt := some s.clk.now } else c }

/-- Place a released command on a queue of its drive: it takes the lowest free entry with its present generation, and its pointers name
the slot's DMA window (R627, Table 13.3). PRESUMED (log 70, unsafe). -/
def placeOne (k : Nat) (c : DCmd) (s : State) : State :=
  match nextQueue s c.slot with
  | none => s
  | some q =>
    let x := s.port c.slot
    let used := entriesOf s c.slot q
    let e := ((List.range x.depth).find? fun i => !used.contains i).getD 0
    let g := tabGet 0 x.gens (q * 1024 + e)
    let s := noteIo c.slot (s.onDrv fun d => { d with cmds := tabUpd d.cmds k fun c => { c with tag := some (q, e, g) } })
    let u := tabGet (0, s.clk.now) x.unrung q
    let s := onPort c.slot (fun x => { x with rr := (q + 1) % max 1 x.built, unrung := tabIns x.unrung q (u.1 + 1, u.2) }) s
    let fua := c.fua || (c.write && (match x.info with | some i => i.vwcPresent && !i.vwcOff | none => false))
    let s := doIf (fua && !c.fua) (count1 4804) s
    let at_ := fun (kind off : Nat) => kind * 2 ^ 46 + g * 2 ^ 40 + q * 2 ^ 34 + e * 2 ^ 24 + off
    let prp2 := if c.n ≤ 1 then 0 else if c.n = 2 then at_ 1 4096 else at_ 2 0
    let mptr := if (x.info.bind (·.fmt)) = some 1 then at_ 3 0 else 0
    let s := send { kind := .driveCmd, a := c.slot, b := k, c := g * 1024 + e, ws := [flag 0 c.write ||| flag 1 fua, word c.lba, word c.n], ds := [at_ 1 0, prp2, mptr] } (count1 (4680 + c.slot) s)
    if 16 ≤ u.1 + 1 then ringQueue c.slot q s else s

/-- Place the commands of a slot that the scheduler has released, in release order, while the port is READY and fewer than
OUTMAX are outstanding. DEDUCED (log 54, unsafe). -/
def placeReady (slot : Nat) (s : State) : State :=
  forAll ((s.drv.cmds.filter fun e => e.2.slot = slot && e.2.at_.isSome && e.2.tag.isNone && e.2.answer.isNone).map (·.1)) (fun k s =>
    match tabFind s.drv.cmds k with
    | none => s
    | some c =>
      let out := tabCount s.drv.cmds fun _ d => d.slot = slot && d.tag.isSome && d.answer.isNone
      if (s.port slot).st = .ready && out < (s.port slot).outmax then placeOne k c s else s) s

/-- Start the item that the QPORT's scheduler chooses (R236). -/
def startItem (q : Nat) (i : QItem) (rounds : Nat) (s : State) : State :=
  let tooFar := gateGuard s q i == .tooFar
  let cost := nodeCost (nodeOf s q i.cls) i.bytes
  let s := chargeItem q i rounds s
  let s := doIf tooFar (gateOverrun q) s
  if q < 32 then match (s.queue (q * 8 + i.cls))[i.num]? with
    | none => s
    | some f => transmitHead q i.cls f ((s.queue (q * 8 + i.cls)).eraseIdx i.num) s
  else match tabFind s.drv.cmds i.num with
    | none => s
    | some c =>
      let s := s.onDrv fun d => { d with cmds := tabUpd d.cmds i.num fun c => { c with at_ := some s.clk.now, cost := cost } }
      let s := match c.use with
        | .host t _ _ _ => onCmd t (fun c => { c with disp := true }) s
        | _ => s
      placeReady c.slot (onNode q i.cls (fun n => { n with out := n.out + cost }) s)

/-- The item that a QPORT serves next, with its DWRR rounds; none while the shaper's level is at or below zero (R237). -/
def pickItem (s : State) (q : Nat) : Option (QItem × Nat) :=
  if (s.qport q).level ≤ 0 then none else (pickNode s q).bind (nodeHead s q)

/-- R236: the scheduler of a QPORT serves the next item. -/
def execSchedulerDispatch (qport : Nat) (s : State) : Out :=
  .next (if 56 ≤ qport then s else
    match pickItem s qport with
    | none => noteHeld qport s
    | some (i, r) => noteHeld qport (startItem qport i r s))

/-- R174, R235: a queue of a switch port gives its head frame: on a front port the queue that the scheduler serves next, on
the others the lowest-numbered queue that holds a frame. DEDUCED (log 53, unsafe). -/
def execFrameTransmit (swport q : Nat) (s : State) : Out :=
  .next (
    if !queueMay s swport q then s
    else if swport < 32 then match pickItem s swport with
      | some (i, r) => if i.cls = q then noteHeld swport (startItem swport i r s) else s
      | none => s
    else if (List.range q).any fun k => queueMay s swport k then s
    else match s.queue (swport * 8 + q) with
      | [] => s
      | f :: fs => transmitHead swport q f fs s)

/-! ## Ticks -/

/-- A subscriber's settings change at the token tick (R232): a policer that is disabled gives its whole queue green, and a change of
REDACT from DEFER to DEMOTE gives it S7. -/
def tickPolicer (i : Nat) (s : State) : State :=
  let x := s.sub i
  let off := x.pol.enable && (x.next.elim false fun n => !n.enable)
  let red := !x.demote && x.toDemote = some true
  let give := fun (cls : Nat) (x : Sub) => { x with queue := x.queue.map fun d => { d with cls := some (d.cls.getD cls) } }
  let n := (x.queue.filter fun d => d.cls.isNone).length
  let s := onSub i (fun x => { (match x.next with | some n => installPolicer n x | none => x) with demote := x.toDemote.getD x.demote, toDemote := none }) s
  if off then forAll (List.range n) (fun _ s => countWatch i 3 (countWatch i 0 s)) (onSub i (fun x => give x.cls x) s)
  else if red then count 1906 n (forAll (List.range n) (fun _ s => countWatch i 3 s) (onSub i (give 7) s))
  else s

/-- Admit a subscriber's waiting commands after tokens or settings changed (R229, R230, R232). -/
def tickSub (i : Nat) (s : State) : State :=
  let s := onSub i addTokens (tickPolicer i s)
  admitHeads true i (s.sub i).queue.length s

/-- One microsecond's tokens for a QPORT's shaper and its nodes' limits (R237, Table 6.4). -/
def tickPort (s : State) (q : Nat) (p : QPort) : QPort :=
  { p with level := min (shaperSize p : Int) (p.level + shaperRate s q),
           nodes := tabMap p.nodes fun _ n => if n.rate = 0 then n else
             { n with tokens := min (if n.items then 64000 else 65536) (n.tokens + n.rate) } }

/-- R223, R229, R232: the token tick, each microsecond. DEDUCED (log 52, unsafe). -/
def execTokenTick (s : State) : Out :=
  .next (if !due (s.qos.tickAt + us) s.clk.now then s else
    let s := s.onQos fun q => { q with tickAt := q.tickAt + us, ports := tabMap q.ports (tickPort s) }
    forAll (s.qos.subs.map (·.1)) tickSub s)

/-- The estimate after an interval in which work was outstanding throughout (R241): MB/s, or thousands of items a second. -/
def nextEst (est : Nat) (n : Node) : Nat := (7 * est + (if n.items then n.done / 10 else n.done / 10000)) / 8

/-- R241: the end of a 10 ms interval. DEDUCED (log 55, unsafe). -/
def execRateEstimateInterval (s : State) : Out :=
  .next (if !due (s.qos.estAt + 10 * ms) s.clk.now then s else
    s.onQos fun q => { q with estAt := q.estAt + 10 * ms, ports := tabMap q.ports fun k p =>
      if k < 32 then p else { p with nodes := tabMap p.nodes fun c n =>
        { n with est := if n.busy then some (nextEst (nodeEst s k c) n) else n.est, done := 0, busy := decide (0 < n.out) } } })

end Sys2Proof.Machine
end

