-- ==== Sys2Proof/Machine/Redun.lean ====
section
/-! DEFINITION. Set states, identity records, dirty-region logs and the bad-range table (chapter 12). -/
namespace Sys2Proof.Machine

/-- The module takes the decisions of chapter 12: it holds the lease, in Active or Drowse (R940). -/
def inCharge (s : State) : Bool := (s.md.mode = .active || s.md.mode = .drowse) && s.pair.lease

/-- The code of a set state (Table 10.10). -/
def SState.code : SState → Nat
  | .initialising => 0 | .optimal => 1 | .degraded => 2 | .rebuilding => 3 | .offline => 4

/-- The code of a member state (Table 12.2). -/
def MState.code : MState → Nat
  | .current => 0 | .absent => 1 | .ejected => 2 | .rebuilding => 3 | .resyncing => 4

/-- The parameter word of the RED events: set, member and a code (R607). -/
def redParam (i m code : Nat) : Word := fld 4 0 i ||| fld 12 8 m ||| fld 19 16 code

/-- A set changes its state, with RED.SET_STATE (R589, R607). -/
def setSt (i : Nat) (new : SState) (s : State) : State :=
  match s.vset i with
  | none => s
  | some v => if v.st = new then s else
      shadow .stateWrite 8 i (raise 515 (fld 4 0 i ||| fld 22 20 v.st.code ||| fld 26 24 new.code)
        (onSet i (fun v => { v with st := new, holes := v.holes && new != .optimal }) s))

/-- Members of a set in some states. -/
def membersIn (v : VSet) (p : MState → Bool) : List Nat := (List.range v.width).filter fun m => p (v.mem m).st

/-- The most strips missing at any block position: in the last stripe, where every rebuild has still to come, or in a region
that a resync has still to come to. -/
def lostMost (v : VSet) : Nat :=
  let marked := (List.range v.width).flatMap fun m => match (v.mem m).st, (v.mem m).log with
    | .resyncing, some k => (tabGet {} v.logs k : LogSlot).bits.map fun r => r * 1048576 / stripBytes v
    | _, _ => []
  (marked ++ [v.stripes - 1]).foldl (fun a n => max a (missingOf v n true).length) 0

/-- Slots ON in this module with a READY port: enumerated. -/
def enumerated (s : State) (slot : Nat) : Bool := decide (slot < 24) && (s.port slot).st = .ready

/-- The set and member that a slot holds; a slot that only last held an ABSENT or EJECTED index holds none. DEDUCED (log 98, unsafe). -/
def memberAt (s : State) (slot : Nat) : Option (Nat × Nat) :=
  (s.vol.sets.flatMap fun e => (List.range e.2.width).filterMap fun m =>
    if (e.2.mem m).slot = some slot && !(e.2.mem m).st.out then some (e.1, m) else none).head?

/-! ## Identity records (R556, R557) -/

/-- CRC32C of a drive's serial number (Table 12.3 DRIVEID). -/
def driveId (serial : Nat) : Nat := crc32cBytes (bytesOf 20 serial)

/-- The identity record of a member (Table 12.3). -/
def idRecord (i : Nat) (v : VSet) (m : Nat) : IdRec :=
  let x := v.mem m
  let st := match x.st with | .rebuilding => 3 | .resyncing => 4 | _ => 0
  let here := fun (k : Nat) => decide (k < v.width) && !(v.mem k).st.out
  { set := i, type := v.type, width := v.width, strip := v.strip, fmt := v.fmt, tagzone := v.tagzone, member := m, mstate := st, setid := v.setid,
    gen := v.gen, iseq := v.iseq, stripes := v.stripes, initWm := v.initWm, memberWm := if st = 0 then 0 else x.wm, patWm := v.patWm, creator := v.creator,
    driveIds := (List.range 24).map fun k => if here k then driveId (v.mem k).serial else 0,
    ejMask := sumNat ((List.range 24).map fun k => if (v.mem k).wasEj then 2 ^ k else 0), lastSlots := (List.range 24).map fun k => if k < v.width then (v.mem k).last else none }

/-- The words of an identity record. -/
def IdRec.toWords (r : IdRec) : List Word :=
  let last := (List.range 6).map fun w => (List.range 4).foldl (fun a b => a ||| (match r.lastSlots.getD (4 * w + b) none with
    | some k => fld (8 * b + 4) (8 * b) k ||| flag (8 * b + 7) true | none => 0)) (0 : Word)
  let ws := [word 0x00800001, fld 4 0 r.set ||| fld 9 8 r.type ||| fld 20 16 r.width ||| fld 25 24 r.strip ||| fld 26 26 r.fmt ||| flag 27 r.tagzone,
      fld 4 0 r.member ||| fld 10 8 r.mstate] ++ words2 r.setid ++ [word r.gen] ++ words2 r.iseq ++ words2 r.stripes ++ words2 r.initWm
    ++ words2 r.memberWm ++ words2 r.patWm ++ words2 r.creator ++ r.driveIds.map word ++ [fld 23 0 r.ejMask] ++ last ++ List.replicate 78 0
  ws ++ [word (crc32c ws)]

/-- Write the identity records of every member that is CURRENT, REBUILDING or RESYNCING; the two copies alternate (R556,
R557). -/
def writeIds (i : Nat) (s : State) : State :=
  let s := onSet i (fun v => { v with iseq := v.iseq + 1, idMoved := false, idAt := s.clk.now }) s
  match s.vset i with
  | none => s
  | some v => forAll (membersIn v fun m => !m.out) (fun m s => match (v.mem m).slot with
      | none => s
      | some sl =>
        let r := idRecord i v m
        send { kind := .idRecord, a := sl, b := if v.iseq % 2 = 0 then 0 else 524288, c := m, ws := r.toWords } (onPort sl (fun p => { p with id := some r }) s)) s

/-! ## Journal records (R534, R536) -/

/-- The home members of a stripe's record (Table 11.4). -/
def homeMembers (v : VSet) (stripe : Nat) : List Nat :=
  let here := fun m => !missing v stripe m false
  match v.type with
  | 2 => [pMember v stripe].filter here
  | 3 => [pMember v stripe, qMember v stripe].filter here
  | _ => (((List.range v.width).map fun i => (stripe + i) % v.width).filter here).take 1

/-- The bytes of a block, as a list. -/
def blkBytes (b : Blk) : List Nat := bytesOf 4096 b.d

/-- The words of a journal record (Table 11.6); the SCRC of data that is not yet known is free (log 75). DESIGN CHOICE (log 75, safe). -/
def recWords (v : VSet) (j : Nat) (r : JRec) : List Word :=
  let span := fun (m : Nat) => match tabFind r.spans m with
    | some x => [fld 5 0 x.first ||| fld 12 6 x.count,
        if x.data.length = x.count then word (crc32cBytes (x.data.flatMap blkBytes)) else Config.earlyScrc j m]
    | none => [0, 0]
  let ws := [word 0x00400001, fld 4 0 r.set ||| fld 9 8 r.method ||| flag 10 r.poison ||| fld 20 16 v.width] ++ words2 r.stripe ++ words2 v.setid
    ++ [word r.gen] ++ words2 j ++ [word (sumNat (r.spans.map fun e => 2 ^ e.1))] ++ (List.range 24).flatMap span ++ List.replicate 5 0
  ws ++ [word (crc32c ws)]

/-- The lowest open JSEQ of the shelf, RLOW (Table 11.5). -/
def rlow (s : State) : Nat := match s.wbf.recs with | [] => s.wbf.jseq + 1 | e :: _ => e.1

/-- The journal records of a set. -/
def recsOf (s : State) (i : Nat) : List Nat := (s.wbf.recs.filter fun e => e.2.set = i).map (·.1)

/-! ## Journal blocks (R535, R538, R539) -/

/-- The key of a member's ring. -/
def ringKey (i m : Nat) : Nat := i * 32 + m

/-- The ring of a member. -/
def State.ring (s : State) (i m : Nat) : Ring := tabGet {} s.wbf.rings (ringKey i m)
/-- Change a ring. -/
def onRing (i m : Nat) (f : Ring → Ring) (s : State) : State := s.onWbf fun w => { w with rings := tabMod {} w.rings (ringKey i m) f }

/-- The words of a journal block (Table 11.5). -/
def blockWords (s : State) (v : VSet) (bseq : Nat) (js : List Nat) : List Word :=
  let rs := js.flatMap fun j => match s.rec_ j with | some r => recWords v j r | none => List.replicate 64 0
  let ws := words2 bseq ++ words2 (rlow s) ++ [fld 3 0 js.length] ++ words2 v.setid ++ [word v.gen] ++ List.replicate 8 0 ++ rs
    ++ List.replicate (1007 - rs.length) 0
  ws ++ [word (crc32c ws)]

/-- Write the next journal block of a member, with FUA, in the class of its most urgent record; a ring without a free block
waits (R538, R539). -/
def writeJournal (i m : Nat) (s : State) : State :=
  let r := s.ring i m
  match s.vset i, r.open_ with
  | some v, _ :: _ => match (v.mem m).slot with
    | none => s
    | some sl =>
      let free := match tabFind r.blocks r.next with | none => true | some hi => decide (hi < rlow s)
      if !free then
        if r.stall then s else raise 456 (fld 4 0 i ||| fld 12 8 sl) (onRing i m (fun r => { r with stall := true }) s)
      else
        let js := r.open_.take 15
        let cls := (js.filterMap s.rec_).foldl (fun a x => min a x.cls) 7
        let ws := blockWords s v (r.bseq + 1) js
        let s := onRing i m (fun r => { r with bseq := r.bseq + 1, next := (r.next + 1) % 262144, open_ := r.open_.drop 15, openAt := s.clk.now, stall := false,
                                               blocks := tabIns r.blocks r.next (js.foldl max 0) }) s
        issue ⟨sl, i, m, 0, 0, true, 524288 + r.next, 1, cls, 2048, true, [⟨numOf ws, 0, false⟩], .journal i m v.gen js, none, none, none, [], none, false, false, none, 0, 0, false⟩
          (count1 3595 s)
  | _, _ => s

/-- Pack a record into the block of a home member; a block of 15 records is written at once (R538). -/
def packRec (i m j : Nat) (s : State) : State :=
  let s := onRing i m (fun r => { r with open_ := r.open_ ++ [j], openAt := if r.open_.isEmpty then s.clk.now else r.openAt }) s
  if 15 ≤ (s.ring i m).open_.length then writeJournal i m s else s

/-- The identity records of a set carry a new generation once its open records are persisted under it (R558). -/
def settleIds (i : Nat) (s : State) : State :=
  match (s.vset i).bind (·.idWait) with
  | some [] => writeIds i (onSet i (fun v => { v with idWait := none }) s)
  | _ => s

/-- Open records need no more to be written again, or not to some member (R540, R570): the identity records wait for the others. -/
def dropIdWait (i : Nat) (gone : Nat × Nat → Bool) (s : State) : State :=
  settleIds i (onSet i (fun v => { v with idWait := v.idWait.map fun l => l.filter fun e => !gone e }) s)

/-- A set's generation changes (R558): its open records are packed again, under the new GEN, into the blocks of their home members, and the
identity records carry it once those are written. A record that was not yet persisted waits for these blocks (R534). DESIGN CHOICE (log 79, unsafe). -/
def newGen (i : Nat) (s : State) : State :=
  let s := onSet i (fun v => { v with gen := (v.gen + 1) % 2 ^ 32 }) s
  match s.vset i with
  | none => s
  | some v =>
    let todo := (recsOf s i).flatMap fun j => match s.rec_ j with
      | some r => (homeMembers v r.stripe).map fun m => (j, m)
      | none => []
    let s := s.onWbf fun w => { w with recs := tabMap w.recs fun _ r => if r.set = i then { r with gen := v.gen, homes := homeMembers v r.stripe } else r }
    let s := onSet i (fun v => { v with idWait := some todo }) s
    let s := forAll todo (fun e s => if (s.ring i e.2).open_.contains e.1 then s else packRec i e.2 e.1 s) s
    shadow .stateWrite 8 i (settleIds i s)

/-! ## Dirty-region logs (R576–R578) -/

/-- The words of a log slot's header (Table 12.6); it covers every region of a member. -/
def logHeader (v : VSet) (l : LogSlot) : List Word :=
  let ws := [1, fld 1 0 l.st ||| fld 12 8 l.member] ++ words2 v.setid ++ [word l.depgen] ++ words2 l.oseq
    ++ words2 ((v.stripes * stripBytes v + 1048575) / 1048576) ++ List.replicate 1014 0
  ws ++ [word (crc32c ws)]

/-- Write the header of a log slot to every CURRENT member (R576, R577). -/
def writeLogHeader (i k : Nat) (s : State) : State :=
  match s.vset i with
  | none => s
  | some v => forAll (membersIn v fun x => x = .current) (fun m =>
      issue { stripCmd i v 0 m 0 1 4 (.passWrite 0) true [⟨numOf (logHeader v (tabGet {} v.logs k)), 0, false⟩] with lba := 786432 + k * 65536, fua := true }) s

/-- Open a log slot for a member that became missing under generation `gen` (R577). DEDUCED (log 82, unsafe). -/
def openLog (i m gen : Nat) (s : State) : State :=
  match s.vset i with
  | none => s
  | some v =>
    let free := (List.range 4).find? fun k => (tabGet {} v.logs k : LogSlot).st = 0
    let k := match free with
      | some k => k
      | none => (List.range 4).foldl (fun b k => if (tabGet {} v.logs k : LogSlot).oseq < (tabGet {} v.logs b : LogSlot).oseq then k else b) 0
    let top := v.logs.foldl (fun a e => max a e.2.oseq) 0
    let s := onSet i (fun v => { v with
      members := tabMap v.members fun _ x => if x.log = some k then { x with log := none } else x,
      logs := tabIns v.logs k { st := 1, member := m, depgen := gen, oseq := top + 1, bits := [], kept := [] } }) s
    writeLogHeader i k (onMember i m (fun x => { x with log := some k }) s)

/-- Close a member's log slot (R577). -/
def closeLog (i m : Nat) (s : State) : State :=
  match (s.vset i).bind fun v => (v.mem m).log with
  | none => s
  | some k => writeLogHeader i k (onMember i m (fun x => { x with log := none }) (onSet i (fun v => { v with logs := tabUpd v.logs k fun l => { l with st := 2 } }) s))

/-! ## OFFLINE (R590, R591) -/

/-- Block ranges of a namespace touch a set. -/
def rangesIn (n : Ns) (i : Nat) (rs : List (Nat × Nat)) : Bool :=
  rs.any fun r => decide (0 < r.2) && n.map.any fun l => decide (l.2.set = i) && decide (r.1 / perParcel n ≤ l.1) && decide (l.1 ≤ (r.1 + r.2 - 1) / perParcel n)

/-- A started command still needs to read or write a block of a set (R591). -/
def needsSet (s : State) (i : Nat) (c : Cmd) : Bool :=
  match s.nsOf c.cmd.a.nsid with
  | none => false
  | some n =>
    if c.ready || c.done then false
    else if c.phase != .run then rangesIn n i (allRanges c.cmd)
    else c.need.any (fun sp => match spanByte n sp with | some p => decide (p.1 = i) | none => false)
      || c.tzNeed.any (fun k => decide ((k - 2 ^ 60) / 2 ^ 40 = i))
      || (writes c.cmd.op && decide (c.left ≠ 0) && rangesIn n i (writeRanges c.cmd))

/-- The passes over a set, and those that read it, pause: what they have not done is done again (R591). -/
def dropPasses (i : Nat) (s : State) : State :=
  s.onDrv fun d => { d with passes := d.passes.filter fun e => !(e.2.set = i || (e.2.kind = .move && e.2.from_ = i)) }

/-- A set goes OFFLINE (R590): every started command that needs a block of it completes with Namespace Not Ready (R591). DESIGN CHOICE (log 81, unsafe). -/
def goOffline (i cause : Nat) (s : State) : State :=
  match s.vset i with
  | none => s
  | some v =>
    if v.st = .offline then s
    else
      let s := raise 521 (redParam i 0 cause) (setSt i .offline (dropPasses i (onSet i (fun v => { v with cause := cause }) s)))
      let cs := (byOrder s.nvm.tags).filter fun e => needsSet s i e.2
      settleCmds (forAll cs (fun e s => failCmd e.1 .nsNotReady (if writes e.2.cmd.op && e.2.phase = .run then discardWrite e.1 s else s)) s)

/-! ## The bad-range table (R592–R595) -/

/-- Enter a range; a full table takes the set OFFLINE with cause 3 (R595). DESIGN CHOICE (log 85, unsafe). -/
def addBad (i : Nat) (e : BadRange) (s : State) : State :=
  match s.vset i with
  | none => s
  | some v =>
    if 1048576 ≤ v.bad.length then goOffline i 3 s
    else shadow .stateWrite 8 i (raise 522 (redParam i e.member e.cause) (count1 4203
      (s.onVol fun d => { d with deltas := d.deltas.or (some s.clk.now), sets := tabUpd d.sets i fun v => { v with bad := insBad e v.bad } })))

/-- What is left of an entry without one block of one stripe. -/
def splitBad (e : BadRange) (stripe b : Nat) : List BadRange :=
  (if e.stripe < stripe then [{ e with nstripes := stripe - e.stripe }] else [])
    ++ (if e.first < b then [{ e with stripe := stripe, nstripes := 1, count := b - e.first }] else [])
    ++ (if b + 1 < e.first + e.count then [{ e with stripe := stripe, nstripes := 1, first := b + 1, count := e.first + e.count - (b + 1) }] else [])
    ++ (if stripe + 1 < e.stripe + e.nstripes then [{ e with stripe := stripe + 1, nstripes := e.stripe + e.nstripes - (stripe + 1) }] else [])

/-- A block leaves the table (R595); a split that finds the table full leaves it there and takes the set OFFLINE. -/
def removeBad (i stripe m b : Nat) (s : State) : State :=
  match s.vset i with
  | none => s
  | some v => match badAt v stripe m b with
    | none => s
    | some e =>
      let l := (splitBad e stripe b).foldl (fun l x => insBad x l) (v.bad.erase e)
      if 1048576 < l.length then goOffline i 3 s
      else shadow .stateWrite 8 i (count1 4204 (s.onVol fun d => { d with deltas := d.deltas.or (some s.clk.now), sets := tabUpd d.sets i fun v => { v with bad := l } }))

/-! ## Reads of a block position with the table (R941) -/

/-- The blocks of one position that are known: what was read, with the value zero for blocks that stand so in the table. -/
def knownAt (v : VSet) (stripe b : Nat) (got : Tab Blk) : Tab Blk :=
  (List.range v.width).foldl (fun t m => if badZero v stripe m b then tabIns t m Blk.zero else
    match tabFind got (blkKey m b) with | some x => tabIns t m x | none => t) []

/-- The data blocks of a position whose missing strips exceed tolerance: entered in the table and taken as zero (R592). DEDUCED (log 99, unsafe). -/
def enterHoles (i stripe b cause : Nat) (got : Tab Blk) (s : State) : State :=
  match s.vset i with
  | none => s
  | some v =>
    let known := knownAt v stripe b got
    let ms := if isMirror v then [0] else (List.range (dataStrips v)).map fun j => dataMember v stripe j
    forAll (ms.filter fun m => !tabHas known m) (fun m => addBad i ⟨stripe, 1, m, b, 1, cause⟩) s

/-- Parity recomputed over the data as it stands, with entered blocks as zero, written to the present parity members
(R592). DESIGN CHOICE (log 87, unsafe). -/
def rewriteParity (i stripe b : Nat) (got : Tab Blk) (s : State) : State :=
  match s.vset i with
  | none => s
  | some v =>
    if isMirror v then s
    else
      let known := knownAt v stripe b got
      let ds := (List.range (dataStrips v)).map fun j => tabGet Blk.zero known (dataMember v stripe j)
      let put := fun (m : Nat) (x : Blk) (s : State) => if missing v stripe m false then s else
        let sl := ((v.mem m).slot).getD 0
        issue ⟨sl, i, m, stripe, b, true, stripLba v stripe b, 1, 4, 2048, false, [x], .repair, none, none, none, [], none, false, false, none, 0, 0, false⟩ s
      let s := put (pMember v stripe) (parityP ds) s
      if v.type = 3 then put (qMember v stripe) (parityQ ds) s else s

/-! ## Targets (R579, R580) -/

/-- The shelf is paired: a module sits in the other bay. DEDUCED (log 91, unsafe). -/
def pairedShelf (s : State) : Bool := !s.pins.mateInN || s.links.partnerUp

/-- Capacity and format that the set asks of a drive (R580). -/
def fits (s : State) (v : VSet) (slot : Nat) : Bool :=
  match (s.port slot).info with
  | none => false
  | some d => decide (d.fmt = some v.fmt) && decide (4 * GiB + v.stripes * stripBytes v ≤ d.blocks * 4096)

/-- A drive qualifies under R580 but for the spare condition. -/
def qualifies (s : State) (v : VSet) (slot : Nat) : Bool :=
  enumerated s slot && (tabGet {} s.pwr.slots slot : Slot).state = SlotState.on && (memberAt s slot).isNone && fits s v slot
    && (!pairedShelf s || (match (s.port slot).info with | some d => d.dual | none => false))

/-- The slot holds a spare for the set: designated, for this set, with the same drive in it. -/
def spareFor (s : State) (i slot : Nat) : Bool :=
  match tabFind s.vol.spares slot, (s.port slot).info with
  | some x, some d => (x.mask = 0 || x.mask.testBit i) && decide (x.serial = d.serial)
  | _, _ => false

/-- The target that R580 takes for a missing member: the slot that a command named, else a replacement in the slot it last
occupied, else the spare of the smallest capacity, lowest slot first; none where none qualifies. -/
def targetFor (s : State) (i : Nat) (v : VSet) (m : Nat) : Option Nat :=
  let x := v.mem m
  match x.wish with
  | some k => if qualifies s v k then some k else none
  | none =>
    match (x.last.bind fun k => if v.autoReplace && (s.port k).id.isNone && qualifies s v k then some k else none) with
    | some k => some k
    | none => ((List.range 24).filter fun k => spareFor s i k && qualifies s v k).foldl (fun (b : Option Nat) k =>
        let cap : Nat → Nat := fun k => match (s.port k).info with | some d => d.blocks | none => 0
        match b with | none => some k | some y => if cap k < cap y then some k else some y) none

/-- Fire a member's rebuild trigger; RED.NO_SPARE once while no target qualifies (R579). -/
def fireTrigger (i m : Nat) (s : State) : State :=
  let s := onMember i m (fun x => { x with fired := true }) s
  match s.vset i with
  | none => s
  | some v => if (targetFor s i v m).isNone && !(v.mem m).told then
      raise 519 (redParam i m 0) (onMember i m (fun x => { x with told := true }) s) else s

/-- A drive becomes the target of a missing index (R581). -/
def takeTarget (i m slot : Nat) (s : State) : State :=
  let serial := match (s.port slot).info with | some d => d.serial | none => 0
  let s := onMember i m (fun x => { x with st := .rebuilding, slot := some slot, serial := serial, wm := 0, last := some slot, fired := false, told := false, wish := none }) s
  let s := s.onVol fun d => { d with spares := tabDel d.spares slot }
  let s := doIf (match s.vset i with | some v => v.st = .degraded | none => false) (setSt i .rebuilding) s
  raise 516 (redParam i m 0) (newGen i s)

/-- The set's state once a member is no longer missing or RESYNCING (Table 12.7). DEDUCED (log 88, unsafe). -/
def settleSet (i : Nat) (s : State) : State :=
  match s.vset i with
  | none => s
  | some v => if v.st = .rebuilding && (membersIn v fun m => m != .current).isEmpty then setSt i .optimal s else s

/-- The initialisation pass is taken to its end where a rebuild covered what it had left (R588, R464). -/
def endInit (i : Nat) (s : State) : State :=
  match s.vset i with
  | none => s
  | some v => if v.initWm < v.stripes then raise 385 (fld 4 0 i) (onSet i (fun v => { v with initWm := v.stripes }) s) else s

end Sys2Proof.Machine
end

