-- ==== Sys2Proof/Machine/Destage.lean ====
section
/-! DEFINITION. Destage: triggers, methods, journal records and their blocks, strip writes, retirement, and the recovery of open
records (chapter 11). -/
namespace Sys2Proof.Machine

/-! ## Journal blocks (R538) -/

/-- R538: 20 µs after its first record a journal block is written. -/
def execJournalBlockTimer (set_ member : Nat) (s : State) : Out :=
  .next (let r := s.ring set_ member
    if r.open_.isEmpty || !(due (r.openAt + 20 * us) s.clk.now || decide (15 ≤ r.open_.length)) then s else writeJournal set_ member s)

/-! ## What a destage writes (R526, R530–R532) -/

/-- The QUEUED pages of a bin. -/
def binPages (s : State) (i stripe : Nat) : List (Nat × Page) :=
  s.wbf.pages.filter fun e => e.2.set = i && e.2.stripe = stripe && e.2.st = .queued

/-- New data by place, strip × 64 + block: the namespace and the newest valid blocks. DEDUCED (log 77, unsafe). -/
def newData (v : VSet) (ps : List Page) : Tab (Nat × Tab PBlk) :=
  ps.foldl (fun t p =>
    let (_, j, b) := place v p.byte
    let k := j * 64 + b
    let had := (tabGet (p.ns, ([] : Tab PBlk)) t k).2
    tabIns t k (p.ns, p.blks.foldl (fun t b => match tabFind t b.1 with
      | some x => if x.order ≤ b.2.order then tabIns t b.1 b.2 else t
      | none => tabIns t b.1 b.2) had)) []

/-- Every block of a place is new. DEDUCED (log 74, unsafe). -/
def wholeAt (s : State) (nd : Tab (Nat × Tab PBlk)) (k : Nat) : Bool :=
  match tabFind nd k with
  | none => false
  | some (ns, bs) => decide (bs.length = if ns = 0 then 128 else match s.nsOf ns with | some n => perSpan n | none => 8)

/-- The span of a dirty strip: from its first to its last present block (R530); none for a clean strip. -/
def stripSpan (nd : Tab (Nat × Tab PBlk)) (zero : List Nat) (blks j : Nat) : Option (Nat × Nat) :=
  if !(List.range blks).any fun b => tabHas nd (j * 64 + b) then none
  else
    let at_ := (List.range blks).filter fun b => tabHas nd (j * 64 + b) || zero.contains (j * 64 + b)
    match at_ with
    | [] => none
    | b :: bs => some (b, bs.foldl max b)

/-- The blocks `lo` to `hi`. -/
def upTo (r : Nat × Nat) : List Nat := (List.range (r.2 + 1 - r.1)).map (r.1 + ·)

/-- Members that a list of needed blocks has to be read from, missing strips through the others (R574). -/
def readMembers (s : State) (v : VSet) (stripe : Nat) (keys : List Nat) : List Nat :=
  (keys.flatMap fun k => if badZero v stripe (k / 64) (k % 64) then [] else
    if missing v stripe (k / 64) true then (reconMembers s v stripe (k / 64) (k % 64) []).getD [] else [k / 64]).eraseDups

/-- What a destage of some pages does: method, the dirty strips with their spans, the union span, the places written as zero
and the blocks to be read first (R530–R532, R574). -/
structure Plan where
  method : Nat
  spans  : List (Nat × Nat × Nat)
  union_ : Nat × Nat
  zero   : List Nat
  reads  : List Nat
  merge  : Nat
  deriving DecidableEq, Repr

/-- The plan of a destage. -/
def planOf (s : State) (i : Nat) (v : VSet) (stripe : Nat) (nd : Tab (Nat × Tab PBlk)) (redo : Bool) : Plan :=
  let k := dataStrips v
  let blks := stripBlks v
  let places := (List.range k).flatMap fun j => (List.range blks).map fun b => j * 64 + b
  let zero := places.filter fun p => zeroAt s i v stripe (p / 64) (p % 64)
  let have_ := fun (p : Nat) => wholeAt s nd p || zero.contains p
  let full := !redo && places.all have_
  let spans := (List.range k).filterMap fun j =>
    if full && !isMirror v then some (j, 0, blks - 1) else (stripSpan nd zero blks j).map fun r => (j, r.1, r.2)
  let un := match spans with | [] => (0, 0) | x :: xs => xs.foldl (fun a y => (min a.1 y.2.1, max a.2 y.2.2)) x.2
  let mem := fun (p : Nat) => blkKey (dataMember v stripe (p / 64)) (p % 64)
  let inSpans := spans.flatMap fun x => (upTo x.2).map fun b => x.1 * 64 + b
  let gaps := (inSpans.filter fun p => !have_ p).map mem
  let merge := (inSpans.filter fun p => tabHas nd p && !have_ p).length
  let pars := ([pMember v stripe] ++ if v.type = 3 then [qMember v stripe] else []).filter fun m => !missing v stripe m false
  if isMirror v then ⟨3, spans, un, zero, gaps, merge⟩
  else if full then ⟨0, spans, un, zero, [], merge⟩
  else
    let rmw := if pars.isEmpty then gaps else (inSpans.map mem ++ pars.flatMap fun m => (upTo un).map (blkKey m)).eraseDups
    let recon := if pars.isEmpty then gaps else
      (((List.range k).flatMap fun j => (upTo un).map fun b => j * 64 + b).filter fun p => !(inSpans.contains p && have_ p)).map mem
    let above := v.st = .initialising && decide (v.initWm ≤ stripe) || decide (v.initWm ≤ stripe && v.initWm < v.stripes)
    let parOk := pars.all fun m => !missing v stripe m true
    if !redo && !above && parOk && decide ((readMembers s v stripe rmw).length < (readMembers s v stripe recon).length) then ⟨1, spans, un, zero, rmw, merge⟩
    else ⟨2, spans, un, zero, recon, merge⟩

/-- The members written, with their spans: dirty data strips, then parity over the union span; of a mirror every copy. A
missing strip is not written (R530, R574). -/
def writeSet (v : VSet) (stripe : Nat) (p : Plan) : Tab MSpan :=
  let here := fun m => !missing v stripe m false
  let cnt := fun (r : Nat × Nat) => r.2 + 1 - r.1
  let l := if isMirror v then (List.range v.width).map fun m => (m, p.union_)
    else (p.spans.map fun x => (dataMember v stripe x.1, x.2)) ++ [(pMember v stripe, p.union_)] ++ (if v.type = 3 then [(qMember v stripe, p.union_)] else [])
  (l.filter fun x => here x.1).foldl (fun t x => tabIns t x.1 ⟨x.2.1, cnt x.2, []⟩) []

/-! ## What is written (R530, R531, R561) -/

/-- The new block of a place, over what was read. -/
def newBlk (s : State) (v : VSet) (r : JRec) (nd : Tab (Nat × Tab PBlk)) (k : Nat) : Blk :=
  let old := tabGet Blk.zero r.old (blkKey (dataMember v r.stripe (k / 64)) (k % 64))
  let zero := r.zero.contains k
  match tabFind nd k with
  | some (ns, bs) =>
    let base := if zero then Blk.zero else old
    if ns = 0 then tagBlk bs base else match s.nsOf ns with | some n => memberBlk n bs base | none => base
  | none =>
    let dirty := match tabFind r.spans (dataMember v r.stripe (k / 64)) with
      | some x => decide (x.first ≤ k % 64) && decide (k % 64 < x.first + x.count) | none => decide (r.method = 0)
    if zero && (dirty || isMirror v) then Blk.zero else old

/-- The blocks of a member that a record writes: new data, and parity by the record's method (R530, R531, R561). -/
def spanData (s : State) (v : VSet) (r : JRec) (nd : Tab (Nat × Tab PBlk)) (m : Nat) (x : MSpan) : List Blk :=
  let ds := List.range (dataStrips v)
  let old := fun (m b : Nat) => tabGet Blk.zero r.old (blkKey m b)
  let hit := fun (j b : Nat) => (List.range (stripBlks v)).any fun y => tabHas nd (j * 64 + y) &&
    (match tabFind r.spans (dataMember v r.stripe j) with | some z => decide (z.first ≤ b) && decide (b < z.first + z.count) | none => tabHas nd (j * 64 + b))
  (List.range x.count).map fun i =>
    let b := x.first + i
    match roleOf v r.stripe m with
    | .data j => newBlk s v r nd (j * 64 + b)
    | .p => if r.method = 1 then ds.foldl (fun a j => if hit j b then (a.xor (old (dataMember v r.stripe j) b)).xor (newBlk s v r nd (j * 64 + b)) else a) (old m b)
        else parityP (ds.map fun j => newBlk s v r nd (j * 64 + b))
    | .q => if r.method = 1 then ds.foldl (fun a j => if hit j b then a.xor (((old (dataMember v r.stripe j) b).xor (newBlk s v r nd (j * 64 + b))).scale (gfPow j)) else a) (old m b)
        else parityQ (ds.map fun j => newBlk s v r nd (j * 64 + b))

/-! ## Opening a record (R528, R534) -/

/-- Pages of a queued bin whose location has changed move to the bin of their new location (R492, R517). -/
def resolveBin (i stripe cls : Nat) (ahead : Bool) (s : State) : State :=
  forAll (binPages s i stripe) (fun e s =>
    if e.2.ns = 0 then s else match s.nsOf e.2.ns with
    | none => s
    | some n => match spanByte n e.2.span with
      | none => s
      | some (k, x) =>
        let b := binOf s n e.2.span
        if k = i && b.2 = stripe && x = e.2.byte then s
        else
          let s := shadow .mirrorState 2 e.1 (onPage e.1 (fun p => { p with set := k, stripe := b.2, byte := x }) s)
          if (k, b.2) = (i, stripe) || s.wbf.bins.any (fun y => y.set = k && y.stripe = b.2) then s
          else s.onWbf fun w => { w with order := w.order + 1, bins := w.bins ++ [⟨k, b.2, cls, ahead, w.order + 1⟩] }) s

/-- Put a bin that Flush or FUA queued ahead of the S5 bins that neither of them queued (R528). -/
def putAhead (b : QBin) : List QBin → List QBin
  | [] => [b]
  | x :: xs => if x.cls = 5 && !x.ahead then b :: x :: xs else x :: putAhead b xs

/-- Queued bins of a set in the order of destage: queue order, but for those that Flush or FUA queued, which go ahead of S5 bins
(R528). DEDUCED (log 237, unsafe). -/
def binOrder (s : State) (i : Nat) : List QBin :=
  (s.wbf.bins.filter fun b => b.set = i).foldl (fun l b => if b.ahead then putAhead b l else l ++ [b]) []

/-- A stripe is under a pass, or under what is left of one (R582, R596). -/
def passBusy (s : State) (i stripe : Nat) : Bool :=
  (s.drv.passes.any fun e => e.2.set = i && e.2.stripe = stripe)
    || tabAny s.drv.cmds fun _ c => c.set = i && c.stripe = stripe && match c.use with | .passWrite p => decide (p ≠ 0) | _ => false

/-- The data of a member's span is known without any read: nothing is read, or each of its blocks is new or zero. -/
def knownEarly (s : State) (v : VSet) (p : Plan) (r : JRec) (nd : Tab (Nat × Tab PBlk)) (m : Nat) (x : MSpan) : Bool :=
  p.reads.isEmpty || match roleOf v r.stripe m with
    | .data j => (List.range x.count).all fun i => wholeAt s nd (j * 64 + x.first + i) || p.zero.contains (j * 64 + x.first + i)
    | _ => false

/-- Open a record for a bin and pack it into the blocks of its home members; its reads wait until it is persisted. DESIGN CHOICE (log 78, unsafe). -/
def openRecord (i : Nat) (v : VSet) (b : QBin) (redo : Bool) (s : State) : State :=
  let ps := binPages s i b.stripe
  let nd := newData v (ps.map (·.2))
  let p := planOf s i v b.stripe nd redo
  let j := s.wbf.jseq + 1
  let poison := ps.any fun e => e.2.blks.any fun x => x.2.poison
  let homes := homeMembers v b.stripe
  let r : JRec :=
    { set := i, stripe := b.stripe, method := p.method, poison := poison, gen := v.gen, cls := b.cls, spans := writeSet v b.stripe p, pages := ps.map (·.1),
      homes := homes, seq := none, reads := p.reads, old := [], writes := [], logs := 0, stage := 0, redo := redo, zero := p.zero }
  let r := { r with spans := r.spans.map fun e => (e.1, if knownEarly s v p r nd e.1 e.2 then { e.2 with data := spanData s v r nd e.1 e.2 } else e.2) }
  let s := s.onWbf fun w => { w with jseq := j, recs := tabIns w.recs j r, bins := w.bins.filter fun x => !(x.set = i && x.stripe = b.stripe) }
  let s := shadow .mirrorState 3 j (count1 3594 (count1 (3586 + p.method) (count 3601 p.merge (doIf (b.cls = 0) (count1 3591) s))))
  let s := onRec j (fun r => { r with seq := s.cover }) s
  forAll homes (fun m => packRec i m j) s

/-- R528, R534: the set's next queued bin opens its record. A bin whose stripe has a record open, or is under a pass, waits. -/
def execDestageStart (set_ : Nat) (s : State) : Out :=
  .next (match s.vset set_ with
    | none => s
    | some v =>
      let open_ := (recsOf s set_).length
      if !actsForShelf s || v.st = .offline || v.recover || s.wbf.setmax ≤ open_ || 65536 ≤ s.wbf.recs.length then s
      else match (binOrder s set_).find? fun b => !recOpen s set_ b.stripe && !passBusy s set_ b.stripe with
        | none => s
        | some b =>
          let s := resolveBin set_ b.stripe b.cls b.ahead s
          if (binPages s set_ b.stripe).isEmpty then s.onWbf fun w => { w with bins := w.bins.filter fun x => !(x.set = set_ && x.stripe = b.stripe) }
          else openRecord set_ v b false s)

/-! ## Reads, writes and retirement (R534, R540, R541, R578, R595) -/

/-- Dispatch the strip writes of a record. DEDUCED (log 69, unsafe). -/
def dispatchWrites (j : Nat) (s : State) : State :=
  match s.rec_ j with
  | none => s
  | some r => match s.vset r.set with
    | none => s
    | some v =>
      let ms := (r.spans.map (·.1)).filter fun m => !missing v r.stripe m false
      let s := onRec j (fun r => { r with stage := 3, writes := ms }) s
      forAll ms (fun m s => match tabFind r.spans m with
        | none => s
        | some x =>
          issue ⟨((v.mem m).slot).getD 0, r.set, m, r.stripe, x.first, true, stripLba v r.stripe x.first, x.count, r.cls, 2048, false, x.data, .strip j m, none, none, none, [], none, false, false, none, 0, 0, false⟩ s) s

/-- Records whose log bits are kept and postmarked dispatch their strip writes (R578). -/
def pumpRecs (s : State) : State :=
  forAll (s.wbf.recs.map (·.1)) (fun j s => match s.rec_ j with
    | some r => if r.stage = 2 && r.logs = 0 && s.marked r.seq then dispatchWrites j s else s
    | none => s) s

/-- Mark the regions that a record writes in the logs of the missing members, and write the bitmap blocks that are not yet
kept to every CURRENT member with FUA (R578). -/
def markRegions (j : Nat) (r : JRec) (v : VSet) (s : State) : State :=
  let lo := r.spans.foldl (fun a e => min a e.2.first) 64
  let hi := r.spans.foldl (fun a e => max a (e.2.first + e.2.count - 1)) 0
  let rs := ((List.range (hi + 1 - lo)).map fun b => regionOf v r.stripe (lo + b)).eraseDups
  let outs := (List.range v.width).filter fun m => missing v r.stripe m false
  forAll outs (fun m s => match (v.mem m).log with
    | none => s
    | some k =>
      let l : LogSlot := tabGet {} v.logs k
      let todo := rs.filter fun x => !l.kept.contains x
      if todo.isEmpty then s
      else
        let s := onSet r.set (fun v => { v with logs := tabUpd v.logs k fun l => { l with bits := (l.bits ++ todo.filter fun x => !l.bits.contains x) } }) s
        let s := shadow .mirrorState 7 j s
        let blks := (todo.map fun x => x / 32768).eraseDups
        forAll (membersIn v fun x => x = .current) (fun c s => forAll blks (fun y s =>
          issue ⟨((v.mem c).slot).getD 0, r.set, c, r.stripe, 0, true, 786432 + k * 65536 + 1 + y, 1, r.cls, 2048, true, [⟨sumNat ((((tabGet {} v.logs k : LogSlot).bits ++ todo).eraseDups.filter fun z => z / 32768 = y).map fun z => 2 ^ (z % 32768)), 0, false⟩],
            .logBits r.set k todo, none, none, none, [], none, false, false, none, 0, 0, false⟩
            (count1 4207 (onRec j (fun r => { r with logs := r.logs + 1 }) s))) s) s) s

/-- A record's reads have come: its blocks are computed, and its strip writes leave once the regions are marked. -/
def startWrites (j : Nat) (s : State) : State :=
  match s.rec_ j with
  | none => s
  | some r => match s.vset r.set with
    | none => s
    | some v =>
      let nd := newData v (r.pages.filterMap s.page)
      let spans := r.spans.map fun e => (e.1, { e.2 with data := spanData s v r nd e.1 e.2 })
      let bad := spans.any fun e => e.2.data.any (·.poison)
      let s := onRec j (fun r => { r with spans := spans, poison := r.poison || bad, stage := 2 }) s
      let s := markRegions j r v s
      pumpRecs (onRec j (fun r => { r with seq := if s.cover.isSome then s.cover else r.seq }) s)

/-- Issue the reads that a record awaits (R534); blocks that stand in the bad-range table for zero are not read. -/
def issueReads (j : Nat) (s : State) : State :=
  match s.rec_ j with
  | none => s
  | some r => match s.vset r.set with
    | none => s
    | some v =>
      let zero := r.reads.filter fun k => badZero v r.stripe (k / 64) (k % 64)
      let todo := r.reads.filter fun k => !badZero v r.stripe (k / 64) (k % 64)
      let s := onRec j (fun r => { r with reads := todo, old := zero.foldl (fun t k => tabIns t k Blk.zero) r.old }) s
      if todo.isEmpty then startWrites j s
      else
        let ms := (todo.map (· / 64)).eraseDups
        forAll ms (fun m s =>
          let bs := (todo.filter fun k => k / 64 = m).map (· % 64)
          let lo := bs.foldl min 64
          let hi := bs.foldl max 0
          let one := fun (b n : Nat) (s : State) => (readStrip r.set v r.stripe m b n r.cls 2048 (.dest j m) s).2
          if bs.length = hi + 1 - lo then one lo bs.length s else forAll bs (fun b => one b 1) s) s

/-- R534: a record that is persisted on its home members and postmarked lets its reads go. -/
def execJournalPersisted (jseq : Nat) (s : State) : Out :=
  .next (match s.rec_ jseq with
    | none => s
    | some r => if r.stage ≠ 0 || !r.homes.isEmpty || !s.marked r.seq then s else issueReads jseq (onRec jseq (fun r => { r with stage := 1 }) s))

/-- WBF.DESTAGE commands whose pages are all free complete (R549). -/
def checkWaits (s : State) : State :=
  let done := s.wbf.waits.filter fun d => d.pages.isEmpty
  let s := s.onWbf fun w => { w with waits := w.waits.filter fun d => !d.pages.isEmpty }
  forAll done (fun d s =>
    let k2 := (s.lb.running.find? fun r => r.op = 0x0703 && r.key = d.id).map (·.key2)
    finish (fun r => r.op = 0x0703 && r.key = d.id) 452 stOk (fld 4 0 (k2.getD 0)) s) s

/-- The occupancy triggers end where occupancy has fallen (R527). DEDUCED (log 76, unsafe). -/
def checkOccupancy (s : State) : State :=
  let o := occupancy s
  s.onWbf fun w => { w with highOn := w.highOn && !(decide (o < w.low)), escal := w.escal && !(decide (o < w.high)) }

/-- A destage of pages marks the extents of a migrating parcel that it wrote (R498 step 2); a page of tag zone entries marks the
extent whose blocks it seals. -/
def markMoving (ps : List Nat) (s : State) : State :=
  match s.vol.mig with
  | none => s
  | some m =>
    let leaf := (s.nsOf m.ns).bind fun n => leafOf n m.index
    let ext := fun (x : Page) =>
      if x.ns = m.ns && x.span / 262144 = m.index then some (x.span % 262144 / 256)
      else match leaf with
        | some l =>
          let byte := x.span % 2 ^ 40 * 65536
          if x.ns = 0 && x.span / 2 ^ 40 = l.set && byte / GiB = l.parcel then some (byte % GiB / 1048576) else none
        | none => none
    let es := ps.filterMap fun p => (s.page p).bind ext
    s.onVol fun v => { v with mig := some { m with marks := es.foldl (fun k e => k ||| 2 ^ e) m.marks } }

/-- A record retires (R540): its pages become FREE; blocks written with poison enter the bad-range table and others leave
it (R541, R595). DEDUCED (log 236, unsafe). -/
def retire (j : Nat) (s : State) : State :=
  match s.rec_ j with
  | none => s
  | some r => match s.vset r.set with
    | none => s
    | some v =>
      let datas := r.spans.filter fun e => match roleOf v r.stripe e.1 with | .data _ => true | _ => false
      let datas := if isMirror v then (datas.take 1).map fun e => (0, e.2) else datas
      let blks := datas.flatMap fun e => (List.range e.2.count).map fun i => (e.1, e.2.first + i, e.2.data.getD i Blk.zero)
      let s := dropIdWait r.set (fun e => e.1 = j) (s.onWbf fun w => { w with recs := tabDel w.recs j })
      let s := s.onVol fun d => { d with quar := d.quar.map fun q => { q with recs := q.recs.erase j } }
      let s := forAll blks (fun x s => if x.2.2.poison then
          (if (badAt v r.stripe x.1 x.2.1).isSome then s else addBad r.set ⟨r.stripe, 1, x.1, x.2.1, 1, 3⟩ s)
        else removeBad r.set r.stripe x.1 x.2.1 s) s
      let s := doIf r.poison (raise 453 (fld 4 0 r.set)) (count 3596 (blks.filter fun x => x.2.2.poison).length s)
      let s := count 3585 (4096 * r.pages.length) s
      let s := shadow .mirrorState 4 j s
      let s := forAll (r.pages.filter fun p => (s.page p).isSome) freePage (markMoving r.pages s)
      settleCmds (checkOccupancy (checkWaits s))

/-- R540: a record whose strip writes have all completed or been settled retires. -/
def execStripWriteComplete (jseq : Nat) (s : State) : Out :=
  .next (match s.rec_ jseq with
    | none => s
    | some r => if r.stage = 3 && r.writes.isEmpty then retire jseq s else s)

/-! ## Triggers (R527) -/

/-- The bins with pages of some kind, each with its oldest page's time and its pages, oldest first. -/
def binsByAge (s : State) (kind : Page → Bool) : List (Nat × Nat × Nat × Nat) :=
  let bs := s.wbf.pages.foldl (fun (l : List (Nat × Nat × Nat × Nat)) e =>
    if !kind e.2 then l
    else if l.any fun x => x.1 = e.2.set && x.2.1 = e.2.stripe then l.map fun x => if x.1 = e.2.set && x.2.1 = e.2.stripe then (x.1, x.2.1, min x.2.2.1 e.2.dirtyAt, x.2.2.2 + 1) else x
    else l ++ [(e.2.set, e.2.stripe, e.2.dirtyAt, 1)]) []
  let ins := fun (x : Nat × Nat × Nat × Nat) (l : List (Nat × Nat × Nat × Nat)) => (l.filter fun y => y.2.2.1 ≤ x.2.2.1) ++ [x] ++ l.filter fun y => !(decide (y.2.2.1 ≤ x.2.2.1))
  bs.foldl (fun l x => ins x l) []

/-- The bins with DIRTY pages, oldest first. -/
def dirtyBins (s : State) : List (Nat × Nat × Nat × Nat) := binsByAge s fun p => p.st = .dirty

/-- R527: a bin's oldest DIRTY page is older than AGEMAX. -/
def execDestageAgeTrigger (set_ stripe : Nat) (s : State) : Out :=
  .next (match (dirtyBins s).find? fun b => b.1 = set_ && b.2.1 = stripe with
    | none => s
    | some b => if b.2.2.1 + s.wbf.agemax * 10 * ms < s.clk.now then queueBin set_ stripe 5 false s else s)

/-- Queue bins, oldest first, until no more than `target` percent would stay in use once every bin queued in a class up to
`cls` has retired. -/
def queueDown (cls target : Nat) : List (Nat × Nat) → State → State
  | [], s => s
  | b :: bs, s =>
    let going := tabCount s.wbf.pages fun _ p => p.st = .queued && (s.wbf.bins.any (fun q => q.set = p.set && q.stripe = p.stripe && decide (q.cls ≤ cls)) || recOpen s p.set p.stripe)
    if (usedPages s - going) * 100 < target * pageCount then s
    else queueDown cls target bs (queueBin b.1 b.2 cls false s)

/-- R527: occupancy reaches HIGH: bins are queued in order of their oldest page until occupancy falls below LOW. -/
def execOccupancyHigh (s : State) : Out :=
  .next (
    let on := s.wbf.highOn
    if !on && occupancy s < s.wbf.high then s
    else
      let s := doIf (!on) (raise 448 0) (s.onWbf fun w => { w with highOn := true })
      queueDown 5 s.wbf.low ((dirtyBins s).map fun b => (b.1, b.2.1)) s)

/-- R527, R529: occupancy reaches ESCPCT while ESC is set: bins are queued in S0 until occupancy falls below HIGH. -/
def execDestageEscalated (s : State) : Out :=
  .next (
    let on := s.wbf.escal
    if !s.wbf.esc || (!on && occupancy s < s.wbf.escpct) then s
    else
      let s := doIf (!on) (raise 449 0) (s.onWbf fun w => { w with escal := true })
      queueDown 0 s.wbf.high ((binsByAge s fun p => p.st = .dirty || (p.st = .queued && !recOpen s p.set p.stripe)).map fun b => (b.1, b.2.1)) s)

/-! ## Recovery (R544, R546) -/

/-- The union span of a record's spans. -/
def imgUnion (r : ImgRec) : Nat × Nat :=
  match r.spans with | [] => (0, 0) | x :: xs => xs.foldl (fun a y => (min a.1 y.2.1, max a.2 (y.2.1 + y.2.2.1 - 1))) (x.2.1, x.2.1 + x.2.2.1 - 1)

/-- Write blocks of a member's strip for a pass. -/
def passPut (p i : Nat) (v : VSet) (stripe m first cls : Nat) (bs : List Blk) (s : State) : State :=
  if (v.mem m).slot.isNone || bs.isEmpty then s else issue (stripCmd i v stripe m first bs.length cls (.passWrite p) true bs) s

/-- Settle one open record (Table 11.7) by the writes of pass `p`. `reads` gives the blocks of the stripe's present members over the union
span. -/
def settleRecord (p i : Nat) (r : ImgRec) (reads : List (Nat × Nat × List Blk)) (s : State) : State :=
  match s.vset i with
  | none => s
  | some v =>
    let un := imgUnion r
    let bs := upTo un
    let of := fun (m : Nat) => ((reads.find? fun x => x.1 = r.stripe && x.2.1 = m).map (·.2.2)).getD []
    let at_ := fun (m b : Nat) => (of m).getD (b - un.1) Blk.zero
    let gone := missingOf v r.stripe false
    let s := count1 3597 s
    if isMirror v then
      match (List.range v.width).filter fun m => !gone.contains m with
      | m :: m' :: ms => forAll (m' :: ms) (fun x => passPut p i v r.stripe x un.1 5 (of m)) s
      | _ => s
    else
      let datas := (List.range (dataStrips v)).map fun j => dataMember v r.stripe j
      let lost := datas.filter fun m => gone.contains m
      if lost.isEmpty then
        let par := fun (b : Nat) => datas.map fun m => if badZero v r.stripe m b then Blk.zero else at_ m b
        let put := fun (m : Nat) (f : List Blk → Blk) (s : State) => if gone.contains m then s else passPut p i v r.stripe m un.1 5 (bs.map fun b => f (par b)) s
        let s := count1 3598 (put (pMember v r.stripe) parityP s)
        if v.type = 3 then put (qMember v r.stripe) parityQ s else s
      else
        let good := r.spans.all fun x => gone.contains x.1 ||
          decide (crc32cBytes (((List.range x.2.2.1).map fun k => at_ x.1 (x.2.1 + k)).flatMap blkBytes) = x.2.2.2)
        if good then s
        else forAll lost (fun m s => addBad i ⟨r.stripe, 1, m, un.1, un.2 + 1 - un.1, 4⟩ (count 3599 (un.2 + 1 - un.1) s)) s

/-- Insert a record in JSEQ order, one for each JSEQ. -/
def insRec (r : ImgRec) : List ImgRec → List ImgRec
  | [] => [r]
  | x :: xs => if r.jseq = x.jseq then x :: xs else if r.jseq < x.jseq then r :: x :: xs else x :: insRec r xs

/-! ## Commands (R547–R550) -/

/-- WBF.SET_POLICY (R548, Table 11.10). -/
def deskWbfSetPolicy (p : Packet) (s : State) : Desk :=
  let age := bits 12 0 (p.w 2)
  let hi := bits 6 0 (p.w 3)
  let lo := bits 14 8 (p.w 3)
  let es := bits 22 16 (p.w 3)
  let sm := bits 12 0 (p.w 4)
  guardParam (clean (mask 12 0) (p.w 2) && clean (mask 6 0 ||| mask 14 8 ||| mask 22 16 ||| mask 25 24) (p.w 3) && clean (mask 12 0) (p.w 4)
      && decide (1 ≤ age) && decide (age ≤ 6000) && decide (10 ≤ hi) && decide (hi ≤ 95) && decide (5 ≤ lo) && decide (lo + 5 ≤ hi)
      && decide (hi + 5 ≤ es) && decide (es ≤ 98) && decide (1 ≤ sm) && decide (sm ≤ 4096)) s fun s =>
    okay (s.onWbf fun w => { w with agemax := age, high := hi, low := lo, escpct := es, esc := bit 24 (p.w 3), unpfua := bit 25 (p.w 3), setmax := sm })

/-- WBF.SET_POLICY (R548). -/
def execWbfSetPolicy (p : Packet) (s : State) : Out := letter 0x0701 3 p s (deskWbfSetPolicy p)

/-- Pages in a state. -/
def pagesIn (s : State) (st : PageSt) : Nat := tabCount s.wbf.pages fun _ p => p.st = st

/-- WBF.GET_STATUS (Table 11.11). -/
def deskWbfGetStatus (_p : Packet) (s : State) : Desk :=
  let age := match dirtyBins s with | [] => 0 | b :: _ => (s.clk.now - b.2.2.1) / ms
  answer [fld 23 0 (pagesIn s .dirty + pagesIn s .queued), fld 23 0 (pagesIn s .reserved) ||| fld 31 24 (occupancy s), fld 17 0 s.wbf.space.length,
    fld 16 0 s.wbf.recs.length ||| flag 24 s.pair.paired ||| flag 25 s.wbf.escal ||| flag 26 s.wbf.highOn, fld 23 0 s.wbf.bins.length, word age] s

/-- WBF.GET_STATUS (Table 11.11). -/
def execWbfGetStatus (p : Packet) (s : State) : Out := letter 0x0702 0 p s (deskWbfGetStatus p)

/-- Queue pages for destage and wait until they are FREE, under a number of its own. DEDUCED (log 80, safe). -/
def destageWait (ps : List Nat) (s : State) : Nat × State :=
  let id := s.wbf.waits.foldl (fun a d => max a (d.id + 1)) 1
  (id, queuePages ps 5 false (s.onWbf fun w => { w with waits := w.waits ++ [⟨id, ps⟩] }))

/-- WBF.DESTAGE (R549). -/
def deskWbfDestage (p : Packet) (s : State) : Desk :=
  let scope := bits 1 0 (p.w 2)
  let i := bits 8 4 (p.w 2)
  let n := bits 28 16 (p.w 2)
  guardParam (clean (mask 1 0 ||| mask 8 4 ||| mask 28 16) (p.w 2) && decide (scope < 3)) s fun s =>
  check (!(scope = 1 && (s.vset i).isNone) && !(scope = 2 && (s.nsOf n).isNone)) stNotFound s fun s =>
    let ps := (s.wbf.pages.filter fun e => e.2.st != .reserved && (scope = 0 || (scope = 1 && e.2.set = i) || (scope = 2 && e.2.ns = n))).map (·.1)
    let (id, s) := destageWait ps s
    (stAccepted, [], accept p 0x0703 id (if scope = 1 then i else 0) s)

/-- WBF.DESTAGE (R549). -/
def execWbfDestage (p : Packet) (s : State) : Out :=
  match letter 0x0703 1 p s (deskWbfDestage p) with
  | .next t => .next (checkWaits t)
  | o => o

/-- WBF.GET_JOURNAL (R550). -/
def deskWbfGetJournal (p : Packet) (s : State) : Desk :=
  guardParam (clean (mask 4 0) (p.w 2)) s fun s =>
  check (s.vset (bits 4 0 (p.w 2))).isSome stNotFound s fun s =>
    answer ([fld 16 0 (recsOf s (bits 4 0 (p.w 2))).length] ++ words2 s.wbf.jseq ++ words2 (rlow s)) s

/-- WBF.GET_JOURNAL (R550). -/
def execWbfGetJournal (p : Packet) (s : State) : Out := letter 0x0704 1 p s (deskWbfGetJournal p)

end Sys2Proof.Machine
end

