-- ==== Sys2Proof/Machine/Passes.lean ====
section
/-! DEFINITION. Passes of the set engine over stripes (R463, R497, R581–R588, R592, R596–R600): a pass reads its blocks through the drive
queues, computes and writes, and takes its watermark on once its writes have ended. -/
namespace Sys2Proof.Machine

/-- A pass under way. -/
def State.pass (s : State) (p : Nat) : Option Pass := tabFind s.drv.passes p

/-- Change a pass. -/
def onPass (p : Nat) (f : Pass → Pass) (s : State) : State := s.onDrv fun d => { d with passes := tabUpd d.passes p f }

/-- A pass leaves. -/
def dropPass (p : Nat) (s : State) : State := s.onDrv fun d => { d with passes := tabDel d.passes p }

/-- The passes of a set of one kind. -/
def passesOf (s : State) (i : Nat) (k : PassKind) : List (Nat × Pass) := s.drv.passes.filter fun e => e.2.set = i && e.2.kind = k

/-- The present parity members of a stripe. -/
def parityHere (v : VSet) (n : Nat) : List Nat :=
  if isMirror v then [] else ([pMember v n] ++ if v.type = 3 then [qMember v n] else []).filter fun m => !missing v n m false

/-- The parity block of a member over data blocks. -/
def parityOf (v : VSet) (n m : Nat) (ds : List Blk) : Blk := if roleOf v n m = .q then parityQ ds else parityP ds

/-! ## Patrol comparisons (R597) -/

/-- The namespace and its block range at a place of a stripe. -/
def ownerAt (s : State) (i : Nat) (v : VSet) (stripe j b : Nat) : Option (Nat × Ns × Nat) :=
  let x := stripe * dataStrips v * stripBytes v + j * stripBytes v + b * 4096
  if dataStripes v ≤ stripe then none
  else (s.vol.ns.flatMap fun e => (e.2.map.filter fun l => decide (l.2.set = i) && decide (l.2.parcel = x / GiB) && l.2.written.testBit (x % GiB / 1048576)).map fun l =>
    (e.1, e.2, (l.1 * 262144 + x % GiB / 4096) * perSpan e.2)).head?

/-- Where the tag zone entries of a place lie that holds Sealed blocks of 512 bytes (R656): tag-zone block, its first entry, stripe,
strip and block. -/
def tzAt (s : State) (i : Nat) (v : VSet) (stripe j b : Nat) : Option (Nat × Nat × Nat × Nat × Nat) :=
  match ownerAt s i v stripe j b with
  | some (_, n, _) => if usesTagZone n then some (tzPlace v (stripe * dataStrips v * stripBytes v + j * stripBytes v + b * 4096)) else none
  | none => none

/-- The key in a pass of a tag-zone block. -/
def tzPassKey (tz : Nat) : Nat := 4096 + tz

/-- Whether a place holds Sealed blocks, and whether all their tags verify, with the tag zone entries that `t` holds or with those of the
buffer over them. -/
def sealedAt (s : State) (i : Nat) (v : VSet) (stripe j b : Nat) (t : Tab Blk) (x : Blk) : Option Bool :=
  match ownerAt s i v stripe j b with
  | some (nsid, n, lba) => if n.enc ≠ 2 then none
      else
        let ok := fun (entry : Nat) => (List.range (perSpan n)).all fun k => (openBlk nsid n (lba + k) (blkOfMember n k x (entry >>> (256 * k) % 2 ^ 256)) s).1.isSome
        match tzAt s i v stripe j b with
        | none => some (ok 0)
        | some (tz, e, _) =>
          let old := tabGet Blk.zero t (tzPassKey tz)
          some (ok (old.d >>> (256 * e)) || ok ((tagBlk (bufferBlks s 0 (i * 2 ^ 40 + tz)) old).d >>> (256 * e)))
  | none => none

/-- What the patrol round does about one block position that disagrees: the member blocks to write, the members or blocks to
enter in the bad-range table, and whether a bad strip was located by syndrome (1), by tag (2) or not at all (0). -/
structure Fix where
  put  : List (Nat × Blk)
  lost : List Nat
  how  : Nat

/-- Table 12.10 for one block position: none where data and redundancy agree. DEDUCED (log 96, unsafe). -/
def patrolFix (s : State) (i : Nat) (v : VSet) (n b : Nat) (t : Tab Blk) : Option Fix :=
  let at_ := fun (m : Nat) => tabGet Blk.zero t (blkKey m b)
  let k := dataStrips v
  let ds := (List.range k).map fun j => at_ (dataMember v n j)
  let same := fun (x y : Blk) => decide (x.d = y.d) && decide (x.m = y.m)
  let nil := fun (x : Blk) => decide (x.d = 0) && decide (x.m = 0)
  let tag := fun (j : Nat) (x : Blk) => sealedAt s i v n j b t x
  if isMirror v then
    let c := (List.range v.width).map at_
    let a := c.getD 0 Blk.zero
    if c.all (same a) then none
    else
      let good := (List.range v.width).filter fun m => tag 0 (c.getD m Blk.zero) = some true
      let bad := (List.range v.width).filter fun m => tag 0 (c.getD m Blk.zero) = some false
      if !bad.isEmpty && !good.isEmpty then some ⟨bad.map fun m => (m, c.getD (good.headD 0) Blk.zero), [], 2⟩
      else
        let two := (List.range v.width).find? fun m => decide (2 ≤ (c.filter (same (c.getD m Blk.zero))).length)
        match (if v.width = 3 then two else none) with
        | some m => some ⟨((List.range v.width).filter fun x => !same (c.getD m Blk.zero) (c.getD x Blk.zero)).map fun x => (x, c.getD m Blk.zero), [], 1⟩
        | none => some ⟨((List.range v.width).filter fun x => !same a (c.getD x Blk.zero)).map fun x => (x, a), [], 0⟩
  else if v.type = 3 then
    let sp := (at_ (pMember v n)).xor (parityP ds)
    let sq := (at_ (qMember v n)).xor (parityQ ds)
    if nil sp && nil sq then none
    else if nil sq then some ⟨[(pMember v n, parityP ds)], [], 1⟩
    else if nil sp then some ⟨[(qMember v n, parityQ ds)], [], 1⟩
    else match (List.range k).find? fun j => same sq (sp.scale (gfPow j)) with
      | some j => some ⟨[(dataMember v n j, (ds.getD j Blk.zero).xor sp)], [], 1⟩
      | none => some ⟨[(pMember v n, parityP ds), (qMember v n, parityQ ds)], [], 0⟩
  else
    let sp := (at_ (pMember v n)).xor (parityP ds)
    if nil sp then none
    else
      let tags := (List.range k).map fun j => tag j (ds.getD j Blk.zero)
      let bad := (List.range k).filter fun j => tags.getD j none = some false
      let holes := fun (_ : Unit) => some (Fix.mk [(pMember v n, parityP ((List.range k).map fun j => if bad.contains j then Blk.zero else ds.getD j Blk.zero))] (bad.map (dataMember v n)) 0)
      if tags.all (·.isNone) then some ⟨[(pMember v n, parityP ds)], [], 0⟩
      else match bad with
        | [j] =>
          let x := (ds.getD j Blk.zero).xor sp
          if tag j x = some true then some ⟨[(dataMember v n j, x)], [], 2⟩ else holes ()
        | [] => some ⟨[(pMember v n, parityP ds)], [], if tags.all (· = some true) then 1 else 0⟩
        | _ => holes ()

/-! ## What a pass writes -/

/-- The blocks of the data strips at one position, from those that a pass read; zero where they do not give one. DEDUCED (log 95, unsafe). -/
def dataAt (v : VSet) (x : Pass) (b : Nat) : List Blk :=
  (List.range (dataStrips v)).map fun j => (solveBlk v x.stripe (dataMember v x.stripe j) (knownAt v x.stripe b x.got)).getD Blk.zero

/-- Initialisation: the parity of the stripe (R463). -/
def initWrites (p : Nat) (x : Pass) (v : VSet) (s : State) : State :=
  forAll (parityHere v x.stripe) (fun m => passPut p x.set v x.stripe m 0 4 ((List.range (stripBlks v)).map fun b => parityOf v x.stripe m (dataAt v x b))) s

/-- Rebuild and resync: the strips of the targets. What the other strips do not give takes the set OFFLINE, or is entered as holes (R592);
a rebuild from the initialisation watermark on also writes the stripe's other parity (R588). -/
def rebuildWrites (p : Nat) (x : Pass) (v : VSet) (s : State) : State :=
  let n := x.stripe
  let bs := List.range (stripBlks v)
  let lost := bs.filter fun b => x.targets.any fun m => (solveBlk v n m (knownAt v n b x.got)).isNone
  if !lost.isEmpty && !v.holes then goOffline x.set 2 s
  else
    let s := forAll lost (fun b s => rewriteParity x.set n b x.got (enterHoles x.set n b 1 x.got s)) s
    match s.vset x.set with
    | none => s
    | some w =>
      let s := forAll x.targets (fun m => passPut p x.set w n m 0 4 (bs.map fun b => (solveBlk w n m (knownAt w n b x.got)).getD Blk.zero)) s
      if x.kind = .rebuild && decide (w.initWm ≤ n) && decide (w.initWm < w.stripes) then
        forAll ((parityHere w n).filter fun m => !x.targets.contains m) (fun m => passPut p x.set w n m 0 4 (bs.map fun b => parityOf w n m (dataAt w x b))) s
      else s

/-- Patrol: every disagreement of the stripe is repaired or entered (R597, Table 12.10); positions with entries in the bad-range table are
left out. The rewrites leave in S6, as the reads do. -/
def patrolWrites (p : Nat) (x : Pass) (v : VSet) (s : State) : State :=
  let n := x.stripe
  let bs := (List.range (stripBlks v)).filter fun b => !(List.range v.width).any fun m => (badAt v n m b).isSome
  count1 4198 (forAll bs (fun b s => match patrolFix s x.set v n b x.got with
    | none => s
    | some f =>
      let s := count1 4199 (onSet x.set (fun v => { v with mism := v.mism + 1 }) s)
      let s := doIf (f.how = 1) (count1 4200) (doIf (f.how = 2) (count 4201 f.put.length) (doIf (f.how = 0) (count1 4202) s))
      let s := forAll f.lost (fun m => addBad x.set ⟨n, 1, m, b, 1, 5⟩) s
      forAll f.put (fun e s => raise (if f.how = 0 then 524 else 523) (redParam x.set e.1 0) (passPut p x.set v n e.1 b 6 [e.2] s)) s) s)

/-- The key in a pass of a block of the parcel that moves. -/
def moveKey (i : Nat) : Nat := 4096 + i

/-- Migration: the blocks at their new place, with the parity that they change (R498). -/
def moveWrites (p : Nat) (x : Pass) (v : VSet) (s : State) : State :=
  let is := List.range x.count
  let new := fun (i : Nat) => tabGet Blk.zero x.got (moveKey (x.block + i))
  if isMirror v then
    forAll ((List.range v.width).filter fun m => !missing v x.stripe m false) (fun m => passPut p x.set v x.stripe m x.first 4 (is.map new)) s
  else
    let d := dataMember v x.stripe x.strip
    let old := fun (m i : Nat) => tabGet Blk.zero x.got (blkKey m (x.first + i))
    let diff := fun (i : Nat) => (new i).xor (old d i)
    let s := doIf (!missing v x.stripe d false) (passPut p x.set v x.stripe d x.first 4 (is.map new)) s
    forAll (parityHere v x.stripe) (fun m => passPut p x.set v x.stripe m x.first 4
      (is.map fun i => (old m i).xor (if roleOf v x.stripe m = .q then Blk.scale (gfPow x.strip) (diff i) else diff i))) s

/-! ## Watermarks -/

/-- A member's rebuild is complete (R584, R588). DEDUCED (log 84, unsafe). -/
def rebuildDone (i m : Nat) (s : State) : State :=
  let s := closeLog i m (onMember i m (fun x => { x with st := .current, wm := 0, wasEj := false }) s)
  let s := newGen i s
  let s := finish (fun r => r.op = 0x0807 && r.key = i && r.key2 = m) 517 stOk (redParam i m 0) s
  settleSet i (endInit i s)

/-- A member's resync is complete (R600). -/
def resyncDone (i m : Nat) (s : State) : State :=
  let s := closeLog i m (onMember i m (fun x => { x with st := .current, wm := 0, wasEj := false }) s)
  settleSet i (raise 520 (redParam i m 0) (newGen i s))

/-- The initialisation watermark passes the stripes that are done; after the last the set is OPTIMAL (R463, R464). -/
def advanceInit (i : Nat) : Nat → State → State
  | 0, s => s
  | fuel + 1, s => match s.vset i with
    | none => s
    | some v => match (passesOf s i .init).find? fun e => e.2.done && decide (e.2.stripe = v.initWm) with
      | none => s
      | some e =>
        let n := v.initWm + 1
        let s := shadow .stateWrite 8 i (count1 3085 (onSet i (fun v => { v with initWm := n, idMoved := true }) (dropPass e.1 s)))
        advanceInit i fuel (if n = v.stripes then raise 385 (fld 4 0 i) (setSt i .optimal s) else s)

/-- Rebuild watermarks pass the stripes that are done (R581); after the last their members are CURRENT (R584). -/
def advanceRebuild (i : Nat) : Nat → State → State
  | 0, s => s
  | fuel + 1, s => match s.vset i with
    | none => s
    | some v => match (passesOf s i .rebuild).find? fun e => e.2.done && e.2.targets.all fun m => decide ((v.mem m).wm = e.2.stripe) with
      | none => s
      | some (p, x) =>
        let s := forAll x.targets (fun m => onMember i m fun y => { y with wm := x.stripe + 1 }) (onSet i (fun v => { v with idMoved := true }) (dropPass p s))
        let s := shadow .stateWrite 8 i (count1 4196 s)
        advanceRebuild i fuel (if x.stripe + 1 = v.stripes then forAll x.targets (rebuildDone i) s else s)

/-- A marked region of a RESYNCING member is resynchronised: its bit is cleared and the watermark passes it; after the last the member
is CURRENT (R600). -/
def regionDone (i m r : Nat) (s : State) : State :=
  let k := (s.vset i).bind fun v => (v.mem m).log
  let s := onMember i m (fun x => { x with wm := r + 1 }) s
  let s := onSet i (fun v => { v with idMoved := true, logs := match k with
    | some k => tabUpd v.logs k fun l => { l with bits := l.bits.erase r, kept := l.kept.erase r } | none => v.logs }) s
  let s := shadow .stateWrite 8 i (count1 4197 s)
  let left := match s.vset i, k with | some v, some k => (tabGet {} v.logs k : LogSlot).bits | _, _ => []
  if left.isEmpty then resyncDone i m s else s

/-- A region's passes are all done (R600). -/
def advanceResync (i m n : Nat) (s : State) : State :=
  let mine := (passesOf s i .resync).filter fun e => e.2.targets.contains m
  if mine.all fun e => e.2.done then
    match s.vset i with
    | none => s
    | some v => regionDone i m (regionOf v n 0) (forAll mine (fun e => dropPass e.1) s)
  else s

/-- The patrol round passes a stripe; after the last a lap ends (R598). -/
def advancePatrol (i : Nat) (s : State) : State :=
  match s.vset i with
  | none => s
  | some v =>
    let t := (s.clk.now - v.lapAt) / sec
    if v.patWm + 1 = v.stripes then
      raise 525 (word t) (count1 4206 (onSet i (fun v => { v with patWm := 0, laps := v.laps + 1, lapTime := t, lapAt := s.clk.now, mism := 0, idMoved := true }) s))
    else onSet i (fun v => { v with patWm := v.patWm + 1, idMoved := true }) s

/-- A pass has ended: its watermark moves on. A recovery and a sweep wait for their rows; a copy takes the migration to its next block. -/
def passDone (p : Nat) (s : State) : State :=
  match s.pass p with
  | none => s
  | some x =>
    let s := onPass p (fun x => { x with done := true }) s
    match x.kind with
    | .init => advanceInit x.set s.drv.passes.length s
    | .rebuild => advanceRebuild x.set s.drv.passes.length s
    | .resync => forAll x.targets (fun m => advanceResync x.set m x.stripe) s
    | .patrol => advancePatrol x.set (dropPass p s)
    | .recover | .sweep => s
    | .move => (dropPass p s).onVol fun d => { d with mig := d.mig.map fun (m : Migration) => { m with next := x.block + x.count } }

/-- A pass has no write outstanding. -/
def passQuiet (s : State) (p : Nat) : Bool := !tabAny s.drv.cmds fun _ c => c.use = .passWrite p

/-- A pass whose writes have ended is done. -/
def endPass (p : Nat) (s : State) : State :=
  match s.pass p with
  | none => s
  | some x => if x.writing && !x.done && passQuiet s p then passDone p s else s

/-- A pass whose blocks have come computes and writes. -/
def passRead (p : Nat) (s : State) : State :=
  match s.pass p with
  | none => s
  | some x => match s.vset x.set with
    | none => s
    | some v =>
      if x.writing || !x.want.isEmpty then s
      else
        let s := onPass p (fun x => { x with writing := true }) s
        endPass p (match x.kind with
          | .init => initWrites p x v s
          | .rebuild | .resync => rebuildWrites p x v s
          | .patrol => patrolWrites p x v s
          | .recover | .sweep => s
          | .move => moveWrites p x v s)

/-- Blocks that what is left of a stripe does not give are entered in the bad-range table: in a set that is online with holes (R592), and for
a rotation sweep (R680). -/
def mayHole (s : State) (v : VSet) (use : DUse) : Bool :=
  v.st != .offline && (v.holes || match use with | .pass p _ => (match s.pass p with | some x => x.kind = .sweep | none => false) | _ => false)

/-- A pass starts: it reads the blocks of its stripe that it wants, in a class; zeros of the bad-range table are not read (R941). DESIGN CHOICE (log 94, unsafe). -/
def startPass (x : Pass) (cls : Nat) (s : State) : State :=
  match s.vset x.set with
  | none => s
  | some v =>
    let p := s.drv.passSeq + 1
    let want := x.want.filter fun k => x.kind = .patrol || !badZero v x.stripe (k / 64) (k % 64)
    let s := s.onDrv fun d => { d with passSeq := p, passes := tabIns d.passes p { x with want := want } }
    passRead p (readKeys x.set v x.stripe cls (fun m b => .pass p (blkKey m b)) want s)

/-- The blocks that give the strip of a member in a stripe; of a set that is online with holes, whatever is left (R560, R592). -/
def sourceKeys (s : State) (v : VSet) (n m : Nat) : List Nat :=
  (List.range (stripBlks v)).flatMap fun b => ((reconMembers s v n m b []).getD (if v.holes then sources s v n m b [] else [])).map fun x => blkKey x b

/-- A stripe may be taken by a pass: no record is open for it, and no other pass is under way (R582). -/
def passMay (s : State) (i n : Nat) : Bool := !recOpen s i n && !passBusy s i n

/-- The module time from which a pace of `rate` MB/s lets the next stripe start, after `bytes` more (R583, R596). -/
def paceAt (now last rate bytes : Nat) : Nat := if rate = 0 then now else max now last + bytes * 1000 / rate

end Sys2Proof.Machine
end

