-- ==== Sys2Proof/Machine/Eject.lean ====
section
/-! DEFINITION. Outcomes of drive commands, reconstruction, repair, hedging, ejection and the member timeout (R559–R573, R565,
R579, R585, R590). -/
namespace Sys2Proof.Machine

/-! ## Where blocks go -/

/-- Give a block that was read or reconstructed to the command, record or pass it serves; `m` is the member that gave it. -/
def deliver (use : DUse) (k m : Nat) (b : Nat) (y : Blk) (s : State) : State :=
  match use with
  | .host t gen sp tz => match s.cmdOf t with
    | none => s
    | some c =>
      if c.gen ≠ gen then s
      else if tz then (if c.tzNeed.contains sp then onCmd t (fun c => { c with tz := tabIns c.tz sp y, tzNeed := c.tzNeed.erase sp }) s else s)
      else if c.need.contains (sp + k) then
        onCmd t (fun c => { c with raw := tabIns c.raw (sp + k) y, need := c.need.erase (sp + k),
                                   src := if 64 ≤ tabGet 0 c.src (sp + k) then c.src else tabIns c.src (sp + k) m }) s
      else s
  | .pass p key => onPass p (fun x => if x.want.contains (key + k) then { x with got := tabIns x.got (key + k) y, want := x.want.erase (key + k) } else x) s
  | .dest j mem => onRec j (fun r => if r.reads.contains (blkKey mem b) then { r with old := tabIns r.old (blkKey mem b) y, reads := r.reads.erase (blkKey mem b) } else r) s
  | _ => s

/-- What follows once blocks have been delivered: a command concludes, a record's writes start, or a pass writes. -/
def delivered (use : DUse) (s : State) : State :=
  match use with
  | .host t _ _ _ => settleCmds (conclude t s)
  | .dest j _ => (match s.rec_ j with | some r => if r.stage = 1 && r.reads.isEmpty then startWrites j s else s | none => s)
  | .pass p _ => passRead p s
  | _ => s

/-- Write a reconstructed block back to its member in S4 (R564). -/
def repairBlk (i : Nat) (v : VSet) (stripe m b : Nat) (x : Blk) (s : State) : State :=
  match (v.mem m).slot with
  | none => s
  | some sl =>
    if missing v stripe m false then s
    else issue ⟨sl, i, m, stripe, b, true, stripLba v stripe b, 1, 4, 2048, false, [x], .repair, none, none, none, [], none, false, false, none, 0, 0, false⟩ (count1 (4168 + sl) s)

/-! ## Reconstructions (R560, R563, R564) -/

/-- Change a reconstruction. -/
def onRecon (j : Nat) (f : Recon → Recon) (s : State) : State := s.onDrv fun d => { d with recons := tabUpd d.recons j f }

/-- The blocks of one position of a reconstruction that have come, by member. -/
def gotAt (r : Recon) (b : Nat) : Tab Blk :=
  r.got.foldl (fun t e => if e.1 % 64 = b then tabIns t (e.1 / 64) e.2 else t) []

/-- One block of a reconstruction in a set that is online with holes, where what is left does not give it: the data blocks that are lost are
entered and taken as zero, and the parity is recomputed (R592). A host that needs a block so entered gets an error for it (R594). -/
def holeBlk (r : Recon) (i : Nat) (s : State) : State :=
  let b := r.first + i
  let got : Tab Blk := (gotAt r b).foldl (fun t e => tabIns t (blkKey e.1 b) e.2) []
  let s := rewriteParity r.set r.stripe b got (enterHoles r.set r.stripe b 1 got s)
  match s.vset r.set with
  | none => s
  | some w =>
    let x := (solveBlk w r.stripe r.member (knownAt w r.stripe b got)).getD Blk.zero
    match r.use with
    | .host t gen sp tz =>
      if badZero w r.stripe (if isMirror w then 0 else r.member) b then
        (if (match s.cmdOf t with | some c => decide (c.gen = gen) | none => false) then (if tz then readFailed t [] [sp] s else readFailed t [sp + i] [] s) else s)
      else deliver r.use i r.member b x s
    | u => deliver u i r.member b x s

/-- A reconstruction whose blocks have all come ends: its blocks, and the blocks that failed on the way, are computed; they
are used and, where R564 says so, written back. -/
def finishRecon (j : Nat) (s : State) : State :=
  match tabFind s.drv.recons j with
  | none => s
  | some r =>
    if !r.want.isEmpty then s
    else match s.vset r.set with
      | none => s
      | some v =>
        let s := s.onDrv fun d => { d with recons := tabDel d.recons j }
        let live := match r.hedge with | none => true | some k => match tabFind s.drv.cmds k with
          | some c => c.use != .spent | none => false
        if !live then s
        else
          let s := match r.hedge with
            | some k => count1 4193 (s.onDrv fun d => { d with cmds := tabUpd d.cmds k fun c => { c with use := .spent } })
            | none => s
          let s := forAll (List.range r.n) (fun i s =>
            let b := r.first + i
            let known := gotAt r b
            let s := match solveBlk v r.stripe r.member known with
              | some x => deliver r.use i r.member b x (if r.repair then repairBlk r.set v r.stripe r.member b x s else s)
              | none => holeBlk r i s
            forAll ((r.failed.filter fun k => k % 64 = b && k / 64 != r.member).map (· / 64)) (fun m s =>
              if (tabHas known m) then s else match solveBlk v r.stripe m known with
              | some x => repairBlk r.set v r.stripe m b x s
              | none => s) s) s
          delivered r.use s

/-- The member read that a reconstruction runs beside is still outstanding. -/
def hedgeOpen (s : State) (r : Recon) : Bool :=
  match r.hedge with | some k => (match tabFind s.drv.cmds k with | some c => c.answer.isNone | none => false) | none => false

/-- A reconstruction cannot be completed: a hedge whose member read is outstanding is abandoned (R563); otherwise the set goes OFFLINE
(R590). -/
def reconLost (j : Nat) (s : State) : State :=
  match tabFind s.drv.recons j with
  | none => s
  | some r =>
    let t := s.onDrv fun d => { d with recons := tabDel d.recons j }
    if hedgeOpen s r then t else goOffline r.set 2 t

/-- A block that a reconstruction awaits has failed: another strip takes its place where one remains (R560, R564); in a set that is online with
holes it goes on with what is left (R592). -/
def reconFail (j key : Nat) (s : State) : State :=
  match tabFind s.drv.recons j with
  | none => s
  | some r =>
    if !r.want.contains key then s
    else match s.vset r.set with
      | none => s
      | some v =>
        let b := key % 64
        let s := onRecon j (fun r => { r with want := r.want.erase key, failed := r.failed ++ [key] }) s
        let used := (List.range v.width).filter fun m => m = key / 64 || r.want.contains (blkKey m b) || tabHas r.got (blkKey m b) || r.failed.contains (blkKey m b)
        match (sources s v r.stripe r.member b used).head? with
        | none => if mayHole s v r.use && !hedgeOpen s r then finishRecon j s else reconLost j s
        | some m =>
          if badZero v r.stripe m b then onRecon j (fun r => { r with got := tabIns r.got (blkKey m b) Blk.zero }) s
          else
            let s := onRecon j (fun r => { r with want := r.want ++ [blkKey m b] }) s
            issue ⟨((v.mem m).slot).getD 0, r.set, m, r.stripe, b, false, stripLba v r.stripe b, 1, r.cls, r.sub, false, [], .recon j m, none, none, none, [], none, false, false, none, 0, 0, false⟩ s

/-! ## Reads that a member does not give -/

/-- Serve a read by reconstruction (R560, R564): where that cannot be, the set goes OFFLINE with cause 2, or the block is
settled as a hole (R590, R592). -/
def serveByRecon (c : DCmd) (repair : Bool) (s : State) : State :=
  match s.vset c.set with
  | none => s
  | some v =>
    match c.use with
    | .recon j m => forAll (List.range c.n) (fun i => reconFail j (blkKey m (c.first + i))) s
    | .host _ _ _ _ | .dest _ _ | .pass _ _ =>
      let (ok, s) := startRecon c.set v c.stripe c.member c.first c.n c.cls c.sub c.use none repair (mayHole s v c.use) [c.member] s
      if ok then finishRecon s.drv.recSeq s else goOffline c.set 2 s
    | _ => s

/-! ## Ends of drive commands -/

/-- A drive command leaves the table: its cost leaves its node, and a command that ends after its class closed is an overrun
(R241, R250). DEDUCED (log 71, unsafe). -/
def dropDCmd (k : Nat) (c : DCmd) (done : Bool) (s : State) : State :=
  let q := 32 + c.slot
  let s := s.onDrv fun d => { d with cmds := tabDel d.cmds k }
  if c.at_.isNone then s
  else
    let s := doIf c.tag.isSome (noteIo c.slot) s
    let s := onNode q c.cls (fun n => { n with out := n.out - c.cost, done := if done then n.done + c.cost else n.done, busy := n.busy && decide (c.cost < n.out) }) s
    let s := doIf (done && c.shut) (gateOverrun q) s
    placeReady c.slot s

/-- A drive has completed a command, whose member's failure ends it: its cost is completed, and it may have overrun (R241, R250). -/
def noteCompleted (c : DCmd) (s : State) : State :=
  let q := 32 + c.slot
  doIf c.shut (gateOverrun q) (onNode q c.cls (fun n => { n with done := n.done + c.cost }) s)

/-- The log bitmap blocks of a slot are written: the records that waited for them may go on (R578). -/
def logDone (i k : Nat) (rs : List Nat) (j : Nat) (s : State) : State :=
  let more := tabAny s.drv.cmds fun _ c => match c.use with | .logBits i' k' rs' => i' = i && k' = k && rs' = rs | _ => false
  let s := if more then s else onSet i (fun v => { v with logs := tabUpd v.logs k fun l => { l with kept := (l.kept ++ rs).eraseDups } }) s
  pumpRecs (onRec j (fun r => { r with logs := r.logs - 1 }) s)

/-- The record whose strip writes a bitmap write serves. -/
def logOwner (s : State) (c : DCmd) : Nat :=
  ((s.wbf.recs.find? fun e => e.2.set = c.set && e.2.stripe = c.stripe && decide (0 < e.2.logs)).map (·.1)).getD 0

/-- A strip write, journal write, bitmap write or pass's write is done, or settled by its member's ejection (R540, R570 step 3). -/
def writeSettled (c : DCmd) (s : State) : State :=
  match c.use with
  | .strip j m =>
    let more := tabAny s.drv.cmds fun _ d => match d.use with | .strip j' m' => j' = j && m' = m | _ => false
    if more then s else onRec j (fun r => { r with writes := r.writes.erase m }) s
  | .journal i m gen js =>
    let s := forAll js (fun j => onRec j fun r => if r.gen = gen then { r with homes := r.homes.erase m } else r) s
    (match s.vset i with | some v => if v.gen = gen then dropIdWait i (fun e => e.2 = m && js.contains e.1) s else s | none => s)
  | .passWrite p => endPass p s
  | .logBits i k rs => logDone i k rs (logOwner s c) s
  | _ => s

/-! ## Ejection (R570, R572, R585) -/

/-- Steps 2 to 4 of R570 for a slot: the generations of its outstanding tags advance, and its commands end. -/
def endSlotCmds (slot : Nat) (s : State) : List DCmd × State :=
  let mine := s.drv.cmds.filter fun e => e.2.slot = slot && e.2.answer.isNone
  let s := forAll mine (fun e s => match e.2.tag with
    | some (q, en, g) => onPort slot (fun p => { p with gens := tabIns p.gens (q * 1024 + en) ((g + 1) % 64) }) s
    | none => s) s
  (mine.map (·.2), forAll mine (fun e => dropDCmd e.1 e.2 false) s)

/-- The commands of a lost slot end as failed by ejection: reads continue as degraded reads, writes are settled. -/
def failedByEjection (c : DCmd) (s : State) : State :=
  if c.write then writeSettled c s else serveByRecon c false s

/-- A member is no longer the target of its set's passes; a pass without a target ends (R585). -/
def dropTarget (i m : Nat) (s : State) : State :=
  s.onDrv fun d => { d with passes := (tabMap d.passes fun _ x => if x.set = i then { x with targets := x.targets.erase m } else x).filter fun (e : Nat × Pass) =>
    !(e.2.set = i && (e.2.kind = .rebuild || e.2.kind = .resync) && e.2.targets.isEmpty) }

/-- A member becomes missing (R570, R572): ABSENT where `reason` is 0, EJECTED otherwise. A failed target goes back to the
index's prior state (R585). -/
def loseMember (i m reason : Nat) (s : State) : State :=
  match s.vset i with
  | none => s
  | some v =>
    let x := v.mem m
    if x.st.out then s
    else
      let slot := x.slot.getD 24
      let target := x.st = .rebuilding
      let gen := v.gen
      let lost := lostMost v
      let new : MState := if target then (if x.wasEj then .ejected else .absent) else if reason = 0 then .absent else .ejected
      let s := onMember i m (fun x => { x with st := new, slot := if new = .ejected && !target then x.slot else none, last := some slot, since := s.clk.now, wm := 0,
                                               reason := if reason = 0 then x.reason else reason, wasEj := decide (new = .ejected), fired := false, told := false, wish := none }) s
      let s := doIf (decide (reason ≠ 0)) (fun s => portFault slot sec (raise 512 (redParam i m reason) (count1 (4096 + slot) s))) s
      let s := doIf (decide (reason = 0)) (raise 513 (redParam i m 0)) s
      let s := doIf target (finish (fun r => r.op = 0x0807 && r.key = i && r.key2 = m) 518 stHwFault (redParam i m reason)) s
      let (cs, s) := endSlotCmds slot s
      let s := dropIdWait i (fun e => e.2 = m) (onRing i m (fun r => { r with open_ := [] })
        (forAll (s.ring i m).open_ (fun j => onRec j fun r => { r with homes := r.homes.erase m }) s))
      let s := dropTarget i m s
      let keep := target || x.st = .resyncing
      let s := if keep then s else openLog i m gen s
      let s := newGen i s
      let s := if target || x.st = .resyncing then s else
        if v.st = .initialising || v.st = .optimal then setSt i .degraded s else s
      let tooFar := match s.vset i with | some v => decide (tolerance v < lostMost v) | none => false
      let s := if !target && tooFar && decide (tolerance v ≤ lost) then goOffline i 1 s else s
      let s := if (target || x.st = .resyncing) && (match s.vset i with | some w => w.st = .rebuilding && (membersIn w fun y => y = .rebuilding || y = .resyncing).isEmpty | none => false)
        then setSt i .degraded s else s
      let s := forAll cs failedByEjection s
      let s := forAll (s.drv.passes.map (·.1)) endPass s
      let s := doIf (new = .ejected) (fireTrigger i m) s
      settleCmds (pumpRecs s)

/-- A drive of a slot has failed: its member is ejected for a reason, by the module in charge (R940). -/
def ejectSlot (slot reason : Nat) (s : State) : State :=
  if !inCharge s then s else match memberAt s slot with
    | some (i, m) => loseMember i m reason s
    | none => s

/-! ## Outcomes (R563–R565) -/

/-- The hedge that runs beside a member read, if any. -/
def hedgeOf (s : State) (k : Nat) : Option Nat := (s.drv.recons.find? fun e => e.2.hedge = some k).map (·.1)

/-- A read that succeeded: its blocks are used, unless a hedge has given them already. -/
def readDone (k : Nat) (c : DCmd) (s : State) : State :=
  let s := match hedgeOf s k with
    | some j => count1 4194 (s.onDrv fun d => { d with recons := tabDel d.recons j })
    | none => s
  let blk := fun (i : Nat) => tabGet (⟨Config.freeBlk k i, 0, false⟩ : Blk) c.buf i
  match c.use with
  | .recon j m => finishRecon j (onRecon j (fun r => (List.range c.n).foldl (fun r i =>
      let key := blkKey m (c.first + i)
      if r.want.contains key then { r with want := r.want.erase key, got := tabIns r.got key (blk i) } else r) r) s)
  | u => delivered u (forAll (List.range c.n) (fun i => deliver u i c.member (c.first + i) (blk i)) s)

/-- A read that ended with a media error: several blocks are read again one by one, one block is reconstructed and repaired
(R564). -/
def readMedia (k : Nat) (c : DCmd) (s : State) : State :=
  if c.use = .spent then s
  else if 1 < c.n then
    let s := match hedgeOf s k with | some j => onRecon j (fun r => { r with hedge := none }) s | none => s
    forAll (List.range c.n) (fun i => issue { c with first := c.first + i, lba := c.lba + i, n := 1, use := c.use.shift i, tag := none, at_ := none, rungAt := none, buf := [], answer := none, force := none, hedged := true }) s
  else match hedgeOf s k with
    | some j => onRecon j (fun r => { r with hedge := none, repair := true, failed := r.failed ++ [blkKey c.member c.first] }) s
    | none => serveByRecon c true s

/-- R565, Table 12.4: a drive command's completion is handled by its outcome. -/
def outcome (k : Nat) (c : DCmd) (o : DriveOutcome) (s : State) : State :=
  let s := match o with
    | .success => count ((if c.write then 4728 else 4704) + c.slot) (4096 * c.n) s
    | _ => s
  match o, c.write with
  | .success, false => readDone k c (dropDCmd k c true s)
  | .success, true => writeSettled c (dropDCmd k c true s)
  | .media, false => readMedia k c (dropDCmd k c true s)
  | .media, true =>
    let s := dropDCmd k c true s
    if c.use = .repair then ejectSlot c.slot 4 s
    else if !c.retried then issue { c with tag := none, at_ := none, rungAt := none, buf := [], answer := none, force := none, retried := true } s
    else if inCharge s && (memberAt s c.slot).isSome then ejectSlot c.slot 2 (s.onDrv fun d => { d with cmds := tabIns d.cmds k { c with answer := none, at_ := none, tag := none } }) else s
  | .other, _ => if inCharge s && (memberAt s c.slot).isSome then ejectSlot c.slot 3 (noteCompleted c (s.onDrv fun d => { d with cmds := tabUpd d.cmds k fun c => { c with answer := none } })) else dropDCmd k c true s

/-- R565: the set engine handles a command that has been answered. -/
def execDriveCompletion (k : Nat) (s : State) : Out :=
  .next (match tabFind s.drv.cmds k with
    | none => s
    | some c => match c.answer with
      | none => s
      | some o => settleCmds (outcome k c o s))

/-- The slots with a command outstanding past their member timeout. -/
def lateSlots (s : State) : List Nat :=
  ((s.drv.cmds.filter fun e => e.2.answer.isNone && match e.2.rungAt with
    | some t => due (t + (s.port e.2.slot).timeout * ms) s.clk.now | none => false).map fun e => e.2.slot).eraseDups

/-- R568: the millisecond check: a command outstanding past its member's timeout ejects the member. DEDUCED (log 101, unsafe). -/
def execMemberTimeoutCheck (s : State) : Out :=
  .next (if !inCharge s then s else forAll (lateSlots s) (fun sl => ejectSlot sl 1) s)

/-- R562: a read passes its hedge deadline, counted from its release by the scheduler. -/
def execHedgeDeadline (k : Nat) (s : State) : Out :=
  .next (match tabFind s.drv.cmds k with
    | none => s
    | some c => match c.use, c.at_, s.vset c.set with
      | .host _ _ _ _, some t, some v =>
        if c.hedged || c.answer.isSome || c.write || v.hedge = 0 || !due (t + v.hedge * ms) s.clk.now then s
        else
          let s := count1 (4120 + c.slot) (s.onDrv fun d => { d with cmds := tabUpd d.cmds k fun c => { c with hedged := true } })
          (startRecon c.set v c.stripe c.member c.first c.n c.cls c.sub c.use (some k) false false [c.member] s).2
      | _, _, _ => s)

/-- The upper bound of the histogram bin of a latency in µs: bins of 1 µs, or of 1 % of the value (R566). DESIGN CHOICE (log 73, unsafe). -/
def latBin (us_ : Nat) : Nat := let w := max 1 (us_ / 100); (us_ + w - 1) / w * w

/-- Insert in ascending order. -/
def insNat (x : Nat) : List Nat → List Nat
  | [] => [x]
  | y :: ys => if x ≤ y then x :: y :: ys else y :: insNat x ys

/-- The nearest-rank 99.9th percentile (R566). -/
def rank999 (xs : List Nat) : Nat := (xs.foldl (fun l x => insNat x l) []).getD ((999 * xs.length + 999) / 1000 - 1) 0

/-- A slot's latencies of the last 60 s give its percentile and, with a full history of 10,000 and 60 s, its member timeout: 8 times
the percentile, between 250 ms and 8 s (R566). -/
def latencyStep (now : Nat) (p : DPort) : DPort :=
  let l := p.lat.filter fun e => decide (now < e.1 + 60 * sec)
  let q := rank999 (l.map (·.2))
  let full := decide (10000 ≤ l.length) && decide (p.histAt + 60 * sec ≤ now)
  { p with lat := l, p999 := if l.isEmpty then p.p999 else q, timeout := if full then max 250 (min 8000 ((8 * q + 999) / 1000)) else p.timeout }

/-- R566: each second a slot's percentile and, with a full history, its member timeout are computed. -/
def execLatencyPercentileUpdate (slot : Nat) (s : State) : Out :=
  .next (if 24 ≤ slot then s else shadow .stateWrite 8 (64 + slot) (onPort slot (latencyStep s.clk.now) s))

/-- R579: an ABSENT member has been missing for ABSENTWAIT. -/
def execAbsentwaitExpiry (set_ member : Nat) (s : State) : Out :=
  .next (match s.vset set_ with
    | none => s
    | some v =>
      let x := v.mem member
      if inCharge s && decide (member < v.width) && x.st = .absent && !x.fired && due (x.since + v.absentWait * 60 * sec) s.clk.now then fireTrigger set_ member s else s)

/-- A missing member whose trigger has fired takes the target that it has (R579, R581). -/
def startOne (i m : Nat) (s : State) : State :=
  match s.vset i with
  | none => s
  | some v =>
    let x := v.mem m
    if x.st.out && x.fired then (match targetFor s i v m with | some k => takeTarget i m k s | none => s) else s

/-- Every missing member of a set whose trigger has fired and that has a target begins its rebuild (R579). -/
def startMissing (i : Nat) (s : State) : State :=
  match s.vset i with
  | none => s
  | some v => if v.st = .offline then s else forAll (List.range v.width) (startOne i) s

/-- R579, R581, R586: the rebuilds of a set that can start begin; those that begin together run as one pass. -/
def execRebuildStart (set_ : Nat) (s : State) : Out := .next (if inCharge s then startMissing set_ s else s)

/-! ## The drive's side of the queues (R569, R571, R628–R630) -/

/-- Completion queue entries are returned to the drive (R629). -/
def returnCq (slot q : Nat) (s : State) : State :=
  if !tabHas (s.port slot).cq q then s else
    send { kind := .cqDoorbell, a := slot, b := q + 1, c := tabGet 0 (s.port slot).cqHead q % max 1 (s.port slot).depth } (onPort slot (fun p => { p with cq := tabDel p.cq q }) s)

/-- The phase that the next entry of a completion queue has (R629). -/
def phaseWant (s : State) (slot q : Nat) : Bool := decide (tabGet 0 (s.port slot).cqHead q / max 1 (s.port slot).depth % 2 = 0)

/-- Take a completion queue entry: the command of its CID is answered and its latency noted; a completion of an old generation is
discarded and counted (R571). Entries are returned at the sixteenth (R629). -/
def takeCq (slot q cid : Nat) (status : DriveOutcome) (s : State) : State :=
  let head := tabGet 0 (s.port slot).cqHead q
  let u := tabGet (0, s.clk.now) (s.port slot).cq q
  let s := onPort slot (fun p => { p with cqHead := tabIns p.cqHead q (head + 1), cq := tabIns p.cq q (u.1 + 1, u.2) }) s
  let s := match s.drv.cmds.find? fun e => e.2.slot = slot && e.2.answer.isNone && e.2.tag = some (q, cid % 1024, cid / 1024 % 64) with
    | none => count1 (4144 + slot) s
    | some (k, c) =>
      let l := latBin ((s.clk.now - c.rungAt.getD s.clk.now + 999) / 1000)
      placeReady slot (onPort slot (fun p => { p with lat := p.lat ++ [(s.clk.now, l)] })
        (s.onDrv fun d => { d with cmds := tabUpd d.cmds k fun c => { c with answer := some (c.force.getD status) } }))
  if 16 ≤ u.1 + 1 then returnCq slot q s else s

/-- R629, R571: the drive writes a completion queue entry. Its phase is checked before it is taken. -/
def execDriveCqEntry (slot q cid : Nat) (phase : Bool) (status : DriveOutcome) (s : State) : Out :=
  .next (if 24 ≤ slot || (s.port slot).built ≤ q || phase != phaseWant s slot q then s else takeCq slot q cid status s)

/-- R629, R630: 1 µs after the first unrung or unreturned entry of a queue its doorbell is written. -/
def execDoorbellTimer (slot q : Nat) (s : State) : Out :=
  .next (
    let s := match tabFind (s.port slot).unrung q with
      | some (_, t) => if due (t + us) s.clk.now then ringQueue slot q s else s
      | none => s
    match tabFind (s.port slot).cq q with
      | some (_, t) => if due (t + us) s.clk.now then returnCq slot q s else s
      | none => s)

/-- Bits [hi:lo] of a number. -/
def nbits (hi lo x : Nat) : Nat := x >>> lo % 2 ^ (hi + 1 - lo)

/-- Count a DMA violation; DRV.DMA_VIOLATION for the first of a slot in any 1 s (R628). DESIGN CHOICE (log 72, unsafe). -/
def dmaViolation (slot : Nat) (s : State) : State :=
  let recent := match (s.port slot).violAt with | some t => decide (s.clk.now < t + sec) | none => false
  let s := count1 (4752 + slot) s
  if recent then s else raise 584 (fld 4 0 slot) (onPort slot (fun p => { p with violAt := some s.clk.now }) s)

/-- Put `len` bytes at byte `off` of a buffer's blocks: data of 4,096 bytes, or metadata of 64 bytes. -/
def putBytes (size off len data : Nat) (get : Blk → Nat) (set_ : Blk → Nat → Blk) (k : Nat) (buf : Tab Blk) : Tab Blk :=
  if len = 0 then buf else
  (List.range ((off + len - 1) / size + 1 - off / size)).foldl (fun t i =>
    let b := off / size + i
    let lo := max off (b * size)
    let hi := min (off + len) ((b + 1) * size)
    let part := (data >>> (8 * (lo - off))) % 2 ^ (8 * (hi - lo))
    let at_ := 8 * (lo - b * size)
    let m := (2 ^ (8 * (hi - lo)) - 1) <<< at_
    let x := tabGet (⟨Config.freeBlk k b, 0, false⟩ : Blk) t b
    tabIns t b (set_ x ((get x ^^^ (get x &&& m)) ||| (part <<< at_)))) buf

/-- A request for the queue memory of a port: performed on a live queue's entries, and a violation elsewhere (R626, R628). -/
def queueDma (r : DmaReq) (s : State) : State :=
  let x := s.port r.slot
  let zero := decide (nbits 63 48 r.addr = 0)
  let qid := nbits 39 33 r.addr
  let size := if r.addr.testBit 32 then 16 else 64
  let live := x.st = .ready || x.st = .init || x.st = .unusable
  if zero && decide (nbits 45 40 r.addr = 0) && decide (nbits 31 16 r.addr = 0) && live && decide (qid ≤ x.built) && decide (nbits 15 0 r.addr + r.len ≤ max 1 x.depth * size) then
    (if r.write then s else send { kind := .dmaReply, a := r.slot, b := 0, c := r.len } s)
  else dmaViolation r.slot (if r.write then s else send { kind := .dmaReply, a := r.slot, b := 1 } s)

/-- A request for the data of a command: within the command that its tag names it is performed; a tag of an old generation drops
it; all else is a violation, and the command ends as failed (R626, R628). -/
def dataDma (r : DmaReq) (s : State) : State :=
  let x := s.port r.slot
  let kind := nbits 47 46 r.addr
  let zero := decide (nbits 63 48 r.addr = 0)
  let g := nbits 45 40 r.addr
  let q := nbits 39 34 r.addr
  let e := nbits 33 24 r.addr
  let off := nbits 17 0 r.addr
  let ur := fun (s : State) => if r.write then s else send { kind := .dmaReply, a := r.slot, b := 1 } s
  let size := fun (c : DCmd) => if kind = 1 then c.n * 4096 else if kind = 3 then c.n * 64 else c.n * 8
  match s.drv.cmds.find? fun d => d.2.slot = r.slot && d.2.answer.isNone && d.2.tag = some (q, e, g) with
  | none =>
    let g' := tabGet 0 x.gens (q * 1024 + e)
    if g' ≠ g then ur (count1 (if r.write then 4195 else 4776 + r.slot) s) else ur (dmaViolation r.slot s)
  | some (k, c) =>
    if !zero || decide (nbits 23 18 r.addr ≠ 0) || decide (size c < off + r.len) then
      ur (dmaViolation r.slot (s.onDrv fun d => { d with cmds := tabUpd d.cmds k fun c => { c with force := some .other } }))
    else if r.write then
      let data := if kind = 1 then putBytes 4096 off r.len r.data (·.d) (fun b v => { b with d := v }) k c.buf
        else if kind = 3 then putBytes 64 off r.len r.data (·.m) (fun b v => { b with m := v }) k c.buf else c.buf
      s.onDrv fun d => { d with cmds := tabUpd d.cmds k fun c => if r.poisoned then { c with force := some .media } else { c with buf := data } }
    else
      let all := fun (f : Blk → Nat) (w : Nat) => ((List.range c.data.length).foldl (fun a i => a ||| (f (c.data.getD i Blk.zero)) <<< (8 * w * i)) 0)
      let v := if kind = 1 then all (·.d) 4096 else if kind = 3 then all (·.m) 64
        else ((List.range c.n).foldl (fun a i => a ||| ((1 <<< 46) ||| (g <<< 40) ||| (q <<< 34) ||| (e <<< 24) ||| ((i + 1) * 4096)) <<< (64 * i)) 0)
      send { kind := .dmaReply, a := r.slot, b := 0, c := r.len, ds := [v >>> (8 * off) % 2 ^ (8 * r.len)] } s

/-- R626, R628: an inbound memory request of a drive: performed, dropped for its generation, or a violation. -/
def execDriveDmaRequest (r : DmaReq) (s : State) : Out :=
  .next (if 24 ≤ r.slot then s else if nbits 47 46 r.addr = 0 then queueDma r s else dataDma r s)

end Sys2Proof.Machine
end

