-- ==== Sys2Proof/Machine/Members.lean ====
section
/-! DEFINITION. Returning members: the classification of enumerated drives, resync and readmission (R599–R601), and what boot
finds of a set's members (R133, R572). -/
namespace Sys2Proof.Machine

/-- A drive returns for an index by resync: RESYNCING from watermark 0 (R600); a set OFFLINE for a lost member comes back where
that brings it within its tolerance (R601). -/
def startResync (i m slot : Nat) (s : State) : State :=
  let serial := match (s.port slot).info with | some d => d.serial | none => 0
  let s := onMember i m (fun x => { x with st := .resyncing, slot := some slot, serial := serial, wm := 0, last := some slot, fired := false, told := false, wish := none }) s
  let s := newGen i s
  match s.vset i with
  | none => s
  | some v => if v.st = .degraded || (v.st = .offline && v.cause = 1 && decide (lostMost v ≤ tolerance v)) then setSt i .rebuilding s else s

/-- A returning drive: resync where an open log slot of the index carries the generation of its record, and full rebuild
otherwise, with the drive as its own target (Table 12.11). -/
def returning (i m slot : Nat) (r : IdRec) (s : State) : State :=
  match s.vset i with
  | none => s
  | some v =>
    let log := match (v.mem m).log with
      | some k => let l : LogSlot := tabGet {} v.logs k; decide (l.st = 1) && decide (l.member = m) && decide (l.depgen = r.gen)
      | none => false
    if log then startResync i m slot (raise 514 (redParam i m 1) s)
    else
      let s := raise 514 (redParam i m 2) s
      if fits s v slot then takeTarget i m slot s else s

/-- Classify the drive of a slot that has been enumerated (R599, Table 12.11); a drive that the slot already holds as its member
is unchanged (R620). A spare designation goes when a different drive appears (R604). -/
def classifyDrive (slot : Nat) (s : State) : State :=
  let p := s.port slot
  let other := match tabFind s.vol.spares slot, p.info with | some x, some d => decide (x.serial ≠ d.serial) | _, _ => false
  let s := if other then s.onVol fun d => { d with spares := tabDel d.spares slot } else s
  match p.id with
  | none => onPort slot (fun p => { p with foreign := false }) s
  | some r => match s.vset r.set with
    | none => onPort slot (fun p => { p with foreign := true }) s
    | some v =>
      if v.setid ≠ r.setid then onPort slot (fun p => { p with foreign := true }) s
      else
        let x := v.mem r.member
        let s := onPort slot (fun p => { p with foreign := false }) s
        match x.st with
        | .absent => returning r.set r.member slot r s
        | .ejected => raise 514 (redParam r.set r.member 3) (onMember r.set r.member (fun x => { x with slot := some slot }) s)
        | _ =>
          if x.slot = some slot then s
          else raise 526 (fld 4 0 r.set ||| fld 12 8 slot) (onPort slot (fun p => { p with foreign := true }) s)

/-- The slot whose drive carries the identity record of an index, under a generation where one is given. -/
def slotOfIndex (s : State) (i m : Nat) (gen : Option Nat) : Option Nat :=
  match s.vset i with
  | none => none
  | some v => (List.range 24).find? fun k => enumerated s k && (match (s.port k).id with
    | some r => decide (r.set = i) && decide (r.member = m) && decide (r.setid = v.setid) && (match gen with | some g => decide (r.gen = g) | none => true)
    | none => false)

/-- A set's members that Boot has not found become ABSENT, and the others take the slots in which they were found (R133, R572,
R940). -/
def absentMissing (i : Nat) (s : State) : State :=
  match s.vset i with
  | none => s
  | some v => if !inCharge s || v.recover then s else
    forAll (membersIn v fun x => !x.out) (fun m s =>
      match slotOfIndex s i m (some v.gen) with
      | some k => onMember i m (fun x => { x with slot := some k }) s
      | none => loseMember i m 0 s) s

/-- The records of a set are settled and their writes have ended: the image's are done with, and members that Boot has not found become
ABSENT (R543, R546, R572). -/
def recovered (i p : Nat) (x : Pass) (s : State) : State :=
  let s := s.onWbf fun w => { w with image := w.image.bind fun y =>
    let rs := y.recs.filter fun r => r.set != i
    if rs.isEmpty then none else some { y with recs := rs } }
  let s := absentMissing i (raise 454 (fld 4 0 i) (onSet i (fun v => { v with recover := false }) (dropPass p s)))
  let more := match s.vset i with | some v => decide (x.count < v.bad.length) | none => false
  doIf more (raise 455 (fld 4 0 i)) s

/-- Settle a set's open records in JSEQ order: those of the hold-up image and of the journals, of this set and generation (R544). The writes
leave in S5; -/
def recoverPass (i : Nat) (v : VSet) (found : List (Nat × ImgRec)) (reads : List (Nat × Nat × List Blk)) (s : State) : State :=
  let img := match s.wbf.image with | some x => x.recs | none => []
  let all := (img.filter fun r => r.set = i) ++ (found.filter fun e => e.1 ≤ e.2.jseq).map (·.2)
  let mine := (all.filter fun r => decide (r.setid = v.setid) && decide (r.gen = v.gen)).foldl (fun l r => insRec r l) []
  let top := found.foldl (fun a e => max a e.2.jseq) (img.foldl (fun a r => max a r.jseq) s.wbf.jseq)
  let s := s.onWbf fun w => { w with jseq := max w.jseq top }
  let p := s.drv.passSeq + 1
  let x : Pass := { kind := .recover, set := i, stripe := v.stripes, count := v.bad.length, writing := true }
  let s := s.onDrv fun d => { d with passSeq := p, passes := tabIns d.passes p x }
  let s := forAll mine (fun r => settleRecord p i r reads) s
  if passQuiet s p then recovered i p x s else s

/-- R544, R546: a set's open records are gathered from the hold-up image and the members' journals and settled in JSEQ order.
`found` gives each record of a member's journal with the RLOW of that member's newest block, `reads` the blocks that the settling reads.
Once the writes have ended, the row completes the recovery. -/
def execRecordRecovery (set_ : Nat) (found : List (Nat × ImgRec)) (reads : List (Nat × Nat × List Blk)) (s : State) : Out :=
  .next (match s.vset set_ with
    | none => s
    | some v =>
      if !v.recover then s
      else match passesOf s set_ .recover with
        | (p, x) :: _ => if x.done then recovered set_ p x s else s
        | [] => recoverPass set_ v found reads s)

end Sys2Proof.Machine
end

