-- ==== Sys2Proof/Machine/DrivePower.lean ====
section
/-! DEFINITION. What slot power and SLPERST_N do to the drive ports, and the steps of link and controller initialisation that
they share with the drives' answers (R616–R622, R632). -/
namespace Sys2Proof.Machine

/-- Drive admin commands of a slot end unanswered: a Letterbox command that waits for one gets HW_FAULT (R639, R640). -/
def dropAdmin (k : Nat) (s : State) : State :=
  let l := (s.port k).admin
  let s := onPort k (fun p => { p with admin := [], fmtDo := none }) s
  forAll l (fun a s =>
    if a.kind = 5 then finish (fun r => r.op = 0x0905 && r.key = k) 586 stHwFault (fld 4 0 k ||| fld 11 8 1) s
    else if a.kind = 6 then post a.door a.tag false stHwFault [0] s
    else s) s

/-- The port has no link any more; what the drive's controller held is gone (R618). -/
def linkGone (k : Nat) (st : PortSt) (s : State) : State :=
  dropAdmin k (onPort k (fun p => { p with st := st, speed := 0, width := 0, flit := false, mps := 0, tag10 := false, built := 0, depth := 0, step := 0, wantAt := none, unrung := [], cq := [], cqHead := [],
                                           trainAt := s.clk.now, downAt := p.downAt.or (some s.clk.now) }) s)

/-- The slot's stage goes off, or SLPERST_N goes low with it: the port is OFF (Table 13.1). -/
def portLost (k : Nat) (s : State) : State :=
  linkGone k .off (onPort k (fun p => { p with linked := false, fails := 0, pulse := none, info := none, id := none, reqfail := 0, lowPower := false }) s)

/-- A pull of a member's slot: the member becomes ABSENT (R572, R940). -/
def memberPulled (k : Nat) (s : State) : State :=
  if !inCharge s then s else match memberAt s k with | some (i, m) => loseMember i m 0 s | none => s

/-- The slot enters ON: its latency history begins, with the seed timeout (R567). -/
def portOn (k : Nat) (s : State) : State := onPort k (fun p => { p with histAt := s.clk.now, lat := [], p999 := 0, timeout := 2000 }) s

/-- SLPERST_N goes high: the port is TRAINING (R617). -/
def portReleased (k : Nat) (s : State) : State :=
  onPort k (fun p => { p with st := .training, highAt := s.clk.now, trainAt := s.clk.now, linked := false, pulse := none, downAt := p.downAt.or (some s.clk.now) }) s

/-- The slot's root port has a PCIe link. -/
def portLinked (s : State) (k : Nat) : Bool := decide ((s.port k).speed ≠ 0)
/-- The port has had a link since SLPERST_N went high. -/
def portLinkedOnce (s : State) (k : Nat) : Bool := (s.port k).linked
/-- One second has passed since the slot's SLPERST_N went high (R74, R617). -/
def portHighLong (s : State) (k : Nat) : Bool := due ((s.port k).highAt + sec) s.clk.now
/-- A time of the partner's module clock on this module's always-on clock (R718). -/
def partnerTime (s : State) (t : Nat) : Nat :=
  ((t : Int) - s.links.timeOff + (s.clk.aon : Int) - (s.clk.now : Int)).toNat

/-- SLPERST_N of a slot. -/
def setReset (k : Nat) (high : Bool) (s : State) : State :=
  s.onPwr fun p => { p with slots := tabMod {} p.slots k fun x => { x with rstHigh := high } }

/-- No reset pulse of the drive runs any more (R632). -/
def pulseOver (s : State) (k : Nat) : Bool := match (s.port k).pulse with | none => true | some t => due t s.clk.now

/-- The slot is ON in this module. -/
def slotOn (s : State) (k : Nat) : Bool := (tabGet {} s.pwr.slots k : Slot).state = SlotState.on

/-- A drive reset: SLPERST_N low for 10 ms (R632). -/
def pulseReset (k : Nat) (s : State) : State :=
  let s := count1 4803 (setReset k false (linkGone k .training s))
  onPort k (fun p => { p with pulse := some (s.clk.now + 10 * ms) }) s

/-- A failure of initialisation: one reset, and FAILED after a second (R622). -/
def initFail (k : Nat) (s : State) : State :=
  let n := (s.port k).fails + 1
  let s := onPort k (fun p => { p with fails := n, wantAt := none, step := 0 }) s
  if n < 2 then pulseReset k s else portFault k 0 (raise 581 (fld 4 0 k) (count1 4801 (onPort k (fun p => { p with st := .failed }) s)))

/-- The controller is initialised from the clearing of CC.EN on (R621 step 3). -/
def beginInit (k : Nat) (s : State) : State :=
  onPort k (fun p => { p with st := .init, step := 3, useQ := p.queues, want := false, wantAt := some (s.clk.now + min p.capTo (60 * sec)), built := 0, depth := 0, unrung := [], cq := [], cqHead := [] }) s

/-- Kumel gives a drive an admin command (R621, R633); `kind` 1 Identify, 2 Set Features, 3 queue creation, 4 the identity
record, 5 Format NVM, 6 Get Log Page; 7 disables the volatile write cache and 8 aborts, and neither is waited for. -/
def adminTo (k kind door : Nat) (tag : Word) (ws : List Word) (s : State) : State :=
  let t := if kind = 5 then 3600 * sec else (s.port k).adminto * sec
  send { kind := .driveAdmin, a := k, b := kind, ws := ws } (onPort k (fun p => { p with admin := p.admin ++ [⟨kind, s.clk.now + t, door, tag, false⟩] }) s)

/-- Step 4 of a port's initialisation: Kumel identifies the drive (R621). DEDUCED (log 238, safe). -/
def identifyDrive (k : Nat) (s : State) : State :=
  if (s.port k).st = .init && (s.port k).step = 4 && (s.port k).admin.isEmpty && s.md.kumel = .running then adminTo k 1 0 0 [] s else s

end Sys2Proof.Machine
end

