-- ==== Sys2Proof/Machine/Power.lean ====
section
/-! DEFINITION. Slot power and drive insertion (chapter 3): probing, slot states, ramp and join, trips, sharing, the budget
allocator, the indicator chain and the PWR commands. -/
namespace Sys2Proof.Machine

/-- One slot by its number. -/
def State.slot (s : State) (k : Nat) : Slot := tabGet {} s.pwr.slots k

/-- Change one slot. -/
def onSlot (k : Nat) (f : Slot → Slot) (s : State) : State := s.onPwr fun p => { p with slots := tabMod {} p.slots k f }

/-- The code of a slot state (Table 3.2). -/
def SlotState.code : SlotState → Nat
  | .empty => 0 | .debounce => 1 | .queued => 2 | .ramp => 3 | .on => 4 | .join => 5 | .retryWait => 6 | .lockout => 7
  | .disabled => 8 | .partnerOnly => 9

/-- The code of a probe outcome (Table 3.9). -/
def Probe.code : Probe → Nat
  | .none => 0 | .empty => 1 | .present => 2 | .uncertain => 3 | .partnerFed => 4

/-- The slot's allotment is committed (R108). -/
def SlotState.commits : SlotState → Bool
  | .ramp | .join | .on => true
  | _ => false

/-- The module probes a slot in this state (Table 3.2). -/
def SlotState.probed : SlotState → Bool
  | .ramp | .join | .on => false
  | _ => true

/-- Committed power, W (R108). -/
def committed (s : State) : Nat :=
  sumNat (s.pwr.slots.map fun e => if e.2.state.commits then e.2.act.allot else 0)

/-- The budget that admissions are held against (R106, R110). -/
def budgetNow (s : State) : Nat := match s.pwr.single with | none => s.pwr.budget | some b => min s.pwr.budget b

/-- Only the partner ramps slots from off (R86): this is the bay-1 module, and the link is up. -/
def partnerRamps (s : State) : Bool := decide (s.bay.bay = 1) && s.links.partnerUp

/-- A slot in the admission queue is offered to the allocator (R86): at the bay-1 module with the link up, a QUEUED slot
that is not partner-fed is not. -/
def offered (s : State) (k : Nat) : Bool := !(partnerRamps s && decide ((s.slot k).state = .queued) && !(s.slot k).fedBy)

/-- The slot whose turn it is: the first that is offered (R107). -/
def nextToAdmit (s : State) : Option Nat := s.pwr.queue.find? (offered s)

/-- The allocator admits slot `k` now (R106, R107, R110). -/
def admits (s : State) (k : Nat) : Bool :=
  frontEndOn s && !s.pwr.shedding && decide (nextToAdmit s = some k)
    && decide (committed s + (s.slot k).set.allot ≤ budgetNow s)

/-- What the slots ahead in the queue and this one leave of the budget admits it: it does not wait for budget (R106, R107, R110). -/
def budgetFits (s : State) (k : Nat) : Bool :=
  let ahead := s.pwr.queue.takeWhile (· != k)
  !s.pwr.shedding && decide (committed s + sumNat ((ahead.filter (offered s)).map fun j => (s.slot j).set.allot) + (s.slot k).set.allot ≤ budgetNow s)

/-- The trips of the last 60 s (R97). -/
def recentTrips (s : State) (k : Nat) : List Nat := (s.slot k).hist.filter fun t => s.clk.aon < t + 60 * sec

/-- The slots fed by this module, as the ON mask of SHARE_TELEMETRY holds them (Table 15.9b). -/
def onMask (s : State) : Nat :=
  sumNat ((List.range 24).map fun k => if (s.slot k).state = .on || (s.slot k).state = .join then 2 ^ k else 0)

/-- The position in the probe cycle, ms (Table 15.9b PHASE). -/
def probePos (s : State) : Nat := (s.clk.aon + 100 * ms - s.pwr.phase) % (100 * ms) / ms

/-- The time at which a slot's probe starts: once a cycle, at its offset in milliseconds (R66). DESIGN CHOICE (log 225, unsafe). -/
def probeTime (s : State) (k : Nat) : Bool :=
  decide (probePos s = (4 * k + 50 * s.bay.bay) % 100) && match (s.slot k).probedAt with | none => true | some t => due (t + 50 * ms) s.clk.aon

/-- Send SHARE_TELEMETRY while the partner link is up (R719): the masks of trips and forwarded commands, then the rest; TRIPTIME is
the module time of the trips (R95). -/
def shareSend (trip cmdOff cmdOn clear : Nat) (s : State) : State :=
  if s.links.partnerUp then
    let s := s.onPwr fun p => { p with updSeq := (p.updSeq + 1) % 256 }
    send { kind := .share, a := trip, b := cmdOff, c := cmdOn,
           ws := [word clear, word (onMask s)] ++ words2 (if trip = 0 then 0 else s.clk.now) ++ [fld 6 0 (probePos s) ||| flag 7 s.pwr.droop ||| fld 15 8 s.pwr.updSeq]
                   ++ (List.range 12).map fun i => fld 15 0 (s.slot (2 * i)).iout ||| fld 31 16 (s.slot (2 * i + 1)).iout } s
  else s

/-- A change of the ON mask is told at once (R719). -/
def tellOn (before : Nat) (s : State) : State := doIf (onMask s != before) (shareSend 0 0 0 0) s

/-- Leave the admission queue. -/
def leaveQueue (k : Nat) (s : State) : State := s.onPwr fun p => { p with queue := p.queue.filter (· != k) }

/-- Join the admission queue at its end; slots that arrive at the same instant stand in ascending order (R107). -/
def joinQueue (k : Nat) (s : State) : State :=
  let s := onSlot k (fun x => { x with queuedAt := s.clk.aon }) s
  let q := s.pwr.queue.filter (· != k)
  let later := fun j => decide (k < j) && decide ((s.slot j).queuedAt = s.clk.aon)
  s.onPwr fun p => { p with queue := q.filter (!later ·) ++ k :: q.filter later }

/-- PWR.SLOT_QUEUED, once, where a slot in the queue has to wait for budget (Table 3.12). -/
def noteWaiting (k : Nat) (s : State) : State :=
  if offered s k && !budgetFits s k && !(s.slot k).waited then raise 86 (word k) (onSlot k (fun x => { x with waited := true }) s) else s

/-- A slot arrives in the admission queue. -/
def enqueue (k : Nat) (s : State) : State := noteWaiting k (joinQueue k s)

/-- The stage goes off and SLPERST_N low. -/
def stageOff (k : Nat) (s : State) : State :=
  portLost k (onSlot k (fun x => { x with stage := false, rstHigh := false, wait := .no, offDue := none, iout := 0 }) s)

/-- Note an admission: its order, and whether it waited (R110, Table 3.13). -/
def noteAdmission (k : Nat) (s : State) : State :=
  let s := doIf (s.slot k).waited (count1 614) s
  let s := leaveQueue k s
  let s := s.onPwr fun p => { p with admitSeq := p.admitSeq + 1 }
  onSlot k (fun x => { x with admitAt := s.pwr.admitSeq, shed := false, waited := false, act := x.set }) s

/-- Enter JOIN: the stage turns on over 5 ms (R87). -/
def enterJoin (k : Nat) (s : State) : State :=
  onSlot k (fun x => { x with state := .join, stage := true, fedBy := true, wait := .no, act := x.set,
                              rampDue := s.clk.aon + 5 * ms }) s

/-- Begin the ramp (R82, R85). -/
def enterRamp (k : Nat) (s : State) : State :=
  onSlot k (fun x => { x with state := .ramp, stage := true, wait := .no, act := x.set,
                              rampDue := s.clk.aon + x.set.tinr * ms }) s

/-- A trip enters the slot's history and is counted and reported (R94, R97). -/
def recordTrip (k cause time : Nat) (s : State) : State :=
  raise 84 (word k ||| fld 10 8 cause) (count1 (512 + k)
    (onSlot k (fun x => { x with hist := recentTrips s k ++ [time], cause := cause, lastTrip := some time }) s))

/-- The stage goes off and the slot enters DISABLED (R91). -/
def enterDisabled (k : Nat) (s : State) : State :=
  raise 83 (word k) (onSlot k (fun x => { x with state := .disabled, presentAt := none, empties := 0, shed := false, waited := false }) (leaveQueue k (stageOff k s)))

/-- The slot has been commanded off and its stage runs out its 10 ms (R91). -/
def turningOff (x : Slot) : Bool := match x.offDue with | some (_, .disabled) => true | _ => false

/-- A trip with its cause (R94–R98): the stage goes off (R95), the allotment is released, and the slot waits for its retry or
locks out on the third trip within 60 s. A slot that an off command is turning off enters DISABLED all the same, and a ramp that is
being abandoned counts no trip (R91). -/
def trip (k cause time : Nat) (s : State) : State :=
  let x := s.slot k
  if turningOff x then enterDisabled k (if x.state = .ramp then s else recordTrip k cause time s)
  else
    let s := recordTrip k cause time (stageOff k (leaveQueue k s))
    let lock := decide (3 ≤ (s.slot k).hist.length)
    let s := onSlot k (fun x =>
      { x with state := if lock then .lockout else .retryWait, retryDue := s.clk.aon + x.act.retry * 100 * ms, presentAt := none,
               empties := 0, pulled := false, shed := false, waited := false, fedBy := false }) s
    doIf lock (raise 85 (word k)) s

/-- A trip of this module's own stage: the partner hears of it at once (R95, R719). DEDUCED (log 190, unsafe). -/
def ownTrip (k cause : Nat) (s : State) : State :=
  if turningOff (s.slot k) && decide ((s.slot k).state = .ramp) then trip k cause s.clk.aon s
  else shareSend (2 ^ k) 0 0 0 (trip k cause s.clk.aon s)

/-! ## Probing -/

/-- The outcome of a probe from its pre-sample and the time the contact takes to reach 2.0 V (Table 3.1). -/
def classify (pre : Nat) (riseUs : Option Nat) : Probe :=
  if 10800 < pre then .partnerFed
  else if 500 ≤ pre then .uncertain
  else match riseUs with
    | none => .present
    | some t => if t < 50 then .empty else if t ≤ 2000 then .uncertain else .present

/-- A slot leaves LOCKOUT (R99, R120). -/
def leaveLockout (k : Nat) (s : State) : State :=
  raise 91 (word k) (onSlot k (fun x => { x with state := .empty, presentAt := none }) s)

/-- A slot enters PARTNER_ONLY at its place in the queue (R80, R88). -/
def enterPartnerOnly (k : Nat) (s : State) : State :=
  raise 88 (word k) (onSlot k (fun x => { x with state := .partnerOnly, stage := false, fedBy := true }) s)

/-- A pull recognised (R73, R79). -/
def pulled (k : Nat) (s : State) : State :=
  let s := doIf (s.slot k).pullArmed (raise 81 (word k)) s
  let s := memberPulled k (onSlot k (fun x => { x with pullArmed := false, pulled := true, presentAt := none }) s)
  match (s.slot k).state with
  | .debounce | .queued | .retryWait =>
    leaveQueue k (onSlot k (fun x => { x with state := .empty, waited := false, shed := false }) s)
  | _ => s

/-- An empty outcome: the second in a row recognises a pull. -/
def probeEmpty (k : Nat) (s : State) : State :=
  let s := onSlot k (fun x => { x with empties := x.empties + 1, presentAt := none, fedBy := false }) s
  doIf (2 ≤ (s.slot k).empties) (pulled k) s

/-- A present outcome: an EMPTY slot begins its debounce (R72, R76). -/
def probePresent (k : Nat) (s : State) : State :=
  onSlot k (fun x =>
    { x with empties := 0, pullArmed := true, pulled := false, fedBy := false,
             presentAt := some (x.presentAt.getD s.clk.aon),
             state := if x.state = .empty then .debounce else x.state }) s

/-- A partner-fed outcome (R76, R80, R88, R936). -/
def probePartnerFed (k : Nat) (changed : Bool) (s : State) : State :=
  let s := doIf changed (raise 87 (word k)) s
  let s := onSlot k (fun x => { x with empties := 0, pullArmed := true, pulled := false, fedBy := true, presentAt := none }) s
  match (s.slot k).state with
  | .empty | .debounce =>
    let s := joinQueue k (onSlot k (fun x => { x with state := .partnerOnly }) s)
    if admits s k then enterJoin k (noteAdmission k s) else noteWaiting k (enterPartnerOnly k s)
  | .queued => noteWaiting k (enterPartnerOnly k s)
  | _ => s

/-- The module probes: it is seated with a valid bay decode and straps, and its front end is on (R39–R41, R111). -/
def probing (s : State) : Bool := frontEndOn s && s.bay.valid && decide (s.bay.form ≠ 3)

/-- R66–R80: a slot's scheduled probe, once a cycle at its offset. In PARTNER_ONLY only the pre-sample is taken (R89). -/
def execSlotProbe (slot pre : Nat) (riseUs : Option Nat) (s : State) : Out :=
  .next (
    let x := s.slot slot
    if !probing s || 24 ≤ slot || !x.state.probed || x.offDue.isSome || !probeTime s slot then s
    else
      let before := onMask s
      let s := onSlot slot (fun x => { x with vout := pre, probedAt := some s.clk.aon }) s
      if x.state = .partnerOnly then
        if pre ≤ 10800 then onSlot slot (fun x => { x with state := .queued, fedBy := false }) s else s
      else
        let o := classify pre riseUs
        let s := onSlot slot (fun x => { x with probe := o }) s
        let s := match o with
          | .empty => probeEmpty slot s
          | .present => probePresent slot s
          | .partnerFed => probePartnerFed slot (x.probe != .partnerFed) s
          | _ => count1 (536 + slot) (onSlot slot (fun x => { x with empties := 0, presentAt := none }) s)
        let y := s.slot slot
        let s := doIf (o != .uncertain && y.state = .lockout && y.pulled && (recentTrips s slot).isEmpty) (leaveLockout slot) s
        tellOn before s)

/-- R72, R76: 500 ms of present results end DEBOUNCE, and the slot waits for admission. -/
def execSlotInserted (slot : Nat) (s : State) : Out :=
  .next (
    let x := s.slot slot
    match x.state, x.presentAt with
    | .debounce, some t =>
      if due (t + 500 * ms) s.clk.aon && slot < 24 then
        enqueue slot (raise 80 (word slot) (count1 (560 + slot) (onSlot slot (fun x => { x with state := .queued }) s)))
      else s
    | _, _ => s)

/-- R74: the output current is below 50 mA and the root port has no link, for 10 ms: the stage goes off and probing resumes. -/
def execSlotSuspectPull (slot iout : Nat) (s : State) : Out :=
  .next (
    let x := s.slot slot
    let noLink := !portLinked s slot && (portLinkedOnce s slot || portHighLong s slot)
    if slot < 24 && x.state = .on && x.rstHigh && iout < 50 && noLink && x.offDue.isNone then
      tellOn (onMask s) (memberPulled slot (onSlot slot (fun x => { x with state := .empty, presentAt := none, empties := 0 }) (stageOff slot s)))
    else s)

/-! ## Admission, ramp and join -/

/-- R85, R86, R106, R107: the allocator admits the slot whose turn it is and takes a fresh pre-sample. A QUEUED slot that only the
partner may ramp, and that the sample finds no longer partner-fed, is not admitted. -/
def execSlotAdmit (slot pre : Nat) (s : State) : Out :=
  .next (if !admits s slot then s
    else if partnerRamps s && decide ((s.slot slot).state = .queued) && decide (pre ≤ 10800) then
      onSlot slot (fun x => { x with vout := pre, fedBy := false }) s
    else
    let was := (s.slot slot).state
    let before := onMask s
    let s := onSlot slot (fun x => { x with vout := pre }) (noteAdmission slot s)
    tellOn before (
      if was = .partnerOnly || 10800 < pre then enterJoin slot s
      else if pre < 1000 then enterRamp slot s
      else onSlot slot (fun x => { x with state := .ramp, stage := false, wait := .resample,
                                          rampDue := s.clk.aon + x.act.tinr * ms }) s))

/-- The allocator takes an admission back: the slot is QUEUED at its place again (R86). -/
def unadmit (k : Nat) (s : State) : State :=
  onSlot k (fun x => { x with state := .queued, wait := .no, fedBy := false }) (s.onPwr fun p => { p with queue := k :: p.queue })

/-- R85: the second pre-sample, one inrush timer period later. Where meanwhile only the partner may ramp, the slot waits for it (R86). -/
def execRampResample (slot pre : Nat) (s : State) : Out :=
  .next (
    let x := s.slot slot
    if frontEndOn s && x.state = .ramp && x.wait = .resample && due x.rampDue s.clk.aon then
      let before := onMask s
      let s := onSlot slot (fun x => { x with vout := pre }) s
      tellOn before (if 10800 < pre then enterJoin slot s
        else if pre < 1000 then (if partnerRamps s then unadmit slot s else enterRamp slot s)
        else ownTrip slot 2 s)
    else s)

/-- The bulk bus, mV: the highest feed whose path is closed. -/
def busMv (s : State) : Nat := max (if s.fe.f1.closed then s.fe.f1.mv else 0) (if s.fe.f2.closed then s.fe.f2.mv else 0)

/-- The pass-FET drop of a stage in ON, mV: that of digital sharing, or in droop rising linearly to 240 mV at the current limit
(R100, R102). -/
def dropOf (s : State) (x : Slot) : Nat := if s.pwr.droop then min 240 (240 * x.iout / (250 * x.act.ilim)) else x.drop

/-- Enter ON: power good, and SLPERST_N goes high 100 ms later (R83, R84). -/
def enterOn (k : Nat) (s : State) : State :=
  raise 82 (word k) (portOn k <| onSlot k (fun x => { x with state := .on, stage := true, act := x.set, rstDue := s.clk.aon + 100 * ms, vout := busMv s - dropOf s x }) s)

/-- R83: the output has been within 0.3 V of the bulk bus for 1 ms. -/
def execSlotPowerGood (slot : Nat) (s : State) : Out :=
  .next (if (s.slot slot).state = .ramp && (s.slot slot).stage && (s.slot slot).offDue.isNone then
      tellOn (onMask s) (enterOn slot s)
    else s)

/-- R84: 100 ms after power good. -/
def execSlotResetRelease (slot : Nat) (s : State) : Out :=
  .next (
    let x := s.slot slot
    if x.state = .on && !x.rstHigh && due x.rstDue s.clk.aon && x.offDue.isNone && pulseOver s slot then
      portReleased slot (onSlot slot (fun x => { x with rstHigh := true }) s)
    else s)

/-- The current that the stage is held to, mA: the inrush limit in RAMP and JOIN, the current limit in ON (Table 3.3, R82, R87, R104). -/
def stageLimit (x : Slot) : Nat := match x.state with | .ramp | .join => 250 * x.act.iinr | _ => 250 * x.act.ilim

/-- The stage carries half the slot's total ± 10 %, or ± 0.1 A if that is greater (R100). -/
def balanced (x : Slot) : Bool :=
  let half := (x.iout + x.partnerI) / 2
  let band := max (half / 10) 100
  decide (x.iout ≤ half + band) && decide (half ≤ x.iout + band)

/-- Sharing has settled (R87): digital sharing meets R100, or with the link down, or in droop, 20 ms have passed since the stage was
fully on. -/
def settled (s : State) (x : Slot) : Bool :=
  if s.links.partnerUp && !s.pwr.droop then due x.rampDue s.clk.aon && balanced x else due (x.rampDue + 20 * ms) s.clk.aon

/-- R87: the joining stage is fully on and sharing has settled. -/
def execSlotJoinSettled (slot : Nat) (s : State) : Out :=
  .next (
    let x := s.slot slot
    if frontEndOn s && x.state = .join && x.stage && settled s x && x.offDue.isNone then tellOn (onMask s) (enterOn slot s) else s)

/-! ## Protection -/

/-- R94 cause 2: the inrush timer expires without power good. -/
def execInrushTimeout (slot : Nat) (s : State) : Out :=
  .next (
    let x := s.slot slot
    if x.state = .ramp && x.stage && due x.rampDue s.clk.aon && x.offDue.isNone then ownTrip slot 2 s else s)

/-- What a stage measures trips it by this cause (Table 3.4): SHORT (1) in RAMP or JOIN after 2,000 µs of limiting below 1.0 V, ENERGY
(3) at 500,000 µJ of one limiting interval, FAST (4) above the fast-trip setting in mA. -/
def tripMet (x : Slot) (cause meas : Nat) : Bool :=
  match cause with
  | 1 => (x.state = .ramp || x.state = .join) && decide (2000 ≤ meas)
  | 3 => decide (500000 ≤ meas)
  | 4 => decide (1000 * x.act.ifast < meas)
  | _ => false

/-- R93, R94: a stage trips on SHORT, ENERGY or FAST. DESIGN CHOICE (log 4, safe). -/
def execSlotTrip (slot cause meas : Nat) (s : State) : Out :=
  .next (
    let x := s.slot slot
    if x.stage && x.state.commits && tripMet x cause meas then ownTrip slot cause s else s)

/-- R96: the retry timer expires. -/
def execSlotRetryExpiry (slot : Nat) (s : State) : Out :=
  .next (
    let x := s.slot slot
    if x.state = .retryWait && due x.retryDue s.clk.aon then enqueue slot (onSlot slot (fun x => { x with state := .queued }) s) else s)

/-- Order shed slots by their admission (R110). -/
def insertShed (s : State) (k : Nat) : List Nat → List Nat
  | [] => [k]
  | j :: js => if (s.slot j).shed && decide ((s.slot j).admitAt < (s.slot k).admitAt) then j :: insertShed s k js else k :: j :: js

/-- A shed slot stands at the head of the admission queue among the shed ones (R110). -/
def queueShed (k : Nat) (s : State) : State :=
  let s := onSlot k (fun x => { x with shed := true, waited := true }) s
  raise 86 (word k) (s.onPwr fun p => { p with queue := insertShed s k (p.queue.filter (· != k)) })

/-- R91, R110: 10 ms after SLPERST_N went low the stage goes off. -/
def execSlotStageOffDelay (slot : Nat) (s : State) : Out :=
  .next (match (s.slot slot).offDue with
    | none => s
    | some (t, thn) =>
      if due t s.clk.aon then
        let before := onMask s
        let s := stageOff slot s
        tellOn before (match thn with
          | .disabled => enterDisabled slot s
          | .queued => queueShed slot (onSlot slot (fun x => { x with state := .queued, presentAt := none, empties := 0 }) s))
      else s)

/-- Turn a slot off (R91): SLPERST_N low at once, the stage 10 ms later, then DISABLED. DESIGN CHOICE (log 222, unsafe). -/
def turnOff (k : Nat) (s : State) : State :=
  let x := s.slot k
  if x.state = .disabled then s
  else if x.stage then
    onSlot k (fun x => { x with rstHigh := false, offDue := some (s.clk.aon + 10 * ms, .disabled) }) (portLost k s)
  else
    raise 83 (word k) (leaveQueue k (onSlot k (fun x =>
      { x with state := .disabled, wait := .no, presentAt := none, waited := false, shed := false }) s))

/-- Release a slot from DISABLED (R119). DESIGN CHOICE (log 221, unsafe). -/
def turnOn (k : Nat) (s : State) : State :=
  if (s.slot k).state = .disabled then
    onSlot k (fun x => { x with state := .empty, presentAt := none, empties := 0, probe := .none }) s
  else s

/-- PWR.CLEAR_LOCKOUT of one slot (R120). -/
def clearLockout (k : Nat) (s : State) : State :=
  if (s.slot k).state = .lockout then leaveLockout k (onSlot k (fun x => { x with hist := [] }) s) else s

/-! ## Sharing -/

/-- What a stage that is on measures: its current, held at the limit, and its contact voltage. In ON below the limit the drop and the
contact voltage add up to the bulk bus (R82, R87, R104, Table 3.9). -/
def measure (k iout vout : Nat) (s : State) : State :=
  if !(s.slot k).stage then s
  else
    let s := onSlot k (fun x => { x with iout := min iout (stageLimit x), vout := vout }) s
    let x := s.slot k
    doIf (x.state = .on && decide (x.iout < stageLimit x)) (onSlot k fun x => { x with vout := busMv s - dropOf s x }) s

/-- R719: every 100 µs, or at once on a change, a SHARE_TELEMETRY record is sent with the measured stage currents. -/
def execShareTelemetrySend (iout vout : List Nat) (s : State) : Out :=
  .next (shareSend 0 0 0 0 (forAll (List.range 24) (fun k s => measure k (iout.getD k (s.slot k).iout) (vout.getD k (s.slot k).vout) s) s))

/-- Align the probe cycle with the partner's to within 1 ms (R67): the bay-1 module follows. DESIGN CHOICE (log 22, unsafe). -/
def alignProbes (phase : Nat) (s : State) : State :=
  if s.bay.bay = 1 && decide (phase % 100 ≠ probePos s) then s.onPwr fun q => { q with phase := (s.clk.aon + 100 * ms - phase % 100 * ms) % (100 * ms) } else s

/-- Digital sharing moves a stage's drop, within 0 to 300 mV, toward half the slot's total (R100). DESIGN CHOICE (log 226, unsafe). -/
def adjustDrop (x : Slot) : Slot :=
  let half := (x.iout + x.partnerI) / 2
  if balanced x then x
  else if half < x.iout then { x with drop := min 300 (x.drop + Config.shareStep) }
  else { x with drop := x.drop - Config.shareStep }

/-- What a record says of one slot (R89, R92, R95, R105, R939). -/
def shareSlot (r : ShareRec) (k : Nat) (s : State) : State :=
  let x := s.slot k
  let fed := r.on.testBit k
  let s := doIf (x.state = .on && x.fedBy && !fed) (onSlot k fun x => { x with iout := min (x.iout + x.partnerI) (stageLimit x) }) s
  let s := onSlot k (fun x => { x with partnerI := r.iout.getD k 0, fedBy := if x.state.commits then fed else x.fedBy }) s
  let s := doIf (x.stage && x.state.commits && fed && !s.pwr.droop) (onSlot k adjustDrop) s
  let s := doIf (r.trip.testBit k && (x.state.commits || x.state = .partnerOnly)) (trip k 5 (partnerTime s r.tripTime)) s
  let s := doIf ((s.slot k).state = .partnerOnly && !fed) (onSlot k fun x => { x with state := .queued, fedBy := false }) s
  let s := doIf (r.cmdOff.testBit k) (turnOff k) s
  let s := doIf (r.cmdOn.testBit k) (turnOn k) s
  doIf (r.clear.testBit k) (clearLockout k) s

/-- R719, R100: a received SHARE_TELEMETRY record. -/
def execShareTelemetryReceive (r : ShareRec) (s : State) : Out :=
  .next (if !s.links.partnerUp then s else
    let before := onMask s
    let s := s.onPwr fun p => { p with missed := 0, goodUpd := if p.droop then p.goodUpd + 1 else 0 }
    tellOn before (forAll (List.range 24) (shareSlot r) (alignProbes r.phase s)))

/-- R719: a 100 µs interval without a record. -/
def execShareUpdateMissed (s : State) : Out :=
  .next (count1 616 (s.onPwr fun p => { p with missed := p.missed + 1, goodUpd := 0 }))

/-- The stages share by droop (R102). -/
def enterDroop (s : State) : State := if s.pwr.droop then s else raise 89 0 (count1 615 (s.onPwr fun p => { p with droop := true, goodUpd := 0 }))

/-- R102: five missed updates in a row. -/
def execShareDroop (s : State) : Out := .next (if 5 ≤ s.pwr.missed then enterDroop s else s)

/-- R103: 100 consecutive good updates. -/
def execShareRestored (s : State) : Out :=
  .next (if s.pwr.droop && 100 ≤ s.pwr.goodUpd then raise 90 0 (s.onPwr fun p => { p with droop := false, goodUpd := 0 }) else s)

/-! ## The budget -/

/-- Every drive of an ON slot enters its lowest power state, or leaves it (R634, Table 4.7 E3). DESIGN CHOICE (log 200, unsafe). -/
def drivesPower (low : Bool) (s : State) : State :=
  let on := (List.range 24).filter (slotOn s)
  s.onDrv fun d => { d with ports := tabMap d.ports fun k p => if on.contains k || !low then { p with lowPower := low } else p }

/-- The voltage of the only good feed, where just one is good. -/
def singleFeed (s : State) : Option Feed :=
  match s.fe.f1.good, s.fe.f2.good with
  | true, false => some s.fe.f1
  | false, true => some s.fe.f2
  | _, _ => none

/-- Bring the single-feed budget up to date (R110). -/
def settleBudget (s : State) : State :=
  match singleFeed s with
  | some f =>
    if f.mv < 11400 then
      s.onPwr fun p => { p with single := some (95 * f.mv / 1000 - 360),
                                over95 := if 9500 < f.cur then some (p.over95.getD s.clk.aon) else none }
    else s.onPwr fun p => { p with single := none, shedding := false, over95 := none }
  | none => s.onPwr fun p => { p with single := none, shedding := false, over95 := none }

/-- R110: every 100 ms the single-feed budget is re-evaluated from the measured feeds. -/
def execSingleFeedBudgetTick (mv1 mv2 i1 i2 : Nat) (s : State) : Out :=
  .next (settleBudget (s.onFe fun f => { f with f1 := { f.f1 with mv := mv1, cur := i1 }, f2 := { f.f2 with mv := mv2, cur := i2 } }))

/-- The most recently admitted of the slots that satisfy `p`. -/
def lastAdmitted (s : State) (p : Slot → Bool) : Option Nat :=
  (List.range 24).foldl (fun b k => if p (s.slot k) && (match b with | none => true | some j => decide ((s.slot j).admitAt < (s.slot k).admitAt)) then some k else b) none

/-- A shed is due (R110): above 95 A for 1 s, and 10 ms after the last. -/
def shedDue (s : State) (current : Nat) : Bool :=
  s.pwr.single.isSome && decide (9500 < current)
    && (match s.pwr.over95 with | some t => due (t + sec) s.clk.aon | none => false)
    && (match s.pwr.lastShed with | some t => due (t + 10 * ms) s.clk.aon | none => true)

/-- R110: one slot stage is turned off, first among the slots that the partner also feeds. -/
def execSlotShed (current : Nat) (s : State) : Out :=
  .next (if !shedDue s current then s else
    let before := onMask s
    let s' := s.onPwr fun p => { p with shedding := true, lastShed := some s.clk.aon }
    match lastAdmitted s fun x => x.stage && x.fedBy && x.state.commits && x.offDue.isNone with
    | some k => tellOn before (queueShed k (enterPartnerOnly k (onSlot k (fun x => { x with fedBy := true }) (stageOff k s'))))
    | none =>
      match lastAdmitted s fun x => x.stage && x.state.commits && x.offDue.isNone with
      | some k => onSlot k (fun x => { x with rstHigh := false, offDue := some (s.clk.aon + 10 * ms, .queued) }) (portLost k s')
      | none => s)

/-! ## The indicator chain -/

/-- The first half of a period of `p` ns. DESIGN CHOICE (log 23, unsafe). -/
def blink (s : State) (p : Nat) : Bool := decide (s.clk.aon % p < p / 2)

/-- The green and amber LEDs of a slot at this instant (Table 3.5, R116). -/
def leds (s : State) (k : Nat) : Bool × Bool :=
  let x := s.slot k
  let holder := s.pair.lease && (s.md.mode = .active || s.md.mode = .drowse)
  let busy := (match x.lastIo with | none => false | some t => decide (s.clk.now < t + 100 * ms))
    || tabAny s.drv.cmds fun _ c => c.slot = k && c.tag.isSome && c.answer.isNone
  let green := match x.state with
    | .debounce | .queued | .ramp | .join | .partnerOnly => blink s sec
    | .on => !busy || blink s (250 * ms)
    | _ => false
  let amber := match x.state with
    | .retryWait => blink s sec
    | .lockout => true
    | _ => false
  (holder && green, if x.locate then blink s (2 * sec) else amber || (holder && x.fault))

/-- IND_CLK, IND_DATA and IND_LATCH are driven: the module is seated and powered; otherwise they are high-impedance (R115). DESIGN CHOICE (log 223, unsafe). -/
def indDriven (s : State) : Bool := s.pins.seated && s.fe.charged

/-- R112–R116: every 10 ms one frame of 48 bits; none while unseated or unpowered. -/
def execIndicatorFrame (s : State) : Out :=
  .next (if !indDriven s then s else
    let v := sumNat ((List.range 24).map fun k => (if (leds s k).1 then 2 ^ (2 * k) else 0) + (if (leds s k).2 then 2 ^ (2 * k + 1) else 0))
    send { kind := .ledFrame, a := v } (s.onPwr fun p => { p with frame := BitVec.ofNat 48 v }))

/-! ## Commands -/

/-- A setting of PWR.SET_SLOT_LIMITS: zero leaves it, any other value has to lie in its range (R118). -/
def inRange (lo hi v : Nat) : Bool := decide (v = 0) || (decide (lo ≤ v) && decide (v ≤ hi))

/-- Take a setting where it is not zero. -/
def pick (v old : Nat) : Nat := if v = 0 then old else v

/-- PWR.SET_SLOT_LIMITS (R118, Table 3.8): the current limit and the fast trip apply at once. DEDUCED (log 191, unsafe). -/
def deskPwrSetSlotLimits (p : Packet) (s : State) : Desk :=
    let slots := bits 23 0 (p.w 2)
    let ilim := bits 4 0 (p.w 3)
    let iinr := bits 11 8 (p.w 3)
    let tinr := bits 18 12 (p.w 3)
    let ifast := bits 23 19 (p.w 3)
    let retry := bits 6 0 (p.w 4)
    let allot := bits 14 8 (p.w 4)
    guardParam (clean (mask 23 0) (p.w 2) && clean (mask 4 0 ||| mask 23 8) (p.w 3) && clean (mask 6 0 ||| mask 14 8) (p.w 4)
        && decide (slots ≠ 0) && inRange 1 24 ilim && inRange 2 8 iinr && inRange 1 64 tinr && inRange 8 16 ifast
        && inRange 1 100 retry && inRange 1 72 allot) s fun s =>
      okay (forAll (setBits 24 slots) (fun k => onSlot k fun x =>
        { x with set := { ilim := pick ilim x.set.ilim, iinr := pick iinr x.set.iinr, tinr := pick tinr x.set.tinr,
                          ifast := pick ifast x.set.ifast, retry := pick retry x.set.retry, allot := pick allot x.set.allot },
                 act := { x.act with ilim := pick ilim x.act.ilim, ifast := pick ifast x.act.ifast } }) s)

/-- PWR.SET_SLOT_LIMITS (R118, Table 3.8): the current limit and the fast trip apply at once. -/
def execPwrSetSlotLimits (p : Packet) (s : State) : Out := letter 0x0101 3 p s (deskPwrSetSlotLimits p)

/-- The position in the admission queue, 0 if not waiting. -/
def queuePos (s : State) (k : Nat) : Nat := if s.pwr.queue.contains k then s.pwr.queue.idxOf k + 1 else 0

/-- LASTTRIP (Table 3.9): ms on the always-on clock modulo 2^32. -/
def lastTripMs (x : Slot) : Nat :=
  match x.lastTrip with
  | none => 0xFFFFFFFF
  | some t => let v := t / ms % 2 ^ 32; if v = 0xFFFFFFFF then 0xFFFFFFFE else v

/-- PWR.GET_SLOT_STATUS (Table 3.9). -/
def deskPwrGetSlotStatus (p : Packet) (s : State) : Desk :=
    let k := bits 4 0 (p.w 2)
    guardParam (clean (mask 4 0) (p.w 2) && decide (k < 24)) s fun s =>
      let x := s.slot k
      answer [fld 3 0 x.state.code ||| fld 6 4 x.probe.code ||| fld 9 7 x.cause ||| fld 11 10 (min 3 (recentTrips s k).length)
          ||| flag 12 s.pwr.droop ||| flag 13 x.fedBy ||| flag 14 x.locate ||| flag 15 x.fault ||| fld 31 16 (queuePos s k),
        fld 15 0 x.vout ||| fld 31 16 x.iout, word (lastTripMs x), fld 7 0 x.act.allot] s

/-- PWR.GET_SLOT_STATUS (Table 3.9). -/
def execPwrGetSlotStatus (p : Packet) (s : State) : Out := letter 0x0102 1 p s (deskPwrGetSlotStatus p)

/-- PWR.SET_SLOT_POWER (R91, R92, R119, Table 3.10). -/
def deskPwrSetSlotPower (p : Packet) (s : State) : Desk :=
    let slots := bits 23 0 (p.w 2)
    let on := bit 0 (p.w 3)
    guardParam (clean (mask 23 0) (p.w 2) && clean (mask 0 0) (p.w 3)) s fun s =>
      let s := forAll (setBits 24 slots) (if on then turnOn else turnOff) s
      answer [flag 0 (!s.links.partnerUp)] (if on then shareSend 0 0 slots 0 s else shareSend 0 slots 0 0 s)

/-- PWR.SET_SLOT_POWER (R91, R92, R119, Table 3.10). -/
def execPwrSetSlotPower (p : Packet) (s : State) : Out := letter 0x0103 2 p s (deskPwrSetSlotPower p)

/-- PWR.CLEAR_LOCKOUT (R120, R939). -/
def deskPwrClearLockout (p : Packet) (s : State) : Desk :=
    let slots := bits 23 0 (p.w 2)
    guardParam (clean (mask 23 0) (p.w 2)) s fun s =>
      okay (shareSend 0 0 0 slots (forAll (setBits 24 slots) clearLockout s))

/-- PWR.CLEAR_LOCKOUT (R120, R939). -/
def execPwrClearLockout (p : Packet) (s : State) : Out := letter 0x0104 1 p s (deskPwrClearLockout p)

/-- PWR.SET_BUDGET (R106, R109, R121). -/
def deskPwrSetBudget (p : Packet) (s : State) : Desk :=
    guardParam (clean (mask 9 0) (p.w 2) && decide (bits 9 0 (p.w 2) ≤ 720)) s fun s =>
      okay (s.onPwr fun q => { q with budget := bits 9 0 (p.w 2) })

/-- PWR.SET_BUDGET (R106, R109, R121). -/
def execPwrSetBudget (p : Packet) (s : State) : Out := letter 0x0105 1 p s (deskPwrSetBudget p)

/-- PWR.GET_BUDGET (R121). -/
def deskPwrGetBudget (_p : Packet) (s : State) : Desk :=
    answer [fld 9 0 s.pwr.budget ||| fld 25 16 (committed s), fld 4 0 s.pwr.queue.length] s

/-- PWR.GET_BUDGET (R121). -/
def execPwrGetBudget (p : Packet) (s : State) : Out := letter 0x0106 0 p s (deskPwrGetBudget p)

/-- PWR.SET_INDICATOR (R122): a slot of 24 or more is out of range. -/
def deskPwrSetIndicator (p : Packet) (s : State) : Desk :=
    let k := bits 4 0 (p.w 2)
    guardParam (clean (mask 4 0 ||| mask 9 8) (p.w 2) && decide (k < 24)) s fun s =>
      okay (onSlot k (fun x => { x with locate := bit 8 (p.w 2), fault := bit 9 (p.w 2) }) s)

/-- PWR.SET_INDICATOR (R122): a slot of 24 or more is out of range. -/
def execPwrSetIndicator (p : Packet) (s : State) : Out := letter 0x0107 1 p s (deskPwrSetIndicator p)

/-- PWR.GET_FEEDS (Table 3.11). -/
def deskPwrGetFeeds (_p : Packet) (s : State) : Desk :=
    let age := match s.res.lastTest with | none => 0xFFFFFFFF | some t => (s.clk.aon - t) / sec
    answer [fld 15 0 s.fe.f1.mv ||| fld 31 16 s.fe.f2.mv, fld 15 0 s.fe.f1.cur ||| fld 31 16 s.fe.f2.cur,
      fld 15 0 s.res.usable ||| flag 16 s.res.low ||| flag 17 s.fe.f1.good ||| flag 18 s.fe.f2.good, word age] s

/-- PWR.GET_FEEDS (Table 3.11). -/
def execPwrGetFeeds (p : Packet) (s : State) : Out := letter 0x0108 0 p s (deskPwrGetFeeds p)

end Sys2Proof.Machine
end

