-- ==== Sys2Proof/Machine/Ports.lean ====
section
/-! DEFINITION. The drive ports: links, controller initialisation, drive admin, and the commands of the DRV desk (chapter 13). -/
namespace Sys2Proof.Machine

/-! ## Links (R609–R620) -/

/-- R617: a training attempt, every 100 ms while the slot is ON. -/
def execDriveTrainingAttempt (slot : Nat) (s : State) : Out :=
  .next (
    let p := s.port slot
    if slot < 24 && slotOn s slot && (p.st = .training || p.st = .recovery) && p.pulse.isNone && due p.trainAt s.clk.now then
      onPort slot (fun p => { p with trainAt := p.trainAt + 100 * ms }) s
    else s)

/-- The port sets the Max Payload Size to the lesser of 512 bytes and the drive's capability, enables 10-bit tags where the drive supports
them, and leaves ASPM, ATS, ACS and peer-to-peer disabled (R612); BAR0, memory space and bus mastering are given with it (R621 step 2). -/
def configPort (slot mps : Nat) (tag10 : Bool) (s : State) : State :=
  send { kind := .driveConfig, a := slot, b := min 512 mps, ws := [flag 0 tag10 ||| flag 1 false] }
    (onPort slot (fun p => { p with mps := min 512 mps, tag10 := tag10, aspm := false }) s)

/-- R609–R614, R621: a link comes up: steps 1 and 2 of the initialisation, and the start of step 3. `classOk` is step 1's class
code, `capTo` the drive's CAP.TO in ns, `mqes` its CAP.MQES, `mps` the Max Payload Size that it supports, in bytes. -/
def execDriveLinkUp (slot speed width : Nat) (flit classOk : Bool) (capTo mqes mps : Nat) (tag10 : Bool) (s : State) : Out :=
  .next (
    let p := s.port slot
    if !(slot < 24 && slotOn s slot && (p.st = .training || p.st = .recovery) && p.pulse.isNone) then s
    else if speed < 3 || p.maxSpeed < speed || width = 0 || 2 < width || (speed = 6 && !flit) then s
    else
      let s := raise 576 (fld 4 0 slot) (onPort slot (fun p => { p with speed := speed, width := width, flit := flit, linked := true, downAt := none, capTo := capTo, mqes := mqes }) s)
      let s := doIf (speed < p.minSpeed || width = 1) (raise 578 (fld 4 0 slot)) s
      let s := configPort slot mps tag10 s
      if classOk then beginInit slot s else initFail slot (onPort slot (fun p => { p with st := .init }) s))

/-- A port's data link goes down (R618). -/
def driveDown (slot : Nat) (s : State) : State :=
  let p := s.port slot
  if slot < 24 && (p.st = .init || p.st = .ready || p.st = .unusable) then
    driveLaneFault slot (raise 577 (fld 4 0 slot) (count1 (4608 + slot) (linkGone slot .recovery s)))
  else s

/-- R618: the data link goes down. DEDUCED (log 92, unsafe). -/
def execDriveLinkDown (slot : Nat) (s : State) : Out := .next (driveDown slot s)

/-- R619: a member's port has been without link for DOWNMAX. -/
def execDownmaxExpiry (slot : Nat) (s : State) : Out :=
  .next (match (s.port slot).downAt with
    | none => s
    | some t => if due (t + (s.port slot).downmax * 100 * ms) s.clk.now then ejectSlot slot 1 s else s)

/-- R615: the correctable errors of a second; beyond CERRMAX the link is directed into Recovery. -/
def execDriveLinkRetrain (slot errors : Nat) (s : State) : Out :=
  .next (
    let p := s.port slot
    if 24 ≤ slot || p.speed = 0 then s
    else
      let s := count (4632 + slot) errors (onPort slot (fun p => { p with cerr := errors }) s)
      if p.cerrmax < errors then raise 579 (fld 4 0 slot) (count1 (4656 + slot) (send { kind := .linkRetrain, a := slot } s)) else s)

/-! ## Initialisation (R621–R623) -/

/-- R621 step 3: a CSTS.RDY wait reaches its bound. -/
def execCstsWaitTimeout (slot : Nat) (s : State) : Out :=
  .next (match (s.port slot).wantAt with
    | some t => if (s.port slot).st = .init && due t s.clk.now then initFail slot s else s
    | none => s)

/-- R621 steps 3 and 4: CSTS.RDY reaches the awaited value: CC.EN is set, or Kumel identifies the drive, once it runs. -/
def execDriveCstsReady (slot : Nat) (s : State) : Out :=
  .next (
    let p := s.port slot
    if p.st != .init || p.wantAt.isNone then s
    else if !p.want then onPort slot (fun p => { p with want := true, wantAt := some (s.clk.now + min p.capTo (60 * sec)) }) s
    else identifyDrive slot (onPort slot (fun p => { p with wantAt := none, step := 4 }) s))

/-- The first requirement of Table 13.2 that a drive fails, before its queues are allocated; 0 where it meets all. DEDUCED (log 90, unsafe). -/
def requirement (s : State) (mqes : Nat) (d : DriveInfo) : Nat :=
  if !d.nvme14 then 1
  else if !d.nsid1 then 2
  else if d.blocks * 4096 < 64 * GiB || 262144 * GiB < d.blocks * 4096 then 3
  else if d.fmt.isNone then 4
  else if mqes < 255 then 5
  else if d.mdtsKib ≠ 0 && d.mdtsKib < 64 then 6
  else if pairedShelf s && !d.dual then 7
  else 0

/-- The drive fails a requirement: UNUSABLE (R623). -/
def failReq (k code : Nat) (s : State) : State :=
  raise 582 (fld 4 0 k ||| fld 11 8 code) (onPort k (fun p => { p with st := .unusable, step := 0, reqfail := code }) s)

/-- R621, R639, R640: a drive admin command completes. DESIGN CHOICE (log 239, safe). -/
def adminDone (slot : Nat) (d : AdminDone) (s : State) : State :=
  let p := s.port slot
  let kind := match d with | .identify _ => 1 | .setFeatures _ => 2 | .queuesCreated _ => 3 | .idRecord _ => 4 | .format _ => 5 | .log _ _ => 6
  match p.admin.find? fun a => a.kind = kind with
  | none => s
  | some a =>
    let s := onPort slot (fun p => { p with admin := p.admin.erase a }) s
    match d with
    | .identify i =>
      let s := onPort slot (fun p => { p with info := some i }) s
      match requirement s p.mqes i with
      | 0 =>
        let s := doIf i.vwcPresent (send { kind := .driveAdmin, a := slot, b := 7 }) s
        let s := doIf (i.vwcPresent && !i.vwcOff) (raise 582 (fld 4 0 slot ||| fld 11 8 8)) s
        adminTo slot 2 0 0 [word p.useQ] (onPort slot (fun p => { p with step := 5, reqfail := if i.vwcPresent && !i.vwcOff then 8 else 0 }) s)
      | c => failReq slot c s
    | .setFeatures n =>
      if n < 8 then failReq slot 5 s
      else adminTo slot 3 0 0 [word (min p.useQ n)] (onPort slot (fun p => { p with step := 6, built := min p.useQ n, depth := min 1024 (p.mqes + 1) }) s)
    | .queuesCreated ok =>
      if !ok then initFail slot (onPort slot (fun p => { p with built := 0, depth := 0 }) s)
      else
        let s := raise 580 (fld 4 0 slot) (count1 4800 (onPort slot (fun p => { p with st := .ready, step := 7, fails := 0 }) s))
        placeReady slot (adminTo slot 4 0 0 [] s)
    | .idRecord r =>
      let s := onPort slot (fun p => { p with id := r }) s
      if inCharge s then classifyDrive slot s else s
    | .format ok =>
      let s := finish (fun r => r.op = 0x0905 && r.key = slot) 586 (if ok then stOk else stHwFault) (fld 4 0 slot ||| fld 11 8 (if ok then 0 else 1)) s
      beginInit slot (onPort slot (fun p => { p with fmtDo := none, id := if ok then none else p.id }) s)
    | .log st ws => if st = 0 then post a.door a.tag false stOk ws s else post a.door a.tag false stHwFault [fld 15 0 st] s

/-- R621: a drive admin command completes and initialisation or admin work proceeds. -/
def execDriveAdminCompletion (slot : Nat) (d : AdminDone) (s : State) : Out := .next (if 24 ≤ slot then s else adminDone slot d s)

/-- R633: a drive admin command exceeds its timeout and is aborted; the queue engine's own creation of queues then fails. DESIGN CHOICE (log 89, unsafe). -/
def execDriveAdminTimeout (slot : Nat) (s : State) : Out :=
  .next (match (s.port slot).admin.find? fun a => due a.due s.clk.now with
    | none => s
    | some a =>
      let s := raise 583 (fld 4 0 slot) (count1 4802 (send { kind := .driveAdmin, a := slot, b := 8, c := a.kind } (onPort slot (fun p => { p with admin := p.admin.erase a }) s)))
      match a.kind with
      | 3 => initFail slot s
      | 5 => finish (fun r => r.op = 0x0905 && r.key = slot) 586 stHwFault (fld 4 0 slot ||| fld 11 8 1) s
      | 6 => post a.door a.tag false stHwFault [0] s
      | _ => s)

/-- R632: 10 ms into a drive reset SLPERST_N is released, but not before 100 ms after power good (R84). -/
def execDriveResetRelease (slot : Nat) (s : State) : Out :=
  .next (match (s.port slot).pulse with
    | none => s
    | some t => if due t s.clk.now && due (s.slot slot).rstDue s.clk.aon && slotOn s slot then portReleased slot (setReset slot true s) else s)

/-! ## Commands (R635–R640) -/

/-- DRV.SET_PORT (R636, Table 13.6). -/
def deskDrvSetPort (p : Packet) (s : State) : Desk :=
  let mx := bits 2 0 (p.w 3)
  let mn := bits 5 3 (p.w 3)
  let q := bits 12 6 (p.w 3)
  let o := bits 29 13 (p.w 3)
  let a := bits 9 0 (p.w 4)
  let d := bits 16 10 (p.w 4)
  let c := bits 31 17 (p.w 4)
  guardParam (clean (mask 23 0) (p.w 2) && clean (mask 29 0) (p.w 3) && p.w 2 != 0 && decide (3 ≤ mx) && decide (mx ≤ 6) && decide (3 ≤ mn) && decide (mn ≤ mx)
      && decide (8 ≤ q) && decide (q ≤ 64) && decide (1 ≤ o) && decide (o ≤ 65536) && decide (1 ≤ a) && decide (a ≤ 600) && decide (1 ≤ d) && decide (d ≤ 100) && decide (1 ≤ c)) s fun s =>
    okay (forAll (setBits 24 (p.w 2).toNat) (fun k s => placeReady k (onPort k (fun x =>
      { x with maxSpeed := mx, minSpeed := mn, queues := q, outmax := o, adminto := a, downmax := d, cerrmax := c }) s)) s)

/-- DRV.SET_PORT (R636). -/
def execDrvSetPort (p : Packet) (s : State) : Out := letter 0x0901 3 p s (deskDrvSetPort p)

/-- The code of a port state (Table 13.1). -/
def PortSt.code : PortSt → Nat
  | .off => 0 | .training => 1 | .init => 2 | .ready => 3 | .unusable => 4 | .failed => 5 | .recovery => 6

/-- Commands outstanding on a slot's drive. -/
def placedAt (s : State) (slot : Nat) : Nat := tabCount s.drv.cmds fun _ d => d.slot = slot && d.tag.isSome && d.answer.isNone

/-- DRV.GET_PORT (Table 13.7). -/
def deskDrvGetPort (p : Packet) (s : State) : Desk :=
  let k := bits 4 0 (p.w 2)
  guardParam (clean (mask 4 0) (p.w 2) && decide (k < 24)) s fun s =>
    let x := s.port k
    let b := if x.st = .ready then x.built else 0
    answer [fld 2 0 x.st.code ||| fld 5 3 x.speed ||| fld 7 6 x.width ||| flag 8 x.flit ||| fld 12 9 x.reqfail, fld 6 0 b ||| fld 17 7 (if x.st = .ready then x.depth else 0),
      fld 16 0 (placedAt s k), word x.cerr] s

/-- DRV.GET_PORT (Table 13.7). -/
def execDrvGetPort (p : Packet) (s : State) : Out := letter 0x0902 1 p s (deskDrvGetPort p)

/-- DRV.GET_DRIVE (R637, Table 13.8). -/
def deskDrvGetDrive (p : Packet) (s : State) : Desk :=
  let k := bits 4 0 (p.w 2)
  guardParam (clean (mask 4 0) (p.w 2) && decide (k < 24)) s fun s =>
    let x := s.port k
    match (if x.st = .ready || x.st = .unusable then x.info else none) with
    | none => deny stNotFound s
    | some d => answer ([fld 15 0 d.vid ||| fld 16 16 (d.fmt.getD 0) ||| flag 17 d.dual ||| flag 18 (d.vwcPresent && !d.vwcOff)] ++ words2 d.blocks
        ++ (List.range 2).map (wordAt d.fr) ++ (List.range 3).map (wordAt d.sn)) s

/-- DRV.GET_DRIVE (R637). -/
def execDrvGetDrive (p : Packet) (s : State) : Out := letter 0x0903 1 p s (deskDrvGetDrive p)

/-- DRV.RESET_DRIVE (R638). -/
def deskDrvResetDrive (p : Packet) (s : State) : Desk :=
  let k := bits 4 0 (p.w 2)
  let held := match memberAt s k with | some (i, m) => (match s.vset i with | some v => !(v.mem m).st.out | none => false) | none => false
  guardParam (clean (mask 4 0 ||| mask 8 8) (p.w 2) && decide (k < 24)) s fun s =>
  check (!held || bit 8 (p.w 2)) stConflict s fun s =>
  check (slotOn s k) stNotFound s fun s =>
    let s := if held then (match memberAt s k with | some (i, m) => loseMember i m 5 s | none => s) else s
    okay (raise 585 (fld 4 0 k) (pulseReset k (onPort k (fun x => { x with fails := 0 }) s)))

/-- DRV.RESET_DRIVE (R638). -/
def execDrvResetDrive (p : Packet) (s : State) : Out := letter 0x0904 1 p s (deskDrvResetDrive p)

/-- DRV.FORMAT_DRIVE (R639). -/
def deskDrvFormatDrive (p : Packet) (s : State) : Desk :=
  let k := bits 4 0 (p.w 2)
  let x := s.port k
  guardParam (clean (mask 4 0 ||| mask 10 8) (p.w 2) && decide (k < 24) && decide (bits 10 9 (p.w 2) ≤ 1)) s fun s =>
  check ((memberAt s k).isNone && !tabHas s.vol.spares k) stConflict s fun s =>
  check (x.st = .ready || (x.st = .unusable && decide (4 ≤ x.reqfail))) stNotFound s fun s =>
    (stAccepted, [], accept p 0x0905 k 0 (adminTo k 5 p.door p.tag [p.w 2] (onPort k (fun x => { x with fmtDo := some (bits 8 8 (p.w 2)) }) s)))

/-- DRV.FORMAT_DRIVE (R639). -/
def execDrvFormatDrive (p : Packet) (s : State) : Out := letter 0x0905 1 p s (deskDrvFormatDrive p)

/-- DRV.READ_LOG (R640). DESIGN CHOICE (log 93, unsafe). -/
def deskDrvReadLog (p : Packet) (s : State) : Desk :=
  let k := bits 4 0 (p.w 2)
  let n := bits 10 0 (p.w 4)
  guardParam (clean (mask 4 0 ||| mask 15 8) (p.w 2) && clean (mask 10 0) (p.w 4) && decide (k < 24) && decide (1 ≤ n) && decide (n ≤ 1024)) s fun s =>
  check ((s.port k).st = .ready || (s.port k).st = .unusable) stNotFound s fun s =>
    (stWithheld, [], adminTo k 6 p.door p.tag [p.w 2, p.w 3, p.w 4] s)

/-- DRV.READ_LOG (R640). -/
def execDrvReadLog (p : Packet) (s : State) : Out := letter 0x0906 3 p s (deskDrvReadLog p)

end Sys2Proof.Machine
end

