-- ==== Sys2Proof/Machine/Rebuild.lean ====
section
/-! DEFINITION. The rows of the background passes of the set engine: initialisation, rebuild, resync and patrol (R463, R581–R588,
R596–R600), and the commands of the RED desk (R602–R606). -/
namespace Sys2Proof.Machine

/-! ## Rows of the passes -/

/-- The first stripe from a watermark on that no pass of some kind has taken yet. -/
def nextStripe (wm : Nat) (ps : List (Nat × Pass)) : Nat := ps.foldl (fun a e => max a (e.2.stripe + 1)) wm

/-- R463: the initialisation pass takes its next stripe, within RBDEPTH and RBRATE: the data strips are read, in S4. -/
def execInitStripe (set_ : Nat) (s : State) : Out :=
  .next (match s.vset set_ with
    | none => s
    | some v =>
      let ps := passesOf s set_ .init
      let n := nextStripe v.initWm ps
      if !actsForShelf s || v.st != .initialising || v.stripes ≤ n || v.rbDepth ≤ ps.length || !due v.rbAt s.clk.now || !passMay s set_ n then s
      else
        let keys := (List.range (dataStrips v)).flatMap fun j => (List.range (stripBlks v)).map fun b => blkKey (dataMember v n j) b
        let pars := if v.type = 3 then 2 else 1
        startPass { kind := .init, set := set_, stripe := n, want := keys } 4
          (onSet set_ (fun v => { v with rbAt := paceAt s.clk.now v.rbAt v.rbRate (pars * stripBytes v) }) s))

/-- R581, R586: a rebuild takes its next stripe, within RBDEPTH and RBRATE, for every target of its watermark. -/
def execRebuildStripe (set_ member : Nat) (s : State) : Out :=
  .next (match s.vset set_ with
    | none => s
    | some v =>
      let ms := (membersIn v fun x => x = .rebuilding).filter fun m => decide ((v.mem m).wm = (v.mem member).wm)
      let ps := passesOf s set_ .rebuild
      let n := nextStripe (v.mem member).wm (ps.filter fun e => e.2.targets.any ms.contains)
      if !inCharge s || v.st = .offline || (v.mem member).st != .rebuilding || v.stripes ≤ n || v.rbDepth ≤ ps.length || !due v.rbAt s.clk.now
          || !passMay s set_ n then s
      else
        startPass { kind := .rebuild, set := set_, stripe := n, targets := ms, want := (ms.flatMap (sourceKeys s v n)).eraseDups } 4
          (onSet set_ (fun v => { v with rbAt := paceAt s.clk.now v.rbAt v.rbRate (ms.length * stripBytes v) }) s))

/-- R600: a resync takes the member's lowest marked region, all its stripes; with no mark left it ends. -/
def execResyncRegion (set_ member : Nat) (s : State) : Out :=
  .next (match s.vset set_ with
    | none => s
    | some v =>
      if !inCharge s || v.st = .offline || (v.mem member).st != .resyncing || (passesOf s set_ .resync).any fun e => e.2.targets.contains member then s
      else match (match (v.mem member).log with | some k => (tabGet {} v.logs k : LogSlot).bits | none => []) with
        | [] => resyncDone set_ member s
        | r0 :: rs =>
          let r := rs.foldl min r0
          let per := 1048576 / stripBytes v
          let ns := ((List.range per).map (r * per + ·)).filter fun n => n < v.stripes
          if ns.isEmpty then regionDone set_ member r s
          else if !ns.all (passMay s set_) then s
          else forAll ns (fun n s => startPass { kind := .resync, set := set_, stripe := n, targets := [member], want := sourceKeys s v n member } 4 s) s)

/-- R596, R597: the patrol round takes the stripe at its position, within PATRATE: every strip is read in S6, with the tag zone entries of
its Sealed blocks of 512 bytes. -/
def execPatrolStripe (set_ : Nat) (s : State) : Out :=
  .next (match s.vset set_ with
    | none => s
    | some v =>
      let n := v.patWm
      if !inCharge s || s.md.patrolPaused || v.patRate = 0 || v.st != .optimal || v.stripes ≤ n || v.initWm ≤ n || !due v.patAt s.clk.now
          || !passMay s set_ n then s
      else
        let tz := ((List.range (dataStrips v)).flatMap fun j => (List.range (stripBlks v)).filterMap fun b => (tzAt s set_ v n j b).map fun t => (t.1, t.2.2)).eraseDups
        let keys := (List.range v.width).flatMap fun m => (List.range (stripBlks v)).map (blkKey m)
        let p := s.drv.passSeq + 1
        let s := onSet set_ (fun v => { v with patAt := paceAt s.clk.now v.patAt v.patRate (v.width * stripBytes v) }) s
        let s := startPass { kind := .patrol, set := set_, stripe := n, want := keys } 6 s
        forAll tz (fun t s => (readStrip set_ v t.2.1 (dataMember v t.2.1 t.2.2.1) t.2.2.2 1 6 2048 (.pass p (tzPassKey t.1))
          (onPass p (fun x => { x with want := x.want ++ [tzPassKey t.1] }) s)).2) s)

/-- R557: identity records are written at least every 10 s while a watermark has moved. -/
def execIdentityRecordWrite (set_ : Nat) (s : State) : Out :=
  .next (match s.vset set_ with
    | none => s
    | some v => if actsForShelf s && v.idMoved && v.idWait.isNone && due (v.idAt + 10 * sec) s.clk.now then writeIds set_ s else s)

/-! ## Commands (R602–R606) -/

/-- The set that a command names (R602). -/
def withSet (i : Nat) (s : State) (k : VSet → State → Desk) : Desk :=
  match s.vset i with | none => deny stNotFound s | some v => k v s

/-- Members that a new ABSENTWAIT finds missing for longer fire their triggers (R603, R579). -/
def fireOverdue (i a : Nat) (v : VSet) (s : State) : State :=
  forAll (List.range v.width) (fun m s =>
    let x := v.mem m
    if x.st = .absent && !x.fired && due (x.since + a * 60 * sec) s.clk.now then fireTrigger i m s else s) s

/-- RED.SET_POLICY (R603, Table 12.13). -/
def deskRedSetPolicy (p : Packet) (s : State) : Desk :=
  let i := bits 4 0 (p.w 2)
  let h := bits 17 8 (p.w 2)
  let a := bits 29 24 (p.w 2)
  let d := bits 24 16 (p.w 3)
  guardParam (clean (mask 4 0 ||| mask 17 8 ||| mask 30 24) (p.w 2) && clean (mask 24 0) (p.w 3) && clean (mask 15 0) (p.w 4)
      && decide (h ≤ 1000) && decide (a ≤ 60) && decide (1 ≤ d) && decide (d ≤ 256)) s fun s =>
  withSet i s fun v s =>
    let s := onSet i (fun v => { v with hedge := h, absentWait := a, autoReplace := bit 30 (p.w 2), rbRate := bits 15 0 (p.w 3), rbDepth := d, patRate := bits 15 0 (p.w 4) }) s
    okay (fireOverdue i a v s)

/-- RED.SET_POLICY (R603). -/
def execRedSetPolicy (p : Packet) (s : State) : Out := letter 0x0801 3 p s (deskRedSetPolicy p)

/-- A share of a whole, percent. -/
def pct (x n : Nat) : Nat := if n = 0 then 100 else x * 100 / n

/-- RED.GET_HEALTH (Table 12.14). -/
def deskRedGetHealth (p : Packet) (s : State) : Desk :=
  guardParam (clean (mask 4 0) (p.w 2)) s fun s =>
  withSet (bits 4 0 (p.w 2)) s fun v s =>
    let run := (List.range v.width).filterMap fun m => match (v.mem m).st with
      | .rebuilding => some (pct (v.mem m).wm v.stripes)
      | .resyncing => some (pct (v.mem m).wm (v.stripes * stripBytes v / 1048576))
      | _ => none
    let low := match run with | [] => 0 | x :: xs => xs.foldl min x
    answer [fld 2 0 v.st.code ||| fld 5 3 v.cause ||| fld 10 6 (membersIn v fun x => x.out || x = .rebuilding).length
        ||| fld 15 11 (membersIn v fun x => x = .resyncing).length ||| fld 22 16 low ||| fld 30 24 (pct v.patWm v.stripes),
      word v.gen, fld 20 0 v.bad.length, word v.laps, word v.lapTime, word v.mism] s

/-- RED.GET_HEALTH (Table 12.14). -/
def execRedGetHealth (p : Packet) (s : State) : Out := letter 0x0802 1 p s (deskRedGetHealth p)

/-- RED.GET_MEMBER (Table 12.15). -/
def deskRedGetMember (p : Packet) (s : State) : Desk :=
  guardParam (clean (mask 4 0 ||| mask 12 8) (p.w 2)) s fun s =>
  withSet (bits 4 0 (p.w 2)) s fun v s =>
  guardParam (decide (bits 12 8 (p.w 2) < v.width)) s fun s =>
    let x := v.mem (bits 12 8 (p.w 2))
    let d := s.port (x.slot.getD 24)
    let win := d.lat.filter fun e => decide (s.clk.now < e.1 + 60 * sec)
    let hist := decide (10000 ≤ win.length) && decide (d.histAt + 60 * sec ≤ s.clk.now)
    answer [fld 2 0 x.st.code ||| fld 7 3 (x.slot.getD 31) ||| flag 8 hist ||| fld 11 9 x.reason ||| fld 13 12 (x.log.getD 0) ||| flag 14 x.log.isSome,
      fld 12 0 d.timeout, word d.p999, word win.length, word x.wm] s

/-- RED.GET_MEMBER (Table 12.15). -/
def execRedGetMember (p : Packet) (s : State) : Out := letter 0x0803 1 p s (deskRedGetMember p)

/-- The identity record of a drive that is designated by command is erased, and the indices that last held its slot forget it
(R604). -/
def eraseId (k : Nat) (s : State) : State :=
  let s := send { kind := .idRecord, a := k, b := 0 } (send { kind := .idRecord, a := k, b := 524288 } s)
  let s := onPort k (fun x => { x with id := none, foreign := false }) s
  s.onVol fun v => { v with sets := tabMap v.sets fun _ x => { x with members := tabMap x.members fun _ m => if m.st.out && m.slot = some k then { m with slot := none } else m } }

/-- RED.SET_SPARE (R604). -/
def deskRedSetSpare (p : Packet) (s : State) : Desk :=
  let k := bits 4 0 (p.w 2)
  let d := s.port k
  guardParam (clean (mask 4 0 ||| mask 9 8) (p.w 2) && decide (k < 24)) s fun s =>
    if bit 8 (p.w 2) then okay (s.onVol fun v => { v with spares := tabDel v.spares k })
    else check (memberAt s k).isNone stConflict s fun s =>
      check (slotOn s k && enumerated s k) stNotFound s fun s =>
      check (d.id.isNone || bit 9 (p.w 2)) stConflict s fun s =>
        let s := if d.id.isSome then eraseId k s else s
        let serial := match d.info with | some i => i.serial | none => 0
        let s := shadow .stateWrite 8 (32 + k) (s.onVol fun v => { v with spares := tabIns v.spares k ⟨(p.w 3).toNat, serial⟩ })
        okay (if inCharge s then forAll (s.vol.sets.map (·.1)) startMissing s else s)

/-- RED.SET_SPARE (R604). -/
def execRedSetSpare (p : Packet) (s : State) : Out := letter 0x0804 2 p s (deskRedSetSpare p)

/-- The set and member that a command of R605 names. -/
def withMember (p : Packet) (used : Word) (s : State) (k : Nat → Nat → VSet → State → Desk) : Desk :=
  guardParam (clean (mask 4 0 ||| mask 12 8 ||| used) (p.w 2)) s fun s =>
  withSet (bits 4 0 (p.w 2)) s fun v s =>
  guardParam (decide (bits 12 8 (p.w 2) < v.width)) s fun s => k (bits 4 0 (p.w 2)) (bits 12 8 (p.w 2)) v s

/-- The ejection of a member would take its set OFFLINE (R590). -/
def ejectOffline (v : VSet) (m : Nat) : Bool :=
  (v.mem m).st != .rebuilding && decide (v.st ≠ .offline) && decide (tolerance v < lostMost { v with members := tabMod {} v.members m fun x => { x with st := .ejected } })

/-- RED.EJECT_MEMBER (R605). -/
def deskRedEjectMember (p : Packet) (s : State) : Desk :=
  withMember p (mask 24 24) s fun i m v s =>
  check (!(v.mem m).st.out) stConflict s fun s =>
  check (bit 24 (p.w 2) || !ejectOffline v m) stConflict s fun s => okay (loseMember i m 5 s)

/-- RED.EJECT_MEMBER (R605). -/
def execRedEjectMember (p : Packet) (s : State) : Out := letter 0x0805 1 p s (deskRedEjectMember p)

/-- RED.READMIT (R605). -/
def deskRedReadmit (p : Packet) (s : State) : Desk :=
  withMember p 0 s fun i m v s =>
    match (if (v.mem m).st = .ejected then slotOfIndex s i m none else none) with
    | none => deny stConflict s
    | some k => match (s.port k).id with
      | some r => okay (returning i m k r s)
      | none => deny stConflict s

/-- RED.READMIT (R605). -/
def execRedReadmit (p : Packet) (s : State) : Out := letter 0x0806 1 p s (deskRedReadmit p)

/-- RED.START_REBUILD (R605). DEDUCED (log 97, unsafe). -/
def deskRedStartRebuild (p : Packet) (s : State) : Desk :=
  withMember p (mask 20 16) s fun i m v s =>
    let k := bits 20 16 (p.w 2)
    check (v.mem m).st.out stConflict s fun s =>
    guardParam (qualifies s v k) s fun s =>
      (stAccepted, [], accept p 0x0807 i m (onMember i m (fun x => { x with wish := some k, fired := true }) s))

/-- RED.START_REBUILD (R605). -/
def execRedStartRebuild (p : Packet) (s : State) : Out := letter 0x0807 1 p s (deskRedStartRebuild p)

/-- Entries for a whole missing member from a stripe on, each of at most 16,777,215 stripes (R592). -/
def wholeEntries (m cnt : Nat) : Nat → Nat → Nat → List BadRange
  | 0, _, _ => []
  | fuel + 1, at_, left => if left = 0 then [] else
      ⟨at_, min left 16777215, m, 0, cnt, 2⟩ :: wholeEntries m cnt fuel (at_ + min left 16777215) (left - min left 16777215)

/-- A set is brought online with holes (R592): whole missing members are entered where they exceed tolerance, and destages that
waited go on. DEDUCED (log 86, unsafe). -/
def forceOnline (i : Nat) (v : VSet) (s : State) : State :=
  let gone := (List.range v.width).filter fun m => (v.mem m).st.out || (v.mem m).st = .rebuilding
  let from_ := fun (m : Nat) => if (v.mem m).st = .rebuilding then (v.mem m).wm else 0
  let tooFar := decide (tolerance v < lostMost v)
  let es := if !tooFar then [] else if isMirror v then wholeEntries 0 (stripBlks v) 65536 0 v.stripes
    else gone.flatMap fun m => wholeEntries m (stripBlks v) 65536 (from_ m) (v.stripes - from_ m)
  let s := onSet i (fun v => { v with holes := true, cause := v.cause }) s
  let run := (membersIn v fun x => x = .rebuilding || x = .resyncing)
  let s := setSt i (if !run.isEmpty then .rebuilding else if gone.isEmpty then .optimal else .degraded) s
  let s := forAll es (addBad i) s
  let stuck := (s.wbf.recs.filter fun e => e.2.set = i && e.2.stage = 1 &&
    !(tabAny s.drv.cmds fun _ c => match c.use with | .dest j _ => j = e.1 | _ => false) && !(tabAny s.drv.recons fun _ r => match r.use with | .dest j _ => j = e.1 | _ => false)).map (·.1)
  settleCmds (forAll stuck issueReads s)

/-- RED.FORCE_ONLINE (R592, R605). -/
def deskRedForceOnline (p : Packet) (s : State) : Desk :=
  withMember p 0 s fun i _ v s => check (v.st = .offline) stConflict s fun s => okay (forceOnline i v s)

/-- RED.FORCE_ONLINE (R592, R605). -/
def execRedForceOnline (p : Packet) (s : State) : Out := letter 0x0808 1 p s (deskRedForceOnline p)

/-- The words of a bad-range entry (Table 12.8). -/
def BadRange.toWords (e : BadRange) : List Word :=
  [word e.stripe, fld 7 0 (e.stripe >>> 32) ||| fld 31 8 e.nstripes, fld 4 0 e.member ||| fld 11 6 e.first ||| fld 18 12 e.count, fld 2 0 e.cause]

/-- RED.READ_BAD_RANGES (R606). -/
def deskRedReadBadRanges (p : Packet) (s : State) : Desk :=
  guardParam (clean (mask 4 0) (p.w 2) && clean (mask 20 0) (p.w 3)) s fun s =>
  withSet (bits 4 0 (p.w 2)) s fun v s =>
    let es := (v.bad.drop (bits 20 0 (p.w 3))).take 8
    answer ([fld 20 0 v.bad.length, fld 3 0 es.length] ++ es.flatMap BadRange.toWords) s

/-- RED.READ_BAD_RANGES (R606). -/
def execRedReadBadRanges (p : Packet) (s : State) : Out := letter 0x0809 2 p s (deskRedReadBadRanges p)

/-- RED.CLEAR_BAD_RANGES (R606). -/
def deskRedClearBadRanges (p : Packet) (s : State) : Desk :=
  guardParam (clean (mask 4 0) (p.w 2)) s fun s =>
  withSet (bits 4 0 (p.w 2)) s fun v s =>
    answer [word v.bad.length] (s.onVol fun d => { d with deltas := d.deltas.or (some s.clk.now), sets := tabUpd d.sets (bits 4 0 (p.w 2)) fun v => { v with bad := [] } })

/-- RED.CLEAR_BAD_RANGES (R606). -/
def execRedClearBadRanges (p : Packet) (s : State) : Out := letter 0x080A 1 p s (deskRedClearBadRanges p)

end Sys2Proof.Machine
end

