-- ==== Sys2Proof/Machine/Key.lean ====
section
/-! DEFINITION. The KEY desk (chapter 14): key slots, the key-encryption key, destruction and rotation, the entropy source's
faults, the cores' self-test and the nonce reservations. -/
namespace Sys2Proof.Machine

/-! ## Keys -/

/-- Words of a key in a mode: 1 XTS, 2 GCM (R668). -/
def keyWords (mode : Nat) : Nat := if mode = 1 then 16 else 8

/-- Draw a key from the DRBG (R684): free values. -/
def drawKey (mode : Nat) (s : State) : List Word × State :=
  let (a, s) := takeFree s
  if mode = 1 then
    let (b, s) := takeFree s
    (wordsOf 8 a.toNat ++ wordsOf 8 b.toNat, s)
  else (wordsOf 8 a.toNat, s)

/-- The two words of a check value (R672). -/
def kcvWords (key : List Word) : List Word := words2 (Config.kcv key)

/-- Put a key in a slot with a generation; a bound namespace records its check value and generation (R670, R672). -/
def loadKey (i mode gen : Nat) (key : List Word) (s : State) : State :=
  let s := onKslot i (fun _ => { st := if mode = 1 then .xts else .gcm, key := key, gen := gen }) s
  let s := doIf (bound s i) (onNs (i + 1) fun n => { n with kcv := Config.kcv key, kgen := gen }) s
  shadow .stateWrite 10 i s

/-- The mode of a slot's key: 1 XTS, 2 GCM, 0 none. -/
def KSlot.mode (k : KSlot) : Nat := match k.st with | .xts => 1 | .gcm | .rotating => 2 | .empty | .missing => 0

/-- The code of a slot's state (Table 14.6). -/
def KeySt.code : KeySt → Nat
  | .empty => 0 | .xts => 1 | .gcm => 2 | .rotating => 3 | .missing => 4

/-- The start orders of the started commands of a namespace. -/
def ordersOf (s : State) (nsid : Nat) : List Nat :=
  (s.nvm.tags.filter fun e => e.2.cmd.a.nsid = nsid && e.2.phase != .hold).map fun e => e.2.order

/-- Begin a slot's destruction (R677): its keys are zeroised once no started command uses them. `refill` fills it again for a
Format whose command `who` then completes (R678). -/
def destroySlot (i : Nat) (refill : Bool) (who : Option (Nat × Nat)) (s : State) : State :=
  onKslot i (fun k => { k with dying := true, users := ordersOf s (i + 1), refill := refill, who := who }) s

/-- A Format's slot is filled again with a key of the same mode, and the command ends (R678). -/
def refillSlot (slot : Nat) (k : KSlot) (s : State) : State :=
  let mode := k.mode
  let (key, s) := drawKey mode s
  let s := loadKey slot mode (if mode = 2 then k.gen + 1 else k.gen) key s
  let s := onKslot slot (fun x => { x with erasing := true }) s
  let s := restartHeld (onNs (slot + 1) (fun n => { n with held := false }) s)
  match k.who with | some w => completeOn w.1 w.2 .success 0 s | none => s

/-- R677, R678: no started command uses the slot's keys: they are zeroised. -/
def execKeyZeroise (slot : Nat) (s : State) : Out :=
  .next (
    let k := s.slotOf slot
    if !k.users.isEmpty || 4096 ≤ slot then s
    else if k.dying then
      if k.refill then refillSlot slot k s
      else shadow .stateWrite 10 slot (onKslot slot (fun _ => { erasing := true }) s)
    else if k.st = .gcm && !k.prev.isEmpty then onKslot slot (fun x => { x with prev := [], prevGen := 0 }) s
    else s)

/-- R677: the boot-flash and partner copies are erased; the last slot of a Sanitize ends it (R412). -/
def execKeyCopiesErased (slot : Nat) (s : State) : Out :=
  .next (if !(s.slotOf slot).erasing then s
    else
      let s := raise 641 (fld 11 0 slot) (send { kind := .keyErase, a := slot } (onKslot slot (fun x => { x with erasing := false }) s))
      match s.nvm.sanitize with
      | none => s
      | some l =>
        let l := l.erase slot
        if l.isEmpty then raise 327 0 (s.onNvm fun n => { n with sanitize := none, sanDone := true }) else s.onNvm fun n => { n with sanitize := some l })

/-! ## Rotation (R679–R681) -/

/-- Namespace blocks that a namespace's backed parcels hold. -/
def backedBlks (n : Ns) : Nat := backed n * perParcel n

/-- The first block at or after `pos` in a written extent, in index order. -/
def nextWritten (n : Ns) (pos : Nat) : Option Nat :=
  let es := n.map.flatMap fun l => (setBits 1024 l.2.written).map (l.1 * 1024 + ·)
  (es.find? fun e => decide (pos < (e + 1) * perExtent n)).map fun e => max pos (e * perExtent n)

/-- The sweep ends (R681): the previous key is destroyed once no started command uses it. -/
def endSweep (i : Nat) (s : State) : State :=
  let s := onKslot i (fun k => { k with st := .gcm, users := ordersOf s (i + 1), sweep := 0, sweepRec := 0 }) s
  finish (fun r => r.op = 0x0A07 && r.key = i) 643 stOk (fld 11 0 i) (shadow .stateWrite 10 i s)

/-- Enter a rewritten block of the sweep in the buffer, with its tag zone entry (R680 step 3). -/
def enterSwept (nsid : Nat) (n : Ns) (lba : Nat) (b : PBlk) (s : State) : State :=
  let t := 2 ^ 30
  let s := claimPage t nsid n (lba / perSpan n) s
  match openPage s nsid (lba / perSpan n) with
  | none => s
  | some p =>
    let s := onPage p (fun x => { x with users := x.users.erase t }) s
    let s := shadow .mirrorWrite p lba (count 3584 (nsBlkBytes n) (putBlk p (lba % perSpan n) b s))
    if !usesTagZone n then s
    else match blockLoc s n lba with
      | none => s
      | some (i, v, x) =>
        let (tb, e, st, _, _) := tzPlace v x
        match tagPage i st tb s with
        | (some q, s) => shadow .mirrorWrite q e (putBlk q e b s)
        | (none, s) => s

/-- Some write-type command that started earlier has still to put its data at a block. -/
def writeAhead (s : State) (nsid lba : Nat) : Bool :=
  s.nvm.tags.any fun e => e.2.cmd.a.nsid = nsid && e.2.phase != .hold && writes e.2.cmd.op && !e.2.done && overlaps (writeRanges e.2.cmd) [(lba, 1)]

/-- The sweep's position passes a block. -/
def passSwept (slot lba : Nat) (s : State) : State := shadow .stateWrite 10 slot (onKslot slot (fun k => { k with sweep := lba + 1 }) s)

/-- A block that the sweep cannot read or whose tag does not verify is entered in the bad-range table and passed (R680). -/
def loseSwept (slot : Nat) (n : Ns) (lba : Nat) (s : State) : State :=
  match blockLoc s n lba with
  | none => passSwept slot lba s
  | some (i, v, x) =>
    let (st, j, b) := place v x
    passSwept slot lba (addBad i ⟨st, 1, dataMember v st j, b, 1, 1⟩ s)

/-- The sweep's read of a key slot's namespace, if one is under way. -/
def sweepPass (s : State) (slot : Nat) : Option (Nat × Pass) := s.drv.passes.find? fun e => e.2.kind = .sweep && e.2.first = slot

/-- The keys in a sweep's pass of the span's member block and of its tag zone block. -/
def sweepKey (tz : Bool) : Nat := if tz then 4097 else 4096

/-- The sweep reads the span of its next block in S4 (R680 step 1); destages of its stripe wait meanwhile, so that what is read stays what
the members hold. DEDUCED (log 247, unsafe). -/
def readSwept (slot : Nat) (n : Ns) (lba : Nat) (s : State) : State :=
  match blockLoc s n lba with
  | none => passSwept slot lba s
  | some (i, v, x) =>
    let (st, j, b) := place v x
    if v.st = .offline || !passMay s i st then s
    else
      let p := s.drv.passSeq + 1
      let y : Pass := { kind := .sweep, set := i, stripe := st, want := sweepKey false :: (if usesTagZone n then [sweepKey true] else []), block := lba / perSpan n, first := slot }
      let s := s.onDrv fun d => { d with passSeq := p, passes := tabIns d.passes p y }
      let s := (readStrip i v st (dataMember v st j) b 1 4 2048 (.pass p (sweepKey false)) s).2
      if !usesTagZone n then s
      else
        let (_, _, zs, zj, zb) := tzPlace v x
        (readStrip i v zs (dataMember v zs zj) zb 1 4 2048 (.pass p (sweepKey true)) s).2

/-- A block that the sweep read fails its tag: it is reconstructed once (R659), and then lost. -/
def sweepAgain (slot : Nat) (n : Ns) (lba : Nat) (s : State) : State :=
  match sweepPass s slot, blockLoc s n lba with
  | some (p, y), some (i, v, x) =>
    let (st, j, b) := place v x
    if y.count ≠ 0 then loseSwept slot n lba s
    else
      let t := onPass p (fun y => { y with count := 1, want := [sweepKey false], writing := false, done := false }) s
      let (ok, t) := startRecon i v st (dataMember v st j) b 1 4 2048 (.pass p (sweepKey false)) none false false [dataMember v st j] t
      if ok then t else loseSwept slot n lba s
  | _, _ => loseSwept slot n lba s

/-- A block stands in the bad-range table. -/
def sweptBad (s : State) (n : Ns) (lba : Nat) : Bool :=
  match blockLoc s n lba with
  | some (_, v, x) => let (st, j, b) := place v x; (badAt v st (dataMember v st j) b).isSome
  | none => false

/-- The sweep's visit of a block (R680): opened under the previous key, sealed under the present one and entered in the buffer; a block of
another generation is passed. -/
def sweepBlock (slot : Nat) (n : Ns) (lba : Nat) (read : Bool) (b : PBlk) (s : State) : State :=
  let nsid := slot + 1
  if b.nonce >>> 64 % 65536 != (s.slotOf slot).prevGen % 65536 then passSwept slot lba s
  else if b.poison then loseSwept slot n lba s
  else match openBlk nsid n lba b s with
    | (none, s) => if read then sweepAgain slot n lba s else loseSwept slot n lba s
    | (some h, s) => match sealBlk nsid n lba h (s.nvm.order + 1) s with
      | (none, s) => s
      | (some b, s) => passSwept slot lba (count1 5178 (enterSwept nsid n lba b (s.onNvm fun d => { d with order := d.order + 1 })))

/-- The sweep's next block (R680): the newest copy is taken from the buffer, or else from the members. -/
def sweepNext (slot : Nat) (n : Ns) (lba : Nat) (s : State) : State :=
  let k := lba % perSpan n
  let s := match sweepPass s slot with
    | some (p, y) => if y.done && y.block ≠ lba / perSpan n then dropPass p s else s
    | none => s
  match tabFind (bufferBlks s (slot + 1) (lba / perSpan n)) k with
  | some b => sweepBlock slot n lba false b s
  | none =>
    if sweptBad s n lba then passSwept slot lba s
    else match sweepPass s slot with
      | none => readSwept slot n lba s
      | some (_, y) =>
        if !y.done then s
        else match blockLoc s n lba with
          | none => passSwept slot lba s
          | some (_, v, x) =>
            let e := (tabGet Blk.zero y.got (sweepKey true)).d >>> (256 * (tzPlace v x).2.1) % 2 ^ 256
            sweepBlock slot n lba true (blkOfMember n k (tabGet Blk.zero y.got (sweepKey false)) e) s

/-- R680: the sweep visits the next block, once every write that started earlier has put its data. -/
def execRotationSweepStep (slot : Nat) (s : State) : Out :=
  .next (match s.nsOf (slot + 1) with
    | none => s
    | some n =>
      if (s.slotOf slot).st != .rotating || !actsForShelf s then s
      else match nextWritten n (s.slotOf slot).sweep with
        | none => endSweep slot (match sweepPass s slot with | some (p, _) => dropPass p s | none => s)
        | some lba => if writeAhead s (slot + 1) lba || pageCount < usedPages s + 2 then s else sweepNext slot n lba s)

/-- R681: the sweep position is recorded with the slot every 10 s. -/
def execSweepPositionRecord (slot : Nat) (s : State) : Out :=
  .next (
    let k := s.slotOf slot
    if k.st = .rotating && due (k.sweepAt + 10 * sec) s.clk.now then onKslot slot (fun k => { k with sweepRec := k.sweep, sweepAt := s.clk.now }) s
    else s)

/-! ## Entropy, self-tests and reservations -/

/-- R128, R685: the entropy health tests fail. -/
def execEntropyFault (s : State) : Out := .next (if s.md.entropyBad then s else raise 5 0 (s.onMd fun m => { m with entropyBad := true }))

/-- R685: the retest of every 60 s; a pass reseeds the DRBG. -/
def execEntropyRetest (pass : Bool) (s : State) : Out :=
  .next (if s.md.entropyBad && pass then raise 648 0 (s.onMd fun m => { m with entropyBad := false }) else s)

/-- R684: the DRBG is reseeded: its next values stay free. -/
def execDrbgReseed (s : State) : Out := .next (if s.md.entropyBad then s else { s with free := s.free + 1 })

/-- R647: the cores' known-answer tests, at Boot step 4 and then every 24 h; `failed` names those that fail. A TK-4824-B has no cipher. -/
def execCipherSelfTest (failed : List Nat) (s : State) : Out :=
  .next (if s.order ≠ 2 && (match s.key.testAt with | none => s.md.mode = .boot | some t => due (t + 86400 * sec) s.clk.now) then
      forAll (failed.filter fun c => c < 48 && !(s.core c).retired)
        (fun c s => raise 646 (fld 5 0 c) (onCore c (fun x => { x with retired := true }) s))
        (s.onKey fun k => { k with testAt := some s.clk.now })
    else s)

/-- R660–R662: the reservation that a core asked for is persisted and postmarked, and becomes live. -/
def execNonceReservationLive (core : Nat) (s : State) : Out :=
  .next (match (s.core core).ask with
    | none => s
    | some a =>
      if 48 ≤ core || !s.marked (s.core core).askSeq then s
      else
        let a := (a + 2 ^ 20 - 1) / 2 ^ 20 * 2 ^ 20
        let fin := a + 2 ^ 20
        let s := onCore core (fun x => { x with ctr := if x.ctr < x.stop then x.ctr else a, stop := fin, ask := none, askSeq := none, stalled := false }) s
        restartHeld (settleCmds (count1 5174 (s.onKey fun k => { k with ends := tabIns k.ends (48 * s.bay.bay + core) fin }))))

/-! ## Commands -/

/-- BUSY where the spec gives no retry-after hint: the hint is a free value. DEDUCED (log 103, safe). -/
def busyFree (s : State) : Desk :=
  let (v, s) := takeFree s
  (stBusy, [v.setWidth 32], s)

/-- KEY.GET_IDENTITY_KEY (R673, R687). -/
def deskKeyGetIdentityKey (_p : Packet) (s : State) : Desk := answer Config.identityKey s

/-- KEY.GET_IDENTITY_KEY (R673, R687). -/
def execKeyGetIdentityKey (p : Packet) (s : State) : Out := letter 0x0A01 0 p s (deskKeyGetIdentityKey p)

/-- KEY.ESTABLISH_KEK (R674, R675, R687). -/
def deskKeyEstablishKek (p : Packet) (s : State) : Desk :=
  guardParam (clean (mask 4 0) (p.w 2) && decide (bits 4 0 (p.w 2) = 25)) s fun s =>
    match Config.deriveKek (p.data 1) with
    | none => deny stBadParam s
    | some kek => answer (kcvWords kek) (raise 649 0 (s.onKey fun k => { k with kek := some kek }))

/-- KEY.ESTABLISH_KEK (R674, R675, R687). -/
def execKeyEstablishKek (p : Packet) (s : State) : Out := letterData 0x0A02 1 (bits 4 0 (p.w 2)) p s (deskKeyEstablishKek p)

/-- Unwrap a key under the KEK: NOT_FOUND where none is set, INTEGRITY where the check fails (R675, R676). -/
def unwrapKey (ws : List Word) (s : State) (k : List Word → State → Desk) : Desk :=
  match s.key.kek with
  | none => deny stNotFound s
  | some kek => match Config.kwUnwrap kek ws with
    | none => deny stIntegrity (count1 5177 s)
    | some key => k key s

/-- KEY.IMPORT_KEY (R671, R688, Table 14.8). -/
def deskKeyImportKey (p : Packet) (s : State) : Desk :=
  let dwc := bits 4 0 (p.w 2)
  let i := bits 11 0 (p.w 3)
  let mode := bits 13 12 (p.w 3)
  check (decide (dwc = 10) || decide (dwc = 18)) stBadLength s fun s =>
  guardParam (clean (mask 4 0) (p.w 2) && clean (mask 13 0) (p.w 3) && (decide (mode = 1) || decide (mode = 2))) s fun s =>
  check (decide (dwc = if mode = 1 then 18 else 10)) stBadLength s fun s =>
    let k := s.slotOf i
    check (decide (k.st = .empty) || decide (k.st = .missing)) stConflict s fun s =>
    unwrapKey (p.data 2) s fun key s =>
    guardParam (!(decide (mode = 1) && decide (key.take 8 = key.drop 8)) &&
        (match s.nsOf (i + 1) with | some n => n.enc = 0 || n.enc = mode | none => true)) s fun s =>
    check (!(decide (k.st = .missing) && (match s.nsOf (i + 1) with | some n => Config.kcv key != n.kcv | none => false))) stIntegrity s fun s =>
      let gen := if k.st = .missing then (match s.nsOf (i + 1) with | some n => n.kgen | none => 1) else if mode = 2 then 1 else 0
      answer (kcvWords key) (raise 640 (fld 11 0 i) (loadKey i mode gen key s))

/-- KEY.IMPORT_KEY (R671, R688, Table 14.8). -/
def execKeyImportKey (p : Packet) (s : State) : Out := letterData 0x0A03 2 (bits 4 0 (p.w 2)) p s (deskKeyImportKey p)

/-- KEY.GENERATE_KEY (R685, R687). -/
def deskKeyGenerateKey (p : Packet) (s : State) : Desk :=
  let i := bits 11 0 (p.w 2)
  let mode := bits 13 12 (p.w 2)
  guardParam (clean (mask 13 0) (p.w 2) && (decide (mode = 1) || decide (mode = 2))) s fun s =>
  check (decide ((s.slotOf i).st = .empty)) stConflict s fun s =>
  check (!s.md.entropyBad) stHwFault s fun s =>
    let (key, s) := drawKey mode s
    answer (kcvWords key) (raise 640 (fld 11 0 i) (loadKey i mode (if mode = 2 then 1 else 0) key s))

/-- KEY.GENERATE_KEY (R685, R687). -/
def execKeyGenerateKey (p : Packet) (s : State) : Out := letter 0x0A04 1 p s (deskKeyGenerateKey p)

/-- KEY.EXPORT_KEY (R669, R676, R687). -/
def deskKeyExportKey (p : Packet) (s : State) : Desk :=
  let k := s.slotOf (bits 11 0 (p.w 2))
  guardParam (clean (mask 11 0) (p.w 2)) s fun s =>
  check (decide (k.mode ≠ 0)) stNotFound s fun s =>
    match s.key.kek with
    | none => deny stNotFound s
    | some kek => answer ((fld 4 0 (keyWords k.mode + 2) ||| fld 13 12 k.mode) :: Config.kwWrap kek k.key) s

/-- KEY.EXPORT_KEY (R669, R676, R687). -/
def execKeyExportKey (p : Packet) (s : State) : Out := letter 0x0A05 1 p s (deskKeyExportKey p)

/-- KEY.DESTROY_KEY (R677, R687). -/
def deskKeyDestroyKey (p : Packet) (s : State) : Desk :=
  let i := bits 11 0 (p.w 2)
  guardParam (clean (mask 11 0) (p.w 2)) s fun s =>
  check (!bound s i) stConflict s fun s => okay (destroySlot i false none s)

/-- KEY.DESTROY_KEY (R677, R687). -/
def execKeyDestroyKey (p : Packet) (s : State) : Out := letter 0x0A06 1 p s (deskKeyDestroyKey p)

/-- A slot's rotation to a new key begins (R679): the old key becomes the previous one, and the namespace records the new check
value. -/
def rotateTo (p : Packet) (i : Nat) (k : KSlot) (key : List Word) (s : State) : State :=
  let s := onKslot i (fun _ => { st := .rotating, key := key, gen := k.gen + 1, prev := k.key, prevGen := k.gen, sweepAt := s.clk.now }) s
  let s := onNs (i + 1) (fun n => { n with kcv := Config.kcv key, kgen := k.gen + 1, ro := n.ro && s.vol.lost.contains (i + 1) }) s
  accept p 0x0A07 i 0 (shadow .stateWrite 10 i s)

/-- KEY.ROTATE_KEY (R679, R682, R687). DESIGN CHOICE (log 104, unsafe). -/
def deskKeyRotateKey (p : Packet) (s : State) : Desk :=
  let dwc := bits 4 0 (p.w 2)
  let i := bits 11 0 (p.w 3)
  let k := s.slotOf i
  check (decide (dwc = 0) || decide (dwc = 10)) stBadLength s fun s =>
  guardParam (clean (mask 4 0) (p.w 2) && clean (mask 11 0) (p.w 3) && decide (k.st ≠ .xts)) s fun s =>
    if k.st = .rotating then busyFree s
    else match s.nsOf (i + 1) with
      | none => deny stNotFound s
      | some n =>
        check (decide (n.enc ≠ 0) && decide (k.st = .gcm)) stNotFound s fun s =>
        check (decide (backedBlks n ≤ 2 ^ 39)) stNoResource s fun s =>
          if dwc = 10 then unwrapKey (p.data 2) s fun key s => (stAccepted, [], rotateTo p i k key s)
          else check (!s.md.entropyBad) stHwFault s fun s =>
            (stAccepted, [], rotateTo p i k (drawKey 2 s).1 (drawKey 2 s).2)

/-- KEY.ROTATE_KEY (R679, R682, R687). -/
def execKeyRotateKey (p : Packet) (s : State) : Out := letterData 0x0A07 2 (bits 4 0 (p.w 2)) p s (deskKeyRotateKey p)

/-- KEY.GET_SLOT (Table 14.9). -/
def deskKeyGetSlot (p : Packet) (s : State) : Desk :=
  let i := bits 11 0 (p.w 2)
  let k := s.slotOf i
  guardParam (clean (mask 11 0) (p.w 2)) s fun s =>
    let pct := match s.nsOf (i + 1) with
      | some n => if k.st = .rotating then min 100 (k.sweep * 100 / max 1 (n.size * perParcel n)) else 0
      | none => 0
    answer ([fld 2 0 k.st.code ||| flag 3 (bound s i) ||| fld 31 16 k.gen] ++ (if k.mode = 0 then [0, 0] else kcvWords k.key)
      ++ [word (k.invoc / 512), fld 6 0 pct]) s

/-- KEY.GET_SLOT (Table 14.9). -/
def execKeyGetSlot (p : Packet) (s : State) : Out := letter 0x0A08 1 p s (deskKeyGetSlot p)

/-- Words that hold `n` bytes. -/
def wordsFor (n : Nat) : Nat := (n + 3) / 4

/-- A number of `bytes` bytes from word `at_` of a vector's data (Table 14.10). -/
def vecNum (d : List Word) (at_ bytes : Nat) : Nat := numOf ((d.drop at_).take (wordsFor bytes)) % 256 ^ bytes

/-- KEY.RUN_VECTOR (R665, R689, Table 14.10). DEDUCED (log 106, unsafe). -/
def deskKeyRunVector (p : Packet) (s : State) : Desk :=
  let dwc := bits 10 0 (p.w 2)
  let mode := bits 1 0 (p.w 3)
  let core := bits 13 8 (p.w 3)
  let alen := bits 21 16 (p.w 3)
  let plen := bits 15 0 (p.w 4)
  let d := p.data 3
  let num := vecNum d
  guardParam (clean (mask 10 0) (p.w 2) && clean (mask 1 0 ||| mask 13 8 ||| mask 21 16) (p.w 3) && clean (mask 15 0) (p.w 4)
      && (decide (mode = 1) || decide (mode = 2)) && decide (core < 48) && decide (alen ≤ 32) && (decide (mode = 2) || decide (alen = 0))) s fun s =>
  check (decide (dwc = if mode = 1 then 20 + wordsFor plen else 11 + wordsFor alen + wordsFor plen)) stBadLength s fun s =>
    if (mode = 1 && (plen < 16 || plen % 16 != 0)) || (mode = 2 && plen != 512 && plen != 4096) then deny stBadLength (count1 5176 s)
    else check (!(s.core core).retired) stHwFault s fun s =>
      let s := count1 (5120 + core) s
      if mode = 1 then
        answer (wordsOf (wordsFor plen) (Config.xtsEnc (d.take 16) (num 16 16) plen (num 20 plen))) (count1 5168 s)
      else
        let iv := revBytes 12 (num 8 12)
        let ct := Config.gcmEnc (d.take 8) iv plen (num (11 + wordsFor alen) plen)
        answer (wordsOf (wordsFor plen) ct ++ wordsOf 4 (Config.gcmTag (d.take 8) iv alen (num 11 alen) plen ct)) (count1 5170 s)

/-- KEY.RUN_VECTOR (R665, R689, Table 14.10). -/
def execKeyRunVector (p : Packet) (s : State) : Out := letterData 0x0A09 3 (bits 10 0 (p.w 2)) p s (deskKeyRunVector p)

end Sys2Proof.Machine
end

