-- ==== Sys2Proof/Machine/Volume.lean ====
section
/-! DEFINITION. The VOL desk (chapter 10): sets, namespaces, map epochs, parcel migration, quarantine and the map copy
areas. -/
namespace Sys2Proof.Machine

/-! ## Directory changes that the other shelves hear of (R781) -/

/-- NGUID (Table 10.4). -/
def nguid (s : State) (nsid : Nat) : Nat :=
  (Config.stackHash (match s.stk.record with | some r => r.serials.flatMap fun e => [e.2.1, e.2.2] | none => [Config.serial.toNat])).toNat * 65536 + nsid

/-- The two first words of a directory entry in a DIR_UPDATE (Table 17.1); its NGUID follows, and two reserved words. -/
def dirWords (s : State) (nsid home : Nat) (deleted : Bool) : List Word :=
  [fld 12 0 nsid ||| fld 18 16 home, flag 0 deleted] ++ wordsOf 4 (nguid s nsid) ++ [0, 0]

/-- The master sends a directory change to the Active module of every member shelf that it reaches (R781). DESIGN CHOICE (log 112, unsafe). -/
def sendDir (nsid home : Nat) (deleted : Bool) (s : State) : State :=
  if !s.master then s
  else forAll ((otherShelves s).filter (reachable s)) (fun q s =>
    sendTo q { kind := .dirUpdate, a := q, b := 1, ws := dirWords s nsid home deleted } s) s

/-! ## Namespaces -/

/-- Drop a namespace's buffered data: every page that no open record holds (R505 step 2, R412). -/
def dropPages (nsid : Nat) (s : State) : State :=
  let held := s.wbf.recs.flatMap fun r => r.2.pages
  forAll ((s.wbf.pages.filter fun p => p.2.ns = nsid && !held.contains p.1).map (·.1)) freePage s

/-- Return every parcel of a namespace (R472). -/
def returnAll (nsid : Nat) (s : State) : State :=
  match s.nsOf nsid with | none => s | some n => forAll (n.map.map (·.1)) (returnParcel nsid) s

/-- What a deletion does after its drain (R505 steps 2–5). DEDUCED (log 105, unsafe). -/
def finishDelete (nsid : Nat) (s : State) : State :=
  match s.nsOf nsid with
  | none => s
  | some n =>
    let s := returnAll nsid (dropPages nsid s)
    let s := doIf (decide (n.enc ≠ 0)) (destroySlot (nsid - 1) false none) s
    let s := s.onVol fun v => { v with ns := tabDel v.ns nsid, lost := v.lost.erase nsid }
    let s := s.onNvm fun d => { d with regs := d.regs - n.resv.regs.length }
    raise 390 (fld 12 0 nsid) (sendDir nsid n.home true (shadow .stateWrite 6 nsid s))

/-- A namespace with the level-1 table of its size: a place in group T for each leaf, the lowest that no other leaf has (R487). DESIGN
CHOICE (log 235, safe). DESIGN CHOICE (log 235, safe). -/
def layLeaves (s : State) (n : Ns) : Ns :=
  let used := n.leafAt ++ s.vol.ns.flatMap fun e => e.2.leafAt
  let more := (n.size + 1023) / 1024 - n.leafAt.length
  { n with leafAt := (n.leafAt ++ (((List.range (used.length + more)).filter fun a => !used.contains a).take more)).take ((n.size + 1023) / 1024) }

/-- Controllers of the attached host entries of a namespace. -/
def ctrlsOfNs (s : State) (n : Ns) : List Nat := (s.nvm.ctrls.filter fun c => !c.2.disc && n.hosts.contains c.2.host).map (·.1)

/-- A namespace's size changes at the flip: the Changed Namespace List logs, and the notices where they are enabled (R506). -/
def resizeNs (nsid size : Nat) (s : State) : State :=
  match s.nsOf nsid with
  | none => s
  | some n => forAll (ctrlsOfNs s n) (fun k s =>
      let s := onCtrl k (fun c => { c with changed := if c.changed.contains nsid then c.changed else c.changed ++ [nsid] }) s
      match tabFind s.nvm.ctrls k with
      | some c => doIf (c.aec.testBit 8) (notify k 2 0x400) s
      | none => s) (onNs nsid (fun n => layLeaves s { n with size := size }) s)

/-- Put a change in force at the flip. -/
def applyVol (c : VChange) (s : State) : State :=
  let s := match c with
    | .create nsid n => sendDir nsid n.home false (s.onVol fun v => { v with ns := tabIns v.ns nsid (layLeaves s n) })
    | .delete nsid => onNs nsid (fun n => { n with hosts := [], deleting := true }) s
    | .resize nsid size => resizeNs nsid size s
    | .attach nsid host detach => onNs nsid (fun n => { n with hosts := if detach then n.hosts.erase host else insNat host n.hosts }) s
    | .switch nsid i k p => (onNs nsid (fun n => { n with map := tabUpd n.map i fun l => { l with set := k, parcel := p, moving := false } }) s).onVol fun v =>
        { v with mig := v.mig.map fun (m : Migration) => { m with step := 6 } }
  shadow .stateWrite 6 0 (s.onVol fun v => { v with deltas := v.deltas.or (some s.clk.now) })

/-! ## Map epochs (R491–R495) -/

/-- Commands stamped with a map epoch that remain started (R493). -/
def stampedVol (s : State) (e : Nat) : Nat := tabCount s.nvm.tags fun _ c => c.phase != .hold && decide (c.epoch = e)

/-- Live map epochs (R494). -/
def liveVol (s : State) : Nat := 1 + s.vol.older.length

/-- What a waiting change keeps: a switch keeps the old place of its parcel. -/
def keepOld (s : State) (c : VChange) : VChange :=
  match c with
  | .switch nsid i _ _ => match (s.nsOf nsid).bind fun n => leafOf n i with
    | some l => .switch nsid i l.set l.parcel
    | none => c
  | _ => c

/-- A THICK creation (R476, R504). -/
def thickOf (c : VChange) : Option Nat := match c with | .create nsid n => if n.thick then some nsid else none | _ => none

/-- The creation of a THICK namespace: every index is granted, and the reply is ACCEPTED; NO_RESOURCE where they cannot all be. DEDUCED (log 111, unsafe). -/
def thickStart (who : VWho) (nsid new : Nat) (s : State) : State :=
  match who with
  | .letter d tag op =>
    match grantAll nsid true s (List.range (match s.nsOf nsid with | some n => n.size | none => 0)) with
    | some s => post d tag false stAccepted [word new] (s.onLb fun l => { l with running := l.running ++ [⟨d, tag, op, nsid, 0⟩] })
    | none => post d tag false stNoResource [] ((noteRefused nsid true (List.range (match s.nsOf nsid with | some n => n.size | none => 0)) s).onVol fun v => { v with ns := tabDel v.ns nsid })
  | _ => s

/-- Flip the map epoch and apply changes together (R491, R494); each change's reply waits for its drain, but that of a THICK
creation. -/
def flipVol (qs : List VQueued) (s : State) : State :=
  let old := s.vol.epoch
  let new := (old + 1) % 65536
  let s := s.onVol fun v =>
    { v with
      epoch := new, older := v.older ++ [old],
      waits := v.waits ++ (qs.filter fun q => !(q.chg.any fun c => (thickOf c).isSome)).map fun q => ⟨q.who, q.chg.map (keepOld s), new, s.clk.now, false, false⟩ }
  let s := forAll (qs.flatMap (·.chg)) applyVol (count1 3082 s)
  forAll qs (fun q s => forAll (q.chg.filterMap thickOf) (fun n s => thickStart q.who n new s) s) s

/-- Map epochs that have not drained. -/
def undrained (s : State) (es : List Nat) : List Nat := es.filter fun e => decide (stampedVol s e ≠ 0)

/-- No map epoch older than the change's own is live. -/
def volDrained (s : State) (w : VWait) : Bool := s.vol.older.all fun e => !newerEpoch w.epoch e

/-- The reply of a host's command whose change has drained, or is slow. -/
def replyHost (ctx cid : Nat) (chg : List VChange) (s : State) : State :=
  completeOn ctx cid .success (match chg with | .create nsid _ :: _ => nsid | _ => 0) s

/-- The old parcel of a switched index goes into quarantine (R498 step 7). -/
def returnOld (nsid i k p : Nat) (s : State) : State :=
  let recs := (s.wbf.recs.filter fun e => e.2.set = k && (match s.vset k with | some v => stripeTouches v e.2.stripe p | none => false)).map (·.1)
  let s := onSet k (fun v => { v with parcels := tabIns v.parcels p false }) s
  count1 3073 (s.onVol fun v => { v with quar := v.quar ++ [⟨nsid, i, k, p, liveOrders s, [], recs⟩] })

/-! ## Parcel migration (R497, R498) -/

/-- Move on to the next backed index of the range: its target parcel is granted (R474), and the first pass begins. Where none is
left, or none can be granted, the migration ends. DESIGN CHOICE (log 114, unsafe). -/
def nextParcel (from_ : Nat) (s : State) : State :=
  match s.vol.mig with
  | none => s
  | some m =>
    let stop := fun (st : Nat) (s : State) =>
      finish (fun r => r.op = 0x060B) 394 st (fld 12 0 m.ns) (s.onVol fun v => { v with mig := none })
    match s.nsOf m.ns with
    | none => stop stOk s
    | some n =>
      match (n.map.filter fun l => decide (from_ ≤ l.1) && decide (l.1 ≤ m.last)).head? with
      | none => stop stOk s
      | some (i, l) =>
        match s.vset m.target with
        | none => stop stNoResource s
        | some v =>
          if !canGrant n v then stop stNoResource s
          else match tabFree v.parcels 0 (v.parcels.length + 1) with
            | none => stop stNoResource s
            | some p =>
              let s := onSet m.target (fun v => { v with parcels := tabIns v.parcels p true }) s
              let s := onNs m.ns (fun n => { n with map := tabUpd n.map i fun l => { l with moving := true } }) s
              noteFree m.target (count1 3072 (s.onVol fun v => { v with mig := some { m with index := i, parcel := some p, pass := 0, step := 1, marks := 0, todo := l.written, next := 0 } }))

/-- What follows the drain of a change (R498 step 7, R505). -/
def finishChange (c : VChange) (s : State) : State :=
  match c with
  | .delete nsid => finishDelete nsid s
  | .switch nsid i k p => nextParcel (i + 1) (returnOld nsid i k p s)
  | _ => s

/-- The drain of a change is complete (R493, R495). -/
def volReply (w : VWait) (s : State) : State :=
  let s := match w.who with
    | .letter d tag op =>
      if w.sent then finish (fun r => r.door = d && r.tag = tag && r.op = op && r.key = w.epoch) 393 stOk (word w.epoch) s
      else post d tag w.orphan stOk [word w.epoch] s
    | .host ctx cid => if w.sent then raise 393 (word w.epoch) s else replyHost ctx cid w.chg s
    | .self => doIf w.sent (raise 393 (word w.epoch)) s
  forAll w.chg finishChange s

/-- Settle the drains: map epochs without commands leave, blocked changes flip together, and what waits for a complete drain goes
on (R493–R495). -/
def settleVol (s : State) : State :=
  let s := s.onVol fun v => { v with older := undrained s v.older }
  let s := if !s.vol.changes.isEmpty && liveVol s < 4 then
      let s := flipVol s.vol.changes (s.onVol fun v => { v with changes := [] })
      s.onVol fun v => { v with older := undrained s v.older }
    else s
  let done := s.vol.waits.filter (volDrained s)
  let s := s.onVol fun v => { v with waits := v.waits.filter fun w => !volDrained s w }
  restartHeld (forAll done volReply s)

/-- A change arrives: a flip while fewer than four map epochs are live, else the queue of 64, else none (R494). -/
def takeChange (q : VQueued) (s : State) : Option State :=
  let s := s.onVol fun v => { v with older := undrained s v.older }
  if s.vol.changes.isEmpty && liveVol s < 4 then some (settleVol (flipVol [q] s))
  else if s.vol.changes.length < 64 then some (settleVol (s.onVol fun v => { v with changes := v.changes ++ [q] }))
  else none

/-- A change that a Letterbox command makes. -/
def submitVol (p : Packet) (op : Nat) (c : VChange) (s : State) : Desk :=
  match takeChange ⟨.letter p.door p.tag op, [c]⟩ s with
  | some s => (stWithheld, [], s)
  | none => (stBusy, [word 100], s)

/-- R493, R495: a map epoch drains. -/
def execMapEpochDrained (s : State) : Out := .next (settleVol s)

/-- R495: a drain has not finished 1 s after its flip: the reply is ACCEPTED, and VOL.EPOCH_SLOW is raised. -/
def execMapEpochSlow (s : State) : Out :=
  .next (
    let late := fun (w : VWait) => !w.sent && due (w.flipAt + sec) s.clk.now
    let ws := s.vol.waits.filter late
    let s := s.onVol fun v => { v with waits := v.waits.map fun w => if late w then { w with sent := true } else w }
    forAll ws (fun w s =>
      let s := match w.who with
        | .letter d tag op => post d tag w.orphan stAccepted [word w.epoch] (s.onLb fun l => { l with running := l.running ++ [⟨d, tag, op, w.epoch, 0⟩] })
        | .host ctx cid => replyHost ctx cid w.chg s
        | .self => s
      raise 392 (word w.epoch) s) s)

/-- The place of a block of a parcel in its set: 4 KiB blocks of data from 0, blocks of its tag zone from 262,144. -/
def parcelPlace (v : VSet) (p i : Nat) : Nat × Nat × Nat :=
  if i < 262144 then place v (p * GiB + i * 4096)
  else
    let (n, j, b) := place v (p * (GiB / 16) + (i - 262144) * 4096)
    (dataStripes v + n, j, b)

/-- Blocks of a parcel that a copy pass has to move from block `k` on: those of its extents, then the tag zone entries that seal them; with
the number that lie together in one strip of the target. -/
def nextChunk (m : Migration) (n : Ns) (v : VSet) (p : Nat) : Option (Nat × Nat) :=
  let data := (setBits 1024 m.todo).map fun e => (e * 256, 256)
  let tz := if usesTagZone n then (setBits 1024 m.todo).map fun e => (262144 + e * 16, 16) else []
  ((data ++ tz).find? fun r => decide (m.next < r.1 + r.2)).map fun r =>
    let i := max m.next r.1
    (i, min (r.1 + r.2 - i) (stripBlks v - (parcelPlace v p i).2.2))

/-- The keys of what a copy reads at its new place: the old data and the parity that the new data changes; nothing for a mirror. -/
def moveOld (v : VSet) (n j b cnt : Nat) : List Nat :=
  if isMirror v then [] else (dataMember v n j :: parityHere v n).flatMap fun m => (List.range cnt).map fun i => blkKey m (b + i)

/-- R498: copy some blocks of the parcel, in S4: the old place and what the new place holds are read. A block of the bad-range table is
copied as its member holds it. DEDUCED (log 113, unsafe). -/
def startMove (m : Migration) (l : Leaf) (v src : VSet) (p i cnt : Nat) (s : State) : State :=
  let (n, j, b) := parcelPlace v p i
  if !passMay s m.target n then s
  else
    let q := s.drv.passSeq + 1
    let old := moveOld v n j b cnt
    let x : Pass := { kind := .move, set := m.target, stripe := n, want := (List.range cnt).map (fun k => moveKey (i + k)) ++ old, from_ := l.set, block := i, first := b, strip := j, count := cnt }
    let t := s.onDrv fun d => { d with passSeq := q, passes := tabIns d.passes q x }
    let (ok, t) := (List.range cnt).foldl (fun a k =>
      let (n, j, b) := parcelPlace src l.parcel (i + k)
      let (ok, t) := readStrip l.set src n (dataMember src n j) b 1 4 2048 (.pass q (moveKey (i + k))) a.2
      (a.1 && ok, t)) (true, t)
    let (ok, t) := (old.filter fun k => k % 64 = b).foldl (fun a k =>
      let (ok, t) := readStrip m.target v n (k / 64) b cnt 4 2048 (.pass q k) a.2
      (a.1 && ok, t)) (ok, t)
    if ok then t else s

/-- The pages that hold blocks of the parcel, or tag zone entries of it. -/
def parcelPages (s : State) (m : Migration) (n : Ns) : List Nat :=
  (s.wbf.pages.filter fun e => (e.2.ns = m.ns && e.2.span / 262144 = m.index) || match leafOf n m.index with
    | some l => ofParcelTags l.set l.parcel e.2
    | none => false).map (·.1)

/-- Writes that started before the hold are not yet done, or blocks of the parcel are still in the buffer (R498 step 4). -/
def parcelBusy (s : State) (m : Migration) (n : Ns) : Bool :=
  (s.nvm.tags.any fun e => e.2.cmd.a.nsid = m.ns && e.2.phase != .hold && writes e.2.cmd.op && !e.2.done &&
      (writeRanges e.2.cmd).any fun r => decide (0 < r.2) && decide (r.1 / perParcel n ≤ m.index) && decide (m.index ≤ (r.1 + r.2 - 1) / perParcel n))
    || !(parcelPages s m n).isEmpty

/-- The numbers of set bits below 1,024. -/
def bitCount (w : Nat) : Nat := (setBits 1024 w).length

/-- R498: the copy pass of the parcel under way goes on with its next blocks or, with none left, ends: the next pass follows, or new
write-type starts are held, or the switch is submitted. -/
def execMigrationPassDone (s : State) : Out :=
  .next (match s.vol.mig with
    | none => s
    | some m =>
      match s.nsOf m.ns, s.vset m.target, m.parcel with
      | some n, some v, some p =>
        if m.step = 6 then s
        else match (leafOf n m.index).filter (·.moving) with
        | none => nextParcel (m.index + 1) (noteFree m.target (onSet m.target (fun v => { v with parcels := tabDel v.parcels p })
            (s.onDrv fun d => { d with passes := d.passes.filter fun e => e.2.kind != .move })))
        | some l =>
          let set_ := fun (m : Migration) (s : State) => s.onVol fun d => { d with mig := some m }
          let counted := doIf (decide (0 < m.pass)) (count 3084 (bitCount m.todo)) s
          if !actsForShelf s || s.drv.passes.any (fun e => e.2.kind = .move) then s
          else if m.step = 3 && parcelBusy s m n then queuePages (parcelPages s m n) 5 false s
          else if m.step = 3 && m.marks ≠ 0 then set_ { m with todo := m.todo ||| m.marks, marks := 0, next := 0 } s
          else if m.step ≠ 1 && m.step ≠ 3 then s
          else match nextChunk m n v p with
            | some (i, cnt) => (match s.vset l.set with | some src => startMove m l v src p i cnt s | none => s)
            | none =>
              if m.step = 3 then (match takeChange ⟨.self, [.switch m.ns m.index m.target p]⟩ (set_ { m with step := 5 } counted) with
                | some s => count1 3083 s
                | none => s)
              else if m.marks = 0 || 2 ≤ m.pass then queuePages (parcelPages s m n) 5 false (set_ { m with pass := m.pass + 1, step := 3, todo := m.marks, marks := 0, next := 0 } counted)
              else set_ { m with pass := m.pass + 1, todo := m.marks, marks := 0, next := 0 } counted
      | _, _, _ => s)

/-! ## Quarantine, THICK creation, map copies -/

/-- R472: quarantined parcels whose conditions all hold become free. -/
def execQuarantineRelease (s : State) : Out :=
  .next (
    let ready := fun (q : Quar) => q.cmds.isEmpty && q.pages.isEmpty && q.recs.isEmpty
    let qs := s.vol.quar.filter ready
    let s := s.onVol fun v => { v with quar := v.quar.filter fun q => !ready q }
    forAll qs (fun q s => noteFree q.set (onSet q.set (fun v => { v with parcels := tabDel v.parcels q.parcel }) s)) s)

/-- R504: every index of a THICK namespace has been granted. -/
def execThickCreationComplete (nsid : Nat) (s : State) : Out :=
  .next (match s.nsOf nsid with
    | none => s
    | some n =>
      if !n.creating then s
      else finish (fun r => r.op = 0x0605 && r.key = nsid) 389 stOk (fld 12 0 nsid) (onNs nsid (fun n => { n with creating := false }) s))

/-- Members whose map copy areas hold the shelf's directory and maps (R456). -/
def copyMembers (s : State) : List (Nat × Nat) :=
  s.vol.sets.flatMap fun e => ((List.range 3).filter fun m => decide (m < e.2.width) && !(e.2.mem m).st.out).map fun m => (e.1, m)

/-- A directory entry with its reservation state, as the map copy areas hold it (R456): its words' layout is the model's. DESIGN CHOICE
(log 235, safe). -/
def dirNats (nsid : Nat) (n : Ns) : List Nat :=
  [nsid, n.home, n.lbaf, n.pit, n.enc, if n.thick then 1 else 0, if n.userResv then 1 else 0, if n.spread then 1 else 0, n.size, n.quota, n.salt, n.kcv, n.kgen,
    n.sets.length] ++ n.sets ++ [n.hosts.length] ++ n.hosts
    ++ [n.resv.rtype, n.resv.gen, (n.resv.holder.map (· + 1)).getD 0, n.resv.regs.length] ++ n.resv.regs.flatMap fun r => [r.1, r.2]

/-- A namespace's map as the map copy areas hold it: its backed indexes with their entries and written maps. -/
def mapNats (nsid : Nat) (n : Ns) : List Nat :=
  [nsid, n.size, n.map.length] ++ n.map.flatMap fun l => [l.1, l.2.set, l.2.parcel, if l.2.moving then 1 else 0, l.2.wmap, l.2.written]

/-- What the map copy areas of a set hold (R456, R593): the entry of every namespace of this home shelf, the map of each that has the set in
its list or holds a parcel of it, and the set's bad-range table. -/
def copyOf (s : State) (i : Nat) : List Nat :=
  let mine := s.vol.ns.filter fun e => e.2.home = s.pos
  (mine.flatMap fun e => dirNats e.1 e.2)
    ++ (mine.filter fun e => e.2.sets.contains i || e.2.map.any fun l => l.2.set = i).flatMap (fun e => mapNats e.1 e.2)
    ++ match s.vset i with
      | some v => v.bad.length :: v.bad.flatMap fun e => [e.stripe, e.nstripes, e.member, e.first, e.count, e.cause]
      | none => []

/-- R457: the deltas held are written to the map copy areas. -/
def execMapDeltaFlush (s : State) : Out :=
  .next (match s.vol.deltas with
    | none => s
    | some _ =>
      if !actsForShelf s then s
      else forAll (copyMembers s) (fun m => send { kind := .mapCopy, a := m.1, b := m.2, ds := copyOf s m.1 }) (s.onVol fun v => { v with deltas := none }))

/-! ## Set commands -/

/-- The widths of a set type (Table 10.2). -/
def widthOk (type w : Nat) : Bool :=
  match type with
  | 0 => decide (w = 2)
  | 1 => decide (w = 3)
  | 2 => decide (3 ≤ w) && decide (w ≤ 24)
  | _ => decide (4 ≤ w) && decide (w ≤ 24)

/-- Byte `i` of a run of words. -/
def byteAt (ws : List Word) (i : Nat) : Nat := (wordAt ws (i / 4)).toNat >>> (8 * (i % 4)) % 256

/-- The bytes of the smallest of some slots' drives (R461). -/
def smallestOf (s : State) (slots : List Nat) : Nat :=
  slots.foldl (fun m k => match (s.port k).info with | some d => min m (d.blocks * 4096) | none => m) (2 ^ 64)

/-- Every drive has the format, and two ports where the shelf is paired (R465, R501). -/
def drivesFit (s : State) (fmt : Nat) (slots : List Nat) : Bool :=
  slots.all fun k => match (s.port k).info with | some d => decide (d.fmt = some fmt) && (!pairedShelf s || d.dual) | none => false

/-- The serial number of the drive in a slot. -/
def serialIn (s : State) (k : Nat) : Nat := match (s.port k).info with | some d => d.serial | none => 0

/-- A new set over some slots: mirrors need no initialisation (R463), and member `m` is the `m`-th slot (R465). -/
def newSet (s : State) (type w strip fmt : Nat) (tz : Bool) (resv : Nat) (slots : List Nat) (id : Nat) : VSet :=
  let k := (smallestOf s slots - 4 * GiB) / (65536 * 2 ^ strip)
  { type := type, width := w, strip := strip, fmt := fmt, tagzone := tz, reserve := resv, setid := id, stripes := k,
    st := if type < 2 then .optimal else .initialising, creator := Config.serial.toNat, initWm := if type < 2 then k else 0,
    members := (List.range w).foldl (fun t m => tabIns t m { slot := some (slots.getD m 0), last := some (slots.getD m 0), serial := serialIn s (slots.getD m 0) }) [] }

/-- Put a new set in force: its identity records are written, and VOL.SET_CREATED is raised (R501). -/
def installSet (i : Nat) (v : VSet) (slots : List Nat) (s : State) : State :=
  let s := s.onVol fun d => { d with sets := tabIns d.sets i v, deltas := d.deltas.or (some s.clk.now) }
  let s := forAll (List.range v.width) (fun m => onPort (slots.getD m 0) fun x => { x with id := some (idRecord i v m), foreign := false }) s
  raise 384 (fld 4 0 i) (shadow .stateWrite 6 (8192 + i) (writeIds i s))

/-- VOL.CREATE_SET (R463, R465, R501, Table 10.9). DEDUCED (log 109, unsafe). -/
def deskVolCreateSet (p : Packet) (s : State) : Desk :=
  let i := bits 4 0 (p.w 2)
  let type := bits 9 8 (p.w 2)
  let w := bits 20 16 (p.w 2)
  let fmt := bits 26 26 (p.w 2)
  let tz := bit 27 (p.w 2)
  let slots := (List.range w).map (byteAt (p.words.drop 2))
  guardParam (clean (mask 4 0 ||| mask 9 8 ||| mask 20 16 ||| mask 27 24) (p.w 2) && clean (mask 22 0) (p.w 3) && widthOk type w
      && decide (bits 25 24 (p.w 2) < 3) && (!tz || decide (fmt = 1)) && slots.all (fun k => decide (k < 24)) && decide (slots.eraseDups.length = w)
      && (List.range 24).all fun b => decide (b < w) || decide (byteAt (p.words.drop 2) b = 0)) s fun s =>
  check (!tabHas s.vol.sets i && slots.all fun k => (memberAt s k).isNone && !tabHas s.vol.spares k) stConflict s fun s =>
  check (slots.all fun k => slotOn s k && enumerated s k) stNotFound s fun s =>
  check (drivesFit s fmt slots) stConflict s fun s =>
  check (decide (64 * GiB ≤ smallestOf s slots)) stNoResource s fun s =>
    let (id, s) := takeFree s
    let v := newSet s type w (bits 25 24 (p.w 2)) fmt tz (bits 22 0 (p.w 3)) slots (id.toNat % 2 ^ 64)
    guardParam (decide (bits 22 0 (p.w 3) ≤ setParcels v)) s fun s => answer (words2 v.setid) (installSet i v slots s)

/-- VOL.CREATE_SET (R501). -/
def execVolCreateSet (p : Packet) (s : State) : Out := letter 0x0601 8 p s (deskVolCreateSet p)

/-- VOL.DELETE_SET (R502). -/
def deskVolDeleteSet (p : Packet) (s : State) : Desk :=
  let i := bits 4 0 (p.w 2)
  guardParam (clean (mask 4 0) (p.w 2)) s fun s => withSet i s fun v s =>
  check (v.parcels.isEmpty && !(match s.vol.mig with | some m => decide (m.target = i) | none => false)) stConflict s fun s =>
    let slots := (List.range v.width).filterMap fun m => if (v.mem m).st.out then none else (v.mem m).slot
    let s := forAll slots (fun k s => onPort k (fun x => { x with id := none })
      (send { kind := .idRecord, a := k, b := 0 } (send { kind := .idRecord, a := k, b := 524288 } s))) s
    let s := s.onWbf fun w => { w with rings := tabFilter w.rings fun k _ => decide (k / 32 ≠ i) }
    okay (shadow .stateWrite 6 (8192 + i) (s.onVol fun d => { d with sets := tabDel d.sets i }))

/-- VOL.DELETE_SET (R502). -/
def execVolDeleteSet (p : Packet) (s : State) : Out := letter 0x0602 1 p s (deskVolDeleteSet p)

/-- VOL.GET_SET (Table 10.10). -/
def deskVolGetSet (p : Packet) (s : State) : Desk :=
  guardParam (clean (mask 4 0) (p.w 2)) s fun s => withSet (bits 4 0 (p.w 2)) s fun v s =>
    answer [fld 2 0 v.st.code ||| flag 3 (!v.bad.isEmpty) ||| fld 5 4 v.type ||| fld 12 8 v.width ||| fld 17 16 v.strip ||| fld 18 18 v.fmt ||| flag 19 v.tagzone,
      word (setParcels v), word (freeParcels v), word v.reserve, fld 6 0 (if v.stripes = 0 then 100 else v.initWm * 100 / v.stripes), word v.setid] s

/-- VOL.GET_SET (Table 10.10). -/
def execVolGetSet (p : Packet) (s : State) : Out := letter 0x0603 1 p s (deskVolGetSet p)

/-- VOL.SET_RESERVE (R503). -/
def deskVolSetReserve (p : Packet) (s : State) : Desk :=
  let i := bits 4 0 (p.w 2)
  guardParam (clean (mask 4 0) (p.w 2) && clean (mask 22 0) (p.w 3)) s fun s => withSet i s fun v s =>
  guardParam (decide (bits 22 0 (p.w 3) ≤ setParcels v)) s fun s =>
    okay (onSet i (fun v => { v with reserve := bits 22 0 (p.w 3) }) s)

/-- VOL.SET_RESERVE (R503). -/
def execVolSetReserve (p : Packet) (s : State) : Out := letter 0x0604 2 p s (deskVolSetReserve p)

/-! ## Namespace commands -/

/-- A set list (Table 10.11 words 5–6): contiguous valid entries from entry 0, nothing else set. -/
def setListOf (a b : Word) : Option (List Nat) :=
  let es := (List.range 8).map (byteAt [a, b])
  let valid := es.filter fun e => decide (128 ≤ e)
  if es.all (fun e => e / 32 % 4 = 0) && decide (es.take valid.length = valid) && (es.drop valid.length).all (fun e => e = 0) then
    some (valid.map (· % 32))
  else none

/-- A set list as words, entries 0–3. -/
def setListWord (l : List Nat) : Word := word (sumNat ((List.range (min 4 l.length)).map fun i => (l.getD i 0 + 128) * 256 ^ i))

/-- A set number is in use on another shelf, as the directory shows. DEDUCED (log 108, unsafe). -/
def setElsewhere (s : State) (i : Nat) : Bool := !tabHas s.vol.sets i && s.vol.ns.any fun e => e.2.home != s.pos && e.2.sets.contains i

/-- Every set of a list is in use somewhere in the stack. -/
def setsKnown (s : State) (l : List Nat) : Bool := l.all fun i => tabHas s.vol.sets i || setElsewhere s i

/-- No set of a list belongs to another shelf, and the known ones meet R479 and R481 for a format and encryption. -/
def setsFit (s : State) (lbaf enc : Nat) (l : List Nat) : Bool :=
  l.all fun i => match s.vset i with
    | some v => (decide (v.fmt = 1) || (decide (lbaf % 2 = 0) && decide (enc ≠ 2))) && (v.tagzone || !(decide (enc = 2) && decide (lbaf < 2)))
    | none => !setElsewhere s i

/-- The sum of the sizes of the shelf's namespaces, and of those whose creation waits for a flip. -/
def sizeSum (s : State) : Nat :=
  sumNat ((s.vol.ns.filter fun e => e.2.home = s.pos).map fun e => e.2.size)
    + sumNat (s.vol.changes.map fun q => sumNat (q.chg.map fun c => match c with | .create _ n => n.size | _ => 0))

/-- The NSID is claimed: in the directory, or by a creation that waits. -/
def nsidTaken (s : State) (nsid : Nat) : Bool :=
  tabHas s.vol.ns nsid || s.vol.changes.any fun q => q.chg.any fun c => match c with | .create k _ => k = nsid | _ => false

/-- A key slot holds a key of an encryption's mode. -/
def slotFits (k : KSlot) (enc : Nat) : Bool := decide (k.mode = enc) && !k.dying

/-- A new namespace: detached, its salt drawn, its key's check value recorded (R478, R481, R672). -/
def newNs (s : State) (nsid lbaf pit enc : Nat) (thick resv spread : Bool) (size quota : Nat) (sets : List Nat) : Ns × State :=
  let (salt, s) := takeFree s
  let k := s.slotOf (nsid - 1)
  ({ home := s.pos, lbaf := lbaf, pit := pit, enc := enc, thick := thick, userResv := resv, spread := spread, size := size, quota := quota,
     sets := sets, salt := salt.toNat % 2 ^ 128, kcv := if enc = 0 then 0 else Config.kcv k.key, kgen := if enc = 0 then 0 else k.gen, creating := thick }, s)

/-- The module applies a change of an NSID claim itself: it is the master, or it acts at position 0 without a lease (R780, R500). -/
def claimsHere (s : State) : Bool := s.master || (decide (s.pos = 0) && s.md.mode = .maintenance)

/-- Ask the master for a change of an NSID claim; what follows waits for its reply (R780). -/
def askMaster (q : VQueued) (op : Nat) (p : Packet) (s : State) : State :=
  sendTo 0 { kind := .adminRequest, a := op, b := p.door, ws := p.tag :: p.words } (s.onStk fun x => { x with admin := x.admin ++ [(q, op, p)] })

/-- A Letterbox command that claims or frees an NSID (R500, R780). -/
def submitClaim (p : Packet) (op : Nat) (c : VChange) (s : State) : Desk :=
  if claimsHere s then submitVol p op c s
  else if !masterReach s then (stBusy, [word 1000], s)
  else (stWithheld, [], askMaster ⟨.letter p.door p.tag op, [c]⟩ op p s)

/-- VOL.CREATE_NAMESPACE (R504, Table 10.11). DEDUCED (log 110, unsafe). -/
def deskVolCreateNamespace (p : Packet) (s : State) : Desk :=
  let nsid := bits 12 0 (p.w 2)
  let lbaf := bits 17 16 (p.w 2)
  let pit := bits 19 18 (p.w 2)
  let enc := bits 21 20 (p.w 2)
  let size := bits 22 0 (p.w 3)
  check (actsForShelf s) stNotOwner s fun s =>
  match setListOf (p.w 5) (p.w 6) with
  | none => deny stBadParam s
  | some sets =>
    guardParam (clean (mask 12 0 ||| mask 24 16) (p.w 2) && clean (mask 22 0) (p.w 3) && clean (mask 22 0) (p.w 4) && decide (p.w 7 = 0)
        && decide (1 ≤ nsid) && decide (nsid ≤ 4096) && decide (pit ≠ 2) && (decide (pit = 0) || decide (lbaf % 2 = 1)) && decide (enc ≠ 3)
        && decide (1 ≤ size) && decide (size ≤ 4194304) && !sets.isEmpty && (decide (enc = 0) || decide (s.order ≠ 2))) s fun s =>
    check (!nsidTaken s nsid && setsFit s lbaf enc sets) stConflict s fun s =>
    check (setsKnown s sets) stNotFound s fun s =>
    check (decide (enc = 0) || slotFits (s.slotOf (nsid - 1)) enc) stNotFound s fun s =>
    check (decide (sizeSum s + size ≤ 67108864)) stNoResource s fun s =>
      let (n, s) := newNs s nsid lbaf pit enc (bit 22 (p.w 2)) (bit 23 (p.w 2)) (bit 24 (p.w 2)) size (bits 22 0 (p.w 4)) sets
      let t := s.onVol fun v => { v with ns := tabIns v.ns nsid n }
      check (!n.thick || (grantAll nsid true t (List.range size)).isSome) stNoResource
          (doIf n.thick (fun s => { noteRefused nsid true (List.range size) t with vol := s.vol }) s) fun _ =>
        submitClaim p 0x0605 (.create nsid n) s

/-- VOL.CREATE_NAMESPACE (R504, Table 10.11). -/
def execVolCreateNamespace (p : Packet) (s : State) : Out := letter 0x0605 6 p s (deskVolCreateNamespace p)

/-- A namespace of this shelf at a module that acts for it (R500); one whose deletion is under way is found no more. -/
def withNs (nsid : Nat) (s : State) (k : Ns → State → Desk) : Desk :=
  match s.nsOf nsid with
  | none => deny stNotFound s
  | some n => if n.deleting then deny stNotFound s else check (decide (n.home = s.pos) && actsForShelf s) stNotOwner s (k n)

/-- An NSID in its range. -/
def nsidOk (w used : Word) : Bool := clean (mask 12 0 ||| used) w && decide (1 ≤ bits 12 0 w) && decide (bits 12 0 w ≤ 4096)

/-- The namespace is migrating. -/
def migrating (s : State) (nsid : Nat) : Bool := match s.vol.mig with | some m => decide (m.ns = nsid) | none => false

/-- VOL.DELETE_NAMESPACE (R505). -/
def deskVolDeleteNamespace (p : Packet) (s : State) : Desk :=
  let nsid := bits 12 0 (p.w 2)
  guardParam (nsidOk (p.w 2) (mask 16 16)) s fun s => withNs nsid s fun n s =>
  check ((n.hosts.isEmpty || bit 16 (p.w 2)) && !migrating s nsid) stConflict s fun s =>
    submitClaim p 0x0606 (.delete nsid) s

/-- VOL.DELETE_NAMESPACE (R505). -/
def execVolDeleteNamespace (p : Packet) (s : State) : Out := letter 0x0606 1 p s (deskVolDeleteNamespace p)

/-- VOL.RESIZE_NAMESPACE (R476, R506). -/
def deskVolResizeNamespace (p : Packet) (s : State) : Desk :=
  let nsid := bits 12 0 (p.w 2)
  let size := bits 22 0 (p.w 3)
  guardParam (nsidOk (p.w 2) 0 && clean (mask 22 0) (p.w 3) && decide (1 ≤ size) && decide (size ≤ 4194304)) s fun s => withNs nsid s fun n s =>
  check (!(n.map.any fun l => decide (size ≤ l.1)) && !(s.vol.quar.any fun q => q.ns = nsid && decide (size ≤ q.index))) stConflict s fun s =>
  check (decide (sizeSum s - n.size + size ≤ 67108864)) stNoResource s fun s =>
    let more := if n.thick then ((List.range (size - n.size)).map (n.size + ·)).filter fun i => (leafOf n i).isNone else []
    match grantAll nsid true s more with
    | none => deny stNoResource (noteRefused nsid true more s)
    | some t => match submitVol p 0x0607 (.resize nsid size) t with
      | (st, ws, u) => if st = stBusy then (st, ws, s) else (st, ws, u)

/-- VOL.RESIZE_NAMESPACE (R506). -/
def execVolResizeNamespace (p : Packet) (s : State) : Out := letter 0x0607 2 p s (deskVolResizeNamespace p)

/-- VOL.SET_NS_POLICY (R507). -/
def deskVolSetNsPolicy (p : Packet) (s : State) : Desk :=
  let nsid := bits 12 0 (p.w 2)
  match setListOf (p.w 5) (p.w 6) with
  | none => deny stBadParam s
  | some sets =>
    guardParam (nsidOk (p.w 2) 0 && clean (mask 22 0) (p.w 3) && clean (mask 1 0) (p.w 4) && !sets.isEmpty) s fun s => withNs nsid s fun n s =>
    check (setsKnown s sets) stNotFound s fun s =>
    check (setsFit s n.lbaf n.enc sets) stConflict s fun s =>
      okay (onNs nsid (fun n => { n with quota := bits 22 0 (p.w 3), userResv := bit 0 (p.w 4), spread := bit 1 (p.w 4), sets := sets }) s)

/-- VOL.SET_NS_POLICY (R507). -/
def execVolSetNsPolicy (p : Packet) (s : State) : Out := letter 0x0608 5 p s (deskVolSetNsPolicy p)

/-- VOL.ATTACH_NAMESPACE (R482, R508). -/
def deskVolAttachNamespace (p : Packet) (s : State) : Desk :=
  let nsid := bits 12 0 (p.w 2)
  let detach := bit 16 (p.w 2)
  let h := bits 10 0 (p.w 3)
  guardParam (nsidOk (p.w 2) (mask 16 16) && clean (mask 10 0) (p.w 3)) s fun s => withNs nsid s fun n s =>
    if n.hosts.contains h != detach then answer [word s.vol.epoch] s else submitVol p 0x0609 (.attach nsid h detach) s

/-- VOL.ATTACH_NAMESPACE (R508). -/
def execVolAttachNamespace (p : Packet) (s : State) : Out := letter 0x0609 2 p s (deskVolAttachNamespace p)

/-- VOL.GET_NAMESPACE (Table 10.12). -/
def deskVolGetNamespace (p : Packet) (s : State) : Desk :=
  let nsid := bits 12 0 (p.w 2)
  guardParam (nsidOk (p.w 2) 0) s fun s =>
    match s.nsOf nsid with
    | none => deny stNotFound s
    | some n => answer [fld 1 0 n.lbaf ||| fld 3 2 n.pit ||| fld 5 4 n.enc ||| flag 6 n.thick ||| flag 7 n.userResv ||| flag 8 n.spread ||| flag 9 n.ro
        ||| flag 10 (migrating s nsid) ||| fld 13 11 n.home, word n.size, word n.quota, word (backed n), fld 11 0 n.hosts.length, setListWord n.sets] s

/-- VOL.GET_NAMESPACE (Table 10.12). -/
def execVolGetNamespace (p : Packet) (s : State) : Out := letter 0x060A 1 p s (deskVolGetNamespace p)

/-- VOL.MIGRATE_PARCELS (R497, R509). -/
def deskVolMigrateParcels (p : Packet) (s : State) : Desk :=
  let nsid := bits 12 0 (p.w 2)
  let first := bits 21 0 (p.w 3)
  let cnt := bits 10 0 (p.w 4)
  let target := bits 20 16 (p.w 4)
  guardParam (nsidOk (p.w 2) 0 && clean (mask 21 0) (p.w 3) && clean (mask 10 0 ||| mask 20 16) (p.w 4) && decide (1 ≤ cnt) && decide (cnt ≤ 1024)) s fun s =>
  withNs nsid s fun n s =>
    if s.vol.mig.isSome then busyFree s
    else guardParam (decide (first + cnt ≤ n.size)) s fun s =>
      check (tabHas s.vol.sets target) stConflict s fun s =>
        let s := accept p 0x060B 0 0 s
        (stAccepted, [], nextParcel first (s.onVol fun v => { v with mig := some ⟨nsid, first + cnt - 1, target, first, none, 0, 1, 0, 0, 0⟩ }))

/-- VOL.MIGRATE_PARCELS (R497, R509). -/
def execVolMigrateParcels (p : Packet) (s : State) : Out := letter 0x060B 3 p s (deskVolMigrateParcels p)

/-- Word 0 of a leaf entry (Table 10.5). -/
def Leaf.word0 (l : Leaf) : Word := fld 22 0 l.parcel ||| fld 27 23 l.set ||| flag 28 true ||| flag 29 l.moving

/-- VOL.GET_PARCEL (R510). -/
def deskVolGetParcel (p : Packet) (s : State) : Desk :=
  let nsid := bits 12 0 (p.w 2)
  let i := bits 21 0 (p.w 3)
  guardParam (nsidOk (p.w 2) 0 && clean (mask 21 0) (p.w 3)) s fun s =>
    match s.nsOf nsid with
    | none => deny stNotFound s
    | some n => guardParam (decide (i < n.size)) s fun s =>
        match leafOf n i with
        | some l => answer [l.word0, fld 10 0 (bitCount l.written), fld 22 0 s.vol.quar.length] s
        | none => answer [0, 0, fld 22 0 s.vol.quar.length] s

/-- VOL.GET_PARCEL (R510). -/
def execVolGetParcel (p : Packet) (s : State) : Out := letter 0x060C 2 p s (deskVolGetParcel p)

/-- VOL.SET_NS_DEFAULTS (R511). -/
def deskVolSetNsDefaults (p : Packet) (s : State) : Desk :=
  let enc := bits 1 0 (p.w 2)
  match setListOf (p.w 3) (p.w 4) with
  | none => deny stBadParam s
  | some sets =>
    guardParam (clean (mask 3 0) (p.w 2) && decide (enc ≠ 3) && (decide (enc = 0) || decide (s.order ≠ 2))) s fun s =>
      okay (s.onVol fun v => { v with dflt := { enc := enc, spread := bit 2 (p.w 2), userResv := bit 3 (p.w 2), sets := sets } })

/-- VOL.SET_NS_DEFAULTS (R511). -/
def execVolSetNsDefaults (p : Packet) (s : State) : Out := letter 0x060D 3 p s (deskVolSetNsDefaults p)

/-- VOL.GET_EPOCH (R511). -/
def deskVolGetEpoch (_p : Packet) (s : State) : Desk :=
  let older := undrained s s.vol.older
  let oldest := older.headD s.vol.epoch
  answer [fld 15 0 s.vol.epoch ||| fld 31 16 oldest, fld 2 0 (1 + older.length) ||| fld 15 8 s.vol.changes.length, word (stampedVol s oldest)] s

/-- VOL.GET_EPOCH (R511). -/
def execVolGetEpoch (p : Packet) (s : State) : Out := letter 0x060E 0 p s (deskVolGetEpoch p)

end Sys2Proof.Machine
end

