-- ==== Sys2Proof/Machine/Nvm.lean ====
section
/-! DEFINITION. The NVM desk (chapter 9): the subsystem name, the host table, Connect and authentication, controllers, the
admin commands, Format, Sanitize and the NVM Letterbox commands. -/
namespace Sys2Proof.Machine

/-! ## Drowse requests of hosts (R440–R442) -/

/-- Drowse entry is refused: rebuild, resync or parcel migration runs on the module (R145). -/
def dataMoving (s : State) : Bool :=
  s.vol.mig.isSome || s.pair.resync.isSome || s.vol.sets.any fun e => e.2.members.any fun m => m.2.st = .rebuilding || m.2.st = .resyncing

/-- Complete every Set Features that waits for the entry: with success at the commit, else with Command Interrupted (R440, R442). -/
def drowseReply (ok : Bool) (s : State) : State :=
  let qs := s.md.drowseReq
  forAll qs (fun q s => completeOn q.1 q.2 (if ok then .success else .interrupted) 0 s) (s.onMd fun m => { m with drowseReq := [] })

/-- An entry is abandoned: the module stays Active and MOD.DROWSE_ABANDONED is raised (R148). DESIGN CHOICE (log 28, unsafe). -/
def abandonDrowse (s : State) : State :=
  let s := s.onMd fun m => { m with drowse := .none, patrolPaused := false }
  finish (fun r => r.op = 0x0006) 11 stOk 0 (drowseReply false (count1 3 s))

/-! ## Names and the host table -/

/-- Words of a name without the zero words at its end. -/
def trimName (ws : List Word) : List Word := (ws.reverse.dropWhile (· == 0)).reverse

/-- Bytes packed into words, first byte in [7:0] (Table 9.14). -/
def packBytes : List Nat → List Word
  | a :: b :: c :: d :: r => word (a + b * 256 + c * 65536 + d * 16777216) :: packBytes r
  | [a, b, c] => [word (a + b * 256 + c * 65536)]
  | [a, b] => [word (a + b * 256)]
  | [a] => [word a]
  | [] => []

/-- An uppercase hexadecimal digit. -/
def hexDigit (n : Nat) : Nat := if n < 10 then 48 + n else 55 + n

/-- The 16 hexadecimal digits of a serial number. -/
def serialHex (n : Nat) : List Nat := ((List.range 16).map fun i => hexDigit (n / 16 ^ (15 - i) % 16))

/-- The serial number of the module that first held the master role (R388): that of position 0 in the stack record, or the
module's own where there is none. -/
def masterSerial (s : State) : Nat :=
  match s.stk.record.bind fun r => r.serials.find? fun e => e.1 = 0 with
  | some (_, a, b) => if a = 0 then b else a
  | none => Config.serial.toNat

/-- The subsystem NQN (R388). -/
def subsysNqn (s : State) : List Word :=
  match s.nvm.nqn with
  | some n => n
  | none => packBytes ("nqn.2024-01.com.ohmyrel:tk4824:".toList.map Char.toNat ++ serialHex (masterSerial s))

/-- Change a host table entry. -/
def onHost (h : Nat) (f : HostEnt → HostEnt) (s : State) : State := s.onNvm fun n => { n with hosts := tabUpd n.hosts h f }

/-- Live controllers of a host entry. -/
def ctrlsOfHost (s : State) (h : Nat) : List Nat := (s.nvm.ctrls.filter fun c => c.2.host = h).map (·.1)

/-! ## The end of a controller (R404) -/

/-- The parameter word of a controller's events (R452). -/
def ctrlParam (n k : Nat) : Word := fld 15 0 n ||| fld 26 16 k

/-- A controller ends (R404): its READY connections enter ERROR, its requests and notices are discarded, registrations are kept,
and the bound Host Identifier goes with the entry's last controller (R393). -/
def endCtrl (n cause : Nat) (s : State) : State :=
  match tabFind s.nvm.ctrls n with
  | none => s
  | some c =>
    let cs := (s.xpt.ctxs.filter fun e => e.2.ctrl = some n && e.2.st = .ready).map (·.1)
    let s := forAll cs (fun x => ctxError x (if cause = 1 then 8 else 9)) s
    let s := s.onNvm fun d => { d with ctrls := tabDel d.ctrls n, ended := tabIns d.ended n s.clk.now }
    let s := s.onMd fun m => { m with drowseReq := m.drowseReq.filter fun q => !cs.contains q.1 }
    let s := doIf (ctrlsOfHost s c.host).isEmpty (onHost c.host fun h => { h with bound := none }) s
    shadow .stateWrite 5 n (raise 321 (ctrlParam n cause) (doIf (cause = 1) (count1 2581) s))

/-- Expiries of the hosts' timers act now: in Active. Those of Drowse wait for the exit (R151); a keep-alive timer stands still
while Kumel does not run (R403). -/
def timersAct (s : State) : Bool := s.md.mode = .active

/-- R402: a controller's keep-alive timer expires. -/
def execKeepAliveExpiry (cntlid : Nat) (s : State) : Out :=
  .next (match tabFind s.nvm.ctrls cntlid with
    | none => s
    | some c => if timersAct s && s.md.kumel = .running && due c.kaAt s.clk.now then endCtrl cntlid 1 s else s)

/-- Kumel has returned from a restart: each keep-alive timer resumes with its full KATO (R403). -/
def resumeKeepAlive (s : State) : State :=
  s.onNvm fun n => { n with ctrls := tabMap n.ctrls fun _ c => { c with kaAt := s.clk.now + c.kato * ms } }

/-- What a Kumel restart does to hosts' admin and fabrics commands (R156): those in Kumel complete with Command Interrupted, and
connections in first-time authentication are closed. DEDUCED (log 120, unsafe). -/
def interruptHosts (s : State) : State :=
  let hostOf := fun (w : VWho) => match w with | .host c d => some (c, d) | _ => none
  let qs := s.vol.waits.filterMap (fun w => if w.sent then none else hostOf w.who) ++ s.vol.changes.filterMap (fun q => hostOf q.who)
    ++ s.stk.admin.filterMap (fun a => hostOf a.1.who) ++ s.key.slots.filterMap (fun e => e.2.who)
    ++ s.nvm.ctrls.flatMap fun c => c.2.aborts.map fun a => (a.1, a.2.1)
  let own := fun (w : VWho) => match w with | .host _ _ => VWho.self | w => w
  let s := s.onVol fun v => { v with waits := v.waits.map fun w => { w with who := own w.who }, changes := v.changes.map fun q => { q with who := own q.who } }
  let s := s.onStk fun k => { k with admin := k.admin.map fun a => ({ a.1 with who := own a.1.who }, a.2) }
  let s := s.onKey fun k => { k with slots := tabMap k.slots fun _ x => { x with who := none } }
  let s := s.onNvm fun n => { n with ctrls := tabMap n.ctrls fun _ c => { c with aborts := [] } }
  let s := forAll qs (fun q s => completeOn q.1 q.2 .interrupted 0 s) (drowseReply false s)
  let cs := s.xpt.admq.map (·.ctx) ++ (s.nvm.ctrls.filter fun c => c.2.needAuth && !c.2.authd).map fun c => c.2.adminCtx
  forAll cs (fun c => ctxError c 9) s

/-! ## Connect (R389–R397) -/

/-- The lowest CNTLID that is neither in use nor held by a controller that ended within the last 10 s (R389). -/
def freeCntlid (s : State) : Option Nat :=
  let held := fun (n : Nat) => match tabFind s.nvm.ended n with | some t => decide (s.clk.now < t + 10 * sec) | none => false
  ((List.range 4095).map fun i => s.pos * 4096 + i + 1).find? fun n => !tabHas s.nvm.ctrls n && !held n

/-- The offending field of Connect Invalid Parameters: IPO in [15:0], IATTR in [16]. -/
def ipo (off : Nat) (inData : Bool) : Nat := off + if inData then 65536 else 0

/-- The checks of Table 9.3 in order: the host entry, or the status of the first that fails with its Dword 0. DESIGN CHOICE (log 117, unsafe). -/
def connectCheck (r : ConnectReq) (s : State) : Except (NvStatus × Nat) (Nat × HostEnt) :=
  if !(r.discovery || trimName r.subNqn = trimName (subsysNqn s)) then .error (.connectInvalidParams, ipo 256 true)
  else match s.nvm.hosts.find? fun e => trimName e.2.nqn = trimName r.hostNqn && e.2.enable with
    | none => .error (.connectInvalidHost, 0)
    | some (h, e) =>
      let src := (s.ctx r.ctx).src
      if r.hostId = 0 then .error (.connectInvalidParams, ipo 0 true)
      else if !(match e.bound with | none => true | some b => decide (b = r.hostId)) then .error (.connectInvalidHost, 0)
      else if e.tlsReq && !(s.ctx r.ctx).tlsOn then .error (.connectInvalidHost, 0)
      else if e.auth && e.secret.isNone then .error (.connectInvalidHost, 0)
      else if r.qid = 0 then
        if r.cntlid ≠ 0xFFFF then .error (.connectInvalidParams, ipo 16 true)
        else if r.sqsize < 31 || 127 < r.sqsize then .error (.connectInvalidParams, ipo 44 false)
        else if r.kato < 5000 || 3600000 < r.kato || r.kato % 100 ≠ 0 then .error (.connectInvalidParams, ipo 48 false)
        else if 4095 ≤ s.nvm.ctrls.length || e.maxCtrl ≤ (ctrlsOfHost s h).length || (freeCntlid s).isNone then .error (.connectBusy, 0)
        else .ok (h, e)
      else match (tabFind s.nvm.ctrls r.cntlid).filter fun c => c.host = h with
        | none => .error (.connectInvalidParams, ipo 16 true)
        | some c =>
          if c.ioqa < r.qid then .error (.connectInvalidParams, ipo 42 false)
          else if s.xpt.ctxs.any (fun x => x.1 != r.ctx && x.2.ctrl = some r.cntlid && decide (x.2.qid = r.qid) && (x.2.st = .ready || x.2.st = .connecting)) then
            .error (.connectInvalidParams, ipo 42 false)
          else if r.sqsize < 1 || 1023 < r.sqsize then .error (.connectInvalidParams, ipo 44 false)
          else if !c.en || !c.rdy then .error (.sequenceError, 0)
          else if c.needAuth && !c.authd then .error (.connectInvalidHost, 0)
          else if c.needAuth && c.src != src then .error (.connectInvalidHost, 0)
          else .ok (h, e)

/-- A Connect fails (R452, event 323). -/
def refuseConnect (r : ConnectReq) (st : NvStatus) (dw0 : Nat) (s : State) : State :=
  let recent := match s.nvm.refusedAt with | none => false | some t => decide (s.clk.now < t + sec)
  let s := count1 2579 s
  let s := if recent then s else raise 323 (ctrlParam r.cntlid 0) (s.onNvm fun n => { n with refusedAt := some s.clk.now })
  completeOn r.ctx r.cid st dw0 s

/-- Create the controller of an admin-queue Connect (R389, R393, R402). -/
def newCtrl (r : ConnectReq) (h : Nat) (e : HostEnt) (s : State) : State :=
  match freeCntlid s with
  | none => refuseConnect r .connectBusy 0 s
  | some n =>
    let c : Ctrl := { host := h, hostId := r.hostId, disc := r.discovery, authd := false, needAuth := e.auth, adminCtx := r.ctx, src := (s.ctx r.ctx).src,
                      ioqa := if r.discovery then 0 else 16, kato := r.kato, kaAt := s.clk.now + r.kato * ms }
    let s := s.onNvm fun d => { d with ctrls := tabIns d.ctrls n c, ended := tabDel d.ended n }
    let s := onHost h (fun e => { e with bound := e.bound.or (some r.hostId) }) s
    let s := bindSub r.ctx e.sub (onCtx r.ctx (fun x => { x with ctrl := some n, disc := r.discovery, qid := 0, sqsize := r.sqsize }) s)
    completeOn r.ctx r.cid .success (n + if e.auth then 131072 else 0) (shadow .stateWrite 5 n (raise 320 (ctrlParam n h) s))

/-- Bind an I/O queue's connection to its controller. -/
def joinCtrl (r : ConnectReq) (e : HostEnt) (s : State) : State :=
  completeOn r.ctx r.cid .success r.cntlid (shadow .stateWrite 5 r.cntlid
    (bindSub r.ctx e.sub (onCtx r.ctx (fun x => { x with ctrl := some r.cntlid, qid := r.qid, sqsize := r.sqsize }) s)))

/-- A Connect capsule that reaches the fast path (R395, R396). PRESUMED (log 116, unsafe). DEDUCED (log 128, unsafe). -/
def connectIn (r : ConnectReq) (s : State) : State :=
  if (s.ctx r.ctx).ctrl.isSome then completeOn r.ctx r.cid .sequenceError 0 s
  else match connectCheck r s with
    | .error (st, dw0) => refuseConnect r st dw0 (count1 2577 s)
    | .ok (h, e) =>
      if r.qid ≠ 0 then joinCtrl r e (count1 2577 s)
      else if !e.auth then newCtrl r h e (count1 2577 s)
      else if s.md.kumel = .stopped then refuseConnect r .connectBusy 0 s
      else if 512 ≤ s.xpt.admq.length then
        let s := if s.xpt.admTold then count1 2096 s else raise 268 0 (count1 2096 (s.onXpt fun n => { n with admTold := true }))
        refuseConnect r .connectBusy 0 s
      else s.onXpt fun n => { n with admq := n.admq ++ [r] }

/-- Kumel takes the head of its admission queue: first-time authentication begins (R397). -/
def admitConnect (r : ConnectReq) (s : State) : State :=
  let s := s.onXpt fun n => { n with admq := n.admq.tail, admTold := n.admTold && decide (460 ≤ n.admq.tail.length) }
  if (s.ctx r.ctx).st != .ready then s
  else match connectCheck r s with
    | .error (st, dw0) => refuseConnect r st dw0 (count1 2578 s)
    | .ok (h, e) => newCtrl r h e (count1 2578 s)

/-- R395, R396: a Connect; given again for the head of the admission queue, Kumel takes it (R378). -/
def execNvmeConnect (r : ConnectReq) (s : State) : Out :=
  .next (
    if s.xpt.admq.head? = some r then (if s.md.kumel = .running && s.md.mode = .active then admitConnect r s else s)
    else if (s.ctx r.ctx).st != .ready || s.md.admitStop then s
    else match s.md.mode with
      | .drowse => beginDrowseExit { s with woken := s.woken ++ [.row (.connect r)] }
      | .active => connectIn r (entryArrival (takeCapsule r.ctx s))
      | _ => s)

/-! ## Admin and fabrics commands -/

/-- The kinds of admin and fabrics command that the common checks tell apart. -/
inductive AdmKind where
  | auth | disconnect | keepAlive | discovery | other
  deriving DecidableEq, Repr

/-- An identifier that an admin command in progress holds (R415). -/
def adminTaken (s : State) (ctx cid : Nat) : Bool :=
  cidTaken s ctx cid || s.md.drowseReq.contains (ctx, cid) || (s.key.slots.any fun e => e.2.who = some (ctx, cid))
    || (s.vol.waits.any fun w => w.who = .host ctx cid && !w.sent) || (s.vol.changes.any fun q => q.who = .host ctx cid) || (s.stk.admin.any fun a => a.1.who = .host ctx cid)
    || match ctrlOf s ctx with
      | some c => c.aers.contains (ctx, cid) || c.aborts.any fun a => a.1 = ctx && a.2.1 = cid
      | none => false

/-- What every admin or fabrics command but Connect passes first (R150, R155, R397, R403, R411, Table 9.12). In Drowse it starts
the exit and is held until its end; while Kumel restarts it is held until Kumel runs. A discovery controller takes no `other` command. DEDUCED (log 118, unsafe). DEDUCED (log 119, unsafe). -/
def adminIn (row : AdmRow) (ctx cid : Nat) (kind : AdmKind) (k : Nat → Ctrl → State → State) (s : State) : State :=
  let x := s.ctx ctx
  if x.st != .ready || s.md.admitStop then s
  else match s.md.mode with
    | .drowse => beginDrowseExit { s with woken := s.woken ++ [.row row] }
    | .active =>
      if s.md.kumel = .restarting && kind != .keepAlive then { s with kwait := s.kwait ++ [row] }
      else
        let s := takeCapsule ctx s
        match x.ctrl with
        | none => completeOn ctx cid .sequenceError 0 s
        | some n => match tabFind s.nvm.ctrls n with
          | none => completeOn ctx cid .sequenceError 0 s
          | some c =>
            if x.qid ≠ 0 && kind != .disconnect then completeOn ctx cid .invalidOpcode 0 s
            else if c.disc && kind = .other then completeOn ctx cid .invalidOpcode 0 s
            else if c.needAuth && !c.authd && kind != .auth && kind != .disconnect then completeOn ctx cid .authRequired 0 s
            else if adminTaken s ctx cid then completeOn ctx cid .cidConflict 0 s
            else if s.md.kumel = .stopped && kind != .keepAlive then completeOn ctx cid .interrupted 0 s
            else k n c (entryArrival s)
    | _ => s

/-- Complete an admin command of a queue with a status. -/
def ends (ctx cid : Nat) (st : NvStatus) (s : State) : State := completeOn ctx cid st 0 s

/-- R405: Disconnect. -/
def execNvmeDisconnect (ctx cid : Nat) (s : State) : Out :=
  .next (adminIn (.disconnect ctx cid) ctx cid .disconnect (fun _ _ s =>
    if (s.ctx ctx).qid = 0 then ends ctx cid .invalidField s
    else
      let m : OutMsg := { kind := .capsuleResp, a := ctx, b := cid, ws := [0, 0, 0], ds := [NvStatus.success.ctorIdx] }
      if (s.ctx ctx).tcp then closeCtx ctx false (tcpLast ctx (pduBytes (s.ctx ctx) 24 0) m s) else closeCtx ctx false (rdmaSend ctx 16 false none m s)) s)

/-- R402, R403: Keep Alive restarts the controller's timer. -/
def execNvmeKeepAlive (ctx cid : Nat) (s : State) : Out :=
  .next (adminIn (.keepAlive ctx cid) ctx cid .keepAlive (fun n c s =>
    ends ctx cid .success (onCtrl n (fun k => { k with kaAt := s.clk.now + c.kato * ms }) s)) s)

/-! ### Authentication (R397–R400) -/

/-- A transaction fails (R400, event 322). -/
def authFailed (n reason : Nat) (c : Ctrl) (s : State) : State :=
  raise 322 (ctrlParam n c.host) (count1 2580 (onCtrl n (fun k => { k with auth := .failure reason, authFails := k.authFails + 1 }) s))

/-- A controller has authenticated. -/
def authDone (n : Nat) (s : State) : State := shadow .stateWrite 5 n (onCtrl n (fun k => { k with authd := true, auth := .done }) s)

/-- What a message does to a controller's transaction (R398, R399): failure reasons are 1 authentication failed, 4 hash unusable,
5 DH group unusable, 6 incorrect message. -/
def authStep (n : Nat) (c : Ctrl) (m : AuthMsg) (s : State) : State :=
  let e := tabGet {} s.nvm.hosts c.host
  match m with
  | .negotiate hs gs =>
    match hs.find? fun h => decide (h < 3) && e.hashes.testBit h, gs.find? fun g => decide (g < 5) && e.dhg.testBit g with
    | none, _ => authFailed n 4 c s
    | some _, none => authFailed n 5 c s
    | some h, some g => onCtrl n (fun k => { k with auth := .challenge h g }) s
  | .reply bidir ok =>
    match c.auth with
    | .challenge _ _ =>
      if !ok || (e.bidir && !bidir) || (bidir && e.ctrlSecret.isNone) then authFailed n 1 c s
      else if bidir then onCtrl n (fun k => { k with auth := .success true }) s
      else authDone n (onCtrl n (fun k => { k with auth := .success false }) s)
    | _ => authFailed n 6 c s
  | .success2 ok =>
    match c.auth with
    | .success true => if ok then authDone n s else authFailed n 1 c s
    | _ => authFailed n 6 c s

/-- R398–R400: Authentication Send. -/
def execNvmeAuthenticationSend (ctx cid : Nat) (m : AuthMsg) (s : State) : Out :=
  .next (adminIn (.authenticationSend ctx cid m) ctx cid .auth (fun n c s =>
    if 3 ≤ c.authFails then ends ctx cid .authRequired s else ends ctx cid .success (authStep n c m s)) s)

/-- R398: Authentication Receive gives the transaction's next message: challenge, success1 or failure1. -/
def execNvmeAuthenticationReceive (ctx cid : Nat) (s : State) : Out :=
  .next (adminIn (.authenticationReceive ctx cid) ctx cid .auth (fun _ c s =>
    let give := fun (ds : List Nat) (s : State) => completeData ctx cid (giveData ctx (Config.frameHead OutKind.dhchap.ctorIdx).toNat none { kind := .dhchap, a := ctx, b := cid, ds := ds } s)
    match c.auth with
    | .none => ends ctx cid .sequenceError s
    | .challenge h g => give [1, h, g] s
    | .success b => give [3, if b then 1 else 0] s
    | .done => give [3, 0] s
    | .failure r => give [0xF1, r] s) s)

/-! ### Properties (R406, R407) -/

/-- The shutdown's Flush would complete: no block that it covers is still in the buffer or on its way there (R407). -/
def shutdownDone (s : State) (c : Ctrl) : Bool :=
  !(s.nvm.tags.any fun e => writes e.2.cmd.op && c.shNs.contains e.2.cmd.a.nsid && decide (e.2.order ≤ c.shOrder))
    && !(s.wbf.pages.any fun p => c.shNs.contains p.2.ns && p.2.blks.any fun b => decide (b.2.order ≤ c.shOrder))

/-- CSTS (Table 9.4): RDY in bit 0, SHST in bits 3:2. -/
def cstsOf (s : State) (c : Ctrl) : Nat := (if c.rdy then 1 else 0) + 4 * (if c.shst = 0 then 0 else if shutdownDone s c then 2 else 1)

/-- CAP (Table 9.4): MQES [15:0], CQR [16], TO [31:24], CSS [37]. -/
def capValue : Nat := 1023 + 2 ^ 16 + 60 * 2 ^ 24 + 2 ^ 37

/-- The namespaces attached to a controller's host. -/
def attachedNs (s : State) (h : Nat) : List Nat := (s.vol.ns.filter fun e => e.2.hosts.contains h && !e.2.deleting && !e.2.creating).map (·.1)

/-- A write to CC (R406, R407): EN 0 ends the controller's commands, EN 1 makes it ready, SHN starts a shutdown. DEDUCED (log 129, unsafe). -/
def writeCc (n : Nat) (c : Ctrl) (v : Nat) (s : State) : State :=
  let s := if !v.testBit 0 && c.en then
      let qs := (s.xpt.ctxs.filter fun e => e.2.ctrl = some n && decide (e.2.qid ≠ 0) && e.2.st = .ready).map (·.1)
      onCtrl n (fun k => { k with en := false, rdy := false, aers := [], notices := [], aborts := [], shst := 0 }) (forAll qs leaveReady s)
    else if v.testBit 0 && !c.en then onCtrl n (fun k => { k with en := true, rdy := true, shst := 0 }) s
    else s
  if v / 2 ^ 14 % 4 = 0 || c.shst ≠ 0 then s
  else
    let ns := attachedNs s c.host
    let ps := (s.wbf.pages.filter fun p => ns.contains p.2.ns && p.2.st != .reserved).map (·.1)
    queuePages ps 0 true (onCtrl n (fun k => { k with shst := 1, shNs := ns, shOrder := s.nvm.order }) s)

/-- R406: Property Set. -/
def execNvmePropertySet (ctx cid prop value : Nat) (s : State) : Out :=
  .next (adminIn (.propertySet ctx cid prop value) ctx cid .discovery (fun n c s =>
    let bad := prop ≠ 0x14 || value / 2 ^ 16 % 16 ≠ 6 || value / 2 ^ 20 % 16 ≠ 4
    if bad then ends ctx cid .invalidField s else ends ctx cid .success (shadow .stateWrite 5 n (writeCc n c value s))) s)

/-- R406: Property Get. -/
def execNvmePropertyGet (ctx cid prop : Nat) (s : State) : Out :=
  .next (adminIn (.propertyGet ctx cid prop) ctx cid .discovery (fun _ c s =>
    let give := fun (v : Nat) (s : State) => completeOn ctx cid .success v s
    match prop with
    | 0x00 => give capValue s
    | 0x08 => give 0x00020000 s
    | 0x14 => give ((if c.en then 1 else 0) + 6 * 2 ^ 16 + 4 * 2 ^ 20) s
    | 0x1C => give (cstsOf s c) s
    | _ => ends ctx cid .invalidField s) s)

/-! ### Log pages (Table 9.6) -/

/-- The state of ANA group `g` (1–8) on this shelf's controllers: 1 optimized, 2 non-optimized, 3 inaccessible (R432). -/
def anaState (s : State) (g : Nat) : Nat := if g = s.pos + 1 then 1 else if reachable s (g - 1) then 2 else 3

/-- Critical Warning: bit 1 for the controller's temperature threshold, bit 2 while any set of the shelf is degraded or offline. DEDUCED (log 127, unsafe). -/
def criticalWarning (s : State) (c : Ctrl) : Nat :=
  (if (c.tthr : Int) - 273 ≤ s.th.tj.toInt / 8 || s.th.tj.toInt / 8 ≤ (c.tthrU : Int) - 273 then 2 else 0)
    + (if s.vol.sets.any fun e => e.2.st = .degraded || e.2.st = .offline || e.2.st = .rebuilding then 4 else 0)

/-- The well-known discovery NQN (PRESUMED, NVM Express over Fabrics). -/
def discNqn : List Word := packBytes ("nqn.2014-08.org.nvmexpress.discovery".toList.map Char.toNat)

/-- The discovery log's entries: SUBTYPE (1 referral, 2 subsystem), transport (1 RDMA, 3 TCP), address family, address, TRSVCID, PORTID, and
the TLS 1.3 security type with a secure channel required; then CNTLID and the name. The master gives one for each listener of each shelf,
any other module one referral for each listener of the master (R436, R437). DESIGN CHOICE (log 125, unsafe). -/
def discEntries (s : State) : List (List Nat) :=
  let name := fun (ws : List Word) => 0xFFFF :: ws.map (·.toNat)
  if s.master then (ownListeners s ++ s.stk.listen.flatMap (·.2)).map fun e => 2 :: e.nums ++ name (subsysNqn s)
  else (tabGet [] s.stk.listen 0).map fun e => 1 :: e.nums ++ name discNqn

/-- Opcodes that the subsystem supports (Table 9.8): admin, then I/O with 256 added. -/
def supportedOps : List Nat :=
  [0x02, 0x06, 0x08, 0x09, 0x0A, 0x0C, 0x0D, 0x15, 0x18, 0x80, 0x84] ++ [0x00, 0x01, 0x02, 0x05, 0x08, 0x09, 0x0C, 0x0D, 0x0E, 0x11, 0x15, 0x19].map (· + 256)

/-- R409: Get Log Page. -/
def execNvmeGetLogPage (ctx cid nsid lid : Nat) (s : State) : Out :=
  .next (adminIn (.getLogPage ctx cid nsid lid) ctx cid .discovery (fun n c s =>
    let give := fun (ds : List Nat) (s : State) =>
      completeData ctx cid (giveData ctx (Config.frameHead OutKind.logPage.ctorIdx).toNat none { kind := .logPage, a := ctx, b := cid, ws := [word lid], ds := ds } s)
    if c.disc then (if lid = 0x70 then give ([s.nvm.chgDisc, (discEntries s).length] ++ (discEntries s).flatten) s
      else ends ctx cid .invalidLogPage s)
    else match lid with
      | 0x01 => give (c.errLog.flatMap fun e => [e.1, e.2.1, e.2.2]) s
      | 0x02 => if nsid ≠ 0xFFFFFFFF then ends ctx cid .invalidField s else give [criticalWarning s c, (s.th.tj.toInt / 8 + 273).toNat] s
      | 0x03 => give [s.upd.run + 1, bankVer s 0, bankVer s 1] s
      | 0x04 => give c.changed (onCtrl n (fun k => { k with changed := [] }) s)
      | 0x05 => give supportedOps s
      | 0x0C => give (c.anaChg :: (List.range 8).map fun g => anaState s (g + 1)) s
      | 0x80 => match c.resLog with
        | [] => give [0, 0, 0] s
        | (ns, kind) :: r => give [kind, ns, c.resLog.length + c.resLost - 1] (onCtrl n (fun k => { k with resLog := r, resLost := if r.isEmpty then 0 else k.resLost }) s)
      | 0x81 => match s.nvm.sanitize with
        | some _ => let (v, s) := takeFree s; give [2, v.toNat % 65535] s
        | none => give [if s.nvm.sanDone then 1 else 0, 65535] s
      | _ => ends ctx cid .invalidLogPage s) s)

/-! ### Identify (R408, R409, R485) -/

/-- Identify Namespace (Table 10.4): NSZE, NCAP, NUSE, NSFEAT, NLBAF, FLBAS, MC, DPC, DPS, NPWG, NOWS, NPDG, NPDA, ANAGRPID, NGUID. -/
def identifyNs (s : State) (nsid : Nat) (n : Ns) : List Nat :=
  let strip := match n.sets.head?.bind s.vset with | some v => (stripBytes v, dataStrips v) | none => (0, 0)
  let blks := fun (b : Nat) => b / nsBlkBytes n - 1
  [n.size * perParcel n, (if n.thick then n.size else quotaOf n) * perParcel n, backed n * perParcel n, (if n.thick then 0 else 1) + 16, 3, n.lbaf, 1, 0x15, n.pit,
   blks strip.1, blks (strip.1 * strip.2), perExtent n - 1, perExtent n - 1, n.home + 1, nguid s nsid]

/-- The bytes of a number, first byte lowest. -/
def bytesNat (bs : List Nat) : Nat := bs.reverse.foldl (fun n b => n * 256 + b) 0

/-- SN (R388): "TK", the 16 digits of the serial number, two spaces. -/
def snField (s : State) : Nat := bytesNat ("TK".toList.map Char.toNat ++ serialHex (masterSerial s) ++ [32, 32])

/-- MN, space-padded to 40 bytes. -/
def mnField : Nat := bytesNat ("OHMYREL TWIROKOR TK-4824                ".toList.map Char.toNat)

/-- FR: the eight hexadecimal digits of FWVER. -/
def frField (s : State) : Nat := bytesNat ((List.range 8).map fun i => hexDigit (bankVer s s.upd.run / 16 ^ (7 - i) % 16))

/-- The power state descriptors (R152, R439, Table 9.11): MP in 0.01 W, NOPS, ENLAT and EXLAT in µs, of PS0 and PS1. -/
def powerStates : List Nat := [36000, 0, 0, 0, 9000, 1, 5000000, 150000]

/-- Identify Controller (Table 9.5): VID, SSVID, SN, MN, FR, MDTS, CNTLID, VER, CTRATT, CNTRLTYPE, OACS, ACL, AERL, FRMW, LPA, KAS, SANICAP, ANATT,
ANACAP, ANAGRPMAX, NANAGRPID, MAXCMD, NN, MNAN, ONCS, FUSES, VWC, OCFS, SGLS, NPSS, IOCCSZ, IORCSZ, ICDOFF, FCATT, MSDBD, MSSRL, MCL, MSRC, and the
power state descriptors. ANACAP's bit 6 says that ANAGRPID does not change while the namespace is attached. -/
def identifyCtrl (s : State) (n : Nat) (c : Ctrl) : List Nat :=
  let ids := [0x1F3A, 0x1F3A, snField s, mnField, frField s]
  if c.disc then ids ++ [0, n, 0x00020000, 0, 2]
  else ids ++ [10, n, 0x00020000, 1, 1, 0x0A, 3, 7, 4, 4, 1, if s.order = 2 then 0 else 1, 10,
        7 + 64, 8, 8, 1024, 4096, 4096, 1 + 4 + 8 + 32 + 128 + 256, 0, 7, 1, 1 + 4 + 2 ^ 20, 1, 516, 1, 0, 0, 16, 65536, 1048576, 127] ++ powerStates

/-- R409: Identify. -/
def execNvmeIdentify (ctx cid nsid cns cntid : Nat) (s : State) : Out :=
  .next (adminIn (.identify ctx cid nsid cns cntid) ctx cid .discovery (fun n c s =>
    let give := fun (ds : List Nat) (s : State) => completeData ctx cid (giveData ctx 4096 none { kind := .identify, a := ctx, b := cid, ws := [word cns], ds := ds } s)
    let attached := attachedNs s c.host
    let all := s.vol.ns.map (·.1)
    let lists := fun (l : List Nat) => (l.filter fun x => decide (nsid < x)).take 1024
    if c.disc && cns ≠ 1 then ends ctx cid .invalidField s
    else match cns with
      | 0x00 => match s.nsOf nsid with
        | some m => if attached.contains nsid then give (identifyNs s nsid m) s else ends ctx cid .invalidNamespace s
        | none => ends ctx cid .invalidNamespace s
      | 0x01 => give (identifyCtrl s n c) s
      | 0x02 => give (lists attached) s
      | 0x03 => if attached.contains nsid then give [nguid s nsid] s else ends ctx cid .invalidNamespace s
      | 0x05 => if attached.contains nsid then (let (v, s) := takeFree s; give [v.toNat] s) else ends ctx cid .invalidNamespace s
      | 0x06 => let (v, s) := takeFree s; give [v.toNat] s
      | 0x10 => give (lists all) s
      | 0x11 => match s.nsOf nsid with | some m => give (identifyNs s nsid m) s | none => ends ctx cid .invalidNamespace s
      | 0x12 => match s.nsOf nsid with
        | some m => give ((ctrlsOfNs s m).filter fun k => decide (cntid ≤ k)) s
        | none => ends ctx cid .invalidNamespace s
      | 0x13 => give ((s.nvm.ctrls.map (·.1)).filter fun k => decide (cntid ≤ k)) s
      | _ => ends ctx cid .invalidField s) s)

/-! ### Features (Table 9.7) -/

/-- I/O queues connected on a controller. -/
def ioqc (s : State) (n : Nat) : Nat := tabCount s.xpt.ctxs fun _ x => x.ctrl = some n && decide (x.qid ≠ 0) && x.st = .ready

/-- Set Features (Power Management) (R440, R441). -/
def setPower (ctx cid : Nat) (c : Ctrl) (v : Nat) (s : State) : State :=
  let ps := v % 32
  if ps = 0 then ends ctx cid .success (if s.md.drowse = .quiesce || s.md.drowse = .drivesLow then abandonDrowse s else s)
  else if 1 < ps || !(tabGet {} s.nvm.hosts c.host : HostEnt).priv.testBit 3 then ends ctx cid .invalidField s
  else if dataMoving s then ends ctx cid .interrupted s
  else (if s.md.drowse = .none then beginDrowse s else s).onMd fun m => { m with drowseReq := m.drowseReq ++ [(ctx, cid)] }

/-- R410: Set Features. -/
def execNvmeSetFeatures (ctx cid nsid fid value : Nat) (s : State) : Out :=
  .next (adminIn (.setFeatures ctx cid nsid fid value) ctx cid (if fid = 0x0B then .discovery else .other) (fun n c s =>
    let put := fun (f : Ctrl → Ctrl) (s : State) => ends ctx cid .success (shadow .stateWrite 5 n (onCtrl n f s))
    match fid with
    | 0x02 => setPower ctx cid c value s
    | 0x04 =>
      if value / 65536 % 16 ≠ 0 && value / 65536 % 16 ≠ 15 then ends ctx cid .invalidField s
      else if value / 2 ^ 20 % 4 = 0 then put (fun k => { k with tthr := value % 65536 }) s
      else if value / 2 ^ 20 % 4 = 1 then put (fun k => { k with tthrU := value % 65536 }) s
      else ends ctx cid .invalidField s
    | 0x05 => if value.testBit 16 then ends ctx cid .invalidField s else ends ctx cid .success s
    | 0x06 => put (fun k => { k with vwc := value.testBit 0 }) s
    | 0x07 =>
      if ioqc s n ≠ 0 then ends ctx cid .sequenceError s
      else
        let q := min 128 (value % 65536 + 1)
        completeOn ctx cid .success ((q - 1) * 65537) (shadow .stateWrite 5 n (onCtrl n (fun k => { k with ioqa := q }) s))
    | 0x0B => put (fun k => { k with aec := value }) s
    | 0x82 => if (attachedNs s c.host).contains nsid then put (fun k => { k with rmask := tabIns k.rmask nsid value }) s else ends ctx cid .invalidNamespace s
    | 0x83 => if value.testBit 0 then ends ctx cid .success s else ends ctx cid .invalidField s
    | _ => ends ctx cid .invalidField s) s)

/-- R410: Get Features; for the Temperature Threshold `value` selects the sensor and the over- or under-threshold, as in Set Features. The Volatile
Write Cache reads 1 (Table 9.7). -/
def execNvmeGetFeatures (ctx cid nsid fid value : Nat) (s : State) : Out :=
  .next (adminIn (.getFeatures ctx cid nsid fid value) ctx cid (if fid = 0x0B then .discovery else .other) (fun _ c s =>
    let give := fun (v : Nat) (s : State) => completeOn ctx cid .success v s
    match fid with
    | 0x02 => give 0 s
    | 0x04 =>
      if value / 65536 % 16 ≠ 0 || 1 < value / 2 ^ 20 % 4 then ends ctx cid .invalidField s
      else give (if value / 2 ^ 20 % 4 = 0 then c.tthr else c.tthrU) s
    | 0x05 => give 0 s
    | 0x06 => give 1 s
    | 0x07 => give ((c.ioqa - 1) * 65537) s
    | 0x0B => give c.aec s
    | 0x0F => give c.kato s
    | 0x81 => completeData ctx cid (giveData ctx 16 none { kind := .feature, a := ctx, b := cid, ds := [c.hostId] } s)
    | 0x82 => if (attachedNs s c.host).contains nsid then give (tabGet 0 c.rmask nsid) s else ends ctx cid .invalidNamespace s
    | 0x83 => give 1 s
    | _ => ends ctx cid .invalidField s) s)

/-- Table 9.5 AERL, R404: Asynchronous Event Request. A pending notice completes it at once. PRESUMED (log 126, unsafe). -/
def execNvmeAsyncEventRequest (ctx cid : Nat) (s : State) : Out :=
  .next (adminIn (.asyncEventRequest ctx cid) ctx cid .discovery (fun n c s =>
    match c.notices with
    | (kind, info) :: r => completeOn ctx cid .success (kind + info * 256) (onCtrl n (fun k => { k with notices := r }) s)
    | [] => if 8 ≤ c.aers.length then ends ctx cid .aerLimit s else onCtrl n (fun k => { k with aers := k.aers ++ [(ctx, cid)] }) s) s)

/-- R421, R422: Abort; its request goes to the target engine. -/
def execNvmeAbort (ctx cid sqid acid : Nat) (s : State) : Out :=
  .next (adminIn (.abort ctx cid sqid acid) ctx cid .other (fun n c s =>
    if 4 ≤ c.aborts.length then ends ctx cid .abortLimit s
    else onCtrl n (fun k => { k with aborts := k.aborts ++ [(ctx, cid, sqid, acid)] }) s) s)

/-! ### Namespace Management and Attachment (R482, R483) -/

/-- The host entry of a controller permits privilege `b` (Table 9.1). DEDUCED (log 121, unsafe). -/
def privOf (s : State) (c : Ctrl) (b : Nat) : Bool := (tabGet {} s.nvm.hosts c.host : HostEnt).priv.testBit b

/-- The packet that asks the master for a host's NSID claim (R780). -/
def claimPacket (nsid : Nat) : Packet := ⟨3, 0, 1, 0, [word nsid]⟩

/-- A host's NSID claim: at the master it goes on at once (R780). -/
def hostClaim (ctx cid op nsid : Nat) (c : VChange) (s : State) : State :=
  if claimsHere s then
    match takeChange ⟨.host ctx cid, [c]⟩ s with
    | some s => s
    | none => ends ctx cid .interrupted s
  else if masterReach s then askMaster ⟨.host ctx cid, [c]⟩ op (claimPacket nsid) s
  else ends ctx cid .interrupted s

/-- Namespace blocks rounded up to whole parcels. -/
def parcelsFor (lbaf blks : Nat) : Nat :=
  let k := 262144 * if lbaf < 2 then 8 else 1
  (blks + k - 1) / k

/-- Create a namespace for a host (R483). DEDUCED (log 123, unsafe). -/
def hostCreate (ctx cid : Nat) (c : NsCreate) (s : State) : State :=
  let d := s.vol.dflt
  let size := parcelsFor c.lbaf c.nsze
  if c.nsze < c.ncap || c.piType = 2 || 3 < c.piType || !c.piLast || 3 < c.lbaf || (c.piType ≠ 0 && c.lbaf % 2 = 0) || size = 0 || 4194304 < size then
    ends ctx cid .invalidField s
  else if d.sets.isEmpty then ends ctx cid .nsInsufficientCapacity s
  else if !setsFit s c.lbaf d.enc d.sets then ends ctx cid .invalidField s
  else match ((List.range 4096).map (· + 1)).find? fun k => !nsidTaken s k with
    | none => ends ctx cid .nsInsufficientCapacity s
    | some nsid =>
      if 67108864 < sizeSum s + size then ends ctx cid .nsInsufficientCapacity s
      else if d.enc ≠ 0 && s.md.entropyBad then ends ctx cid .interrupted s
      else
        let s := if d.enc = 0 then s else
            let (key, s) := drawKey d.enc s
            loadKey (nsid - 1) d.enc (if d.enc = 2 then (s.slotOf (nsid - 1)).gen + 1 else 0) key s
        let (n, s) := newNs s nsid c.lbaf c.piType d.enc false d.userResv d.spread size (parcelsFor c.lbaf c.ncap) d.sets
        hostClaim ctx cid 0x0605 nsid (.create nsid n) s

/-- R483: Namespace Management. -/
def execNvmeNamespaceManagement (ctx cid : Nat) (del : Option Nat) (c : NsCreate) (s : State) : Out :=
  .next (adminIn (.namespaceManagement ctx cid del c) ctx cid .other (fun _ k s =>
    if !privOf s k 0 then ends ctx cid .invalidField s
    else match del with
      | none => hostCreate ctx cid c s
      | some nsid => match s.nsOf nsid with
        | none => ends ctx cid .invalidNamespace s
        | some n =>
          if n.home != s.pos || n.deleting then ends ctx cid .invalidNamespace s
          else if migrating s nsid then ends ctx cid .interrupted s
          else hostClaim ctx cid 0x0606 nsid (.delete nsid) s) s)

/-- R482: Namespace Attachment: the entries of the listed controllers are attached or detached under one flip. DESIGN CHOICE (log 122, unsafe). -/
def execNvmeNamespaceAttachment (ctx cid nsid : Nat) (attach : Bool) (ctrls : List Nat) (s : State) : Out :=
  .next (adminIn (.namespaceAttachment ctx cid nsid attach ctrls) ctx cid .other (fun _ k s =>
    if !privOf s k 0 then ends ctx cid .invalidField s
    else match s.nsOf nsid with
      | none => ends ctx cid .invalidNamespace s
      | some n =>
        if n.home != s.pos || n.deleting then ends ctx cid .invalidNamespace s
        else
          let hs := ctrls.map fun q => (tabFind s.nvm.ctrls q).map (·.host)
          if ctrls.isEmpty || hs.any (·.isNone) || ctrls.any (fun q => match tabFind s.nvm.ctrls q with | some c => c.disc | none => true) then ends ctx cid .invalidField s
          else
            let go := ((hs.filterMap id).eraseDups).filter fun h => n.hosts.contains h != attach
            if go.isEmpty then ends ctx cid .success s
            else match takeChange ⟨.host ctx cid, go.map fun h => .attach nsid h (!attach)⟩ s with
              | some s => s
              | none => ends ctx cid .interrupted s) s)

/-! ### Format and Sanitize (R412, R677, R678) -/

/-- Every block of a namespace reads as zero again: its buffered data is dropped and its parcels return; a THICK namespace keeps
them, unwritten (R472, R476). -/
def emptyNs (nsid : Nat) (s : State) : State :=
  let s := dropPages nsid s
  match s.nsOf nsid with
  | none => s
  | some n => if n.thick then shadow .mirrorState 6 nsid (onNs nsid (fun n => { n with map := tabMap n.map fun _ l => { l with written := 0 } }) s) else returnAll nsid s

/-- Table 9.8: Format NVM. DEDUCED (log 124, unsafe). -/
def execNvmeFormatNvm (ctx cid nsid ses lbaf pit : Nat) (s : State) : Out :=
  .next (adminIn (.formatNvm ctx cid nsid ses lbaf pit) ctx cid .other (fun _ k s =>
    if !privOf s k 1 || nsid = 0xFFFFFFFF || 2 < ses || 3 < lbaf || pit = 2 || 3 < pit || (pit ≠ 0 && lbaf % 2 = 0) then ends ctx cid .invalidField s
    else match s.nsOf nsid with
      | none => ends ctx cid .invalidNamespace s
      | some n =>
        if !n.hosts.contains k.host || n.home != s.pos || n.deleting || n.creating then ends ctx cid .invalidNamespace s
        else if s.nvm.sanitize.isSome then ends ctx cid .sanitizeInProgress s
        else if (ses = 2 && n.enc = 0) || (lbaf ≠ n.lbaf && !n.map.isEmpty) || !setsFit s lbaf n.enc n.sets then ends ctx cid .invalidField s
        else if n.held || (ses = 2 && s.md.entropyBad) then ends ctx cid .interrupted s
        else
          let s := onNs nsid (fun n => { n with lbaf := lbaf, pit := pit }) (emptyNs nsid s)
          let s := shadow .stateWrite 6 nsid s
          if ses = 2 then destroySlot (nsid - 1) true (some (ctx, cid)) (onNs nsid (fun n => { n with held := true }) s)
          else ends ctx cid .success s) s)

/-- R412: Sanitize. -/
def execNvmeSanitize (ctx cid sanact : Nat) (s : State) : Out :=
  .next (adminIn (.sanitize ctx cid sanact) ctx cid .other (fun _ k s =>
    if !privOf s k 2 || sanact ≠ 4 || s.order = 2 || !s.master || s.vol.ns.any (fun e => e.2.enc = 0) then ends ctx cid .invalidField s
    else if s.nvm.sanitize.isSome then ends ctx cid .sanitizeInProgress s
    else
      let nss := s.vol.ns.map (·.1)
      let slots := nss.map (· - 1)
      let s := raise 326 (ctrlParam (((s.ctx ctx).ctrl).getD 0) 0) (s.onNvm fun n => { n with sanitize := if slots.isEmpty then none else some slots, sanDone := slots.isEmpty })
      let s := forAll nss emptyNs s
      let s := forAll slots (fun i => destroySlot i false none) s
      ends ctx cid .success (doIf slots.isEmpty (raise 327 0) s)) s)

/-! ## Letterbox commands -/

/-- A name in data words: 1 to 223 bytes, zero-padded. -/
def nameOk (ws : List Word) : Bool := let n := trimName ws; !n.isEmpty && decide (n.length ≤ 56) && decide (bits 31 24 (wordAt ws 55) = 0)

/-- NVM.SET_SUBSYSTEM (R451). -/
def deskNvmSetSubsystem (p : Packet) (s : State) : Desk :=
  let n := bits 5 0 (p.w 2)
  check s.master stNotOwner s fun s =>
  guardParam (clean (mask 5 0) (p.w 2) && decide (1 ≤ n) && decide (n ≤ 56) && nameOk (p.data 1)) s fun s =>
  check (!s.nvm.ctrls.any fun c => !c.2.disc) stConflict s fun s =>
    let s := s.onNvm fun d => { d with nqn := some (trimName (p.data 1)) }
    okay (forAll ((otherShelves s).filter (reachable s)) sendDisc (shadow .stateWrite 5 0 s))

/-- NVM.SET_SUBSYSTEM (R451). -/
def execNvmSetSubsystem (p : Packet) (s : State) : Out := letterData 0x0501 1 (bits 5 0 (p.w 2)) p s (deskNvmSetSubsystem p)

/-- NVM.GET_SUBSYSTEM (R451). -/
def deskNvmGetSubsystem (_p : Packet) (s : State) : Desk :=
  let n := trimName (subsysNqn s)
  answer ([fld 11 0 s.nvm.ctrls.length ||| fld 27 16 s.nvm.hosts.length, fld 12 0 s.vol.ns.length ||| flag 16 s.master, fld 5 0 n.length] ++ n) s

/-- NVM.GET_SUBSYSTEM (R451). -/
def execNvmGetSubsystem (p : Packet) (s : State) : Out := letter 0x0502 0 p s (deskNvmGetSubsystem p)

/-- NVM.SET_HOST (R446, Table 9.14). -/
def deskNvmSetHost (p : Packet) (s : State) : Desk :=
  let n := bits 5 0 (p.w 2)
  let h := bits 10 0 (p.w 3)
  let sub := bits 26 16 (p.w 3)
  let w := p.w 4
  let mc := bits 4 0 (p.w 5)
  let force := bit 8 (p.w 5)
  let name := trimName (p.data 4)
  guardParam (clean (mask 5 0) (p.w 2) && decide (1 ≤ n) && decide (n ≤ 56) && clean (mask 10 0 ||| mask 26 16 ||| mask 31 31) (p.w 3)
      && clean (mask 3 0 ||| mask 10 8 ||| mask 14 12 ||| mask 20 16) w && clean (mask 4 0 ||| mask 8 8) (p.w 5) && decide (1 ≤ mc) && decide (mc ≤ 16)
      && nameOk (p.data 4) && !(bit 8 w && (decide (bits 14 12 w = 0) || decide (bits 20 16 w = 0))) && !(bit 10 w && decide (s.order = 2))) s fun s =>
  check (!s.nvm.hosts.any fun e => e.1 != h && trimName e.2.nqn = name) stConflict s fun s =>
    let old := tabFind s.nvm.hosts h
    let moved := match old with | some e => e.nqn != name || e.sub != sub | none => false
    let live := ctrlsOfHost s h
    check (!moved || live.isEmpty || force) stConflict s fun s =>
      let s := doIf moved (forAll live fun c => endCtrl c 3) s
      let e : HostEnt := (tabFind s.nvm.hosts h).getD {}
      okay (s.onNvm fun d => { d with hosts := tabIns d.hosts h { e with
        nqn := name, sub := sub, enable := bit 31 (p.w 3), priv := bits 3 0 w, auth := bit 8 w, bidir := bit 9 w, tlsReq := bit 10 w,
        hashes := bits 14 12 w, dhg := bits 20 16 w, maxCtrl := mc } })

/-- NVM.SET_HOST (R446). -/
def execNvmSetHost (p : Packet) (s : State) : Out := letterData 0x0503 4 (bits 5 0 (p.w 2)) p s (deskNvmSetHost p)

/-- NVM.DELETE_HOST (R447). -/
def deskNvmDeleteHost (p : Packet) (s : State) : Desk :=
  let h := bits 10 0 (p.w 2)
  guardParam (clean (mask 10 0 ||| mask 16 16) (p.w 2)) s fun s =>
  check (tabHas s.nvm.hosts h) stNotFound s fun s =>
    let live := ctrlsOfHost s h
    check (live.isEmpty || bit 16 (p.w 2)) stConflict s fun s =>
      okay ((forAll live (fun c => endCtrl c 3) s).onNvm fun d => { d with hosts := tabDel d.hosts h })

/-- NVM.DELETE_HOST (R447). -/
def execNvmDeleteHost (p : Packet) (s : State) : Out := letter 0x0504 1 p s (deskNvmDeleteHost p)

/-- NVM.GET_HOST (R447). -/
def deskNvmGetHost (p : Packet) (s : State) : Desk :=
  let h := bits 10 0 (p.w 2)
  guardParam (clean (mask 10 0) (p.w 2)) s fun s =>
    match tabFind s.nvm.hosts h with
    | none => deny stNotFound s
    | some e =>
      answer ([fld 10 0 e.sub ||| fld 14 11 e.priv ||| flag 15 e.auth ||| flag 16 e.bidir ||| flag 17 e.tlsReq ||| flag 18 e.enable,
        fld 2 0 e.hashes ||| fld 7 3 e.dhg ||| flag 8 e.secret.isSome ||| flag 9 e.ctrlSecret.isSome ||| flag 10 e.psk.isSome
          ||| fld 15 11 (ctrlsOfHost s h).length ||| flag 16 e.bound.isSome ||| fld 29 24 e.nqn.length] ++ wordsOf 4 (e.bound.getD 0) ++ e.nqn) s

/-- NVM.GET_HOST (R447). -/
def execNvmGetHost (p : Packet) (s : State) : Out := letter 0x0505 1 p s (deskNvmGetHost p)

/-- NVM.SET_HOST_SECRET (R448, Table 9.15). -/
def deskNvmSetHostSecret (p : Packet) (s : State) : Desk :=
  let n := bits 4 0 (p.w 2)
  let h := bits 10 0 (p.w 3)
  let kind := bits 17 16 (p.w 3)
  let tr := bits 21 20 (p.w 3)
  let wrapped := bit 24 (p.w 3)
  let clr := bit 25 (p.w 3)
  let plain := if wrapped then n - 2 else n
  check (if clr then decide (n = 0) else if kind = 2 then decide (plain = 12) else (plain = 8 || plain = 12 || plain = 16)) stBadLength s fun s =>
  guardParam (clean (mask 4 0) (p.w 2) && clean (mask 10 0 ||| mask 17 16 ||| mask 21 20 ||| mask 25 24) (p.w 3) && decide (kind < 3)
      && !((decide (kind = 2) || wrapped) && decide (s.order = 2))) s fun s =>
  check (tabHas s.nvm.hosts h) stNotFound s fun s =>
  check (!wrapped || clr || s.key.kek.isSome) stNotFound s fun s =>
    match if clr then some [] else if wrapped then Config.kwUnwrap (s.key.kek.getD []) (p.data 2) else some (p.data 2) with
    | none => deny stIntegrity (count1 5177 s)
    | some key =>
      let v := if clr then none else some (tr, key)
      okay (onHost h (fun e => match kind with | 0 => { e with secret := v } | 1 => { e with ctrlSecret := v } | _ => { e with psk := v }) s)

/-- NVM.SET_HOST_SECRET (R448). -/
def execNvmSetHostSecret (p : Packet) (s : State) : Out := letterData 0x0506 2 (bits 4 0 (p.w 2)) p s (deskNvmSetHostSecret p)

/-- Started I/O commands of a controller. -/
def ctrlInflight (s : State) (n : Nat) : Nat := tabCount s.nvm.tags fun _ c => decide (c.cmd.a.ctx < 65536) && (s.ctx c.cmd.a.ctx).ctrl = some n

/-- NVM.GET_CONTROLLER (R449, Table 9.16). -/
def deskNvmGetController (p : Packet) (s : State) : Desk :=
  let n := bits 15 0 (p.w 2)
  guardParam (clean (mask 15 0) (p.w 2)) s fun s =>
    match tabFind s.nvm.ctrls n with
    | none => deny stNotFound s
    | some c =>
      answer [fld 1 0 (if c.needAuth && !c.authd then 1 else 2) ||| flag 2 c.authd ||| flag 3 c.en ||| flag 4 c.disc ||| fld 26 16 c.host,
        fld 7 0 c.ioqa ||| fld 15 8 (ioqc s n) ||| fld 19 16 c.aers.length, word c.kato,
        word (if s.md.kumel = .running then (c.kaAt - s.clk.now) / ms else c.kato), fld 18 0 (ctrlInflight s n)] s

/-- NVM.GET_CONTROLLER (R449). -/
def execNvmGetController (p : Packet) (s : State) : Out := letter 0x0507 1 p s (deskNvmGetController p)

/-- NVM.END_CONTROLLER (R449). -/
def deskNvmEndController (p : Packet) (s : State) : Desk :=
  let n := bits 15 0 (p.w 2)
  guardParam (clean (mask 15 0) (p.w 2)) s fun s =>
  check (tabHas s.nvm.ctrls n) stNotFound s fun s => okay (endCtrl n 2 s)

/-- NVM.END_CONTROLLER (R449). -/
def execNvmEndController (p : Packet) (s : State) : Out := letter 0x0508 1 p s (deskNvmEndController p)

/-- NVM.SET_TAG_LIMIT (R450). -/
def deskNvmSetTagLimit (p : Packet) (s : State) : Desk :=
  let m := bits 18 0 (p.w 3)
  guardParam (clean (mask 10 0) (p.w 2) && clean (mask 18 0) (p.w 3) && decide (64 ≤ m) && decide (m ≤ 262144)) s fun s =>
    okay (onSub (bits 10 0 (p.w 2)) (fun x => { x with maxTags := m }) s)

/-- NVM.SET_TAG_LIMIT (R450). -/
def execNvmSetTagLimit (p : Packet) (s : State) : Out := letter 0x0509 2 p s (deskNvmSetTagLimit p)

/-- NVM.GET_TAGS (R450). -/
def deskNvmGetTags (p : Packet) (s : State) : Desk :=
  let i := bits 11 0 (p.w 2)
  guardParam (clean (mask 11 0) (p.w 2) && decide (i ≤ 2048)) s fun s =>
    if i = 2048 then answer [fld 18 0 s.nvm.tags.length, fld 18 0 262144] s
    else answer [fld 18 0 (tagsOf s i), fld 18 0 (s.sub i).maxTags] s

/-- NVM.GET_TAGS (R450). -/
def execNvmGetTags (p : Packet) (s : State) : Out := letter 0x050A 1 p s (deskNvmGetTags p)

end Sys2Proof.Machine
end

