-- ==== Sys2Proof/Machine/Xpt.lean ====
section
/-! DEFINITION. What both transport engines share: admission of connections, new contexts, the Pigeonhole cache and its pending
lists, and the XPT commands of the pool (R366–R379). -/
namespace Sys2Proof.Machine

/-! ## Admission (R377) -/

/-- A context is free. -/
def ctxFree (s : State) : Bool := decide (tabCount s.xpt.ctxs (fun _ x => x.st != .free) < 65536)

/-- Connections that a source address holds. -/
def connsOf (s : State) (src : Nat) : Nat := tabCount s.xpt.ctxs fun _ x => x.st != .free && decide (x.src = src)

/-- The connect admission connAdmits a connection from a source. -/
def connAdmits (s : State) (src : Nat) : Bool := ctxFree s && decide (connsOf s src < s.xpt.srcmax)

/-- Count a refusal; XPT.POOL_EXHAUSTED once per exhaustion of the pool. -/
def refuseAdmission (s : State) : State :=
  let s' := count1 2095 s
  if ctxFree s || s.xpt.poolTold then s' else raise 264 0 (s'.onXpt fun x => { x with poolTold := true })

/-- The lowest free context number. -/
def freeCtxNo (s : State) : Option Nat := tabFree (tabFilter s.xpt.ctxs fun _ x => x.st != .free) 0 65536

/-- Contexts resident in the Pigeonhole cache (R367). -/
def residents (s : State) : Nat := tabCount s.xpt.ctxs fun _ x => x.resident

/-- Take a context for a connection; its record enters the cache where a slot is free. DEDUCED (log 137, unsafe). -/
def openCtx (c : Nat) (x : Ctx) (s : State) : State :=
  shadow .stateWrite 4 c (s.onXpt fun d => { d with ctxs := tabIns d.ctxs c { x with resident := decide (residents s < 8192), ref := true } })

/-- The line rate of a logical port, MB/s (R289). -/
def lineRate (s : State) (l : Nat) : Rat := lportRate s l * 125

/-! ## Fills and evictions (R368–R374) -/

/-- Cells of 256 bytes that a held packet takes in the pending-list pool. -/
def pendCells (bytes : Nat) : Nat := (bytes + 255) / 256

/-- Frame bytes of a held packet. -/
def PendPkt.bytes : PendPkt → Nat
  | .roce p => p.bytes
  | .ack h _ _ => h.bytes
  | .resp h _ _ _ _ _ _ => h.bytes
  | .cnp h => h.bytes
  | .tcp p => p.bytes
  | .fin _ _ => 64
  | .rst _ _ => 64

/-- Frame bytes of a held packet as a capture stores them (Table 5.6). -/
def PendPkt.frame : PendPkt → List Word
  | .roce p => p.frame
  | .ack h _ _ => h.frame
  | .resp h _ _ _ _ _ _ => h.frame
  | .cnp h => h.frame
  | .tcp p => p.frame
  | .fin _ f => f
  | .rst _ f => f

/-- A front frame comes for an engine (R176, R178, R206, R756): a module that does not serve its front ports, and an analysis port, discard
it and count it; in Drowse, and in the freeze of a planned take-over, it is held, and one that brings a command or a connection request
starts the exit (R150); after the handover it goes to the new active. What the engine takes is shadowed first (R730). -/
def toEngine (lport obj : Nat) (hold : Woken) (wakes : Bool) (take : State → State) (s : State) : State :=
  if !servesFront s || isAnalysis s lport then count1 (1344 + lport % 32) s
  else match s.pair.take with
    | some .forward => forwardFrame 0 0 lport 0 s
    | some _ => { s with woken := s.woken ++ [hold] }
    | none =>
      if s.md.mode = .drowse then doIf wakes beginDrowseExit { s with woken := s.woken ++ [hold] }
      else take (shadow .shadow 1 obj s)

/-- Raise XPT.PENDING_DROP, at most once per second (R373). -/
def notePendDrop (c : Nat) (s : State) : State :=
  let recent := match s.xpt.dropAt with | none => false | some t => decide (s.clk.now < t + sec)
  if recent then s else raise 263 (ctxParam c 0) (s.onXpt fun x => { x with dropAt := some s.clk.now })

/-- A packet joins its context's pending list, or is dropped over a limit (R373); a fill is asked for (R370). DEDUCED (log 144, unsafe). -/
def holdPkt (c : Nat) (k : PendPkt) (s : State) : State :=
  let x := s.ctx c
  let s := needFill c s
  if 64 ≤ x.pend.length || 262144 < sumNat (x.pend.map PendPkt.bytes) + k.bytes then notePendDrop c (count1 2100 s)
  else if s.net.pend < sumNat (s.xpt.ctxs.map fun e => sumNat (e.2.pend.map fun p => pendCells p.bytes)) + pendCells k.bytes then notePendDrop c (count1 2101 s)
  else count1 2099 (onCtx c (fun x => { x with pend := x.pend ++ [k] }) s)

/-- A packet of a context is processed now, or joins its pending list (R370, R372). -/
def packetFor (c : Nat) (k : PendPkt) (now : State → State) (s : State) : State :=
  let x := s.ctx c
  if !x.resident || !x.pend.isEmpty || x.tlsHeld then holdPkt c k s else now (onCtx c (fun x => { x with ref := true }) s)

/-- R371: the fill of first need starts, while fewer than 256 are in flight, 100 ns after the last at the earliest, and with a cache slot for
its record (R367). -/
def execContextFillStart (s : State) : Out :=
  .next (match s.xpt.fillq with
    | [] => s
    | c :: cs =>
      let flying := tabCount s.xpt.ctxs fun _ x => x.fill = 2
      if 256 ≤ flying || 8192 ≤ residents s + flying || s.xpt.fillAt.any (fun t => decide (s.clk.now < t + 100)) then s
      else count1 2097 (onCtx c (fun x => { x with fill := 2 }) (s.onXpt fun x => { x with fillq := cs, fillAt := some s.clk.now })))

/-- A record holds poison (R374): the context enters ERROR with cause 7, and its held packets go to the dead-letter queue. -/
def poisonCtx (c : Nat) (s : State) : State :=
  let ps := (s.ctx c).pend
  let lp := (s.ctx c).lport
  let s := raise 265 (ctxParam c 7) (count1 2102 (onCtx c (fun x => { x with poison := true, fill := 0, resident := true }) s))
  forAll ps (fun k s => deadLetter 2 lp k.bytes (some c) k.frame s) (ctxError c 7 s)

/-- The CLOCK sweep over context numbers: the hand passes candidates, clearing referenced bits, to the first unset one (R368). -/
def clockCtx : List Nat → State → Option State
  | [], _ => none
  | c :: cs, s =>
    let x := s.ctx c
    if !x.resident || x.pinned || !x.pend.isEmpty || x.fill ≠ 0 then clockCtx cs s
    else if x.ref then clockCtx cs (onCtx c (fun x => { x with ref := false }) s)
    else some (shadow .stateWrite 4 c (count1 2098 ((onCtx c (fun x => { x with resident := false }) s).onXpt fun d => { d with hand := (c + 1) % 65536 })))

/-- Evict until 128 slots are free, or no candidate is left. -/
def evictUntil : Nat → State → State
  | 0, s => s
  | fuel + 1, s =>
    if 128 ≤ 8192 - residents s then s
    else
      let ks := s.xpt.ctxs.map (·.1)
      let ring := (ks.filter fun k => decide (s.xpt.hand ≤ k)) ++ ks.filter fun k => decide (k < s.xpt.hand)
      match clockCtx (ring ++ ring) s with
      | some s => evictUntil fuel s
      | none => s

/-- R368: fewer than 64 cache slots are free. -/
def execContextEvict (s : State) : Out := .next (if 8192 - residents s < 64 then evictUntil 128 s else s)

/-! ## Commands of the pool -/

/-- XPT.SET_POOL (R369, Table 8.9). -/
def deskXptSetPool (p : Packet) (s : State) : Desk :=
  let sub := bits 10 0 (p.w 2)
  let pin := bit 16 (p.w 2)
  let set := bit 17 (p.w 2)
  let src := bits 16 0 (p.w 3)
  guardParam (clean (mask 10 0 ||| mask 17 16) (p.w 2) && clean (mask 16 0) (p.w 3) && (!set || (decide (1 ≤ src) && decide (src ≤ 65536)))) s fun s =>
    let mine := fun (x : Ctx) => x.st != .free && decide (x.sub = sub) && x.ctrl.isSome
    let more := tabCount s.xpt.ctxs fun _ x => mine x && !x.pinned
    check (!pin || decide (pinnedCtxs s + more ≤ 4096)) stNoResource s fun s =>
      let s := onSub sub (fun x => { x with pin := pin }) s
      okay (s.onXpt fun d => { d with srcmax := if set then src else d.srcmax, ctxs := tabMap d.ctxs fun _ x => if mine x then { x with pinned := pin } else x })

/-- XPT.SET_POOL (R369). -/
def execXptSetPool (p : Packet) (s : State) : Out := letter 0x040E 2 p s (deskXptSetPool p)

/-- XPT.GET_POOL (Table 8.10). -/
def deskXptGetPool (_p : Packet) (s : State) : Desk :=
  answer [fld 16 0 (65536 - tabCount s.xpt.ctxs fun _ x => x.st != .free), fld 13 0 (residents s) ||| fld 28 16 (pinnedCtxs s),
    fld 8 0 (tabCount s.xpt.ctxs fun _ x => x.fill = 2) ||| fld 31 16 (min 65535 (sumNat (s.xpt.ctxs.map fun e => e.2.pend.length))),
    fld 13 0 s.xpt.syns.length ||| fld 25 16 s.xpt.admq.length] s

/-- XPT.GET_POOL (Table 8.10). -/
def execXptGetPool (p : Packet) (s : State) : Out := letter 0x040F 0 p s (deskXptGetPool p)

/-- The code of a connection state (Table 7.4). -/
def CState.code : CState → Nat
  | .free => 0 | .connecting => 1 | .ready => 2 | .closing => 3 | .error => 4 | .timewait => 5 | .tls => 6

/-- XPT.GET_CONNECTION (Tables 7.16 and 8.11, R331, R383). -/
def deskXptGetConnection (p : Packet) (s : State) : Desk :=
  let c := bits 15 0 (p.w 2)
  guardParam (clean (mask 15 0) (p.w 2)) s fun s =>
    let x := s.ctx c
    if x.st = .free then answer [0, 0, 0, 0, 0, 0, 0] s
    else
      let w2 := fld 2 0 x.st.code ||| flag 4 x.tcp ||| flag 5 x.resident ||| fld 12 8 x.lport ||| fld 26 16 x.sub
      let w8 := fld 7 0 x.cause ||| flag 8 (s.sub x.sub).countWait ||| fld 31 16 x.inflight
      let mid := if x.tcp then
          [fld 15 0 x.sport ||| fld 31 16 x.rport, word x.sndUna, word x.sndNxt, word x.rcvNxt,
           fld 19 0 (min 1048575 x.cwnd) ||| flag 24 x.tlsOn ||| flag 25 x.hdgst ||| flag 26 x.ddgst ||| flag 27 x.ecnOk]
        else [fld 23 0 (x.gen * 65536 + c), fld 23 0 x.rqpn, fld 23 0 x.epsn, fld 23 0 x.npsn, fld 23 0 x.rate.rc.floor.toNat]
      answer ([w2] ++ mid ++ [w8]) s

/-- XPT.GET_CONNECTION (R331, R383). -/
def execXptGetConnection (p : Packet) (s : State) : Out := letter 0x0404 1 p s (deskXptGetConnection p)

/-- XPT.CLOSE_CONNECTION (R332, R384). -/
def deskXptCloseConnection (p : Packet) (s : State) : Desk :=
  let c := bits 15 0 (p.w 2)
  guardParam (clean (mask 15 0) (p.w 2)) s fun s =>
  check ((s.ctx c).st != .free) stNotFound s fun s =>
    let x := s.ctx c
    okay (if x.st = .ready || x.st = .connecting || (x.tcp && x.st = .tls) then ctxError c 9 s else s)

/-- XPT.CLOSE_CONNECTION (R332, R384). -/
def execXptCloseConnection (p : Packet) (s : State) : Out := letter 0x0405 1 p s (deskXptCloseConnection p)

end Sys2Proof.Machine
end

