-- ==== Sys2Proof/Machine/Rdma.lean ====
section
/-! DEFINITION. The RDMA engine (chapter 7): connection management, sequence numbers, acknowledgement and resends, rate
reaction, Poste Restante and Tally regions, and their commands. -/
namespace Sys2Proof.Machine

/-! ## PSNs and responses -/

/-- The AETH of an acknowledgement: its kind (0 ACK, 1 RNR NAK, 3 NAK) in [30:29], code or credit count in [28:24], and MSN. An ACK's
credit code is 31, invalid (R259). PRESUMED (log 209, safe). -/
def aeth (kind code msn : Nat) : Word := fld 30 29 kind ||| fld 28 24 code ||| fld 23 0 msn

/-- The UDP source port of a connection: a hash of both QPNs in the range 0xC000–0xFFFF, the same for its life (R259); which hash is
open. DESIGN CHOICE (log 210, safe). -/
def srcPort (c : Nat) (x : Ctx) : Nat := 0xC000 + (Config.qpnHash (x.gen * 65536 + c) x.rqpn).toNat

/-- Send the cumulative acknowledgement with the MSN (R278). Like every AETH of the module it carries credit code 31 (R259), which
`aeth` writes. -/
def sendAck (c : Nat) (s : State) : State :=
  let x := s.ctx c
  emitCtx c none [0] { kind := .ack, a := c, b := (x.epsn + 2 ^ 24 - 1) % 2 ^ 24, c := x.msn, ws := [aeth 0 31 x.msn] } (count1 2049 (onCtx c (fun x => { x with unacked := 0, ackAt := none }) s))

/-- Send a NAK: 0 PSN Sequence Error, 1 Invalid Request, 2 Remote Access Error, 3 Remote Operational Error. -/
def sendNak (c code : Nat) (s : State) : State :=
  emitCtx c none [0] { kind := .nak, a := c, b := code, c := (s.ctx c).epsn, ws := [aeth 3 code (s.ctx c).msn] } (count1 2049 s)

/-- A NAK that puts the context into ERROR (R276, R312). -/
def nakError (c code cause : Nat) (s : State) : State := ctxError c cause (sendNak c code s)

/-- A request packet was executed (R277, R278): ePSN advances by `n`, and an ACK is sent where one is due. -/
def tookPkt (c n : Nat) (msg ackReq : Bool) (s : State) : State :=
  let s := onCtx c (fun x => { x with
    epsn := (x.epsn + n) % 2 ^ 24, msn := (x.msn + if msg then 1 else 0) % 2 ^ 24, nakSent := false, unacked := x.unacked + 1,
    ackAt := some (x.ackAt.getD (s.clk.now + us)) }) s
  if ackReq || decide (16 ≤ (s.ctx c).unacked) then sendAck c s else s

/-- A response in packets of `lens` payload bytes covers what was received (R278, R279). -/
def respondData (c : Nat) (lens : List Nat) (m : OutMsg) (s : State) : State :=
  emitCtx c none lens m (count 2049 lens.length (onCtx c (fun x => { x with unacked := 0, ackAt := none }) s))

/-- A received packet with CE set draws a CNP, at most one per CNPGAP (R288). -/
def markCe (c : Nat) (ce : Bool) (s : State) : State :=
  let ok := match (s.ctx c).cnpAt with | none => true | some t => decide (t + s.xpt.cnpgap * us ≤ s.clk.now)
  if ce && ok then emitCtx c none [16] { kind := .cnp, a := c } (count1 2049 (count1 2057 (onCtx c (fun x => { x with cnpAt := some s.clk.now }) s))) else s

/-! ## Regions (R307–R327) -/

/-- A region by its index; 4096 is the Tally region (R325). -/
def State.region (s : State) (i : Nat) : Option Region :=
  if i = 4096 then some (tabGet { rights := 1, pages := 16, key := Config.tallyTag.toNat } s.xpt.regions 4096) else tabFind s.xpt.regions i

/-- Change a region in use. -/
def onRegion (i : Nat) (f : Region → Region) (s : State) : State := s.onXpt fun x => { x with regions := tabUpd x.regions i f }

/-- The R_Key of a region (R309). -/
def rkeyOf (i : Nat) (r : Region) : Nat := i + r.key * 8192

/-- The checks of Table 7.10 in order: the NAK of the first that fails. `right` is bit 0 READ, 1 WRITE, 2 ATOMIC. -/
def regionFail (s : State) (sub rkey off len right : Nat) : Option Nat :=
  match s.region (rkey % 8192) with
  | none => some 2
  | some r =>
    if rkeyOf (rkey % 8192) r ≠ rkey then some 2
    else match tabFind r.grants sub with
      | none => some 2
      | some g =>
        if !(r.rights &&& g).testBit right then some 2
        else if r.pages * 4096 < off + len then some 2
        else if right = 2 && off % 8 ≠ 0 then some 1
        else none

/-- A denied access: NAK, ERROR with cause 4 or 5, and XPT.REGION_ACCESS_DENIED once in any 1 s for each region (R312). -/
def denyRegion (c rkey code right : Nat) (s : State) : State :=
  let i := rkey % 8192
  let recent := match tabFind s.xpt.denied i with | none => false | some t => decide (s.clk.now < t + sec)
  let s := count1 2064 (doIf (i = 4096 && right = 0) (count1 2065) s)
  let s := if recent then s else raise 257 (fld 15 0 c ||| fld 28 16 i) (s.onXpt fun x => { x with denied := tabIns x.denied i s.clk.now })
  nakError c code (if code = 1 then 5 else 4) s

/-- The aligned words that a byte range touches. -/
def wordsTouched (off len : Nat) : List Nat := if len = 0 then [] else (List.range ((off + len - 1) / 8 + 1 - off / 8)).map (off / 8 + ·)

/-- Bytes `off` to `off + len` of a region as one number, first byte least significant. -/
def readRegion (r : Region) (off len : Nat) : Nat :=
  let v := (wordsTouched off len).foldr (fun k a => (tabGet 0 r.words k).toNat + a * 2 ^ 64) 0
  v >>> (8 * (off % 8)) % 2 ^ (8 * len)

/-- The canonical form of a region's contents: words in rising order, none of them 0, which an unlisted word reads as. -/
def Region.wf (r : Region) : Bool := tabWf r.words && r.words.all fun e => decide (e.2 ≠ 0)

/-- Write bytes into a region word by word (R314). -/
def writeRegion (off len v : Nat) (r : Region) : Region :=
  (wordsTouched off len).foldl (fun r k =>
    let lo := max off (8 * k)
    let hi := min (off + len) (8 * k + 8)
    let n := hi - lo
    let piece := (v >>> (8 * (lo - off)) % 2 ^ (8 * n)) <<< (8 * (lo - 8 * k))
    let m := (2 ^ (8 * n) - 1) <<< (8 * (lo - 8 * k))
    let old := (tabGet 0 r.words k).toNat
    let new := BitVec.ofNat 64 ((old &&& (2 ^ 64 - 1 - m)) ||| piece)
    { r with words := if new = 0 then tabDel r.words k else tabIns r.words k new }) r

/-- The words that a packet carries, as one number. -/
def dataNum (ws : List (BitVec 64)) : Nat := ws.foldr (fun w a => w.toNat + a * 2 ^ 64) 0

/-- The Tally region's entry of counter `n` (R929, R930). -/
def tallyEntry (s : State) (n : Nat) : Nat :=
  if !ctrAssigned n then 0 else let k := tabGet {} s.tal.ctrs n; k.val.toNat + if k.ovf then 2 ^ 48 else 0

/-- Bytes of the Tally region. -/
def readTally (s : State) (off len : Nat) : Nat :=
  ((wordsTouched off len).foldr (fun k a => tallyEntry s k + a * 2 ^ 64) 0) >>> (8 * (off % 8)) % 2 ^ (8 * len)

/-- A region access that its checks admit and that meets no poison; a request with zero length is not checked (R311, R317). DEDUCED (log 133, unsafe). -/
def regionOp (c rkey off total first len right : Nat) (k : State → State) (s : State) : State :=
  if total = 0 then k s
  else match regionFail s (s.ctx c).sub rkey off total right with
    | some code => denyRegion c rkey code right s
    | none =>
      let i := rkey % 8192
      if (match s.region i with | some r => (wordsTouched first len).any fun w => r.poison.contains w | none => false) then
        raise 259 (fld 15 0 c ||| fld 28 16 i) (nakError c 3 7 s)
      else k s

/-- The region of an R_Key is a once region. -/
def isOnce (s : State) (rkey : Nat) : Bool := match s.region (rkey % 8192) with | some r => r.once | none => false

/-- The replay entry whose PSN range holds a PSN (R320). DEDUCED (log 134, unsafe). -/
def replayOf (x : Ctx) (psn : Nat) : Option Replay := x.replay.find? fun e => decide (psnDiff psn e.first ≤ psnDiff e.last e.first)

/-! ## Request packets (R277–R280, R311–R327) -/

/-- The request targets a region. -/
def RoceOp.onRegion : RoceOp → Bool
  | .send _ _ | .invalid => false
  | _ => true

/-- A packet's part ends its message. -/
def Part.ends : Part → Bool
  | .only | .last => true
  | _ => false

/-- Store the packet's bytes of a WRITE, with its replay entry at the first packet of a message into a once region (R319). -/
def doWrite (c psn rkey off n : Nat) (data : List (BitVec 64)) (head : Option (Nat × Nat)) (s : State) : State :=
  let i := rkey % 8192
  let s := onRegion i (writeRegion off n (dataNum data)) s
  match head with
  | some (hoff, hlen) => if isOnce s rkey then
      onCtx c (fun x => { x with replay := (⟨psn, (psn + psnsOf x.mtu hlen - 1) % 2 ^ 24, rkey, hoff, hlen⟩ :: x.replay).take 64 }) s else s
  | none => s

/-- Serve an RDMA READ of a region or of the Tally region (R326, R327). -/
def doRead (c psn rkey off len : Nat) (s : State) : State :=
  let i := rkey % 8192
  let v := if i = 4096 then readTally s off len else match s.region i with | some r => readRegion r off len | none => 0
  let s := doIf (i = 4096) (count1 7681) s
  respondData c (framesOf (s.ctx c).mtu len) { kind := .readResp, a := c, b := psn, ws := [word len], ds := [v] } s

/-- Execute an atomic on its word, with its replay entry (R321, R322). -/
def doAtomic (c psn rkey off : Nat) (faa : Bool) (f : BitVec 64 → BitVec 64) (s : State) : State :=
  let i := rkey % 8192
  let old : BitVec 64 := match s.region i with | some r => tabGet 0 r.words (off / 8) | none => 0
  let new := f old
  let s := onRegion i (fun r => { r with words := if new = 0 then tabDel r.words (off / 8) else tabIns r.words (off / 8) new }) s
  let s := onCtx c (fun x => { x with atomics := (⟨psn, rkey, off, faa, old⟩ :: x.atomics).take 16 }) s
  respondData c [8] { kind := .atomicAck, a := c, b := psn, ds := [old.toNat] } s

/-- A request packet whose PSN is ePSN (R277). -/
def roceInSeq (c : Nat) (p : RocePkt) (s : State) : State :=
  let x := s.ctx c
  match p.op with
  | .invalid => nakError c 1 5 s
  | .send part bytes =>
    if !part.ends || x.st != .ready then tookPkt c 1 part.ends p.ackReq s
    else if bytes < 64 || 8256 < bytes then ctxError c 10 s
    else if 4194304 < sumNat (s.xpt.store.map (·.2)) + bytes then
      let s := if s.xpt.storeTold then s else raise 260 (ctxParam c 0) (s.onXpt fun d => { d with storeTold := true })
      emitCtx c none [0] { kind := .rnrNak, a := c, b := s.xpt.rnrt, c := x.epsn, ws := [aeth 1 s.xpt.rnrt x.msn] } (count1 2049 (count1 2056 s))
    else tookPkt c 1 true p.ackReq (s.onXpt fun d => { d with store := d.store ++ [(c, bytes)] })
  | .write part rkey off len data =>
    match part with
    | .only | .first =>
      let n := if part = .only then len else min x.mtu len
      regionOp c rkey off len off n 1 (fun s =>
        let s := if len = 0 then s else doWrite c p.psn rkey off n data (some (off, len)) s
        tookPkt c 1 (part = .only) p.ackReq (onCtx c (fun x => { x with inWrite := if part = .only then none else some (rkey, off + n, true, off + len) }) s)) s
    | _ => match x.inWrite with
      | none => nakError c 1 5 s
      | some (key, next, _, stop) =>
        let n := min x.mtu (stop - next)
        regionOp c key next n next n 1 (fun s =>
          let s := doWrite c p.psn key next n data none s
          tookPkt c 1 (part = .last) p.ackReq (onCtx c (fun x => { x with inWrite := if part = .last then none else some (key, next + n, true, stop) }) s)) s
  | .read rkey off len =>
    regionOp c rkey off len off len 0 (fun s => doRead c p.psn rkey off len (tookPkt c (psnsOf x.mtu len) true false s)) s
  | .cas rkey off cmp swap =>
    regionOp c rkey off 8 off 8 2 (fun s => doAtomic c p.psn rkey off false (fun v => if v = cmp then swap else v) (tookPkt c 1 true false s)) s
  | .faa rkey off add =>
    regionOp c rkey off 8 off 8 2 (fun s => doAtomic c p.psn rkey off true (· + add) (tookPkt c 1 true false s)) s

/-- A duplicate of an RDMA WRITE packet (Table 7.6, R320). -/
def dupWrite (c : Nat) (p : RocePkt) (part : Part) (rkey off len : Nat) (data : List (BitVec 64)) (s : State) : State :=
  let x := s.ctx c
  let head := part = .only || part = .first
  match replayOf x p.psn with
  | some e =>
    if head && !(e.rkey = rkey && e.off = off && e.len = len) then raise 258 (fld 15 0 c ||| fld 28 16 (e.rkey % 8192)) (nakError c 1 6 s)
    else sendAck c (count1 2060 s)
  | none =>
    if head then
      if len = 0 then sendAck c s
      else if isOnce s rkey then sendAck c (count1 2061 s)
      else
        let n := if part = .only then len else min x.mtu len
        regionOp c rkey off len off n 1 (fun s =>
          sendAck c (onCtx c (fun x => { x with inWrite := if part = .only then x.inWrite else some (rkey, off + n, true, off + len) }) (doWrite c p.psn rkey off n data none s))) s
    else match x.inWrite with
      | none => sendAck c s
      | some (key, next, _, stop) =>
        if isOnce s key then sendAck c (count1 2061 s)
        else
          let n := min x.mtu (stop - next)
          regionOp c key next n next n 1 (fun s =>
            sendAck c (onCtx c (fun x => { x with inWrite := if part = .last then none else some (key, next + n, true, stop) }) (doWrite c p.psn key next n data none s))) s

/-- A duplicate request packet (Table 7.6, R323, R324). -/
def roceDup (c : Nat) (p : RocePkt) (s : State) : State :=
  let x := s.ctx c
  let s := doIf s.pair.took (count1 5671) (count1 2051 s)
  let atomic := match x.atomics.find? fun a => a.psn = p.psn with
    | some a => respondData c [8] { kind := .atomicAck, a := c, b := p.psn, ds := [a.orig.toNat] } (count1 2062 s)
    | none => count1 2063 s
  match p.op with
  | .invalid => nakError c 1 5 s
  | .send _ _ => sendAck c s
  | .write part rkey off len data => dupWrite c p part rkey off len data s
  | .read rkey off len => regionOp c rkey off len off len 0 (doRead c p.psn rkey off len) s
  | .cas _ _ _ _ => atomic
  | .faa _ _ _ => atomic

/-- A request packet of a context in READY or CLOSING: policed where it targets a region (R313), then handled by its PSN. -/
def roceExec (c : Nat) (p : RocePkt) (s : State) : State :=
  let s := markCe c p.ce s
  let s := if p.psn = (s.ctx c).epsn then onCtx c (fun x => { x with nakSent := false }) s else s
  let (col, s) := if p.op.onRegion then
      let (col, s) := markItem (s.ctx c).sub p.dscp p.bytes s
      (col, countWatch (s.ctx c).sub col s)
    else (0, s)
  if col = 2 then count1 1905 s
  else
    let x := s.ctx c
    let d := psnDiff p.psn x.epsn
    if d = 0 then roceInSeq c p s
    else if 2 ^ 23 ≤ d then roceDup c p s
    else if x.nakSent then s
    else sendNak c 0 (count1 2052 (onCtx c (fun x => { x with nakSent := true }) s))

/-! ## Acknowledgements of the host (R281–R286) -/

/-- A PSN of what was sent and is not acknowledged. -/
def inWindow (x : Ctx) (psn : Nat) : Bool := decide (psnDiff psn x.una < psnDiff x.npsn x.una)

/-- The host has acknowledged everything up to a PSN (R282, R303), but for a READ whose own responses have not come: nothing from its
first such PSN on is acknowledged (R286). -/
def ackTo (c psn : Nat) (s : State) : State :=
  let x := s.ctx c
  if !inWindow x psn then s
  else
    let all := (psn + 1) % 2 ^ 24
    let una := match x.rdAt with
      | r :: _ => if psnDiff r x.una < psnDiff all x.una then r else all
      | [] => all
    let got := fun (m : SentMsg) => decide (psnDiff una (m.last + 1) < 2 ^ 23)
    let w := (x.sent.filter got).foldl (fun a m => m.wsn.getD a) x.acked
    releaseWaiting c (onCtx c (fun x => { x with
      una := una, sent := x.sent.filter fun m => !got m, acked := w, tries := 0, rnrTries := 0,
      toAt := if una = x.npsn then none else some (s.clk.now + ackTimeout s) }) s)

/-- The payload bytes of the packets from the oldest unacknowledged PSN of an RDMA context, of which an RDMA READ Request is one for all the
PSNs that it asks for (R282, R286). -/
def unackedFrames (x : Ctx) : List Nat :=
  let asked := sumNat (x.readOut.map fun r => psnsOf x.mtu r.2.2 - 1)
  List.replicate (max 1 (psnDiff x.npsn x.una - asked)) x.mtu

/-- Resend from the oldest unacknowledged PSN. DESIGN CHOICE (log 135, unsafe). -/
def resend (c : Nat) (s : State) : State :=
  emitCtx c none (unackedFrames (s.ctx c)) { kind := .replay, a := c, b := (s.ctx c).una } (onCtx c (fun x => { x with toAt := some (s.clk.now + ackTimeout s), ref := true }) s)

/-- The delays of the RNR timer codes, in 10 µs units (PRESUMED, the InfiniBand specification). -/
def rnrDelay (code : Nat) : Nat :=
  10 * us * ([65536, 1, 2, 3, 4, 6, 8, 12, 16, 24, 32, 48, 64, 96, 128, 192, 256, 384, 512, 768, 1024, 1536, 2048, 3072, 4096, 6144, 8192, 12288,
    16384, 24576, 32768, 49152].getD (code % 32) 1)

/-- An acknowledgement packet (R282–R284). -/
def ackExec (c : Nat) (ce : Bool) (psn : Nat) (k : AckKind) (s : State) : State :=
  let s := markCe c ce s
  let before := (psn + 2 ^ 24 - 1) % 2 ^ 24
  match k with
  | .ack => ackTo c psn s
  | .nakSeq => count1 2055 (resend c (ackTo c before (count1 2053 s)))
  | .nakFatal => ctxError c 3 (count1 2053 s)
  | .rnr t =>
    let s := ackTo c before (count1 2053 s)
    let x := s.ctx c
    if x.rnrRetry < 7 && x.rnrRetry ≤ x.rnrTries then ctxError c 2 s
    else onCtx c (fun x => { x with rnrTries := x.rnrTries + 1, toAt := none, resendAt := some (s.clk.now + rnrDelay t) }) s

/-- Place blocks that a repeated READ response carries again over the same bytes (R286). -/
def placeAgain (t gen off : Nat) (hs : List HBlk) (s : State) : State :=
  match s.cmdOf t with
  | none => s
  | some c => if c.gen ≠ gen || c.phase != .run then s else match s.nsOf c.cmd.a.nsid with
    | none => s
    | some n => (arriveBlks t c n off hs s).getD s

/-- An RDMA READ Response packet (R285, R286): the one that the oldest READ expects is placed and acknowledges its PSN; one for a PSN that
has been placed is placed again; one beyond a lost response is not taken, and its READ is issued again. DEDUCED (log 211, safe). -/
def respExec (c : Nat) (ce : Bool) (psn tag gen off : Nat) (blks : List HBlk) (last : Bool) (s : State) : State :=
  let s := markCe c ce s
  match (s.ctx c).rdAt with
  | [] => placeAgain tag gen off blks s
  | r :: rs =>
    if psn % 2 ^ 24 = r then
      let s := onCtx c (fun x => { x with rdAt := if last then rs else (r + 1) % 2 ^ 24 :: rs }) s
      let s := arriveData tag gen off blks (ackTo c psn s)
      if !last then s
      else pumpReads 8 c (onCtx c (fun x => { x with readOut := x.readOut.eraseP fun r => r.1 = tag, reads := x.reads - 1 }) s)
    else if psnDiff psn r < 2 ^ 23 then s
    else placeAgain tag gen off blks s

/-- Clip rates to the range from RMIN to the line rate (Table 7.7). -/
def clipRate (s : State) (l : Nat) (r : Rate) : Rate :=
  let hi := lineRate s l
  let lo : Rat := s.xpt.rmin
  { r with rc := max lo (min hi r.rc), rt := max lo (min hi r.rt) }

/-- A CNP cuts the context's rate (Table 7.7). -/
def cnpExec (c : Nat) (s : State) : State :=
  let x := s.ctx c
  let g : Rat := 1 / (2 ^ s.xpt.g : Nat)
  let a := (1 - g) * x.rate.alpha + g
  let recent := match x.rate.cutAt with | none => false | some t => decide (s.clk.now < t + s.xpt.cnpgap * us)
  let due_ := s.clk.now + s.xpt.period * us
  let s := doIf (!recent) (count1 2059) (count1 2058 s)
  let cut := fun (r : Rate) => clipRate s x.lport <| if recent then { r with alpha := a, due := due_ }
    else { r with rt := r.rc, rc := r.rc * (1 - r.alpha / 2), alpha := a, n := 0, cutAt := some s.clk.now, due := due_ }
  onCtx c (fun x => { x with rate := cut x.rate }) s

/-- R290: PERIOD elapses without a CNP. -/
def execRatePeriod (ctx : Nat) (s : State) : Out :=
  .next (
    let x := s.ctx ctx
    if x.tcp || !x.live || !due x.rate.due s.clk.now then s
    else
      let g : Rat := 1 / (2 ^ s.xpt.g : Nat)
      let n := x.rate.n + 1
      let rt : Rat := min (lineRate s x.lport) (if n ≤ 5 then x.rate.rt else if n ≤ 10 then x.rate.rt + s.xpt.rai else x.rate.rt + s.xpt.rhai)
      let r : Rate := { x.rate with alpha := (1 - g) * x.rate.alpha, n := n, rt := rt, rc := (x.rate.rc + rt) / 2, due := s.clk.now + s.xpt.period * us }
      shadow .stateWrite 4 ctx (onCtx ctx (fun x => { x with rate := clipRate s x.lport r }) s))

/-! ## Arrival -/

/-- Execute a held RDMA packet. -/
def rdmaExec (c : Nat) (k : PendPkt) (s : State) : State :=
  if (s.ctx c).st != .ready && (s.ctx c).st != .closing then s
  else match k with
    | .roce p => roceExec c p s
    | .ack h psn a => ackExec c h.ce psn a s
    | .resp h psn tag gen off blks last => respExec c h.ce psn tag gen off blks last s
    | .cnp h => cnpExec c (markCe c h.ce s)
    | _ => s

/-- A context enters READY, and its pending list is processed (R268, Table 7.4). DEDUCED (log 132, unsafe). -/
def enterReady (c : Nat) (first : State → State) (s : State) : State :=
  let ps := (s.ctx c).pend
  let s := first (onCtx c (fun x => { x with st := .ready, repAt := none, pend := [] }) s)
  forAll ps (rdmaExec c) (shadow .stateWrite 4 c s)

/-- A packet of a resident context: in CONNECTING the first valid one makes it READY, and others are held (Table 7.4). -/
def rdmaNow (c : Nat) (k : PendPkt) (s : State) : State :=
  if (s.ctx c).st = .connecting then
    match k with
    | .roce p => if p.psn = (s.ctx c).epsn then enterReady c (roceExec c p) s else holdPkt c k s
    | k => holdPkt c k s
  else rdmaExec c k s

/-- The packet ends a SEND, and so brings a command capsule. -/
def PendPkt.capsule : PendPkt → Bool
  | .roce p => match p.op with | .send part _ => part.ends | _ => false
  | .tcp p => p.pdus.any fun d => match d with | .capsule _ => true | _ => false
  | _ => false

/-- A RoCEv2 packet reaches the engine: ICRC, then its context (R260, R264, R370). -/
def roceTake (h : RoceHead) (rc : Bool) (k : PendPkt) (s : State) : State :=
  let s := count1 2048 s
  if !h.icrcOk then count1 2050 s
  else if !rc then deadLetter 1 h.lport h.bytes none h.frame s
  else
    let c := h.qpn % 65536
    let x := s.ctx c
    if x.st = .free || x.tcp || x.gen ≠ h.qpn / 65536 then deadLetter 1 h.lport h.bytes none h.frame (count1 2069 s)
    else if x.st = .error || x.st = .timewait then deadLetter 2 h.lport h.bytes (some c) h.frame s
    else if x.resident && x.st = .connecting then rdmaNow c k (onCtx c (fun x => { x with ref := true }) s)
    else packetFor c k (rdmaNow c k) s

/-- A RoCEv2 packet comes on a front port (R178, R279): the engine takes it, or it is held. One with a bad ICRC wakes nothing (R260). -/
def roceArrive (h : RoceHead) (rc : Bool) (k : PendPkt) (s : State) : State :=
  toEngine h.lport (h.qpn % 65536) (.roce h rc k) (h.icrcOk && k.capsule) (roceTake h rc k) s

/-- R277: a request packet of a host. -/
def execRoceRequestPacket (p : RocePkt) (s : State) : Out :=
  .next (roceArrive ⟨p.lport, p.qpn, p.icrcOk, p.ce, p.bytes, p.frame⟩ p.rc (.roce p) s)
/-- R282: an Acknowledge of a host. -/
def execRoceAckReceive (h : RoceHead) (psn : Nat) (k : AckKind) (s : State) : Out := .next (roceArrive h true (.ack h psn k) s)
/-- R286: an RDMA READ Response of a host. -/
def execRoceReadResponse (h : RoceHead) (psn tag gen off : Nat) (blks : List HBlk) (last : Bool) (s : State) : Out :=
  .next (roceArrive h true (.resp h psn tag gen off blks last) s)
/-- R290: a CNP of a host. -/
def execRoceCnpReceive (h : RoceHead) (s : State) : Out := .next (roceArrive h true (.cnp h) s)

/-! ## Timers -/

/-- R278: 1 µs after the oldest unacknowledged request packet. -/
def execAckCoalesceTimeout (ctx : Nat) (s : State) : Out :=
  .next (match (s.ctx ctx).ackAt with
    | none => s
    | some t => if due t s.clk.now && !(s.ctx ctx).tcp && 0 < (s.ctx ctx).unacked then withCtx ctx (sendAck ctx) s else s)

/-- R282, R283: the ACK timeout. -/
def execAckTimeout (ctx : Nat) (s : State) : Out :=
  .next (match (s.ctx ctx).toAt with
    | none => s
    | some t =>
      let x := s.ctx ctx
      if !due t s.clk.now || x.tcp || !x.live || !timersAct s then s
      else withCtx ctx (fun s =>
        if x.retry ≤ x.tries then ctxError ctx 1 s
        else count1 2054 (resend ctx (onCtx ctx (fun x => { x with tries := x.tries + 1 }) s))) s)

/-- R284: the delay of an RNR NAK ends. -/
def execRnrResend (ctx : Nat) (s : State) : Out :=
  .next (match (s.ctx ctx).resendAt with
    | none => s
    | some t =>
      if !due t s.clk.now || !(s.ctx ctx).live then s
      else withCtx ctx (fun s => count1 2055 (resend ctx (onCtx ctx (fun x => { x with resendAt := none }) s))) s)

/-! ## Connection management (R265–R274) -/

/-- The context of a module QPN in one of the live states. -/
def ctxOfQpn (s : State) (qpn : Nat) : Option Nat :=
  let x := s.ctx (qpn % 65536)
  if x.st = .free || x.tcp || x.gen ≠ qpn / 65536 then none else some (qpn % 65536)

/-- Send a REJ with a reason and the NVMe/RDMA status. -/
def sendRej (r : CmReq) (reason status : Nat) (s : State) : State :=
  emit ⟨r.lport, 0, 2048, 36, 0, 0, [0], { kind := .cmRej, a := r.qpn, b := reason, c := status }⟩ (count1 2067 s)

/-- Send the REP of a context (Table 7.3): module QPN, starting PSN, responder resources, initiator depth, ACK delay, RNR retry, CRQSIZE. -/
def sendRep (c : Nat) (s : State) : State :=
  let x := s.ctx c
  emitCtx c none [0] { kind := .cmRep, a := c, b := x.rqpn, c := srcPort c x, ws := [word (x.gen * 65536 + c), word x.una, 16, word x.depth, 2, 7, word x.sqsize] } s

/-- The checks of Table 7.2 after the first two, in order: the reason and status of the first that fails. DEDUCED (log 131, unsafe). -/
def reqFail (s : State) (r : CmReq) : Option (Nat × Nat) :=
  if r.svc ≠ 0x0000000001060000 + s.xpt.svc then some (8, 0)
  else if r.privLen < 32 then some (28, 1)
  else if r.recfmt ≠ 0 then some (28, 2)
  else if 128 < r.qid then some (28, 3)
  else if 1023 < r.hsq then some (28, 4)
  else if r.hrq < r.hsq then some (28, 5)
  else if 16 < r.ord then some (28, 8)
  else if r.ird < 1 then some (28, 7)
  else none

/-- A CM REQ is taken in the order of Table 7.2 (R266–R269). A module that refuses host connections has no resources for one (R143,
R778). -/
def cmReqTake (r : CmReq) (s : State) : State :=
    if !s.xpt.rports.testBit r.lport then s
    else if !r.rc then sendRej r 9 0 s
    else match s.xpt.ctxs.find? fun e => !e.2.tcp && decide (e.2.rqpn = r.qpn) && decide (e.2.src = r.src) && (e.2.st = .connecting || e.2.st = .ready) with
      | some (c, x) => if x.st = .connecting then sendRep c s else sendRej r 10 0 s
      | none => match reqFail s r with
        | some (a, b) => sendRej r a b s
        | none => if refusesHosts s then sendRej r 28 6 s
          else match (if connAdmits s r.src then freeCtxNo s else none) with
          | none => sendRej r 28 6 (refuseAdmission s)
          | some c =>
            let (v, s) := takeFree s
            let psn := v.toNat % 2 ^ 24
            let g := (s.ctx c).gen
            let line := lineRate s r.lport
            sendRep c (openCtx c {
              st := .connecting, lport := r.lport, src := r.src, qid := r.qid, sqsize := r.hsq, slots := r.hrq, gen := if g = 255 then 1 else g + 1,
              rqpn := r.qpn, epsn := r.psn, npsn := psn, una := psn, mtu := r.mtu, retry := r.retry, rnrRetry := r.rnr, depth := min r.ird 64,
              rate := { rc := line, rt := line, due := s.clk.now + s.xpt.period * us }, repAt := some (s.clk.now + 100 * ms) } s)

/-- R266–R269: a CM REQ. -/
def execCmReq (r : CmReq) (s : State) : Out :=
  .next (toEngine r.lport (r.qpn % 2 ^ 24) (.req r) true (cmReqTake r) (count1 2066 s))

/-- An RTU is taken (R268). -/
def rtuTake (qpn : Nat) (s : State) : State :=
  match ctxOfQpn s qpn with
  | none => s
  | some c => if (s.ctx c).st = .connecting then enterReady c id s else s

/-- R268: an RTU. -/
def execCmRtu (qpn : Nat) (s : State) : Out :=
  .next (toEngine (s.ctx (qpn % 65536)).lport (qpn % 65536) (.rtu qpn) false (rtuTake qpn) s)

/-- R268: 100 ms without RTU. -/
def execRepResend (ctx : Nat) (s : State) : Out :=
  .next (match (s.ctx ctx).repAt with
    | none => s
    | some t =>
      if !due t s.clk.now || (s.ctx ctx).st != .connecting then s
      else if 3 ≤ (s.ctx ctx).reps then freeCtx ctx s
      else sendRep ctx (onCtx ctx (fun x => { x with reps := x.reps + 1, repAt := some (s.clk.now + 100 * ms) }) s))

/-- A DREQ of the host is taken (R272). -/
def dreqTake (qpn : Nat) (s : State) : State :=
  match ctxOfQpn s qpn with
  | none => s
  | some c => closeCtx c false (emitCtx c none [0] { kind := .cmDrep, a := c } s)

/-- R272: a DREQ of the host. -/
def execCmDreq (qpn : Nat) (s : State) : Out :=
  .next (toEngine (s.ctx (qpn % 65536)).lport (qpn % 65536) (.dreq qpn) false (dreqTake qpn) s)

/-- A DREP is taken (R273). -/
def drepTake (qpn : Nat) (s : State) : State :=
  match ctxOfQpn s qpn with
  | none => s
  | some c => if (s.ctx c).st = .error then errorToTimewait c s else s

/-- R273: a DREP. -/
def execCmDrep (qpn : Nat) (s : State) : Out :=
  .next (toEngine (s.ctx (qpn % 65536)).lport (qpn % 65536) (.drep qpn) false (drepTake qpn) s)

/-- R273: 100 ms after the DREQ without a DREP. -/
def execDreqTimeout (ctx : Nat) (s : State) : Out :=
  .next (match (s.ctx ctx).dreqAt with
    | none => s
    | some t => if due t s.clk.now && (s.ctx ctx).st = .error then errorToTimewait ctx s else s)

/-- R274, R349: 50 ms in TIMEWAIT. -/
def execTimewaitExpiry (ctx : Nat) (s : State) : Out :=
  .next (match (s.ctx ctx).freeAt with
    | none => s
    | some t => if due t s.clk.now && (s.ctx ctx).st = .timewait then freeCtx ctx s else s)

/-! ## Commands -/

/-- XPT.SET_RDMA_PORTS (R262, R329, Table 7.13). -/
def deskXptSetRdmaPorts (p : Packet) (s : State) : Desk :=
  let m := (p.w 2).toNat
  let svc := if bits 15 0 (p.w 3) = 0 then 4420 else bits 15 0 (p.w 3)
  guardParam (clean (mask 17 0 ||| mask 24 24) (p.w 3)) s fun s =>
    let t := s.onXpt fun x => { x with rports := m, svc := svc, rv4 := bit 16 (p.w 3), rv6 := bit 17 (p.w 3) }
    check (!listenerClash t) stConflict s fun s =>
      let hit := (s.xpt.ctxs.filter fun e => e.2.live && !e.2.tcp && (!m.testBit e.2.lport || svc != s.xpt.svc)).map (·.1)
      check (hit.isEmpty || bit 24 (p.w 3)) stConflict s fun s =>
        okay (discChanged (syncListeners ((forAll hit (fun c => ctxError c 9) s).onXpt fun x =>
          { x with rports := m, svc := svc, rv4 := bit 16 (p.w 3), rv6 := bit 17 (p.w 3) })))

/-- XPT.SET_RDMA_PORTS (R329). -/
def execXptSetRdmaPorts (p : Packet) (s : State) : Out := letter 0x0401 2 p s (deskXptSetRdmaPorts p)

/-- Every context's rates are clipped to the range in force (Table 7.7). -/
def clipAll (s : State) : State :=
  s.onXpt fun d => { d with ctxs := tabMap d.ctxs fun _ x => if x.live && !x.tcp then { x with rate := clipRate s x.lport x.rate } else x }

/-- XPT.SET_RDMA_PARAMS (R330, Table 7.14). -/
def deskXptSetRdmaParams (p : Packet) (s : State) : Desk :=
  let rnrt := bits 12 8 (p.w 2)
  let gap := bits 15 0 (p.w 3)
  let g := bits 19 16 (p.w 3)
  guardParam (clean (mask 4 0 ||| mask 12 8) (p.w 2) && clean (mask 19 0) (p.w 3) && decide (1 ≤ rnrt) && decide (1 ≤ gap) && decide (1 ≤ g)
      && decide (1 ≤ bits 15 0 (p.w 4)) && decide (1 ≤ bits 31 16 (p.w 4)) && decide (1 ≤ bits 15 0 (p.w 5)) && decide (1 ≤ bits 31 16 (p.w 5))) s fun s =>
    okay (clipAll (s.onXpt fun x => { x with
      ackto := bits 4 0 (p.w 2), rnrt := rnrt, cnpgap := gap, g := g, rai := bits 15 0 (p.w 4), rhai := bits 31 16 (p.w 4),
      rmin := bits 15 0 (p.w 5), period := bits 31 16 (p.w 5) }))

/-- XPT.SET_RDMA_PARAMS (R330). -/
def execXptSetRdmaParams (p : Packet) (s : State) : Out := letter 0x0402 4 p s (deskXptSetRdmaParams p)

/-- XPT.SET_RELEASE (R305, Table 7.15). -/
def deskXptSetRelease (p : Packet) (s : State) : Desk :=
  guardParam (clean (mask 10 0 ||| mask 16 16) (p.w 2)) s fun s => okay (onSub (bits 10 0 (p.w 2)) (fun x => { x with countWait := bit 16 (p.w 2) }) s)

/-- XPT.SET_RELEASE (R305). -/
def execXptSetRelease (p : Packet) (s : State) : Out := letter 0x0403 1 p s (deskXptSetRelease p)

/-- Pages that regions hold. -/
def regionPages (s : State) : Nat := sumNat ((s.xpt.regions.filter fun e => e.1 != 4096).map fun e => e.2.pages)

/-- XPT.CREATE_REGION (R309, R333, Table 7.17). -/
def deskXptCreateRegion (p : Packet) (s : State) : Desk :=
  let i := bits 11 0 (p.w 2)
  let n := bits 20 0 (p.w 3)
  guardParam (clean (mask 15 0) (p.w 2) && clean (mask 20 0) (p.w 3) && decide (1 ≤ n) && decide (n ≤ 1048576)) s fun s =>
  check (!tabHas s.xpt.regions i) stConflict s fun s =>
  check (decide (regionPages s + n ≤ 1048576)) stNoResource s fun s =>
    let (v, s) := takeFree s
    let r : Region := { once := bit 12 (p.w 2), rights := bits 15 13 (p.w 2), pages := n, key := v.toNat % 2 ^ 19 }
    answer [word (rkeyOf i r)] (shadow .stateWrite 4 (65536 + i) (s.onXpt fun x => { x with regions := tabIns x.regions i r }))

/-- XPT.CREATE_REGION (R333). -/
def execXptCreateRegion (p : Packet) (s : State) : Out := letter 0x0406 2 p s (deskXptCreateRegion p)

/-- XPT.DELETE_REGION (R334). -/
def deskXptDeleteRegion (p : Packet) (s : State) : Desk :=
  let i := bits 11 0 (p.w 2)
  guardParam (clean (mask 11 0 ||| mask 16 16) (p.w 2)) s fun s =>
    match tabFind s.xpt.regions i with
    | none => deny stNotFound s
    | some r => check (r.grants.isEmpty || bit 16 (p.w 2)) stConflict s fun s => okay (s.onXpt fun x => { x with regions := tabDel x.regions i })

/-- XPT.DELETE_REGION (R334). -/
def execXptDeleteRegion (p : Packet) (s : State) : Out := letter 0x0407 1 p s (deskXptDeleteRegion p)

/-- Put a region's record back; the Tally region's appears at its first change. -/
def putRegion (i : Nat) (r : Region) (s : State) : State := s.onXpt fun x => { x with regions := tabIns x.regions i r }

/-- XPT.GRANT_REGION (R335, Table 7.18). -/
def deskXptGrantRegion (p : Packet) (s : State) : Desk :=
  let i := bits 12 0 (p.w 2)
  let sub := bits 10 0 (p.w 3)
  guardParam (clean (mask 12 0 ||| mask 19 16) (p.w 2) && clean (mask 10 0) (p.w 3) && decide (i ≤ 4096) && !(decide (i = 4096) && (bit 18 (p.w 2) || bit 19 (p.w 2)))) s fun s =>
    match s.region i with
    | none => deny stNotFound s
    | some r => okay (putRegion i { r with grants := if bit 16 (p.w 2) then tabDel r.grants sub else tabIns r.grants sub (bits 19 17 (p.w 2)) } s)

/-- XPT.GRANT_REGION (R335). -/
def execXptGrantRegion (p : Packet) (s : State) : Out := letter 0x0408 2 p s (deskXptGrantRegion p)

/-- XPT.REKEY_REGION (R336). -/
def deskXptRekeyRegion (p : Packet) (s : State) : Desk :=
  let i := bits 12 0 (p.w 2)
  guardParam (clean (mask 12 0) (p.w 2) && decide (i ≤ 4096)) s fun s =>
    match s.region i with
    | none => deny stNotFound s
    | some r =>
      let (v, s) := takeFree s
      let r := { r with key := v.toNat % 2 ^ 19 }
      answer [word (rkeyOf i r)] (shadow .stateWrite 4 (65536 + i) (putRegion i r s))

/-- XPT.REKEY_REGION (R336). -/
def execXptRekeyRegion (p : Packet) (s : State) : Out := letter 0x0409 1 p s (deskXptRekeyRegion p)

/-- XPT.GET_REGION (Table 7.19). -/
def deskXptGetRegion (p : Packet) (s : State) : Desk :=
  let i := bits 12 0 (p.w 2)
  guardParam (clean (mask 12 0) (p.w 2) && decide (i ≤ 4096)) s fun s =>
    let free := fld 20 0 (1048576 - regionPages s)
    match s.region i with
    | none => answer [0, 0, 0, free] s
    | some r => answer [word (rkeyOf i r), fld 20 0 r.pages ||| flag 24 r.once ||| fld 27 25 r.rights ||| flag 31 true, fld 11 0 r.grants.length, free] s

/-- XPT.GET_REGION (Table 7.19). -/
def execXptGetRegion (p : Packet) (s : State) : Out := letter 0x040A 1 p s (deskXptGetRegion p)

end Sys2Proof.Machine
end

