-- ==== Sys2Proof/Machine/Tcp.lean ====
section
/-! DEFINITION. The TCP engine (chapter 8): the SYN table, segments, acknowledgement and retransmission, NVMe/TCP PDUs, TLS,
the end of a context fill, and the engine's commands. -/
namespace Sys2Proof.Machine

/-! ## Listeners and the SYN table (R339–R341) -/

/-- The listener that a SYN reaches is enabled on its port, for its family and destination (R339). -/
def listens (s : State) (f : SynIn) : Bool :=
  (listenerEntries s).any fun e => decide (e.key = ⟨true, f.v6, 0, f.dst, 0, f.dport, 6, f.vid, f.tagged, f.lport⟩)

/-- Answer a segment with RST (R341, R342). No context carries it: it goes in S0 as the internal leaf's (log 208). -/
def answerRst (lport rport : Nat) (s : State) : State := emit ⟨lport, 0, 2048, 37, 0, 0, [0], { kind := .tcpReset, a := lport, b := rport }⟩ (count1 2081 s)

/-- Send an entry's SYN-ACK: the entry, the sequence number chosen, and the number acknowledged; then its MSS, its window, and its window
scale of 6, timestamps and ECN where the host offers them (Table 8.1). -/
def sendSynAck (i : Nat) (e : SynEnt) (s : State) : State :=
  let opts := fld 3 0 (if e.scale.isSome then 6 else 0) ||| flag 4 e.scale.isSome ||| flag 5 e.ts.isSome ||| flag 6 e.ecn
  let ws := [word e.own, word (min 65535 (s.xpt.rcvwin * 1024)), opts, word (e.ts.getD 0)]
  emit ⟨e.lport, 0, 2048, 37, 0, 0, [0], { kind := .synAck, a := i, b := e.isn, c := (e.irs + 1) % 2 ^ 32, ws := ws }⟩ (count1 2081 s)

/-- A SYN that finds the table full (R340). -/
def synFull (s : State) : State :=
  let s := count1 2094 s
  if s.xpt.synTold then s else raise 266 0 (s.onXpt fun x => { x with synTold := true })

/-- Free a SYN table entry. -/
def freeSyn (i : Nat) (s : State) : State := s.onXpt fun x => { x with syns := tabDel x.syns i, synTold := false }

/-- A SYN is taken (R340): a module that refuses host connections resets it (R143, R778), and so does one whose connection has a
manager's flow entry (R194). One whose connection is already in the table draws the same SYN-ACK. -/
def synTake (f : SynIn) (s : State) : State :=
    let s := count1 2080 s
    if !listens s f then s
    else if refusesHosts s || managerHolds s ⟨false, f.v6, f.src, f.dst, f.rport, f.dport, 6, f.vid, f.tagged, f.lport⟩ then answerRst f.lport f.rport s
    else match s.xpt.syns.find? fun e => decide (e.2.src = f.src) && decide (e.2.rport = f.rport) && decide (e.2.dst = f.dst) && decide (e.2.dport = f.dport) && decide (e.2.lport = f.lport) with
      | some (i, e) => sendSynAck i e s
      | none => match tabFree s.xpt.syns 0 8192 with
        | none => synFull s
        | some i =>
          let (v, s) := takeFree s
          let e : SynEnt := { src := f.src, rport := f.rport, lport := f.lport, dport := f.dport, v6 := f.v6, dst := f.dst, vid := f.vid, tagged := f.tagged,
                              tls := decide (f.dport = s.xpt.tlsPort), mss := f.mss, ecn := f.ecn && s.xpt.ecn, wnd := f.wnd, scale := f.scale,
                              ts := f.ts, own := s.xpt.mtu - (if f.v6 then 60 else 40), isn := v.toNat % 2 ^ 32, irs := f.seq % 2 ^ 32,
                              tries := 0, dueAt := s.clk.now + sec }
          sendSynAck i e (s.onXpt fun x => { x with syns := tabIns x.syns i e })

/-- R340: a SYN. -/
def execTcpSyn (f : SynIn) (s : State) : Out :=
  .next (toEngine f.lport (f.rport + 65536 * (f.dport % 256)) (.syn f) true (synTake f) s)

/-- R340: the SYN-ACK is resent after 1 s, and then 2 s. -/
def execSynackResend (i : Nat) (s : State) : Out :=
  .next (match tabFind s.xpt.syns i with
    | none => s
    | some e =>
      if e.tries < 2 && due e.dueAt s.clk.now then
        sendSynAck i e (s.onXpt fun x => { x with syns := tabIns x.syns i { e with tries := e.tries + 1, dueAt := s.clk.now + (if e.tries = 0 then 2 else 4) * sec } })
      else s)

/-- R340: 4 s after the last resend the entry is freed. -/
def execSynEntryExpiry (i : Nat) (s : State) : Out :=
  .next (match tabFind s.xpt.syns i with
    | none => s
    | some e => if e.tries = 2 && due e.dueAt s.clk.now then freeSyn i s else s)

/-- Connections that a TLS handshake may hold: 256 that run and 1,024 that wait (R360). DEDUCED (log 140, unsafe). -/
def handshakeRoom (s : State) : Bool := decide (s.xpt.hsq.length < 1280)

/-- The context of a SYN table entry's connection. -/
def tcpCtx (e : SynEnt) (s : State) : Ctx :=
  let mss := min e.own e.mss - if e.ts.isSome then 12 else 0
  { tcp := true, st := if e.tls then .tls else .connecting, lport := e.lport, src := e.src, mtu := mss, sport := e.dport, rport := e.rport,
    rcvNxt := (e.irs + 1) % 2 ^ 32, sndNxt := (e.isn + 1) % 2 ^ 32, sndUna := (e.isn + 1) % 2 ^ 32, laid := (e.isn + 1) % 2 ^ 32, cwnd := 10 * mss, ssth := 2 ^ 31, rto := sec,
    wnd := e.wnd, wscale := e.scale, tsOn := e.ts.isSome, tsRec := e.ts.getD 0, ecnOk := e.ecn, dEnd := (e.isn + 1) % 2 ^ 32, rwin := s.xpt.rcvwin, h2c := s.xpt.h2cmax, slots := 1024,
    icAt := if e.tls then none else some (s.clk.now + 10 * sec), tlsAt := if e.tls then some (s.clk.now + 5 * sec) else none }

/-- The key of a SYN table entry's connection. -/
def SynEnt.key (e : SynEnt) : FlowKey := ⟨false, e.v6, e.src, e.dst, e.rport, e.dport, 6, e.vid, e.tagged, e.lport⟩

/-- The final ACK of a handshake is taken (R341, R342): it takes a context, and its flow entry is installed. -/
def synDoneTake (i : Nat) (s : State) : State :=
    let s := count1 2080 s
    match tabFind s.xpt.syns i with
    | none => s
    | some e =>
        let s := freeSyn i s
        if refusesHosts s || managerHolds s e.key then answerRst e.lport e.rport s
        else match (if connAdmits s e.src then freeCtxNo s else none) with
        | none => answerRst e.lport e.rport (refuseAdmission s)
        | some c =>
          if e.tls && !handshakeRoom s then answerRst e.lport e.rport s
          else
            let g := (s.ctx c).gen
            let s := openCtx c { tcpCtx e s with gen := g } s
            let s := doIf e.tls (fun s => s.onXpt fun x => { x with hsq := x.hsq ++ [c] }) s
            s.onNet fun n => { n with flows := putFlow n.flows { key := e.key, action := 0, target := 37, mirror := none, ctx := some c } }

/-- R341, R342: the final ACK of a handshake. -/
def execTcpHandshakeAck (i : Nat) (s : State) : Out :=
  .next (match tabFind s.xpt.syns i with
    | none => s
    | some e => toEngine e.lport i (.synDone i) true (synDoneTake i) s)

/-! ## Acknowledgement (R344–R347) -/

/-- Acknowledge received bytes: RCV.NXT, with ECN echo, the window and the TSval echoed. PRESUMED (log 143, unsafe). -/
def sendTcpAck (c : Nat) (dup : Bool) (s : State) : State :=
  let s := onCtx c (fun x => { x with segs := 0, ackAt := none }) s
  let x := s.ctx c
  let wnd := if x.wscale.isSome then x.rwin * 1024 / 64 else min 65535 (x.rwin * 1024)
  emitCtx c none [0] { kind := if dup then .dupAck else .ack, a := c, b := x.rcvNxt, c := if x.ecnOk && x.ceRx then 1 else 0,
                       ws := [word wnd, word x.tsRec] } (count1 2081 s)

/-- The next sequence number, at or after one, that no SACK block reports. -/
def skipSacks (ks : List (Nat × Nat)) (q : Nat) : Nat :=
  (List.range ks.length).foldl (fun q _ => ks.foldl (fun q k => if reached32 q k.1 && !reached32 q k.2 then k.2 else q) q) q

/-- Bytes of the segment that is sent again from a sequence number: not past SND.NXT, nor into what a SACK block reports (Table 8.1). -/
def resendLen (x : Ctx) (q : Nat) : Nat :=
  x.sacks.foldl (fun n k => if reached32 q k.1 then n else min n (seqDist q k.1)) (min x.mtu (seqDist q x.sndNxt))

/-- Send one segment again; what was being timed is timed no more (RFC 6298). -/
def resendOne (c q : Nat) (s : State) : State :=
  emitCtx c none [resendLen (s.ctx c) q] { kind := .replay, a := c, b := q }
    (count1 2081 (onCtx c (fun x => { x with timed := none, toAt := some (s.clk.now + rtoOf s x), ackAt := none, segs := 0, ref := true }) s))

/-- After a timeout, send again what the host has not reported, as the window allows; then the stream goes on (R346, RFC 5681). -/
def resendMore : Nat → Nat → State → State
  | 0, _, s => s
  | fuel + 1, c, s =>
    let x := s.ctx c
    match x.rex with
    | none => pumpTcp c s
    | some r =>
      let q := skipSacks x.sacks r
      if reached32 q x.sndNxt then pumpTcp c (onCtx c (fun x => { x with rex := none }) s)
      else if sendWindow x < seqDist x.sndUna q + resendLen x q then onCtx c (fun x => { x with rex := some q }) s
      else resendMore fuel c (onCtx c (fun x => { x with rex := some ((q + resendLen x q) % 2 ^ 32) }) (resendOne c q s))

/-- The send stream goes on: first what is to be sent again. -/
def goOn (c : Nat) (s : State) : State :=
  let x := s.ctx c
  resendMore (flight x / max 1 x.mtu + x.sacks.length + 2) c s

/-- A round-trip sample (RFC 6298). -/
def sampleRtt (r : Nat) (x : Ctx) : Ctx :=
  let first := x.srtt = 0
  let var := if first then r / 2 else (3 * x.rttvar + (max x.srtt r - min x.srtt r)) / 4
  let sm := if first then r else (7 * x.srtt + r) / 8
  { x with srtt := sm, rttvar := var, rto := sm + 4 * var, timed := none }

/-- The congestion window after `n` bytes were acknowledged: DCTCP where ECN is in use (RFC 8257), else RFC 5681. PRESUMED (log 138, unsafe). -/
def grow (n : Nat) (ece : Bool) (x : Ctx) : Ctx :=
  let mss := max 1 x.mtu
  let x := { x with cwnd := if x.recover.isSome then x.cwnd else if x.cwnd < x.ssth then x.cwnd + min n mss else x.cwnd + max 1 (mss * mss / max 1 x.cwnd),
                    dAck := x.dAck + n, dMark := x.dMark + if ece then n else 0 }
  if !x.ecnOk || !reached32 x.sndUna x.dEnd then x
  else
    let m : Rat := if x.dAck = 0 then 0 else (x.dMark : Rat) / x.dAck
    let a : Rat := x.rate.alpha * (15 / 16) + m / 16
    let cut := (x.cwnd : Rat) * (1 - a / 2)
    let x := { x with rate := { x.rate with alpha := a }, dAck := 0, dEnd := x.sndNxt }
    if x.dMark = 0 then x else { x with dMark := 0, cwnd := max (2 * mss) cut.floor.toNat, ssth := max (2 * mss) cut.floor.toNat }

/-- A duplicate ACK: the third causes a fast retransmission (R346); each further one lets a segment more out (RFC 5681). PRESUMED (log 215, unsafe). -/
def dupAckIn (c : Nat) (s : State) : State :=
  let x := s.ctx c
  let s := onCtx c (fun x => { x with dups := x.dups + 1 }) s
  if x.recover.isSome then pumpTcp c (onCtx c (fun x => { x with cwnd := x.cwnd + x.mtu }) s)
  else if x.dups + 1 ≠ 3 then s
  else
    let half := max (2 * x.mtu) (flight x / 2)
    count1 2083 (resendOne c x.sndUna (onCtx c (fun x => { x with ssth := half, cwnd := half + 3 * x.mtu, recover := some x.sndNxt }) s))

/-- The round trip that an acknowledgement shows: by the timestamp it echoes, in microseconds, else by the segment that is timed. -/
def rttOf (now : Nat) (x : Ctx) (p : TcpSeg) : Option Nat :=
  match x.tsOn, p.ts with
  | true, some (_, e) => some ((now / us + 2 ^ 32 - e) % 2 ^ 32 * us)
  | _, _ => x.timed.bind fun t => if reached32 p.ack (t.1 + 1) then some (now - t.2) else none

/-- An acknowledgement of `n` bytes more (R346, R357): a fast recovery ends, or sends the next segment again (RFC 6582). -/
def newAckIn (c n : Nat) (p : TcpSeg) (s : State) : State :=
  let ack := p.ack % 2 ^ 32
  let whole := match (s.ctx c).recover with | none => true | some r => reached32 ack r
  let s := onCtx c (fun x =>
    let x := match rttOf s.clk.now x p with | some r => sampleRtt r x | none => x
    let x := grow n p.ece { x with sndUna := ack, dups := 0, tries := 0 }
    let x := if x.recover.isNone then x else if whole then { x with recover := none, cwnd := x.ssth } else { x with cwnd := x.cwnd - n + x.mtu }
    { x with pdus := x.pdus.filter fun p => !reached32 ack (p.first + p.size), sacks := x.sacks.filter fun k => !reached32 ack k.2,
             rex := x.rex.map fun q => if reached32 ack q then ack else q }) s
  let s := onCtx c (fun x => { x with toAt := if flight x = 0 then none else some (s.clk.now + rtoOf s x) }) s
  let s := if whole then s else resendOne c ack s
  goOn c (releaseWaiting c s)

/-- Process the acknowledgement number, window and SACK blocks of a segment. -/
def tcpAckIn (c : Nat) (p : TcpSeg) (s : State) : State :=
  let x := s.ctx c
  let n := seqDist x.sndUna p.ack
  let wnd := p.wnd * 2 ^ x.wscale.getD 0
  if flight x < n then s
  else
    let s := onCtx c (fun x => { x with wnd := wnd, sacks := (p.sacks ++ x.sacks).eraseDups.filter fun k => !reached32 p.ack k.2 }) s
    if n ≠ 0 then newAckIn c n p s
    else if flight x ≠ 0 && p.len = 0 && wnd = x.wnd then dupAckIn c s
    else goOn c s

/-! ## PDUs (R351–R356) -/

/-- A PDU error: a C2HTermReq with its FES, and ERROR with cause 3 (R356). -/
def pduError (c fes : Nat) (s : State) : State :=
  let s := doIf (fes = 3) (count1 2085) s
  ctxError c 3 (tcpLast c (pduBytes (s.ctx c) 24 0) { kind := .c2hTerm, a := c, b := fes } (count1 2087 s))

/-- A command's transfer loses blocks to a data digest error: it ends with Transient Transport Error once its other
transfers have ended (R352). -/
def loseData (tag gen len : Nat) (s : State) : State :=
  match s.cmdOf tag with
  | none => s
  | some k => match s.nsOf k.cmd.a.nsid with
    | none => s
    | some n =>
      if k.gen ≠ gen || k.phase != .run then s
      else
        let lost := min k.left (len / wireBytes n k.cmd.a)
        let s := onCmd tag (fun k => { k with left := k.left - lost, moved := true, status := .transientTransport, dnr := NvStatus.transientTransport.dnrBit }) s
        if k.left ≠ lost || lost = 0 then s
        else if k.cmd.op = .compare then settleCmds (conclude tag s)
        else settleCmds (makeReady tag (discardWrite tag s))

/-- H2CData for an outstanding R2T (R352, R354, R356). Its blocks themselves are the row WRITE_DATA_ARRIVAL. DEDUCED (log 142, unsafe). -/
def h2cIn (c tag gen off len : Nat) (ok : Bool) (s : State) : State :=
  let x := s.ctx c
  if x.h2c * 4096 < len then pduError c 5 s
  else if !x.readOut.any fun r => r.1 = tag then pduError c 2 s
  else match x.readOut.find? fun r => decide (r.1 = tag) && decide (r.2.1 ≤ off) && decide (off + len ≤ r.2.1 + r.2.2) with
    | none => pduError c 4 s
    | some r =>
      let rest := r.2.1 + r.2.2 - (off + len)
      let s := onCtx c (fun x => { x with
        readOut := x.readOut.flatMap fun q => if q = r then (if rest = 0 then [] else [(tag, off + len, rest)]) else [q]
        reads := if rest = 0 then x.reads - 1 else x.reads }) s
      let s := if ok then s else loseData tag gen len (count1 2086 s)
      if rest = 0 then pumpReads 8 c s else s

/-- The ICReq of a connection (R351). DEDUCED (log 139, unsafe). -/
def icReqIn (c pfv hpda maxr2t : Nat) (hd dd : Bool) (s : State) : State :=
  if (s.ctx c).icDone then pduError c 2 s
  else if pfv ≠ 0 || 31 < hpda then pduError c 6 s
  else
    let s := tcpSend c 128 none { kind := .icResp, a := c, b := (s.ctx c).h2c * 4096, ws := [flag 0 hd ||| flag 1 dd] } s
    shadow .stateWrite 4 c (onCtx c (fun x => { x with st := .ready, icDone := true, icAt := none, hdgst := hd, ddgst := dd, hpda := hpda, maxr2t := min 4 (maxr2t + 1) }) s)

/-- One PDU of a connection that carries PDUs. -/
def pduIn (c : Nat) (p : PduIn) (s : State) : State :=
  let x := s.ctx c
  if x.st != .connecting && x.st != .ready then s
  else match p with
    | .icReq pfv hpda m hd dd => icReqIn c pfv hpda m hd dd s
    | .bad fes => if x.icDone || fes = 3 then pduError c fes s else pduError c 2 s
    | .capsule n => if !x.icDone then pduError c 2 s else if n < 64 then ctxError c 10 s else if 8256 < n then pduError c 5 s else s
    | .h2cData tag gen off len ok => if !x.icDone then pduError c 2 s else h2cIn c tag gen off len ok s
    | .h2cTerm => if !x.icDone then pduError c 2 s else ctxError c 4 (count1 2088 s)

/-! ## TLS (R358–R365) -/

/-- An alert of the engine: its description, and ERROR with cause 5 (R362). PRESUMED (log 141, unsafe). -/
def alertOut (c code : Nat) (s : State) : State := ctxError c 5 (tcpLast c 2 { kind := .tlsAlert, a := c, b := code } s)

/-- Send an own KeyUpdate (update_not_requested); the sending key changes (R364). -/
def sendKeyUpdate (c : Nat) (s : State) : State := pumpTcp c (layKeyUpdate c s)

/-- What a segment's bytes hold, on a plain connection, in a handshake and under TLS records. -/
def tlsIn (c : Nat) (t : TlsIn) (ps : List PduIn) (s : State) : State :=
  let x := s.ctx c
  let pdus := fun (s : State) => forAll ps (pduIn c) s
  let toKumel := fun (s : State) => send { kind := .toKumel, a := 37, b := c } s
  if x.st = .tls then
    match t with
    | .handshake => toKumel s
    | .alert _ => ctxError c 5 s
    | .none => if ps.isEmpty then s else ctxError c 5 s
    | _ => toKumel s
  else if !x.tlsOn then
    match t with
    | .handshake => if x.icDone then pduError c 1 s else ctxError c 5 s
    | _ => pdus s
  else
    let took := fun (n : Nat) (s : State) => count 5173 n (count 2091 n (onCtx c (fun x => { x with tlsRx := x.tlsRx + n }) s))
    match t with
    | .none => s
    | .handshake => toKumel s
    | .records n => pdus (took n s)
    | .overflow => alertOut c 22 s
    | .badTag => alertOut c 20 s
    | .alert close =>
      if close then closeCtx c true (tcpLast c 2 { kind := .closeNotify, a := c } (toKumel (took 1 (pdus s))))
      else ctxError c 5 (toKumel (took 1 (pdus s)))
    | .keyUpdate req =>
      let s := toKumel (took 1 (pdus s))
      let s := onCtx c (fun x => { x with tlsHeld := true }) s
      doIf req (sendKeyUpdate c) s

/-! ## Segments -/

/-- A segment at RCV.NXT (R344, R345): its bytes are taken, and an ACK is due. -/
def segInSeq (c : Nat) (p : TcpSeg) (s : State) : State :=
  if p.len = 0 then s
  else
    let flip := (s.ctx c).ecnOk && (s.ctx c).ceRx != p.ce
    let s := onCtx c (fun x => { x with
      rcvNxt := (x.rcvNxt + p.len) % 2 ^ 32, ceRx := p.ce, segs := x.segs + if p.full then 1 else 0, ackAt := some (x.ackAt.getD (s.clk.now + 20 * us)) }) s
    let s := if flip || decide (2 ≤ (s.ctx c).segs) then sendTcpAck c false s else s
    tlsIn c p.tls p.pdus s

/-- A segment whose timestamp is older than the last is stale (RFC 7323). -/
def staleSeg (x : Ctx) (p : TcpSeg) : Bool := match x.tsOn, p.ts with | true, some (v, _) => !reached32 v x.tsRec | _, _ => false

/-- A segment of a resident context (R344): in sequence, beyond RCV.NXT inside the window, or old. DEDUCED (log 216, unsafe). -/
def segExec (c : Nat) (p : TcpSeg) (s : State) : State :=
  if staleSeg (s.ctx c) p then sendTcpAck c true s
  else
  let s := onCtx c (fun x => match x.tsOn, p.ts with | true, some (v, _) => if reached32 x.rcvNxt p.seq then { x with tsRec := v % 2 ^ 32 } else x | _, _ => x) s
  let s := tcpAckIn c p s
  let x := s.ctx c
  let ahead := (p.seq + 2 ^ 32 - x.rcvNxt) % 2 ^ 32
  if ahead = 0 then segInSeq c p s
  else if p.len = 0 then s
  else if ahead < x.rwin * 1024 then sendTcpAck c true (count1 2084 s)
  else sendTcpAck c false s

/-- A FIN in sequence (R349). -/
def finExec (c seq : Nat) (s : State) : State :=
  if seq ≠ (s.ctx c).rcvNxt then sendTcpAck c true s
  else closeCtx c true (sendTcpAck c false (onCtx c (fun x => { x with rcvNxt := (x.rcvNxt + 1) % 2 ^ 32 }) s))

/-- A RST is valid where its sequence number lies in the receive window (R349). -/
def rstExec (c seq : Nat) (s : State) : State :=
  if (seq + 2 ^ 32 - (s.ctx c).rcvNxt) % 2 ^ 32 < max 1 ((s.ctx c).rwin * 1024) then ctxError c 2 s else s

/-- A packet of a resident context, of either transport. -/
def packetNow (c : Nat) (k : PendPkt) (s : State) : State :=
  if !(s.ctx c).tcp then rdmaNow c k s
  else if !(s.ctx c).live then s
  else match k with
    | .tcp p => segExec c p s
    | .fin q _ => finExec c q s
    | .rst q _ => rstExec c q s
    | _ => s

/-- A TCP packet reaches the engine (R264, R342, R370). -/
def tcpTake (c lport bytes : Nat) (isRst : Bool) (k : PendPkt) (s : State) : State :=
  let s := count1 2080 s
  let x := s.ctx c
  if x.st = .free || !x.tcp then (if isRst then s else answerRst lport 0 s)
  else if x.st = .error || x.st = .timewait then deadLetter 2 lport bytes (some c) k.frame s
  else packetFor c k (packetNow c k) s

/-- A TCP packet comes on a front port (R178, R347): the engine takes it, or it is held. -/
def tcpArrive (c lport bytes : Nat) (isRst : Bool) (k : PendPkt) (s : State) : State :=
  toEngine lport c (.tcp c lport bytes isRst k) k.capsule (tcpTake c lport bytes isRst k) s

/-- R344: a segment of a connection. -/
def execTcpSegment (p : TcpSeg) (s : State) : Out := .next (tcpArrive p.ctx p.lport p.bytes false (.tcp p) s)
/-- R349: a FIN of the host. -/
def execTcpFin (ctx seq : Nat) (frame : List Word) (s : State) : Out := .next (tcpArrive ctx (s.ctx ctx).lport 64 false (.fin seq frame) s)
/-- R349: a RST of the host. -/
def execTcpRst (ctx seq : Nat) (frame : List Word) (s : State) : Out := .next (tcpArrive ctx (s.ctx ctx).lport 64 true (.rst seq frame) s)

/-- What a held frame brings the engine, once the engine runs again (R151 step 4, R178, R756). -/
def runPkt (w : Woken) (s : State) : State :=
  match w with
  | .roce h rc k => toEngine h.lport (h.qpn % 65536) w k.capsule (roceTake h rc k) s
  | .tcp c lport bytes rst k => toEngine lport c w k.capsule (tcpTake c lport bytes rst k) s
  | .req r => toEngine r.lport (r.qpn % 2 ^ 24) w true (cmReqTake r) s
  | .rtu qpn => toEngine (s.ctx (qpn % 65536)).lport (qpn % 65536) w false (rtuTake qpn) s
  | .dreq qpn => toEngine (s.ctx (qpn % 65536)).lport (qpn % 65536) w false (dreqTake qpn) s
  | .drep qpn => toEngine (s.ctx (qpn % 65536)).lport (qpn % 65536) w false (drepTake qpn) s
  | .syn f => toEngine f.lport (f.rport + 65536 * (f.dport % 256)) w true (synTake f) s
  | .synDone i => toEngine ((tabFind s.xpt.syns i).elim 0 (·.lport)) i w true (synDoneTake i) s
  | _ => s

/-- The arrival port of a held frame. -/
def Woken.port (s : State) : Woken → Nat
  | .roce h _ _ => h.lport
  | .tcp _ lport _ _ _ => lport
  | .req r => r.lport
  | .rtu qpn => (s.ctx (qpn % 65536)).lport
  | .dreq qpn => (s.ctx (qpn % 65536)).lport
  | .drep qpn => (s.ctx (qpn % 65536)).lport
  | .syn f => f.lport
  | .synDone i => (tabFind s.xpt.syns i).elim 0 (·.lport)
  | _ => 0

/-- Process a context's pending list in arrival order (R372). A packet that a new KeyUpdate stops stays on the list; one of a
context that has failed goes to the dead-letter queue. -/
def drainPend (c : Nat) (s : State) : State :=
  let ps := (s.ctx c).pend
  forAll ps (fun k s =>
    if (s.ctx c).tlsHeld then onCtx c (fun x => { x with pend := x.pend ++ [k] }) s
    else if ctxInError s c then deadLetter 2 (s.ctx c).lport k.bytes (some c) k.frame s
    else packetNow c k s) (onCtx c (fun x => { x with pend := [] }) s)

/-- R372, R374: a fill completes, or finds poison. -/
def execContextFillDone (ctx : Nat) (poison : Bool) (s : State) : Out :=
  .next (
    if (s.ctx ctx).fill ≠ 2 then s
    else if poison then poisonCtx ctx s
    else
      let s := drainPend ctx (shadow .stateWrite 4 ctx (onCtx ctx (fun x => { x with resident := true, fill := 0, ref := true }) s))
      doIf ((s.ctx ctx).tcp && (s.ctx ctx).live) (goOn ctx) s)

/-! ## Timers -/

/-- R345: 20 µs after the oldest unacknowledged byte. -/
def execTcpAckTimer (ctx : Nat) (s : State) : Out :=
  .next (match (s.ctx ctx).ackAt with
    | none => s
    | some t => if due t s.clk.now && (s.ctx ctx).tcp && (s.ctx ctx).live then withCtx ctx (sendTcpAck ctx false) s else s)

/-- R346: the retransmission timeout; after RETRIES of them without progress the context enters ERROR. -/
def execTcpRto (ctx : Nat) (s : State) : Out :=
  .next (match (s.ctx ctx).toAt with
    | none => s
    | some t =>
      let x := s.ctx ctx
      if !due t s.clk.now || !x.tcp || !x.live || !timersAct s then s
      else withCtx ctx (fun s =>
        if s.xpt.retries ≤ x.tries + 1 then ctxError ctx 1 s
        else count1 2082 (goOn ctx (onCtx ctx (fun x => { x with
          tries := x.tries + 1, rto := min (s.xpt.rtomax * ms) (2 * rtoOf s x), ssth := max (2 * x.mtu) (flight x / 2), cwnd := x.mtu, dups := 0,
          rex := some x.sndUna, recover := none }) s))) s)

/-- R350: no ICReq within 10 s of the final ACK or of the TLS Finished. -/
def execIcreqTimeout (ctx : Nat) (s : State) : Out :=
  .next (match (s.ctx ctx).icAt with
    | none => s
    | some t => if due t s.clk.now && (s.ctx ctx).st = .connecting && timersAct s then withCtx ctx (ctxError ctx 11) s else s)

/-- R360: a handshake not finished within 5 s. -/
def execTlsHandshakeTimeout (ctx : Nat) (s : State) : Out :=
  .next (match (s.ctx ctx).tlsAt with
    | none => s
    | some t => if due t s.clk.now && (s.ctx ctx).st = .tls && timersAct s then withCtx ctx (ctxError ctx 5) s else s)

/-! ## The handshake's end and new keys (R359–R363) -/

/-- The handshake that Kumel ran is one that the module's choices permit: its key exchange (0 psk_ke, 1 secp384r1, 2 x25519) and
the PSK of a host table entry (R359, R382). -/
def handshakeOk (s : State) (group : Nat) (hostNqn subNqn : List Word) : Bool :=
  (match group with | 0 => s.xpt.pskke | 1 => s.xpt.groups.testBit 0 | 2 => s.xpt.groups.testBit 1 | _ => false)
    && decide (trimName subNqn = trimName (subsysNqn s))
    && s.nvm.hosts.any fun e => decide (trimName e.2.nqn = trimName hostNqn) && e.2.enable && e.2.psk.isSome

/-- R361: Kumel has finished a handshake and installs the traffic secrets, or the handshake has failed. -/
def execTlsHandshakeDone (ctx : Nat) (ok : Bool) (group rx tx : Nat) (hostNqn subNqn : List Word) (s : State) : Out :=
  .next (
    if s.md.kumel != .running || (s.ctx ctx).st != .tls || !(s.xpt.hsq.take 256).contains ctx then s
    else withCtx ctx (fun s =>
      if !ok || !handshakeOk s group hostNqn subNqn then alertOut ctx 40 s
      else
        let s := tcpSend ctx (Config.frameHead OutKind.tlsHandshake.ctorIdx).toNat none { kind := .tlsHandshake, a := ctx, b := group } (count1 2089 s)
        let s := s.onXpt fun x => { x with hsq := x.hsq.erase ctx }
        shadow .stateWrite 4 ctx (onCtx ctx (fun x => { x with st := .connecting, tlsOn := true, rxKey := rx, txKey := tx, tlsAt := none, icAt := some (s.clk.now + 10 * sec) }) s)) s)

/-- R363: Kumel installs the new key; the records that waited are decrypted. -/
def execKeyupdateInstalled (ctx : Nat) (s : State) : Out :=
  .next (
    if s.md.kumel != .running || !(s.ctx ctx).tlsHeld then s
    else withCtx ctx (fun s => drainPend ctx (shadow .stateWrite 4 ctx (onCtx ctx (fun x => { x with tlsHeld := false, tlsRx := 0, rxKey := Config.tlsNext x.rxKey }) s))) s)

/-! ## Commands -/

/-- A TCP connection stays bound to a port and a listener that the configuration in `t` has (R380). -/
def keepsListener (t : State) (c : Nat) (x : Ctx) : Bool :=
  let v6 := match connFlow t c with | some e => e.key.ipv6 | none => false
  t.xpt.tports.testBit x.lport && (if v6 then t.xpt.tv6 else t.xpt.tv4)
    && if x.tlsOn || x.st = .tls then t.xpt.tls && decide (x.sport = t.xpt.tlsPort) else t.xpt.plain && decide (x.sport = t.xpt.port)

/-- XPT.SET_TCP_PORTS (R380, Table 8.7). -/
def deskXptSetTcpPorts (p : Packet) (s : State) : Desk :=
  let or := fun (v d : Nat) => if v = 0 then d else v
  let plain := or (bits 15 0 (p.w 3)) 4420
  let tls := or (bits 31 16 (p.w 3)) 4421
  let set := fun (s : State) => s.onXpt fun x => { x with
    tports := (p.w 2).toNat, port := plain, tlsPort := tls, tv4 := bit 0 (p.w 4), tv6 := bit 1 (p.w 4), plain := bit 2 (p.w 4), tls := bit 3 (p.w 4) }
  guardParam (clean (mask 3 0 ||| mask 8 8) (p.w 4) && decide (plain ≠ tls) && !(bit 3 (p.w 4) && decide (s.order = 2))) s fun s =>
    let t := set s
    check (!listenerClash t) stConflict s fun s =>
      let hit := (s.xpt.ctxs.filter fun e => e.2.live && e.2.tcp && !keepsListener t e.1 e.2).map (·.1)
      check (hit.isEmpty || bit 8 (p.w 4)) stConflict s fun s => okay (discChanged (syncListeners (set (forAll hit (fun c => ctxError c 9) s))))

/-- XPT.SET_TCP_PORTS (R380). -/
def execXptSetTcpPorts (p : Packet) (s : State) : Out := letter 0x040B 3 p s (deskXptSetTcpPorts p)

/-- XPT.SET_TCP_PARAMS (R381, Table 8.8). -/
def deskXptSetTcpParams (p : Packet) (s : State) : Desk :=
  let inR := fun (lo hi v : Nat) => decide (lo ≤ v) && decide (v ≤ hi)
  let mtu := bits 13 0 (p.w 2)
  let win := bits 28 16 (p.w 2)
  let lo := bits 15 0 (p.w 3)
  let hi := bits 31 16 (p.w 3)
  let n := bits 3 0 (p.w 4)
  let h := bits 16 8 (p.w 4)
  guardParam (clean (mask 13 0 ||| mask 29 16) (p.w 2) && clean (mask 3 0 ||| mask 16 8) (p.w 4) && inR 1500 9000 mtu && inR 256 4096 win && inR 1 65535 lo
      && inR 10 60000 hi && inR 3 15 n && inR 1 256 h) s fun s =>
    okay (s.onXpt fun x => { x with mtu := mtu, rcvwin := win, ecn := bit 29 (p.w 2), rtomin := lo, rtomax := hi, retries := n, h2cmax := h })

/-- XPT.SET_TCP_PARAMS (R381). -/
def execXptSetTcpParams (p : Packet) (s : State) : Out := letter 0x040C 3 p s (deskXptSetTcpParams p)

/-- XPT.SET_TLS (R382). -/
def deskXptSetTls (p : Packet) (s : State) : Desk :=
  let g := bits 2 1 (p.w 2)
  guardParam (clean (mask 2 0) (p.w 2) && decide (g ≠ 0)) s fun s => okay (s.onXpt fun x => { x with pskke := bit 0 (p.w 2), groups := g })

/-- XPT.SET_TLS (R382). -/
def execXptSetTls (p : Packet) (s : State) : Out := letter 0x040D 1 p s (deskXptSetTls p)

end Sys2Proof.Machine
end

