-- ==== Sys2Proof/Machine/Reach.lean ====
section
/-! DEFINITION. What follows when other shelves of the stack become reachable or cease to be (R434, R781, R782, R790, R791,
Table 17.3), and when the module takes the master role. -/
namespace Sys2Proof.Machine

/-- The position belongs to the stack. -/
def inStack (s : State) (q : Nat) : Bool := match s.stk.record with | some r => r.members.testBit q | none => false

/-- Send again the COMMANDs whose COMPLETION has not come from a home shelf (R790). -/
def resendCmds (q : Nat) (s : State) : State :=
  forAll (s.stk.fwd.filter fun e => e.2.home = q) (fun e s => match s.cmdOf e.1 with
    | none => s
    | some k => if k.gen ≠ e.2.gen then s else count1 6187 (sendTo q (fwdMsg s e.1 k.gen k.cmd k.sub k.cls q) s)) s

/-- Send a shelf the whole directory (R781). -/
def sendFullDir (q : Nat) (s : State) : State :=
  sendTo q { kind := .dirUpdate, a := q, b := s.vol.ns.length + 65536, ws := s.vol.ns.flatMap fun e => dirWords s e.1 e.2.home false } s

/-- A shelf has become reachable, or unreachable: its ANA group changes state, commands that run there are sent again or begin
to time out, and the master marks it LOST or takes it back. -/
def reachOne (old : State) (q : Nat) (s : State) : State :=
  let now := reachable s q
  if q = s.pos || reachable old q = now then s
  else
    let s := anaChanged (q + 1) s
    let s := s.onStk fun k => { k with fwd := tabMap k.fwd fun _ f => if f.home = q then { f with goneAt := if now then none else some s.clk.now } else f }
    let s := if now then resendCmds q s else s
    if !s.master || !inStack s q then s
    else if now then
      let s := if s.stk.lost.testBit q then raise 778 (word q) (s.onStk fun k => { k with lost := k.lost - 2 ^ q }) else s
      sendFullDir q (sendDisc q s)
    else if s.stk.lost.testBit q then s
    else raise 777 (word q) (s.onStk fun k => { k with lost := k.lost ||| 2 ^ q })

/-- STK.ADD_SHELF completes once the shelf is reached at its position: it holds the record and the directory (R795). -/
def noteAdmitted (s : State) : State :=
  forAll (s.lb.running.filter fun r => r.op = 0x0C03) (fun r s =>
    if reachable s r.key then finish (fun x => x.op = 0x0C03 && x.key = r.key) 775 stOk (word r.key) s else s) s

/-- Compare what can be reached with what could be before. DESIGN CHOICE (log 171, unsafe). -/
def reachChanged (old s : State) : State :=
  let s := forAll (List.range 8) (reachOne old) s
  let s := if masterReach old || masterReach s then s.onStk fun k => { k with masterAt := s.clk.now, masterTold := k.masterTold && !masterReach s } else s
  noteAdmitted s

/-- The module has become Active: at position 0 the master role passes to it (R25), and it marks the shelves that it does not
reach. -/
def tookMaster (s : State) : State :=
  if !s.master then s
  else
    let s := raise 779 (word s.pos) s
    forAll (otherShelves s) (fun q s =>
      if reachable s q || s.stk.lost.testBit q then s else raise 777 (word q) (s.onStk fun k => { k with lost := k.lost ||| 2 ^ q })) s

end Sys2Proof.Machine
end

