-- ==== Sys2Proof/Machine/Lease.lean ====
section
/-! DEFINITION. The pair's own operations: lease frames, shadowing sessions, held transmissions, the loss of the lease, and
becoming Active with the resumption of Table 16.7 (R733–R761). -/
namespace Sys2Proof.Machine

/-- The parameter word of the PAIR events (R771): TERM, bay, code. -/
def pairParam (s : State) (code : Nat) : Word := fld 15 0 s.pair.term ||| fld 16 16 s.bay.bay ||| fld 27 24 code

/-! ## Lease frames (R739, Table 16.3) -/

/-- No self-fault, and no lasting fault of the self-test. -/
def healthy (s : State) : Bool := !s.md.selftestBad && decide (s.pair.fault = 0)

/-- A lease frame of the module. -/
def leaseWords (s : State) (type seq : Nat) (override : Bool) : List Word :=
  let p := s.pair
  let ws := [fld 15 0 0x1EA5 ||| fld 23 16 type ||| fld 31 24 1, word p.term, fld 15 0 seq ||| fld 31 16 p.sess,
    fld 2 0 s.md.mode.code ||| fld 3 3 s.bay.bay ||| flag 4 (healthy s) ||| flag 5 p.current ||| flag 6 s.links.partnerUp ||| flag 7 override ||| fld 15 8 p.fault]
    ++ words2 Config.serial.toNat ++ [0]
  ws ++ [word (crc32c ws)]

/-- Send a lease frame; SEQ advances by 1. -/
def leaseSend (type : Nat) (override : Bool) (s : State) : State :=
  let q := (s.pair.frame + 1) % 65536
  send { kind := .leaseFrame, a := type, b := q, ws := leaseWords s type q override } (s.onPair fun p => { p with frame := q })

/-- Note when a RENEW or CLAIM was sent, until a GRANT answers it (R741). -/
def leaseTimed (type : Nat) (override : Bool) (s : State) : State :=
  let s := leaseSend type override s
  s.onPair fun p => { p with sentAt := tabIns p.sentAt p.frame s.clk.now }

/-- How long a lease runs from the frame that a GRANT answered, ns (R741). -/
def leaseSpan : Nat := 29900 * us

/-! ## Held transmissions (R734, R736) -/

/-- A held transmission leaves; a wait above 3 µs is counted, and raised for the first in any 1 s (R736). -/
def sendHeld (h : HeldTx) (s : State) : State :=
  let w := s.clk.now - h.at_
  let s := s.onPair fun p => { p with waits := (p.waits.filter fun x => decide (s.clk.now < x.1 + sec)) ++ [(s.clk.now, w)] }
  let s := if w ≤ 3 * us then s
    else
      let recent := match s.pair.slowAt with | none => false | some t => decide (s.clk.now < t + sec)
      let s := count1 5666 s
      if recent then s else raise 722 (pairParam s 0) (s.onPair fun p => { p with slowAt := some s.clk.now })
  putOut h.msg s

/-- Send what is held as far as the postmarks allow, in order. -/
def pumpHeld (s : State) : State :=
  if s.pair.egressHalt then s
  else
    let ok := fun (h : HeldTx) => !s.pair.paired || decide (h.seq ≤ s.pair.pmark)
    let go := s.pair.held.takeWhile ok
    forAll go sendHeld (s.onPair fun p => { p with held := p.held.dropWhile ok })

/-- Halt transport egress under R749. -/
def haltEgress (s : State) : State := if s.pair.egressHalt then s else count1 5675 (s.onPair fun p => { p with egressHalt := true })

/-- Transport egress goes on. -/
def resumeEgress (s : State) : State := pumpHeld (s.onPair fun p => { p with egressHalt := false })

/-! ## Shadowing sessions (R733) -/

/-- A non-zero session number from the DRBG. DESIGN CHOICE (log 161, safe). -/
def drawSess (s : State) : Nat × State := let (v, s) := takeFree s; (v.toNat % 65535 + 1, s)

/-- A shadowing session starts at the active: PSEQ restarts at 1, and new send horizons open (R714, R737). -/
def openSession (paired : Bool) (s : State) : State :=
  let (q, s) := drawSess s
  let s := s.onPair fun p => { p with
    sess := q, shadowing := true, paired := paired, peerCurrent := paired, wire := 0, inFlight := [], pmark := p.pseq, markAt := s.clk.now, solo := false, soloAsk := false,
    horizon := [], layout := [] }
  forAll ((s.xpt.ctxs.filter fun e => e.2.live && !e.2.tcp).map (·.1)) (fun c => coverHorizon c 0) s

/-- The module leaves paired operation (R525): every write that waited for its postmarks alone goes on at once. -/
def unpair (s : State) : State :=
  let was := s.pair.paired
  let s := s.onPair fun p => { p with paired := false, shadowing := false, peerCurrent := false }
  doIf (was && s.wbf.pages.any fun p => p.2.st != .reserved) (raise 451 0) s

/-- Records of some channels that wait on a link go no further. -/
def purgeQueue (k : Nat) (vcs : List Nat) (s : State) : State := onLink k (fun l => { l with queue := l.queue.filter fun r => !vcs.contains r.vc }) s

/-- The active's shadowing session ends (R732, R733, R757): a running resynchronisation stops, to begin again from phase 1 (R764), and SOLO is sent. In paired
operation egress stays halted, and paired operation lasts, until the witness acknowledges it (R749, R758). -/
def endSession (s : State) : State :=
  if !s.pair.shadowing then s
  else
    let s := purgeQueue 0 [1, 2] (s.onPair fun p => { p with shadowing := false, resync := none, rsPct := 0, horizon := [], layout := [], inFlight := [] })
    if !s.pair.lease then unpair s
    else
      let s := if s.pair.paired then haltEgress s else s
      let s := leaseSend 5 false s
      s.onPair fun p => { p with soloAsk := true, soloSeq := p.frame }

/-- A standby's feed ends with the link's session (R759). -/
def feedEnds (s : State) : State := s.onPair fun p => { p with rxOn := false, rxNew := 0, stuck := false }

/-! ## The loss of the lease (R748) -/

/-- Drive writes are outstanding at drives. -/
def writesOut (s : State) : Bool := s.drv.cmds.any fun c => c.2.write && c.2.rungAt.isSome && c.2.answer.isNone

/-- A Drowse entry or exit ends with the lease, and no reply to it is sent (R149): the drives return to operation, and what waited for
the exit is not executed. DEDUCED (log 229, unsafe). -/
def dropDrowse (s : State) : State :=
  let s := drivesPower false { s with woken := [], lb := { s.lb with running := s.lb.running.filter fun r => r.op != 0x0006 } }
  s.onMd fun m => { m with drowse := .none, drowseReq := [], patrolPaused := false, fabricSlow := false }

/-- The module fences (R748): from Active or Drowse, the modes that Table 4.5 lets go to Fenced when the lease expires. In any other
mode it only holds no lease. -/
def fence (s : State) : State :=
  let s := raise 712 (pairParam s 0) (s.onPair fun p => { p with lease := false, expiry := 0, leaseWait := none })
  if s.md.mode != .active && s.md.mode != .drowse then s
  else
    let s := unpair (s.onPair fun p => { p with egressHalt := true, take := none, resync := none, rsPct := 0, soloAsk := false, drainW := s.links.partnerUp, current := false })
    let s := finishOnly (fun r => r.op = 0x0B04) 716 stRefusedMode 0 (finishOnly (fun r => r.op = 0x0B02) 713 stRefusedMode 0 s)
    let s := changeMode .fenced (dropDrowse s)
    if s.links.partnerUp then s else forAll ((List.range 24).filter (slotOn s)) pulseReset s

/-- The lease is lost where this module holds it. -/
def leaseLost (s : State) : State := if s.pair.lease then fence s else s

/-! ## Resumption (R745, R746, R750–R752, Table 16.7) -/

/-- Redo an open record from its mirrored pages by RECON or MIRROR (R545). -/
def redoRecord (j : Nat) (s : State) : State :=
  match s.rec_ j with
  | none => s
  | some r => match s.vset r.set with
    | none => s
    | some v =>
      let nd := newData v (r.pages.filterMap s.page)
      let p := planOf s r.set v r.stripe nd true
      issueReads j (onRec j (fun r => { r with
        method := p.method, spans := writeSet v r.stripe p, zero := p.zero, homes := [], reads := p.reads, old := [], writes := [], logs := 0, stage := 1, redo := true, seq := none }) s)

/-- Member writes go (R746 step 4): the open records of the former active are redone. -/
def memberGo (s : State) : State :=
  let s := s.onDrv fun d => { d with writeHold := none }
  if s.pair.took then forAll ((s.wbf.recs.filter fun e => !e.2.redo && e.2.writes.isEmpty && e.2.reads.isEmpty).map (·.1)) redoRecord s else s

/-- A write-type command that started after a read has taken effect on a block of it (R752). -/
def overtaken (s : State) (c : Cmd) (n : Ns) : Bool :=
  (readLbas c.cmd).any fun l => (bufferBlks s c.cmd.a.nsid (l / perSpan n)).any fun b => b.1 = l % perSpan n && decide (c.order < b.2.order)

/-- Consecutive block indexes as ranges. -/
def runsOf : List Nat → List (Nat × Nat)
  | [] => []
  | i :: is => match runsOf is with
    | (a, n) :: r => if a = i + 1 then (i, n + 1) :: r else (i, 1) :: (a, n) :: r
    | [] => [(i, 1)]

/-- Blocks of a write that the mirror does not hold. -/
def unmirrored (s : State) (c : Cmd) (n : Ns) : List Nat :=
  (List.range c.cmd.a.nlb).filter fun i =>
    let l := c.cmd.a.slba + i
    !((bufferBlks s c.cmd.a.nsid (l / perSpan n)).any fun b => b.1 = l % perSpan n && decide (b.2.order = c.order))

/-- Fetch the ranges of a write again that are not in the mirror (Table 16.7). -/
def fetchAgain (t : Nat) (c : Cmd) (n : Ns) (s : State) : State :=
  let rs := runsOf (unmirrored s c n)
  let w := wireBytes n c.cmd.a
  let s := count 5669 rs.length (onCmd t (fun k => { k with left := sumNat (rs.map (·.2)) }) s)
  if rs.isEmpty then dataWhole t s
  else match homedOf s t c.gen with
    | some (q, ft, fg) => rs.foldl (fun s r => sendTo q { kind := .fwdDataReq, a := q, b := ft, c := fg, ws := [word (r.1 * w), word (r.2 * w)] } s) s
    | none =>
      let s := onCtx c.cmd.a.ctx (fun x => { x with readOut := x.readOut.filter fun q => q.1 != t
                                                    readq := (x.readq.filter fun q => q.1 != t) ++ rs.flatMap fun r => (chunks 5 1048576 (r.1 * w) (r.2 * w)).map fun k => (t, k.1, k.2) }) s
      pumpReads 8 c.cmd.a.ctx s

/-- Resume a started command of the former active (Table 16.7). -/
def resumeCmd (t : Nat) (s : State) : State :=
  match s.cmdOf t with
  | none => s
  | some c => match s.nsOf c.cmd.a.nsid with
    | none => s
    | some n =>
      if c.gone || c.phase != .run then s
      else if c.done then makeReady t s
      else match c.cmd.op with
        | .write => fetchAgain t c n s
        | .compare => fetchAgain t c n s
        | .read =>
          let s := count1 5667 (onCmd t (fun k => { k with need := [], tzNeed := [], raw := [], tz := [], buf := [], zeros := [], src := [], moved := false }) s)
          let x := s.ctx c.cmd.a.ctx
          if overtaken s c n then
            let s := if x.tlsOn && x.pdus.any (fun p => p.tag = some (t, c.gen)) then ctxError c.cmd.a.ctx 9 s else s
            count1 5668 (failCmd t .interrupted s)
          else serveRead t c n s
        | _ => s

/-- A context that a new active takes over starts again at the oldest PSN that the shadow holds unacknowledged, and below its send horizon
fills each PSN (R750), or at SND.UNA (R751). The former active's RDMA READ Requests are outstanding no longer: what is still wanted is fetched
again (Table 16.7). DEDUCED (log 217, unsafe). -/
def fillCtx (c : Nat) (s : State) : State :=
  let h := (tabFind s.pair.horizon c).map (·.1)
  onCtx c (fun x =>
    if x.tcp then { x with sndNxt := x.sndUna, toAt := none, timed := none, rex := none, recover := none }
    else { x with reads := 0, readOut := [], rdAt := [], npsn := x.una, fillH := h, sent := [], toAt := none }) s

/-- Resume a context's send stream (R750, R751): a TCP context sends again exactly the PDUs laid out, as their data comes; an RDMA context
with nothing to send fills what is left below its horizon. -/
def resumeCtx (c : Nat) (s : State) : State :=
  let x := s.ctx c
  if x.st != .ready && x.st != .closing then s
  else if x.tcp then pumpTcp c s
  else if toSend s c then pumpReads 8 c s
  else fillEnd c s

/-- Begin resumption (R746 step 2). -/
def resumeAll (s : State) : State :=
  let s := s.onPair fun p => { p with leaseWait := none, egressHalt := false }
  if !s.pair.took then pumpHeld s
  else
    let s : State := s.onDrv fun d => { d with cmds := [], recons := [], passes := [] }
    let s := forAll ((byOrder s.nvm.tags).map (·.1)) resumeCmd (interruptHosts s)
    let s := forAll (s.xpt.ctxs.map (·.1)) resumeCtx s
    let s := settleCmds (s.onPair fun p => { p with rel := [] })
    if s.drv.writeHold.isNone then memberGo s else s

/-- Each slot starts from the estimate last shadowed, if it is younger than 60 s, else from the reset values (R139). -/
def seedLatency (s : State) : State :=
  forAll (List.range 24) (fun k s => onPort k (fun p =>
    match tabFind s.pair.est k with
    | some (t, q, lim) => if s.clk.now < t + 60 * sec then { p with lat := [], histAt := s.clk.now, p999 := q, timeout := lim }
        else { p with lat := [], histAt := s.clk.now, p999 := 0, timeout := 2000 }
    | none => { p with lat := [], histAt := s.clk.now, p999 := 0, timeout := 2000 }) s) s

/-- A held lease makes the module Active (R746): from Standby or Fenced at the GRANT, from Boot at its end. A module that was
shadowed needs no recovery (R544); for any other, the members that it does not find are absent (R133). DEDUCED (log 164, unsafe). -/
def becomeActive (s : State) : State :=
  let took := s.md.mode = .standby
  let planned := s.pair.planned
  let up := (s.net.lports.filter fun e => e.2.up).map (·.1)
  let rdy := (s.drv.ports.filter fun e => e.2.st = .ready).map (·.1)
  let s := tookMaster (changeMode .active s)
  let s := s.onPair fun p => { p with
    grantAt := some s.clk.now, arps := 0, upAtGrant := up, rdyAtGrant := rdy, fault := 0, took := took, current := false, rxOn := false, drainW := false, stuck := false,
    held := [], take := none, resync := none, leaseWait := if s.links.partnerUp && p.peerLease then some (s.clk.now + 50 * us) else none }
  let s := if took then forAll (s.xpt.ctxs.map (·.1)) fillCtx s else s
  let s := s.onPair fun p => { p with horizon := [], layout := [] }
  let s := s.onDrv fun d => { d with writeHold := if planned then none else some (s.clk.now + 12 * ms) }
  let s := if planned then openSession true s else s.onPair fun p => { p with shadowing := false, paired := false, peerCurrent := false, sess := 0 }
  let s := doIf (took && !planned && s.wbf.pages.any fun p => p.2.st != .reserved) (raise 451 0) s
  let s := firstReservations (doIf s.stk.cand (raise 774 0) s)
  let s := doIf took seedLatency (doIf took (count1 5660) s)
  let s := if took then s.onVol fun v => { v with sets := tabMap v.sets fun _ x => { x with recover := false } } else forAll (s.vol.sets.map (·.1)) absentMissing s
  if s.pair.leaseWait.isSome then s else resumeAll s

end Sys2Proof.Machine
end

