-- ==== Sys2Proof/Machine/Links.lean ====
section
/-! DEFINITION. The partner and relay links (chapter 15): training, configuration, flits and replay, heartbeats, postmarks,
loss and resume of sessions, and forwarded frames. Links are 0 partner, 1 UP, 2 DN. -/
namespace Sys2Proof.Machine

/-! ## Lanes and widths -/

/-- Lanes of a link (Table 15.1). -/
def lanesOf (k : Nat) : Nat := if k = 0 then 16 else 8

/-- A lane's record. -/
def laneOf (l : Link) (i : Nat) : Lane := tabGet {} l.lanes i

/-- Change a lane. -/
def onLane (k i : Nat) (f : Lane → Lane) (s : State) : State := onLink k (fun l => { l with lanes := tabMod {} l.lanes i f }) s

/-- The link exists and may train: from Boot step 6 on, not under R41 or in hold-up, and not a relay link of a TK-4824-B (R699) or of a
cage whose pluggable has not left low-power mode and reported ready (R29, R30). -/
def linkMay (s : State) (k : Nat) : Bool :=
  decide (k < 3) && s.step6 && s.fe.coreOn && s.pins.seated && !s.fe.holdup && (decide (k = 0) || (decide (s.order ≠ 2) && (s.cage (3 + k)).ready))

/-- Own RXGOOD: lanes that are locked and not bad (Table 15.4). DEDUCED (log 146, unsafe). -/
def ownGood (k : Nat) (l : Link) : Nat := sumNat ((List.range (lanesOf k)).map fun i => if (laneOf l i).locked && !(laneOf l i).bad then 2 ^ i else 0)

/-- Lanes that a receiver would find good: not bad, whether locked in this alignment or not. -/
def readyLanes (k : Nat) (l : Link) : Nat := sumNat ((List.range (lanesOf k)).map fun i => if (laneOf l i).bad then 0 else 2 ^ i)

/-- Width groups from the largest and lowest on: width and first lane (R697, R704). -/
def widthGroups (k : Nat) : List (Nat × Nat) :=
  ((if k = 0 then [16] else []) ++ [8, 4, 2, 1]).flatMap fun w => (List.range (lanesOf k / w)).map fun g => (w, g * w)

/-- The group that usable lanes give (R704). -/
def groupOf (k usable : Nat) : Option (Nat × Nat) := (widthGroups k).find? fun g => (List.range g.1).all fun i => usable.testBit (g.2 + i)

/-! ## Events and states -/

/-- The parameter word of a link event (R728): port, width, cause or reason. DEDUCED (log 166, unsafe). -/
def linkParam (k width code : Nat) : Word := if k = 0 then fld 4 0 width ||| fld 11 8 code else flag 0 (k = 2) ||| fld 4 0 width ||| fld 11 8 code

/-- Raise a link event: the partner's number, or the relay's 64 above it. DESIGN CHOICE (log 38, unsafe). -/
def raiseLink (k ev width code : Nat) (s : State) : State := raise (if k = 0 then ev else ev + 64) (linkParam k width code) s

/-- A link enters a state. -/
def linkTo (k : Nat) (st : LinkSt) (s : State) : State := onLink k (fun l => { l with st := st, since := s.clk.now }) s

/-- The partner link's state, as the other desks see it. -/
def notePartner (k : Nat) (s : State) : State :=
  if k = 0 then reachChanged s (s.onLinks fun l => { l with partnerUp := (tabGet {} l.links 0 : Link).st = .active }) else s

/-- A fresh session value for a session to come (Table 15.4). -/
def drawSession (k : Nat) (s : State) : State :=
  let (v, s) := takeFree s
  onLink k (fun l => { l with session := v.toNat % 2 ^ 64, resume := none, canResume := false }) s

/-- A link's session is lost (R726): a new one will begin, and what fed on it ends (R733, R759, R917). -/
def loseSession (k : Nat) (s : State) : State :=
  let s := raiseLink k 707 0 0 (count1 (linkCtr k 5653 6170) (purgeQueue k [1, 2, 3] (drawSession k s)))
  let s := match s.upd.sess with | some x => if x.src = k + 1 then abortUpd 4 s else s | none => s
  if k = 0 then feedEnds (endSession s) else s

/-- A link about to align: no lane is locked, no block has come, and the burst of alignment codewords resets both scramblers (R695, R696). -/
def Link.realign (l : Link) : Link :=
  { l with peer := none, same := 0, ackd := false, ackSent := 0, txPos := 0, rxPos := 0,
           lanes := tabMap l.lanes fun _ x => { x with locked := false, markers := 0, missing := 0 } }

/-- A link in ACTIVE goes down (R724): it retrains from ALIGN, and its session waits 20 ms for a resume where the cause allows
one. In paired operation transport egress halts while the partner link is not ACTIVE (R749). DEDUCED (log 149, unsafe). -/
def linkDown (k cause : Nat) (s : State) : State :=
  let l := s.link k
  if l.st != .active then s
  else
    let can := cause ≠ 4 && cause ≠ 5
    let s := linkTo k .align (raiseLink k 705 l.width cause (count1 (linkCtr k 5651 6166) s))
    let s := onLink k (fun l => { l.realign with
      canResume := can, resume := if can then some (s.clk.now + 20 * ms) else none, wideAt := none }) s
    let s := notePartner k s
    let s := if k = 0 && s.pair.paired then haltEgress s else s
    let s := if k = 0 && s.pair.leaseWait.isSome then resumeAll s else s
    if can then s else loseSession k s

/-- All links fall silent (R41, R53): sessions are lost. -/
def silenceLinks (s : State) : State :=
  forAll [0, 1, 2] (fun k s =>
    let was := (s.link k).st
    if was = .silent then s
    else
      let s := if was = .active then raiseLink k 705 (s.link k).width 1 (count1 (linkCtr k 5651 6166) s) else s
      let s := notePartner k (linkTo k .silent s)
      let s := if k = 0 && s.pair.leaseWait.isSome then resumeAll s else s
      doIf (was = .active || (s.link k).resume.isSome) (loseSession k) (onLink k (fun l => { l with lanes := [], signal := 0, retryAt := none }) s)) s

/-! ## Training (R699–R702) -/

/-- R699: SILENT ends when signal is seen on any lane, or after 10 ms; after a refusal or the end of a session not before its time. -/
def execLinkSignalDetect (link signal : Nat) (s : State) : Out :=
  .next (
    let s := if link < 3 then onLink link (fun l => { l with signal := signal % 2 ^ lanesOf link }) s else s
    let l := s.link link
    let go := match l.retryAt with | some t => due t s.clk.now | none => decide (l.signal ≠ 0) || due (l.since + 10 * ms) s.clk.now
    if !linkMay s link || l.st != .silent || !go then s
    else
      let s := if l.session = 0 then drawSession link s else s
      linkTo link .equalise (onLink link (fun l => { l with retryAt := none, lanes := [], peer := none, same := 0 }) s))

/-- The link goes to ALIGN with the lanes that are not bad. -/
def toAlign (k : Nat) (s : State) : State := linkTo k .align (onLink k Link.realign s)

/-- One tap request of a frame (R701): the value it moves to within 0 to `most` steps of magnitude, and the status returned.
While a request is held after its answer nothing moves; hold clears the status. An increment makes the magnitude smaller. DEDUCED (log 147, unsafe). -/
def tapStep (req stat v most : Nat) : Nat × Nat :=
  if req = 0 then (v, 0)
  else if stat ≠ 0 then (v, stat)
  else if req = 1 then (if v = 0 then (v, 3) else (v - 1, 1))
  else if req = 2 then (if v = most then (v, 2) else (v + 1, 1))
  else (v, 0)

/-- The presets' magnitudes in steps (R701). -/
def presetTaps : Nat → Option (Nat × Nat)
  | 1 => some (0, 0) | 2 => some (2, 4) | 3 => some (4, 8) | _ => none

/-- What the own receiver wants next of the far transmitter: changes of the three taps, a preset, and precoding (Table 15.3). -/
abbrev TapWish : Type := Nat × Nat × Nat × Nat × Bool

/-- The own tap request after an answer (R701): one that is held stays until the status shows updated or a limit, and then hold is sent; a
new one waits until the status is back at not updated. -/
def nextReq (want stat held : Nat) : Nat := if stat ≠ 0 then 0 else if held ≠ 0 then held else want

/-- A receiver is ready with fewer than 20 pattern errors in 2 × 10^9 bits (R702); none are given before so many bits have been counted. -/
def patternReady (errs : Option Nat) : Bool := errs.any fun n => decide (n < 20)

/-- CRC-8 of the polynomial 0x07 over the top bits of a 24-bit value, the highest first (Table 15.3). DEDUCED (log 244, unsafe). -/
def crc8 : Nat → Nat → Nat → Nat
  | 0, _, c => c
  | n + 1, v, c =>
    let top := (c.testBit 7) != (v.testBit n)
    crc8 n v ((2 * c % 256) ^^^ if top then 7 else 0)

/-- The training frame that answers on a lane, its pattern apart (Table 15.3). -/
def trainWords (link lane : Nat) (want : TapWish) (x : Lane) : List Word :=
  let w := fld 4 0 lane ||| fld 7 5 (link + 1) ||| fld 9 8 x.preReq ||| fld 11 10 x.mainReq ||| fld 13 12 x.postReq ||| fld 15 14 want.2.2.2.1
    ||| fld 17 16 x.preStat ||| fld 19 18 x.mainStat ||| fld 21 20 x.postStat ||| flag 22 x.rxReady ||| flag 23 want.2.2.2.2
  [0x0FF00FF0, w ||| fld 31 24 (crc8 24 w.toNat 0)]

/-- What a training frame does to a lane. The main tap is what the others leave, so a request for it is at a limit. -/
def trainLane (lane : Nat) (f : TrainFrame) (ready : Bool) (want : TapWish) (x : Lane) : Lane :=
  if f.lane ≠ lane then { x with bad := true }
  else
    let (pre, ps) := tapStep f.pre x.preStat x.pre 6
    let (post, qs) := tapStep f.post x.postStat x.post 12
    let (pre, post) := (presetTaps f.preset).getD (pre, post)
    { x with pre := pre, post := post, preStat := ps, postStat := qs, mainStat := if f.main = 1 then 3 else if f.main = 2 then 2 else 0,
             precode := f.precode, peerReady := f.rxReady, rxReady := ready, preReq := nextReq want.1 f.stats.1 x.preReq,
             mainReq := nextReq want.2.1 f.stats.2.1 x.mainReq, postReq := nextReq want.2.2.1 f.stats.2.2 x.postReq }

/-- The lane is ready in both directions. -/
def Lane.both (x : Lane) : Bool := x.rxReady && x.peerReady && !x.bad

/-- A lane takes part in the width group in use. -/
def inGroup (l : Link) (i : Nat) : Bool := decide (l.group ≤ i) && decide (i < l.group + l.width)

/-- A lane outside the group in use trains on its own; it is usable once both receivers are ready (R727). -/
def retrainLane (lane : Nat) (f : TrainFrame) (ready : Bool) (want : TapWish) (x : Lane) : Lane :=
  let y := trainLane lane f ready want { x with bad := false }
  { y with bad := y.bad || !(y.rxReady && y.peerReady), locked := y.rxReady && y.peerReady && !y.bad }

/-- R700–R702, R727: a training frame of a lane, and the frame that answers it. `errs` are the errors that the own receiver has counted
in the last 2 × 10^9 bits of the pattern, `want` its next wish. Outside EQUALISE it trains a lane that is not in use. -/
def execTrainingFrame (link lane : Nat) (f : TrainFrame) (errs : Option Nat) (want : TapWish) (s : State) : Out :=
  .next (
    let l := s.link link
    let back := fun (s : State) => send { kind := .trainFrame, a := link, b := lane, ws := trainWords link lane want (laneOf (s.link link) lane) } s
    if !linkMay s link || !f.crcOk || lanesOf link ≤ lane then s
    else if l.st = .equalise then
      let s := back (onLane link lane (trainLane lane f (patternReady errs) want) s)
      let l := s.link link
      if (List.range (lanesOf link)).all fun i => (laneOf l i).both then toAlign link s else s
    else if l.st = .active && !inGroup l lane then
      back (onLane link lane (retrainLane lane f (patternReady errs) want) s)
    else s)

/-- R699: 150 ms in EQUALISE: lanes that are not ready are bad. -/
def execEqualiseTimeout (link : Nat) (s : State) : Out :=
  .next (
    let l := s.link link
    if l.st != .equalise || !due (l.since + 150 * ms) s.clk.now then s
    else
      let s := forAll (List.range (lanesOf link)) (fun i => onLane link i fun x => { x with bad := !x.both }) s
      if readyLanes link (s.link link) = 0 then linkTo link .silent s else toAlign link s)

/-! ## Alignment and configuration (R696, R703–R706) -/

/-- A lane's lock: gained with four markers at the expected spacing, lost after four missing ones in a row (R696). -/
def markLane (found : Bool) (x : Lane) : Lane :=
  let m := if found then min 4 (x.markers + 1) else 0
  let n := if found then 0 else min 4 (x.missing + 1)
  { x with markers := m, missing := n, locked := if 4 ≤ m then true else if 4 ≤ n then false else x.locked }

/-- The oldest and newest state-write version of the running image. -/
def ownDv (s : State) : Nat × Nat :=
  match (s.bankOf s.upd.run).head with | some h => (h.dvmin, h.dvmax) | none => (Config.factoryDv.1.toNat, Config.factoryDv.2.toNat)

/-- Credits that the module advertises by channel (Table 15.8). -/
def ownCredits (k v : Nat) : Nat := if v = 1 then (if k = 0 then 16384 else 0) else if v = 2 then (if k = 0 then 131072 else 0) else if v = 3 then 1024 else if 8 ≤ v then 4096 else 0

/-- The module's CONFIG block (Table 15.4). -/
def configWords (s : State) (k : Nat) : List Word :=
  let l := s.link k
  let (lo, hi) := ownDv s
  let ws := [0x48240C0F, fld 3 0 (k + 1) ||| fld 7 4 1 ||| fld 11 8 s.order ||| fld 15 12 s.modnum ||| fld 16 16 s.bay.bay ||| fld 19 17 s.pos ||| flag 20 l.resume.isSome ||| flag 21 l.ackd]
    ++ words2 Config.serial.toNat ++ words2 l.session ++ [word (bankVer s s.upd.run), fld 15 0 lo ||| fld 31 16 hi, fld 15 0 (ownGood k l) ||| fld 27 16 l.rxseq]
    ++ (List.range 16).map (fun v => fld 23 0 (ownCredits k v)) ++ words2 Config.keyId.toNat ++ List.replicate 35 0
  ws ++ [word (crc32c ws)]

/-- Send the CONFIG block: its words, and in `ds` the bytes of the codeword of its flit, which every lane carries whole (R694, R695, R699,
R703). -/
def sendConfig (k : Nat) (s : State) : State :=
  let ws := configWords s k
  onLink k (fun l => { l with txPos := l.txPos + 256 }) (send { kind := .configBlock, a := k, ws := ws, ds := laneShare 1 0 (codeword (s.link k).txPos (wordBytes (0xFFFFFFFF :: ws))) } s)

/-- The link enters CONFIG and sends its block. -/
def toConfig (k : Nat) (s : State) : State := sendConfig k (linkTo k .config s)

/-- R699: 1 ms in ALIGN or CONFIG. -/
def execLinkAlignTimeout (link : Nat) (s : State) : Out :=
  .next (
    let l := s.link link
    if !(l.st = .align || l.st = .config) || !due (l.since + ms) s.clk.now then s
    else if (match l.resume with | some t => decide (s.clk.now < t) | none => false) then toAlign link s
    else linkTo link .silent s)

/-- A link is refused (R705): SILENT, and a retry every 1 s. -/
def refuseLink (k reason : Nat) (s : State) : State :=
  raiseLink k 709 0 reason (linkTo k .silent (onLink k (fun l => { l with retryAt := some (s.clk.now + sec), peer := none, same := 0 }) s))

/-- Why a block refuses the link (R705). -/
def refusal (s : State) (k : Nat) (b : ConfigBlk) : Option Nat :=
  if b.magic ≠ 0x48240C0F || b.proto ≠ 1 then some 1
  else if !(if k = 0 then decide (b.linkType = 1) else if k = 1 then decide (b.linkType = 3) else decide (b.linkType = 2)) then some 2
  else if k = 0 && b.bay = s.bay.bay then some 3
  else if (groupOf k (ownGood k (s.link k) &&& b.rxgood)).isNone then some 4
  else none

/-- The link enters ACTIVE (R704, R725, R726): its session continues where both sides ask for it, or a new one begins. -/
def toActive (k : Nat) (b : ConfigBlk) (s : State) : State :=
  let l := s.link k
  let (w, g) := (groupOf k (ownGood k l &&& b.rxgood)).getD (1, 0)
  let same := l.canResume && b.resume && decide (b.session = l.peerSession) && (match l.resume with | some t => decide (s.clk.now ≤ t) | none => false)
  let changed := l.lastWidth ≠ 0 && l.lastWidth ≠ w
  let lost := l.resume.isSome && !same
  let s := if lost then loseSession k s else s
  let s := linkTo k .active (onLink k (fun l => { l with
    width := w, group := g, lastWidth := w, peer := some b, hbAt := s.clk.now, beatAt := s.clk.now, helloAt := s.clk.now, txPos := 0, rxPos := 0, rxgood := b.rxgood, resume := none, canResume := false, nakSent := false, replays := 0, wideAt := none,
    progAt := s.clk.now }) s)
  let s := notePartner k s
  let s := if same then
      let s := raiseLink k 706 w 0 (count1 (linkCtr k 5652 6168) (onLink k (fun l => { l with acked := b.akseq }) s))
      let s := if b.akseq = (s.link k).fseq then s else send { kind := .replay, a := k, b := (b.akseq + 1) % 4096 } (count1 (linkCtr k 5650 6164) s)
      if k = 0 && s.pair.egressHalt && !s.pair.soloAsk && s.pair.take.isNone && decide (s.pair.fault = 0) && s.md.mode = .active then resumeEgress s else s
    else
      let (lo, hi) := ownDv s
      let none_ := max lo b.dvmin > min hi b.dvmax
      let s := onLink k (fun l => { l with
        onlyHb := false, peerSession := b.session, fseq := 0, rxseq := 0, acked := 0, used := [], freed := [], peerFreed := [], noDelta := k = 0 && none_, hbseq := 0, hbTx := [], peerHb := 0,
        queue := l.queue.filter fun r => 8 ≤ r.vc, dwrr := 0,
        pool := ((List.range 16).zip b.credits).foldl (fun t e => if e.2 = 0 then t else tabIns t e.1 e.2) [] }) s
      let s := doIf (k = 0 && none_) (raise 710 (linkParam 0 w 0)) s
      raiseLink k 704 w 0 s
  pumpRecords k (doIf changed (raiseLink k 708 w 0) s)

/-- The block with which the link may go to ACTIVE (R699): eight identical valid blocks with ACKCFG have been received, and eight sent. -/
def agreed (l : Link) : Option ConfigBlk := if l.st = .config && 8 ≤ l.same && 8 ≤ l.ackSent then l.peer.filter (·.ackcfg) else none

/-- R696, R699: an alignment codeword, or its absence where one is expected; it resets the receiving generator (R695). `run` counts those
that came in a row where flits were expected: three of them take an ACTIVE link down with cause 6 (R724). -/
def execAlignmentCodeword (link lane : Nat) (found : Bool) (run : Nat) (s : State) : Out :=
  .next (
    if !linkMay s link || lanesOf link ≤ lane then s
    else if (s.link link).st = .silent || (s.link link).st = .equalise then s
    else
      let s := onLink link (fun l => { l with rxPos := if found then 0 else l.rxPos }) (onLane link lane (markLane found) s)
      let l := s.link link
      if l.st = .active then (if 3 ≤ run then linkDown link 6 s else s)
      else if l.st = .align then (if readyLanes link l ≠ 0 && ownGood link l = readyLanes link l then toConfig link s else s)
      else match agreed l with | some b => if found then toActive link b s else s | none => s)

/-- R699, R703–R706: a CONFIG block of the peer. Eight identical valid blocks in a row set ACKCFG; as many blocks leave as come. DEDUCED (log 148, unsafe). -/
def execConfigBlock (link : Nat) (b : ConfigBlk) (s : State) : Out :=
  .next (
    let l := s.link link
    if !linkMay s link || !b.crcOk || !(l.st = .align || l.st = .config) then s
    else
      let n := if l.peer = some b then min 8 (l.same + 1) else 1
      let s := onLink link (fun l => { l with peer := some b, same := n, ackSent := if l.ackd then min 8 (l.ackSent + 1) else 0, rxPos := l.rxPos + 256 }) s
      if n < 8 then s
      else
        let s := if l.ackd then s else sendConfig link (onLink link (fun l => { l with ackd := true, ackSent := 1 }) s)
        if l.st != .config then s else match refusal s link b with | some r => refuseLink link r s | none => s)

/-- R705: a refused link retries every 1 s. -/
def execLinkRefuseRetry (link : Nat) (s : State) : Out :=
  .next (match (s.link link).retryAt with
    | none => s
    | some t =>
      if !due t s.clk.now || !linkMay s link || (s.link link).st != .silent then s
      else linkTo link .equalise (onLink link (fun l => { l with retryAt := none, lanes := [], peer := none, same := 0 }) s))

/-! ## Flits and replay (R707–R709) -/

/-- The peer has accepted own flits up to AKSEQ. -/
def takeAck (k akseq : Nat) (s : State) : State :=
  let l := s.link k
  let n := (akseq + 4096 - l.acked) % 4096
  if n = 0 || (l.fseq + 4096 - l.acked) % 4096 < n then s
  else pumpRecords k (onLink k (fun l => { l with acked := akseq, progAt := s.clk.now, replays := 0 }) s)

/-- Replay every unacknowledged flit (R709); the eighth replay without progress takes the link down. -/
def replayFlits (k : Nat) (s : State) : State :=
  let l := s.link k
  if l.acked = l.fseq then s
  else
    let s := send { kind := .replay, a := k, b := (l.acked + 1) % 4096 } (count1 (linkCtr k 5650 6164) s)
    let s := onLink k (fun l => { l with replays := l.replays + 1, progAt := s.clk.now }) s
    if 8 ≤ l.replays + 1 then linkDown k 2 s else s

/-- Discard a flit; NAK leaves once after an accepted one (R708). -/
def discardFlit (k : Nat) (s : State) : State :=
  if (s.link k).nakSent then s
  else send { kind := .flitNak, a := k, b := (s.link k).rxseq } (count1 (linkCtr k 5649 6162) (onLink k (fun l => { l with nakSent := true }) s))

/-- A corrected byte on a lane: it counts in the running 10 ms (Table 15.13 cause 1). DESIGN CHOICE (log 245, unsafe). -/
def noteErr (now : Nat) (x : Lane) : Lane := if x.errAt + 10 * ms ≤ now then { x with errs := 1, errAt := now } else { x with errs := x.errs + 1 }

/-- The bytes that a lane carries in 10 ms, over 10^4: 7 bytes in each nanosecond (R692). -/
def laneErrLimit : Nat := 7 * 10 * ms / 10000

/-- Corrected bytes of a codeword are counted on the lane that carried each (R694, R729); too many on a lane take the link down. -/
def noteErrs (link : Nat) (f : FlitIn) (s : State) : State :=
  let base := if link = 0 then 5632 else if link = 1 then 6144 else 6152
  let l := s.link link
  let lane := fun (i : Nat) => l.group + laneOfByte l.width i
  let s := forAll f.errs (fun i s => count1 (base + lane i) (onLane link (lane i) (noteErr s.clk.now) s)) s
  match (f.errs.map lane).find? fun i => decide (laneErrLimit < (laneOf (s.link link) i).errs) with
  | some i => linkDown link 1 (linkLaneFault link i (onLane link i (fun x => { x with bad := true, locked := false }) s))
  | none => s

/-- What every decoded flit brings: its corrected bytes, the peer's AKSEQ, and its NAK (R708, R709). -/
def ackFlit (link : Nat) (f : FlitIn) (s : State) : State :=
  let s := takeAck link f.akseq (noteErrs link f s)
  if f.nak then replayFlits link s else s

/-- A flit that carries records is accepted in FSEQ order only; one whose records do not parse takes the link down (R708, R724). -/
def acceptFlit (link : Nat) (f : FlitIn) (s : State) : State :=
  if f.fseq ≠ ((s.link link).rxseq + 1) % 4096 then discardFlit link s
  else
    let s := onLink link (fun l => { l with rxseq := f.fseq, nakSent := false }) s
    if f.fault then linkDown link 4 (count1 (linkCtr link 5656 6176) s) else count (linkCtr link 5655 6174) f.records s

/-- R693, R708: a codeword comes; with more than 8 bytes in error it is uncorrectable. -/
def execFlitReceive (link : Nat) (f : FlitIn) (s : State) : Out :=
  .next (if (s.link link).st != .active then s else
    let s := onLink link (fun l => { l with rxPos := l.rxPos + 256 }) s
    if rsCorrects < f.errs.length then discardFlit link (count1 (linkCtr link 5648 6160) s)
    else
      let s := ackFlit link f s
      if (s.link link).st != .active || f.idle then s else acceptFlit link f s)

/-- R709: 2 µs without AKSEQ progress while flits are unacknowledged. -/
def execReplayTimeout (link : Nat) (s : State) : Out :=
  .next (
    let l := s.link link
    if l.st = .active && due (l.progAt + 2 * us) s.clk.now then replayFlits link s else s)

/-- R724 cause 1: a lane in use loses signal or lock, or errs too much. -/
def execLaneFault (link lane : Nat) (s : State) : Out :=
  .next (
    let l := s.link link
    if l.st = .active && inGroup l lane then linkDown link 1 (linkLaneFault link lane <| onLane link lane (fun x => { x with bad := true, locked := false }) s)
    else if lane < lanesOf link && link < 3 then onLane link lane (fun x => { x with bad := true, locked := false }) s
    else s)

/-- R724 cause 5: MATE_IN_N goes high. -/
def execMateInHigh (s : State) : Out := .next (linkDown 0 5 { s with pins := { s.pins with mateInN := true } })

/-! ## Heartbeats (R717, R718, R747) -/

/-- MODE as the heartbeat shows it: 2 until the drive writes of a lost lease have ended (R748). -/
def shownMode (s : State) : Nat := if s.pair.drainW && writesOut s then 2 else s.md.mode.code

/-- The words of a HEARTBEAT (R717). -/
def beatWords (link q : Nat) (l : Link) (s : State) : List Word :=
  [word q, fld 2 0 (shownMode s) ||| flag 3 s.pair.lease ||| flag 4 s.master ||| flag 5 s.net.ptp.locked ||| fld 31 16 (ownGood link l)]
    ++ words2 s.clk.now ++ [word l.peerHb] ++ words2 l.peerHbAt ++ [1, 2, 3, 8, 9, 10, 11, 12, 13, 14, 15].map fun v => fld 23 0 (tabGet 0 l.freed v)

/-- R717: a HEARTBEAT leaves, every 0.5 µs. -/
def execHeartbeatSend (link : Nat) (s : State) : Out :=
  .next (
    let l := s.link link
    if l.st != .active || !due l.beatAt s.clk.now then s
    else
      let q := (l.hbseq + 1) % 2 ^ 32
      let s := onLink link (fun l => { l with beatAt := s.clk.now + 500, hbseq := q, hbTx := tabIns (tabFilter l.hbTx fun n _ => decide (q < n + 256)) q s.clk.now }) s
      let s := s.onPair fun p => { p with drainW := p.drainW && writesOut s }
      linkSend link { kind := .heartbeat, a := link, b := q, ws := beatWords link q l s } s)

/-- Time from the Active partner (R213, R718): the link delay and the offset. The module's PTP time stands on its own clock, so a change
of the offset moves it by as much, and it runs with the active's. DEDUCED (log 207, unsafe). -/
def steer (h : HeartbeatIn) (s : State) : State :=
  if s.md.mode = .active || s.md.mode = .drowse || h.mode ≠ 2 then s
  else match tabFind (s.link 0).hbTx h.echoSeq with
    | none => s
    | some t1 =>
      let d : Int := (((h.arrival : Int) - t1) - ((h.txTime : Int) - h.echoRx)) / 2
      let off : Int := (h.txTime : Int) + d - h.arrival
      let by_ := off - s.links.timeOff
      onPtp (fun p => { p with ns := p.ns + by_, locked := h.locked, everLocked := p.everLocked || h.locked,
                               lockedAt := if h.locked && !p.everLocked then s.clk.now else p.lockedAt }) (s.onLinks fun l => { l with timeOff := off })

/-- The usable lanes of a link give a wider group than the one in use (R727). -/
def canWiden (k : Nat) (l : Link) : Bool := match groupOf k (ownGood k l &&& l.rxgood) with | some g => decide (l.width < g.1) | none => false

/-- What the partner's heartbeat tells the pair desk (R746–R748, R756). -/
def partnerBeat (h : HeartbeatIn) (s : State) : State :=
  let s := steer h (s.onPair fun p => { p with peerMode := h.mode, peerLease := h.lease })
  let s := if s.drv.writeHold.isSome && h.mode ≠ 2 then memberGo s else s
  let s := if s.pair.planned && h.mode = 1 && s.md.mode = .active then raise 713 (pairParam s 0) (count1 5661 (s.onPair fun p => { p with planned := false })) else s
  match s.pair.leaseWait with
  | some t => if !h.lease then resumeAll s else if due t s.clk.now then fence s else s
  | none => if s.pair.lease && h.lease then fence s else s

/-- What a HEARTBEAT brings the link: its number, times, lanes and returned credits; a stalled channel may send again, and a wider
group starts its 10 s (R712, R718, R727). -/
def linkBeat (link : Nat) (h : HeartbeatIn) (s : State) : State :=
  let vcs := [1, 2, 3, 8, 9, 10, 11, 12, 13, 14, 15]
  let s := onLink link (fun l => { l with
    hbAt := s.clk.now, peerHb := h.hbseq, peerHbAt := h.arrival, rxgood := h.rxgood, peerFreed := (vcs.zip h.freed).foldl (fun t e => tabIns t e.1 e.2) l.peerFreed }) s
  let s := pumpRecords link s
  let sw := if link = 0 then 34 else 31 + link
  let s := s.onNet fun n => { n with stall := tabFilter n.stall fun e _ => decide (e / 8 ≠ sw) || noCredit s sw (e % 8) }
  onLink link (fun l => { l with wideAt := if canWiden link l then some (l.wideAt.getD s.clk.now) else none }) s

/-- R712, R718: a HEARTBEAT comes; the partner's also speaks to the pair desk. -/
def execHeartbeatReceive (link : Nat) (h : HeartbeatIn) (s : State) : Out :=
  .next (if (s.link link).st != .active then s else
    let s := linkBeat link h s
    let s := if link = 0 then partnerBeat h s else s
    onLink link (fun l => { l with hbTx := tabFilter l.hbTx fun n _ => decide (h.echoSeq ≤ n) }) s)

/-- R724 cause 3: no heartbeat for 50 µs. -/
def execHeartbeatTimeout (link : Nat) (s : State) : Out :=
  .next (if (s.link link).st = .active && due ((s.link link).hbAt + 50 * us) s.clk.now then linkDown link 3 s else s)

/-! ## Resume and widening (R725–R727) -/

/-- R699, R726: no resume within 20 ms: the session ends, and the link is SILENT for 10 ms. DEDUCED (log 246, unsafe). -/
def execSessionResumeTimeout (link : Nat) (s : State) : Out :=
  .next (match (s.link link).resume with
    | none => s
    | some t =>
      if !due t s.clk.now || (s.link link).st = .active then s
      else linkTo link .silent (onLink link (fun l => { l with retryAt := some (s.clk.now + 10 * ms) }) (loseSession link s)))

/-- R727: a lane that is not in use has been usable for 10 s. -/
def execLinkWiden (link : Nat) (s : State) : Out :=
  .next (match (s.link link).wideAt with
    | none => s
    | some t =>
      if (s.link link).st != .active || !due (t + 10 * sec) s.clk.now || !(if link = 0 then decide (s.bay.bay = 0) else decide (link = 2)) then s
      else
        let s := toAlign link (onLink link (fun l => { l with canResume := true, resume := some (s.clk.now + 20 * ms), wideAt := none }) s)
        let s := notePartner link s
        if link = 0 && s.pair.paired then haltEgress s else s)

/-! ## Postmarks (R715, R716, R732, R734) -/

/-- R716: 200 ns after the first record postmarked, or at 64. -/
def execPostmarkAckSend (s : State) : Out :=
  .next (if s.pair.rxNew = 0 || !(decide (64 ≤ s.pair.rxNew) || due (s.pair.rxAt + 200) s.clk.now) || !s.links.partnerUp then s else
    linkSend 0 { kind := .postmarkAck, b := s.pair.rxseq } (s.onPair fun p => { p with rxNew := 0 }))

/-- The count up to which every record is postmarked, where those of `left` are not and others have not entered a flit. -/
def markedTo (left : List (Nat × Nat)) (s : State) : Nat :=
  let waits := ((s.link 0).queue.filter fun r => r.vc = 1 || r.vc = 2).map fun r => r.msg.c
  (left.map (·.2) ++ waits).foldl min (s.pair.pseq + 1) - 1

/-- R716, R734: PMARK advances, and held transmissions whose records are postmarked leave. -/
def execPostmarkAckReceive (pmark : Nat) (s : State) : Out :=
  .next (
    let s := count1 5657 s
    let left := s.pair.inFlight.filter fun e => decide (pmark < e.1)
    if !s.pair.shadowing || s.pair.wire < pmark || left.length = s.pair.inFlight.length then s
    else pumpHeld (s.onPair fun p => { p with inFlight := left, pmark := max p.pmark (markedTo left s), markAt := s.clk.now }))

/-- R732: 1 ms without PMARK progress while records are outstanding. DEDUCED (log 155, unsafe). -/
def execPostmarkStall (s : State) : Out :=
  .next (if s.pair.shadowing && s.pair.pmark < s.pair.pseq && due (s.pair.markAt + ms) s.clk.now then endSession s else s)

/-! ## Forwarded frames and routed messages (R713, R723, R784) -/

/-- A record has been taken from a credited channel (R712). -/
def freeCredits (k vc len : Nat) (s : State) : State := onLink k (fun l => { l with freed := tabMod 0 l.freed vc fun n => (n + (len * 4 + 63) / 64) % 2 ^ 24 }) s

/-- R713: a forward channel has held a waiting frame for 1 ms without the credits that it costs. -/
def execCreditStall (link cls : Nat) (s : State) : Out :=
  .next (
    let l := s.link link
    let sw := if link = 0 then 34 else 31 + link
    if l.st != .active || !(noCredit s sw (cls % 8) || l.queue.any fun r => r.vc = 8 + cls % 8) then s
    else count1 (linkCtr link 5658 6178) (s.onNet fun n => { n with stall := tabIns n.stall (sw * 8 + cls % 8) true }))

/-- Where a message that has come goes: taken here, on by a link, or nowhere (R784). -/
inductive Route where
  | take
  | pass (link : Nat)
  | drop
  deriving DecidableEq, Repr

/-- Route a message that came by a link: the module that DSTMOD names, or its partner, takes it if Active; a module on the way
sends it along its own chain. -/
def routeOf (s : State) (m : MsgIn) : Route :=
  let q := m.dst / 2
  let act := s.md.mode = .active || s.md.mode = .drowse
  if q = s.pos && (m.dst = s.modnum || m.link = 0) then (if act then .take else if m.link ≠ 0 && s.links.partnerUp then .pass 0 else .drop)
  else if (reachOf s (toward s q)).testBit m.dst then .pass (toward s q)
  else .drop

/-- A routed message: a forwarded frame with HOPS 15 and one without a route are dropped with a count (R723, R784); else it is taken, or sent
on with HOPS one higher. -/
def routed (m : MsgIn) (vc : Nat) (out : OutMsg) (take : State → State) (s : State) : State :=
  let s := freeCredits m.link vc m.len s
  if 15 ≤ m.hops && 8 ≤ vc then count1 (linkCtr m.link 5659 6180) s
  else match routeOf s m with
    | .take => take s
    | .pass k => linkSend k { out with route := m.dst + 16 * ((m.hops + 1) % 16) } s
    | .drop => count1 6190 s

/-- R723, R756: a forwarded frame. One that its front port took at the former active of a planned take-over enters the Sorting
Office here as from that port. -/
def execForwardedFrame (m : MsgIn) (cls port : Nat) (f : Option Frame) (s : State) : Out :=
  .next (if (s.link m.link).st != .active then s else
    routed m (8 + cls % 8) { kind := .forward, a := port, b := f.elim 0 (·.len), c := cls } (fun s => match f with
      | some f => if port < 32 then frameIn { f with lport := port } s else s
      | none => s) s)

end Sys2Proof.Machine
end

