-- ==== Sys2Proof/Machine/Ecc.lean ====
section
/-! DEFINITION. The check codes of the memories (R800, R802): the Hamming SEC-DED code of an SRAM byte, and RS(80,64) of a DRAM line. -/
namespace Sys2Proof.Machine

/-- What a decoder makes of stored bits: 0 clean, 1 corrected, 2 uncorrectable; the syndrome; and the data. -/
abbrev Decoded : Type := Nat × Nat × List Nat

/-- Exclusive or of a list. -/
def xorAll (xs : List Nat) : Nat := xs.foldl (· ^^^ ·) 0

/-! ## SRAM (R800) -/

/-- Places of the eight data bits in the 12-bit Hamming codeword, whose places 1, 2, 4 and 8 hold check bits. PRESUMED (log 251, unsafe). -/
def hamPlaces : List Nat := [3, 5, 6, 7, 9, 10, 11, 12]

/-- A number has an odd number of ones in its low 13 bits. -/
def oddOnes (x : Nat) : Bool := ((List.range 13).filter x.testBit).length % 2 = 1

/-- The four Hamming check bits of a byte. -/
def hamBits (b : Nat) : Nat := xorAll (((List.range 8).zip hamPlaces).filterMap fun e => if b.testBit e.1 then some e.2 else none)

/-- The five check bits of a byte: the Hamming bits, and the parity of all on top. -/
def hamCheck (b : Nat) : Nat := hamBits b + if oddOnes b != oddOnes (hamBits b) then 16 else 0

/-- Decode a byte and its check bits: one wrong bit of the 13 is corrected, two are detected (R800). -/
def hamDecode (b c : Nat) : Nat × Nat × Nat :=
  let h := hamBits b ^^^ (c % 16)
  let odd := oddOnes b != oddOnes c
  let syn := h + if odd then 16 else 0
  if !odd then (if h = 0 then 0 else 2, syn, b)
  else match hamPlaces.idxOf? h with
    | some i => (1, syn, b ^^^ 2 ^ i)
    | none => (if h < 9 then 1 else 2, syn, b)

/-- Decode a 64-byte unit: the worst outcome of its bytes, and the syndrome of the first byte in error with its offset (Table 18.2 SYN). -/
def sramDecode (data check : List Nat) : Decoded :=
  let ds := (data.zip check).map fun (e : Nat × Nat) => hamDecode e.1 e.2
  let syn := match ((List.range 64).zip ds).find? fun (e : Nat × Nat × Nat × Nat) => e.2.1 != 0 with | some e => e.2.2.1 + 32 * e.1 | none => 0
  ((ds.map (·.1)).foldl max 0, syn, ds.map (·.2.2))

/-! ## DRAM (R802) -/

/-- The value of a polynomial, highest power first. -/
def gfEval (p : List Nat) (x : Nat) : Nat := p.foldl (fun a c => gfScale 1 x a ^^^ c) 0

/-- The 16 syndromes of a line's 80 bytes, the data first and then the check bytes. -/
def lineSyndromes (r : List Nat) : List Nat := (List.range 16).map fun j => gfEval r (gfPow j)

/-- The error that a device's four symbols would hold to give the syndromes. -/
def deviceError (syn : List Nat) (k : Nat) : List Nat :=
  let xs := (List.range 4).map fun m => gfPow (79 - (4 * k + m))
  xs.map fun x =>
    let p := (xs.filter (· != x)).foldl (fun p y => timesRoot y p) [1]
    gfScale 1 (gfInv (gfEval p x)) (xorAll ((p.reverse.zip syn).map fun (e : Nat × Nat) => gfScale 1 e.1 e.2))

/-- A line's bytes with an error taken out of a device. -/
def withoutError (r e : List Nat) (k : Nat) : List Nat := r.take (4 * k) ++ ((r.drop (4 * k)).zip e).map (fun (x : Nat × Nat) => x.1 ^^^ x.2) ++ r.drop (4 * k + 4)

/-- Decode a line: an error confined to one of the 20 devices is corrected (R802); the syndrome is its first four bytes. -/
def dramDecode (data check : List Nat) : Decoded :=
  let r := data ++ check
  let syn := lineSyndromes r
  let word := (syn.take 4).foldr (fun b a => b + 256 * a) 0
  if syn.all (· = 0) then (0, 0, data)
  else match ((List.range 20).map fun k => withoutError r (deviceError syn k) k).find? fun x => (lineSyndromes x).all (· = 0) with
    | some x => (1, word, x.take 64)
    | none => (2, word, data)

/-! ## Words of a test window (R828) -/

/-- Words from bytes, the least significant first. -/
def bytesWords : List Nat → List Word
  | a :: b :: c :: d :: r => BitVec.ofNat 32 (a + 256 * b + 65536 * c + 16777216 * d) :: bytesWords r
  | _ => []

/-- The five-bit fields of check words, six in each. -/
def checkFields (ws : List Word) : List Nat := (ws.flatMap fun w => (List.range 6).map fun i => w.toNat / 32 ^ i % 32).take 64

/-- Check words from five-bit fields. -/
def fieldWords : Nat → List Nat → List Word
  | 0, _ => []
  | n + 1, fs => BitVec.ofNat 32 ((fs.take 6).foldr (fun f a => f + 32 * a) 0) :: fieldWords n (fs.drop 6)

/-- The check words of a unit's data: of SRAM 11, of DRAM 4. -/
def checkWords (sram : Bool) (data : List Word) : List Word :=
  if sram then fieldWords 11 ((wordBytes data).map hamCheck) else bytesWords (rsParity (wordBytes data))

/-- What the decoder makes of a unit of SRAM or a line of DRAM. -/
def decodeWords (sram : Bool) (data check : List Word) : Nat × Word × List Word :=
  let (o, syn, d) := if sram then sramDecode (wordBytes data) (checkFields check) else dramDecode (wordBytes data) (wordBytes check)
  (o, BitVec.ofNat 32 syn, bytesWords d)

end Sys2Proof.Machine
end

