-- ==== Sys2Proof/Machine/Pair.lean ====
section
/-! DEFINITION. The lease, take-over and resynchronisation rows and the PAIR commands (chapter 16). -/
namespace Sys2Proof.Machine

/-! ## Frames to and from the witness (R739–R744) -/

/-- The lease link is used from Boot step 6 on, while the module is seated and not in hold-up. -/
def leaseMay (s : State) : Bool := s.step6 && s.fe.coreOn && s.pins.seated && !s.fe.holdup

/-- R740: the holder sends RENEW every 10 ms. -/
def execRenewSend (s : State) : Out :=
  .next (if !s.pair.lease || !leaseMay s || !due (s.pair.renewAt + 10 * ms) s.clk.now then s else
    leaseTimed 1 false (count1 5663 (s.onPair fun p => { p with renewAt := s.clk.now, resends := 0, answered := false })))

/-- R740: a RENEW unanswered after 0.5 ms is resent, at most three times in a period. -/
def execRenewResend (s : State) : Out :=
  .next (if !s.pair.lease || !leaseMay s || s.pair.answered || 3 ≤ s.pair.resends || !due (s.pair.renewAt + (s.pair.resends + 1) * 500 * us) s.clk.now then s else
    leaseTimed 1 false (count1 5664 (count1 5663 (s.onPair fun p => { p with resends := p.resends + 1 }))))

/-- R740: a non-holder sends STATUS every 5 ms. -/
def execStatusSend (s : State) : Out :=
  .next (if s.pair.lease || !leaseMay s || !due (s.pair.statusAt + 5 * ms) s.clk.now then s else leaseSend 4 false (s.onPair fun p => { p with statusAt := s.clk.now }))

/-- R740: a module in Boot claims every 100 ms until it is granted or the lease is reported held. A module that will end Boot in
Maintenance claims nothing. DEDUCED (log 150, unsafe). -/
def execClaimSend (s : State) : Out :=
  .next (match s.pair.claimAt with
    | none => s
    | some t =>
      if s.md.mode != .boot || s.pair.lease || !leaseMay s || s.pair.holder ≤ 1 || s.md.maintBoot || s.md.selftestBad || s.md.dramBad || !due t s.clk.now then s
      else leaseTimed 2 false (s.onPair fun p => { p with claimAt := some (s.clk.now + 100 * ms) }))

/-- The first CLAIM of a Boot: bay 1 starts 2 s later (R740). -/
def startClaims (s : State) : State := s.onPair fun p => { p with claimAt := some (s.clk.now + if s.bay.bay = 1 then 2 * sec else 0), frameAt := s.clk.now }

/-- R739: a bad lease frame is ignored and counted. -/
def execLeaseFrameIgnored (s : State) : Out := .next (count1 5665 s)

/-- R744: 20 ms without a witness frame. -/
def execWitnessLost (s : State) : Out :=
  .next (if s.pair.witness && leaseMay s && due (s.pair.frameAt + 20 * ms) s.clk.now then raise 720 (pairParam s 0) (s.onPair fun p => { p with witness := false }) else s)

/-- A frame of the witness has come: PAIR.WITNESS_RESTORED after a loss, and the holder that it reports (R744). -/
def sawWitness (f : WitnessFrame) (s : State) : State :=
  let was := s.pair.witness
  let s := s.onPair fun p => { p with witness := true, frameAt := s.clk.now, holder := f.holder }
  doIf (!was) (raise 721 (pairParam s 0)) s

/-! ## Grants, denials and acknowledgements -/

/-- Answer a PAIR.FORCE_CLAIM that waits (R770). -/
def answerForce (status : Nat) (s : State) : State :=
  match s.pair.force with
  | none => s
  | some (d, tag, _) => post d tag false status [] (s.onPair fun p => { p with force := none })

/-- A GRANT answers one of the holder's frames: the lease runs from when that frame was sent (R741). -/
def renewed (f : WitnessFrame) (s : State) : State :=
  match tabFind s.pair.sentAt f.seq with
  | none => s
  | some t => s.onPair fun p => { p with term := f.term, expiry := max p.expiry (t + leaseSpan), answered := true, sentAt := tabFilter p.sentAt fun _ u => decide (t < u) }

/-- A GRANT gives this module the lease (R746); in Boot it settles the mode at Boot's end (R134). An unsolicited GRANT runs from
its arrival. A module in Maintenance takes one only in answer to PAIR.FORCE_CLAIM (R140, R143, R770). DEDUCED (log 151, unsafe). -/
def granted (f : WitnessFrame) (s : State) : State :=
  let t := (tabFind s.pair.sentAt f.seq).getD s.clk.now
  let s := s.onPair fun p => { p with lease := true, term := f.term, expiry := t + leaseSpan, answered := true, sentAt := [], renewAt := s.clk.now, resends := 0, claimAt := none, down := false }
  let s := raise 711 (pairParam s (if f.ret then 1 else 0)) s
  let s := doIf f.ret (fun s => raise 718 (pairParam s 0) (count1 5662 s)) s
  let s := answerForce stOk s
  if s.md.mode = .boot then s else becomeActive s

/-- R741, R746: a GRANT. -/
def execLeaseGrant (f : WitnessFrame) (s : State) : Out :=
  .next (if !leaseMay s then s else
    let s := sawWitness f s
    if s.pair.lease then renewed f s
    else if s.md.mode = .maintenance && s.pair.force.isNone then s
    else granted f s)

/-- The freeze of a planned take-over ends without one (R767): held frames go on. -/
def unfreeze (s : State) : State :=
  let fs := s.pair.frozen
  let ws := s.woken
  let s := finishOnly (fun r => r.op = 0x0B02) 713 stConflict 0 ({ s with woken := [] }.onPair fun p => { p with take := none, frozen := [] })
  forAll ws runPkt (forAll fs frameIn (resumeEgress s))

/-- R761, R767, R770: a DENY. -/
def execLeaseDeny (f : WitnessFrame) (s : State) : Out :=
  .next (if !leaseMay s then s else
    let s := answerForce stConflict (sawWitness f s)
    if f.result = 4 then
      let s := if s.pair.down then s else raise 719 (pairParam s 0) (s.onPair fun p => { p with down := true })
      if s.pair.lease then fence s else if s.md.mode = .standby then changeMode .fenced (s.onPair fun p => { p with current := false }) else s
    else if s.pair.take = some .released && f.seq = s.pair.relSeq then unfreeze s
    else if s.pair.lease && s.pair.fault ≠ 0 && f.result = 1 then fence s
    else s)

/-- The witness has accepted SOLO (R757): single-module operation, the stages share by droop, and egress goes on. DEDUCED (log 250, unsafe). -/
def goSolo (s : State) : State :=
  let s := unpair (s.onPair fun p => { p with solo := true, soloAsk := false })
  resumeEgress (enterDroop (raise 714 (pairParam s 0) (count1 5672 s)))

/-- The witness has accepted RELEASE (R756 step 4): the module holds no lease, and forwards held and received frames for 1 ms. -/
def handOver (s : State) : State :=
  let fs := s.pair.frozen
  let ws := s.woken
  let s := { s with woken := [] }.onPair fun p => { p with
    take := some .forward, takeAt := s.clk.now, frozen := [], lease := false, expiry := 0, shadowing := false, paired := false, peerCurrent := false, held := [],
    rxOn := true, rxseq := 0, rxNew := 0, stuck := false }
  forAll ws (fun w s => forwardFrame 0 0 (w.port s) 0 s)
    (forAll fs (fun f s => forwardFrame 0 (frameClass (s.lport f.lport) f) f.lport f.len s) s)

/-- R756, R757: an ACK. -/
def execLeaseAck (f : WitnessFrame) (s : State) : Out :=
  .next (if !leaseMay s then s else
    let s := sawWitness f s
    if s.pair.soloAsk && f.seq = s.pair.soloSeq then goSolo s
    else if s.pair.take = some .released && f.seq = s.pair.relSeq then handOver s
    else s)

/-- R741, R748: the lease expires by the module's clock. -/
def execLeaseExpiry (s : State) : Out := .next (if s.pair.lease && due s.pair.expiry s.clk.now then fence s else s)

/-- R770: 100 ms without a witness answer. -/
def execForceClaimTimeout (s : State) : Out :=
  .next (match s.pair.force with | none => s | some (_, _, t) => if due (t + 100 * ms) s.clk.now then answerForce stHwFault s else s)

/-! ## After the GRANT (R746, R760) -/

/-- R746 step 3: addresses are announced at 0, 1 and 10 ms after the GRANT. DEDUCED (log 232, unsafe). -/
def execGratuitousArp (s : State) : Out :=
  .next (match s.pair.grantAt with
    | none => s
    | some t =>
      if 3 ≤ s.pair.arps || s.md.mode != .active || !frontOn s || !due (t + [0, ms, 10 * ms].getD s.pair.arps 0) s.clk.now then s
      else
        let s := s.onPair fun p => { p with arps := p.arps + 1 }
        forAll s.net.lports (fun e s => forAll e.2.addrs (fun a s => putOut ⟨e.1, 0, 2048, 38, 0, 0, [0], { kind := .arp, a := e.1, b := a.2.ip, c := a.2.vid, ws := words2 a.2.mac }⟩ s) s) s)

/-- R746 step 4: 12 ms after the GRANT. -/
def execMemberWriteHoldExpiry (s : State) : Out :=
  .next (match s.drv.writeHold with | none => s | some t => if due t s.clk.now then memberGo s else s)

/-- The self-fault conditions of Table 16.6, as the state shows them when the row says that they have lasted. DESIGN CHOICE (log 152, unsafe). -/
def selfFault (s : State) (code : Nat) : Bool :=
  match code with
  | 1 => (List.range 6).any fun g => tabGet false s.md.clockLost (116 + g)
  | 2 => !s.pair.upAtGrant.isEmpty && s.pair.upAtGrant.all fun l => !(s.lport l).up
  | 3 => decide (4 ≤ (s.pair.rdyAtGrant.filter fun k => s.drv.cmds.any fun c => decide (c.2.slot = k) && c.2.answer.isNone &&
      (match c.2.rungAt with | some t => decide (t + 50 * ms ≤ s.clk.now) | none => false)).length)
  | _ => false

/-- R760: a self-fault within 100 ms of the GRANT. -/
def execSelfFaultDetect (code : Nat) (s : State) : Out :=
  .next (match s.pair.grantAt with
    | none => s
    | some t =>
      if !s.pair.lease || s.pair.fault ≠ 0 || t + 100 * ms < s.clk.now || !selfFault s code then s
      else
        let s := s.onPair fun p => { p with fault := code, egressHalt := true }
        leaseSend 6 false (raise 717 (pairParam s code) s))

/-! ## Planned take-over (R756) -/

/-- R756 steps 2 and 3: drive writes have ended and PMARK has reached the last PSEQ. -/
def execTakeoverFreezeDrained (s : State) : Out :=
  .next (if s.pair.take != some .freeze || writesOut s || s.pair.pmark < s.pair.pseq then s else
    let s := leaseSend 3 false (shadow .stateWrite 11 0 s)
    s.onPair fun p => { p with take := some .released, relSeq := p.frame })

/-- R756 step 5: 1 ms of forwarding ends. An Active module enters Standby (Table 4.5); any other keeps its mode. -/
def execTakeoverForwardEnd (s : State) : Out :=
  .next (if s.pair.take != some .forward || !due (s.pair.takeAt + ms) s.clk.now then s else
    let s := s.onPair fun p => { p with take := none, egressHalt := false, current := true, grantAt := none, took := false }
    let s := s.onDrv fun d => { d with cmds := [], recons := [], passes := [], writeHold := none }
    let s := count1 5661 s
    finish (fun r => r.op = 0x0B02) 713 stOk (pairParam s 0) (if s.md.mode = .active then changeMode .standby s else s))

/-! ## Resynchronisation (R762–R765) -/

/-- Resynchronisation may start (R762), the policy apart. -/
def resyncMay (s : State) : Bool :=
  s.md.mode = .active && s.pair.lease && s.links.partnerUp && s.pair.resync.isNone && s.pair.take.isNone && !s.pair.soloAsk
    && (s.pair.peerMode = 0 || s.pair.peerMode = 1 || s.pair.peerMode = 3) && !s.pair.peerCurrent

/-- The object number that stands for the registers of a desk. -/
def deskObject : Nat := 0xFFFFFF

/-- The objects whose copies a phase sends as state writes, each by GROUP and OBJECT (R762, R939): in phase 1 the configuration of the desks
with the slots' limits and the budget, hosts, controllers, namespaces, sets, spares, regions, key slots and the stack record; in phase 2
every context. -/
def phaseObjects (s : State) : Nat → List (Nat × Nat)
  | 1 => (List.range 25).map (fun k => (1, k)) ++ [2, 3, 4, 5, 7].map (fun g => (g, deskObject))
      ++ s.nvm.hosts.map (fun e => (5, 131072 + e.1)) ++ s.nvm.ctrls.map (fun e => (5, e.1)) ++ s.vol.ns.map (fun e => (6, e.1))
      ++ s.vol.sets.map (fun e => (8, e.1)) ++ s.vol.spares.map (fun e => (8, 32 + e.1)) ++ s.xpt.regions.map (fun e => (4, 65536 + e.1))
      ++ s.key.slots.map (fun e => (10, e.1)) ++ [(12, 0)]
  | 2 => s.xpt.ctxs.map fun e => (4, e.1)
  | _ => []

/-- Send the copies of a phase (R762, R763): state writes, and in phase 3 every DIRTY and QUEUED page and every open journal record. -/
def sendPhase (n : Nat) (s : State) : State :=
  let s := s.onPair fun p => { p with resync := some n, phaseAt := s.clk.now }
  let s := forAll (phaseObjects s n) (fun o s => shadow .stateWrite o.1 o.2 s) s
  if n ≠ 3 then s
  else forAll s.wbf.recs (fun e s => shadow .mirrorState 3 e.1 s) (forAll (s.wbf.pages.filter fun e => e.2.st != .reserved) (fun e s => shadow .mirrorWrite e.1 0 s) s)

/-- Resynchronisation starts from phase 1 in a new session. -/
def beginResync (s : State) : State :=
  let s := openSession false s
  sendPhase 1 (raise 715 (pairParam s 0) (s.onPair fun p => { p with rsPct := 0 }))

/-- R762, R764: the active starts resynchronisation, of itself or for a PAIR.START_RESYNC that still runs. -/
def execResyncStart (s : State) : Out :=
  .next (if resyncMay s && (s.pair.auto || s.lb.running.any fun r => r.op = 0x0B04) then beginResync s else s)

/-- R762, R763: the copies of a phase are complete, no sooner than RSYNCRATE carries them. After phase 3 the partner reports SYNC: it is current, and the active enters paired
operation. DESIGN CHOICE (log 160, unsafe). -/
def execResyncPhaseDone (phase bytes : Nat) (s : State) : Out :=
  .next (match s.pair.resync with
    | some n =>
      if n ≠ phase || !s.pair.shadowing || !due (s.pair.phaseAt + bytes / max 1 s.pair.rsRate) s.clk.now then s
      else
        let s := count 5674 bytes s
        if n < 3 then sendPhase (n + 1) (s.onPair fun p => { p with rsPct := n * 33 })
        else
          let s := s.onPair fun p => { p with resync := none, rsPct := 100, paired := true, peerCurrent := true }
          finish (fun r => r.op = 0x0B04) 716 stOk (pairParam s 0) (count1 5673 s)
    | none =>
      if s.pair.rxOn && phase = 3 && (s.md.mode = .standby || s.md.mode = .fenced || s.md.mode = .boot) then s.onPair fun p => { p with current := true } else s)

/-! ## Commands (R766–R770) -/

/-- PAIR.GET_STATUS (Table 16.12). -/
def deskPairGetStatus (_p : Packet) (s : State) : Desk :=
  let p := s.pair
  let seen := decide (s.clk.now < p.frameAt + 20 * ms)
  let pm := (p.waits.filter fun w => decide (s.clk.now < w.1 + sec)).foldl (fun a w => max a w.2) 0
  let q := p.wire
  answer [flag 0 p.paired ||| flag 1 (p.current || p.peerCurrent) ||| flag 2 p.solo ||| flag 3 s.links.partnerUp ||| flag 4 seen ||| fld 6 5 p.holder
      ||| flag 7 p.resync.isSome ||| fld 31 16 p.sess,
    word p.term, word (if p.lease then (p.expiry - s.clk.now) / us else 0), word q, fld 15 0 (q / 2 ^ 32) ||| fld 31 16 (min 65535 (if p.shadowing then p.pseq - p.pmark else 0)),
    fld 6 0 p.rsPct ||| fld 31 16 (min 65535 (pm / 10))] s

/-- PAIR.GET_STATUS (R766). -/
def execPairGetStatus (p : Packet) (s : State) : Out := letter 0x0B01 0 p s (deskPairGetStatus p)

/-- PAIR.TAKEOVER (R756 step 1, R767). DEDUCED (log 156, unsafe). -/
def deskPairTakeover (p : Packet) (s : State) : Desk :=
  check s.pair.paired stConflict s fun s =>
    if s.pair.take.isSome then busyFree s
    else (stAccepted, [], accept p 0x0B02 0 0 (s.onPair fun p => { p with take := some .freeze, egressHalt := true, frozen := [] }))

/-- PAIR.TAKEOVER (R767). -/
def execPairTakeover (p : Packet) (s : State) : Out := letter 0x0B02 0 p s (deskPairTakeover p)

/-- PAIR.SET_POLICY (R768). -/
def deskPairSetPolicy (p : Packet) (s : State) : Desk :=
  let r := bits 6 0 (p.w 2)
  guardParam (clean (mask 6 0 ||| mask 8 8) (p.w 2) && decide (1 ≤ r) && decide (r ≤ 80)) s fun s => okay (s.onPair fun d => { d with rsRate := r, auto := bit 8 (p.w 2) })

/-- PAIR.SET_POLICY (R768). -/
def execPairSetPolicy (p : Packet) (s : State) : Out := letter 0x0B03 1 p s (deskPairSetPolicy p)

/-- PAIR.START_RESYNC (R769). -/
def deskPairStartResync (p : Packet) (s : State) : Desk :=
  check (s.links.partnerUp && !s.pair.peerCurrent) stConflict s fun s =>
    let s := accept p 0x0B04 0 0 s
    (stAccepted, [], if resyncMay s then beginResync s else s)

/-- PAIR.START_RESYNC (R769). -/
def execPairStartResync (p : Packet) (s : State) : Out := letter 0x0B04 0 p s (deskPairStartResync p)

/-- PAIR.FORCE_CLAIM (R770): CLAIM with OVERRIDE leaves, and the reply waits for the witness. DEDUCED (log 157, safe). -/
def deskPairForceClaim (p : Packet) (s : State) : Desk :=
  guardParam (decide (p.w 2 = 0x00004824)) s fun s =>
    if s.pair.force.isSome then busyFree s
    else (stWithheld, [], leaseTimed 2 true (s.onPair fun d => { d with force := some (p.door, p.tag, s.clk.now) }))

/-- PAIR.FORCE_CLAIM (R770). -/
def execPairForceClaim (p : Packet) (s : State) : Out := letter 0x0B05 1 p s (deskPairForceClaim p)

end Sys2Proof.Machine
end

