-- ==== Sys2Proof/Machine/Stack.lean ====
section
/-! DEFINITION. Stacking (chapter 17): HELLO and reach, the stack record, the master and the directory replica, forwarded
commands, and the STK commands. Neighbours are 1 UP and 2 DN, and 3 and 4 the partner's. -/
namespace Sys2Proof.Machine

/-! ## HELLO (R783, R774, R779) -/

/-- The own stack identifier, 0 without a record. -/
def ownStack (s : State) : Nat := match s.stk.record with | some r => r.stackid | none => 0

/-- The modules reachable through this one, counted away from a link: itself, and what the other link reaches. -/
def helloReach (s : State) (link : Nat) : Nat := 2 ^ s.modnum ||| reachOf s (3 - link)

/-- The words of a HELLO (Table 17.1). -/
def helloWords (s : State) (link : Nat) : List Word :=
  words2 (ownStack s) ++ [fld 2 0 s.pos ||| fld 3 3 s.bay.bay ||| fld 6 4 s.md.mode.code ||| flag 7 s.pair.lease ||| flag 8 s.master ||| flag 9 s.stk.record.isSome,
    fld 15 0 (helloReach s link)]

/-- R783: HELLO leaves on an ACTIVE relay link, every 1 ms. -/
def execHelloSend (link : Nat) (s : State) : Out :=
  .next (if (link ≠ 1 && link ≠ 2) || (s.link link).st != .active || (s.link link).onlyHb || !due (s.link link).helloAt s.clk.now then s else
    linkSend link { kind := .hello, a := link, ws := helloWords s link } (onLink link (fun l => { l with helloAt := s.clk.now + ms }) s))

/-- The neighbour belongs to another stack (R779). -/
def foreignHello (s : State) (h : Hello) : Bool := h.record && s.stk.record.isSome && decide (h.stackid ≠ ownStack s)

/-- The cable joins two modules of the stack in a way that R773 forbids (R774). -/
def crossedHello (s : State) (link : Nat) (h : Hello) : Bool :=
  h.record && s.stk.record.isSome && decide (h.stackid = ownStack s) && decide (link < 3)
    && (decide (h.bay ≠ s.bay.bay) || (if link = 1 then decide (s.pos ≤ h.pos) else decide (h.pos ≤ s.pos)))

/-- A neighbour that is to be reported as a candidate (R778). -/
def helloCandidate (link : Nat) (h : Hello) (s : State) : State :=
  if h.record || !s.master || s.stk.record.isNone then s.onStk fun k => { k with told := if h.record then k.told.erase link else k.told }
  else if s.stk.told.contains link then s
  else raise 774 (word h.pos) (s.onStk fun k => { k with told := k.told ++ [link] })

/-- A HELLO shows which module of a shelf is Active: where that has changed, its shelf took over, and commands are sent again
(R790). DEDUCED (log 173, unsafe). -/
def helloActive (h : Hello) (s : State) : State :=
  if !h.lease || !h.record || h.stackid ≠ ownStack s then s
  else
    let was := tabFind s.stk.actBay h.pos
    let s := s.onStk fun k => { k with actBay := tabIns k.actBay h.pos h.bay }
    if was.isSome && was ≠ some h.bay then resendCmds h.pos s else s

/-- A HELLO is noted: the neighbour's reach, none for a foreign or crossed one, whose link then carries HEARTBEAT alone and is
reported once; a candidate is reported, and a changed Active module has its commands sent again. -/
def takeHello (link : Nat) (h : Hello) (s : State) : State :=
  let nb : Neighbour := tabGet {} s.stk.near link
  let foreign := foreignHello s h
  let crossed := crossedHello s link h
  let r := if foreign || crossed || !h.record || s.stk.record.isNone then 0 else h.reach % 65536
  let t := s.onStk fun k => { k with near := tabIns k.near link ⟨some h, s.clk.now, r, foreign, crossed⟩ }
  let t := if link < 3 then onLink link (fun l => { l with onlyHb := foreign || crossed }) t else t
  let t := doIf (foreign && !nb.alien && decide (link < 3)) (raise 781 (word h.pos)) t
  let t := doIf (crossed && !nb.crossed) (raise 782 (word h.pos)) t
  helloActive h (reachChanged s (helloCandidate link h t))

/-- R774, R778, R779, R783: a HELLO of a neighbour, or what the partner's neighbours reach. DESIGN CHOICE (log 154, unsafe). -/
def execHelloReceive (link : Nat) (h : Hello) (s : State) : Out :=
  .next (if link = 0 || 4 < link || (if link < 3 then decide ((s.link link).st ≠ .active) else !s.links.partnerUp) then s else takeHello link h s)

/-- R783: 5 ms without HELLO. -/
def execHelloTimeout (link : Nat) (s : State) : Out :=
  .next (
    let nb : Neighbour := tabGet {} s.stk.near link
    if nb.hello.isNone || !due (nb.at_ + 5 * ms) s.clk.now then s
    else reachChanged s (s.onStk fun k => { k with told := k.told.erase link, near := tabUpd k.near link fun n => { n with hello := none, reach := 0 } }))

/-! ## The stack record (R775–R777) -/

/-- Words of the stack record (Table 17.1 RECORD). -/
def recordWords (r : StackRec) : List Word :=
  words2 r.stackid ++ [fld 7 0 r.members, word r.gen] ++ r.serials.flatMap fun e => words2 e.2.1 ++ words2 e.2.2

/-- Send a shelf the record. -/
def sendRecord (q : Nat) (r : StackRec) (s : State) : State := sendTo q { kind := .stackRecord, a := q, b := r.gen, ws := recordWords r } s

/-- Put a record, or none, in force: both relay links carry everything again, and what is reached changes. -/
def setRecord (r : Option StackRec) (s : State) : State :=
  let t := s.onStk fun k => { k with record := r, formAt := none, listen := if r.isSome then k.listen else [], cand := k.cand && r.isNone, actBay := [], told := [], near := tabMap k.near fun _ n => { n with alien := false, crossed := false, reach := if r.isSome then n.reach else 0 } }
  let t := shadow .stateWrite 12 0 (onLink 1 (fun l => { l with onlyHb := false }) (onLink 2 (fun l => { l with onlyHb := false }) t))
  let t := reachChanged s (discChanged t)
  doIf (t.master && !s.master) (raise 779 (word t.pos)) t

/-- The shelf forms a stack of one, or is a candidate where a neighbour holds a record (R776). DEDUCED (log 170, unsafe). -/
def formNow (s : State) : State :=
  if s.stk.near.any fun e => match e.2.hello with | some h => h.record | none => false then
    doIf (s.md.mode = .active) (raise 774 0) (s.onStk fun k => { k with cand := true, formAt := none })
  else
    let (v, s) := takeFree s
    let own := Config.serial.toNat
    let mate := (Config.mateSerial Config.serial).toNat
    setRecord (some { stackid := v.toNat % 2 ^ 64, pos := 0, members := 1, gen := v.toNat / 2 ^ 64 % 2 ^ 32,
                      serials := [if s.bay.bay = 0 then (0, own, mate) else (0, mate, own)] }) s

/-- The shelf's record is cleared, and R776 applies at once (R796, R797). -/
def clearRecord (s : State) : State := formNow (setRecord none s)

/-- Positions without one. -/
def StackRec.without (r : StackRec) (q : Nat) : StackRec :=
  { r with members := if r.members.testBit q then r.members - 2 ^ q else r.members, gen := (r.gen + 1) % 2 ^ 32, serials := r.serials.filter fun e => e.1 != q }

/-- A record has come: the shelf finds its position by its serial number; a newer record of the own stack that leaves it out
removes it. -/
def installRecord (r : StackRec) (s : State) : State :=
  let own := Config.serial.toNat
  match r.serials.find? fun e => decide (e.2.1 = own) || decide (e.2.2 = own) with
  | some e =>
    let old := match s.stk.record with | some c => decide (c.stackid = r.stackid) && decide (r.gen ≤ c.gen) | none => false
    if old then s else setRecord (some { r with pos := e.1 }) s
  | none => match s.stk.record with
    | some c => if c.stackid = r.stackid && c.gen < r.gen then clearRecord s else s
    | none => s

/-- R775, R796: a RECORD message. A shelf without a record takes it from its neighbour. -/
def execStackRecordMessage (m : MsgIn) (r : StackRec) (s : State) : Out :=
  .next (if (s.link m.link).st != .active then s
    else if s.stk.record.isNone then installRecord r (freeCredits m.link 3 m.len s)
    else routed m 3 { kind := .stackRecord, a := m.dst, b := r.gen, ws := recordWords r } (installRecord r) s)

/-- R776: 2 s without a neighbour that holds a record. -/
def execStackFormTimeout (s : State) : Out :=
  .next (match s.stk.formAt with
    | none => s
    | some t => if !due t s.clk.now then s else if s.stk.record.isNone && !s.stk.cand then formNow s else s.onStk fun k => { k with formAt := none })

/-! ## The master and the directory (R780–R782) -/

/-- A directory entry as the replica holds it; what the replica does not need is left at 0. -/
def DirEntry.ns (e : DirEntry) : Ns :=
  { home := e.home, lbaf := e.lbaf, pit := e.pit, enc := e.enc, thick := false, userResv := false, spread := false, size := e.size, quota := 0, sets := [], hosts := e.hosts,
    ro := e.ro, salt := 0 }

/-- Apply one entry to the replica. The own shelf's entries are its own; one that the master deletes is deleted here. DEDUCED (log 167, unsafe). -/
def applyDir (e : DirEntry) (s : State) : State :=
  if e.home = s.pos then
    match s.nsOf e.nsid with
    | some n => if e.deleted && n.home = s.pos && !n.deleting then (takeChange ⟨.self, [.delete e.nsid]⟩ s).getD s else s
    | none => s
  else s.onVol fun v => { v with ns := if e.deleted then tabDel v.ns e.nsid else tabIns v.ns e.nsid e.ns }

/-- The subsystem NQN of the master, and listeners of other shelves, as the directory brings them (R387, R436): the discovery log is rebuilt
where they differ (R438). -/
def takeDisc (nqn : Option (List Word)) (lis : List (Nat × List DiscEnt)) (s : State) : State :=
  let t := s.onNvm fun n => { n with nqn := nqn.or n.nqn }
  let t := t.onStk fun k => { k with listen := lis.foldl (fun l e => if e.1 = s.pos then l else tabIns l e.1 e.2) k.listen }
  if t.stk.listen = s.stk.listen then t else discRebuilt t

/-- Take a DIR_UPDATE: a full one replaces the entries of the other shelves. -/
def takeDir (full : Bool) (es : List DirEntry) (nqn : Option (List Word)) (lis : List (Nat × List DiscEnt)) (s : State) : State :=
  let s := if full then s.onVol fun v => { v with ns := v.ns.filter fun n => n.2.home = s.pos } else s
  shadow .stateWrite 6 0 (takeDisc nqn lis (forAll es applyDir s))

/-- R781: a DIR_UPDATE; with FULL set it replaces the entries of the other shelves. -/
def execDirUpdate (m : MsgIn) (full : Bool) (es : List DirEntry) (nqn : Option (List Word)) (lis : List (Nat × List DiscEnt)) (s : State) : Out :=
  .next (if (s.link m.link).st != .active then s else
    routed m 3 { kind := .dirUpdate, a := m.dst, b := es.length + (if full then 65536 else 0), ws := es.flatMap fun e => dirWords s e.nsid e.home e.deleted } (takeDir full es nqn lis) s)

/-- Remove a position from the stack: the new record goes to every shelf that held the old one (R796). -/
def removeShelf (q : Nat) (s : State) : State :=
  match s.stk.record with
  | none => s
  | some r =>
    let r' := r.without q
    let s := forAll ((otherShelves s).filter (reachable s)) (fun p s => sendRecord p r' s) s
    raise 776 (word q) (setRecord (some r') (s.onStk fun k => { k with lost := if k.lost.testBit q then k.lost - 2 ^ q else k.lost }))

/-- Namespaces homed on a shelf. -/
def homedOn (s : State) (q : Nat) : List Nat := (s.vol.ns.filter fun e => e.2.home = q).map (·.1)

/-- What the master does with a command that a member sends it, and the status of its reply (R780). -/
def applyAdmin (src op : Nat) (p : Packet) (s : State) : Nat × State :=
  let nsid := bits 12 0 (p.w 2)
  if op = 0x0605 then
    if nsidTaken s nsid then (stConflict, s)
    else
      let e : DirEntry := ⟨nsid, src, false, bits 17 16 (p.w 2), bits 19 18 (p.w 2), bits 21 20 (p.w 2), bits 22 0 (p.w 3), [], false⟩
      (stOk, sendDir nsid src false (shadow .stateWrite 6 nsid (applyDir e s)))
  else if op = 0x0606 then
    match s.nsOf nsid with
    | some n => if n.home ≠ src then (stNotFound, s) else
        (stOk, sendDir nsid src true (shadow .stateWrite 6 nsid (s.onVol fun v => { v with ns := tabDel v.ns nsid })))
    | none => (stNotFound, s)
  else if op = 0x0C04 then (if (homedOn s src).isEmpty then (stOk, removeShelf src s) else (stConflict, s))
  else (stBadOpcode, s)

/-- Take an ADMIN_REQUEST: the master applies it and replies; the reply to a removal takes the path by which the shelf was reached
before it. DESIGN CHOICE (log 168, safe). -/
def takeRequest (src op : Nat) (p : Packet) (s : State) : State :=
  if !s.master then count1 6190 s
  else
    let (st, t) := applyAdmin src op p s
    let reply : OutMsg := { kind := .adminReply, a := src, b := p.door, ws := [fld 31 16 st, p.tag] }
    if op = 0x0C04 && st = stOk then linkSend (if ownPath s src then toward s src else 0) reply t else sendTo src reply t

/-- R780: an ADMIN_REQUEST of shelf `src`; only the master applies it. -/
def execAdminRequest (m : MsgIn) (src op : Nat) (p : Packet) (s : State) : Out :=
  .next (if (s.link m.link).st != .active then s else
    routed m 3 { kind := .adminRequest, a := op, b := p.door, c := src, ws := p.tag :: p.words } (takeRequest src op p) s)

/-- The shelf leaves its stack (R797). -/
def leaveNow (s : State) : State :=
  let q := s.pos
  raise 776 (word q) (clearRecord s)

/-- What the master's OK lets happen: the change takes its place even behind a full queue, as the master holds it already. -/
def masterSaysOk (q : VQueued) (op : Nat) (s : State) : State :=
  match q.who with
  | .letter d tag _ =>
    if op = 0x0C04 then post d tag false stOk [] (leaveNow s)
    else (takeChange q s).getD (s.onVol fun v => { v with changes := v.changes ++ [q] })
  | _ => (takeChange q s).getD (s.onVol fun v => { v with changes := v.changes ++ [q] })

/-- What follows the master's refusal, or its absence. DEDUCED (log 175, unsafe). -/
def masterRefuses (q : VQueued) (st : Nat) (ws : List Word) (s : State) : State :=
  match q.who with
  | .letter d tag _ => post d tag false st ws s
  | .host ctx cid => completeOn ctx cid .interrupted 0 s
  | .self => s

/-- Take an ADMIN_REPLY for the command of a door and TAG that waits for it. -/
def takeReply (door : Nat) (tag : Word) (status : Nat) (s : State) : State :=
  let named := fun (a : VQueued × Nat × Packet) => decide (a.2.2.door = door) && decide (a.2.2.tag = tag)
  match s.stk.admin.find? named with
  | none => s
  | some (q, op, _) =>
    let s := s.onStk fun k => { k with admin := k.admin.eraseP named }
    if status = stOk then masterSaysOk q op s else masterRefuses q status [] s

/-- R780: an ADMIN_REPLY to a command of a door, or of a host (door 3). -/
def execAdminReply (m : MsgIn) (door : Nat) (tag : Word) (status : Nat) (s : State) : Out :=
  .next (if (s.link m.link).st != .active then s else
    routed m 3 { kind := .adminReply, a := m.dst / 2, b := door, ws := [fld 31 16 status, tag] } (takeReply door tag status) s)

/-- R782: 1 s without the master: commands that wait for it are BUSY. -/
def execMasterUnreachable (s : State) : Out :=
  .next (if masterReach s || s.stk.masterTold || s.stk.record.isNone || !actsForShelf s || !due (s.stk.masterAt + sec) s.clk.now then s else
    let as := s.stk.admin
    let s := raise 780 (word s.pos) (s.onStk fun k => { k with masterTold := true, admin := [] })
    forAll as (fun a s => masterRefuses a.1 stBusy [word 1000] s) s)

/-! ## Forwarded commands (R785–R792) -/

/-- A forwarded I/O message that the module takes for its own engines is shadowed first (R788). -/
def shadowFwd (link : Nat) (s : State) : State := shadow .shadow 1 (if link = 0 then 34 else 31 + link) s

/-- A forwarded I/O message by its link: taken after it is shadowed, or routed on (R784, R788). -/
def fwdMessage (m : MsgIn) (cls : Nat) (out : OutMsg) (take : State → State) (s : State) : State :=
  if (s.link m.link).st != .active then s else routed m (8 + cls % 8) { out with a := m.dst / 2, c := out.c * 8 + cls % 8 } (fun s => take (shadowFwd m.link s)) s

/-- The words of a forwarded message's heading (Table 17.2). -/
def FwdHead.words (h : FwdHead) : List Word := [fld 5 3 h.arrPos, fld 17 0 h.ftag ||| fld 23 18 h.fgen, word h.off, word h.len]

/-- A forwarded command as the home module holds it: who it acts for, its subscriber, and where it came from. -/
def homeCmd (h : FwdHead) (cls sub host : Nat) (op : IoOp) (c : IoCmd) : HostCmd :=
  ⟨op, { c with ctx := 65536 * (host + 1) + sub % 65536, cid := (h.arrPos * 2 ^ 18 + h.ftag % 2 ^ 18) * 512 + (8 * (h.fgen % 64) + cls % 8) }⟩

/-- The home module already holds the forwarded command (R789). -/
def holdsFwd (s : State) (c : HostCmd) : Bool :=
  let same := fun (x : HostCmd) => decide (65536 ≤ x.a.ctx) && decide (x.a.cid = c.a.cid)
  s.nvm.tags.any (fun e => same e.2.cmd) || s.woken.any (fun w => match w with | .cmd c => same c | _ => false) || s.qos.subs.any fun e => e.2.queue.any fun d => same d.cmd

/-- R786: a forwarded COMMAND at its home module: dispatched in its class, under the module's own leaf for its subscriber. -/
def takeFwd (c : HostCmd) (sub cls : Nat) (s : State) : State :=
  if s.md.admitStop then s
  else if holdsFwd s c then count1 6188 s
  else if s.md.mode = .drowse then beginDrowseExit { s with woken := s.woken ++ [.cmd c] }
  else startOrWait sub (cls % 8) c (count1 6183 (entryArrival s))

/-- R786, R789: a forwarded COMMAND. DEDUCED (log 174, unsafe). -/
def execForwardCommand (m : MsgIn) (h : FwdHead) (cls sub host : Nat) (op : IoOp) (c : IoCmd) (s : State) : Out :=
  .next (fwdMessage m cls { kind := .fwdCommand, b := h.ftag, c := h.fgen, ws := cmdWords op c sub host } (takeFwd (homeCmd h cls sub host op c) sub cls) s)

/-- Take a message for a command of this arrival module: a tag or generation that does not match discards it (R789). -/
def atArrival (h : FwdHead) (f : FwdOut → Cmd → State → State) (s : State) : State :=
  match tabFind s.stk.fwd h.ftag, s.cmdOf h.ftag with
  | some w, some c => if w.gen = h.fgen && c.gen = h.fgen then f w c s else count1 2585 s
  | _, _ => count1 2585 s

/-- R787: a DATA_REQUEST makes the arrival module fetch a range from the host; data in the capsule comes of itself. -/
def askHost (h : FwdHead) (s : State) : State :=
  atArrival h (fun _ c s =>
    let s := s.onStk fun k => { k with fwd := tabUpd k.fwd h.ftag fun w => { w with asked := w.asked + h.len } }
    let ctx := c.cmd.a.ctx
    match c.cmd.a.sgl with
    | .inCapsule _ => s
    | _ => pumpReads 8 ctx (onCtx ctx (fun x => { x with readq := x.readq ++ [(h.ftag, h.off, h.len)] }) s)) s

/-- R787: a DATA_REQUEST. -/
def execForwardDataRequest (m : MsgIn) (cls : Nat) (h : FwdHead) (s : State) : Out :=
  .next (fwdMessage m cls { kind := .fwdDataReq, b := h.ftag, c := h.fgen, ws := h.words } (askHost h) s)

/-- R787: forwarded write data enters the home module's buffer. -/
def takeFwdWrite (h : FwdHead) (blocks : List HBlk) (s : State) : State :=
  let s := count 6185 h.len s
  match s.stk.homed.find? fun e => e.1 = h.arrPos && e.2.1 = h.ftag && e.2.2.1 / 8 = h.fgen with
  | none => count1 2585 s
  | some (_, _, _, t, gen) => match (s.cmdOf t).bind fun c => (s.nsOf c.cmd.a.nsid).map fun n => wireBytes n c.cmd.a with
    | none => count1 2585 s
    | some w => arriveData t gen (h.off / max 1 w) blocks s

/-- R787: WRITE_DATA. -/
def execForwardWriteData (m : MsgIn) (cls : Nat) (h : FwdHead) (blocks : List HBlk) (s : State) : Out :=
  .next (fwdMessage m cls { kind := .fwdWrite, b := h.ftag, c := h.fgen, ws := h.words, ds := blocks.flatMap fun b => [b.d, b.pi] } (takeFwdWrite h blocks) s)

/-- The parts of a data pointer that a piece of the data falls into: offset in the data, bytes, key. -/
def piecesOf : List (Nat × Nat × Bool) → Nat → Nat → Nat → List (Nat × Nat × Nat)
  | [], _, _, _ => []
  | d :: ds, base, off, len =>
    let a := max base off
    let b := min (base + d.1) (off + len)
    (if a < b then [(a, b - a, d.2.1)] else []) ++ piecesOf ds (base + d.1) off len

/-- Give a piece of read data to the host as it arrives (R787); the held completion's mark becomes the last of it. -/
def sendPiece (c : Cmd) (t off len data : Nat) (s : State) : State :=
  let ctx := c.cmd.a.ctx
  let part := fun (o n : Nat) => data >>> (8 * (o - off)) % 2 ^ (8 * n)
  let s := if (s.ctx ctx).tcp then fillRead ctx off len data (t, c.gen) s
    else (piecesOf (descsOf c.cmd.a.sgl) 0 off len).foldl (fun s k => rdmaSend ctx k.2.1 true (some c.cls)
        { kind := .hostData, a := ctx, b := c.cmd.a.cid, ws := [word k.1, word k.2.1, word k.2.2], ds := [part k.1 k.2.1] } s) s
  doIf (!(s.ctx ctx).tcp) (setMark ctx (t, c.gen)) s

/-- Pass forwarded read data to the host. -/
def takeFwdRead (h : FwdHead) (data : Nat) (s : State) : State :=
  atArrival h (fun _ c s => if c.gone then s else sendPiece c h.ftag h.off h.len data (onCmd h.ftag (fun c => { c with moved := true }) s)) (count 6185 h.len s)

/-- R787: READ_DATA passes to the host. -/
def execForwardReadData (m : MsgIn) (cls : Nat) (h : FwdHead) (data : Nat) (s : State) : Out :=
  .next (fwdMessage m cls { kind := .fwdRead, b := h.ftag, c := h.fgen, ws := h.words, ds := [data] } (takeFwdRead h data) s)

/-- Fill a command's held completion. -/
def takeFwdDone (h : FwdHead) (status : NvStatus) (dnr : Bool) (s : State) : State :=
  atArrival h (fun _ c s => if c.gone then freeTag h.ftag c s else makeReady h.ftag (onCmd h.ftag (fun c => { c with status := status, dnr := dnr }) s)) s

/-- R787: a COMPLETION fills the held completion; data done follows once the last data is with the Sorting Office. -/
def execForwardCompletion (m : MsgIn) (cls : Nat) (h : FwdHead) (status : NvStatus) (dnr : Bool) (s : State) : Out :=
  .next (fwdMessage m cls { kind := .fwdComplete, b := h.ftag, c := h.fgen, ws := h.words, ds := [status.ctorIdx, if dnr then 1 else 0] } (takeFwdDone h status dnr) s)

/-- R791: the home shelf of a forwarded command has been unreachable for 100 ms. -/
def execForwardTimeout (tag : Nat) (s : State) : Out :=
  .next (match (tabFind s.stk.fwd tag).bind (·.goneAt) with
    | none => s
    | some t =>
      match s.cmdOf tag with
      | none => s
      | some c => if c.ready || !due (t + 100 * ms) s.clk.now then s else failCmd tag .anaInaccessible (count1 6186 s))

/-! ## Commands (R794–R797) -/

/-- STK.GET_STATUS (Table 17.5). -/
def deskStkGetStatus (_p : Packet) (s : State) : Desk :=
  let members := match s.stk.record with | some r => r.members | none => 0
  let reach := sumNat ((List.range 8).map fun q => if reachable s q then 2 ^ q else 0)
  answer ([fld 2 0 s.pos ||| flag 3 s.stk.cand ||| flag 4 s.master ||| flag 5 (masterReach s) ||| fld 15 8 members ||| fld 23 16 s.stk.lost ||| fld 31 24 reach]
    ++ words2 (ownStack s) ++ [word (match s.stk.record with | some r => r.gen | none => 0), fld 17 0 s.stk.fwd.length]) s

/-- STK.GET_STATUS (R794). -/
def execStkGetStatus (p : Packet) (s : State) : Out := letter 0x0C01 0 p s (deskStkGetStatus p)

/-- Relay hops to a shelf along a chain: one for each member passed. -/
def chainHops (s : State) (q : Nat) : Nat :=
  ((List.range 8).filter fun x => inStack s x && (decide (min s.pos q < x) && decide (x < max s.pos q))).length + 1

/-- Fewest hops to a shelf's Active module, in bay `act`: by the own chain, or across the partner link and its chain; one more
where the path ends at the Active module's partner. -/
def hopsTo (s : State) (q act : Nat) : Nat :=
  if q = s.pos then (if act = s.bay.bay then 0 else 1)
  else
    let own := if ownPath s q then [chainHops s q + if act = s.bay.bay then 0 else 1] else []
    let via := if partnerPath s q then [chainHops s q + 1 + if act = s.bay.bay then 1 else 0] else []
    (own ++ via).foldl min 15

/-- STK.GET_SHELF (Table 17.6). The bay of the Active module of a shelf that is no neighbour is a free value. DEDUCED (log 169, safe). -/
def deskStkGetShelf (p : Packet) (s : State) : Desk :=
  let q := bits 2 0 (p.w 2)
  guardParam (clean (mask 2 0) (p.w 2)) s fun s =>
    let cand := (s.stk.cand && decide (q = s.pos)) || s.lb.running.any fun r => decide (r.op = 0x0C03) && decide (r.key = q)
    if !inStack s q && !cand then answer [0, 0, 0, 0, 0] s
    else
      let (v, s) := takeFree s
      let act := if q = s.pos then (if s.md.mode = .active || s.md.mode = .drowse then s.bay.bay else 1 - s.bay.bay)
        else (tabFind s.stk.actBay q).getD (v.toNat % 2)
      let here := decide (q = s.pos)
      let via := fun (b : Nat) => here || (if s.bay.bay = b then ownPath s q else partnerPath s q)
      let st := if cand then 2 else if s.stk.lost.testBit q then 3 else 1
      let (a, b) := match s.stk.record.bind fun r => r.serials.find? fun e => e.1 = q with | some e => e.2 | none => (0, 0)
      answer ([fld 1 0 st ||| fld 2 2 act ||| flag 3 (via 0) ||| flag 4 (via 1) ||| fld 11 8 (if reachable s q then hopsTo s q act else 0)] ++ words2 a ++ words2 b) s

/-- STK.GET_SHELF (R794). -/
def execStkGetShelf (p : Packet) (s : State) : Out := letter 0x0C02 1 p s (deskStkGetShelf p)

/-- Where a candidate stands: its link where it is a neighbour, and the positions of the shelves above and below it. -/
structure CandPlace where
  link : Option Nat
  up   : Option Nat
  dn   : Option Nat
  deriving DecidableEq, Repr

/-- The next member below a position, and the next above. -/
def nextDown (s : State) (q : Nat) : Option Nat := (List.range 8).find? fun x => decide (q < x) && inStack s x
def nextUp (s : State) (q : Nat) : Option Nat := ((List.range 8).filter fun x => decide (x < q) && inStack s x).getLast?

/-- The relay link whose neighbour is the candidate with a bay-0 serial number. -/
def candLink (s : State) (serial : Nat) : Option Nat :=
  [1, 2].find? fun k =>
    (s.link k).st = .active && (match ((tabGet {} s.stk.near k : Neighbour).hello) with | some h => !h.record | none => false)
      && match (s.link k).peer with
        | some b => decide ((if s.bay.bay = 0 then b.serial else (Config.mateSerial (BitVec.ofNat 64 b.serial)).toNat) = serial)
        | none => false

/-- Find a candidate. Whether the master reaches one that is no neighbour, and where it stands, is in no message of the stack: a
free value. -/
def findCand (serial : Nat) (s : State) : Option CandPlace × State :=
  match candLink s serial with
  | some 1 => (some ⟨some 1, nextUp s s.pos, some s.pos⟩, s)
  | some k => (some ⟨some k, some s.pos, nextDown s s.pos⟩, s)
  | none =>
    let (v, s) := takeFree s
    if v.getLsbD 0 then
      let up := v.toNat / 2 % 8
      (some ⟨none, if inStack s up then some up else none, nextDown s up⟩, s)
    else (none, s)

/-- Put a shelf into the record, and tell every shelf; the new one gets the record and the whole directory (R795). -/
def admitShelf (q serial : Nat) (c : CandPlace) (s : State) : State :=
  match s.stk.record with
  | none => s
  | some r =>
    let e := (q, serial, (Config.mateSerial (BitVec.ofNat 64 serial)).toNat)
    let r' := { r with members := r.members ||| 2 ^ q, gen := (r.gen + 1) % 2 ^ 32,
                       serials := (r.serials.filter fun x => decide (x.1 < q)) ++ [e] ++ r.serials.filter fun x => decide (q < x.1) }
    let s := forAll ((otherShelves s).filter (reachable s)) (fun p s => sendRecord p r' s) s
    let k := match c.link with | some k => k | none => if q < s.pos then 1 else 2
    let s := linkSend k { kind := .stackRecord, a := q, b := r'.gen, ws := recordWords r' } s
    let s := linkSend k { kind := .dirUpdate, a := q, b := s.vol.ns.length + 65536, ws := s.vol.ns.flatMap fun e => dirWords s e.1 e.2.home false } s
    setRecord (some r') s

/-- The position lies between those of the neighbours. -/
def between (c : CandPlace) (q : Nat) : Bool :=
  (match c.up with | some u => decide (u < q) | none => true) && (match c.dn with | some d => decide (q < d) | none => true)

/-- A member may admit a shelf at position 0 itself: position 0 is LOST and the master unreachable (R795). -/
def headGone (s : State) : Bool := !s.stk.cand && decide (s.pos ≠ 0) && !masterReach s && actsForShelf s

/-- STK.ADD_SHELF (R794, R795). -/
def deskStkAddShelf (p : Packet) (s : State) : Desk :=
  let auto := bit 3 (p.w 2)
  let pos := bits 2 0 (p.w 2)
  let serial := (p.w 3).toNat + (p.w 4).toNat * 2 ^ 32
  let head := headGone s && !auto && decide (pos = 0)
  check (s.master || head) stNotOwner s fun s =>
  guardParam (clean (mask 3 0) (p.w 2)) s fun s =>
  check (decide (s.order ≠ 2)) stNoResource s fun s =>
  check (auto || head || !inStack s pos) stConflict s fun s =>
    let (c, s) := findCand serial s
    match c with
    | none => deny stNotFound s
    | some c =>
      let q := if auto then (match c.up with | some u => u + 1 | none => 0) else pos
      let full := match s.stk.record with | some r => decide (r.members = 255) | none => false
      check (decide (q < 8) || !full) stNoResource s fun s =>
      check (decide (q < 8) && (head || !inStack s q) && between c q) stConflict s fun s =>
        (stAccepted, [], accept p 0x0C03 q 0 (admitShelf q serial c s))

/-- STK.ADD_SHELF (R795). -/
def execStkAddShelf (p : Packet) (s : State) : Out := letter 0x0C03 3 p s (deskStkAddShelf p)

/-- STK.REMOVE_SHELF (R794, R796). DEDUCED (log 172, unsafe). -/
def deskStkRemoveShelf (p : Packet) (s : State) : Desk :=
  let q := bits 2 0 (p.w 2)
  let force := bit 8 (p.w 2)
  check s.master stNotOwner s fun s =>
  guardParam (clean (mask 2 0 ||| mask 8 8) (p.w 2)) s fun s =>
  check (decide (q ≠ 0)) stConflict s fun s =>
  check (inStack s q) stNotFound s fun s =>
  check ((homedOn s q).isEmpty || (force && s.stk.lost.testBit q)) stConflict s fun s =>
    let s := forAll (homedOn s q) (fun n s => sendDir n q true (s.onVol fun v => { v with ns := tabDel v.ns n })) s
    okay (removeShelf q s)

/-- STK.REMOVE_SHELF (R796). -/
def execStkRemoveShelf (p : Packet) (s : State) : Out := letter 0x0C04 1 p s (deskStkRemoveShelf p)

/-- STK.LEAVE_STACK (R797). -/
def deskStkLeaveStack (p : Packet) (s : State) : Desk :=
  guardParam (decide (p.w 2 = 0x00004824)) s fun s =>
    if s.stk.cand then okay s
    else
      check (homedOn s s.pos).isEmpty stConflict s fun s =>
      check (!s.master || (otherShelves s).isEmpty) stConflict s fun s =>
        if s.master || (otherShelves s).isEmpty then okay (leaveNow s)
        else if !masterReach s then (stBusy, [word 1000], s)
        else (stWithheld, [], askMaster ⟨.letter p.door p.tag 0x0C05, []⟩ 0x0C04 { p with pwc := 1, words := [word s.pos] } s)

/-- STK.LEAVE_STACK (R797). -/
def execStkLeaveStack (p : Packet) (s : State) : Out := letter 0x0C05 1 p s (deskStkLeaveStack p)

end Sys2Proof.Machine
end

