-- ==== Sys2Proof/Machine/ModHooks.lean ====
section
/-! DEFINITION. What the mode desk asks of the other desks: quiescence, the close of hosts, persistence in hold-up, what a module
restart keeps, the loss of clocks, and what follows the end of Boot (chapters 4, 11 and 14). -/
namespace Sys2Proof.Machine

/-! ## Quiescence and forced ends -/

/-- No command in flight, the write buffer empty, the journal retired and every drive queue empty (R146 E2); deferral does not count
(R232). -/
def quiescent (s : State) : Bool :=
  s.nvm.tags.isEmpty && (s.wbf.pages.all fun e => e.2.st = .reserved) && s.wbf.recs.isEmpty && s.drv.cmds.isEmpty

/-- The commands in flight are done and the write buffer is destaged (R144 steps 2 and 3). -/
def bufferEmpty (s : State) : Bool := s.nvm.tags.isEmpty && s.wbf.pages.isEmpty && s.wbf.recs.isEmpty

/-- Close every host connection and queue the whole write buffer for destage (R144 steps 1 and 3). -/
def closeHosts (s : State) : State :=
  let s := forAll ((s.xpt.ctxs.filter fun e => e.2.live).map (·.1)) (ctxError · 9) s
  queuePages ((s.wbf.pages.filter fun e => e.2.st != .reserved).map (·.1)) 5 false s

/-- The lease is released (R144 step 4): RELEASE goes to the witness. -/
def releaseLease (s : State) : State :=
  if !s.pair.lease then s
  else unpair ((leaseSend 3 false s).onPair fun p => { p with lease := false, expiry := 0 })

/-! ## Drowse exit (R151) -/

/-- A context is put in error at Drowse exit, which is counted (counter 5). -/
def expire (c cause : Nat) (s : State) : State := count1 5 (ctxError c cause s)

/-- A controller whose keep-alive timer expired in Drowse ends, and its contexts are counted (counter 5). -/
def expireCtrl (n : Nat) (s : State) : State := count 5 (tabCount s.xpt.ctxs fun _ x => x.live && decide (x.ctrl = some n)) (endCtrl n 1 s)

/-- Put in error every context whose keep-alive or transport timer expired during Drowse (R151 step 2). -/
def errorExpired (s : State) : State :=
  let late := fun (t : Option Nat) => match t with | some t => due t s.clk.now | none => false
  let s := forAll ((s.nvm.ctrls.filter fun c => s.md.kumel = .running && due c.2.kaAt s.clk.now).map (·.1)) expireCtrl s
  forAll (s.xpt.ctxs.map (·.1)) (fun c s =>
    let x := s.ctx c
    if !x.live then s
    else if late x.toAt then expire c 8 s
    else if x.st = .tls && late x.tlsAt then expire c 5 s
    else if x.st = .connecting && late x.icAt then expire c 11 s
    else s) s

/-- Run a held command: a host's where its context is still READY, another shelf's in the class it came with. -/
def runHeld (c : HostCmd) (s : State) : State :=
  if 65536 ≤ c.a.ctx then startOrWait (c.a.ctx % 65536) (c.a.cid % 8) c (count1 6183 s)
  else if (s.ctx c.a.ctx).st = .ready then admitCmd c (takeCapsule c.a.ctx s)
  else takeCapsule c.a.ctx s

/-- The meaning of a row that was held. -/
def rowAgain (i : AdmRow) (s : State) : Out :=
  match i with
  | .connect r => execNvmeConnect r s
  | .authenticationSend ctx cid m => execNvmeAuthenticationSend ctx cid m s
  | .authenticationReceive ctx cid => execNvmeAuthenticationReceive ctx cid s
  | .propertySet ctx cid prop value => execNvmePropertySet ctx cid prop value s
  | .propertyGet ctx cid prop => execNvmePropertyGet ctx cid prop s
  | .disconnect ctx cid => execNvmeDisconnect ctx cid s
  | .getLogPage ctx cid nsid lid => execNvmeGetLogPage ctx cid nsid lid s
  | .identify ctx cid nsid cns cntid => execNvmeIdentify ctx cid nsid cns cntid s
  | .abort ctx cid sqid acid => execNvmeAbort ctx cid sqid acid s
  | .setFeatures ctx cid nsid fid value => execNvmeSetFeatures ctx cid nsid fid value s
  | .getFeatures ctx cid nsid fid value => execNvmeGetFeatures ctx cid nsid fid value s
  | .asyncEventRequest ctx cid => execNvmeAsyncEventRequest ctx cid s
  | .namespaceManagement ctx cid del c => execNvmeNamespaceManagement ctx cid del c s
  | .namespaceAttachment ctx cid nsid attach ctrls => execNvmeNamespaceAttachment ctx cid nsid attach ctrls s
  | .keepAlive ctx cid => execNvmeKeepAlive ctx cid s
  | .formatNvm ctx cid nsid ses lbaf pit => execNvmeFormatNvm ctx cid nsid ses lbaf pit s
  | .sanitize ctx cid sanact => execNvmeSanitize ctx cid sanact s

/-- A held row is executed: what its meaning leaves. DESIGN CHOICE (log 230, unsafe). -/
def runRow (i : AdmRow) (s : State) : State := match rowAgain i s with | .next t => t | _ => s

/-- What waited for a Drowse exit is executed. -/
def runWoken (w : Woken) (s : State) : State := match w with | .cmd c => runHeld c s | .row i => runRow i s | w => runPkt w s

/-- Held commands are executed in arrival order (R151 step 4). -/
def resumeHeld (s : State) : State := forAll s.woken runWoken { s with woken := [] }

/-- Host commands that waited for Kumel go on in arrival order (R155), and so do the initialisations of drives (R621 step 4). -/
def resumeKumel (s : State) : State := forAll (List.range 24) identifyDrive (forAll s.kwait runRow { s with kwait := [] })

/-! ## A Kumel restart -/

/-- What a Kumel restart interrupts beside Letterbox commands: hosts' commands in Kumel (R156), a running update session (R913),
and a propagation. -/
def interruptKumel (s : State) : State :=
  let s := abortUpd 2 (interruptHosts s)
  s.onUpd fun u => { u with prop := none, offered := [], sess := u.sess.map fun x => if x.phase = 4 then { x with phase := 3 } else x }

/-! ## Clocks (R128) -/

/-- A lane receive clock's link (Table 4.1): lanes 0–31 front, 32–79 drive, 80–95 partner, 96–103 UP, 104–111 DN, 112–115
endpoint. -/
def laneLost (i : Nat) (s : State) : State :=
  if i < 32 then forAll ((List.range 32).filter fun l => lportExists s l && decide (l ≤ i) && decide (i < l + lanesPer s l)) lportDown s
  else if i < 80 then driveDown ((i - 32) / 2) s
  else if i < 96 then linkDown 0 1 s
  else if i < 104 then linkDown 1 1 s
  else if i < 112 then linkDown 2 1 s
  else seDown s

/-- Lanes of a transmit PLL group (Table 4.1): P0–P3, the drive lanes of slots 0–11 and 12–23, partner and relay, endpoint. -/
def groupLanes (g : Nat) : List Nat :=
  if g < 4 then (List.range 8).map (8 * g + ·)
  else if g = 4 then (List.range 24).map (32 + ·)
  else if g = 5 then (List.range 24).map (56 + ·)
  else if g = 6 then [80, 96, 104]
  else [112]

/-- The links that lose their clock go down. -/
def linksDownForClock (c : ClockId) (s : State) : State :=
  match c with
  | .lane i => laneLost (i % 116) s
  | .txGroup g => forAll (groupLanes (g % 8)) laneLost s
  | _ => s

/-- The entropy source fails its test (R128, R685). -/
def entropyFault (s : State) : State := if s.md.entropyBad then s else raise 5 0 (s.onMd fun m => { m with entropyBad := true })

/-- Front, relay and partner lanes go off (R41, R53). -/
def silenceLanes (s : State) : State := silenceLinks (forAll (s.net.lports.map (·.1)) lportDown s)

/-! ## Identity -/

/-- This module is stack master. -/
def isMaster (s : State) : Bool := s.master
/-- The stack position. -/
def stackPos (s : State) : Nat := s.pos
/-- FWVER of the running image (Table 4.10). -/
def runningImage (s : State) : Word := word (bankVer s s.upd.run)
/-- The running bank (Table 4.10). -/
def runningBank (s : State) : Nat := s.upd.run
/-- The other bank passes its signature check (Table 4.10 OTHEROK). -/
def otherBankOk (s : State) : Bool := (s.bankOf s.spare).st = .verified
/-- The partner is Active and feeds this module (R134). -/
def shadowedByPartner (s : State) : Bool := s.pair.rxOn && decide (s.pair.peerMode = 2)

/-! ## Persistence -/

/-- An open journal record as the hold-up image keeps it (R542, Table 11.6). -/
def imageOf (s : State) (j : Nat) (r : JRec) : ImgRec :=
  { jseq := j, set := r.set, setid := match s.vset r.set with | some v => v.setid | none => 0, gen := r.gen, stripe := r.stripe, method := r.method,
    spans := r.spans.map fun e => (e.1, e.2.first, e.2.count, if e.2.data.length = e.2.count then crc32cBytes (e.2.data.flatMap blkBytes) else (Config.earlyScrc j e.1).toNat) }

/-- The hold-up image is written (R542). -/
def persistHoldup (s : State) : State :=
  s.onWbf fun w => { w with image := some ⟨w.recs.map fun e => imageOf s e.1 e.2, s.vol.deltas.isSome, s.key.ends⟩ }

/-- A key slot as its boot-flash copy gives it after a restart (R667, R670, R681); a destruction that waited for commands is
carried out, as none is left. -/
def keptSlot (k : KSlot) : KSlot :=
  if k.dying then { erasing := true }
  else { st := k.st, key := k.key, gen := k.gen, prev := k.prev, prevGen := k.prevGen, invoc := k.saved, saved := k.saved, sweep := k.sweepRec, sweepRec := k.sweepRec, erasing := k.erasing }

/-- A cipher core after a restart (R137, Table 4.4): it goes on after the last reservation that was persisted. -/
def keptCore (s : State) (c : Nat) : Core48 :=
  let e := tabGet 0 s.key.ends (48 * s.bay.bay + c)
  { ctr := e, stop := e }

/-- A set as its members' records and map copies give it after a restart (R557, R576, R593): its open records have still to be
recovered (R544). -/
def keptSet (v : VSet) : VSet :=
  { type := v.type, width := v.width, strip := v.strip, fmt := v.fmt, tagzone := v.tagzone, reserve := v.reserve, setid := v.setid, gen := v.gen,
    stripes := v.stripes, st := v.st, cause := v.cause, members := tabMap v.members fun _ m => { m with since := 0, wish := none, told := false, fired := false },
    parcels := tabFilter v.parcels fun _ g => g, initWm := v.initWm, patWm := v.patWm, logs := v.logs, bad := v.bad, creator := v.creator, iseq := v.iseq, recover := true }

/-- A namespace of the directory after a restart: a migration under way starts over. -/
def keptNs (n : Ns) : Ns := { n with map := tabMap n.map fun _ l => { l with moving := false }, held := false, creating := false }

/-- What a module restart keeps beside the always-on domain: what boot flash and the members of the sets hold. DEDUCED (log 29, unsafe). DEDUCED (log 196, unsafe). -/
def keepOverRestart (_c : Cause) (s base : State) : State :=
  let ran := sessionRuns s
  let s := if ran then dropSession s else s
  let t : State := { base with
    wbf := { base.wbf with image := s.wbf.image },
    vol := { base.vol with sets := tabMap s.vol.sets fun _ v => keptSet v, ns := tabMap (tabFilter s.vol.ns fun _ n => !n.deleting) fun _ n => keptNs n, spares := s.vol.spares },
    key := { base.key with slots := tabMap s.key.slots fun _ k => keptSlot k, cores := (List.range 48).map fun c => (c, keptCore s c), ends := s.key.ends, rseq := s.key.rseq },
    pair := { base.pair with term := s.pair.term },
    stk := { base.stk with record := s.stk.record },
    mem := { base.mem with faults := s.mem.faults, pages := s.mem.pages, rows := s.mem.rows },
    upd := { s.upd with sess := none, staged := none, prop := none, mask := 0, offered := [], bootEnd := none } }
  doIf ran (raise 901 2) t

/-! ## Boot -/

/-- The DRAM desk writes every line of 96 GiB with zero (Table 4.3 step 5): test windows hold nothing. -/
def bootMemory (s : State) : State := s.onMem fun m => { m with windows := [] }

/-- The lease link is used from step 6 on, and claims begin (R740, Table 4.3 step 8). A shelf without a stack record waits 2 s
for its relay links (R776). -/
def startLease (s : State) : State :=
  startClaims (s.onStk fun k => { k with formAt := if k.record.isNone then some (s.clk.now + 2 * sec) else none })

/-- Bound slots that hold no key are MISSING (R671). -/
def missingKeys (s : State) : State :=
  forAll (s.vol.ns.filter fun e => e.2.enc ≠ 0 && decide (e.2.home = s.pos)) (fun e s =>
    if (s.slotOf (e.1 - 1)).st = .empty && !(s.slotOf (e.1 - 1)).erasing then raise 642 (fld 11 0 (e.1 - 1)) (onKslot (e.1 - 1) (fun k => { k with st := .missing }) s) else s) s

/-- The image that runs is confirmed at the end of its first Boot, or the fallback that led to it (R908, R915). -/
def confirmBank (s : State) : State :=
  let n := s.upd.newBoot
  let s := s.onUpd fun u => { u with newBoot := 0, bootEnd := if s.md.mode = .standby || s.md.mode = .active then some s.clk.now else none }
  if n = 1 && s.upd.run = s.upd.pref then raise 899 (runningImage s) s
  else if n = 2 then raise 901 3 s
  else s

/-- What follows the end of Boot: keys that were not found are noted (R671), and a held lease makes the module Active (R746). -/
def mastered (s : State) : State :=
  let s := missingKeys (confirmBank s)
  if s.md.mode = .active then becomeActive s else s

end Sys2Proof.Machine
end

