-- ==== Sys2Proof/Machine/Modes.lean ====
section
/-! DEFINITION. Clocks, restarts, Boot, Drowse, the watchdog and the MOD commands of chapter 4. -/
namespace Sys2Proof.Machine

/-! ## Restarts and the start of Boot -/

/-- Decode the bay and sample the straps (R38, R40, Table 2.7). DESIGN CHOICE (log 219, unsafe). -/
def sampleBay (p : Pins) : BayCode :=
  match p.bayId, p.bayIdChk with
  | false, true => { valid := true, bay := 0, form := p.strap % 4, sampled := true }
  | true, false => { valid := true, bay := 1, form := p.strap % 4, sampled := true }
  | _, _ => { valid := false, bay := 0, form := p.strap % 4, sampled := true }

/-- The bay decode and the straps let Boot go on (R39, R40). -/
def BayCode.ok (b : BayCode) : Bool := b.valid && decide (b.form ≠ 3)

/-- Every slot stage goes off at once (R111). DESIGN CHOICE (log 220, unsafe). -/
def allStagesOff (s : State) : State := forAll (List.range 24) (fun k s => doIf (s.slot k).stage (stageOff k) s) s

/-- Bring the report of R57 up to date; PWR.RESERVE_LOW is raised when it changes to low. -/
def settleReserve (s : State) : State :=
  let low := !s.res.waiting && (s.res.testLow || s.res.chargeLow)
  let was := s.res.low
  doIf (low && !was) (raise 71 0) (s.onRes fun r => { r with low := low })

/-- Boot begins (R131, Table 4.3 step 1): the straps are sampled if they are not, slot probing and the reserve charger
start, and an invalid decode or strap holds the module at HOLD_STRAP with Fault lit (R39, R40, R134). -/
def beginBoot (s : State) : State :=
  let s := if s.bay.sampled then s else { s with bay := sampleBay s.pins }
  let s := { s with fe := { s.fe with coreOn := true } }
  let s := s.onMd fun m => { m with mode := .boot, stage := if s.bay.ok then .alwaysOn else .holdStrap,
                                    faultLed := !s.bay.ok, egressOff := !s.bay.ok, maintBoot := m.maintOpt, dramBoot := m.dramFull }
  let full := decide (110 ≤ s.res.usable)
  let s := s.onRes fun r => { r with charger := true, waiting := !full, ready := full, low := false, chargeLow := false, bootTest := true }
  settleReserve (s.onMd fun m => { m with resWaitOver := full, bootAt := s.clk.now })

/-- A module restart (R129, R130, R137, R937, Table 4.2): everything is reset except, for a cause that leaves the always-on
domain running, that domain, the endpoint's link and configuration space; what boot flash holds is kept. Boot begins if
the module is seated. DESIGN CHOICE (log 25, unsafe). -/
def moduleRestart (c : Cause) (s : State) : State :=
  let keep := !c.resetsAon
  let pwr : Pwr := if keep then
      { s.pwr with slots := tabMap s.pwr.slots fun _ x => { x with locate := false, fault := false, lastIo := none } } else {}
  let se : Se := if keep then { link := s.se.link, bme := s.se.bme, d3 := s.se.d3, bar0 := s.se.bar0, vecs := s.se.vecs } else {}
  let md : ModDesk := { cause := c, maintOpt := s.md.maintOpt, dramFull := s.md.dramFull, restartReq := s.md.restartReq }
  let lb : Letterbox := { k0 := { s.lb.k0 with last := s.lb.k0.floor, cache := [] },
                          k1 := { s.lb.k1 with last := s.lb.k1.floor, cache := [] } }
  let base : State :=
    { State.reset with
      pending := s.pending, out := s.out, free := s.free, order := s.order, pins := s.pins,
      bay := if keep then s.bay else {}, fe := s.fe,
      res := { usable := s.res.usable, testLow := keep && s.res.testLow, lastTest := if keep then s.res.lastTest else none },
      th := { tj := s.th.tj }, clk := { aon := if keep then s.clk.aon else 0 },
      md := md, lb := lb, se := se, pwr := pwr }
  let t := count1 0 (keepOverRestart c s base)
  let t := if s.pins.seated then beginBoot t else t
  doIf s.th.report (raise 9 0) t

/-- A restart of a module that runs: one in hold-up completes its persistence, and one that is shut down waits until it is cool
(R53, R65). -/
def restartRunning (c : Cause) (s : State) : State := if s.fe.holdup || s.th.shutdown then s else moduleRestart c s

/-! ## Pins -/

/-- R38–R41, R48, R53, R65, R130: SEATED_N goes low. The first seating samples the bay and the straps; a later one with the bulk bus
still up is a restart with cause RESEAT. In hold-up and after a thermal shutdown Boot waits for what ends them. -/
def execSeat (bayOpen chkOpen : Bool) (strap : Nat) (s : State) : Out :=
  .next (if s.pins.seated then s else
    let s := { s with pins := { s.pins with seated := true, bayId := bayOpen, bayIdChk := chkOpen, strap := strap % 4 } }
    if s.fe.latch = .tripped && s.fe.leverOpen then
      if s.fe.holdup then s.onFe fun f => { f with latch := .none, leverOpen := false }
      else s.onFe fun f => { f with latch := .none, leverOpen := false, charged := false, charging := f.f1.good || f.f2.good }
    else if s.fe.holdup || s.th.shutdown then s.onFe fun f => { f with leverOpen := false }
    else
      let again := s.fe.leverOpen
      let s := s.onFe fun f => { f with leverOpen := false }
      if !s.fe.charged then s
      else if again && s.bay.sampled then moduleRestart .reseat s
      else beginBoot s)

/-- R41: SEATED_N goes high: every stage off, no renewal, no egress, no probing; slots other than DISABLED and LOCKOUT enter
EMPTY and the admission queue empties. -/
def execUnseat (s : State) : Out :=
  .next (if !s.pins.seated then s else
    let s := allStagesOff { s with pins := { s.pins with seated := false } }
    let s := s.onPwr fun p =>
      { p with queue := [], slots := tabMap p.slots fun _ x =>
          if x.state = .disabled || x.state = .lockout then { x with presentAt := none, empties := 0 }
          else { x with state := .empty, presentAt := none, empties := 0, shed := false, waited := false, wait := .no } }
    let s := s.onFe fun f => { f with leverOpen := true }
    silenceLanes (s.onMd fun m => { m with egressOff := true }))

/-! ## Feeds and the front end -/

/-- Change one feed: 1 or 2. -/
def onFeed (k : Nat) (f : Feed → Feed) (s : State) : State :=
  s.onFe fun e => if k = 1 then { e with f1 := f e.f1 } else if k = 2 then { e with f2 := f e.f2 } else e

/-- A feed's state. -/
def State.feed (s : State) (k : Nat) : Feed := if k = 1 then s.fe.f1 else s.fe.f2

/-- The feed's number is 1 or 2. -/
def feedNo (k : Nat) : Bool := k = 1 || k = 2

/-- Hold-up starts (R52, R53): every slot stage and every front, relay and partner lane goes off, and the journal, the map
deltas and the nonce reservations are persisted. -/
def enterHoldup (s : State) : State :=
  if s.fe.holdup || !s.fe.charged then s
  else
    let s := allStagesOff (s.onFe fun f => { f with holdup := true, f1 := { f.f1 with closed := false }, f2 := { f.f2 with closed := false } })
    let s := silenceLanes (s.onMd fun m => { m with egressOff := true })
    persistHoldup (raise 72 0 (count1 612 s))

/-- No feed path carries the module. -/
def noFeed (s : State) : Bool := !s.fe.f1.closed && !s.fe.f2.closed

/-- R44–R46, R54: a feed becomes good. It charges the bulk bus, waits for the charge's end, or joins at once; in hold-up or
with the paths held open it does not join. -/
def execFeedGood (feed mv : Nat) (s : State) : Out :=
  .next (if (s.feed feed).good || mv < 10600 || !feedNo feed then s else
    let s := raise 64 (word feed) (onFeed feed (fun f => { f with good := true, mv := mv }) s)
    let s := if s.fe.latch != .none || s.fe.holdup then s
      else if s.fe.charged then onFeed feed (fun f => { f with closed := !f.ov }) s
      else s.onFe fun f => { f with charging := true }
    settleBudget s)

/-- R44: undervoltage warning; the feed stays in use. -/
def execFeedUvWarn (feed mv : Nat) (s : State) : Out :=
  .next (if feedNo feed && mv < 10800 then raise 66 (word feed) (onFeed feed (fun f => { f with mv := mv }) s) else s)

/-- R44, R50, R52: a feed is lost and its path opens; the loss of both starts hold-up. -/
def execFeedLost (feed mv : Nat) (s : State) : Out :=
  .next (if !feedNo feed || !(s.feed feed).good || 10200 ≤ mv then s else
    let s := onFeed feed (fun f => { f with good := false, closed := false, mv := mv, cur := 0 }) s
    let s := s.onFe fun f => { f with charging := f.charging && (f.f1.good || f.f2.good) }
    let s := settleBudget (raise 65 (word feed) (count1 (607 + feed) s))
    doIf (noFeed s) enterHoldup s)

/-- R44: overvoltage opens the path. DEDUCED (log 24, unsafe). DEDUCED (log 189, unsafe). -/
def execFeedOv (feed mv : Nat) (s : State) : Out :=
  .next (if !feedNo feed || mv ≤ 13800 || (s.feed feed).ov then s else
    let s := raise 67 (word feed) (onFeed feed (fun f => { f with ov := true, closed := false, mv := mv }) s)
    doIf (noFeed s) enterHoldup s)

/-- R44: the path recloses below 13.5 V. -/
def execFeedOvReclose (feed mv : Nat) (s : State) : Out :=
  .next (if !feedNo feed || 13500 ≤ mv || !(s.feed feed).ov then s else
    let ok := s.fe.charged && decide (s.fe.latch = .none) && !s.fe.holdup
    onFeed feed (fun f => { f with ov := false, mv := mv, closed := f.good && ok }) s)

/-- R48, R49: module current above 160 A opens both paths until the feeds have been off or the lever was opened and closed;
the reserve carries the persistence. -/
def execFrontEndTrip (s : State) : Out :=
  .next (if !s.fe.charged || s.fe.latch = .tripped then s else
    let s := raise 68 0 (count1 610 s)
    enterHoldup (s.onFe fun f => { f with latch := .tripped, f1 := { f.f1 with closed := false }, f2 := { f.f2 with closed := false } }))

/-- R45: the bulk bus has ended its charge. The module was unpowered, so it starts afresh with cause POWER_ON (Table 4.2). -/
def execBulkChargeEnd (s : State) : Out :=
  .next (if !s.fe.charging then s else
    let s := s.onFe fun f =>
      { f with charging := false, charged := true, fails := 0, coreOn := true,
               f1 := { f.f1 with closed := f.f1.good && !f.f1.ov }, f2 := { f.f2 with closed := f.f2.good && !f.f2.ov } }
    moduleRestart .powerOn s)

/-- R47: no charge within 60 ms; after three failures in a row the front end stays off. -/
def execChargeFail (s : State) : Out :=
  .next (if !s.fe.charging then s else
    let s := s.onFe fun f =>
      { f with charging := false, fails := f.fails + 1, latch := if 3 ≤ f.fails + 1 then .chargeOff else .chargeRetry,
               retryDue := s.clk.aon + sec, f1 := { f.f1 with closed := false }, f2 := { f.f2 with closed := false } }
    raise 69 0 (count1 611 s))

/-- R47: the retry, 1 s after a failed charge. -/
def execChargeRetry (s : State) : Out :=
  .next (if s.fe.latch = .chargeRetry && due s.fe.retryDue s.clk.aon then
      s.onFe fun f => { f with latch := .none, charging := f.f1.good || f.f2.good }
    else s)

/-- R47, R48: both feeds have been below 2 V for 1 s. -/
def execFeedsOffReset (s : State) : Out :=
  .next (if s.fe.latch = .tripped || s.fe.latch = .chargeOff then
      s.onFe fun f => { f with latch := .none, fails := 0, charged := false, charging := false, coreOn := false,
                               f1 := { f.f1 with good := false, closed := false }, f2 := { f.f2 with good := false, closed := false } }
    else s)

/-- R54: the persistence is complete. The module restarts from Boot if a feed is good and no latch holds the paths open;
otherwise it powers down. -/
def execHoldupDone (s : State) : Out :=
  .next (if !s.fe.holdup then s else
    if someGood s && s.fe.latch = .none then
      restartRunning .holdup (s.onFe fun f =>
        { f with holdup := false, f1 := { f.f1 with closed := f.f1.good && !f.f1.ov }, f2 := { f.f2 with closed := f.f2.good && !f.f2.ov } })
    else s.onFe fun f => { f with holdup := false, charged := false, coreOn := false, charging := false })

/-! ## The hold-up reserve -/

/-- The usable energy is now `j`: where it rises to 110 J the reserve is ready and PWR.RESERVE_READY is raised; the report follows
(R57). -/
def setCharge (j : Nat) (s : State) : State :=
  let rises := decide (110 ≤ j) && !s.res.ready
  let s := s.onRes fun r => { r with usable := j, ready := decide (110 ≤ j), waiting := r.waiting && decide (j < 110), chargeLow := decide (j < 110) }
  settleReserve (doIf rises (fun s => raise 70 0 (s.onMd fun m => { m with resWaitOver := true })) s)

/-- R57: usable energy rises to 110 J. -/
def execReserveReady (joules : Nat) (s : State) : Out := .next (if joules < 110 then s else setCharge joules s)

/-- R55, R57: Boot's 20 s wait for the reserve ends. -/
def execReserveWaitTimeout (s : State) : Out :=
  .next (if s.res.waiting && s.md.mode = .boot && due (s.md.bootAt + 20 * sec) s.clk.now then
      settleReserve ((s.onRes fun r => { r with waiting := false, chargeLow := true }).onMd fun m => { m with resWaitOver := true })
    else s)

/-- A capacity test is due: the one of this Boot, or 24 h after the last one started (R51). -/
def testDue (s : State) : Bool :=
  s.res.charger && !s.res.testing && (s.res.bootTest || match s.res.testAt with | none => true | some t => due (t + 86400 * sec) s.clk.aon)

/-- R51: a capacity test that is due starts, only while at least 130 J is usable. DESIGN CHOICE (log 227, unsafe). -/
def execReserveCapacityTest (joules : Nat) (s : State) : Out :=
  .next (
    let s := setCharge joules s
    if testDue s && decide (130 ≤ joules) then s.onRes fun r => { r with testing := true, bootTest := false, testAt := some s.clk.aon } else s)

/-- R51, R57: a capacity test ends. -/
def execReserveTestDone (joules : Nat) (s : State) : Out :=
  .next (if !s.res.testing then s else
    setCharge joules (count1 613 (s.onRes fun r =>
      { r with testing := false, lastTest := some s.clk.aon, testLow := decide (joules < 110) })))

/-- R57: the present charge falls below 110 J. -/
def execReserveChargeLow (joules : Nat) (s : State) : Out :=
  .next (if 110 ≤ joules then s else setCharge joules s)

/-! ## Junction temperature -/

/-- R64: 100 °C reached. -/
def execThermalWarn (tj : BitVec 16) (s : State) : Out :=
  .next (
    let s := { s with th := { s.th with tj := tj } }
    if s.th.armed && 800 ≤ tj.toInt then raise 8 0 (count1 7 { s with th := { s.th with armed := false } }) else s)

/-- R64: below 95 °C. -/
def execThermalRearm (tj : BitVec 16) (s : State) : Out :=
  .next { s with th := { s.th with tj := tj, armed := s.th.armed || decide (tj.toInt < 760) } }

/-- R65: above 115 °C for 1 s: the slot stages go off, renewal stops and the core powers down. -/
def execThermalShutdown (tj : BitVec 16) (s : State) : Out :=
  .next (
    let s := { s with th := { s.th with tj := tj } }
    if tj.toInt ≤ 920 || s.th.shutdown || !s.fe.coreOn then s
    else
      let s := allStagesOff { s with th := { s.th with shutdown := true, report := true } }
      silenceLanes ((s.onFe fun f => { f with coreOn := false }).onMd fun m => { m with egressOff := true }))

/-- R65: below 90 °C after a shutdown the module restarts from Boot. -/
def execThermalRestart (tj : BitVec 16) (s : State) : Out :=
  .next (
    let s := { s with th := { s.th with tj := tj } }
    if s.th.shutdown && tj.toInt < 720 then moduleRestart .thermal s else s)

/-! ## Clocks -/

/-- The monitor's index of a clock (Table 4.1): 0–115 lanes, 116–123 transmit groups, 124–135 DRAM, then core domains. -/
def ClockId.index : ClockId → Nat
  | .lane i => i % 116
  | .txGroup g => 116 + g % 8
  | .dram c => 124 + c % 12
  | .core d => 136 + d % 9
  | .entropy => 145

/-- R127, R128: a clock is flagged lost. A lane's takes its link down, a transmit group's every link of the group; the
entropy source's is an entropy fault; any other restarts the module with cause FATAL. -/
def execClockLost (c : ClockId) (s : State) : Out :=
  .next (
    let s := s.onMd fun m => { m with clockLost := tabIns m.clockLost c.index true }
    let s := raise 4 (word c.index) (count1 6 s)
    match c with
    | .lane _ | .txGroup _ => linksDownForClock c s
    | .entropy => entropyFault s
    | .dram _ | .core _ => restartRunning .fatal s)

/-! ## Boot -/

/-- R131, Table 4.3 step 2. -/
def execBootRailsUp (s : State) : Out :=
  .next (if s.md.mode = .boot && s.md.stage = .alwaysOn && s.bay.ok && s.fe.coreOn then s.onMd fun m => { m with stage := .rails } else s)

/-- R134, Table 4.3 step 3: the signature check of the image banks. Neither passing holds Boot at HOLD_FLASH with Fault lit. -/
def execBootFlashChecked (aOk bOk : Bool) (s : State) : Out :=
  .next (if s.md.mode = .boot && s.md.stage = .rails then
      if !aOk && !bOk then bootBank aOk bOk (s.onMd fun m => { m with stage := .holdFlash, faultLed := true })
      else bootBank aOk bOk (s.onMd fun m => { m with stage := .flash })
    else s)

/-- R134, Table 4.3 step 4. -/
def execBootSelftestDone (lasting : Bool) (s : State) : Out :=
  .next (if s.md.mode = .boot && s.md.stage = .flash then
      let s := s.onMd fun m => { m with stage := .selftest, selftestBad := lasting, faultLed := m.faultLed || lasting }
      doIf lasting (raise 2 0) s
    else s)

/-- R134, R136, Table 4.3 step 5: each channel that fails training raises MOD.DRAM_TRAIN_FAIL. -/
def execBootDramTrained (failed : List Nat) (s : State) : Out :=
  .next (if s.md.mode = .boot && s.md.stage = .selftest then
      let bad := !failed.isEmpty
      let s := s.onMd fun m => { m with stage := .dram, dramBad := bad, faultLed := m.faultLed || bad }
      bootMemory (forAll failed (fun ch => raise 3 (word ch)) s)
    else s)

/-- R132, Table 4.3 step 6: Kumel starts and opens the doors; the entropy test passes and the DRBG is seeded. -/
def execKumelStarted (entropyOk : Bool) (s : State) : Out :=
  .next (if s.md.mode = .boot && s.md.stage = .dram then
      let s := startLease (s.onMd fun m => { m with stage := .kumel, kumel := .running })
      doIf (!entropyOk) entropyFault s
    else s)

/-- R32, R132: the management jack's link comes up. -/
def execManagementLinkUp (s : State) : Out := .next (s.onMd fun m => { m with mgmtLink := true })

/-- R133: drive enumeration stops at 40 s; stage PAIRING. DESIGN CHOICE (log 26, unsafe). -/
def execEnumerationStop (s : State) : Out :=
  .next (if s.md.mode = .boot && s.step6 && due (s.md.bootAt + 40 * sec) s.clk.now then
      s.onMd fun m => { m with enumStop := true, stage := .pairing }
    else s)

/-- Boot ends in a mode: stage DONE and MOD.BOOT_COMPLETE with the restart cause, which also completes a MOD.RESTART kept
over the restart (R131, R134, R160). DEDUCED (log 194, unsafe). -/
def endBoot (m : Mode) (s : State) : State :=
  let s := changeMode m (s.onMd fun x => { x with stage := .done, enumStop := true })
  let req := s.md.restartReq
  let s := s.onMd fun x => { x with restartReq := none }
  let param := word s.md.cause.code
  match req with
  | none => raise 0 param s
  | some (d, tag) => raiseAt 4 ([0, 1, 2].filter (· != d)) 0 param (complete d tag 0 stOk param s)

/-- The mode in which Boot ends now, by the first row of R134 that applies. -/
def bootOutcome (s : State) : Option Mode :=
  if s.md.selftestBad || s.md.dramBad then some .maintenance
  else if s.md.maintBoot then some .maintenance
  else if s.pair.lease then some .active
  else if shadowedByPartner s then some .standby
  else none

/-- R134, R135: Boot ends, not before the reserve is ready or 20 s have passed. The MAINT option is cleared when it is used,
and a module that ends in Maintenance gives back a lease that it was granted in Boot (R143). DEDUCED (log 31, unsafe). -/
def execBootEnd (s : State) : Out :=
  .next (if s.md.mode = .boot && s.step6 && s.md.resWaitOver then
      match bootOutcome s with
      | none => s
      | some m =>
        let used := s.md.maintBoot && !s.md.selftestBad && !s.md.dramBad
        mastered (endBoot m (doIf (m = .maintenance) releaseLease (s.onMd fun x => { x with maintOpt := x.maintOpt && !used, maintBoot := false })))
    else s)

/-- R131, R134, R136: 45 s without another outcome (105 s with DRAM_FULL): Fenced. -/
def execBootTimeout (s : State) : Out :=
  .next (if s.md.mode = .boot && s.step6 && (bootOutcome s).isNone && due (s.md.bootAt + (if s.md.dramBoot then 105 else 45) * sec) s.clk.now then
      endBoot .fenced s
    else s)

/-! ## Drowse -/

/-- R146 E2: quiescence has held for 10 ms; Kumel puts every ON drive into its lowest non-operational power state. DEDUCED (log 33, unsafe). -/
def execDrowseQuiescent (s : State) : Out :=
  .next (if s.md.drowse = .quiesce && s.md.mode = .active && quiescent s && due (s.md.quietAt + 10 * ms) s.clk.now then
      s.onMd fun m => { m with drowse := .drivesLow }
    else s)

/-- R146 E3–E5, R163: the drives report low power, the fabric clock falls, and the entry commits. -/
def execDrowseDrivesLow (s : State) : Out :=
  .next (if s.md.drowse = .drivesLow && s.md.mode = .active then
      let s := drivesPower true (s.onMd fun m => { m with drowse := .none, fabricSlow := true })
      let s := drowseReply true (count1 2 s)
      finish (fun r => r.op = 0x0006) 10 stOk 0 (changeMode .drowse s)
    else s)

/-- R148: 10 s from E1 without quiescence. DEDUCED (log 192, unsafe). -/
def execDrowseAbandonTimeout (s : State) : Out :=
  .next (if s.md.drowse = .quiesce && due (s.md.drowseAt + 10 * sec) s.clk.now then abandonDrowse s else s)

/-- R150, R151: a waking frame or command starts the exit. -/
def execDrowseExit (s : State) : Out := .next (beginDrowseExit s)

/-- Every MOD.WAKE that waits for the exit is answered OK (R163). -/
def answerWakes (s : State) : State :=
  let es := s.lb.inbox.filter fun e => e.op = 0x0007
  let s := s.onLb fun l => { l with inbox := l.inbox.filter fun e => e.op != 0x0007 }
  es.foldl (fun t e => post e.door e.tag e.orphan stOk [] t) s

/-- R151, R152: contexts whose timer expired are put in error, the drives are operational, and the module is Active; then held commands
go on in arrival order. -/
def execDrowseExitDone (s : State) : Out :=
  .next (if s.md.mode = .drowse && s.md.drowse = .exiting then
      let took := (s.clk.now - s.md.exitAt) / ms
      let s := drivesPower false (errorExpired s)
      let s := s.onMd fun m => { m with drowse := .none, patrolPaused := false }
      resumeHeld (answerWakes (raise 12 (word took) (changeMode .active s)))
    else s)

/-! ## The management watchdog -/

/-- The event that completes a command (Table 20.4). -/
def completionEvent (op : Nat) : Nat :=
  match op with
  | 0x0003 => 0 | 0x0004 => 1 | 0x0006 => 10 | 0x0209 | 0x020A => 136 | 0x0605 => 389 | 0x0606 | 0x0607 | 0x0609 => 393
  | 0x060B => 394 | 0x0703 => 452 | 0x0807 => 517 | 0x0905 => 586 | 0x0A07 => 643 | 0x0B02 => 713 | 0x0B04 => 716
  | 0x0C03 => 775 | 0x0D03 => 836 | 0x0D0C => 840 | 0x0E04 => 897 | 0x0E06 => 900 | _ => 0

/-- Kumel interprets the command (Table 20.4). -/
def byKumel (op : Nat) : Bool := match catRow op with | some r => r.byK | none => false

/-- What a Kumel restart does to Letterbox commands (R156, R860): those that returned ACCEPTED end with HW_FAULT, begun ones
are answered HW_FAULT, and those still in the backlog BUSY. The desk lock is released (R155). DEDUCED (log 198, unsafe). -/
def kumelInterrupts (s : State) : State :=
  let rs := s.lb.running.filter fun r => byKumel r.op
  let s := s.onLb fun l => { l with running := l.running.filter fun r => !byKumel r.op }
  let s := rs.foldl (fun t r => complete r.door r.tag (completionEvent r.op) stHwFault 0 t) s
  let es := s.lb.inbox.filter fun e => byKumel e.op
  let s := s.onLb fun l => { l with inbox := l.inbox.filter fun e => !byKumel e.op }
  let s := es.foldl (fun t e =>
    if e.begun then post e.door e.tag e.orphan stHwFault [] t else post e.door e.tag e.orphan stBusy [word 1000] t) s
  interruptKumel (releaseLock s)

/-- The management cores are reset, and come back within 3 s (R155). -/
def resetKumel (recent : List Nat) (s : State) : State :=
  count1 1 (s.onMd fun m =>
    { m with kumel := .restarting, kumelDue := s.clk.now + 3 * sec, krst := min 255 (m.krst + 1), krstAt := recent ++ [s.clk.now] })

/-- A Kumel restart, or Kumel left stopped where it would be the third within 10 minutes of the first (R154–R157). DESIGN CHOICE (log 27, unsafe). -/
def kumelRestart (s : State) : State :=
  let recent := s.md.krstAt.filter fun t => s.clk.now < t + 600 * sec
  let s := kumelInterrupts s
  if 2 ≤ recent.length then raise 7 0 (s.onMd fun m => { m with kumel := .stopped, krstAt := recent }) else resetKumel recent s

/-- R154: 2 s without a restart of the watchdog. -/
def execWatchdogExpiry (s : State) : Out := .next (if s.md.kumel = .running then kumelRestart s else s)

/-- R155: the Kumel restart completes. -/
def execKumelRestartDone (s : State) : Out :=
  .next (if s.md.kumel = .restarting then resumeKumel (resumeKeepAlive (raise 6 0 (s.onMd fun m => { m with kumel := .running }))) else s)

/-! ## Commands -/

/-- MOD.GET_IDENTITY (Table 4.10). -/
def deskModGetIdentity (_p : Packet) (s : State) : Desk :=
    answer ([fld 7 0 s.order ||| fld 8 8 s.bay.bay ||| fld 11 9 (stackPos s) ||| fld 13 12 s.bay.form
        ||| fld 23 16 Config.step.toNat, runningImage s, fld 0 0 (runningBank s) ||| flag 1 (otherBankOk s)]
      ++ words2 Config.serial.toNat ++ words2 Config.keyId.toNat) s

/-- MOD.GET_IDENTITY (Table 4.10). -/
def execModGetIdentity (p : Packet) (s : State) : Out := letter 0x0001 0 p s (deskModGetIdentity p)

/-- The module is in paired operation: Active, with its partner in Standby shadowing it (chapter 1). DEDUCED (log 224, unsafe). -/
def paired (s : State) : Bool := decide (s.md.mode = .active) && s.pair.paired

/-- MOD.GET_STATUS (Table 4.11). -/
def deskModGetStatus (_p : Packet) (s : State) : Desk :=
    answer [fld 2 0 s.md.mode.code ||| flag 3 (isMaster s) ||| flag 4 (paired s) ||| fld 11 8 s.md.stage.code
        ||| fld 19 16 s.md.cause.code ||| fld 31 24 s.md.krst, word (s.clk.now / sec),
      fld 15 0 s.th.tj.toNat ||| flag 16 (decide (s.md.drowse = .quiesce) || decide (s.md.drowse = .drivesLow))
        ||| flag 17 (decide (s.md.kumel = .stopped)), word ((s.clk.now - s.clk.modeAt) / sec)] s

/-- MOD.GET_STATUS (Table 4.11). -/
def execModGetStatus (p : Packet) (s : State) : Out := letter 0x0002 0 p s (deskModGetStatus p)

/-- The module enters Maintenance: no lease holds its answers to hosts back any more (R143). DESIGN CHOICE (log 228, unsafe). -/
def enterMaintenance (s : State) : State := changeMode .maintenance (s.onPair fun p => { p with egressHalt := false, held := [] })

/-- A Drowse entry that a forced restart or entry into Maintenance overtakes is abandoned. -/
def overtakeDrowse (s : State) : State := if s.md.drowse = .quiesce || s.md.drowse = .drivesLow then abandonDrowse s else s

/-- Forced Maintenance entry or a restart in single-module operation goes on once the buffer is destaged and the commands in
flight are done (R144 steps 3–5, R160). -/
def forcedProgress (s : State) : State :=
  if !bufferEmpty s then s
  else if s.md.restartWait then restartRunning (if s.upd.trial && decide (s.upd.pref ≠ s.upd.run) then .update else .command) s
  else match s.md.entering with
    | some _ =>
      if s.md.mode = .boot || s.md.mode = .drowse then s
      else enterMaintenance (releaseLease (s.onMd fun m => { m with entering := none, admitStop := false }))
    | none => s

/-- MOD.RESTART (R159, R160). -/
def deskModRestart (p : Packet) (s : State) : Desk :=
    let kind := bits 1 0 (p.w 2)
    let force := bit 8 (p.w 2)
    guardParam (clean (mask 1 0 ||| mask 8 8) (p.w 2) && decide (kind ≤ 1) && decide (p.w 3 = 0x00004824)) s fun s =>
      let serving := decide (s.md.mode = .active) || decide (s.md.mode = .drowse)
      if kind = 1 then okay (if s.md.kumel = .stopped then resetKumel [] (kumelInterrupts s) else kumelRestart s)
      else check (!serving || force) stRefusedMode s fun s =>
        if serving && !paired s then
          let s := s.onMd fun m => { m with restartReq := some (p.door, p.tag), restartWait := true, admitStop := true }
          (stAccepted, [], forcedProgress (closeHosts (overtakeDrowse s)))
        else okay (restartRunning .command s)

/-- MOD.RESTART (R159, R160). DESIGN CHOICE (log 14, unsafe). -/
def execModRestart (p : Packet) (s : State) : Out := letter 0x0003 2 p s (deskModRestart p)

/-- MOD.ENTER_MAINTENANCE (R144, R161). -/
def deskModEnterMaintenance (p : Packet) (s : State) : Desk :=
    let force := bit 0 (p.w 2)
    guardParam (clean (mask 0 0) (p.w 2)) s fun s =>
      if s.md.mode = .standby || s.md.mode = .fenced then okay (enterMaintenance s)
      else check (force && decide (s.md.mode = .active)) stRefusedMode s fun s =>
        let s := accept p 0x0004 0 0 (s.onMd fun m => { m with entering := some (p.door, p.tag), admitStop := true })
        (stAccepted, [], forcedProgress (closeHosts (overtakeDrowse s)))

/-- MOD.ENTER_MAINTENANCE (R144, R161). -/
def execModEnterMaintenance (p : Packet) (s : State) : Out := letter 0x0004 1 p s (deskModEnterMaintenance p)

/-- MOD.SET_BOOT_OPTIONS (R162). -/
def deskModSetBootOptions (p : Packet) (s : State) : Desk :=
    guardParam (clean (mask 1 0) (p.w 2)) s fun s =>
      okay (s.onMd fun m => { m with maintOpt := bit 0 (p.w 2), dramFull := bit 1 (p.w 2) })

/-- MOD.SET_BOOT_OPTIONS (R162). -/
def execModSetBootOptions (p : Packet) (s : State) : Out := letter 0x0005 1 p s (deskModSetBootOptions p)

/-- MOD.ENTER_DROWSE (R145, R146, R163). -/
def deskModEnterDrowse (p : Packet) (s : State) : Desk :=
    check (!dataMoving s) stRefusedMoving s fun s =>
    check (!s.md.admitStop) stRefusedMode s fun s =>
      (stAccepted, [], accept p 0x0006 0 0 (if s.md.drowse = .none then beginDrowse s else s))

/-- MOD.ENTER_DROWSE (R145, R146, R163). -/
def execModEnterDrowse (p : Packet) (s : State) : Out := letter 0x0006 0 p s (deskModEnterDrowse p)

/-- MOD.WAKE (R163): in Active OK at once; in Drowse it wakes the module and is answered at the end of the exit. -/
def execModWake (p : Packet) (s : State) : Out := letter 0x0007 0 p s okay

end Sys2Proof.Machine
end

