-- ==== Sys2Proof/Machine/Mem.lean ====
section
/-! DEFINITION. The MEM desk (chapter 18): memory errors and poison, self-tests, scrubbing, retirement, the test windows and the
MEM commands. -/
namespace Sys2Proof.Machine

/-! ## Layout (Table 18.3) -/

/-- Bytes of an SRAM region, or of a DRAM channel. -/
def classBytes (cls : Nat) : Nat :=
  if dramClass cls then 8589934592 else match cls with | 0 | 1 => 50331648 | 2 => 33554432 | 3 => 16777216 | 4 | 5 => 8388608 | _ => 0

/-- The channels of a DRAM group: W has 64 GiB, C and T 16 GiB each. DEDUCED (log 177, unsafe). -/
def channelsOf (cls : Nat) : List Nat := if cls = 8 then List.range 8 else if cls = 9 then [8, 9] else if cls = 10 then [10, 11] else []

/-- A memory class. -/
def memClass (cls : Nat) : Bool := decide (cls ≤ 5) || dramClass cls

/-- The index is one of the class. -/
def indexOk (cls index : Nat) : Bool := if dramClass cls then (channelsOf cls).contains index else index = 0

/-! ## Poison's consumers (Table 18.1) -/

/-- The CONSUMER code of what meets poison. -/
def MemObj.code_ : MemObj → Nat
  | .none => 0 | .cmd _ => 1 | .block _ _ => 2 | .strip _ _ _ _ => 3 | .word _ _ => 4 | .ctx _ => 5 | .mapLine _ => 6 | .record _ => 7 | .frame _ _ _ _ => 8
  | .key _ _ => 9 | .counter _ => 10 | .desk => 11 | .code => 12

/-- A block of the write buffer holds poison. -/
def poisonBlock (p i : Nat) (s : State) : State := onPage p (fun x => { x with blks := tabUpd x.blks i fun b => { b with poison := true } }) s

/-- A region's word holds poison. -/
def poisonWord (r w : Nat) (s : State) : State :=
  s.onXpt fun x => { x with regions := tabUpd x.regions r fun g => { g with poison := if g.poison.contains w then g.poison else g.poison ++ [w] } }

/-- Read data meets poison on its way to the host: blocks that came from the members are read once more, and otherwise the command
ends with Unrecovered Read Error (code 1). -/
def poisonRead (t : Nat) (s : State) : State :=
  match s.cmdOf t with
  | none => s
  | some c =>
    if c.ready || c.phase != .run then s
    else match s.nsFor c with
      | none => s
      | some n =>
        if !c.raw.isEmpty && !c.again then
          let s := count1 6695 (onCmd t (fun k => { k with again := true, need := [], tzNeed := [], raw := [], tz := [], buf := [], zeros := [], src := [] }) s)
          settleCmds (serveRead t c n s)
        else settleCmds (makeReady t (onCmd t (fun c => { c with status := .unrecoveredRead, dnr := true, need := [], tzNeed := [] }) s))

/-- A map line is lost: its namespace is read-only until MEM.RELOAD_MAP (R490). -/
def poisonMap (nsid : Nat) (s : State) : State :=
  match s.nsOf nsid with
  | none => s
  | some n =>
    let s := s.onVol fun v => { v with lost := if v.lost.contains nsid then v.lost else v.lost ++ [nsid] }
    if n.ro then s else raise 391 (fld 12 0 nsid) (onNs nsid (fun n => { n with ro := true }) s)

/-- The group T copy of an open record is lost: with neither the members' journals nor the mirror holding it, its set's records are
recovered (R541, R544). -/
def poisonRecord (j : Nat) (s : State) : State :=
  match s.rec_ j with
  | none => s
  | some r => if r.stage = 0 && !s.pair.paired then onSet r.set (fun v => { v with recover := true }) s else s

/-- A frame's cell holds poison: it is dropped, or ended with an inverted FCS where its first byte has left. -/
def poisonFrame (swport q i : Nat) (begun : Bool) (s : State) : State :=
  if begun then count1 6693 s
  else
    let k := swport * 8 + q
    match (s.queue k)[i]? with
    | none => s
    | some f =>
      let s := setQueue k ((s.queue k).eraseIdx i) s
      doIf (f.inPort < 32) (checkXon f.inPort f.pcp) s

/-- A key share holds poison: the slot is loaded again from boot flash, or is MISSING. -/
def poisonKey (i : Nat) (copyOk : Bool) (s : State) : State :=
  if copyOk then count1 6694 s
  else raise 642 (fld 11 0 i) (onKslot i (fun k => { k with st := .missing, key := [], prev := [] }) s)

/-- A counter whose memory holds poison is 0 with its overflow bit set (code 10). -/
def resetCtr (n : Nat) (s : State) : State := s.onTal fun t => { t with ctrs := tabMod {} t.ctrs n fun _ => { val := 0, ovf := true } }

/-- What a consumer does about poison (Table 18.1). Data-plane consumers do not act in Standby. DEDUCED (log 180, unsafe). -/
def consumed (o : MemObj) (s : State) : State :=
  match o with
  | .none => s
  | .desk => restartRunning .fatal s
  | .code => kumelRestart s
  | .counter n => resetCtr n s
  | .key i ok => poisonKey i ok s
  | o =>
    if s.md.mode = .standby then s
    else match o with
      | .cmd t => poisonRead t s
      | .block p i => poisonBlock p i s
      | .strip i st m b => addBad i ⟨st, 1, m, b, 1, 3⟩ s
      | .word r w => if r = 4096 then resetCtr w s else poisonWord r w s
      | .ctx c => poisonCtx c s
      | .mapLine n => poisonMap n s
      | .record j => poisonRecord j s
      | .frame w q i b => poisonFrame w q i b s
      | _ => s

/-! ## Errors (R804, R805, R811–R814) -/

/-- Errors of a page or row within 24 h. -/
def histOf (s : State) (cls index part : Nat) (fixed : Bool) : Nat :=
  (s.mem.hist.filter fun h => decide (s.clk.now < h.1 + 86400 * sec) && decide (h.2.1 = cls) && decide (h.2.2.1 = index) && decide (h.2.2.2.1 = part) && h.2.2.2.2.1 = fixed).length

/-- The device to which corrections in four or more pages of a channel are confined within 24 h (Table 18.4). -/
def suspect (s : State) (cls index : Nat) : Option Nat :=
  (List.range 20).find? fun d =>
    let ps := ((s.mem.hist.filter fun h => decide (s.clk.now < h.1 + 86400 * sec) && decide (h.2.1 = cls) && decide (h.2.2.1 = index) && h.2.2.2.2.1 && decide (h.2.2.2.2.2 = d)).map fun h => h.2.2.2.1).eraseDups
    decide (4 ≤ ps.length)

/-- The history makes a location's fault lasting (Table 18.4): the device to blame where it is the last criterion. -/
def lastingBy (s : State) (cls index part : Nat) : Bool × Option Nat :=
  if cls < 8 then (decide (2 ≤ histOf s cls index part true + histOf s cls index part false), none)
  else if dramClass cls then
    if 2 ≤ histOf s cls index part false || 16 < histOf s cls index part true then (true, none)
    else match suspect s cls index with | some d => (true, some d) | none => (false, none)
  else (false, none)

/-- A record's result is lasting: it enters the fault list, and MEM.FAULT_LASTING is raised (R813, R816). -/
def setLasting (e : Nat) (dev : Option Nat) (s : State) : State :=
  let s := onLog e (fun r => { r with result := 2, device := dev.getD r.device }) s
  match logRec s e with
  | none => s
  | some r =>
    let s := s.onMem fun m => { m with faults := (if m.faults.length < 256 then m.faults else m.faults.drop 1) ++ [r] }
    let s := raise 834 (word e) (count1 6685 s)
    match dev with
    | some d => raise 835 (fld 3 0 r.cls ||| fld 15 8 r.index ||| fld 20 16 d) s
    | none => s

/-- Records of a location whose result was transient become lasting with a later error (R814). -/
def recheck (cls index part : Nat) (s : State) : State :=
  let (bad, dev) := lastingBy s cls index part
  if !bad then s
  else forAll ((s.mem.log.filter fun r => decide (r.cls = cls) && decide (r.index = index) && decide (partOf r.cls r.loc = part) && decide (r.result = 1)).map (·.eseq)) (fun e => setLasting e dev) s

/-- R804, R805, R808: an error that a read finds, or poison that a consumer meets. DESIGN CHOICE (log 178, unsafe). -/
def memError (e : MemErr) (s : State) : State :=
  let code := if e.kind = 3 then e.obj.code_ else 0
  let base := if dramClass e.cls then (if e.kind = 1 then 6658 else 6670) + e.index else if e.kind = 1 then 6656 else 6657
  let s := if e.kind = 3 then raise 833 (fld 3 0 e.cls ||| fld 15 8 e.index ||| fld 19 16 code) (count1 6682 s) else count1 base s
  let s := if e.kind = 2 then raise 832 (fld 3 0 e.cls ||| fld 15 8 e.index) s else s
  let part := partOf e.cls e.loc
  let s := if e.kind = 3 then s else s.onMem fun m =>
    { m with hist := (m.hist.filter fun h => decide (s.clk.now < h.1 + 86400 * sec)) ++ [(s.clk.now, e.cls, e.index, part, decide (e.kind = 1), e.device)] }
  let s := match foldInto s e.cls e.kind e.index e.loc with
    | some n => foldLog n s
    | none =>
      let (n, s) := newLog e.cls e.kind e.index e.loc e.syn code e.device s
      if e.kind = 3 then s else queueTest n e.cls e.index e.loc s.clk.now false s
  let s := if e.kind = 3 then s else recheck e.cls e.index part s
  if e.kind = 3 then consumed e.obj s
  else if e.kind = 2 then (match e.obj with | .block p i => poisonBlock p i s | .word r w => poisonWord r w s | _ => s)
  else s

/-- R804, R805, R808, R811: a memory error. -/
def execMemoryError (e : MemErr) (s : State) : Out :=
  .next (if !memClass e.cls || !indexOk e.cls e.index || classBytes e.cls ≤ e.loc || !(e.kind = 1 || e.kind = 2 || e.kind = 3) then s else memError e s)

/-! ## Self-tests (R814–R816) -/

/-- A front lane is out of service: the logical port that uses it is down. -/
def frontLaneFree (s : State) (lane : Nat) : Bool := !(s.lport (lane - lane % lanesPer s lane)).up

/-- A drive port is in service: READY, with a member that counts. -/
def portServes (s : State) (slot : Nat) : Bool :=
  decide ((s.port slot).st = .ready) && s.vol.sets.any fun v => v.2.members.any fun m => decide (m.2.slot = some slot) && !m.2.st.out

/-- The lane or port is in service. -/
def inService (s : State) (cls index loc : Nat) : Bool :=
  match cls with
  | 12 => !frontLaneFree s index
  | 13 => portLinked s (index / 2)
  | 14 => decide ((s.link loc).st = .active) && inGroup (s.link loc) index
  | 15 => portServes s index
  | _ => false

/-- A queued test may start: a lane's once the lane is out of service, a drive port's once its second has passed and the slot is ON. -/
def testMay (s : State) (t : SelfTest) : Bool :=
  !t.run && due t.since s.clk.now && (if t.cls = 15 then slotOn s t.index else !inService s t.cls t.index t.loc)

/-- Self-tests that run. -/
def runningTests (s : State) : Nat := (s.mem.tests.filter (·.run)).length

/-- R814, R815: a queued test starts; a drive port's takes the port out of service and retrains it. -/
def execSelftestStart (eseq : Nat) (s : State) : Out :=
  .next (match s.mem.tests.find? fun t => t.eseq = eseq && !t.run with
    | none => s
    | some t =>
      if !testMay s t || 16 ≤ runningTests s then s
      else
        let s := count1 6683 (s.onMem fun m => { m with tests := m.tests.map fun x => if x.eseq = eseq then { x with run := true } else x })
        let s := s.onMem fun m => { m with overTold := m.overTold && decide (256 ≤ (m.tests.filter fun t => !t.run).length) }
        if t.cls = 15 then linkGone t.index .training s else s)

/-- A test ends: a lane's eye and errors are noted, and the RESULT is lasting where the test or the history of Table 18.4 says so,
else transient; a commanded test completes its command. -/
def testEnds (t : SelfTest) (eseq : Nat) (r : TestEnd) (s : State) : State :=
  let s := s.onMem fun m => { m with tests := m.tests.filter fun x => x.eseq != eseq }
  let lane := decide (12 ≤ t.cls)
  let s := if lane then onLog eseq (fun x => { x with eye := if t.cls = 15 then 0 else min 65535 r.eye, errs := min 65535 r.errs }) s else s
  let (old, dev) := lastingBy s t.cls t.index (partOf t.cls t.loc)
  let bad := r.found || (lane && decide (r.errs ≠ 0)) || (lane && decide (t.cls ≠ 15) && r.eyeLow) || old
  let s := if bad then setLasting eseq (if r.found then none else dev) s else count1 6684 (onLog eseq (fun x => { x with result := 1 }) s)
  if t.cmd then finish (fun x => x.op = 0x0D0C && x.key = eseq) 840 stOk (word eseq) s else s

/-- R813, R814, R816: a test ends and sets its record's RESULT. -/
def execSelftestComplete (eseq : Nat) (r : TestEnd) (s : State) : Out :=
  .next (match s.mem.tests.find? fun t => t.eseq = eseq && t.run with
    | none => s
    | some t => testEnds t eseq r s)

/-- R815: a lane or port test has waited 10 minutes. DEDUCED (log 182, unsafe). -/
def execTriageTimeout (eseq : Nat) (s : State) : Out :=
  .next (match s.mem.tests.find? fun t => t.eseq = eseq && !t.run && decide (12 ≤ t.cls) with
    | none => s
    | some t =>
      if !due (t.since + 600 * sec) s.clk.now then s
      else
        let s := untested eseq (s.onMem fun m => { m with tests := m.tests.filter fun x => x.eseq != eseq })
        if t.cmd then finish (fun x => x.op = 0x0D0C && x.key = eseq) 840 stHwFault (word eseq) s else s)

/-! ## Scrubbing (R817–R821) -/

/-- Both scrubbers are paused (R821). -/
def scrubPaused (s : State) : Bool := s.md.patrolPaused || s.md.mode = .drowse

/-- Lines of an idle scrubber's part: a DRAM channel, or SRAM as part 12. -/
def idleLines (chan : Nat) : Nat := if chan < 12 then 134217728 else 2621440

/-- The idle scrubber reads a line of a part: the part's position moves on, and its lap ends at its last line. DEDUCED (log 185, unsafe). -/
def idleStep (chan : Nat) (s : State) : State :=
  let p := tabGet 0 s.mem.idlePos chan + 1
  let wrap := idleLines chan ≤ p
  count1 6689 (s.onMem fun m => { m with
    idlePos := tabIns m.idlePos chan (if wrap then 0 else p), lapped := if wrap then m.lapped ||| 2 ^ chan else m.lapped })

/-- R819, R820: the idle scrubber reads the next line of a channel, or the next SRAM unit. -/
def execIdleScrubRead (chan : Nat) (s : State) : Out :=
  .next (if 13 ≤ chan || !s.mem.idleOn || scrubPaused s then s else
    let s := idleStep chan s
    if s.mem.lapped ≠ 8191 then s
    else
      let t := (s.clk.now - s.mem.lapAt + sec - 1) / sec
      raise 837 (word t) (count1 6690 (s.onMem fun m => { m with lapped := 0, lapAt := s.clk.now, lapTime := t, laps := m.laps + 1 })))

/-- Lines that a range scrub has to read. -/
def scrubLines (cls : Nat) (x : Scrub) : Nat := x.length / 64 * (if x.index = 15 then (channelsOf cls).length else 1)

/-- Lines of a scrub's range that lie in pages or rows under self-test: the scrub goes past them, and returns to them (R818). -/
def heldLines (s : State) (cls : Nat) (x : Scrub) : Nat :=
  let ts := s.mem.tests.filter fun t => t.run && decide (t.cls = cls) && (decide (x.index = 15) || decide (t.index = x.index)) && decide (x.start ≤ t.loc) && decide (t.loc < x.start + x.length)
  ts.length * if cls < 8 then 8 else 64

/-- Lines that a scrub may have read by now: at no more than RATE, and none under self-test (R817, R818). -/
def scrubReach (s : State) (cls : Nat) (x : Scrub) : Nat := min (scrubLines cls x - heldLines s cls x) (x.rate * (s.clk.now - x.at_) / 64)

/-- R817: a range scrub reads its next lines: how many, corrected, newly uncorrectable and found poisoned, and the first
uncorrectable of the range. -/
def execScrubRangeRead (cls lines fixed bad old : Nat) (first : Option Nat) (s : State) : Out :=
  .next (match tabFind s.mem.scrubs cls with
    | none => s
    | some x =>
      if !x.running || scrubPaused s then s
      else
        let n := min lines (scrubReach s cls x - x.pos)
        let x := { x with pos := x.pos + n, lines := x.lines + n, fixed := x.fixed + fixed, bad := x.bad + bad, old := x.old + old, first := x.first.or first }
        let s := count 6688 n (s.onMem fun m => { m with scrubs := tabIns m.scrubs cls x })
        if x.pos < scrubLines cls x then s
        else
          let s := s.onMem fun m => { m with scrubs := tabUpd m.scrubs cls fun x => { x with running := false } }
          finish (fun r => r.op = 0x0D03 && r.key = cls) 836 stOk (fld 3 0 cls ||| fld 15 8 x.index) s)

/-! ## Commands (R826–R828) -/

/-- Spare pages left in a DRAM group (R822). -/
def sparePages (s : State) (cls : Nat) : Nat := 4096 - (s.mem.pages.filter fun p => p.1 = cls).length

/-- MEM.GET_STATUS (R828). -/
def deskMemGetStatus (_p : Packet) (s : State) : Desk :=
  answer [fld 12 0 s.mem.log.length ||| fld 20 16 (runningTests s), fld 12 0 (sparePages s 8) ||| fld 28 16 (sparePages s 9),
    fld 12 0 (sparePages s 10) ||| fld 24 16 s.mem.faults.length, word s.mem.eseq] s

/-- MEM.GET_STATUS (R828). -/
def execMemGetStatus (p : Packet) (s : State) : Out := letter 0x0D01 0 p s (deskMemGetStatus p)

/-- MEM.READ_LOG (R828). -/
def deskMemReadLog (p : Packet) (s : State) : Desk :=
  let n := bits 3 0 (p.w 3)
  let from_ := (p.w 2).toNat
  guardParam (clean (mask 3 0 ||| mask 8 8) (p.w 3) && decide (1 ≤ n) && decide (n ≤ 8)) s fun s =>
    let rs := (if bit 8 (p.w 3) then s.mem.faults.drop from_ else s.mem.log.filter fun r => decide (from_ ≤ r.eseq)).take n
    answer (word rs.length :: rs.flatMap LogRec.words) s

/-- MEM.READ_LOG (R828). -/
def execMemReadLog (p : Packet) (s : State) : Out := letter 0x0D02 2 p s (deskMemReadLog p)

/-- MEM.SCRUB_RANGE (R817, R818, Table 18.7). -/
def deskMemScrubRange (p : Packet) (s : State) : Desk :=
  let cls := bits 3 0 (p.w 2)
  let index := bits 11 8 (p.w 2)
  let start := (p.w 3).toNat + (p.w 4).toNat * 2 ^ 32
  let len := (p.w 5).toNat + (p.w 6).toNat * 2 ^ 32
  let rate := bits 7 0 (p.w 7)
  guardParam (clean (mask 3 0 ||| mask 11 8) (p.w 2) && clean (mask 7 0) (p.w 7) && memClass cls && (indexOk cls index || (dramClass cls && decide (index = 15)))
      && decide (start % 64 = 0) && decide (len % 64 = 0) && decide (0 < len) && decide (start + len ≤ classBytes cls) && decide (rate ≤ 50)) s fun s =>
    if (tabGet {} s.mem.scrubs cls).running then busyFree s
    else (stAccepted, [], accept p 0x0D03 cls 0 (s.onMem fun m => { m with
      scrubs := tabIns m.scrubs cls { running := true, index := index, start := start, length := len, rate := if rate = 0 then 10 else rate, at_ := s.clk.now } }))

/-- MEM.SCRUB_RANGE (R817, R827). -/
def execMemScrubRange (p : Packet) (s : State) : Out := letter 0x0D03 6 p s (deskMemScrubRange p)

/-- MEM.GET_SCRUB (R827). -/
def deskMemGetScrub (p : Packet) (s : State) : Desk :=
  let cls := bits 3 0 (p.w 2)
  guardParam (clean (mask 3 0) (p.w 2) && memClass cls) s fun s =>
    let x := tabGet {} s.mem.scrubs cls
    let f := x.first.getD 0
    answer (words2 x.lines ++ [word x.fixed, word x.bad, word x.old, word f, fld 7 0 (f / 2 ^ 32) ||| flag 30 x.running ||| flag 31 x.first.isSome]) s

/-- MEM.GET_SCRUB (R827). -/
def execMemGetScrub (p : Packet) (s : State) : Out := letter 0x0D04 1 p s (deskMemGetScrub p)

/-- MEM.SET_IDLE_SCRUB (R828). -/
def deskMemSetIdleScrub (p : Packet) (s : State) : Desk :=
  let f := bits 15 8 (p.w 2)
  guardParam (clean (mask 0 0 ||| mask 15 8) (p.w 2) && decide (1 ≤ f)) s fun s => okay (s.onMem fun m => { m with idleOn := bit 0 (p.w 2), floor := f })

/-- MEM.SET_IDLE_SCRUB (R828). -/
def execMemSetIdleScrub (p : Packet) (s : State) : Out := letter 0x0D05 1 p s (deskMemSetIdleScrub p)

/-- Lines read of the lap under way. -/
def lapLines (s : State) : Nat :=
  sumNat ((List.range 13).map fun c => if s.mem.lapped.testBit c then idleLines c else tabGet 0 s.mem.idlePos c)

/-- MEM.GET_IDLE_SCRUB (R828). -/
def deskMemGetIdleScrub (_p : Packet) (s : State) : Desk :=
  answer [word s.mem.lapTime, word s.mem.laps, fld 6 0 (lapLines s * 100 / (12 * 134217728 + 2621440)) ||| flag 8 s.mem.idleOn,
    fld 7 0 s.mem.floor ||| fld 31 8 (min 16777215 ((s.clk.now - s.mem.lapAt) / sec))] s

/-- MEM.GET_IDLE_SCRUB (R828). -/
def execMemGetIdleScrub (p : Packet) (s : State) : Out := letter 0x0D06 0 p s (deskMemGetIdleScrub p)

/-- The channel of a DRAM test window. -/
def windowChannel (w : Nat) : Nat := if w = 1 then 0 else if w = 2 then 8 else 10
/-- The class of a test window. -/
def windowClass (w : Nat) : Nat := if w = 0 then Config.testRegion.toNat % 6 else 7 + w
/-- The address of a test window, a whole page or a whole part of its region. DESIGN CHOICE (log 183, unsafe). -/
def windowAddr (w : Nat) : Nat := (Config.testWindow w).toNat % classBytes (windowClass w) / 4096 * 4096

/-- MEM.RETIRE_PAGE (R822, R823). -/
def deskMemRetirePage (p : Packet) (s : State) : Desk :=
  let cls := bits 3 0 (p.w 2)
  let ch := bits 11 8 (p.w 2)
  let addr := (p.w 3).toNat + (p.w 4).toNat * 2 ^ 32
  guardParam (clean (mask 3 0 ||| mask 11 8) (p.w 2) && dramClass cls && indexOk cls ch && decide (addr % 4096 = 0) && decide (addr < classBytes cls)) s fun s =>
  check (!(s.mem.pages.contains (cls, ch, addr)) && !((List.range 4).any fun w => decide (w ≠ 0) && decide (windowClass w = cls) && decide (windowChannel w = ch) && decide (windowAddr w = addr))) stConflict s fun s =>
  check (decide (0 < sparePages s cls)) stNoResource s fun s =>
    let s := count1 6691 (s.onMem fun m => { m with pages := m.pages ++ [(cls, ch, addr)] })
    let s := doIf (sparePages s cls = 409) (raise 838 (fld 3 0 cls ||| fld 15 8 ch)) s
    answer [word (sparePages s cls)] s

/-- MEM.RETIRE_PAGE (R828). -/
def execMemRetirePage (p : Packet) (s : State) : Out := letter 0x0D07 3 p s (deskMemRetirePage p)

/-- Spare rows left in the macro of a row (R824). -/
def spareRows (s : State) (cls row : Nat) : Nat := 4 - (s.mem.rows.filter fun r => decide (r.1 = cls) && decide (r.2 / 512 = row / 512)).length

/-- MEM.RETIRE_ROW (R824). -/
def deskMemRetireRow (p : Packet) (s : State) : Desk :=
  let cls := bits 3 0 (p.w 2)
  let row := bits 18 0 (p.w 3)
  guardParam (clean (mask 3 0) (p.w 2) && clean (mask 18 0) (p.w 3) && decide (cls ≤ 5) && decide (row < classBytes cls / 512)) s fun s =>
  check (decide (0 < spareRows s cls row)) stNoResource s fun s =>
    let s := count1 6692 (s.onMem fun m => { m with rows := m.rows ++ [(cls, row)] })
    answer [word (spareRows s cls row)] s

/-- MEM.RETIRE_ROW (R828). -/
def execMemRetireRow (p : Packet) (s : State) : Out := letter 0x0D08 2 p s (deskMemRetireRow p)

/-- An access to a test window is logged with KIND 6 and counted (R811, R825). -/
def logWindow (w off : Nat) (syn : Nat) (s : State) : State :=
  let ch := if w = 0 then 0 else windowChannel w
  let s := count1 6696 s
  match foldInto s (windowClass w) 6 ch (windowAddr w + off) with
  | some e => foldLog e s
  | none => (newLog (windowClass w) 6 ch (windowAddr w + off) syn 0 31 s).2

/-- Data words of a test unit: data and check bits (R828). -/
def windowWords (w : Nat) : Nat := if w = 0 then 27 else 20

/-- MEM.TEST_WRITE (R825, R828). -/
def deskMemTestWrite (p : Packet) (s : State) : Desk :=
  let w := bits 13 12 (p.w 2)
  let off := bits 11 0 (p.w 3)
  check (decide (bits 10 0 (p.w 2) = windowWords w)) stBadLength s fun s =>
  guardParam (clean (mask 10 0 ||| mask 13 12) (p.w 2) && clean (mask 11 0 ||| mask 16 16) (p.w 3) && decide (off % 64 = 0)) s fun s =>
    let ws := p.data 2
    okay (logWindow w off 0 (s.onMem fun m => { m with windows := tabIns m.windows (w * 64 + off / 64) ⟨ws.take 16, ws.drop 16, bit 16 (p.w 3)⟩ }))

/-- MEM.TEST_WRITE (R828). -/
def execMemTestWrite (p : Packet) (s : State) : Out := letterData 0x0D09 2 (bits 10 0 (p.w 2)) p s (deskMemTestWrite p)

/-- A test window's unit; one not yet written holds zeros with their check bits. -/
def windowUnit (s : State) (w u : Nat) : TestUnit :=
  match tabFind s.mem.windows (w * 64 + u) with
  | some x => x
  | none => ⟨List.replicate 16 0, checkWords (w = 0) (List.replicate 16 0), false⟩

/-- What the decoder makes of a unit: outcome, syndrome, data. -/
def decodeUnit (s : State) (w u : Nat) : Nat × Word × List Word :=
  let x := windowUnit s w u
  let (o, syn, d) := decodeWords (w = 0) x.data x.checkb
  if x.poison then (3, syn, x.data) else (o, syn, d)

/-- MEM.TEST_READ (R825, R828): a correction is written back, and an uncorrectable unit is poisoned (R804, R805). -/
def deskMemTestRead (p : Packet) (s : State) : Desk :=
  let w := bits 13 12 (p.w 2)
  let off := bits 11 0 (p.w 2)
  guardParam (clean (mask 13 0) (p.w 2) && decide (off % 64 = 0)) s fun s =>
    let u := off / 64
    let x := windowUnit s w u
    let (o, syn, d) := decodeUnit s w u
    let put := fun (y : TestUnit) (s : State) => s.onMem fun m => { m with windows := tabIns m.windows (w * 64 + u) y }
    let s := if o = 1 then put ⟨d, checkWords (w = 0) d, false⟩ s else if o = 2 then put { x with poison := true } s else s
    answer ([fld 1 0 o, syn] ++ d ++ x.checkb) (logWindow w off syn.toNat s)

/-- MEM.TEST_READ (R828). -/
def execMemTestRead (p : Packet) (s : State) : Out := letter 0x0D0A 1 p s (deskMemTestRead p)

/-- Every set of a namespace's list serves, so its map copies can be read (R456). -/
def copiesRead (s : State) (n : Ns) : Bool := n.sets.all fun i => match s.vset i with | some v => v.st != .offline && !v.recover | none => false

/-- MEM.RELOAD_MAP (R828). DEDUCED (log 184, unsafe). -/
def deskMemReloadMap (p : Packet) (s : State) : Desk :=
  let nsid := bits 12 0 (p.w 2)
  guardParam (nsidOk (p.w 2) 0) s fun s =>
  withNs nsid s fun n s =>
  check (n.ro && s.vol.lost.contains nsid) stConflict s fun s =>
  check (copiesRead s n) stIntegrity s fun s =>
    let sealed_ := decide (n.enc = 2) && decide (2 ^ 40 ≤ (s.slotOf (nsid - 1)).invoc)
    okay (shadow .stateWrite 6 nsid (onNs nsid (fun n => { n with ro := sealed_ }) (s.onVol fun v => { v with lost := v.lost.erase nsid })))

/-- MEM.RELOAD_MAP (R828). -/
def execMemReloadMap (p : Packet) (s : State) : Out := letter 0x0D0B 1 p s (deskMemReloadMap p)

/-- The location names a part of its class. -/
def locOk (cls index loc : Nat) : Bool :=
  if memClass cls then indexOk cls index && decide (loc < classBytes cls)
  else match cls with
    | 12 => decide (index < 32) && decide (loc = 0)
    | 13 => decide (index < 48) && decide (loc = 0)
    | 14 => decide (loc < 3) && decide (index < lanesOf loc)
    | 15 => decide (index < 24) && decide (loc = 0)
    | _ => false

/-- MEM.RUN_SELFTEST (R828). The KIND of a commanded memory test's record is a free value; lanes and ports have their own. -/
def deskMemRunSelftest (p : Packet) (s : State) : Desk :=
  let cls := bits 3 0 (p.w 2)
  let index := bits 15 8 (p.w 2)
  let loc := (p.w 3).toNat + (p.w 4).toNat * 2 ^ 32
  guardParam (clean (mask 3 0 ||| mask 15 8) (p.w 2) && clean (mask 7 0) (p.w 4) && locOk cls index loc) s fun s =>
  check (!inService s cls index loc) stConflict s fun s =>
  check (decide (waitingTests s < 256)) stNoResource s fun s =>
    let (v, s) := takeFree s
    let (e, s) := newLog cls (if cls = 15 then 5 else if 12 ≤ cls then 4 else v.toNat % 8) index loc 0 0 31 s
    (stAccepted, [], accept p 0x0D0C e 0 (queueTest e cls index loc s.clk.now true s))

/-- MEM.RUN_SELFTEST (R828). -/
def execMemRunSelftest (p : Packet) (s : State) : Out := letter 0x0D0C 3 p s (deskMemRunSelftest p)

end Sys2Proof.Machine
end

