-- ==== Sys2Proof/Machine/Shadow.lean ====
section
/-! DEFINITION. What a partner does with the records of a shadowing session: it places them in its own desks and memory and
postmarks them (R715, R716, R730–R733, R762, Tables 15.10–15.12 and 16.1). -/
namespace Sys2Proof.Machine

/-! ## Sessions at the partner -/

/-- This module places shadow records: a standby, fenced or booting partner (R731, R762), or the former active of a planned
take-over (R756 step 4). -/
def takesShadow (s : State) : Bool :=
  (s.link 0).st = .active
    && (s.md.mode = .standby || s.md.mode = .fenced || (s.md.mode = .boot && s.step6) || s.pair.take = some .forward)

/-- The partner discards its own volatile state at the start of a resynchronisation (R762). -/
def discardVolatile (s : State) : State :=
  { s with
    xpt := {}, nvm := {}, wbf := { image := s.wbf.image, rings := s.wbf.rings },
    vol := { s.vol with older := [], changes := [], waits := [], quar := [], mig := none, lines := [], fills := [] },
    drv := { s.drv with cmds := [], recons := [], passes := [] },
    pair := { s.pair with horizon := [], layout := [], rel := [], est := [], held := [], planned := false } }

/-- A session begins with PSEQ 1 (R714, R733). The feed of a new active after a planned take-over goes on from the shadow that its
partner has; any other starts a resynchronisation, and a fenced module enters Standby (Table 4.5). How the partner learns SHSESS is not said: it is a free value here. -/
def startFeed (s : State) : State :=
  let s := if s.pair.rxOn && s.pair.rxseq = 0 then s else (discardVolatile s).onPair fun p => { p with current := false }
  let (q, s) := drawSess s
  let s := s.onPair fun p => { p with sess := q, rxOn := true, rxseq := 0, rxNew := 0, stuck := false }
  if s.md.mode = .fenced then changeMode .standby s else s

/-- A record that has come: its credits are freed; it is placed in PSEQ order and postmarked. From the first record that could not
be placed, nothing is postmarked (R715, R732). -/
def placeRecord (seq vc len : Nat) (placed : Bool) (f : State → State) (s : State) : State :=
  let s := freeCredits 0 vc len s
  if !takesShadow s then s
  else
    let s := if seq = 1 then startFeed s else s
    if !s.pair.rxOn || s.pair.stuck || seq ≠ s.pair.rxseq + 1 then s
    else if !placed then s.onPair fun p => { p with stuck := true }
    else
      let s := f s
      s.onPair fun p => { p with rxseq := seq, rxNew := p.rxNew + 1, rxAt := if p.rxNew = 0 then s.clk.now else p.rxAt }

/-! ## Letterbox commands applied (Table 15.10, kind 2) -/

/-- The desk of a command whose effect the standby derives (R730). -/
def derivedDesk (op : Nat) (p : Packet) (s : State) : Desk :=
  match op with
  | 0x0101 => deskPwrSetSlotLimits p s | 0x0105 => deskPwrSetBudget p s
  | 0x0201 => deskNetSetPortMode p s | 0x0203 => deskNetSetPortAddr p s | 0x0204 => deskNetSetClassMap p s
  | 0x0205 => deskNetSetQueue p s | 0x0208 => deskNetSetBuffer p s | 0x0209 => deskNetSetFlow p s
  | 0x020A => deskNetDeleteFlow p s | 0x020C => deskNetSetMirror p s | 0x020D => deskNetSetDeadLetter p s
  | 0x020F => deskNetSetPtp p s
  | 0x0301 => deskQosSetPolicer p s | 0x0302 => deskQosSetSubscriber p s | 0x0304 => deskQosSetColourMap p s
  | 0x0305 => deskQosSetNode p s | 0x0306 => deskQosSetPortShaper p s | 0x0307 => deskQosSetGateList p s
  | 0x030A => deskQosSetWatch p s
  | 0x0401 => deskXptSetRdmaPorts p s | 0x0402 => deskXptSetRdmaParams p s | 0x0403 => deskXptSetRelease p s
  | 0x0407 => deskXptDeleteRegion p s | 0x0408 => deskXptGrantRegion p s
  | 0x040B => deskXptSetTcpPorts p s | 0x040C => deskXptSetTcpParams p s | 0x040D => deskXptSetTls p s
  | 0x040E => deskXptSetPool p s
  | 0x0501 => deskNvmSetSubsystem p s | 0x0503 => deskNvmSetHost p s | 0x0504 => deskNvmDeleteHost p s
  | 0x0506 => deskNvmSetHostSecret p s | 0x0509 => deskNvmSetTagLimit p s
  | 0x0604 => deskVolSetReserve p s | 0x0608 => deskVolSetNsPolicy p s | 0x060D => deskVolSetNsDefaults p s
  | 0x0701 => deskWbfSetPolicy p s | 0x0801 => deskRedSetPolicy p s | 0x080A => deskRedClearBadRanges p s
  | 0x0901 => deskDrvSetPort p s | 0x0B03 => deskPairSetPolicy p s
  | _ => okay s

/-! ## State writes (Table 15.10 kind 3, Table 16.1) -/

/-- Put an object into a table, or take it out. -/
def putOpt {α : Type} (t : Tab α) (k : Nat) : Option α → Tab α
  | some x => tabIns t k x
  | none => tabDel t k

/-- Bytes that a laid-out PDU takes in the send stream, with its TLS records (R738). -/
def LaidPdu.size (p : LaidPdu) (x : Ctx) : Nat :=
  let n := if p.kind = 1 then 128 else pduBytes { x with hdgst := p.hdgst, ddgst := p.ddgst } 24 p.len
  n + if x.tlsOn then 22 * tlsRecords n else 0

/-- A PDU that the active has laid out takes its place in the send stream, once (R738, R751); a read's data comes as the read is executed
again. -/
def placePdu (first : Nat) (p : LaidPdu) (m : OutMsg) (x : Ctx) : Ctx :=
  let fin := (first + p.size x) % 2 ^ 32
  if x.pdus.any fun q => q.first = first then { x with pdus := x.pdus.map fun q => if q.first = first && p.kind = 5 then { q with msg := m } else q }
  else { x with laid := fin, sndNxt := fin, tlsTx := x.tlsTx + if x.tlsOn then tlsRecords (p.size x) else 0,
                pdus := x.pdus ++ [⟨first, p.size x, some (p.tag, p.gen), p.off, if p.kind = 7 then p.len else 0, 0, none, { m with c := fin }⟩] }

/-- The PDUs of a layout record, in stream order. -/
def placePdus (c first : Nat) (ps : List LaidPdu) (x : Ctx) : Ctx :=
  (ps.foldl (fun (a : Nat × Ctx) p =>
    let cid := (a.2.held.find? fun h => h.tag = some (p.tag, p.gen)).elim 0 (·.cid)
    let m : OutMsg := match p.kind with
      | 7 => { kind := .hostData, a := c, b := cid, ws := [word p.off, word p.len] }
      | 9 => { kind := .r2t, a := c, b := p.tag, ws := [word p.off, word p.len] }
      | 1 => { kind := .icResp, a := c, b := a.2.h2c * 4096, ws := [flag 0 p.hdgst ||| flag 1 p.ddgst] }
      | _ => { kind := .segment, a := c }
    ((a.1 + p.size a.2) % 2 ^ 32, placePdu a.1 p m a.2)) (first, x)).2

/-- A release record (Table 16.1): the command has ended, and its completion takes its place in the send stream. DEDUCED (log 163, unsafe). -/
def placeRelease (c tag gen : Nat) (status : NvStatus) (psn : Nat) (s : State) : State :=
  let s := match s.cmdOf tag with
    | some k => if k.gen = gen then freeTag tag k s else s
    | none => s
  let s := onCtx c (fun x =>
    let h := x.held.find? fun h => h.tag = some (tag, gen)
    let m : OutMsg := { kind := .capsuleResp, a := c, b := h.elim 0 (·.cid), ws := [0, word ((h.bind (·.inv)).getD 0), flag 0 (h.bind (·.inv)).isSome, 0],
                        ds := [status.ctorIdx] }
    let x := { x with held := x.held.filter fun h => h.tag ≠ some (tag, gen) }
    if x.tcp then placePdu psn ⟨5, x.hdgst, x.ddgst, tag, gen, 0, 0⟩ m x
    else { x with sends := x.sends ++ [(psn, m)], sent := x.sent ++ [⟨psn, none⟩],
                  npsn := if psnDiff psn x.npsn < 2 ^ 23 then (psn + 1) % 2 ^ 24 else x.npsn }) s
  s.onPair fun p => { p with rel := tabIns p.rel tag (c, psn) }

/-- The configuration of the Sorting Office from another module, whose clock is ahead by `off`; what its own links and frames are stays.
The other's PTP time is taken at the own base (R213). -/
def mergeNet (off : Int) (own n : Net) : Net :=
  { own with
    cages := tabMap n.cages fun k c => { (tabGet {} own.cages k : Cage) with mode := c.mode },
    lports := tabMap n.lports fun k l =>
      let o : LPort := tabGet {} own.lports k
      { l with up := o.up, paused := o.paused, xoff := o.xoff },
    ecns := n.ecns, pend := n.pend, dlCells := n.dlCells, mirCells := n.mirCells, qmin := n.qmin, headroom := n.headroom, alpha := n.alpha,
    xoff := n.xoff, xon := n.xon, flows := n.flows, epoch := n.epoch, mirrors := n.mirrors, dlEnable := n.dlEnable, dlRing := n.dlRing,
    dlTrunc := n.dlTrunc,
    ptp := { own.ptp with domain := n.ptp.domain, enable := n.ptp.enable, transport := n.ptp.transport, ports := n.ptp.ports,
                          ns := n.ptp.ns + ((own.ptp.base : Int) + off - n.ptp.base), freq := n.ptp.freq } }

/-- The registers of the XPT desk from another module; contexts and regions are objects of their own. -/
def mergeXpt (own x : Xpt) : Xpt :=
  { x with ctxs := own.ctxs, regions := own.regions, denied := own.denied, store := own.store, storeTold := own.storeTold, syns := own.syns,
           synTold := own.synTold, poolTold := own.poolTold, fillq := own.fillq, dropAt := own.dropAt, hsq := own.hsq, admq := own.admq, admTold := own.admTold }

/-- The registers of the NVM desk from another module; hosts, controllers and commands are objects of their own. -/
def mergeNvm (own n : Nvm) : Nvm :=
  { n with hosts := own.hosts, ctrls := own.ctrls, tags := own.tags, refusedAt := own.refusedAt }

/-- The registers of the WBF desk from another module; pages and records are mirrored. -/
def mergeWbf (own w : Wbf) : Wbf :=
  { w with pages := own.pages, bins := own.bins, recs := own.recs, rings := own.rings, highOn := own.highOn, escal := own.escal, space := own.space,
           waits := own.waits, image := own.image, ackAt := own.ackAt }

/-- Apply a state write; a gate list that it brings is kept as configuration (R253). DESIGN CHOICE (log 153, unsafe). -/
def applyWrite (w : StateWrite) (s : State) : State :=
  match w with
  | .release c tag gen status psn => silently (placeRelease c tag gen status psn) s
  | .horizon c h => s.onPair fun p => { p with horizon := tabIns p.horizon c (h, 0) }
  | .layout c first bytes ps =>
    onCtx c (fun x => if x.tcp then placePdus c first ps x else x)
      (s.onPair fun p => { p with layout := tabIns p.layout c ((first + bytes) % 2 ^ 32, 0) })
  | .handover term _ => s.onPair fun p => { p with planned := true, term := term }
  | .ctx c x => s.onXpt fun d => { d with ctxs := putOpt d.ctxs c x }
  | .region i r => s.onXpt fun d => { d with regions := putOpt d.regions i r }
  | .host i h => s.onNvm fun d => { d with hosts := putOpt d.hosts i h }
  | .ctrl n c => s.onNvm fun d => { d with ctrls := putOpt d.ctrls n c }
  | .cmd t c => s.onNvm fun d => { d with tags := putOpt d.tags t c, order := match c with | some k => max d.order k.order | none => d.order }
  | .ns i n => s.onVol fun d => { d with ns := putOpt d.ns i n }
  | .vset i v => s.onVol fun d => { d with sets := putOpt d.sets i v }
  | .spare k x => s.onVol fun d => { d with spares := putOpt d.spares k x }
  | .key i k => s.onKey fun d => { d with slots := putOpt d.slots i k }
  | .net n => s.onNet fun own => mergeNet s.links.timeOff own n
  | .qos q => s.onQos fun own => { q with estAt := own.estAt, tickAt := own.tickAt, ports := tabMap q.ports fun _ p => { p with gate := p.gate.kept } }
  | .xpt x => s.onXpt fun own => mergeXpt own x
  | .nvm n => s.onNvm fun own => mergeNvm own n
  | .wbf w => s.onWbf fun own => mergeWbf own w
  | .limits k l => s.onPwr fun d => { d with slots := tabMod {} d.slots k fun x => { x with set := l, act := { x.act with ilim := l.ilim, ifast := l.ifast } } }
  | .budget w => s.onPwr fun d => { d with budget := w }
  | .stack r => s.onStk fun k => { k with record := r }
  | .latency k q t => s.onPair fun p => { p with est := tabIns p.est k (s.clk.now, q, t) }
  | .other _ _ _ _ => s

/-! ## The three records -/

/-- What a SHADOW_PACKET brings to the standby's desks (R730). A frame for Kumel brings nothing by itself: what Kumel makes of it
follows as state writes. -/
def placeShadow (b : ShadowBody) (s : State) : State :=
  match b with
  | .packet c k => silently (packetNow c k) s
  | .capsule op c =>
    silently (fun s =>
      let s := takeCapsule c.ctx s
      if (s.ctx c.ctx).st != .ready || (s.ctx c.ctx).ctrl.isNone then s else admitCmd ⟨op, c⟩ s) s
  | .frame _ _ => s
  | .letter op p status =>
    if status = stOk || status = stAccepted then silently (fun s => (derivedDesk op { p with door := 3 } s).2.2) s else s
  | .write w => applyWrite w s

/-- R715, R730: a SHADOW_PACKET; `placed` is that its CRC passed and that the module could place it. DESIGN CHOICE (log 159, unsafe). -/
def execShadowPacket (seq len : Nat) (placed : Bool) (body : ShadowBody) (s : State) : Out :=
  .next (placeRecord seq 1 len placed (placeShadow body) s)

/-- Mirrored blocks enter their page: a block of an older command replaces none of a newer one (R520). -/
def mirrorPage (m : MirrorIn) (s : State) : State :=
  let per := match s.nsOf m.nsid with | some n => perSpan n | none => 1
  let span := if m.nsid = 0 then m.lba else m.lba / per
  let at_ := if m.nsid = 0 then m.lba % 2 ^ 40 * 4096
    else match (s.nsOf m.nsid).bind fun n => spanByte n span with | some (_, x) => x | none => 0
  let fresh := match s.page m.page with | some p => decide (p.ns ≠ m.nsid) || decide (p.span ≠ span) | none => true
  let s := if fresh then
      let v := s.wbf.ver + 1
      let g : Page := { ns := m.nsid, span := span, st := .reserved, set := m.set, stripe := m.stripe, byte := at_, ver := v }
      s.onWbf fun w => { w with ver := v, pages := tabIns w.pages m.page g }
    else onPage m.page (fun p => { p with set := m.set, stripe := m.stripe, byte := at_ }) s
  forAll m.blks (fun b s => putBlk m.page b.1 ⟨b.2.1.d, b.2.1.pi, b.2.2.1, b.2.2.2, m.order, false⟩ s) s

/-- R522, R715: a MIRROR_WRITE. -/
def execMirrorWrite (seq len : Nat) (placed : Bool) (m : MirrorIn) (s : State) : Out :=
  .next (placeRecord seq 2 len placed (mirrorPage m) s)

/-- A journal record that the active opened: the pages of its bin are in it, and queued (R534, R543). -/
def openMirrored (r : JWire) (s : State) : State :=
  let ps := (s.wbf.pages.filter fun e => e.2.set = r.set && e.2.stripe = r.stripe && e.2.st != .reserved).map (·.1)
  let s := forAll ps (fun p s => onPage p (fun x => { x with st := .queued }) s) s
  let x : JRec :=
    { set := r.set, stripe := r.stripe, method := r.method, poison := r.poison, gen := r.gen, cls := 5,
      spans := r.spans.foldl (fun t e => tabIns t e.1 ⟨e.2.1, e.2.2, []⟩) [], pages := ps, homes := [], seq := none, reads := [], old := [], writes := [],
      logs := 0, stage := 0 }
  s.onWbf fun w => { w with
    jseq := max w.jseq r.jseq, bins := w.bins.filter fun b => !(b.set = r.set && b.stripe = r.stripe), recs := tabIns w.recs r.jseq x }

/-- A journal record that the active retired: a page of it that is still there holds data newer than the record's. -/
def retireMirrored (j : Nat) (s : State) : State :=
  match s.rec_ j with
  | none => s
  | some r =>
    let s := forAll r.pages (fun p s => onPage p (fun x => if x.st = .queued then { x with st := .dirty } else x) s) s
    let s := s.onVol fun v => { v with quar := v.quar.map fun q => { q with recs := q.recs.erase j } }
    s.onWbf fun w => { w with recs := tabDel w.recs j }

/-- A leaf of the map (Table 10.5): its index is backed by the parcel, or by none. A parcel that it no longer names is quarantined as
at the active (R472). -/
def placeLeaf (nsid i w0 w1 : Nat) (s : State) : State :=
  let old := (s.nsOf nsid).bind fun n => leafOf n i
  let k := w0 / 2 ^ 23 % 32
  let p := w0 % 2 ^ 23
  let s := match old with
    | some l => if l.set = k && l.parcel = p && w0.testBit 28 then s else returnParcel nsid i s
    | none => s
  if !w0.testBit 28 then s
  else
    let l : Leaf := { set := k, parcel := p, moving := w0.testBit 29, wmap := w1 % 2 ^ 24, written := match old with | some l => l.written | none => 0 }
    onSet k (fun v => { v with parcels := tabIns v.parcels p true }) (onNs nsid (fun n => { n with map := tabIns n.map i l }) s)

/-- Apply one item of a MIRROR_STATE (Table 15.12). DEDUCED (log 162, unsafe). -/
def mirrorItem (x : MirrorItem) (s : State) : State :=
  match x with
  | .pageFree ps => forAll ps freePage s
  | .pageBin p set_ stripe =>
    onPage p (fun g =>
      let b := if g.ns = 0 then none else (s.nsOf g.ns).bind fun n => spanByte n g.span
      { g with set := set_, stripe := stripe, byte := match b with | some (_, y) => y | none => g.byte }) s
  | .journalOpen r => openMirrored r s
  | .journalRetire js => forAll js retireMirrored s
  | .leaf nsid i w0 w1 => placeLeaf nsid i w0 w1 s
  | .written nsid i j v =>
    onNs nsid (fun n => { n with map := tabUpd n.map i fun l =>
      { l with written := l.written - (l.written / 2 ^ (32 * j) % 2 ^ 32) * 2 ^ (32 * j) + (v % 2 ^ 32) * 2 ^ (32 * j) } }) s
  | .drlBit set_ k r =>
    onSet set_ (fun v => { v with logs := tabUpd v.logs k fun l => { l with bits := if l.bits.contains r then l.bits else l.bits ++ [r] } }) s
  | .nonce bay core stop => s.onKey fun d => { d with ends := tabIns d.ends (48 * (bay % 2) + core) stop }
  | .invocation i n => onKslot i (fun k => { k with invoc := n, saved := if k.saved < n then k.saved + 2 ^ 30 else k.saved }) s

/-- R715, R721: a MIRROR_STATE; its items apply in order. -/
def execMirrorState (seq len : Nat) (placed : Bool) (items : List MirrorItem) (s : State) : Out :=
  .next (placeRecord seq 2 len placed (fun s => silently (forAll items mirrorItem) s) s)

end Sys2Proof.Machine
end

