-- ==== Sys2Proof/Machine/Upd.lean ====
section
/-! DEFINITION. The UPD desk (chapter 22): sessions, verification, activation, and passing an image on. -/
namespace Sys2Proof.Machine

/-! ## Checks (Table 22.4) -/

/-- Data is moving on the module (check 8). -/
def updMoving (s : State) : Bool := dataMoving s || s.key.slots.any fun e => e.2.st = .rotating

/-- Checks 6 to 8, which activation makes too (R912, R914): the status of the first that fails. -/
def lateChecks (s : State) : Option Nat :=
  if s.upd.ownLock then some stRefusedLocked
  else if s.res.low || !s.fe.f1.good || !s.fe.f2.good then some stRefusedReserve
  else if updMoving s then some stRefusedMoving
  else none

/-- A propagation still uses the staged delta. -/
def stagedInUse (s : State) : Bool := match s.upd.sess with | some x => decide (x.phase = 4) | none => false

/-- The checks of Table 22.4 in order: the status of the first that fails. At HOLD_FLASH no bank runs, so that only a FULL
delta passes check 4, and checks 6 to 8 are not made (Table 22.6). -/
def headChecks (ws : List Word) (s : State) : Option Nat :=
  let h := headOf ws
  let rom := decide (s.md.stage = .holdFlash)
  if !headSane ws then some stIntegrity
  else if !headSigned s h then some stIntegrity
  else if !h.orders.testBit s.order then some stConflict
  else if !h.full && (rom || decide (h.base ≠ bankHash s s.upd.run)) then some stConflict
  else if sessionRuns s || stagedInUse s then some stConflict
  else if rom then none
  else lateChecks s

/-- A session starts (R909). DEDUCED (log 186, unsafe). -/
def startSession (h : ExaelHead) (src : Nat) (orig : Option (Nat × Nat)) (s : State) : State :=
  let x : Session := { head := h, src := src, rcvd := 0, ops := [], inOp := none, built := 0, ended := false, phase := 1, orig := orig }
  let s := s.onUpd fun u => { u with sess := some x, staged := none, offered := [], mask := 0, prop := none }
  raise 896 (word src) (count1 7168 (onBank s.spare (fun _ => { st := .writing }) s))

/-! ## Verification (R910, R911, R917) -/

/-- The result of a session that a neighbour started goes to ORIGMOD (R917). -/
def reportResult (x : Session) (status : Nat) (s : State) : State :=
  match x.orig with
  | none => s
  | some (orig, _) => sendTo (orig / 2) { kind := .fwResult, a := orig, b := status, c := s.modnum } s

/-- A delta fails (R910, R911): the bank is INVALID, and UPD.VERIFY_FAILED completes a UPD.FINISH with INTEGRITY. -/
def failSession (x : Session) (s : State) : State :=
  let s := finish (fun r => r.op = 0x0E04) 898 stIntegrity (word x.src) (count1 7170 (dropSession s))
  reportResult x stIntegrity s

/-- Op words arrive (R910): the session with them applied, or none where they break the delta. -/
def takeOps (x : Session) (ws : List Word) (s : State) : Option State :=
  let k := s.spare
  let s := count 7169 ws.length s
  (opWords (bankImage s s.upd.run) ws (x, (s.bankOf k).image)).map fun y =>
    onBank k (fun b => { b with image := y.2 }) (s.onUpd fun u => { u with sess := some y.1 })

/-- Offer the staged delta on a link (Table 22.5). -/
def offerOn (h : ExaelHead) (orig scope k : Nat) (s : State) : State :=
  if (s.link k).st != .active then s
  else linkSend k { kind := .offer, a := orig, b := scope, ws := (fld 3 0 orig ||| fld 5 4 scope) :: h.words } (s.onUpd fun u => { u with offered := u.offered ++ [k] })

/-- The verified image is handed on: a neighbour's session reports its result, and with SCOPE 2 offers the delta onward. -/
def passOn (x : Session) (s : State) : State :=
  let s := doIf (x.src ≠ 0) (count1 7173) (reportResult x stOk s)
  match x.orig with
  | some (orig, 2) => forAll ([0, 1, 2].filter fun k => k + 1 ≠ x.src) (offerOn x.head orig 2) s
  | _ => s

/-- R907, R911: the bank's hash ends. A match writes the trailer, and the bank is VERIFIED; at HOLD_FLASH it is booted at once
(Table 22.6). -/
def execUpdVerifyDone (s : State) : Out :=
  .next (match s.upd.sess with
    | none => s
    | some x =>
      if x.phase ≠ 2 then s
      else if !(x.ended && decide (x.rcvd = x.head.opwords) && decide (Config.sha384 (s.bankOf s.spare).image = x.head.target)) then failSession x s
      else
        let s := onBank s.spare (fun b => { b with st := .verified, head := some x.head }) s
        let s := s.onUpd fun u => { u with sess := some { x with phase := 3 }, staged := some (x.head, x.ops) }
        let s := finish (fun r => r.op = 0x0E04) 897 stOk (word x.head.fwver) s
        if s.md.stage = .holdFlash then restartRunning .update (s.onUpd fun u => { u with pref := s.spare, trial := false, newBoot := 1 })
        else passOn x s)

/-! ## Passing an image on (R916–R918) -/

/-- UPD.PROPAGATED completes UPD.PROPAGATE with the mask of the modules that reported OK or ALREADY. -/
def endPropagation (s : State) : State :=
  let m := s.upd.mask
  let s := s.onUpd fun u => { u with prop := none, sess := u.sess.map fun x => if x.phase = 4 then { x with phase := 3 } else x }
  finish (fun r => r.op = 0x0E06) 900 stOk (fld 15 0 m) s

/-- Modules of a set are all in another. -/
def covered (wanted done : Nat) : Bool := wanted &&& done == wanted

/-- Note what module `n` has reported (R918). -/
def noteModule (n : Nat) (good : Bool) (s : State) : State :=
  match s.upd.prop with
  | none => s
  | some (scope, want, done, at_) =>
    let done := done ||| 2 ^ n
    let s := s.onUpd fun u => { u with prop := some (scope, want, done, at_), mask := if good then u.mask ||| 2 ^ n else u.mask }
    if covered want done then endPropagation s else s

/-- The bank's image is the one that a header names. -/
def hasTarget (s : State) (h : ExaelHead) (k : Nat) : Bool :=
  ((s.bankOf k).st = .running || (s.bankOf k).st = .verified) && decide (bankHash s k = h.target)

/-- R917: an OFFER on a link is answered ALREADY, refused, or starts a session. -/
def execFirmwareOffer (link orig scope : Nat) (ws : List Word) (s : State) : Out :=
  .next (if 2 < link || (s.link link).st != .active || s.md.kumel != .running then s else
    let h := headOf ws
    let reply := fun (st : Nat) (already : Bool) (s : State) => linkSend link { kind := .offerAnswer, a := link, ws := [fld 15 0 st ||| flag 16 already] } s
    if hasTarget s h 0 || hasTarget s h 1 then reply stOk true s
    else match headChecks ws s with
      | some st => reply st false (raise 902 (fld 15 0 st ||| fld 18 16 (link + 1)) (count1 7174 s))
      | none => reply stOk false (startSession h (link + 1) (some (orig % 16, scope % 4)) s))

/-- The op words of a delta as DATA messages, and END. -/
def sendDelta (k : Nat) (d : ExaelHead × List Word) (s : State) : State :=
  let s := forAll (List.range ((d.2.length + 1023) / 1024)) (fun i s =>
    linkSend k { kind := .fwData, a := k, b := 1024 * i, ws := word (1024 * i) :: (d.2.drop (1024 * i)).take 1024 } s) s
  linkSend k { kind := .fwEnd, a := k, b := d.1.opwords, ws := [word d.1.opwords] } (count1 7172 s)

/-- The number of the module at the other end of a link. -/
def peerMod (s : State) (k : Nat) : Option Nat := (s.link k).peer.map (·.modnum)

/-- R916: an ANSWER. A neighbour that answers ALREADY is skipped; to one that answers OK the delta goes. DESIGN CHOICE (log 188, unsafe). -/
def execFirmwareAnswer (link status : Nat) (already : Bool) (s : State) : Out :=
  .next (if (s.link link).st != .active || !s.upd.offered.contains link then s else
    let s := s.onUpd fun u => { u with offered := u.offered.erase link }
    match s.upd.staged with
    | none => s
    | some d =>
      if already then (match peerMod s link with | some n => noteModule n true s | none => s)
      else if status = stOk then sendDelta link d s
      else s)

/-- The session that a link's neighbour feeds. -/
def linkSession (s : State) (link : Nat) : Option Session :=
  match s.upd.sess with
  | some x => if x.src = link + 1 && x.phase = 1 && (s.link link).st = .active then some x else none
  | none => none

/-- R910, R917: op words from a neighbour; words at another offset change nothing. -/
def execFirmwareData (link off : Nat) (ws : List Word) (s : State) : Out :=
  .next (match linkSession s link with
    | none => s
    | some x => if off ≠ x.rcvd then s else (takeOps x ws s).getD (failSession x (count 7169 ws.length s)))

/-- R917: END starts the verification; a count that differs from the words received fails it. -/
def execFirmwareEnd (link opwords : Nat) (s : State) : Out :=
  .next (match linkSession s link with
    | none => s
    | some x => s.onUpd fun u => { u with sess := some { x with phase := 2, ended := x.ended && decide (opwords = x.rcvd) } })

/-- R917, R918: a RESULT, at the module that UPD.PROPAGATE runs on, or on its way there (R784). -/
def execFirmwareResult (m : MsgIn) (status mod : Nat) (s : State) : Out :=
  .next (if (s.link m.link).st != .active then s
    else if m.dst = s.modnum then noteModule (mod % 16) (status = stOk) (freeCredits m.link 3 m.len s)
    else if m.dst / 2 = s.pos && s.links.partnerUp && m.link ≠ 0 then linkSend 0 { kind := .fwResult, a := m.dst, b := status, c := mod } (freeCredits m.link 3 m.len s)
    else routed m 3 { kind := .fwResult, a := m.dst, b := status, c := mod } (fun s => s) s)

/-- R918: 10 minutes. -/
def execPropagateTimeout (s : State) : Out :=
  .next (match s.upd.prop with
    | none => s
    | some (_, _, _, t) => if due (t + 600 * sec) s.clk.now then endPropagation s else s)

/-- R908: 60 s after Boot ended in Standby or Active, Kumel clears TRIAL. -/
def execTrialConfirm (s : State) : Out :=
  .next (match s.upd.bootEnd with
    | none => s
    | some t => if s.md.kumel = .running && due (t + 60 * sec) s.clk.now then s.onUpd fun u => { u with trial := false, bootEnd := none } else s)

/-! ## Commands (R919, R920) -/

/-- UPD.GET_STATUS (Table 22.9). -/
def deskUpdGetStatus (_p : Packet) (s : State) : Desk :=
  let u := s.upd
  let (ph, src, n) := match u.sess with | some x => (x.phase, x.src, x.rcvd) | none => (0, 0, 0)
  let other := if (s.bankOf s.spare).st = .verified then bankVer s s.spare else 0
  answer [fld 2 0 u.a.st.code ||| fld 6 4 u.b.st.code ||| fld 9 9 u.pref ||| flag 10 u.trial ||| fld 13 12 u.tries ||| flag 16 u.ownLock ||| fld 19 17 ph ||| fld 22 20 src,
    word n, word other, fld 15 0 u.mask] s

/-- UPD.GET_STATUS (R919). -/
def execUpdGetStatus (p : Packet) (s : State) : Out := letter 0x0E01 0 p s (deskUpdGetStatus p)

/-- UPD.BEGIN (R909). -/
def deskUpdBegin (p : Packet) (s : State) : Desk :=
  guardParam (clean (mask 6 0) (p.w 2) && decide (bits 6 0 (p.w 2) = 64)) s fun s =>
    match headChecks (p.data 1) s with
    | some st => deny st (count1 7174 s)
    | none => okay (startSession (headOf (p.data 1)) 0 none s)

/-- UPD.BEGIN (R909). -/
def execUpdBegin (p : Packet) (s : State) : Out := letterData 0x0E02 1 (bits 6 0 (p.w 2)) p s (deskUpdBegin p)

/-- The session that a door feeds. -/
def doorSession (s : State) : Option Session :=
  match s.upd.sess with | some x => if x.src = 0 && x.phase = 1 then some x else none | none => none

/-- UPD.WRITE_DELTA (R910). -/
def deskUpdWriteDelta (p : Packet) (s : State) : Desk :=
  let n := bits 11 0 (p.w 2)
  guardParam (clean (mask 11 0) (p.w 2) && decide (1 ≤ n) && decide (n ≤ 4092)) s fun s =>
    match doorSession s with
    | none => (stConflict, [word (match s.upd.sess with | some x => x.rcvd | none => 0)], s)
    | some x =>
      if (p.w 3).toNat ≠ x.rcvd then (stConflict, [word x.rcvd], s)
      else match takeOps x (p.data 2) s with
        | some t => answer [word (x.rcvd + n)] t
        | none => deny stIntegrity (failSession x (count 7169 n s))

/-- UPD.WRITE_DELTA (R910). -/
def execUpdWriteDelta (p : Packet) (s : State) : Out := letterData 0x0E03 2 (bits 11 0 (p.w 2)) p s (deskUpdWriteDelta p)

/-- UPD.FINISH (R911). -/
def deskUpdFinish (p : Packet) (s : State) : Desk :=
  match doorSession s with
  | none => deny stConflict s
  | some x => (stAccepted, [], accept p 0x0E04 0 0 (s.onUpd fun u => { u with sess := some { x with phase := 2 } }))

/-- UPD.FINISH (R911). -/
def execUpdFinish (p : Packet) (s : State) : Out := letter 0x0E04 0 p s (deskUpdFinish p)

/-- The state-write versions of the inactive bank's image overlap those of the partner (R914). -/
def dvOverlap (s : State) : Bool :=
  let (lo, hi) := match (s.bankOf s.spare).head with | some h => (h.dvmin, h.dvmax) | none => (Config.factoryDv.1.toNat, Config.factoryDv.2.toNat)
  match (s.link 0).peer with
  | some b => decide (max lo b.dvmin ≤ min hi b.dvmax)
  | none => true

/-- The selection record is written: PREF the new bank, TRIAL set, TRIES 2 (R914). -/
def selectBank (s : State) : State := count1 7171 (s.onUpd fun u => { u with pref := s.spare, trial := true, tries := 2, newBoot := 1 })

/-- UPD.ACTIVATE (R914). -/
def deskUpdActivate (p : Packet) (s : State) : Desk :=
  let force := bit 0 (p.w 2)
  guardParam (clean (mask 0 0) (p.w 2) && decide (p.w 3 = if force then 0x00004824 else 0)) s fun s =>
  check (decide ((s.bankOf s.spare).st = .verified)) stNotFound s fun s =>
    match lateChecks s with
    | some st => deny st s
    | none =>
      check (!s.links.partnerUp || dvOverlap s) stConflict s fun s =>
        if s.md.mode != .active then okay (restartRunning .update (selectBank s))
        else if s.pair.paired then deny stConflict s
        else if !force then deny stRefusedMode s
        else
          let s := (selectBank s).onMd fun m => { m with restartReq := some (p.door, p.tag), restartWait := true, admitStop := true }
          (stAccepted, [], forcedProgress (closeHosts s))

/-- UPD.ACTIVATE (R914). -/
def execUpdActivate (p : Packet) (s : State) : Out := letter 0x0E05 2 p s (deskUpdActivate p)

/-- The modules that can be reached, but for this one. -/
def otherModules (s : State) : Nat :=
  let near := reachOf s 1 ||| reachOf s 2
  let far := if s.links.partnerUp then 2 ^ (2 * s.pos + 1 - s.bay.bay) ||| reachOf s 3 ||| reachOf s 4 else 0
  let m := (near ||| far) % 65536
  if m.testBit s.modnum then m - 2 ^ s.modnum else m

/-- UPD.PROPAGATE (R916, R918). -/
def deskUpdPropagate (p : Packet) (s : State) : Desk :=
  let scope := bits 1 0 (p.w 2)
  guardParam (clean (mask 1 0) (p.w 2) && (decide (scope = 1) || decide (scope = 2))) s fun s =>
    match s.upd.sess, s.upd.staged with
    | some x, some d =>
      if x.phase ≠ 3 then deny stConflict s
      else
        let want := if scope = 1 then (if s.links.partnerUp then 2 ^ (2 * s.pos + 1 - s.bay.bay) else 0) else otherModules s
        let s := accept p 0x0E06 0 0 (s.onUpd fun u =>
          { u with sess := some { x with phase := 4 }, prop := some (scope, want, 0, s.clk.now), mask := 2 ^ s.modnum, offered := [] })
        let s := forAll (if scope = 1 then [0] else [0, 1, 2]) (offerOn d.1 s.modnum scope) s
        (stAccepted, [], if want = 0 then endPropagation s else s)
    | _, _ => deny stConflict s

/-- UPD.PROPAGATE (R916). -/
def execUpdPropagate (p : Packet) (s : State) : Out := letter 0x0E06 1 p s (deskUpdPropagate p)

/-- UPD.SET_OWNER_LOCK (R920). -/
def deskUpdSetOwnerLock (p : Packet) (s : State) : Desk :=
  let on := bit 0 (p.w 2)
  guardParam (clean (mask 0 0) (p.w 2) && (on || decide (p.w 3 = 0x00004824))) s fun s => okay (s.onUpd fun u => { u with ownLock := on })

/-- UPD.SET_OWNER_LOCK (R920). -/
def execUpdSetOwnerLock (p : Packet) (s : State) : Out := letter 0x0E07 2 p s (deskUpdSetOwnerLock p)

/-- UPD.ABORT (R913). A neighbour's session that ends so reports nothing. -/
def deskUpdAbort (_p : Packet) (s : State) : Desk := check (sessionRuns s) stNotFound s fun s => okay (abortUpd 1 s)

/-- UPD.ABORT (R913). -/
def execUpdAbort (p : Packet) (s : State) : Out := letter 0x0E08 0 p s (deskUpdAbort p)

end Sys2Proof.Machine
end

