-- ==== Sys2Proof/Machine/Dispatch.lean ====
section
/-! DEFINITION. One arm for each command: a direct call of its meaning. -/
namespace Sys2Proof.Machine

def exec (i : Instr) (s : State) : Host.Outcome State Fault Refusal :=
  match i with
  | .nop p => Sys2Proof.Machine.execNop p s
  | .modGetIdentity p => Sys2Proof.Machine.execModGetIdentity p s
  | .modGetStatus p => Sys2Proof.Machine.execModGetStatus p s
  | .modRestart p => Sys2Proof.Machine.execModRestart p s
  | .modEnterMaintenance p => Sys2Proof.Machine.execModEnterMaintenance p s
  | .modSetBootOptions p => Sys2Proof.Machine.execModSetBootOptions p s
  | .modEnterDrowse p => Sys2Proof.Machine.execModEnterDrowse p s
  | .modWake p => Sys2Proof.Machine.execModWake p s
  | .modAcquireLock p => Sys2Proof.Machine.execModAcquireLock p s
  | .modReleaseLock p => Sys2Proof.Machine.execModReleaseLock p s
  | .modGetDoor p => Sys2Proof.Machine.execModGetDoor p s
  | .modReadEvents p => Sys2Proof.Machine.execModReadEvents p s
  | .modSetEventMask p => Sys2Proof.Machine.execModSetEventMask p s
  | .modSetDoorKey p => Sys2Proof.Machine.execModSetDoorKey p s
  | .modSetMgmtAddr p => Sys2Proof.Machine.execModSetMgmtAddr p s
  | .pwrSetSlotLimits p => Sys2Proof.Machine.execPwrSetSlotLimits p s
  | .pwrGetSlotStatus p => Sys2Proof.Machine.execPwrGetSlotStatus p s
  | .pwrSetSlotPower p => Sys2Proof.Machine.execPwrSetSlotPower p s
  | .pwrClearLockout p => Sys2Proof.Machine.execPwrClearLockout p s
  | .pwrSetBudget p => Sys2Proof.Machine.execPwrSetBudget p s
  | .pwrGetBudget p => Sys2Proof.Machine.execPwrGetBudget p s
  | .pwrSetIndicator p => Sys2Proof.Machine.execPwrSetIndicator p s
  | .pwrGetFeeds p => Sys2Proof.Machine.execPwrGetFeeds p s
  | .netSetPortMode p => Sys2Proof.Machine.execNetSetPortMode p s
  | .netGetPortStatus p => Sys2Proof.Machine.execNetGetPortStatus p s
  | .netSetPortAddr p => Sys2Proof.Machine.execNetSetPortAddr p s
  | .netSetClassMap p => Sys2Proof.Machine.execNetSetClassMap p s
  | .netSetQueue p => Sys2Proof.Machine.execNetSetQueue p s
  | .netGetQueue p => Sys2Proof.Machine.execNetGetQueue p s
  | .netFlushQueue p => Sys2Proof.Machine.execNetFlushQueue p s
  | .netSetBuffer p => Sys2Proof.Machine.execNetSetBuffer p s
  | .netSetFlow p => Sys2Proof.Machine.execNetSetFlow p s
  | .netDeleteFlow p => Sys2Proof.Machine.execNetDeleteFlow p s
  | .netGetEpoch p => Sys2Proof.Machine.execNetGetEpoch p s
  | .netSetMirror p => Sys2Proof.Machine.execNetSetMirror p s
  | .netSetDeadLetter p => Sys2Proof.Machine.execNetSetDeadLetter p s
  | .netReadDeadLetter p => Sys2Proof.Machine.execNetReadDeadLetter p s
  | .netSetPtp p => Sys2Proof.Machine.execNetSetPtp p s
  | .netGetPtp p => Sys2Proof.Machine.execNetGetPtp p s
  | .qosSetPolicer p => Sys2Proof.Machine.execQosSetPolicer p s
  | .qosSetSubscriber p => Sys2Proof.Machine.execQosSetSubscriber p s
  | .qosGetPolicer p => Sys2Proof.Machine.execQosGetPolicer p s
  | .qosSetColourMap p => Sys2Proof.Machine.execQosSetColourMap p s
  | .qosSetNode p => Sys2Proof.Machine.execQosSetNode p s
  | .qosSetPortShaper p => Sys2Proof.Machine.execQosSetPortShaper p s
  | .qosSetGateList p => Sys2Proof.Machine.execQosSetGateList p s
  | .qosGetGateStatus p => Sys2Proof.Machine.execQosGetGateStatus p s
  | .qosGetNode p => Sys2Proof.Machine.execQosGetNode p s
  | .qosSetWatch p => Sys2Proof.Machine.execQosSetWatch p s
  | .xptSetRdmaPorts p => Sys2Proof.Machine.execXptSetRdmaPorts p s
  | .xptSetRdmaParams p => Sys2Proof.Machine.execXptSetRdmaParams p s
  | .xptSetRelease p => Sys2Proof.Machine.execXptSetRelease p s
  | .xptGetConnection p => Sys2Proof.Machine.execXptGetConnection p s
  | .xptCloseConnection p => Sys2Proof.Machine.execXptCloseConnection p s
  | .xptCreateRegion p => Sys2Proof.Machine.execXptCreateRegion p s
  | .xptDeleteRegion p => Sys2Proof.Machine.execXptDeleteRegion p s
  | .xptGrantRegion p => Sys2Proof.Machine.execXptGrantRegion p s
  | .xptRekeyRegion p => Sys2Proof.Machine.execXptRekeyRegion p s
  | .xptGetRegion p => Sys2Proof.Machine.execXptGetRegion p s
  | .xptSetTcpPorts p => Sys2Proof.Machine.execXptSetTcpPorts p s
  | .xptSetTcpParams p => Sys2Proof.Machine.execXptSetTcpParams p s
  | .xptSetTls p => Sys2Proof.Machine.execXptSetTls p s
  | .xptSetPool p => Sys2Proof.Machine.execXptSetPool p s
  | .xptGetPool p => Sys2Proof.Machine.execXptGetPool p s
  | .nvmSetSubsystem p => Sys2Proof.Machine.execNvmSetSubsystem p s
  | .nvmGetSubsystem p => Sys2Proof.Machine.execNvmGetSubsystem p s
  | .nvmSetHost p => Sys2Proof.Machine.execNvmSetHost p s
  | .nvmDeleteHost p => Sys2Proof.Machine.execNvmDeleteHost p s
  | .nvmGetHost p => Sys2Proof.Machine.execNvmGetHost p s
  | .nvmSetHostSecret p => Sys2Proof.Machine.execNvmSetHostSecret p s
  | .nvmGetController p => Sys2Proof.Machine.execNvmGetController p s
  | .nvmEndController p => Sys2Proof.Machine.execNvmEndController p s
  | .nvmSetTagLimit p => Sys2Proof.Machine.execNvmSetTagLimit p s
  | .nvmGetTags p => Sys2Proof.Machine.execNvmGetTags p s
  | .volCreateSet p => Sys2Proof.Machine.execVolCreateSet p s
  | .volDeleteSet p => Sys2Proof.Machine.execVolDeleteSet p s
  | .volGetSet p => Sys2Proof.Machine.execVolGetSet p s
  | .volSetReserve p => Sys2Proof.Machine.execVolSetReserve p s
  | .volCreateNamespace p => Sys2Proof.Machine.execVolCreateNamespace p s
  | .volDeleteNamespace p => Sys2Proof.Machine.execVolDeleteNamespace p s
  | .volResizeNamespace p => Sys2Proof.Machine.execVolResizeNamespace p s
  | .volSetNsPolicy p => Sys2Proof.Machine.execVolSetNsPolicy p s
  | .volAttachNamespace p => Sys2Proof.Machine.execVolAttachNamespace p s
  | .volGetNamespace p => Sys2Proof.Machine.execVolGetNamespace p s
  | .volMigrateParcels p => Sys2Proof.Machine.execVolMigrateParcels p s
  | .volGetParcel p => Sys2Proof.Machine.execVolGetParcel p s
  | .volSetNsDefaults p => Sys2Proof.Machine.execVolSetNsDefaults p s
  | .volGetEpoch p => Sys2Proof.Machine.execVolGetEpoch p s
  | .wbfSetPolicy p => Sys2Proof.Machine.execWbfSetPolicy p s
  | .wbfGetStatus p => Sys2Proof.Machine.execWbfGetStatus p s
  | .wbfDestage p => Sys2Proof.Machine.execWbfDestage p s
  | .wbfGetJournal p => Sys2Proof.Machine.execWbfGetJournal p s
  | .redSetPolicy p => Sys2Proof.Machine.execRedSetPolicy p s
  | .redGetHealth p => Sys2Proof.Machine.execRedGetHealth p s
  | .redGetMember p => Sys2Proof.Machine.execRedGetMember p s
  | .redSetSpare p => Sys2Proof.Machine.execRedSetSpare p s
  | .redEjectMember p => Sys2Proof.Machine.execRedEjectMember p s
  | .redReadmit p => Sys2Proof.Machine.execRedReadmit p s
  | .redStartRebuild p => Sys2Proof.Machine.execRedStartRebuild p s
  | .redForceOnline p => Sys2Proof.Machine.execRedForceOnline p s
  | .redReadBadRanges p => Sys2Proof.Machine.execRedReadBadRanges p s
  | .redClearBadRanges p => Sys2Proof.Machine.execRedClearBadRanges p s
  | .drvSetPort p => Sys2Proof.Machine.execDrvSetPort p s
  | .drvGetPort p => Sys2Proof.Machine.execDrvGetPort p s
  | .drvGetDrive p => Sys2Proof.Machine.execDrvGetDrive p s
  | .drvResetDrive p => Sys2Proof.Machine.execDrvResetDrive p s
  | .drvFormatDrive p => Sys2Proof.Machine.execDrvFormatDrive p s
  | .drvReadLog p => Sys2Proof.Machine.execDrvReadLog p s
  | .keyGetIdentityKey p => Sys2Proof.Machine.execKeyGetIdentityKey p s
  | .keyEstablishKek p => Sys2Proof.Machine.execKeyEstablishKek p s
  | .keyImportKey p => Sys2Proof.Machine.execKeyImportKey p s
  | .keyGenerateKey p => Sys2Proof.Machine.execKeyGenerateKey p s
  | .keyExportKey p => Sys2Proof.Machine.execKeyExportKey p s
  | .keyDestroyKey p => Sys2Proof.Machine.execKeyDestroyKey p s
  | .keyRotateKey p => Sys2Proof.Machine.execKeyRotateKey p s
  | .keyGetSlot p => Sys2Proof.Machine.execKeyGetSlot p s
  | .keyRunVector p => Sys2Proof.Machine.execKeyRunVector p s
  | .pairGetStatus p => Sys2Proof.Machine.execPairGetStatus p s
  | .pairTakeover p => Sys2Proof.Machine.execPairTakeover p s
  | .pairSetPolicy p => Sys2Proof.Machine.execPairSetPolicy p s
  | .pairStartResync p => Sys2Proof.Machine.execPairStartResync p s
  | .pairForceClaim p => Sys2Proof.Machine.execPairForceClaim p s
  | .stkGetStatus p => Sys2Proof.Machine.execStkGetStatus p s
  | .stkGetShelf p => Sys2Proof.Machine.execStkGetShelf p s
  | .stkAddShelf p => Sys2Proof.Machine.execStkAddShelf p s
  | .stkRemoveShelf p => Sys2Proof.Machine.execStkRemoveShelf p s
  | .stkLeaveStack p => Sys2Proof.Machine.execStkLeaveStack p s
  | .memGetStatus p => Sys2Proof.Machine.execMemGetStatus p s
  | .memReadLog p => Sys2Proof.Machine.execMemReadLog p s
  | .memScrubRange p => Sys2Proof.Machine.execMemScrubRange p s
  | .memGetScrub p => Sys2Proof.Machine.execMemGetScrub p s
  | .memSetIdleScrub p => Sys2Proof.Machine.execMemSetIdleScrub p s
  | .memGetIdleScrub p => Sys2Proof.Machine.execMemGetIdleScrub p s
  | .memRetirePage p => Sys2Proof.Machine.execMemRetirePage p s
  | .memRetireRow p => Sys2Proof.Machine.execMemRetireRow p s
  | .memTestWrite p => Sys2Proof.Machine.execMemTestWrite p s
  | .memTestRead p => Sys2Proof.Machine.execMemTestRead p s
  | .memReloadMap p => Sys2Proof.Machine.execMemReloadMap p s
  | .memRunSelftest p => Sys2Proof.Machine.execMemRunSelftest p s
  | .updGetStatus p => Sys2Proof.Machine.execUpdGetStatus p s
  | .updBegin p => Sys2Proof.Machine.execUpdBegin p s
  | .updWriteDelta p => Sys2Proof.Machine.execUpdWriteDelta p s
  | .updFinish p => Sys2Proof.Machine.execUpdFinish p s
  | .updActivate p => Sys2Proof.Machine.execUpdActivate p s
  | .updPropagate p => Sys2Proof.Machine.execUpdPropagate p s
  | .updSetOwnerLock p => Sys2Proof.Machine.execUpdSetOwnerLock p s
  | .updAbort p => Sys2Proof.Machine.execUpdAbort p s
  | .talRead p => Sys2Proof.Machine.execTalRead p s
  | .talSnapshot p => Sys2Proof.Machine.execTalSnapshot p s
  | .talClear p => Sys2Proof.Machine.execTalClear p s
  | .talGetOverflow p => Sys2Proof.Machine.execTalGetOverflow p s
  | .talSetStream p => Sys2Proof.Machine.execTalSetStream p s
  | .lbcntWrite door aligned w => Sys2Proof.Machine.execLbcntWrite door aligned w s
  | .lbdataWrite door aligned w => Sys2Proof.Machine.execLbdataWrite door aligned w s
  | .lbdataRead door aligned => Sys2Proof.Machine.execLbdataRead door aligned s
  | .lbctlAbort door aligned w => Sys2Proof.Machine.execLbctlAbort door aligned w s
  | .registerWrite r aligned w => Sys2Proof.Machine.execRegisterWrite r aligned w s
  | .doorFillingTimeout door => Sys2Proof.Machine.execDoorFillingTimeout door s
  | .commandEnterBusy door => Sys2Proof.Machine.execCommandEnterBusy door s
  | .kumelBeginCommand door => Sys2Proof.Machine.execKumelBeginCommand door s
  | .kumelBacklogTimeout door backlogMs => Sys2Proof.Machine.execKumelBacklogTimeout door backlogMs s
  | .commandReplyReady door => Sys2Proof.Machine.execCommandReplyReady door s
  | .lockExpired => Sys2Proof.Machine.execLockExpired s
  | .smbusBlockWrite count ws pecBad => Sys2Proof.Machine.execSmbusBlockWrite count ws pecBad s
  | .smbusBlockRead pecBad => Sys2Proof.Machine.execSmbusBlockRead pecBad s
  | .alertResponseRead => Sys2Proof.Machine.execAlertResponseRead s
  | .doorDatagram d => Sys2Proof.Machine.execDoorDatagram d s
  | .datagramWaitEnd => Sys2Proof.Machine.execDatagramWaitEnd s
  | .seat bayOpen chkOpen strap => Sys2Proof.Machine.execSeat bayOpen chkOpen strap s
  | .unseat => Sys2Proof.Machine.execUnseat s
  | .feedGood feed mv => Sys2Proof.Machine.execFeedGood feed mv s
  | .feedUvWarn feed mv => Sys2Proof.Machine.execFeedUvWarn feed mv s
  | .feedLost feed mv => Sys2Proof.Machine.execFeedLost feed mv s
  | .feedOv feed mv => Sys2Proof.Machine.execFeedOv feed mv s
  | .feedOvReclose feed mv => Sys2Proof.Machine.execFeedOvReclose feed mv s
  | .frontEndTrip => Sys2Proof.Machine.execFrontEndTrip s
  | .bulkChargeEnd => Sys2Proof.Machine.execBulkChargeEnd s
  | .chargeFail => Sys2Proof.Machine.execChargeFail s
  | .chargeRetry => Sys2Proof.Machine.execChargeRetry s
  | .feedsOffReset => Sys2Proof.Machine.execFeedsOffReset s
  | .holdupDone => Sys2Proof.Machine.execHoldupDone s
  | .reserveReady joules => Sys2Proof.Machine.execReserveReady joules s
  | .reserveWaitTimeout => Sys2Proof.Machine.execReserveWaitTimeout s
  | .reserveCapacityTest joules => Sys2Proof.Machine.execReserveCapacityTest joules s
  | .reserveTestDone joules => Sys2Proof.Machine.execReserveTestDone joules s
  | .singleFeedBudgetTick mv1 mv2 i1 i2 => Sys2Proof.Machine.execSingleFeedBudgetTick mv1 mv2 i1 i2 s
  | .slotShed current => Sys2Proof.Machine.execSlotShed current s
  | .thermalWarn tj => Sys2Proof.Machine.execThermalWarn tj s
  | .thermalRearm tj => Sys2Proof.Machine.execThermalRearm tj s
  | .thermalShutdown tj => Sys2Proof.Machine.execThermalShutdown tj s
  | .thermalRestart tj => Sys2Proof.Machine.execThermalRestart tj s
  | .clockLost c => Sys2Proof.Machine.execClockLost c s
  | .entropyFault => Sys2Proof.Machine.execEntropyFault s
  | .entropyRetest pass => Sys2Proof.Machine.execEntropyRetest pass s
  | .drbgReseed => Sys2Proof.Machine.execDrbgReseed s
  | .bootRailsUp => Sys2Proof.Machine.execBootRailsUp s
  | .bootFlashChecked aOk bOk => Sys2Proof.Machine.execBootFlashChecked aOk bOk s
  | .bootSelftestDone lasting => Sys2Proof.Machine.execBootSelftestDone lasting s
  | .bootDramTrained failed => Sys2Proof.Machine.execBootDramTrained failed s
  | .kumelStarted entropyOk => Sys2Proof.Machine.execKumelStarted entropyOk s
  | .enumerationStop => Sys2Proof.Machine.execEnumerationStop s
  | .bootEnd => Sys2Proof.Machine.execBootEnd s
  | .bootTimeout => Sys2Proof.Machine.execBootTimeout s
  | .drowseQuiescent => Sys2Proof.Machine.execDrowseQuiescent s
  | .drowseDrivesLow => Sys2Proof.Machine.execDrowseDrivesLow s
  | .drowseAbandonTimeout => Sys2Proof.Machine.execDrowseAbandonTimeout s
  | .drowseExit => Sys2Proof.Machine.execDrowseExit s
  | .drowseExitDone => Sys2Proof.Machine.execDrowseExitDone s
  | .watchdogExpiry => Sys2Proof.Machine.execWatchdogExpiry s
  | .kumelRestartDone => Sys2Proof.Machine.execKumelRestartDone s
  | .slotProbe slot pre riseUs => Sys2Proof.Machine.execSlotProbe slot pre riseUs s
  | .slotInserted slot => Sys2Proof.Machine.execSlotInserted slot s
  | .slotSuspectPull slot iout => Sys2Proof.Machine.execSlotSuspectPull slot iout s
  | .slotAdmit slot pre => Sys2Proof.Machine.execSlotAdmit slot pre s
  | .rampResample slot pre => Sys2Proof.Machine.execRampResample slot pre s
  | .slotPowerGood slot => Sys2Proof.Machine.execSlotPowerGood slot s
  | .slotResetRelease slot => Sys2Proof.Machine.execSlotResetRelease slot s
  | .slotJoinSettled slot => Sys2Proof.Machine.execSlotJoinSettled slot s
  | .inrushTimeout slot => Sys2Proof.Machine.execInrushTimeout slot s
  | .slotTrip slot cause meas => Sys2Proof.Machine.execSlotTrip slot cause meas s
  | .slotRetryExpiry slot => Sys2Proof.Machine.execSlotRetryExpiry slot s
  | .slotStageOffDelay slot => Sys2Proof.Machine.execSlotStageOffDelay slot s
  | .shareTelemetrySend iout vout => Sys2Proof.Machine.execShareTelemetrySend iout vout s
  | .shareTelemetryReceive r => Sys2Proof.Machine.execShareTelemetryReceive r s
  | .shareUpdateMissed => Sys2Proof.Machine.execShareUpdateMissed s
  | .shareDroop => Sys2Proof.Machine.execShareDroop s
  | .shareRestored => Sys2Proof.Machine.execShareRestored s
  | .indicatorFrame => Sys2Proof.Machine.execIndicatorFrame s
  | .pluggableInserted cage => Sys2Proof.Machine.execPluggableInserted cage s
  | .pluggableCmisRead cage watts => Sys2Proof.Machine.execPluggableCmisRead cage watts s
  | .pluggableReady cage => Sys2Proof.Machine.execPluggableReady cage s
  | .pluggableFault cage => Sys2Proof.Machine.execPluggableFault cage s
  | .pluggableRemoved cage => Sys2Proof.Machine.execPluggableRemoved cage s
  | .linkUp lport => Sys2Proof.Machine.execLinkUp lport s
  | .linkDown lport => Sys2Proof.Machine.execLinkDown lport s
  | .fecDegraded lport symbols corrected uncorrectable => Sys2Proof.Machine.execFecDegraded lport symbols corrected uncorrectable s
  | .frameReceive f => Sys2Proof.Machine.execFrameReceive f s
  | .frameTransmit swport q => Sys2Proof.Machine.execFrameTransmit swport q s
  | .pfcReceive lport prio quanta => Sys2Proof.Machine.execPfcReceive lport prio quanta s
  | .pfcPauseExpiry lport prio => Sys2Proof.Machine.execPfcPauseExpiry lport prio s
  | .pfcRefresh lport pcp => Sys2Proof.Machine.execPfcRefresh lport pcp s
  | .epochDrained => Sys2Proof.Machine.execEpochDrained s
  | .epochSlow => Sys2Proof.Machine.execEpochSlow s
  | .ptpMessage lport domain transport m => Sys2Proof.Machine.execPtpMessage lport domain transport m s
  | .ptpLocked => Sys2Proof.Machine.execPtpLocked s
  | .ptpUnlocked => Sys2Proof.Machine.execPtpUnlocked s
  | .tokenTick => Sys2Proof.Machine.execTokenTick s
  | .schedulerDispatch qport => Sys2Proof.Machine.execSchedulerDispatch qport s
  | .gateEntryChange qport => Sys2Proof.Machine.execGateEntryChange qport s
  | .gateListStart qport => Sys2Proof.Machine.execGateListStart qport s
  | .gateListRestart qport => Sys2Proof.Machine.execGateListRestart qport s
  | .rateEstimateInterval => Sys2Proof.Machine.execRateEstimateInterval s
  | .cmReq r => Sys2Proof.Machine.execCmReq r s
  | .cmRtu qpn => Sys2Proof.Machine.execCmRtu qpn s
  | .repResend ctx => Sys2Proof.Machine.execRepResend ctx s
  | .cmDreq qpn => Sys2Proof.Machine.execCmDreq qpn s
  | .cmDrep qpn => Sys2Proof.Machine.execCmDrep qpn s
  | .dreqTimeout ctx => Sys2Proof.Machine.execDreqTimeout ctx s
  | .timewaitExpiry ctx => Sys2Proof.Machine.execTimewaitExpiry ctx s
  | .roceRequestPacket p => Sys2Proof.Machine.execRoceRequestPacket p s
  | .roceAckReceive h psn k => Sys2Proof.Machine.execRoceAckReceive h psn k s
  | .roceReadResponse h psn tag gen off blks last => Sys2Proof.Machine.execRoceReadResponse h psn tag gen off blks last s
  | .roceCnpReceive h => Sys2Proof.Machine.execRoceCnpReceive h s
  | .ackCoalesceTimeout ctx => Sys2Proof.Machine.execAckCoalesceTimeout ctx s
  | .ackTimeout ctx => Sys2Proof.Machine.execAckTimeout ctx s
  | .rnrResend ctx => Sys2Proof.Machine.execRnrResend ctx s
  | .ratePeriod ctx => Sys2Proof.Machine.execRatePeriod ctx s
  | .dataDone tag gen => Sys2Proof.Machine.execDataDone tag gen s
  | .completionRelease ctx => Sys2Proof.Machine.execCompletionRelease ctx s
  | .tcpSyn f => Sys2Proof.Machine.execTcpSyn f s
  | .synackResend ent => Sys2Proof.Machine.execSynackResend ent s
  | .synEntryExpiry ent => Sys2Proof.Machine.execSynEntryExpiry ent s
  | .tcpHandshakeAck ent => Sys2Proof.Machine.execTcpHandshakeAck ent s
  | .tcpSegment p => Sys2Proof.Machine.execTcpSegment p s
  | .tcpAckTimer ctx => Sys2Proof.Machine.execTcpAckTimer ctx s
  | .tcpRto ctx => Sys2Proof.Machine.execTcpRto ctx s
  | .tcpFin ctx seq frame => Sys2Proof.Machine.execTcpFin ctx seq frame s
  | .tcpRst ctx seq frame => Sys2Proof.Machine.execTcpRst ctx seq frame s
  | .icreqTimeout ctx => Sys2Proof.Machine.execIcreqTimeout ctx s
  | .tlsHandshakeDone ctx ok group rx tx hostNqn subNqn => Sys2Proof.Machine.execTlsHandshakeDone ctx ok group rx tx hostNqn subNqn s
  | .tlsHandshakeTimeout ctx => Sys2Proof.Machine.execTlsHandshakeTimeout ctx s
  | .keyupdateInstalled ctx => Sys2Proof.Machine.execKeyupdateInstalled ctx s
  | .contextFillStart => Sys2Proof.Machine.execContextFillStart s
  | .contextFillDone ctx poison => Sys2Proof.Machine.execContextFillDone ctx poison s
  | .contextEvict => Sys2Proof.Machine.execContextEvict s
  | .keepAliveExpiry cntlid => Sys2Proof.Machine.execKeepAliveExpiry cntlid s
  | .nvmeConnect r => Sys2Proof.Machine.execNvmeConnect r s
  | .nvmeAuthenticationSend ctx cid m => Sys2Proof.Machine.execNvmeAuthenticationSend ctx cid m s
  | .nvmeAuthenticationReceive ctx cid => Sys2Proof.Machine.execNvmeAuthenticationReceive ctx cid s
  | .nvmePropertySet ctx cid prop value => Sys2Proof.Machine.execNvmePropertySet ctx cid prop value s
  | .nvmePropertyGet ctx cid prop => Sys2Proof.Machine.execNvmePropertyGet ctx cid prop s
  | .nvmeDisconnect ctx cid => Sys2Proof.Machine.execNvmeDisconnect ctx cid s
  | .nvmeGetLogPage ctx cid nsid lid => Sys2Proof.Machine.execNvmeGetLogPage ctx cid nsid lid s
  | .nvmeIdentify ctx cid nsid cns cntid => Sys2Proof.Machine.execNvmeIdentify ctx cid nsid cns cntid s
  | .nvmeAbort ctx cid sqid acid => Sys2Proof.Machine.execNvmeAbort ctx cid sqid acid s
  | .abortRequestAtTag ctx cid => Sys2Proof.Machine.execAbortRequestAtTag ctx cid s
  | .nvmeSetFeatures ctx cid nsid fid value => Sys2Proof.Machine.execNvmeSetFeatures ctx cid nsid fid value s
  | .nvmeGetFeatures ctx cid nsid fid value => Sys2Proof.Machine.execNvmeGetFeatures ctx cid nsid fid value s
  | .nvmeAsyncEventRequest ctx cid => Sys2Proof.Machine.execNvmeAsyncEventRequest ctx cid s
  | .nvmeNamespaceManagement ctx cid del c => Sys2Proof.Machine.execNvmeNamespaceManagement ctx cid del c s
  | .nvmeNamespaceAttachment ctx cid nsid attach ctrls => Sys2Proof.Machine.execNvmeNamespaceAttachment ctx cid nsid attach ctrls s
  | .nvmeKeepAlive ctx cid => Sys2Proof.Machine.execNvmeKeepAlive ctx cid s
  | .nvmeFormatNvm ctx cid nsid ses lbaf pit => Sys2Proof.Machine.execNvmeFormatNvm ctx cid nsid ses lbaf pit s
  | .nvmeSanitize ctx cid sanact => Sys2Proof.Machine.execNvmeSanitize ctx cid sanact s
  | .nvmeRead c => Sys2Proof.Machine.execNvmeRead c s
  | .nvmeWrite c => Sys2Proof.Machine.execNvmeWrite c s
  | .nvmeFlush c => Sys2Proof.Machine.execNvmeFlush c s
  | .nvmeCompare c => Sys2Proof.Machine.execNvmeCompare c s
  | .nvmeWriteZeroes c => Sys2Proof.Machine.execNvmeWriteZeroes c s
  | .nvmeDatasetManagement c => Sys2Proof.Machine.execNvmeDatasetManagement c s
  | .nvmeVerify c => Sys2Proof.Machine.execNvmeVerify c s
  | .nvmeCopy c => Sys2Proof.Machine.execNvmeCopy c s
  | .nvmeReservationRegister c => Sys2Proof.Machine.execNvmeReservationRegister c s
  | .nvmeReservationReport c => Sys2Proof.Machine.execNvmeReservationReport c s
  | .nvmeReservationAcquire c => Sys2Proof.Machine.execNvmeReservationAcquire c s
  | .nvmeReservationRelease c => Sys2Proof.Machine.execNvmeReservationRelease c s
  | .commandStart sub => Sys2Proof.Machine.execCommandStart sub s
  | .spaceQueueClaim => Sys2Proof.Machine.execSpaceQueueClaim s
  | .writeDataArrival tag gen off blocks => Sys2Proof.Machine.execWriteDataArrival tag gen off blocks s
  | .destageAgeTrigger set_ stripe => Sys2Proof.Machine.execDestageAgeTrigger set_ stripe s
  | .occupancyHigh => Sys2Proof.Machine.execOccupancyHigh s
  | .destageEscalated => Sys2Proof.Machine.execDestageEscalated s
  | .destageStart set_ => Sys2Proof.Machine.execDestageStart set_ s
  | .journalBlockTimer set_ member => Sys2Proof.Machine.execJournalBlockTimer set_ member s
  | .journalPersisted jseq => Sys2Proof.Machine.execJournalPersisted jseq s
  | .stripWriteComplete jseq => Sys2Proof.Machine.execStripWriteComplete jseq s
  | .recordRecovery set_ found reads => Sys2Proof.Machine.execRecordRecovery set_ found reads s
  | .quarantineRelease => Sys2Proof.Machine.execQuarantineRelease s
  | .mapFillDone line => Sys2Proof.Machine.execMapFillDone line s
  | .mapDeltaFlush => Sys2Proof.Machine.execMapDeltaFlush s
  | .mapEpochDrained => Sys2Proof.Machine.execMapEpochDrained s
  | .mapEpochSlow => Sys2Proof.Machine.execMapEpochSlow s
  | .migrationPassDone => Sys2Proof.Machine.execMigrationPassDone s
  | .initStripe set_ => Sys2Proof.Machine.execInitStripe set_ s
  | .driveCompletion k => Sys2Proof.Machine.execDriveCompletion k s
  | .memberTimeoutCheck => Sys2Proof.Machine.execMemberTimeoutCheck s
  | .hedgeDeadline k => Sys2Proof.Machine.execHedgeDeadline k s
  | .latencyPercentileUpdate slot => Sys2Proof.Machine.execLatencyPercentileUpdate slot s
  | .absentwaitExpiry set_ member => Sys2Proof.Machine.execAbsentwaitExpiry set_ member s
  | .rebuildStart set_ => Sys2Proof.Machine.execRebuildStart set_ s
  | .rebuildStripe set_ member => Sys2Proof.Machine.execRebuildStripe set_ member s
  | .resyncRegion set_ member => Sys2Proof.Machine.execResyncRegion set_ member s
  | .patrolStripe set_ => Sys2Proof.Machine.execPatrolStripe set_ s
  | .identityRecordWrite set_ => Sys2Proof.Machine.execIdentityRecordWrite set_ s
  | .driveTrainingAttempt slot => Sys2Proof.Machine.execDriveTrainingAttempt slot s
  | .driveLinkUp slot speed width flit classOk capTo mqes mps tag10 => Sys2Proof.Machine.execDriveLinkUp slot speed width flit classOk capTo mqes mps tag10 s
  | .driveLinkDown slot => Sys2Proof.Machine.execDriveLinkDown slot s
  | .downmaxExpiry slot => Sys2Proof.Machine.execDownmaxExpiry slot s
  | .cstsWaitTimeout slot => Sys2Proof.Machine.execCstsWaitTimeout slot s
  | .driveAdminCompletion slot d => Sys2Proof.Machine.execDriveAdminCompletion slot d s
  | .driveAdminTimeout slot => Sys2Proof.Machine.execDriveAdminTimeout slot s
  | .driveLinkRetrain slot errors => Sys2Proof.Machine.execDriveLinkRetrain slot errors s
  | .driveDmaRequest r => Sys2Proof.Machine.execDriveDmaRequest r s
  | .driveCqEntry slot q cid phase status => Sys2Proof.Machine.execDriveCqEntry slot q cid phase status s
  | .doorbellTimer slot q => Sys2Proof.Machine.execDoorbellTimer slot q s
  | .driveResetRelease slot => Sys2Proof.Machine.execDriveResetRelease slot s
  | .cipherSelfTest failed => Sys2Proof.Machine.execCipherSelfTest failed s
  | .nonceReservationLive core => Sys2Proof.Machine.execNonceReservationLive core s
  | .rotationSweepStep slot => Sys2Proof.Machine.execRotationSweepStep slot s
  | .sweepPositionRecord slot => Sys2Proof.Machine.execSweepPositionRecord slot s
  | .keyZeroise slot => Sys2Proof.Machine.execKeyZeroise slot s
  | .linkSignalDetect link signal => Sys2Proof.Machine.execLinkSignalDetect link signal s
  | .trainingFrame link lane f errs want => Sys2Proof.Machine.execTrainingFrame link lane f errs want s
  | .equaliseTimeout link => Sys2Proof.Machine.execEqualiseTimeout link s
  | .alignmentCodeword link lane found run => Sys2Proof.Machine.execAlignmentCodeword link lane found run s
  | .linkAlignTimeout link => Sys2Proof.Machine.execLinkAlignTimeout link s
  | .configBlock link b => Sys2Proof.Machine.execConfigBlock link b s
  | .linkRefuseRetry link => Sys2Proof.Machine.execLinkRefuseRetry link s
  | .flitReceive link f => Sys2Proof.Machine.execFlitReceive link f s
  | .replayTimeout link => Sys2Proof.Machine.execReplayTimeout link s
  | .laneFault link lane => Sys2Proof.Machine.execLaneFault link lane s
  | .heartbeatSend link => Sys2Proof.Machine.execHeartbeatSend link s
  | .heartbeatReceive link h => Sys2Proof.Machine.execHeartbeatReceive link h s
  | .heartbeatTimeout link => Sys2Proof.Machine.execHeartbeatTimeout link s
  | .postmarkAckSend => Sys2Proof.Machine.execPostmarkAckSend s
  | .postmarkAckReceive pmark => Sys2Proof.Machine.execPostmarkAckReceive pmark s
  | .postmarkStall => Sys2Proof.Machine.execPostmarkStall s
  | .shadowPacket seq len placed body => Sys2Proof.Machine.execShadowPacket seq len placed body s
  | .mirrorWrite seq len placed m => Sys2Proof.Machine.execMirrorWrite seq len placed m s
  | .mirrorState seq len placed items => Sys2Proof.Machine.execMirrorState seq len placed items s
  | .forwardedFrame m cls port f => Sys2Proof.Machine.execForwardedFrame m cls port f s
  | .sessionResumeTimeout link => Sys2Proof.Machine.execSessionResumeTimeout link s
  | .linkWiden link => Sys2Proof.Machine.execLinkWiden link s
  | .mateInHigh => Sys2Proof.Machine.execMateInHigh s
  | .renewSend => Sys2Proof.Machine.execRenewSend s
  | .renewResend => Sys2Proof.Machine.execRenewResend s
  | .statusSend => Sys2Proof.Machine.execStatusSend s
  | .claimSend => Sys2Proof.Machine.execClaimSend s
  | .leaseGrant f => Sys2Proof.Machine.execLeaseGrant f s
  | .leaseDeny f => Sys2Proof.Machine.execLeaseDeny f s
  | .leaseAck f => Sys2Proof.Machine.execLeaseAck f s
  | .leaseExpiry => Sys2Proof.Machine.execLeaseExpiry s
  | .witnessLost => Sys2Proof.Machine.execWitnessLost s
  | .gratuitousArp => Sys2Proof.Machine.execGratuitousArp s
  | .memberWriteHoldExpiry => Sys2Proof.Machine.execMemberWriteHoldExpiry s
  | .selfFaultDetect code => Sys2Proof.Machine.execSelfFaultDetect code s
  | .takeoverFreezeDrained => Sys2Proof.Machine.execTakeoverFreezeDrained s
  | .takeoverForwardEnd => Sys2Proof.Machine.execTakeoverForwardEnd s
  | .resyncStart => Sys2Proof.Machine.execResyncStart s
  | .resyncPhaseDone phase bytes => Sys2Proof.Machine.execResyncPhaseDone phase bytes s
  | .helloSend link => Sys2Proof.Machine.execHelloSend link s
  | .helloReceive link h => Sys2Proof.Machine.execHelloReceive link h s
  | .helloTimeout link => Sys2Proof.Machine.execHelloTimeout link s
  | .dirUpdate m full es nqn lis => Sys2Proof.Machine.execDirUpdate m full es nqn lis s
  | .stackRecordMessage m r => Sys2Proof.Machine.execStackRecordMessage m r s
  | .adminRequest m src op p => Sys2Proof.Machine.execAdminRequest m src op p s
  | .adminReply m door tag status => Sys2Proof.Machine.execAdminReply m door tag status s
  | .stackFormTimeout => Sys2Proof.Machine.execStackFormTimeout s
  | .masterUnreachable => Sys2Proof.Machine.execMasterUnreachable s
  | .forwardCommand m h cls sub host op c => Sys2Proof.Machine.execForwardCommand m h cls sub host op c s
  | .forwardDataRequest m cls h => Sys2Proof.Machine.execForwardDataRequest m cls h s
  | .forwardWriteData m cls h blocks => Sys2Proof.Machine.execForwardWriteData m cls h blocks s
  | .forwardReadData m cls h data => Sys2Proof.Machine.execForwardReadData m cls h data s
  | .forwardCompletion m cls h status dnr => Sys2Proof.Machine.execForwardCompletion m cls h status dnr s
  | .forwardTimeout tag => Sys2Proof.Machine.execForwardTimeout tag s
  | .firmwareOffer link orig scope ws => Sys2Proof.Machine.execFirmwareOffer link orig scope ws s
  | .firmwareAnswer link status already => Sys2Proof.Machine.execFirmwareAnswer link status already s
  | .firmwareData link off ws => Sys2Proof.Machine.execFirmwareData link off ws s
  | .firmwareEnd link opwords => Sys2Proof.Machine.execFirmwareEnd link opwords s
  | .firmwareResult m status mod => Sys2Proof.Machine.execFirmwareResult m status mod s
  | .updVerifyDone => Sys2Proof.Machine.execUpdVerifyDone s
  | .propagateTimeout => Sys2Proof.Machine.execPropagateTimeout s
  | .trialConfirm => Sys2Proof.Machine.execTrialConfirm s
  | .memoryError e => Sys2Proof.Machine.execMemoryError e s
  | .selftestStart eseq => Sys2Proof.Machine.execSelftestStart eseq s
  | .selftestComplete eseq r => Sys2Proof.Machine.execSelftestComplete eseq r s
  | .triageTimeout eseq => Sys2Proof.Machine.execTriageTimeout eseq s
  | .idleScrubRead chan => Sys2Proof.Machine.execIdleScrubRead chan s
  | .scrubRangeRead cls lines fixed bad old first => Sys2Proof.Machine.execScrubRangeRead cls lines fixed bad old first s
  | .streamCapture => Sys2Proof.Machine.execStreamCapture s
  | .perstAssert => Sys2Proof.Machine.execPerstAssert s
  | .seLinkUp => Sys2Proof.Machine.execSeLinkUp s
  | .seLinkDown => Sys2Proof.Machine.execSeLinkDown s
  | .busMasterDisable => Sys2Proof.Machine.execBusMasterDisable s
  | .busMasterEnable => Sys2Proof.Machine.execBusMasterEnable s
  | .powerStateD3hot => Sys2Proof.Machine.execPowerStateD3hot s
  | .powerStateD0 => Sys2Proof.Machine.execPowerStateD0 s
  | .msixUnmask v => Sys2Proof.Machine.execMsixUnmask v s
  | .chctlEnable c w => Sys2Proof.Machine.execChctlEnable c w s
  | .chctlDisable c => Sys2Proof.Machine.execChctlDisable c s
  | .ringloWrite c aligned w => Sys2Proof.Machine.execRingloWrite c aligned w s
  | .kick c => Sys2Proof.Machine.execKick c s
  | .dmaDescriptorFetched c ws => Sys2Proof.Machine.execDmaDescriptorFetched c ws s
  | .dmaDescriptorPoll c => Sys2Proof.Machine.execDmaDescriptorPoll c s
  | .dmaRecordAvailable c => Sys2Proof.Machine.execDmaRecordAvailable c s
  | .dmaFlushTimeout c => Sys2Proof.Machine.execDmaFlushTimeout c s
  | .dmaBusError ecause => Sys2Proof.Machine.execDmaBusError ecause s
  | .dmaReadTimeout => Sys2Proof.Machine.execDmaReadTimeout s
  | .dmaUnexpectedCompletion => Sys2Proof.Machine.execDmaUnexpectedCompletion s
  | .driveCstsReady slot => Sys2Proof.Machine.execDriveCstsReady slot s
  | .keyCopiesErased slot => Sys2Proof.Machine.execKeyCopiesErased slot s
  | .thickCreationComplete nsid => Sys2Proof.Machine.execThickCreationComplete nsid s
  | .creditStall link cls => Sys2Proof.Machine.execCreditStall link cls s
  | .forceClaimTimeout => Sys2Proof.Machine.execForceClaimTimeout s
  | .reserveChargeLow joules => Sys2Proof.Machine.execReserveChargeLow joules s
  | .leaseFrameIgnored => Sys2Proof.Machine.execLeaseFrameIgnored s
  | .managementLinkUp => Sys2Proof.Machine.execManagementLinkUp s

end Sys2Proof.Machine
end

