-- ==== Sys2Proof/Machine/Tick.lean ====
section
/-! DEFINITION. What happens while no command waits: time passes (R865, Table 3.9), the slots' energy counters run (Table 3.13),
and a forced Maintenance entry or restart that waits for the buffer goes on (R144, R160). -/
namespace Sys2Proof.Machine

/-- Femtojoules in a joule. -/
def joule : Nat := 1000000000000000

/-- One nanosecond of a stage that delivers `iout` mA at `vout` mV: whole joules go to its counter (Table 3.13, counters 584–607). -/
def slotEnergy (k : Nat) (s : State) : State :=
  let x := s.slot k
  if !x.stage then s
  else
    let e := x.energy + x.vout * x.iout
    count (584 + k) (e / joule) (onSlot k (fun x => { x with energy := e % joule }) s)

/-- One nanosecond passes. The module clock runs while the core is powered. -/
def tick (s : State) : State :=
  let s := { s with clk := { s.clk with aon := s.clk.aon + 1, now := if s.fe.coreOn then s.clk.now + 1 else s.clk.now } }
  let s := forAll (s.pwr.slots.map (·.1)) slotEnergy s
  doIf (s.md.restartWait || s.md.entering.isSome) forcedProgress s

end Sys2Proof.Machine
end

