-- ==== Sys2Proof/WellFormed.lean ====
section
/-! DEFINITION. Which commands are well formed: every operand within what the spec says can exist at that place (door numbers, slots,
ports, tags, field widths). The meanings are total and do not rest on it. -/
namespace Sys2Proof
open Sys2Proof.Machine

/-- A number below a bound. -/
def below (b n : Nat) : Bool := decide (n < b)

/-- A packet: one of three doors, the fields of Table 19.1, at most 4,096 words in all (R828). -/
def Packet.ok (p : Packet) : Bool := below 3 p.door && below 256 p.flags && below 256 p.pwc && below 4095 p.words.length

/-- A register address: of a door, or within BAR0 or the configuration space. -/
def RegTarget.ok : RegTarget → Bool
  | .lbctl d => below 3 d
  | .lbstat d => below 3 d
  | .bar0 o => below 1048576 o
  | .config o => below 4096 o

/-- A request datagram's fields (Table 19.11). -/
def Datagram.ok (d : Datagram) : Bool :=
  below 65536 d.bytes && below 65536 d.magic && below 256 d.ver && below 2 d.keyId && below (2 ^ 64) d.seq && below 65536 d.nwr && below 65536 d.nrd
    && below 8192 d.cnt

/-- A clock of Table 4.1. -/
def ClockId.ok : ClockId → Bool
  | .lane i => below 116 i
  | .txGroup g => below 8 g
  | .dram c => below 12 c
  | .core _ => true
  | .entropy => true

/-- A SHARE_TELEMETRY record (Table 15.9b). -/
def ShareRec.ok (r : ShareRec) : Bool :=
  below (2 ^ 24) r.trip && below (2 ^ 24) r.on && below (2 ^ 24) r.cmdOff && below (2 ^ 24) r.cmdOn && below (2 ^ 24) r.clear && below (2 ^ 64) r.tripTime
    && below 128 r.phase && below 256 r.updSeq && below 25 r.iout.length

/-- A front frame's port and header fields (R175, R184). -/
def Frame.ok (f : Frame) : Bool :=
  below 32 f.lport && below (2 ^ 48) f.dstMac && below 4096 f.vid && below 8 f.pcp && below 64 f.dscp && below 4 f.ecn

/-- A RoCEv2 request packet's fields. -/
def RocePkt.ok (p : RocePkt) : Bool := below 32 p.lport && below (2 ^ 24) p.qpn && below 64 p.dscp && below (2 ^ 24) p.psn

/-- The fields that every RoCEv2 packet has. -/
def RoceHead.ok (h : RoceHead) : Bool := below 32 h.lport && below (2 ^ 24) h.qpn

/-- A CM REQ's fields (Table 7.2). -/
def CmReq.ok (r : CmReq) : Bool :=
  below 32 r.lport && below (2 ^ 128) r.src && below 65536 r.recfmt && below 65536 r.qid && below 65536 r.hrq && below 65536 r.hsq && below (2 ^ 24) r.qpn
    && below (2 ^ 24) r.psn && below 8 r.retry && below 8 r.rnr

/-- A TCP segment's fields. -/
def TcpSeg.ok (p : TcpSeg) : Bool := below 65536 p.ctx && below 32 p.lport && below (2 ^ 32) p.seq && below (2 ^ 32) p.ack

/-- A SYN's fields. -/
def SynIn.ok (f : SynIn) : Bool :=
  below 32 f.lport && below (2 ^ 128) f.src && below (2 ^ 128) f.dst && below 65536 f.rport && below 65536 f.dport && below 4096 f.vid && below (2 ^ 32) f.seq
    && below 65536 f.mss

/-- An I/O command's fields (Table 9.8). -/
def IoCmd.ok (c : IoCmd) : Bool :=
  below 65536 c.ctx && below 65536 c.cid && below (2 ^ 32) c.nsid && below (2 ^ 64) c.slba && below 65537 c.nlb && below 64 c.dscp && below 16 c.prchk

/-- A Connect's fields (Table 9.3). -/
def ConnectReq.ok (r : ConnectReq) : Bool :=
  below 65536 r.ctx && below 65536 r.cid && below 65536 r.qid && below 65536 r.cntlid && below 65536 r.sqsize && below (2 ^ 32) r.kato && below (2 ^ 128) r.hostId

/-- Namespace Management's create data. -/
def NsCreate.ok (c : NsCreate) : Bool := below (2 ^ 64) c.nsze && below (2 ^ 64) c.ncap && below 16 c.lbaf && below 8 c.piType

/-- A drive's memory request names a slot. -/
def DmaReq.ok (r : DmaReq) : Bool := below 24 r.slot && below (2 ^ 64) r.addr

/-- A training frame's fields (Table 15.3). -/
def TrainFrame.ok (f : TrainFrame) : Bool := below 16 f.lane && below 4 f.pre && below 4 f.main && below 4 f.post

/-- A CONFIG block's fields (Table 15.4). -/
def ConfigBlk.ok (b : ConfigBlk) : Bool :=
  below 16 b.modnum && below 2 b.bay && below 8 b.pos && below (2 ^ 64) b.serial && below (2 ^ 64) b.session && below 65536 b.rxgood && below 4096 b.akseq

/-- A flit's sequence numbers (Table 15.5). -/
def FlitIn.ok (f : FlitIn) : Bool := below 4096 f.fseq && below 4096 f.akseq

/-- A heartbeat's fields (Table 15.9a). -/
def HeartbeatIn.ok (h : HeartbeatIn) : Bool := below (2 ^ 32) h.hbseq && below 8 h.mode && below 65536 h.rxgood && below (2 ^ 32) h.echoSeq

/-- A MIRROR_WRITE's fields (Table 15.11). -/
def MirrorIn.ok (m : MirrorIn) : Bool := below 15728640 m.page && below 8192 m.nsid && below 32 m.set && below (2 ^ 40) m.stripe

/-- A witness frame's fields (Table 16.3). -/
def WitnessFrame.ok (f : WitnessFrame) : Bool := below (2 ^ 32) f.term && below 65536 f.seq && below 5 f.result && below 4 f.holder

/-- A HELLO's fields (Table 17.1). -/
def Hello.ok (h : Hello) : Bool := below 8 h.pos && below 2 h.bay && below 8 h.mode && below 65536 h.reach

/-- A stack record's fields (R775). -/
def StackRec.ok (r : StackRec) : Bool := below 8 r.pos && below 256 r.members

/-- The heading of a forwarded message (Table 17.2). -/
def FwdHead.ok (h : FwdHead) : Bool := below 8 h.arrPos && below 262144 h.ftag && below 64 h.fgen

/-- A memory error's class and kind (Table 18.2). -/
def MemErr.ok (e : MemErr) : Bool := below 16 e.cls && below 32 e.device && below 4 e.kind

/-- A routed message's heading (R722, R723). -/
def MsgIn.ok (m : MsgIn) : Bool := below 3 m.link && below 16 m.dst && below 16 m.hops

/-- Every operand of a command is in its range. -/
def WellFormed (i : Instr) : Bool :=
  match i with
  | .nop p => Packet.ok p
  | .modGetIdentity p => Packet.ok p
  | .modGetStatus p => Packet.ok p
  | .modRestart p => Packet.ok p
  | .modEnterMaintenance p => Packet.ok p
  | .modSetBootOptions p => Packet.ok p
  | .modEnterDrowse p => Packet.ok p
  | .modWake p => Packet.ok p
  | .modAcquireLock p => Packet.ok p
  | .modReleaseLock p => Packet.ok p
  | .modGetDoor p => Packet.ok p
  | .modReadEvents p => Packet.ok p
  | .modSetEventMask p => Packet.ok p
  | .modSetDoorKey p => Packet.ok p
  | .modSetMgmtAddr p => Packet.ok p
  | .pwrSetSlotLimits p => Packet.ok p
  | .pwrGetSlotStatus p => Packet.ok p
  | .pwrSetSlotPower p => Packet.ok p
  | .pwrClearLockout p => Packet.ok p
  | .pwrSetBudget p => Packet.ok p
  | .pwrGetBudget p => Packet.ok p
  | .pwrSetIndicator p => Packet.ok p
  | .pwrGetFeeds p => Packet.ok p
  | .netSetPortMode p => Packet.ok p
  | .netGetPortStatus p => Packet.ok p
  | .netSetPortAddr p => Packet.ok p
  | .netSetClassMap p => Packet.ok p
  | .netSetQueue p => Packet.ok p
  | .netGetQueue p => Packet.ok p
  | .netFlushQueue p => Packet.ok p
  | .netSetBuffer p => Packet.ok p
  | .netSetFlow p => Packet.ok p
  | .netDeleteFlow p => Packet.ok p
  | .netGetEpoch p => Packet.ok p
  | .netSetMirror p => Packet.ok p
  | .netSetDeadLetter p => Packet.ok p
  | .netReadDeadLetter p => Packet.ok p
  | .netSetPtp p => Packet.ok p
  | .netGetPtp p => Packet.ok p
  | .qosSetPolicer p => Packet.ok p
  | .qosSetSubscriber p => Packet.ok p
  | .qosGetPolicer p => Packet.ok p
  | .qosSetColourMap p => Packet.ok p
  | .qosSetNode p => Packet.ok p
  | .qosSetPortShaper p => Packet.ok p
  | .qosSetGateList p => Packet.ok p
  | .qosGetGateStatus p => Packet.ok p
  | .qosGetNode p => Packet.ok p
  | .qosSetWatch p => Packet.ok p
  | .xptSetRdmaPorts p => Packet.ok p
  | .xptSetRdmaParams p => Packet.ok p
  | .xptSetRelease p => Packet.ok p
  | .xptGetConnection p => Packet.ok p
  | .xptCloseConnection p => Packet.ok p
  | .xptCreateRegion p => Packet.ok p
  | .xptDeleteRegion p => Packet.ok p
  | .xptGrantRegion p => Packet.ok p
  | .xptRekeyRegion p => Packet.ok p
  | .xptGetRegion p => Packet.ok p
  | .xptSetTcpPorts p => Packet.ok p
  | .xptSetTcpParams p => Packet.ok p
  | .xptSetTls p => Packet.ok p
  | .xptSetPool p => Packet.ok p
  | .xptGetPool p => Packet.ok p
  | .nvmSetSubsystem p => Packet.ok p
  | .nvmGetSubsystem p => Packet.ok p
  | .nvmSetHost p => Packet.ok p
  | .nvmDeleteHost p => Packet.ok p
  | .nvmGetHost p => Packet.ok p
  | .nvmSetHostSecret p => Packet.ok p
  | .nvmGetController p => Packet.ok p
  | .nvmEndController p => Packet.ok p
  | .nvmSetTagLimit p => Packet.ok p
  | .nvmGetTags p => Packet.ok p
  | .volCreateSet p => Packet.ok p
  | .volDeleteSet p => Packet.ok p
  | .volGetSet p => Packet.ok p
  | .volSetReserve p => Packet.ok p
  | .volCreateNamespace p => Packet.ok p
  | .volDeleteNamespace p => Packet.ok p
  | .volResizeNamespace p => Packet.ok p
  | .volSetNsPolicy p => Packet.ok p
  | .volAttachNamespace p => Packet.ok p
  | .volGetNamespace p => Packet.ok p
  | .volMigrateParcels p => Packet.ok p
  | .volGetParcel p => Packet.ok p
  | .volSetNsDefaults p => Packet.ok p
  | .volGetEpoch p => Packet.ok p
  | .wbfSetPolicy p => Packet.ok p
  | .wbfGetStatus p => Packet.ok p
  | .wbfDestage p => Packet.ok p
  | .wbfGetJournal p => Packet.ok p
  | .redSetPolicy p => Packet.ok p
  | .redGetHealth p => Packet.ok p
  | .redGetMember p => Packet.ok p
  | .redSetSpare p => Packet.ok p
  | .redEjectMember p => Packet.ok p
  | .redReadmit p => Packet.ok p
  | .redStartRebuild p => Packet.ok p
  | .redForceOnline p => Packet.ok p
  | .redReadBadRanges p => Packet.ok p
  | .redClearBadRanges p => Packet.ok p
  | .drvSetPort p => Packet.ok p
  | .drvGetPort p => Packet.ok p
  | .drvGetDrive p => Packet.ok p
  | .drvResetDrive p => Packet.ok p
  | .drvFormatDrive p => Packet.ok p
  | .drvReadLog p => Packet.ok p
  | .keyGetIdentityKey p => Packet.ok p
  | .keyEstablishKek p => Packet.ok p
  | .keyImportKey p => Packet.ok p
  | .keyGenerateKey p => Packet.ok p
  | .keyExportKey p => Packet.ok p
  | .keyDestroyKey p => Packet.ok p
  | .keyRotateKey p => Packet.ok p
  | .keyGetSlot p => Packet.ok p
  | .keyRunVector p => Packet.ok p
  | .pairGetStatus p => Packet.ok p
  | .pairTakeover p => Packet.ok p
  | .pairSetPolicy p => Packet.ok p
  | .pairStartResync p => Packet.ok p
  | .pairForceClaim p => Packet.ok p
  | .stkGetStatus p => Packet.ok p
  | .stkGetShelf p => Packet.ok p
  | .stkAddShelf p => Packet.ok p
  | .stkRemoveShelf p => Packet.ok p
  | .stkLeaveStack p => Packet.ok p
  | .memGetStatus p => Packet.ok p
  | .memReadLog p => Packet.ok p
  | .memScrubRange p => Packet.ok p
  | .memGetScrub p => Packet.ok p
  | .memSetIdleScrub p => Packet.ok p
  | .memGetIdleScrub p => Packet.ok p
  | .memRetirePage p => Packet.ok p
  | .memRetireRow p => Packet.ok p
  | .memTestWrite p => Packet.ok p
  | .memTestRead p => Packet.ok p
  | .memReloadMap p => Packet.ok p
  | .memRunSelftest p => Packet.ok p
  | .updGetStatus p => Packet.ok p
  | .updBegin p => Packet.ok p
  | .updWriteDelta p => Packet.ok p
  | .updFinish p => Packet.ok p
  | .updActivate p => Packet.ok p
  | .updPropagate p => Packet.ok p
  | .updSetOwnerLock p => Packet.ok p
  | .updAbort p => Packet.ok p
  | .talRead p => Packet.ok p
  | .talSnapshot p => Packet.ok p
  | .talClear p => Packet.ok p
  | .talGetOverflow p => Packet.ok p
  | .talSetStream p => Packet.ok p
  | .lbcntWrite door _ _ => below 3 door
  | .lbdataWrite door _ _ => below 3 door
  | .lbdataRead door _ => below 3 door
  | .lbctlAbort door _ _ => below 3 door
  | .registerWrite r _ _ => RegTarget.ok r
  | .doorFillingTimeout door => below 3 door
  | .commandEnterBusy door => below 3 door
  | .kumelBeginCommand door => below 3 door
  | .kumelBacklogTimeout door _ => below 3 door
  | .commandReplyReady door => below 3 door
  | .lockExpired => true
  | .smbusBlockWrite _ _ _ => true
  | .smbusBlockRead _ => true
  | .alertResponseRead => true
  | .doorDatagram d => Datagram.ok d
  | .datagramWaitEnd => true
  | .seat _ _ strap => below 4 strap
  | .unseat => true
  | .feedGood feed _ => (fun n => below 3 n && decide (0 < n)) feed
  | .feedUvWarn feed _ => (fun n => below 3 n && decide (0 < n)) feed
  | .feedLost feed _ => (fun n => below 3 n && decide (0 < n)) feed
  | .feedOv feed _ => (fun n => below 3 n && decide (0 < n)) feed
  | .feedOvReclose feed _ => (fun n => below 3 n && decide (0 < n)) feed
  | .frontEndTrip => true
  | .bulkChargeEnd => true
  | .chargeFail => true
  | .chargeRetry => true
  | .feedsOffReset => true
  | .holdupDone => true
  | .reserveReady _ => true
  | .reserveWaitTimeout => true
  | .reserveCapacityTest _ => true
  | .reserveTestDone _ => true
  | .singleFeedBudgetTick _ _ _ _ => true
  | .slotShed _ => true
  | .thermalWarn _ => true
  | .thermalRearm _ => true
  | .thermalShutdown _ => true
  | .thermalRestart _ => true
  | .clockLost c => ClockId.ok c
  | .entropyFault => true
  | .entropyRetest _ => true
  | .drbgReseed => true
  | .bootRailsUp => true
  | .bootFlashChecked _ _ => true
  | .bootSelftestDone _ => true
  | .bootDramTrained _ => true
  | .kumelStarted _ => true
  | .enumerationStop => true
  | .bootEnd => true
  | .bootTimeout => true
  | .drowseQuiescent => true
  | .drowseDrivesLow => true
  | .drowseAbandonTimeout => true
  | .drowseExit => true
  | .drowseExitDone => true
  | .watchdogExpiry => true
  | .kumelRestartDone => true
  | .slotProbe slot _ _ => below 24 slot
  | .slotInserted slot => below 24 slot
  | .slotSuspectPull slot _ => below 24 slot
  | .slotAdmit slot _ => below 24 slot
  | .rampResample slot _ => below 24 slot
  | .slotPowerGood slot => below 24 slot
  | .slotResetRelease slot => below 24 slot
  | .slotJoinSettled slot => below 24 slot
  | .inrushTimeout slot => below 24 slot
  | .slotTrip slot cause _ => below 24 slot && below 8 cause
  | .slotRetryExpiry slot => below 24 slot
  | .slotStageOffDelay slot => below 24 slot
  | .shareTelemetrySend _ _ => true
  | .shareTelemetryReceive r => ShareRec.ok r
  | .shareUpdateMissed => true
  | .shareDroop => true
  | .shareRestored => true
  | .indicatorFrame => true
  | .pluggableInserted cage => below 6 cage
  | .pluggableCmisRead cage watts => below 6 cage && below 256 watts
  | .pluggableReady cage => below 6 cage
  | .pluggableFault cage => below 6 cage
  | .pluggableRemoved cage => below 6 cage
  | .linkUp lport => below 32 lport
  | .linkDown lport => below 32 lport
  | .fecDegraded lport _ _ _ => below 32 lport
  | .frameReceive f => Frame.ok f
  | .frameTransmit swport q => below 39 swport && below 8 q
  | .pfcReceive lport prio quanta => below 32 lport && below 8 prio && below 65536 quanta
  | .pfcPauseExpiry lport prio => below 32 lport && below 8 prio
  | .pfcRefresh lport pcp => below 32 lport && below 8 pcp
  | .epochDrained => true
  | .epochSlow => true
  | .ptpMessage lport domain transport _ => below 32 lport && below 256 domain && below 4 transport
  | .ptpLocked => true
  | .ptpUnlocked => true
  | .tokenTick => true
  | .schedulerDispatch qport => below 56 qport
  | .gateEntryChange qport => below 56 qport
  | .gateListStart qport => below 56 qport
  | .gateListRestart qport => below 56 qport
  | .rateEstimateInterval => true
  | .cmReq r => CmReq.ok r
  | .cmRtu qpn => below (2 ^ 24) qpn
  | .repResend ctx => below 65536 ctx
  | .cmDreq qpn => below (2 ^ 24) qpn
  | .cmDrep qpn => below (2 ^ 24) qpn
  | .dreqTimeout ctx => below 65536 ctx
  | .timewaitExpiry ctx => below 65536 ctx
  | .roceRequestPacket p => RocePkt.ok p
  | .roceAckReceive h psn _ => RoceHead.ok h && below (2 ^ 24) psn
  | .roceReadResponse h psn tag gen _ _ _ => RoceHead.ok h && below (2 ^ 24) psn && below 262144 tag && below 64 gen
  | .roceCnpReceive h => RoceHead.ok h
  | .ackCoalesceTimeout ctx => below 65536 ctx
  | .ackTimeout ctx => below 65536 ctx
  | .rnrResend ctx => below 65536 ctx
  | .ratePeriod ctx => below 65536 ctx
  | .dataDone tag gen => below 262144 tag && below 64 gen
  | .completionRelease ctx => below 65536 ctx
  | .tcpSyn f => SynIn.ok f
  | .synackResend _ => true
  | .synEntryExpiry _ => true
  | .tcpHandshakeAck _ => true
  | .tcpSegment p => TcpSeg.ok p
  | .tcpAckTimer ctx => below 65536 ctx
  | .tcpRto ctx => below 65536 ctx
  | .tcpFin ctx seq _ => below 65536 ctx && below (2 ^ 32) seq
  | .tcpRst ctx seq _ => below 65536 ctx && below (2 ^ 32) seq
  | .icreqTimeout ctx => below 65536 ctx
  | .tlsHandshakeDone ctx _ _ _ _ _ _ => below 65536 ctx
  | .tlsHandshakeTimeout ctx => below 65536 ctx
  | .keyupdateInstalled ctx => below 65536 ctx
  | .contextFillStart => true
  | .contextFillDone ctx _ => below 65536 ctx
  | .contextEvict => true
  | .keepAliveExpiry cntlid => below 65536 cntlid
  | .nvmeConnect r => ConnectReq.ok r
  | .nvmeAuthenticationSend ctx cid _ => below 65536 ctx && below 65536 cid
  | .nvmeAuthenticationReceive ctx cid => below 65536 ctx && below 65536 cid
  | .nvmePropertySet ctx cid prop value => below 65536 ctx && below 65536 cid && below (2 ^ 32) prop && below (2 ^ 64) value
  | .nvmePropertyGet ctx cid prop => below 65536 ctx && below 65536 cid && below (2 ^ 32) prop
  | .nvmeDisconnect ctx cid => below 65536 ctx && below 65536 cid
  | .nvmeGetLogPage ctx cid nsid lid => below 65536 ctx && below 65536 cid && below (2 ^ 32) nsid && below 256 lid
  | .nvmeIdentify ctx cid nsid cns _ => below 65536 ctx && below 65536 cid && below (2 ^ 32) nsid && below 256 cns
  | .nvmeAbort ctx cid sqid acid => below 65536 ctx && below 65536 cid && below 65536 sqid && below 65536 acid
  | .abortRequestAtTag ctx cid => below 65536 ctx && below 65536 cid
  | .nvmeSetFeatures ctx cid nsid fid value => below 65536 ctx && below 65536 cid && below (2 ^ 32) nsid && below 256 fid && below (2 ^ 64) value
  | .nvmeGetFeatures ctx cid nsid fid value => below 65536 ctx && below 65536 cid && below (2 ^ 32) nsid && below 256 fid && below (2 ^ 32) value
  | .nvmeAsyncEventRequest ctx cid => below 65536 ctx && below 65536 cid
  | .nvmeNamespaceManagement ctx cid _ c => below 65536 ctx && below 65536 cid && NsCreate.ok c
  | .nvmeNamespaceAttachment ctx cid nsid _ _ => below 65536 ctx && below 65536 cid && below (2 ^ 32) nsid
  | .nvmeKeepAlive ctx cid => below 65536 ctx && below 65536 cid
  | .nvmeFormatNvm ctx cid nsid _ _ _ => below 65536 ctx && below 65536 cid && below (2 ^ 32) nsid
  | .nvmeSanitize ctx cid _ => below 65536 ctx && below 65536 cid
  | .nvmeRead c => IoCmd.ok c
  | .nvmeWrite c => IoCmd.ok c
  | .nvmeFlush c => IoCmd.ok c
  | .nvmeCompare c => IoCmd.ok c
  | .nvmeWriteZeroes c => IoCmd.ok c
  | .nvmeDatasetManagement c => IoCmd.ok c
  | .nvmeVerify c => IoCmd.ok c
  | .nvmeCopy c => IoCmd.ok c
  | .nvmeReservationRegister c => IoCmd.ok c
  | .nvmeReservationReport c => IoCmd.ok c
  | .nvmeReservationAcquire c => IoCmd.ok c
  | .nvmeReservationRelease c => IoCmd.ok c
  | .commandStart sub => below 2048 sub
  | .spaceQueueClaim => true
  | .writeDataArrival tag gen _ _ => below 262144 tag && below 64 gen
  | .destageAgeTrigger set_ _ => below 32 set_
  | .occupancyHigh => true
  | .destageEscalated => true
  | .destageStart set_ => below 32 set_
  | .journalBlockTimer set_ member => below 32 set_ && below 24 member
  | .journalPersisted jseq => below (2 ^ 64) jseq
  | .stripWriteComplete jseq => below (2 ^ 64) jseq
  | .recordRecovery set_ _ _ => below 32 set_
  | .quarantineRelease => true
  | .mapFillDone _ => true
  | .mapDeltaFlush => true
  | .mapEpochDrained => true
  | .mapEpochSlow => true
  | .migrationPassDone => true
  | .initStripe set_ => below 32 set_
  | .driveCompletion _ => true
  | .memberTimeoutCheck => true
  | .hedgeDeadline _ => true
  | .latencyPercentileUpdate slot => below 24 slot
  | .absentwaitExpiry set_ member => below 32 set_ && below 24 member
  | .rebuildStart set_ => below 32 set_
  | .rebuildStripe set_ member => below 32 set_ && below 24 member
  | .resyncRegion set_ member => below 32 set_ && below 24 member
  | .patrolStripe set_ => below 32 set_
  | .identityRecordWrite set_ => below 32 set_
  | .driveTrainingAttempt slot => below 24 slot
  | .driveLinkUp slot speed width _ _ _ _ _ _ => below 24 slot && below 7 speed && below 17 width
  | .driveLinkDown slot => below 24 slot
  | .downmaxExpiry slot => below 24 slot
  | .cstsWaitTimeout slot => below 24 slot
  | .driveAdminCompletion slot _ => below 24 slot
  | .driveAdminTimeout slot => below 24 slot
  | .driveLinkRetrain slot _ => below 24 slot
  | .driveDmaRequest r => DmaReq.ok r
  | .driveCqEntry slot q cid _ _ => below 24 slot && below 64 q && below 65536 cid
  | .doorbellTimer slot q => below 24 slot && below 64 q
  | .driveResetRelease slot => below 24 slot
  | .cipherSelfTest _ => true
  | .nonceReservationLive core => below 48 core
  | .rotationSweepStep slot => below 24 slot
  | .sweepPositionRecord slot => below 24 slot
  | .keyZeroise slot => below 24 slot
  | .linkSignalDetect link _ => below 3 link
  | .trainingFrame link lane f _ w => below 3 link && below 16 lane && TrainFrame.ok f && below 3 w.1 && below 3 w.2.1 && below 3 w.2.2.1 && below 4 w.2.2.2.1
  | .equaliseTimeout link => below 3 link
  | .alignmentCodeword link lane _ _ => below 3 link && below 16 lane
  | .linkAlignTimeout link => below 3 link
  | .configBlock link b => below 3 link && ConfigBlk.ok b
  | .linkRefuseRetry link => below 3 link
  | .flitReceive link f => below 3 link && FlitIn.ok f
  | .replayTimeout link => below 3 link
  | .laneFault link lane => below 3 link && below 16 lane
  | .heartbeatSend link => below 3 link
  | .heartbeatReceive link h => below 3 link && HeartbeatIn.ok h
  | .heartbeatTimeout link => below 3 link
  | .postmarkAckSend => true
  | .postmarkAckReceive pmark => below (2 ^ 48) pmark
  | .postmarkStall => true
  | .shadowPacket seq len _ _ => below (2 ^ 48) seq && below 2561 len
  | .mirrorWrite seq len _ m => below (2 ^ 48) seq && below 2561 len && MirrorIn.ok m
  | .mirrorState seq len _ _ => below (2 ^ 48) seq && below 2561 len
  | .forwardedFrame m cls port _ => MsgIn.ok m && below 8 cls && below 32 port
  | .sessionResumeTimeout link => below 3 link
  | .linkWiden link => below 3 link
  | .mateInHigh => true
  | .renewSend => true
  | .renewResend => true
  | .statusSend => true
  | .claimSend => true
  | .leaseGrant f => WitnessFrame.ok f
  | .leaseDeny f => WitnessFrame.ok f
  | .leaseAck f => WitnessFrame.ok f
  | .leaseExpiry => true
  | .witnessLost => true
  | .gratuitousArp => true
  | .memberWriteHoldExpiry => true
  | .selfFaultDetect code => below 256 code
  | .takeoverFreezeDrained => true
  | .takeoverForwardEnd => true
  | .resyncStart => true
  | .resyncPhaseDone phase _ => below 4 phase
  | .helloSend link => below 3 link
  | .helloReceive link h => below 5 link && Hello.ok h
  | .helloTimeout link => below 3 link
  | .dirUpdate m _ _ _ _ => MsgIn.ok m
  | .stackRecordMessage m r => MsgIn.ok m && StackRec.ok r
  | .adminRequest m src op p => MsgIn.ok m && below 8 src && below 65536 op && Packet.ok p
  | .adminReply m door _ _ => MsgIn.ok m && below 3 door
  | .stackFormTimeout => true
  | .masterUnreachable => true
  | .forwardCommand m h cls sub host _ c => MsgIn.ok m && FwdHead.ok h && below 8 cls && below 2048 sub && below (2 ^ 128) host && IoCmd.ok c
  | .forwardDataRequest m cls h => MsgIn.ok m && below 8 cls && FwdHead.ok h
  | .forwardWriteData m cls h _ => MsgIn.ok m && below 8 cls && FwdHead.ok h
  | .forwardReadData m cls h _ => MsgIn.ok m && below 8 cls && FwdHead.ok h
  | .forwardCompletion m cls h _ _ => MsgIn.ok m && below 8 cls && FwdHead.ok h
  | .forwardTimeout tag => below 262144 tag
  | .firmwareOffer link _ _ _ => below 3 link
  | .firmwareAnswer link _ _ => below 3 link
  | .firmwareData link _ _ => below 3 link
  | .firmwareEnd link _ => below 3 link
  | .firmwareResult m _ mod => MsgIn.ok m && below 16 mod
  | .updVerifyDone => true
  | .propagateTimeout => true
  | .trialConfirm => true
  | .memoryError e => MemErr.ok e
  | .selftestStart eseq => below (2 ^ 32) eseq
  | .selftestComplete eseq _ => below (2 ^ 32) eseq
  | .triageTimeout eseq => below (2 ^ 32) eseq
  | .idleScrubRead chan => below 12 chan
  | .scrubRangeRead cls _ _ _ _ _ => below 8 cls
  | .streamCapture => true
  | .perstAssert => true
  | .seLinkUp => true
  | .seLinkDown => true
  | .busMasterDisable => true
  | .busMasterEnable => true
  | .powerStateD3hot => true
  | .powerStateD0 => true
  | .msixUnmask v => below 10 v
  | .chctlEnable c _ => below 8 c
  | .chctlDisable c => below 8 c
  | .ringloWrite c _ _ => below 8 c
  | .kick c => below 8 c
  | .dmaDescriptorFetched c _ => below 8 c
  | .dmaDescriptorPoll c => below 8 c
  | .dmaRecordAvailable c => below 8 c
  | .dmaFlushTimeout c => below 8 c
  | .dmaBusError ecause => below 16 ecause
  | .dmaReadTimeout => true
  | .dmaUnexpectedCompletion => true
  | .driveCstsReady slot => below 24 slot
  | .keyCopiesErased slot => below 24 slot
  | .thickCreationComplete nsid => below (2 ^ 32) nsid
  | .creditStall link cls => below 3 link && below 8 cls
  | .forceClaimTimeout => true
  | .reserveChargeLow _ => true
  | .leaseFrameIgnored => true
  | .managementLinkUp => true

end Sys2Proof
end

