-- ==== Sys2Proof/Safety.lean ====
section
/-! DEFINITION. The terms in which the statements speak: a command that answers a next state, a Letterbox packet that its desk
takes, the reply that waits for its door, and what a command leaves as it was. -/
namespace Sys2Proof.Machine

/-- The command answers a next state, of which `q` holds. -/
def Runs (i : Instr) (s : State) (q : State → Prop) : Prop := ∃ t, exec i s = .next t ∧ q t

/-- The packet counted at its door, with LOCKTO restarted (R856, counters 16–18 of Table 19.17). -/
def State.counted (s : State) (p : Packet) : State := touchLock p.door (count1 (16 + p.door) s)

/-- The state that a command's desk sees when its packet comes straight from its door. -/
def State.arrived (s : State) (op : Nat) (p : Packet) : State := arriveInEntry op (s.counted p)

/-- The packet of opcode `op`, with `n` parameter words and `d` data words, passes checks 1–7 of R875 and its length check, comes
straight from one of the three doors, and need not wake the module first. -/
def taken (op n d : Nat) (p : Packet) (s : State) : Bool :=
  below 3 p.door && (deskEntry op p s).isNone && (preCheck op p (s.counted p)).isNone
    && !(match catRow op with | some r => wakesFirst r (s.counted p) | none => false)
    && decide (p.pwc = n) && decide (p.words.length = n + d)

/-- The last reply that set out is this packet's, with this status and these result words. -/
def Replied (p : Packet) (st : Nat) (ws : List Word) (t : State) : Prop :=
  t.lb.replies.getLast? = some { door := p.door, tag := p.tag, status := st, words := ws, orphan := false }

/-- The whole state once a desk that leaves `u` has answered OK with result words `ws`: what `u` tells the partner of the command has
set out (R730), and the reply (R839). -/
def answered (op : Nat) (p : Packet) (ws : List Word) (u : State) : State := post p.door p.tag false stOk ws (shadowLetter op p u)

/-- The whole state once a desk that leaves `u` has accepted: the ACCEPTED reply waits for its door unless it left already (R861). -/
def accepted (op : Nat) (p : Packet) (u : State) : State :=
  let v := shadowLetter op p u
  if replyWaits v p.door p.tag then v else post p.door p.tag false stAccepted [] v

/-- The state without its log of what left the module, the Letterbox, the Service Endpoint, the counters, the links and the pairing
desk: what neither a reply, an event, a counter nor a shadow record touches. -/
def State.calm (s : State) : State := { s with out := [], lb := {}, se := {}, tal := {}, links := {}, pair := {} }

/-- An admin or fabrics command of kind `kind` passes the common checks: its connection is READY, host commands are admitted (R144), the module Active and Kumel running,
`n` is the queue's controller and `c` its record, and the identifier is free (R397, R403, R411, R415). -/
def adminTakes (kind : AdmKind) (ctx cid n : Nat) (c : Ctrl) (s : State) : Bool :=
  decide ((s.ctx ctx).st = .ready) && !s.md.admitStop && decide (s.md.mode = .active) && decide (s.md.kumel = .running) && decide ((s.ctx ctx).ctrl = some n)
    && decide (tabFind s.nvm.ctrls n = some c) && (decide ((s.ctx ctx).qid = 0) || decide (kind = .disconnect)) && !(c.disc && decide (kind = .other))
    && (!c.needAuth || c.authd || decide (kind = .auth) || decide (kind = .disconnect)) && !adminTaken (takeCapsule ctx s) ctx cid

/-- The state that an admin or fabrics command acts on: its capsule is taken, and it counts as an arrival (R147, R280). -/
def adminAt (ctx : Nat) (s : State) : State := entryArrival (takeCapsule ctx s)

/-- An I/O command passes the checks before policing: host commands are admitted (R144), its connection is a READY I/O queue of a controller that needs no further
authentication, the module is Active, and the identifier is free (R397, R411, R415). -/
def ioTakes (c : IoCmd) (s : State) : Bool :=
  let a := adminAt c.ctx s
  let x := a.ctx c.ctx
  decide ((s.ctx c.ctx).st = .ready) && !s.md.admitStop && (s.ctx c.ctx).ctrl.isSome && decide (s.md.mode = .active) && decide (x.qid ≠ 0) && !x.disc
    && !(match ctrlOf a c.ctx with | some k => k.needAuth && !k.authd | none => false) && !cidTaken a c.ctx c.cid

/-- A packet or connection message of front port `lport` reaches its engine at once: the module serves its front, the port is no
mirror's analysis port, no take-over runs, and it is not in Drowse (R146, R176, R206, R766). -/
def engineTakes (lport : Nat) (s : State) : Bool :=
  servesFront s && !isAnalysis s lport && s.pair.take.isNone && decide (s.md.mode ≠ .drowse)

/-- The state that the engine acts on: the shadow record of the packet for `obj` has set out (R730). -/
def engineAt (obj : Nat) (s : State) : State := shadow .shadow 1 obj s

/-- The mode changes that a step may make: those of Table 4.5, and two that rules state beside it. DENY 4 makes a Standby Fenced
(R761), and a forced claim makes a module in Maintenance Active (R746, R770). DEDUCED (log 30, unsafe). -/
def Mode.may (a b : Mode) : Bool :=
  match a, b with
  | _, .boot => true
  | .boot, .drowse => false
  | .boot, _ => true
  | .standby, .drowse => false
  | .standby, _ => true
  | .active, _ => true
  | .fenced, .drowse => false
  | .fenced, _ => true
  | .drowse, .standby | .drowse, .maintenance => false
  | .drowse, _ => true
  | .maintenance, .active => true
  | .maintenance, .maintenance => true
  | .maintenance, _ => false

/-- Boot is over in every mode but Boot (Table 4.3, R131). -/
def State.stageOk (s : State) : Bool := decide (s.md.mode = .boot) || decide (s.md.stage = .done)

/-- The command changes nothing outside the parts that `f` copies from the state after it to the state before. -/
def Keeps (i : Instr) (s : State) (f : State → State → State) : Prop := ∀ t, exec i s = .next t → t = f t s

end Sys2Proof.Machine
end

