-- ==== Sys2Proof/Certificates/Slice0/Obligations.lean ====
section
/-! DEFINITION. The statements for the provers. -/
open Sys2Proof Sys2Proof.Machine

/-- NOP, MOD.GET_IDENTITY, MOD.GET_STATUS, MOD.SET_BOOT_OPTIONS and MOD.WAKE in Active are answered OK when their packet passes the checks of R875; MOD.RESTART of the module outside Active and Drowse restarts it with cause COMMAND; MOD.ENTER_MAINTENANCE leaves Standby or Fenced for Maintenance, and with FORCE in Active begins the forced entry; MOD.ENTER_DROWSE is accepted where no data moves and admission is not stopped, and begins the entry unless one runs. The next state of each is the one named, whole: its effect, its shadow record and its reply, and nothing else. Concluded to answer a next state, by constructor: nop, modGetIdentity, modGetStatus, modSetBootOptions, modWake, modRestart, modEnterMaintenance, modEnterDrowse. -/
def Obligations.ModuleCommandsComplete : Prop :=
  (∀ (s : State) (p : Packet), taken 0x0000 0 0 p s = true → exec (.nop p) s = .next (answered 0x0000 p [] (s.arrived 0x0000 p)))
  ∧ (∀ (s : State) (p : Packet), taken 0x0001 0 0 p s = true → exec (.modGetIdentity p) s = .next (answered 0x0001 p [fld 7 0 (s.arrived 0x0001 p).order ||| fld 8 8 (s.arrived 0x0001 p).bay.bay ||| fld 11 9 (s.arrived 0x0001 p).pos ||| fld 13 12 (s.arrived 0x0001 p).bay.form ||| fld 23 16 Config.step.toNat, runningImage (s.arrived 0x0001 p), fld 0 0 (s.arrived 0x0001 p).upd.run ||| flag 1 (otherBankOk (s.arrived 0x0001 p)), word Config.serial.toNat, word (Config.serial.toNat >>> 32), word Config.keyId.toNat, word (Config.keyId.toNat >>> 32)] (s.arrived 0x0001 p)))
  ∧ (∀ (s : State) (p : Packet), taken 0x0002 0 0 p s = true → exec (.modGetStatus p) s = .next (answered 0x0002 p ((deskModGetStatus p (s.arrived 0x0002 p)).2.1) (s.arrived 0x0002 p)))
  ∧ (∀ (s : State) (p : Packet), taken 0x0005 1 0 p s = true → clean (mask 1 0) (p.w 2) = true → exec (.modSetBootOptions p) s = .next (answered 0x0005 p [] ((s.arrived 0x0005 p).onMd fun m => { m with maintOpt := bit 0 (p.w 2), dramFull := bit 1 (p.w 2) })))
  ∧ (∀ (s : State) (p : Packet), taken 0x0007 0 0 p s = true → s.md.mode = .active → exec (.modWake p) s = .next (answered 0x0007 p [] (s.arrived 0x0007 p)))
  ∧ (∀ (s : State) (p : Packet), taken 0x0003 2 0 p s = true → p.w 2 = 0 → p.w 3 = 0x00004824 → (s.arrived 0x0003 p).md.mode ≠ .active → (s.arrived 0x0003 p).md.mode ≠ .drowse → exec (.modRestart p) s = .next (answered 0x0003 p [] (restartRunning .command (s.arrived 0x0003 p))))
  ∧ (∀ (s : State) (p : Packet), taken 0x0004 1 0 p s = true → clean (mask 0 0) (p.w 2) = true → (s.arrived 0x0004 p).md.mode = .standby ∨ (s.arrived 0x0004 p).md.mode = .fenced → exec (.modEnterMaintenance p) s = .next (answered 0x0004 p [] (enterMaintenance (s.arrived 0x0004 p))))
  ∧ (∀ (s : State) (p : Packet), taken 0x0004 1 0 p s = true → p.w 2 = 1 → (s.arrived 0x0004 p).md.mode = .active → exec (.modEnterMaintenance p) s = .next (accepted 0x0004 p (forcedProgress (closeHosts (overtakeDrowse (accept p 0x0004 0 0 ((post p.door p.tag false stAccepted [] (s.arrived 0x0004 p)).onMd fun m => { m with entering := some (p.door, p.tag), admitStop := true })))))))
  ∧ (∀ (s : State) (p : Packet), taken 0x0006 0 0 p s = true → dataMoving (s.arrived 0x0006 p) = false → (s.arrived 0x0006 p).md.admitStop = false → exec (.modEnterDrowse p) s = .next (accepted 0x0006 p (accept p 0x0006 0 0 (if (s.arrived 0x0006 p).md.drowse = .none then beginDrowse (post p.door p.tag false stAccepted [] (s.arrived 0x0006 p)) else (post p.door p.tag false stAccepted [] (s.arrived 0x0006 p))))))

/-- SEATED_N going low on a charged module outside hold-up and a thermal shutdown samples the bay and begins Boot, or restarts it with cause RESEAT after a lever cycle; in hold-up or a thermal shutdown it only records the pins; going high it stops stages, queue and egress. A feed becoming good charges the bulk bus or joins; its undervoltage, loss, overvoltage and reclosing raise the events of R44 and open or close its path; the loss of the last path starts hold-up. The front-end trip opens both paths and starts hold-up. Concluded to answer a next state, by constructor: seat, unseat, feedGood, feedUvWarn, feedLost, feedOv, feedOvReclose, frontEndTrip. -/
def Obligations.SeatingAndFeedsComplete : Prop :=
  (∀ (s : State) (b c : Bool) (k : Nat), s.pins.seated = false → s.fe.latch = .none → s.fe.charged = true → s.fe.leverOpen = false → s.fe.holdup = false → s.th.shutdown = false → exec (.seat b c k) s = .next (beginBoot { s with pins := { s.pins with seated := true, bayId := b, bayIdChk := c, strap := k % 4 }, fe := { s.fe with leverOpen := false } }))
  ∧ (∀ (s : State) (b c : Bool) (k : Nat), s.pins.seated = false → s.fe.latch = .none → s.fe.charged = true → s.fe.leverOpen = false → s.fe.holdup = false → s.th.shutdown = false → Runs (.seat b c k) s fun t => t.pins = { s.pins with seated := true, bayId := b, bayIdChk := c, strap := k % 4 } ∧ t.bay = (if s.bay.sampled then s.bay else sampleBay t.pins) ∧ t.md.mode = .boot ∧ t.fe.coreOn = true ∧ t.res.charger = true)
  ∧ (∀ (s : State) (b c : Bool) (k : Nat), s.pins.seated = false → s.fe.latch = .none → s.fe.charged = true → s.fe.leverOpen = true → s.bay.sampled = true → s.fe.holdup = false → s.th.shutdown = false → exec (.seat b c k) s = .next (moduleRestart .reseat ({ s with pins := { s.pins with seated := true, bayId := b, bayIdChk := c, strap := k % 4 } }.onFe fun f => { f with leverOpen := false })))
  ∧ (∀ (s : State) (b c : Bool) (k : Nat), s.pins.seated = false → s.fe.latch ≠ .tripped → s.fe.holdup = true ∨ s.th.shutdown = true → exec (.seat b c k) s = .next { s with pins := { s.pins with seated := true, bayId := b, bayIdChk := c, strap := k % 4 }, fe := { s.fe with leverOpen := false } })
  ∧ (∀ (s : State), s.pins.seated = true → exec .unseat s = .next (silenceLanes ((((allStagesOff { s with pins := { s.pins with seated := false } }).onPwr fun p => { p with queue := [], slots := tabMap p.slots fun _ x => if x.state = .disabled || x.state = .lockout then { x with presentAt := none, empties := 0 } else { x with state := .empty, presentAt := none, empties := 0, shed := false, waited := false, wait := .no } }).onFe fun f => { f with leverOpen := true }).onMd fun m => { m with egressOff := true })))
  ∧ (∀ (s : State) (k mv : Nat), (s.feed k).good = false → 10600 ≤ mv → feedNo k = true → s.fe.latch = .none → s.fe.holdup = false → s.fe.charged = false → exec (.feedGood k mv) s = .next (settleBudget ((raise 64 (word k) (onFeed k (fun f => { f with good := true, mv := mv }) s)).onFe fun f => { f with charging := true })))
  ∧ (∀ (s : State) (k mv : Nat), feedNo k = true → mv < 10800 → exec (.feedUvWarn k mv) s = .next (raise 66 (word k) (onFeed k (fun f => { f with mv := mv }) s)))
  ∧ (∀ (s : State) (k mv : Nat), feedNo k = true → (s.feed k).good = true → mv < 10200 → exec (.feedLost k mv) s = .next ((fun u => doIf (noFeed u) enterHoldup u) (settleBudget (raise 65 (word k) (count1 (607 + k) ((onFeed k (fun f => { f with good := false, closed := false, mv := mv, cur := 0 }) s).onFe fun f => { f with charging := f.charging && (f.f1.good || f.f2.good) }))))))
  ∧ (∀ (s : State) (k mv : Nat), feedNo k = true → (s.feed k).ov = false → 13800 < mv → exec (.feedOv k mv) s = .next ((fun u => doIf (noFeed u) enterHoldup u) (raise 67 (word k) (onFeed k (fun f => { f with ov := true, closed := false, mv := mv }) s))))
  ∧ (∀ (s : State) (k mv : Nat), feedNo k = true → (s.feed k).ov = true → mv < 13500 → exec (.feedOvReclose k mv) s = .next (onFeed k (fun f => { f with ov := false, mv := mv, closed := f.good && (s.fe.charged && decide (s.fe.latch = .none) && !s.fe.holdup) }) s))
  ∧ (∀ (s : State), s.fe.charged = true → s.fe.latch ≠ .tripped → exec .frontEndTrip s = .next (enterHoldup ((raise 68 0 (count1 610 s)).onFe fun f => { f with latch := .tripped, f1 := { f.f1 with closed := false }, f2 := { f.f2 with closed := false } })))

/-- The end of a charge closes the good feeds and starts the module afresh; a failed charge counts, latches a retry or, at the third in a row, stays off; the retry and a 1 s absence of both feeds clear the latch. The end of hold-up restarts the module where a feed is good, else powers it down. The reserve's reports follow R51, R55 and R57. Concluded to answer a next state, by constructor: bulkChargeEnd, chargeFail, chargeRetry, feedsOffReset, holdupDone, reserveReady, reserveWaitTimeout, reserveCapacityTest, reserveTestDone, reserveChargeLow. -/
def Obligations.ChargeHoldupReserveComplete : Prop :=
  (∀ (s : State), s.fe.charging = true → exec .bulkChargeEnd s = .next (moduleRestart .powerOn (s.onFe fun f => { f with charging := false, charged := true, fails := 0, coreOn := true, f1 := { f.f1 with closed := f.f1.good && !f.f1.ov }, f2 := { f.f2 with closed := f.f2.good && !f.f2.ov } })))
  ∧ (∀ (s : State), s.fe.charging = true → exec .chargeFail s = .next (raise 69 0 (count1 611 (s.onFe fun f => { f with charging := false, fails := f.fails + 1, latch := if 3 ≤ f.fails + 1 then .chargeOff else .chargeRetry, retryDue := s.clk.aon + sec, f1 := { f.f1 with closed := false }, f2 := { f.f2 with closed := false } }))))
  ∧ (∀ (s : State), s.fe.latch = .chargeRetry → due s.fe.retryDue s.clk.aon = true → exec .chargeRetry s = .next (s.onFe fun f => { f with latch := .none, charging := f.f1.good || f.f2.good }))
  ∧ (∀ (s : State), s.fe.latch = .tripped ∨ s.fe.latch = .chargeOff → exec .feedsOffReset s = .next (s.onFe fun f => { f with latch := .none, fails := 0, charged := false, charging := false, coreOn := false, f1 := { f.f1 with good := false, closed := false }, f2 := { f.f2 with good := false, closed := false } }))
  ∧ (∀ (s : State), s.fe.holdup = true → someGood s = true → s.fe.latch = .none → exec .holdupDone s = .next (restartRunning .holdup (s.onFe fun f => { f with holdup := false, f1 := { f.f1 with closed := f.f1.good && !f.f1.ov }, f2 := { f.f2 with closed := f.f2.good && !f.f2.ov } })))
  ∧ (∀ (s : State), s.fe.holdup = true → someGood s = false → exec .holdupDone s = .next (s.onFe fun f => { f with holdup := false, charged := false, coreOn := false, charging := false }))
  ∧ (∀ (s : State) (j : Nat), 110 ≤ j → s.res.ready = false → exec (.reserveReady j) s = .next (settleReserve (raise 70 0 ((s.onRes fun r => { r with usable := j, ready := true, waiting := false, chargeLow := false }).onMd fun m => { m with resWaitOver := true }))))
  ∧ (∀ (s : State) (j : Nat), 110 ≤ j → s.res.ready = true → exec (.reserveReady j) s = .next (settleReserve (s.onRes fun r => { r with usable := j, ready := true, waiting := false, chargeLow := false })))
  ∧ (∀ (s : State), s.res.waiting = true → s.md.mode = .boot → s.md.bootAt + 20 * sec ≤ s.clk.now → exec .reserveWaitTimeout s = .next (settleReserve ((s.onRes fun r => { r with waiting := false, chargeLow := true }).onMd fun m => { m with resWaitOver := true })))
  ∧ (∀ (s : State) (j : Nat), testDue (setCharge j s) = true → 130 ≤ j → exec (.reserveCapacityTest j) s = .next ((setCharge j s).onRes fun r => { r with testing := true, bootTest := false, testAt := some (setCharge j s).clk.aon }))
  ∧ (∀ (s : State) (j : Nat), testDue (setCharge j s) = false → exec (.reserveCapacityTest j) s = .next (setCharge j s))
  ∧ (∀ (s : State) (j : Nat), j < 130 → exec (.reserveCapacityTest j) s = .next (setCharge j s))
  ∧ (∀ (s : State) (j : Nat), s.res.testing = true → exec (.reserveTestDone j) s = .next (setCharge j (count1 613 (s.onRes fun r => { r with testing := false, lastTest := some s.clk.aon, testLow := decide (j < 110) }))))
  ∧ (∀ (s : State) (j : Nat), j < 110 → exec (.reserveChargeLow j) s = .next (settleReserve (s.onRes fun r => { r with usable := j, ready := false, chargeLow := true })))

/-- A reading of 100 °C or more raises MOD.THERMAL_WARN once; one below 95 °C rearms it; one above 115 °C held shuts stages, renewal and core down; below 90 °C after a shutdown the module restarts with cause THERMAL. A lost core or DRAM clock restarts the module with cause FATAL; a lane's or transmit group's takes its links down; the entropy source's is an entropy fault. A self-test failure of the entropy source is noted, and a passing retest clears it. Concluded to answer a next state, by constructor: thermalWarn, thermalRearm, thermalShutdown, thermalRestart, clockLost. -/
def Obligations.HeatClocksComplete : Prop :=
  (∀ (s : State) (tj : BitVec 16), s.th.armed = true → 800 ≤ tj.toInt → exec (.thermalWarn tj) s = .next (raise 8 0 (count1 7 { s with th := { s.th with tj := tj, armed := false } })))
  ∧ (∀ (s : State) (tj : BitVec 16), exec (.thermalRearm tj) s = .next { s with th := { s.th with tj := tj, armed := s.th.armed || decide (tj.toInt < 760) } })
  ∧ (∀ (s : State) (tj : BitVec 16), 920 < tj.toInt → s.th.shutdown = false → s.fe.coreOn = true → exec (.thermalShutdown tj) s = .next (silenceLanes (((allStagesOff { s with th := { s.th with tj := tj, shutdown := true, report := true } }).onFe fun f => { f with coreOn := false }).onMd fun m => { m with egressOff := true })))
  ∧ (∀ (s : State) (tj : BitVec 16), s.th.shutdown = true → tj.toInt < 720 → exec (.thermalRestart tj) s = .next (moduleRestart .thermal { s with th := { s.th with tj := tj } }))
  ∧ (∀ (s : State) (c : ClockId), exec (.clockLost c) s = .next ((fun u => match c with | .lane _ | .txGroup _ => linksDownForClock c u | .entropy => entropyFault u | .dram _ | .core _ => restartRunning .fatal u) (raise 4 (word c.index) (count1 6 (s.onMd fun m => { m with clockLost := tabIns m.clockLost c.index true })))))

/-- Each report of a boot step moves Boot from the stage before it to its own: rails, flash banks (or HOLD_FLASH with Fault lit where neither passes), self-test, DRAM training and Kumel's start; enumeration stops at 40 s; the reserve being ready Boot ends in the mode of the first row of R134 that applies; after 45 s, or 105 s with DRAM_FULL, without one it ends Fenced. Concluded to answer a next state, by constructor: bootRailsUp, bootFlashChecked, bootSelftestDone, bootDramTrained, kumelStarted, managementLinkUp, enumerationStop, bootEnd, bootTimeout, entropyFault. -/
def Obligations.BootStagesComplete : Prop :=
  (∀ (s : State), s.md.mode = .boot → s.md.stage = .alwaysOn → s.bay.ok = true → s.fe.coreOn = true → exec .bootRailsUp s = .next (s.onMd fun m => { m with stage := .rails }))
  ∧ (∀ (s : State) (a b : Bool), s.md.mode = .boot → s.md.stage = .rails → exec (.bootFlashChecked a b) s = .next (bootBank a b (s.onMd fun m => if !a && !b then { m with stage := .holdFlash, faultLed := true } else { m with stage := .flash })))
  ∧ (∀ (s : State) (f : Bool), s.md.mode = .boot → s.md.stage = .flash → exec (.bootSelftestDone f) s = .next (doIf f (raise 2 0) (s.onMd fun m => { m with stage := .selftest, selftestBad := f, faultLed := m.faultLed || f })))
  ∧ (∀ (s : State) (cs : List Nat), s.md.mode = .boot → s.md.stage = .selftest → exec (.bootDramTrained cs) s = .next (bootMemory (forAll cs (fun ch => raise 3 (word ch)) (s.onMd fun m => { m with stage := .dram, dramBad := !cs.isEmpty, faultLed := m.faultLed || !cs.isEmpty }))))
  ∧ (∀ (s : State) (ok : Bool), s.md.mode = .boot → s.md.stage = .dram → exec (.kumelStarted ok) s = .next (doIf (!ok) entropyFault (startLease (s.onMd fun m => { m with stage := .kumel, kumel := .running }))))
  ∧ (∀ (s : State), exec .managementLinkUp s = .next (s.onMd fun m => { m with mgmtLink := true }))
  ∧ (∀ (s : State), s.md.mode = .boot → s.step6 = true → s.md.bootAt + 40 * sec ≤ s.clk.now → exec .enumerationStop s = .next (s.onMd fun m => { m with enumStop := true, stage := .pairing }))
  ∧ (∀ (s : State) (m : Mode), s.md.mode = .boot → s.step6 = true → s.md.resWaitOver = true → bootOutcome s = some m → exec .bootEnd s = .next (mastered (endBoot m (doIf (m = .maintenance) releaseLease (s.onMd fun x => { x with maintOpt := x.maintOpt && !(s.md.maintBoot && !s.md.selftestBad && !s.md.dramBad), maintBoot := false })))))
  ∧ (∀ (s : State), s.md.mode = .boot → s.step6 = true → bootOutcome s = none → s.md.bootAt + (if s.md.dramBoot then 105 else 45) * sec ≤ s.clk.now → exec .bootTimeout s = .next (endBoot .fenced s))
  ∧ (∀ (s : State), s.md.entropyBad = false → exec .entropyFault s = .next (raise 5 0 (s.onMd fun m => { m with entropyBad := true })))

/-- Quiescence held for 10 ms lets the drives go low; the drives being low commits the entry with the fabric clock down and completes MOD.ENTER_DROWSE; 10 s without quiescence abandons it. A wake starts the exit, whose end returns the module to Active with held commands run in order. The watchdog's expiry restarts Kumel or, where it would be the third within 10 minutes, leaves it stopped; the restart's end sets it running again. Concluded to answer a next state, by constructor: drowseQuiescent, drowseDrivesLow, drowseAbandonTimeout, drowseExit, drowseExitDone, watchdogExpiry, kumelRestartDone. -/
def Obligations.DrowseAndWatchdogComplete : Prop :=
  (∀ (s : State), s.md.drowse = .quiesce → s.md.mode = .active → quiescent s = true → s.md.quietAt + 10 * ms ≤ s.clk.now → exec .drowseQuiescent s = .next (s.onMd fun m => { m with drowse := .drivesLow }))
  ∧ (∀ (s : State), s.md.drowse = .drivesLow → s.md.mode = .active → exec .drowseDrivesLow s = .next (finish (fun r => r.op = 0x0006) 10 stOk 0 (changeMode .drowse (drowseReply true (count1 2 (drivesPower true (s.onMd fun m => { m with drowse := .none, fabricSlow := true })))))))
  ∧ (∀ (s : State), s.md.drowse = .quiesce → s.md.drowseAt + 10 * sec ≤ s.clk.now → exec .drowseAbandonTimeout s = .next (abandonDrowse s))
  ∧ (∀ (s : State), s.md.mode = .drowse → s.md.drowse ≠ .exiting → exec .drowseExit s = .next (s.onMd fun m => { m with drowse := .exiting, exitAt := s.clk.now, fabricSlow := false }))
  ∧ (∀ (s : State), s.md.mode = .drowse → s.md.drowse = .exiting → exec .drowseExitDone s = .next (resumeHeld (answerWakes (raise 12 (word ((s.clk.now - s.md.exitAt) / ms)) (changeMode .active ((drivesPower false (errorExpired s)).onMd fun m => { m with drowse := .none, patrolPaused := false }))))))
  ∧ (∀ (s : State), s.md.kumel = .running → exec .watchdogExpiry s = .next (kumelRestart s))
  ∧ (∀ (s : State), s.md.kumel = .restarting → exec .kumelRestartDone s = .next (resumeKumel (resumeKeepAlive (raise 6 0 (s.onMd fun m => { m with kumel := .running })))))

/-- At an open door, where the access is one the door takes: a legal count starts a filling; a data word is appended and the last one makes the door BUSY; a read takes the next reply word and empties REPLY to IDLE; ABORT in BUSY sets DISCARD and elsewhere returns the door to IDLE; 1 s without a word ends a filling in ERROR 4. A register write to LBCTL sets EVEN and RPEN; SESTAT bits are cleared by writing 1; the low BAR0 word takes the address. Concluded to answer a next state, by constructor: lbcntWrite, lbdataWrite, lbdataRead, lbctlAbort, doorFillingTimeout, registerWrite. -/
def Obligations.DoorRegistersComplete : Prop :=
  (∀ (s : State) (d : Nat) (al : Bool) (w : Word), doorOpen s d = true → (d = 1 → al = true) → (s.door d).st = .idle ∨ (s.door d).st = .reply → 2 ≤ bits 12 0 w → bits 12 0 w ≤ 4096 → exec (.lbcntWrite d al w) s = .next (startFilling d (bits 12 0 w) s))
  ∧ (∀ (s : State) (d : Nat) (al : Bool) (w : Word), doorOpen s d = true → (d = 1 → al = true) → (s.door d).st = .filling → exec (.lbdataWrite d al w) s = .next (onDoor d (fun x => { x with buf := x.buf ++ [w], expect := x.expect - 1, lastWr := s.clk.now, st := if x.expect ≤ 1 then .busy else .filling }) s))
  ∧ (∀ (s : State) (d : Nat) (al : Bool) (w : Word) (ws : List Word), doorOpen s d = true → (d = 1 → al = true) → (s.door d).st = .reply → (s.door d).reply = w :: ws → exec (.lbdataRead d al) s = .next (send { kind := .readData, a := d, ws := [w] } (settle d (onDoor d (fun x => { x with reply := ws, st := if ws.isEmpty then .idle else .reply }) s))))
  ∧ (∀ (s : State) (d : Nat) (al : Bool) (w : Word), doorOpen s d = true → (d = 1 → al = true) → (s.door d).st = .busy → exec (.lbctlAbort d al w) s = .next (settle d (onDoor d (fun x => { x with evEn := bit 8 w, rpEn := bit 9 w }) (onDoor d (fun x => { x with discard := true }) s))))
  ∧ (∀ (s : State) (d : Nat) (al : Bool) (w : Word), doorOpen s d = true → (d = 1 → al = true) → (s.door d).st = .filling ∨ (s.door d).st = .reply ∨ (s.door d).st = .error → exec (.lbctlAbort d al w) s = .next (settle d (onDoor d (fun x => { x with evEn := bit 8 w, rpEn := bit 9 w }) (settle d (onDoor d (fun x => { x with st := .idle, buf := [], reply := [], expect := 0 }) s)))))
  ∧ (∀ (s : State) (d : Nat), d < 3 → (s.door d).st = .filling → (s.door d).lastWr + sec ≤ s.clk.now → exec (.doorFillingTimeout d) s = .next (enterError d 4 s))
  ∧ (∀ (s : State) (d : Nat) (al : Bool) (w : Word), doorOpen s d = true → (d = 1 → al = true) → bit 0 w = false → exec (.registerWrite (.lbctl d) al w) s = .next (settle d (onDoor d (fun x => { x with evEn := bit 8 w, rpEn := bit 9 w }) s)))
  ∧ (∀ (s : State) (w : Word), s.se.link = true → exec (.registerWrite (.bar0 0x0008) true w) s = .next (s.onSe fun e => { e with busErr := e.busErr && !bit 0 w, mOff := e.mOff && !bit 1 w, unexp := e.unexp && !bit 2 w, linkLoss := e.linkLoss && !bit 3 w }))
  ∧ (∀ (s : State) (w : Word), s.se.link = true → exec (.registerWrite (.config 0x10) true w) s = .next (s.onSe fun e => { e with bar0 := e.bar0 / 2 ^ 32 * 2 ^ 32 + w.toNat / 65536 * 65536 }))

/-- A packet complete in BUSY is counted at its door; where a check of R875 fails the door's reply is that check's, else the packet waits at its desk. Kumel takes the oldest packet of a door from its backlog, or after 50 ms answers BUSY with a hint of 10 to 1,000 ms. The first reply for a door enters REPLY with 2 + RWC words. A lock whose time has passed is released with MOD.LOCK_EXPIRED. Concluded to answer a next state, by constructor: commandEnterBusy, kumelBeginCommand, kumelBacklogTimeout, commandReplyReady, lockExpired. -/
def Obligations.DoorToDeskComplete : Prop :=
  (∀ (s : State) (d op : Nat) (p : Packet) (st : Nat) (ws : List Word), doorPacket s d = some (op, p) → preCheck op p (onDoor d (fun x => { x with buf := [] }) (touchLock d (count1 (16 + d) s))) = some (st, ws) → exec (.commandEnterBusy d) s = .next (post d p.tag false st ws (onDoor d (fun x => { x with buf := [] }) (touchLock d (count1 (16 + d) s)))))
  ∧ (∀ (s : State) (d op : Nat) (p : Packet) (r : CatRow), doorPacket s d = some (op, p) → preCheck op p (onDoor d (fun x => { x with buf := [] }) (touchLock d (count1 (16 + d) s))) = none → catRow op = some r → s.md.mode ≠ .drowse → exec (.commandEnterBusy d) s = .next (arriveInEntry op ((onDoor d (fun x => { x with buf := [] }) (touchLock d (count1 (16 + d) s))).onLb fun l => { l with inbox := l.inbox ++ [⟨d, p.tag, op, p.pwc, p.words, !r.byK, false⟩] })))
  ∧ (∀ (s : State) (d : Nat) (e : DeskEntry), s.md.kumel = .running → s.lb.inbox.find? (backlogged d) = some e → exec (.kumelBeginCommand d) s = .next (s.onLb fun l => { l with inbox := l.inbox.eraseP (backlogged d) ++ [{ e with begun := true }] }))
  ∧ (∀ (s : State) (d k : Nat) (e : DeskEntry), s.lb.inbox.find? (backlogged d) = some e → exec (.kumelBacklogTimeout d k) s = .next (post e.door e.tag e.orphan stBusy [word (max 10 (min 1000 k))] (s.onLb fun l => { l with inbox := l.inbox.eraseP (backlogged d) })))
  ∧ (∀ (s : State) (d : Nat) (r : DeskReply), s.lb.replies.find? (fun r => r.door = d) = some r → r.orphan = false → (s.door d).discard = false → (s.door d).st = .busy → exec (.commandReplyReady d) s = .next (releaseHeld d r.tag (settle d (onDoor d (fun x => { x with st := .reply, buf := [], reply := (fld 15 0 r.words.length ||| fld 31 16 r.status) :: r.tag :: r.words }) ((takeMgmt d r.tag s).onLb fun l => { l with replies := l.replies.eraseP fun x => x.door = d })))))
  ∧ (∀ (s : State) (d : Nat) (r : DeskReply), s.lb.replies.find? (fun r => r.door = d) = some r → r.orphan = false → (s.door d).discard = true → exec (.commandReplyReady d) s = .next (releaseHeld d r.tag (settle d (onDoor d (fun x => { x with st := .idle, discard := false, buf := [] }) ((takeMgmt d r.tag s).onLb fun l => { l with replies := l.replies.eraseP fun x => x.door = d })))))
  ∧ (∀ (s : State) (d : Nat) (tag : Word) (ws : List Word), s.lb.mgmtNew = some (d, tag, ws) → (takeMgmt d tag s).lb = { s.lb with mgmtNew := none, mgmtMode := bits 1 0 (ws.getD 0 0), mgmtPfx4 := bits 13 8 (ws.getD 0 0), mgmtPfx6 := bits 23 16 (ws.getD 0 0), mgmt4 := ws.getD 1 0, mgmtGw := ws.getD 2 0, mgmt6 := ws.drop 3 })
  ∧ (∀ (s : State) (l : Lock), s.lb.lock = some l → l.last + l.span * sec ≤ s.clk.now → exec .lockExpired s = .next (raise 17 (fld 1 0 l.door) (s.onLb fun l => { l with lock := none })))

/-- A Block Write with a right PEC and a count of 4 to 252 bytes puts its words into LBDATA; a Block Read in REPLY takes up to 63 words; a wrong PEC is counted and refused whole; a read of the Alert Response Address while SMB_ALERT_N is low returns the door's address and releases it. A new authenticated request datagram is applied; a repeat of the last one answers the cached response; a MAC that fails is counted. A held WAIT datagram is answered when its door leaves BUSY. Concluded to answer a next state, by constructor: smbusBlockWrite, smbusBlockRead, alertResponseRead, doorDatagram, datagramWaitEnd. -/
def Obligations.TransportsComplete : Prop :=
  (∀ (s : State) (n : Nat) (ws : List Word), s.bay.valid = true → n % 4 = 0 → 4 ≤ n → n ≤ 252 → ws.length * 4 = n → exec (.smbusBlockWrite n ws false) s = .next (forAll ws (writeLbdata 0) s))
  ∧ (∀ (s : State) (n : Nat) (ws : List Word), s.bay.valid = true → exec (.smbusBlockWrite n ws true) s = .next (count1 35 s))
  ∧ (∀ (s : State), s.bay.valid = true → s.lb.d0.st = .reply → exec (.smbusBlockRead false) s = .next (send { kind := .smbBlock, a := 4 * min 63 s.lb.d0.reply.length, ws := (readWords 0 (min 63 s.lb.d0.reply.length) s).1 } (readWords 0 (min 63 s.lb.d0.reply.length) s).2))
  ∧ (∀ (s : State), s.bay.valid = true → s.lb.d0.alert = true → s.lb.d0.evLvl = true ∨ s.lb.d0.rpLvl = true → exec .alertResponseRead s = .next (send { kind := .ara, a := if s.bay.bay = 0 then 0x32 else 0x33 } (onDoor 0 (fun x => { x with alert := false }) s)))
  ∧ (∀ (s : State) (d : Datagram), s.md.mgmtLink = true → s.lb.wait = none → overRate s = false → (s.doorKey d.keyId).held = true → d.malformed = false → Config.hmacSha256 (s.doorKey d.keyId).key d.covered = d.mac → (s.doorKey d.keyId).last < d.seq → exec (.doorDatagram d) s = .next (applyDatagram d (countRate s)))
  ∧ (∀ (s : State) (d : Datagram), s.md.mgmtLink = true → s.lb.wait = none → overRate s = false → (s.doorKey d.keyId).held = true → d.malformed = false → Config.hmacSha256 (s.doorKey d.keyId).key d.covered = d.mac → d.seq = (s.doorKey d.keyId).last → exec (.doorDatagram d) s = .next (send { kind := .dgram, ws := (s.doorKey d.keyId).cache } (count1 33 (countRate s))))
  ∧ (∀ (s : State) (w : WaitDgram), s.lb.wait = some w → s.lb.d2.st ≠ .busy ∨ w.due ≤ s.clk.now → exec .datagramWaitEnd s = .next (finishDatagram w.keyId w.seq w.nrd (s.onLb fun l => { l with wait := none })))

/-- MOD.ACQUIRE_LOCK grants a free lock, renews the door's own, takes another's with FORCE and MOD.LOCK_TAKEN, and conflicts without it; MOD.RELEASE_LOCK frees the door's own. MOD.GET_DOOR reports a door. MOD.READ_EVENTS returns and removes the oldest records and the overflow counts. MOD.SET_EVENT_MASK, MOD.SET_DOOR_KEY and MOD.SET_MGMT_ADDR store what they carry. Concluded to answer a next state, by constructor: modAcquireLock, modReleaseLock, modGetDoor, modReadEvents, modSetEventMask, modSetDoorKey, modSetMgmtAddr. -/
def Obligations.LockAndEventCommandsComplete : Prop :=
  (∀ (s : State) (p : Packet), taken 0x0010 2 0 p s = true → clean (mask 11 0 ||| mask 16 16) (p.w 2) = true → 1 ≤ bits 11 0 (p.w 2) → bits 11 0 (p.w 2) ≤ 3600 → p.w 3 = (if bit 16 (p.w 2) then 0x00004824 else 0) → s.lb.lock = none ∨ s.lockHolder = p.door → exec (.modAcquireLock p) s = .next (answered 0x0010 p [] ((s.counted p).onLb fun l => { l with lock := some ⟨p.door, bits 11 0 (p.w 2), s.clk.now⟩ })))
  ∧ (∀ (s : State) (p : Packet) (l : Lock), taken 0x0010 2 0 p s = true → clean (mask 11 0 ||| mask 16 16) (p.w 2) = true → 1 ≤ bits 11 0 (p.w 2) → bits 11 0 (p.w 2) ≤ 3600 → p.w 3 = (if bit 16 (p.w 2) then 0x00004824 else 0) → (s.counted p).lb.lock = some l → l.door ≠ p.door → (bit 16 (p.w 2) = true → exec (.modAcquireLock p) s = .next (answered 0x0010 p [] (raise 16 (fld 1 0 p.door ||| fld 5 4 l.door) ((s.counted p).onLb fun x => { x with lock := some ⟨p.door, bits 11 0 (p.w 2), s.clk.now⟩ })))) ∧ (bit 16 (p.w 2) = false → exec (.modAcquireLock p) s = .next (post p.door p.tag false stConflict [fld 1 0 l.door] (s.counted p))))
  ∧ (∀ (s : State) (p : Packet), taken 0x0011 0 0 p s = true → ((s.counted p).lockHolder = p.door → exec (.modReleaseLock p) s = .next (answered 0x0011 p [] (releaseLock (s.counted p)))) ∧ ((s.counted p).lockHolder ≠ p.door → exec (.modReleaseLock p) s = .next (post p.door p.tag false stConflict [] (s.counted p))))
  ∧ (∀ (s : State) (p : Packet), taken 0x0012 1 0 p s = true → clean (mask 1 0) (p.w 2) = true → bits 1 0 (p.w 2) < 3 → exec (.modGetDoor p) s = .next (answered 0x0012 p ((deskModGetDoor p (s.arrived 0x0012 p)).2.1) (s.arrived 0x0012 p)))
  ∧ (∀ (s : State) (p : Packet), taken 0x0013 1 0 p s = true → clean (mask 5 0) (p.w 2) = true → 1 ≤ bits 5 0 (p.w 2) → bits 5 0 (p.w 2) ≤ 32 → exec (.modReadEvents p) s = .next (answered 0x0013 p ((fld 5 0 (min (bits 5 0 (p.w 2)) ((s.arrived 0x0013 p).door p.door).evq.length) ||| flag 8 (decide (bits 5 0 (p.w 2) < ((s.arrived 0x0013 p).door p.door).evq.length))) :: overWords ((s.arrived 0x0013 p).door p.door) ++ (((s.arrived 0x0013 p).door p.door).evq.take (bits 5 0 (p.w 2))).flatMap EvRec.toWords) (settle p.door (onDoor p.door (fun x => { x with evq := ((s.arrived 0x0013 p).door p.door).evq.drop (bits 5 0 (p.w 2)), lostEv := [], overTold := false }) (s.arrived 0x0013 p)))))
  ∧ (∀ (s : State) (p : Packet), taken 0x0014 3 0 p s = true → clean (mask 3 0) (p.w 2) = true → exec (.modSetEventMask p) s = .next (answered 0x0014 p [] (onDoor p.door (fun x => { x with maskOff := tabIns x.maskOff (bits 3 0 (p.w 2)) (BitVec.ofNat 64 (2 ^ 64 - 1 - numOf [p.w 3, p.w 4])) }) (s.arrived 0x0014 p))))
  ∧ (∀ (s : State) (p : Packet) (k : Nat), taken 0x0015 2 8 p s = true → p.w 2 = 8 → clean (mask 0 0 ||| mask 9 8) (p.w 3) = true → bit 8 (p.w 3) = false → bit 9 (p.w 3) = false → bits 0 0 (p.w 3) = k → p.door ≠ 2 ∨ (s.arrived 0x0015 p).lb.authKey ≠ k → exec (.modSetDoorKey p) s = .next (answered 0x0015 p [] (onKey k (fun _ => { held := true, key := p.data 2 }) (s.arrived 0x0015 p))))
  ∧ (∀ (s : State) (p : Packet) (k : Nat) (kek key : List Word), taken 0x0015 2 10 p s = true → p.w 2 = 10 → clean (mask 0 0 ||| mask 9 8) (p.w 3) = true → bit 8 (p.w 3) = true → bit 9 (p.w 3) = false → bits 0 0 (p.w 3) = k → (s.arrived 0x0015 p).order ≠ 2 → (s.arrived 0x0015 p).key.kek = some kek → p.door ≠ 2 ∨ (s.arrived 0x0015 p).lb.authKey ≠ k → (Config.kwUnwrap kek (p.data 2) = some key → exec (.modSetDoorKey p) s = .next (answered 0x0015 p [] (onKey k (fun _ => { held := true, key := key }) (s.arrived 0x0015 p)))) ∧ (Config.kwUnwrap kek (p.data 2) = none → exec (.modSetDoorKey p) s = .next (post p.door p.tag false stIntegrity [] (count1 5177 (s.arrived 0x0015 p)))))
  ∧ (∀ (s : State) (p : Packet) (k : Nat), taken 0x0015 2 0 p s = true → p.w 2 = 0 → clean (mask 0 0 ||| mask 9 8) (p.w 3) = true → bit 9 (p.w 3) = true → bit 8 (p.w 3) = false ∨ (s.arrived 0x0015 p).order ≠ 2 → bits 0 0 (p.w 3) = k → p.door ≠ 2 ∨ (s.arrived 0x0015 p).lb.authKey ≠ k → exec (.modSetDoorKey p) s = .next (answered 0x0015 p [] (onKey k (fun _ => { held := false, key := [] }) (s.arrived 0x0015 p))))
  ∧ (∀ (s : State) (p : Packet), taken 0x0016 7 0 p s = true → clean (mask 1 0 ||| mask 13 8 ||| mask 23 16) (p.w 2) = true → bits 13 8 (p.w 2) ≤ 32 → bits 23 16 (p.w 2) ≤ 128 → exec (.modSetMgmtAddr p) s = .next (answered 0x0016 p [] ((s.arrived 0x0016 p).onLb fun l => { l with mgmtNew := some (p.door, p.tag, (List.range 7).map fun k => p.w (2 + k)) })))

/-- PERST_N resets the endpoint and its door, disowning its packets, releasing its lock and raising event 26; its link's rise and fall raise events 24 and 25, the fall halting every active channel; clearing Bus Master Enable and entering D3hot halt them with MOFF; setting it, returning to D0 and unmasking a vector send what is pending; a completion for no outstanding read sets UNEXP and is counted; without the link none of these acts. Concluded to answer a next state, by constructor: perstAssert, seLinkUp, seLinkDown, busMasterDisable, busMasterEnable, powerStateD3hot, powerStateD0, dmaUnexpectedCompletion, msixUnmask. -/
def Obligations.EndpointComplete : Prop :=
  (∀ (s : State), exec .perstAssert s = .next ((fun u => raise 26 0 (count1 51 (settle 1 (doIf (u.lockHolder = 1) releaseLock u)))) (resetDoor1 (disown { s with pins := { s.pins with perstN := false }, se := {} }))))
  ∧ (∀ (s : State), s.se.link = false → exec .seLinkUp s = .next (raise 24 0 ({ s with pins := { s.pins with perstN := true } }.onSe fun e => { e with link := true })))
  ∧ (∀ (s : State), s.se.link = true → exec .seLinkDown s = .next (raise 25 0 (count1 52 ((fun u => gainStat u.se.linkLoss (fun e => { e with linkLoss := true }) u) (forAll (activeChans s) (haltChan .linkDown) (s.onSe fun e => { e with link := false }))))))
  ∧ (∀ (s : State), s.se.link = true → s.se.bme = true → exec .busMasterDisable s = .next (masterOff (s.onSe fun e => { e with bme := false })))
  ∧ (∀ (s : State), s.se.link = true → exec .busMasterEnable s = .next (sendPending (s.onSe fun e => { e with bme := true })))
  ∧ (∀ (s : State), s.se.link = false → exec .busMasterEnable s = .next s ∧ exec .busMasterDisable s = .next s ∧ exec .powerStateD3hot s = .next s ∧ exec .powerStateD0 s = .next s ∧ exec .dmaUnexpectedCompletion s = .next s)
  ∧ (∀ (s : State), s.se.link = true → s.se.d3 = false → exec .powerStateD3hot s = .next (masterOff (s.onSe fun e => { e with d3 := true })))
  ∧ (∀ (s : State), s.se.link = true → exec .powerStateD0 s = .next (sendPending (s.onSe fun e => { e with d3 := false })))
  ∧ (∀ (s : State) (v : Nat), s.se.link = true → v < 10 → exec (.msixUnmask v) s = .next (sendPending (s.onSe fun e => { e with vecs := tabMod {} e.vecs v fun x => { x with masked := false } })))
  ∧ (∀ (s : State), s.se.link = true → exec .dmaUnexpectedCompletion s = .next (count1 49 (gainStat s.se.unexp (fun e => { e with unexp := true }) s)))

/-- Setting EN on a channel that is off, with a legal ring and a free source, starts it and fetches from HEAD; clearing EN halts an active one with STOPPED; RINGLO sets the base and zeroes HEAD; KICK and 100 µs in WAITING fetch again; a fetched descriptor without OWN waits, a legal one with OWN opens; the source's next record is written or closes the descriptor full; FLUSHMS closes it; a bus error, and a read without completion for 50 ms, halt every active channel. Concluded to answer a next state, by constructor: chctlEnable, chctlDisable, ringloWrite, kick, dmaDescriptorFetched, dmaDescriptorPoll, dmaRecordAvailable, dmaFlushTimeout, dmaBusError, dmaReadTimeout. -/
def Obligations.ServiceDmaComplete : Prop :=
  (∀ (s : State) (c : Nat) (w : Word), c < 8 → s.se.link = true → (s.chan c).st = .off → exec (.chctlEnable c w) s = .next (enableChan c (onChan c (fun x => { x with irqEn := bit 1 w, src := bits 6 4 w, flush := bits 23 16 w }) s)))
  ∧ (∀ (s : State) (c : Nat), (s.chan c).active = false → (s.chan c).ringOk = true → (s.chan c).src ≠ 0 → srcTaken (onChan c (fun x => { x with en := true }) s) c = false → s.se.busErr = false → s.se.bme = true → s.se.d3 = false → enableChan c s = startFetch c (onChan c (fun x => { x with st := .running, halt := .none, desc := none }) (onChan c (fun x => { x with en := true }) s)))
  ∧ (∀ (s : State) (c : Nat), c < 8 → s.se.link = true → (s.chan c).active = true → (s.chan c).desc = none → exec (.chctlDisable c) s = .next (haltChan .stopped c (onChan c (fun x => { x with en := false }) s)))
  ∧ (∀ (s : State) (c : Nat) (w : Word), c < 8 → s.se.link = true → (s.chan c).active = false → exec (.ringloWrite c true w) s = .next (onChan c (fun x => { x with baseLo := w, head := 0 }) s))
  ∧ (∀ (s : State) (c : Nat), c < 8 → s.se.link = true → (s.chan c).st = .waiting → exec (.kick c) s = .next (onChan c (fun x => { x with fetch := true, fetchAt := s.clk.now }) (send { kind := .dmaRead, a := c, b := (s.chan c).descAddr, c := 32 } s)))
  ∧ (∀ (s : State) (c : Nat) (ws : List Word), c < 8 → (s.chan c).fetch = true → (s.chan c).active = true → bit 31 (wordAt ws 2) = false → s.se.link = true → exec (.dmaDescriptorFetched c ws) s = .next (onChan c (fun x => { x with st := .waiting, pollAt := s.clk.now + 100 * us }) (onChan c (fun x => { x with fetch := false }) s)))
  ∧ (∀ (s : State) (c : Nat) (ws : List Word), c < 8 → (s.chan c).fetch = true → (s.chan c).active = true → bit 31 (wordAt ws 2) = true → 4096 ≤ bits 20 0 (wordAt ws 2) → bits 20 0 (wordAt ws 2) ≤ 1048576 → bits 20 0 (wordAt ws 2) % 64 = 0 → bits 5 0 (wordAt ws 0) = 0 → s.se.link = true → exec (.dmaDescriptorFetched c ws) s = .next (onChan c (fun x => { x with st := .running, desc := some ⟨numOf [wordAt ws 0, wordAt ws 1], bits 20 0 (wordAt ws 2), bit 30 (wordAt ws 2), 0, [], none⟩ }) (onChan c (fun x => { x with fetch := false }) s)))
  ∧ (∀ (s : State) (c : Nat), c < 8 → (s.chan c).st = .waiting → (s.chan c).pollAt ≤ s.clk.now → exec (.dmaDescriptorPoll c) s = .next (startFetch c (onChan c (fun x => { x with pollAt := s.clk.now + 100 * us }) s)))
  ∧ (∀ (s : State) (c id : Nat) (ws : List Word) (d : OpenDesc), c < 8 → (s.chan c).active = true → (s.chan c).desc = some d → nextRecord s c d = some (id, ws) → d.used + 4 * (ws.length + 1) ≤ d.len → exec (.dmaRecordAvailable c) s = .next (send { kind := .dmaData, a := c, b := d.buf + d.used, ws := (fld 3 0 (s.chan c).src ||| fld 31 16 ws.length) :: ws } (onChan c (fun x => { x with desc := some { d with used := d.used + 4 * (ws.length + 1), recs := d.recs ++ [id], first := some (d.first.getD s.clk.now) } }) s)))
  ∧ (∀ (s : State) (c id : Nat) (ws : List Word) (d : OpenDesc), c < 8 → (s.chan c).active = true → (s.chan c).desc = some d → nextRecord s c d = some (id, ws) → d.len < d.used + 4 * (ws.length + 1) → exec (.dmaRecordAvailable c) s = .next (startFetch c (closeDesc c 0 s)))
  ∧ (∀ (s : State) (c t0 : Nat) (d : OpenDesc), c < 8 → (s.chan c).active = true → (s.chan c).desc = some d → d.first = some t0 → t0 + max 1 (s.chan c).flush * ms ≤ s.clk.now → exec (.dmaFlushTimeout c) s = .next (startFetch c (closeDesc c 1 s)))
  ∧ (∀ (s : State) (k : Nat), s.se.link = true → exec (.dmaBusError k) s = .next (raise 27 (fld 7 0 (chanMask (activeChans s)) ||| fld 11 8 k) (count1 48 ((fun u => gainStat u.se.busErr (fun e => { e with busErr := true, ecause := k }) u) (forAll (activeChans s) (haltChan .busError) s)))))
  ∧ (∀ (s : State), (activeChans s).any (fun c => (s.chan c).fetch && due ((s.chan c).fetchAt + 50 * ms) s.clk.now) = true → exec .dmaReadTimeout s = .next (busError 3 s))

/-- TAL.READ answers the live counters, or the last snapshot's; TAL.SNAPSHOT latches every counter with its sequence and time; TAL.CLEAR zeroes the selected groups; TAL.GET_OVERFLOW answers the overflow bits; TAL.SET_STREAM stores the stream's period and groups. A capture that is due, with a channel serving it and every record of the last capture in a buffer, queues two records for each streamed group. Concluded to answer a next state, by constructor: talRead, talSnapshot, talClear, talGetOverflow, talSetStream, streamCapture. -/
def Obligations.CountersComplete : Prop :=
  (∀ (s : State) (p : Packet), taken 0x0F01 2 0 p s = true → clean (mask 12 0 ||| mask 16 16) (p.w 2) = true → bit 16 (p.w 2) = false → clean (mask 6 0) (p.w 3) = true → 1 ≤ bits 6 0 (p.w 3) → bits 6 0 (p.w 3) ≤ 64 → bits 12 0 (p.w 2) + bits 6 0 (p.w 3) ≤ 8192 → exec (.talRead p) s = .next (answered 0x0F01 p (0 :: word (s.arrived 0x0F01 p).clk.now :: word ((s.arrived 0x0F01 p).clk.now >>> 32) :: (List.range (bits 6 0 (p.w 3))).flatMap (fun k => (tabGet {} (s.arrived 0x0F01 p).tal.ctrs (bits 12 0 (p.w 2) + k) : Ctr).toWords)) (s.arrived 0x0F01 p)))
  ∧ (∀ (s : State) (p : Packet), taken 0x0F01 2 0 p s = true → clean (mask 12 0 ||| mask 16 16) (p.w 2) = true → bit 16 (p.w 2) = true → (s.arrived 0x0F01 p).tal.sseq ≠ 0 → clean (mask 6 0) (p.w 3) = true → 1 ≤ bits 6 0 (p.w 3) → bits 6 0 (p.w 3) ≤ 64 → bits 12 0 (p.w 2) + bits 6 0 (p.w 3) ≤ 8192 → exec (.talRead p) s = .next (answered 0x0F01 p (word (s.arrived 0x0F01 p).tal.sseq :: word (s.arrived 0x0F01 p).tal.stime :: word ((s.arrived 0x0F01 p).tal.stime >>> 32) :: (List.range (bits 6 0 (p.w 3))).flatMap (fun k => (tabGet {} (s.arrived 0x0F01 p).tal.bank (bits 12 0 (p.w 2) + k) : Ctr).toWords)) (s.arrived 0x0F01 p)))
  ∧ (∀ (s : State) (p : Packet), taken 0x0F02 0 0 p s = true → exec (.talSnapshot p) s = .next (answered 0x0F02 p (snapWords (takeSnapshot (s.arrived 0x0F02 p))) (takeSnapshot (s.arrived 0x0F02 p))))
  ∧ (∀ (s : State) (p : Packet) (t : State), taken 0x0F03 1 0 p s = true → clean (mask 17 0) (p.w 2) = true → bits 15 0 (p.w 2) ≠ 0 → (doIf (bit 16 (p.w 2)) takeSnapshot (s.arrived 0x0F03 p)).onTal (fun x => { x with ctrs := clearCtrs (bits 15 0 (p.w 2)) (bit 17 (p.w 2)) x.ctrs }) = t → exec (.talClear p) s = .next (answered 0x0F03 p ((if bit 16 (p.w 2) = true then snapWords (doIf (!bit 17 (p.w 2)) (count 7682 (sumNat ((setBits 16 (bits 15 0 (p.w 2))).map assignedIn))) t) else [0, 0, 0])) (doIf (!bit 17 (p.w 2)) (count 7682 (sumNat ((setBits 16 (bits 15 0 (p.w 2))).map assignedIn))) t)))
  ∧ (∀ (s : State) (p : Packet), taken 0x0F04 1 0 p s = true → clean (mask 3 0) (p.w 2) = true → exec (.talGetOverflow p) s = .next (answered 0x0F04 p (word (sumNat ((List.range 16).map fun g => if groupOverflowed (s.arrived 0x0F04 p).tal.ctrs g then 2 ^ g else 0)) :: (List.range 16).map (overflowWord (s.arrived 0x0F04 p).tal.ctrs (bits 3 0 (p.w 2)))) (s.arrived 0x0F04 p)))
  ∧ (∀ (s : State) (p : Packet), taken 0x0F05 2 0 p s = true → clean (mask 15 0) (p.w 2) = true → clean (mask 15 0) (p.w 3) = true → bits 15 0 (p.w 2) = 0 ∨ (10 ≤ bits 15 0 (p.w 2) ∧ bits 15 0 (p.w 2) ≤ 60000 ∧ bits 15 0 (p.w 3) ≠ 0) → exec (.talSetStream p) s = .next (answered 0x0F05 p [] ((s.arrived 0x0F05 p).onTal fun t => { t with period := bits 15 0 (p.w 2), smask := bits 15 0 (p.w 3), stDue := (s.arrived 0x0F05 p).clk.now + bits 15 0 (p.w 2) * ms })))
  ∧ (∀ (s : State), s.tal.period ≠ 0 → s.tal.stDue ≤ s.clk.now → (List.range 8).any (fun c => (s.chan c).src = 2 && ((s.chan c).st = .running || (s.chan c).st = .waiting)) = true → s.tal.stLeft.all (fun r => inBuffer s r.id) = true → exec .streamCapture s = .next (s.onTal fun t => { t with stDue := t.stDue + t.period * ms, stseq := t.stseq + 1, stOk := true, stLeft := t.stLeft ++ streamRecs t s.clk.now }))

/-- A present outcome takes an EMPTY slot to DEBOUNCE; 500 ms of them queue it; the allocator's turn ramps a queued slot whose pre-sample is below 1.0 V, and joins one above 10.8 V; the second pre-sample decides between the two or trips; power good and a settled join enter ON; SLPERST_N goes high 100 ms later; a loss of current without a link for 10 ms empties the slot. Concluded to answer a next state, by constructor: slotProbe, slotInserted, slotSuspectPull, slotAdmit, rampResample, slotPowerGood, slotResetRelease, slotJoinSettled. -/
def Obligations.SlotProbeAndAdmissionComplete : Prop :=
  (∀ (s : State) (k pre : Nat), k < 24 → pre < 500 → probing s = true → (s.slot k).state = .empty → (s.slot k).offDue = none → (s.slot k).presentAt = none → probeTime s k = true → Runs (.slotProbe k pre none) s fun t => (t.slot k).state = .debounce ∧ (t.slot k).probe = .present ∧ (t.slot k).vout = pre ∧ (t.slot k).presentAt = some s.clk.aon ∧ (t.slot k).pullArmed = true)
  ∧ (∀ (s : State) (k t0 : Nat), k < 24 → (s.slot k).state = .debounce → (s.slot k).presentAt = some t0 → t0 + 500 * ms ≤ s.clk.aon → exec (.slotInserted k) s = .next (enqueue k (raise 80 (word k) (count1 (560 + k) (onSlot k (fun x => { x with state := .queued }) s)))))
  ∧ (∀ (s : State) (k i : Nat), k < 24 → i < 50 → (s.slot k).state = .on → (s.slot k).rstHigh = true → (s.slot k).offDue = none → portLinked s k = false → portLinkedOnce s k = true → exec (.slotSuspectPull k i) s = .next (tellOn (onMask s) (memberPulled k (onSlot k (fun x => { x with state := .empty, presentAt := none, empties := 0 }) (stageOff k s)))))
  ∧ (∀ (s : State) (k pre : Nat), admits s k = true → (s.slot k).state ≠ .partnerOnly → pre < 1000 → partnerRamps s = false ∨ (s.slot k).state ≠ .queued → exec (.slotAdmit k pre) s = .next (tellOn (onMask s) (enterRamp k (onSlot k (fun x => { x with vout := pre }) (noteAdmission k s)))))
  ∧ (∀ (s : State) (k pre : Nat), admits s k = true → 10800 < pre → exec (.slotAdmit k pre) s = .next (tellOn (onMask s) (enterJoin k (onSlot k (fun x => { x with vout := pre }) (noteAdmission k s)))))
  ∧ (∀ (s : State) (k pre : Nat), (s.slot k).state = .ramp → (s.slot k).wait = .resample → (s.slot k).rampDue ≤ s.clk.aon → pre < 1000 → frontEndOn s = true → partnerRamps s = false → exec (.rampResample k pre) s = .next (tellOn (onMask s) (enterRamp k (onSlot k (fun x => { x with vout := pre }) s))))
  ∧ (∀ (s : State) (k pre : Nat), (s.slot k).state = .ramp → (s.slot k).wait = .resample → (s.slot k).rampDue ≤ s.clk.aon → 1000 ≤ pre → pre ≤ 10800 → frontEndOn s = true → exec (.rampResample k pre) s = .next (tellOn (onMask s) (ownTrip k 2 (onSlot k (fun x => { x with vout := pre }) s))))
  ∧ (∀ (s : State) (k : Nat), (s.slot k).state = .ramp → (s.slot k).stage = true → (s.slot k).offDue = none → exec (.slotPowerGood k) s = .next (tellOn (onMask s) (enterOn k s)))
  ∧ (∀ (s : State) (k : Nat), (s.slot k).state = .on → (s.slot k).rstHigh = false → (s.slot k).rstDue ≤ s.clk.aon → (s.slot k).offDue = none → pulseOver s k = true → exec (.slotResetRelease k) s = .next (portReleased k (onSlot k (fun x => { x with rstHigh := true }) s)))
  ∧ (∀ (s : State) (k : Nat), (s.slot k).state = .join → (s.slot k).stage = true → settled s (s.slot k) = true → frontEndOn s = true → (s.slot k).offDue = none → exec (.slotJoinSettled k) s = .next (tellOn (onMask s) (enterOn k s)))

/-- The inrush timer's expiry and a stage's SHORT, ENERGY or FAST trip take both stages off with the cause recorded and the retry or lockout entered; the retry timer queues the slot again; 10 ms after SLPERST_N went low the stage goes off; one stage is shed at a time while a single feed is above 95 A for 1 s. Concluded to answer a next state, by constructor: inrushTimeout, slotTrip, slotRetryExpiry, slotStageOffDelay, slotShed. -/
def Obligations.SlotProtectionComplete : Prop :=
  (∀ (s : State) (k : Nat), (s.slot k).state = .ramp → (s.slot k).stage = true → (s.slot k).rampDue ≤ s.clk.aon → (s.slot k).offDue = none → exec (.inrushTimeout k) s = .next (ownTrip k 2 s))
  ∧ (∀ (s : State) (k m : Nat), (s.slot k).stage = true → (s.slot k).state.commits = true → 500000 ≤ m → exec (.slotTrip k 3 m) s = .next (ownTrip k 3 s))
  ∧ (∀ (s : State) (k m : Nat), (s.slot k).stage = true → (s.slot k).state.commits = true → 1000 * (s.slot k).act.ifast < m → exec (.slotTrip k 4 m) s = .next (ownTrip k 4 s))
  ∧ (∀ (s : State) (k m : Nat), (s.slot k).stage = true → (s.slot k).state = .ramp ∨ (s.slot k).state = .join → 2000 ≤ m → exec (.slotTrip k 1 m) s = .next (ownTrip k 1 s))
  ∧ (∀ (s : State) (k c : Nat), turningOff (s.slot k) = false → ownTrip k c s = shareSend (2 ^ k) 0 0 0 (trip k c s.clk.aon s))
  ∧ (∀ (s : State) (k : Nat), (s.slot k).state = .retryWait → (s.slot k).retryDue ≤ s.clk.aon → exec (.slotRetryExpiry k) s = .next (enqueue k (onSlot k (fun x => { x with state := .queued }) s)))
  ∧ (∀ (s : State) (k t0 : Nat), (s.slot k).offDue = some (t0, .disabled) → t0 ≤ s.clk.aon → exec (.slotStageOffDelay k) s = .next (tellOn (onMask s) (enterDisabled k (stageOff k s))))
  ∧ (∀ (s : State) (k : Nat), enterDisabled k s = raise 83 (word k) (onSlot k (fun x => { x with state := .disabled, presentAt := none, empties := 0, shed := false, waited := false }) (leaveQueue k (stageOff k s))))
  ∧ (∀ (s : State) (k t0 : Nat), (s.slot k).offDue = some (t0, .queued) → t0 ≤ s.clk.aon → exec (.slotStageOffDelay k) s = .next (tellOn (onMask s) (queueShed k (onSlot k (fun x => { x with state := .queued, presentAt := none, empties := 0 }) (stageOff k s)))))
  ∧ (∀ (s : State) (i k : Nat), shedDue s i = true → lastAdmitted s (fun x => x.stage && x.fedBy && x.state.commits && x.offDue.isNone) = some k → exec (.slotShed i) s = .next (tellOn (onMask s) (queueShed k (enterPartnerOnly k (onSlot k (fun x => { x with fedBy := true }) (stageOff k (s.onPwr fun p => { p with shedding := true, lastShed := some s.clk.aon })))))))
  ∧ (∀ (s : State) (i k : Nat), shedDue s i = true → lastAdmitted s (fun x => x.stage && x.fedBy && x.state.commits && x.offDue.isNone) = none → lastAdmitted s (fun x => x.stage && x.state.commits && x.offDue.isNone) = some k → exec (.slotShed i) s = .next (onSlot k (fun x => { x with rstHigh := false, offDue := some (s.clk.aon + 10 * ms, .queued) }) (portLost k (s.onPwr fun p => { p with shedding := true, lastShed := some s.clk.aon }))))

/-- Telemetry is sent with the measured currents, held at each stage's limit; a received record is taken slot by slot; a missed update is counted, five in a row begin droop and 100 good ones end it; the single-feed budget follows the measured feeds; an indicator frame carries both LEDs of each slot. Concluded to answer a next state, by constructor: shareTelemetrySend, shareTelemetryReceive, shareUpdateMissed, shareDroop, shareRestored, singleFeedBudgetTick, indicatorFrame. -/
def Obligations.SharingComplete : Prop :=
  (∀ (s : State) (is vs : List Nat), exec (.shareTelemetrySend is vs) s = .next (shareSend 0 0 0 0 (forAll (List.range 24) (fun k u => measure k (is.getD k (u.slot k).iout) (vs.getD k (u.slot k).vout) u) s)))
  ∧ (∀ (s : State) (k i v : Nat), (s.slot k).stage = true → (s.slot k).state ≠ .on → measure k i v s = onSlot k (fun x => { x with iout := min i (stageLimit x), vout := v }) s)
  ∧ (∀ (s : State) (r : ShareRec), s.links.partnerUp = true → exec (.shareTelemetryReceive r) s = .next (tellOn (onMask s) (forAll (List.range 24) (shareSlot r) (alignProbes r.phase (s.onPwr fun p => { p with missed := 0, goodUpd := if p.droop then p.goodUpd + 1 else 0 })))))
  ∧ (∀ (s : State), exec .shareUpdateMissed s = .next (count1 616 (s.onPwr fun p => { p with missed := p.missed + 1, goodUpd := 0 })))
  ∧ (∀ (s : State), 5 ≤ s.pwr.missed → s.pwr.droop = false → exec .shareDroop s = .next (raise 89 0 (count1 615 (s.onPwr fun p => { p with droop := true, goodUpd := 0 }))))
  ∧ (∀ (s : State), s.pwr.droop = true → 100 ≤ s.pwr.goodUpd → exec .shareRestored s = .next (raise 90 0 (s.onPwr fun p => { p with droop := false, goodUpd := 0 })))
  ∧ (∀ (s : State) (a b i j : Nat), s.fe.f1.good = true → s.fe.f2.good = false → a < 11400 → exec (.singleFeedBudgetTick a b i j) s = .next ((s.onFe fun f => { f with f1 := { f.f1 with mv := a, cur := i }, f2 := { f.f2 with mv := b, cur := j } }).onPwr fun p => { p with single := some (95 * a / 1000 - 360), over95 := if 9500 < i then some (p.over95.getD s.clk.aon) else none }))
  ∧ (∀ (s : State), s.pins.seated = true → s.fe.charged = true → exec .indicatorFrame s = .next ((fun v => send { kind := .ledFrame, a := v } (s.onPwr fun p => { p with frame := BitVec.ofNat 48 v })) (sumNat ((List.range 24).map fun k => (if (leds s k).1 then 2 ^ (2 * k) else 0) + (if (leds s k).2 then 2 ^ (2 * k + 1) else 0)))))

/-- With parameters in range, each PWR command is answered OK and the next state is the one named, whole: the effect, its shadow record and its reply, and nothing else. Concluded to answer a next state, by constructor: pwrSetSlotLimits, pwrGetSlotStatus, pwrSetSlotPower, pwrClearLockout, pwrSetBudget, pwrGetBudget, pwrSetIndicator, pwrGetFeeds. -/
def Obligations.PowerCommandsComplete : Prop :=
  (∀ (s : State) (p : Packet), taken 0x0101 3 0 p s = true → clean (mask 23 0) (p.w 2) = true → clean (mask 4 0 ||| mask 23 8) (p.w 3) = true → clean (mask 6 0 ||| mask 14 8) (p.w 4) = true → bits 23 0 (p.w 2) ≠ 0 → inRange 1 24 (bits 4 0 (p.w 3)) = true → inRange 2 8 (bits 11 8 (p.w 3)) = true → inRange 1 64 (bits 18 12 (p.w 3)) = true → inRange 8 16 (bits 23 19 (p.w 3)) = true → inRange 1 100 (bits 6 0 (p.w 4)) = true → inRange 1 72 (bits 14 8 (p.w 4)) = true → exec (.pwrSetSlotLimits p) s = .next (answered 0x0101 p [] (forAll (setBits 24 (bits 23 0 (p.w 2))) (fun k => onSlot k fun x => { x with set := { ilim := pick (bits 4 0 (p.w 3)) x.set.ilim, iinr := pick (bits 11 8 (p.w 3)) x.set.iinr, tinr := pick (bits 18 12 (p.w 3)) x.set.tinr, ifast := pick (bits 23 19 (p.w 3)) x.set.ifast, retry := pick (bits 6 0 (p.w 4)) x.set.retry, allot := pick (bits 14 8 (p.w 4)) x.set.allot }, act := { x.act with ilim := pick (bits 4 0 (p.w 3)) x.act.ilim, ifast := pick (bits 23 19 (p.w 3)) x.act.ifast } }) (s.arrived 0x0101 p))))
  ∧ (∀ (s : State) (p : Packet), taken 0x0102 1 0 p s = true → clean (mask 4 0) (p.w 2) = true → bits 4 0 (p.w 2) < 24 → exec (.pwrGetSlotStatus p) s = .next (answered 0x0102 p ((deskPwrGetSlotStatus p (s.arrived 0x0102 p)).2.1) (s.arrived 0x0102 p)))
  ∧ (∀ (s : State) (p : Packet), taken 0x0103 2 0 p s = true → clean (mask 23 0) (p.w 2) = true → p.w 3 = 0 → exec (.pwrSetSlotPower p) s = .next (answered 0x0103 p [flag 0 (!(forAll (setBits 24 (bits 23 0 (p.w 2))) turnOff (s.arrived 0x0103 p)).links.partnerUp)] (shareSend 0 (bits 23 0 (p.w 2)) 0 0 (forAll (setBits 24 (bits 23 0 (p.w 2))) turnOff (s.arrived 0x0103 p)))))
  ∧ (∀ (s : State) (p : Packet), taken 0x0103 2 0 p s = true → clean (mask 23 0) (p.w 2) = true → p.w 3 = 1 → exec (.pwrSetSlotPower p) s = .next (answered 0x0103 p [flag 0 (!(forAll (setBits 24 (bits 23 0 (p.w 2))) turnOn (s.arrived 0x0103 p)).links.partnerUp)] (shareSend 0 0 (bits 23 0 (p.w 2)) 0 (forAll (setBits 24 (bits 23 0 (p.w 2))) turnOn (s.arrived 0x0103 p)))))
  ∧ (∀ (s : State) (p : Packet), taken 0x0104 1 0 p s = true → clean (mask 23 0) (p.w 2) = true → exec (.pwrClearLockout p) s = .next (answered 0x0104 p [] (shareSend 0 0 0 (bits 23 0 (p.w 2)) (forAll (setBits 24 (bits 23 0 (p.w 2))) clearLockout (s.arrived 0x0104 p)))))
  ∧ (∀ (s : State) (p : Packet), taken 0x0105 1 0 p s = true → clean (mask 9 0) (p.w 2) = true → bits 9 0 (p.w 2) ≤ 720 → exec (.pwrSetBudget p) s = .next (answered 0x0105 p [] ((s.arrived 0x0105 p).onPwr fun q => { q with budget := bits 9 0 (p.w 2) })))
  ∧ (∀ (s : State) (p : Packet), taken 0x0106 0 0 p s = true → exec (.pwrGetBudget p) s = .next (answered 0x0106 p [fld 9 0 (s.arrived 0x0106 p).pwr.budget ||| fld 25 16 (committed (s.arrived 0x0106 p)), fld 4 0 (s.arrived 0x0106 p).pwr.queue.length] (s.arrived 0x0106 p)))
  ∧ (∀ (s : State) (p : Packet), taken 0x0107 1 0 p s = true → clean (mask 4 0 ||| mask 9 8) (p.w 2) = true → bits 4 0 (p.w 2) < 24 → exec (.pwrSetIndicator p) s = .next (answered 0x0107 p [] (onSlot (bits 4 0 (p.w 2)) (fun x => { x with locate := bit 8 (p.w 2), fault := bit 9 (p.w 2) }) (s.arrived 0x0107 p))))
  ∧ (∀ (s : State) (p : Packet), taken 0x0108 0 0 p s = true → exec (.pwrGetFeeds p) s = .next (answered 0x0108 p ((deskPwrGetFeeds p (s.arrived 0x0108 p)).2.1) (s.arrived 0x0108 p)))

/-- A pluggable found enters low-power mode and its declared power decides whether it leaves it; ModuleReady enables its transmitters and its absence for 5 s holds it; its removal takes its logical ports down. A lock held for 100 ms brings a link up; its loss takes it down; a degraded FEC second counts its codewords and raises event 134. Concluded to answer a next state, by constructor: pluggableInserted, pluggableCmisRead, pluggableReady, pluggableFault, pluggableRemoved, linkUp, linkDown, fecDegraded. -/
def Obligations.CagesAndLinksComplete : Prop :=
  (∀ (s : State) (c : Nat), c < 6 → (s.cage c).present = false → exec (.pluggableInserted c) s = .next (raise 130 (word (cagePort c)) (onCage c (fun x => { x with present := true, lowPwr := true, ready := false, cmis := false, watts := 0, readyDue := none }) s)))
  ∧ (∀ (s : State) (c w : Nat), c < 6 → (s.cage c).present = true → cageSupply c < w → exec (.pluggableCmisRead c w) s = .next (raise 132 (word (cagePort c)) (onCage c (fun x => { x with lowPwr := true, readyDue := none }) (onCage c (fun x => { x with cmis := true, watts := w }) s))))
  ∧ (∀ (s : State) (c w : Nat), c < 6 → (s.cage c).present = true → w ≤ cageSupply c → exec (.pluggableCmisRead c w) s = .next (onCage c (fun x => { x with lowPwr := false, readyDue := some (s.clk.now + 5 * sec) }) (onCage c (fun x => { x with cmis := true, watts := w }) s)))
  ∧ (∀ (s : State) (c : Nat), c < 6 → (s.cage c).present = true → (s.cage c).lowPwr = false → exec (.pluggableReady c) s = .next (onCage c (fun x => { x with ready := true, readyDue := none }) s))
  ∧ (∀ (s : State) (c t0 : Nat), c < 6 → (s.cage c).readyDue = some t0 → t0 ≤ s.clk.now → (s.cage c).ready = false → exec (.pluggableFault c) s = .next (raise 133 (word (cagePort c)) (onCage c (fun x => { x with lowPwr := true, readyDue := none }) s)))
  ∧ (∀ (s : State) (c : Nat), c < 4 → (s.cage c).present = true → exec (.pluggableRemoved c) s = .next (forAll (List.range 8) (fun k => lportDown (8 * c + k)) (raise 131 (word (8 * c)) (onCage c (fun x => { mode := x.mode }) s))))
  ∧ (∀ (s : State) (l : Nat), lportExists s l = true → (s.cage (l / 8)).ready = true → (s.lport l).up = false → s.md.egressOff = false → exec (.linkUp l) s = .next (raise 128 (word l) (onLport l (fun x => { x with up := true }) s)))
  ∧ (∀ (s : State) (l : Nat), l < 32 → (s.lport l).up = true → exec (.linkDown l) s = .next (forAll (List.range (lanesPer s l)) (fun k => frontLaneFault (l + k)) (raise 129 (word l) (onLport l (fun x => { x with up := false }) s))))
  ∧ (∀ (s : State) (l y c u : Nat), l < 32 → (s.lport l).up = true → u ≤ 100 → exec (.fecDegraded l y c u) s = .next ((fun t => doIf (fecLimit t l < y) (raise 134 (word l)) t) (count (1120 + l) u (count (1152 + l) c s))))
  ∧ (∀ (s : State) (l y c u : Nat), l < 32 → (s.lport l).up = true → 100 < u → exec (.fecDegraded l y c u) s = .next ((fun t => doIf (fecLimit t l < y) (raise 134 (word l)) t) (forAll (List.range (lanesPer (count (1120 + l) u (count (1152 + l) c s)) l)) (fun i => frontLaneFault (l + i)) (count (1120 + l) u (count (1152 + l) c s)))))

/-- A frame at an up port enters the Sorting Office, where one with a bad FCS is only counted; a PFC frame pauses its priority and the pause runs out; XOFF is repeated at half its time, while the module serves the front; drained epochs settle and slow ones turn to ACCEPTED; an Announce is noted and the selected transmitter's Sync gives an offset; 16 good intervals lock PTP and 4 bad ones or 3 s of silence unlock it. Concluded to answer a next state, by constructor: frameReceive, pfcReceive, pfcPauseExpiry, pfcRefresh, epochDrained, epochSlow, ptpMessage, ptpLocked, ptpUnlocked. -/
def Obligations.SortingOfficeComplete : Prop :=
  (∀ (s : State) (f : Frame), f.lport < 32 → (s.lport f.lport).up = true → s.pair.take = none → exec (.frameReceive f) s = .next (frameIn f s))
  ∧ (∀ (s : State) (f : Frame), f.lport < 32 → (s.lport f.lport).up = true → s.pair.take = none → f.fcsOk = false → exec (.frameReceive f) s = .next (count1 (1088 + f.lport) (count1 (1024 + f.lport) s)))
  ∧ (∀ (s : State) (l q n : Nat), l < 32 → q < 8 → (s.lport l).up = true → n ≠ 0 → isAnalysis s l = false → exec (.pfcReceive l q n) s = .next (count1 (1248 + l) (count1 (1024 + l) (onLport l (fun x => { x with paused := tabIns x.paused q (s.clk.now + n * 512 / lportRate s l) }) s))))
  ∧ (∀ (s : State) (l q n : Nat), l < 32 → q < 8 → (s.lport l).up = true → isAnalysis s l = true → exec (.pfcReceive l q n) s = .next (count1 (1344 + l) (count1 (1024 + l) s)))
  ∧ (∀ (s : State) (l q t0 : Nat), tabFind (s.lport l).paused q = some t0 → t0 ≤ s.clk.now → exec (.pfcPauseExpiry l q) s = .next (onLport l (fun x => { x with paused := tabDel x.paused q }) s))
  ∧ (∀ (s : State) (l q t0 : Nat), tabFind (s.lport l).xoff q = some t0 → t0 + 0xFFFF * 512 / lportRate s l / 2 ≤ s.clk.now → exec (.pfcRefresh l q) s = .next (sendPfc l q 0xFFFF (onLport l (fun x => { x with xoff := tabIns x.xoff q s.clk.now }) s)))
  ∧ (∀ (s : State) (l q n : Nat), frontOn s = true → (s.lport l).up = true → sendPfc l q n s = send { kind := .pfc, a := l, b := q, c := n } (count1 (1280 + l) (count1 (1056 + l) s)))
  ∧ (∀ (s : State), exec .epochDrained s = .next (settleNet s))
  ∧ (∀ (s : State), exec .epochSlow s = .next (forAll (s.net.waits.filter fun w => !w.sent && due (w.flipAt + sec) s.clk.now) (fun w u => raise 135 (word w.epoch) (post w.door w.tag w.orphan stAccepted w.words (u.onLb fun l => { l with running := l.running ++ [⟨w.door, w.tag, w.op, w.epoch, 0⟩] }))) (s.onNet fun n => { n with waits := n.waits.map fun (w : EpochWait) => if !w.sent && due (w.flipAt + sec) s.clk.now then { w with sent := true } else w })))
  ∧ (∀ (s : State) (l d t src : Nat) (rank : List Nat), l < 32 → s.net.ptp.enable = true → s.net.ptp.domain = d → s.net.ptp.transport = t → s.net.ptp.ports.testBit l = true → (s.lport l).up = true → s.md.mode = .active → isAnalysis s l = false → exec (.ptpMessage l d t (.announce src rank)) s = .next (onPtp (fun p => { p with masters := (p.masters.filter fun x => !(x.lport = l && x.src = src)) ++ [⟨l, src, rank, s.clk.now⟩] }) (count1 (1024 + l) s)))
  ∧ (∀ (s : State) (l d t src n : Nat) (b : PtpMaster), l < 32 → s.net.ptp.enable = true → s.net.ptp.domain = d → s.net.ptp.transport = t → s.net.ptp.ports.testBit l = true → (s.lport l).up = true → s.md.mode = .active → isAnalysis s l = false → bestMaster (count1 (1024 + l) s) = some b → b.lport = l → b.src = src → exec (.ptpMessage l d t (.sync src false n)) s = .next (steerPtp l (((ptpTime (count1 (1024 + l) s) / 2 * 2 : Nat) : Int) - n) (count1 (1024 + l) s)))
  ∧ (∀ (s : State) (l d t : Nat) (m : PtpMsg), l < 32 → (s.lport l).up = true → isAnalysis s l = false → s.md.mode ≠ .active → s.md.mode ≠ .drowse → exec (.ptpMessage l d t m) s = .next (count1 (1024 + l) s))
  ∧ (∀ (s : State) (l : Nat) (d : Int), -1000 ≤ d - s.net.ptp.delay → d - s.net.ptp.delay ≤ 1000 → steerPtp l d s = putOut ⟨l, 0, 2048, 38, 0, 0, [0], { kind := .ptpDelayReq, a := l, b := s.net.ptp.domain }⟩ (onPtp (fun p => { p with offset := d - s.net.ptp.delay, lport := l, ns := (ptpTime (takeFree s).2 : Int) - (d - s.net.ptp.delay), base := s.clk.now, freq := (((takeFree s).1.toNat % 2 ^ 20 : Nat) : Int) - 2 ^ 19, lastSync := s.clk.now, good := p.good + 1, bad := 0, up := some (s.net.ptp.delay, 0) }) (takeFree s).2))
  ∧ (∀ (s : State), 16 ≤ s.net.ptp.good → s.net.ptp.locked = false → exec .ptpLocked s = .next (raise 139 (word s.net.ptp.lport) (s.onNet fun n => { n with ptp := { n.ptp with locked := true, lockedAt := if n.ptp.everLocked then n.ptp.lockedAt else s.clk.now, everLocked := true, holdover := false } })))
  ∧ (∀ (s : State), s.net.ptp.locked = true → 4 ≤ s.net.ptp.bad ∨ s.net.ptp.lastSync + 3 * sec ≤ s.clk.now → exec .ptpUnlocked s = .next (raise 140 (word s.net.ptp.lport) (count1 1388 (s.onNet fun n => { n with ptp := { n.ptp with locked := false, holdover := true, good := 0 } }))))

/-- With parameters in range and no conflict, each is answered OK and the next state is the one named, whole: the effect, its shadow record and its reply, and nothing else. Concluded to answer a next state, by constructor: netSetPortMode, netSetPortAddr, netSetClassMap, netSetQueue, netSetBuffer, netSetMirror, netSetDeadLetter, netSetPtp. -/
def Obligations.NetSettingsComplete : Prop :=
  (∀ (s : State) (p : Packet), taken 0x0201 1 0 p s = true → clean (mask 3 0 ||| mask 8 8) (p.w 2) = true → bit 8 (p.w 2) = false → ((List.range 8).map (8 * bits 1 0 (p.w 2) + ·)).any (ctxBound (s.arrived 0x0201 p)) = false → exec (.netSetPortMode p) s = .next (answered 0x0201 p [] ((fun u => onCage (bits 1 0 (p.w 2)) (fun x => { x with mode := bits 3 2 (p.w 2), lowPwr := x.lowPwr && (!x.cmis || decide (cageSupply (bits 1 0 (p.w 2)) < x.watts)), readyDue := if x.present && x.cmis && !x.ready && decide (x.watts ≤ cageSupply (bits 1 0 (p.w 2))) then some (u.clk.now + 5 * sec) else x.readyDue }) u) (forAll ((List.range 8).map (8 * bits 1 0 (p.w 2) + ·)) lportDown (s.arrived 0x0201 p)))))
  ∧ (∀ (s : State) (p : Packet), taken 0x0203 8 0 p s = true → clean (mask 8 0) (p.w 2) = true → clean (mask 15 0) (p.w 4) = true → clean (mask 12 0) (p.w 5) = true → bit 5 (p.w 2) = true → bit 8 (p.w 2) = false → listenerClash (onLport (bits 4 0 (p.w 2)) (fun x => { x with addrs := tabIns x.addrs (bits 7 6 (p.w 2)) ⟨numOf [p.w 3, p.w 4], bits 11 0 (p.w 5), bit 12 (p.w 5), true, numOf [p.w 6, p.w 7, p.w 8, p.w 9]⟩ }) (s.arrived 0x0203 p)) = false → exec (.netSetPortAddr p) s = .next (answered 0x0203 p [] (discChanged (syncListeners (onLport (bits 4 0 (p.w 2)) (fun x => { x with addrs := tabIns x.addrs (bits 7 6 (p.w 2)) ⟨numOf [p.w 3, p.w 4], bits 11 0 (p.w 5), bit 12 (p.w 5), true, numOf [p.w 6, p.w 7, p.w 8, p.w 9]⟩ }) (s.arrived 0x0203 p))))))
  ∧ (∀ (s : State) (p : Packet), taken 0x0204 10 0 p s = true → clean (mask 5 0 ||| mask 15 8) (p.w 2) = true → clean (mask 23 0) (p.w 3) = true → ([4, 5, 6, 7, 8, 9].all fun k => clean (mask 29 0) (p.w k)) = true → clean (mask 11 0) (p.w 10) = true → clean (mask 23 0) (p.w 11) = true → bit 11 (p.w 2) = true → bit 15 (p.w 2) = false → (lossValues (s.arrived 0x0204 p) (bits 4 0 (p.w 2)) (some (bits 10 8 (p.w 2))) none).length ≤ 2 → exec (.netSetClassMap p) s = .next (answered 0x0204 p [] (onLport (bits 4 0 (p.w 2)) (fun x => { x with trust := bit 5 (p.w 2), lossA := some (bits 10 8 (p.w 2)), lossB := none, pcpClass := (List.range 8).map fun k => (k, bits (3 * k + 2) (3 * k) (p.w 3)), dscpClass := (List.range 64).map fun k => (k, bits (3 * (k % 10) + 2) (3 * (k % 10)) (p.w (4 + k / 10))), egress := (List.range 8).map fun k => (k, bits (3 * k + 2) (3 * k) (p.w 11)) }) (s.arrived 0x0204 p))))
  ∧ (∀ (s : State) (p : Packet), taken 0x0205 3 0 p s = true → clean (mask 5 0 ||| mask 15 8) (p.w 2) = true → clean (mask 8 0) (p.w 4) = true → bits 5 0 (p.w 2) ≤ 38 → bits 15 0 (p.w 3) ≤ bits 31 16 (p.w 3) → exec (.netSetQueue p) s = .next (answered 0x0205 p [] ((s.arrived 0x0205 p).onNet fun n => { n with ecns := (setBits 8 (bits 15 8 (p.w 2))).foldl (fun t q => tabIns t (bits 5 0 (p.w 2) * 8 + q) ⟨bits 15 0 (p.w 3), bits 31 16 (p.w 3), bits 7 0 (p.w 4), bit 8 (p.w 4)⟩) n.ecns })))
  ∧ (∀ (s : State) (p : Packet), taken 0x0208 6 0 p s = true → clean (mask 16 0) (p.w 2) = true → clean (mask 16 0) (p.w 3) = true → clean (mask 16 0) (p.w 4) = true → clean (mask 8 0 ||| mask 18 16) (p.w 5) = true → clean (mask 12 0) (p.w 6) = true → 4096 ≤ bits 16 0 (p.w 2) → bits 16 0 (p.w 2) ≤ 65536 → bits 16 0 (p.w 3) ≤ 16384 → bits 16 0 (p.w 4) ≤ 32768 → bits 8 0 (p.w 5) ≤ 256 → bits 12 0 (p.w 6) ≤ 4096 → bits 31 16 (p.w 7) < bits 15 0 (p.w 7) → bits 16 0 (p.w 2) + bits 16 0 (p.w 3) + bits 16 0 (p.w 4) + 312 * bits 8 0 (p.w 5) + 64 * bits 12 0 (p.w 6) + 32768 ≤ 196608 → exec (.netSetBuffer p) s = .next (answered 0x0208 p [] ((s.arrived 0x0208 p).onNet fun n => { n with pend := bits 16 0 (p.w 2), dlCells := bits 16 0 (p.w 3), mirCells := bits 16 0 (p.w 4), qmin := bits 8 0 (p.w 5), alpha := bits 18 16 (p.w 5), headroom := bits 12 0 (p.w 6), xoff := bits 15 0 (p.w 7), xon := bits 31 16 (p.w 7), dlFull := n.dlFull && decide (bits 16 0 (p.w 3) ≤ n.dlCells) })))
  ∧ (∀ (s : State) (p : Packet), taken 0x020C 1 0 p s = true → clean (mask 2 0 ||| mask 14 8 ||| mask 21 16) (p.w 2) = true → bit 2 (p.w 2) = false ∨ ctxBound (s.arrived 0x020C p) (bits 20 16 (p.w 2)) = false → exec (.netSetMirror p) s = .next (answered 0x020C p [] ((s.arrived 0x020C p).onNet fun n => { n with mirrors := tabIns n.mirrors (bits 1 0 (p.w 2)) ⟨bit 2 (p.w 2), bits 12 8 (p.w 2), bits 14 13 (p.w 2), bits 20 16 (p.w 2), bit 21 (p.w 2)⟩ })))
  ∧ (∀ (s : State) (p : Packet), taken 0x020D 1 0 p s = true → clean (mask 3 0 ||| mask 14 8) (p.w 2) = true → 2 ≤ bits 14 8 (p.w 2) → bits 14 8 (p.w 2) ≤ 64 → exec (.netSetDeadLetter p) s = .next (answered 0x020D p [] ((s.arrived 0x020D p).onNet fun n => { n with dlEnable := bits 2 0 (p.w 2), dlRing := bit 3 (p.w 2), dlTrunc := bits 14 8 (p.w 2) })))
  ∧ (∀ (s : State) (p : Packet), taken 0x020F 2 0 p s = true → clean (mask 6 0 ||| mask 10 8) (p.w 2) = true → bits 10 9 (p.w 2) ≤ 2 → exec (.netSetPtp p) s = .next (answered 0x020F p [] ((s.arrived 0x020F p).onNet fun n => { n with ptp := { n.ptp with domain := bits 6 0 (p.w 2), enable := bit 8 (p.w 2), transport := bits 10 9 (p.w 2), ports := (p.w 3).toNat } })))

/-- A flow entry set or deleted while fewer than four epochs live flips the epoch and waits for its drain, whose settling follows; flushing a queue drops and counts its frames; a dead-letter record is answered and leaves the queue; the other reads answer what R215 names and change nothing. Concluded to answer a next state, by constructor: netSetFlow, netDeleteFlow, netGetPortStatus, netGetQueue, netFlushQueue, netGetEpoch, netReadDeadLetter, netGetPtp. -/
def Obligations.NetTableAndReadCommandsComplete : Prop :=
  (∀ (s : State) (p : Packet), taken 0x0209 13 0 p s = true → flowOk p = true → ((s.arrived 0x0209 p).net.flows.any fun x => x.1 != bits 16 0 (p.w 2) && decide (x.2.key = (flowOf p).key)) = false → (s.arrived 0x0209 p).net.changes = [] → (s.arrived 0x0209 p).net.older = [] → exec (.netSetFlow p) s = .next (shadowLetter 0x0209 p (settleNet (flipNet [⟨p.door, p.tag, 0x0209, bits 16 0 (p.w 2), some (flowOf p)⟩] ((s.arrived 0x0209 p).onNet fun n => { n with older := dropDrained (s.arrived 0x0209 p) n.older })))))
  ∧ (∀ (s : State) (p : Packet), taken 0x020A 1 0 p s = true → clean (mask 16 0) (p.w 2) = true → bits 16 0 (p.w 2) ≤ 8191 → tabHas (s.arrived 0x020A p).net.flows (bits 16 0 (p.w 2)) = true → (s.arrived 0x020A p).net.changes = [] → (s.arrived 0x020A p).net.older = [] → exec (.netDeleteFlow p) s = .next (shadowLetter 0x020A p (settleNet (flipNet [⟨p.door, p.tag, 0x020A, bits 16 0 (p.w 2), none⟩] ((s.arrived 0x020A p).onNet fun n => { n with older := dropDrained (s.arrived 0x020A p) n.older })))))
  ∧ (∀ (s : State) (p : Packet), taken 0x0202 1 0 p s = true → clean (mask 4 0) (p.w 2) = true → exec (.netGetPortStatus p) s = .next (answered 0x0202 p [flag 0 ((s.arrived 0x0202 p).lport (bits 4 0 (p.w 2))).up ||| flag 1 ((s.arrived 0x0202 p).cage (bits 4 0 (p.w 2) / 8)).present ||| flag 2 ((s.arrived 0x0202 p).cage (bits 4 0 (p.w 2) / 8)).lowPwr ||| fld 5 3 ((s.arrived 0x0202 p).cage (bits 4 0 (p.w 2) / 8)).mode ||| fld 15 8 ((s.arrived 0x0202 p).cage (bits 4 0 (p.w 2) / 8)).watts] (s.arrived 0x0202 p)))
  ∧ (∀ (s : State) (p : Packet), taken 0x0206 1 0 p s = true → clean (mask 5 0 ||| mask 10 8) (p.w 2) = true → bits 5 0 (p.w 2) ≤ 38 → exec (.netGetQueue p) s = .next (answered 0x0206 p ((deskNetGetQueue p (s.arrived 0x0206 p)).2.1) (s.arrived 0x0206 p)))
  ∧ (∀ (s : State) (p : Packet), taken 0x0207 1 0 p s = true → clean (mask 5 0 ||| mask 15 8) (p.w 2) = true → bits 5 0 (p.w 2) ≤ 38 → exec (.netFlushQueue p) s = .next (answered 0x0207 p [word (((setBits 8 (bits 15 8 (p.w 2))).map (bits 5 0 (p.w 2) * 8 + ·)).flatMap (s.arrived 0x0207 p).queue).length] (forAll (((setBits 8 (bits 15 8 (p.w 2))).map (bits 5 0 (p.w 2) * 8 + ·)).flatMap (s.arrived 0x0207 p).queue) (fun f u => doIf (decide (f.inPort < 32)) (checkXon f.inPort f.pcp) u) (forAll ((setBits 8 (bits 15 8 (p.w 2))).map (bits 5 0 (p.w 2) * 8 + ·)) (fun k => setQueue k []) (count 1386 (((setBits 8 (bits 15 8 (p.w 2))).map (bits 5 0 (p.w 2) * 8 + ·)).flatMap (s.arrived 0x0207 p).queue).length (s.arrived 0x0207 p))))))
  ∧ (∀ (s : State) (p : Packet), taken 0x020B 0 0 p s = true → exec (.netGetEpoch p) s = .next (answered 0x020B p [fld 15 0 (s.arrived 0x020B p).net.epoch ||| fld 31 16 ((dropDrained (s.arrived 0x020B p) (s.arrived 0x020B p).net.older).headD (s.arrived 0x020B p).net.epoch), fld 2 0 (1 + (dropDrained (s.arrived 0x020B p) (s.arrived 0x020B p).net.older).length) ||| fld 15 8 (s.arrived 0x020B p).net.changes.length, word (stamped (s.arrived 0x020B p) ((dropDrained (s.arrived 0x020B p) (s.arrived 0x020B p).net.older).headD (s.arrived 0x020B p).net.epoch))] (s.arrived 0x020B p)))
  ∧ (∀ (s : State) (p : Packet) (c : Capture), taken 0x020E 0 0 p s = true → (s.arrived 0x020E p).net.dlq.find? (fun c => !streamed (s.arrived 0x020E p) c.id) = some c → exec (.netReadDeadLetter p) s = .next (answered 0x020E p (c.toWords) (dropCapture c.id (s.arrived 0x020E p))))
  ∧ (∀ (s : State) (p : Packet), taken 0x0210 0 0 p s = true → exec (.netGetPtp p) s = .next (answered 0x0210 p [flag 0 (s.arrived 0x0210 p).net.ptp.locked ||| flag 1 (s.arrived 0x0210 p).net.ptp.holdover ||| fld 12 8 (s.arrived 0x0210 p).net.ptp.lport, BitVec.ofInt 32 (s.arrived 0x0210 p).net.ptp.offset, word (ptpTime (s.arrived 0x0210 p) / sec), fld 15 0 ((ptpTime (s.arrived 0x0210 p) / sec) >>> 32)] (s.arrived 0x0210 p)))

/-- The scheduler serves the item it picks; a queue of a port beyond the front gives its head frame when no lower queue may; an entry's end brings the next; a list starts at its aligned cycle start and restarts after a time step; each microsecond brings tokens and each 10 ms an estimate. Concluded to answer a next state, by constructor: schedulerDispatch, frameTransmit, gateEntryChange, gateListStart, gateListRestart, tokenTick, rateEstimateInterval. -/
def Obligations.SchedulerComplete : Prop :=
  (∀ (s : State) (q r : Nat) (j : QItem), q < 56 → pickItem s q = some (j, r) → exec (.schedulerDispatch q) s = .next (noteHeld q (startItem q j r s)))
  ∧ (∀ (s : State) (w q : Nat) (f : QFrame) (fs : List QFrame), 32 ≤ w → queueMay s w q = true → (List.range q).any (fun k => queueMay s w k) = false → s.queue (w * 8 + q) = f :: fs → exec (.frameTransmit w q) s = .next (transmitHead w q f fs s))
  ∧ (∀ (s : State) (w q r : Nat) (j : QItem), w < 32 → queueMay s w q = true → pickItem s w = some (j, r) → j.cls = q → exec (.frameTransmit w q) s = .next (noteHeld w (startItem w j r s)))
  ∧ (∀ (s : State) (q : Nat) (l : GateList), (s.qport q).gate.cur = some l → (s.qport q).gate.running = true → (s.qport q).gate.hold = false → (s.qport q).gate.entryEnd ≤ ptpTime s → l.entries ≠ [] → exec (.gateEntryChange q) s = .next (enterEntry q (((s.qport q).gate.idx + 1) % l.entries.length) (s.qport q).gate.entryEnd l s))
  ∧ (∀ (s : State) (q t0 : Nat) (l : GateList), s.net.ptp.everLocked = true → s.md.mode = .active → (s.qport q).gate.next = some (some l) → (s.qport q).gate.running = true → freshStart l (ptpTime s) = some t0 → (s.qport q).gate.change ≤ t0 → exec (.gateListStart q) s = .next (raise 192 (word q) (enterEntry q 0 t0 l (onQport q (fun p => { p with gate := { p.gate with next := none } }) s))))
  ∧ (∀ (s : State) (q : Nat) (l : GateList), (s.qport q).gate.cur = some l → (s.qport q).gate.running = true → (s.qport q).gate.hold = true → (s.qport q).gate.stepAt ≤ ptpTime s → exec (.gateListRestart q) s = .next (raise 193 (word q) (count1 1907 (enterEntry q 0 (s.qport q).gate.stepAt l s))))
  ∧ (∀ (s : State), s.qos.tickAt + us ≤ s.clk.now → exec .tokenTick s = .next (forAll (s.qos.subs.map (·.1)) tickSub (s.onQos fun q => { q with tickAt := q.tickAt + us, ports := tabMap q.ports (tickPort s) })))
  ∧ (∀ (s : State), s.qos.estAt + 10 * ms ≤ s.clk.now → exec .rateEstimateInterval s = .next (s.onQos fun q => { q with estAt := q.estAt + 10 * ms, ports := tabMap q.ports fun k p => if k < 32 then p else { p with nodes := tabMap p.nodes fun c n => { n with est := if n.busy then some ((7 * nodeEst s k c + (if n.items then n.done / 10 else n.done / 10000)) / 8) else n.est, done := 0, busy := decide (0 < n.out) } } }))

/-- With parameters in range, each QOS command is answered OK and the next state is the one named, whole: the effect, its shadow record and its reply, and nothing else. Concluded to answer a next state, by constructor: qosSetPolicer, qosSetSubscriber, qosGetPolicer, qosSetColourMap, qosSetNode, qosSetPortShaper, qosSetGateList, qosGetGateStatus, qosGetNode, qosSetWatch. -/
def Obligations.QosCommandsComplete : Prop :=
  (∀ (s : State) (p : Packet), taken 0x0301 6 0 p s = true → clean (mask 10 0 ||| mask 14 12) (p.w 2) = true → ([3, 4, 5, 6].all fun k => clean (mask 23 0) (p.w k)) = true → clean (mask 15 0) (p.w 7) = true → bit 12 (p.w 2) = true ∨ bits 23 0 (p.w 3) ≤ bits 23 0 (p.w 4) → 1 ≤ bits 23 0 (p.w 5) → bits 23 0 (p.w 5) ≤ 1048576 → 1 ≤ bits 23 0 (p.w 6) → bits 23 0 (p.w 6) ≤ 1048576 → exec (.qosSetPolicer p) s = .next (answered 0x0301 p [] (onSub (bits 10 0 (p.w 2)) (fun x => { x with next := some ⟨bit 12 (p.w 2), bit 13 (p.w 2), bit 14 (p.w 2), bits 23 0 (p.w 3), bits 23 0 (p.w 4), bits 23 0 (p.w 5), bits 23 0 (p.w 6), bits 15 0 (p.w 7)⟩ }) (s.arrived 0x0301 p))))
  ∧ (∀ (s : State) (p : Packet), taken 0x0302 3 0 p s = true → clean (mask 11 0) (p.w 2) = true → clean (mask 2 0 ||| mask 6 4 ||| mask 8 8 ||| mask 23 16) (p.w 3) = true → clean (mask 12 0) (p.w 4) = true → bits 11 0 (p.w 2) < 2048 → 1 ≤ bits 23 16 (p.w 3) → bits 2 0 (p.w 3) ≤ 3 → bits 6 4 (p.w 3) ≤ 3 ∨ bits 6 4 (p.w 3) = 7 → 1 ≤ bits 12 0 (p.w 4) → bits 12 0 (p.w 4) ≤ 4096 → exec (.qosSetSubscriber p) s = .next (answered 0x0302 p [] (onSub (bits 11 0 (p.w 2)) (fun x => { x with cls := bits 2 0 (p.w 3), ycls := bits 6 4 (p.w 3), toDemote := some (bit 8 (p.w 3)), weight := bits 23 16 (p.w 3), defMax := bits 12 0 (p.w 4) }) (s.arrived 0x0302 p))))
  ∧ (∀ (s : State) (p : Packet), taken 0x0303 1 0 p s = true → clean (mask 10 0) (p.w 2) = true → exec (.qosGetPolicer p) s = .next (answered 0x0303 p [BitVec.ofInt 32 ((s.arrived 0x0303 p).sub (bits 10 0 (p.w 2))).c, BitVec.ofInt 32 ((s.arrived 0x0303 p).sub (bits 10 0 (p.w 2))).p, fld 12 0 ((s.arrived 0x0303 p).sub (bits 10 0 (p.w 2))).queue.length] (s.arrived 0x0303 p)))
  ∧ (∀ (s : State) (p : Packet), taken 0x0304 4 0 p s = true → ((List.range 64).map fun d => (d, bits (2 * (d % 16) + 1) (2 * (d % 16)) (p.w (2 + d / 16)))).all (fun c => decide (c.2 ≠ 3)) = true → exec (.qosSetColourMap p) s = .next (answered 0x0304 p [] ((s.arrived 0x0304 p).onQos fun q => { q with colour := ((List.range 64).map fun d => (d, bits (2 * (d % 16) + 1) (2 * (d % 16)) (p.w (2 + d / 16)))).filter fun c => c.2 ≠ 0 })))
  ∧ (∀ (s : State) (p : Packet), taken 0x0305 3 0 p s = true → clean (mask 5 0 ||| mask 12 8 ||| mask 23 16) (p.w 2) = true → clean (mask 23 0) (p.w 4) = true → bits 5 0 (p.w 2) ≤ 55 → bit 11 (p.w 2) = true → bit 12 (p.w 2) = false → 1 ≤ bits 31 16 (p.w 3) → exec (.qosSetNode p) s = .next (answered 0x0305 p [] (onNode (bits 5 0 (p.w 2)) (bits 10 8 (p.w 2)) (fun n => { n with strict := true, items := false, ovh := bits 15 0 (p.w 3), quantum := bits 31 16 (p.w 3), rate := bits 23 0 (p.w 4), est := if n.items then none else n.est, tokens := min n.tokens 65536 }) (s.arrived 0x0305 p))))
  ∧ (∀ (s : State) (p : Packet), taken 0x0306 2 0 p s = true → clean (mask 5 0) (p.w 2) = true → bits 5 0 (p.w 2) ≤ 55 → 1 ≤ bits 31 24 (p.w 3) → exec (.qosSetPortShaper p) s = .next (answered 0x0306 p [] (onQport (bits 5 0 (p.w 2)) (fun x => { x with rate := bits 23 0 (p.w 3), burst := bits 31 24 (p.w 3), level := min x.level ((bits 31 24 (p.w 3) * 16384 : Nat) : Int) }) (s.arrived 0x0306 p))))
  ∧ (∀ (s : State) (p : Packet), taken 0x0307 6 4 p s = true → p.w 2 = 4 → clean (mask 5 0 ||| mask 8 8) (p.w 3) = true → bits 5 0 (p.w 3) ≤ 55 → bit 8 (p.w 3) = true → gateMasksClean (p.data 6) = true → (gateEntries (p.data 6)).length = 2 → ((gateEntries (p.data 6)).all fun e => e.1.testBit 0 && decide (1000 ≤ e.2) && decide (e.2 ≤ sec)) = true → 10000 ≤ sumNat ((gateEntries (p.data 6)).map (·.2)) → sumNat ((gateEntries (p.data 6)).map (·.2)) ≤ sec → (s.arrived 0x0307 p).net.ptp.everLocked = false → exec (.qosSetGateList p) s = .next (answered 0x0307 p [0, 0] (onQport (bits 5 0 (p.w 3)) (fun x => { x with gate := if x.gate.running then { x.gate with next := some (some ⟨gateEntries (p.data 6), numOf [p.w 4, p.w 5]⟩), change := numOf [p.w 6, p.w 7] } else { x.gate with cur := some ⟨gateEntries (p.data 6), numOf [p.w 4, p.w 5]⟩, next := none, change := numOf [p.w 6, p.w 7] } }) (s.arrived 0x0307 p))))
  ∧ (∀ (s : State) (p : Packet), taken 0x0308 1 0 p s = true → clean (mask 5 0) (p.w 2) = true → bits 5 0 (p.w 2) ≤ 55 → exec (.qosGetGateStatus p) s = .next (answered 0x0308 p ((deskQosGetGateStatus p (s.arrived 0x0308 p)).2.1) (s.arrived 0x0308 p)))
  ∧ (∀ (s : State) (p : Packet), taken 0x0309 1 0 p s = true → clean (mask 5 0 ||| mask 10 8) (p.w 2) = true → bits 5 0 (p.w 2) ≤ 55 → exec (.qosGetNode p) s = .next (answered 0x0309 p ((deskQosGetNode p (s.arrived 0x0309 p)).2.1) (s.arrived 0x0309 p)))
  ∧ (∀ (s : State) (p : Packet), taken 0x030A 1 0 p s = true → clean (mask 5 0 ||| mask 26 16 ||| mask 31 31) (p.w 2) = true → exec (.qosSetWatch p) s = .next (answered 0x030A p [] ((s.arrived 0x030A p).onQos fun d => { d with watch := if bit 31 (p.w 2) then tabIns d.watch (bits 5 0 (p.w 2)) (bits 26 16 (p.w 2)) else tabDel d.watch (bits 5 0 (p.w 2)) })))

/-- Where the front is served and no take-over runs, a valid CM REQ takes the lowest free context in CONNECTING with the values of the REQ and draws a REP; RTU makes it READY; a host's DREQ closes it; DREP or 100 ms end ERROR; 50 ms in TIMEWAIT free it; the acknowledgement, resend and rate timers do what Tables 7.5 and 7.7 say. Concluded to answer a next state, by constructor: cmReq, cmRtu, repResend, cmDreq, cmDrep, dreqTimeout, timewaitExpiry, ackCoalesceTimeout, ackTimeout, rnrResend, ratePeriod. -/
def Obligations.RdmaConnectionsComplete : Prop :=
  (∀ (s : State) (r : CmReq) (c : Nat) (t : State), engineTakes r.lport s = true → t = engineAt (r.qpn % 2 ^ 24) (count1 2066 s) → refusesHosts t = false → t.xpt.rports.testBit r.lport = true → r.rc = true → (t.xpt.ctxs.find? fun e => !e.2.tcp && decide (e.2.rqpn = r.qpn) && decide (e.2.src = r.src) && (e.2.st = .connecting || e.2.st = .ready)) = none → reqFail t r = none → connAdmits t r.src = true → freeCtxNo t = some c → exec (.cmReq r) s = .next (sendRep c (openCtx c { st := .connecting, lport := r.lport, src := r.src, qid := r.qid, sqsize := r.hsq, slots := r.hrq, gen := if (t.ctx c).gen = 255 then 1 else (t.ctx c).gen + 1, rqpn := r.qpn, epsn := r.psn, npsn := (takeFree t).1.toNat % 2 ^ 24, una := (takeFree t).1.toNat % 2 ^ 24, mtu := r.mtu, retry := r.retry, rnrRetry := r.rnr, depth := min r.ird 64, rate := { rc := lineRate t r.lport, rt := lineRate t r.lport, due := t.clk.now + t.xpt.period * us }, repAt := some (t.clk.now + 100 * ms) } (takeFree t).2)))
  ∧ (∀ (s : State) (r : CmReq), engineTakes r.lport s = false → s.md.mode = .standby ∨ s.md.mode = .fenced → exec (.cmReq r) s = .next (count1 (1344 + r.lport % 32) (count1 2066 s)))
  ∧ (∀ (s : State) (qpn c : Nat), engineTakes (s.ctx (qpn % 65536)).lport s = true → ctxOfQpn s qpn = some c → (s.ctx c).st = .connecting → exec (.cmRtu qpn) s = .next (enterReady c id (engineAt (qpn % 65536) s)))
  ∧ (∀ (s : State) (c t : Nat), (s.ctx c).repAt = some t → t ≤ s.clk.now → (s.ctx c).st = .connecting → (s.ctx c).reps < 3 → exec (.repResend c) s = .next (sendRep c (onCtx c (fun x => { x with reps := x.reps + 1, repAt := some (s.clk.now + 100 * ms) }) s)))
  ∧ (∀ (s : State) (qpn c : Nat), engineTakes (s.ctx (qpn % 65536)).lport s = true → ctxOfQpn s qpn = some c → exec (.cmDreq qpn) s = .next (closeCtx c false (emitCtx c none [0] { kind := .cmDrep, a := c } (engineAt (qpn % 65536) s))))
  ∧ (∀ (s : State) (qpn c : Nat), engineTakes (s.ctx (qpn % 65536)).lport s = true → ctxOfQpn s qpn = some c → (s.ctx c).st = .error → exec (.cmDrep qpn) s = .next (onCtx c (fun x => { x with st := .timewait, dreqAt := none, freeAt := some (s.clk.now + 50 * ms) }) (engineAt (qpn % 65536) s)))
  ∧ (∀ (s : State) (c t : Nat), (s.ctx c).dreqAt = some t → t ≤ s.clk.now → (s.ctx c).st = .error → exec (.dreqTimeout c) s = .next (onCtx c (fun x => { x with st := .timewait, dreqAt := none, freeAt := some (s.clk.now + 50 * ms) }) s))
  ∧ (∀ (s : State) (c t : Nat), (s.ctx c).freeAt = some t → t ≤ s.clk.now → (s.ctx c).st = .timewait → exec (.timewaitExpiry c) s = .next (freeCtx c s))
  ∧ (∀ (s : State) (c t : Nat), (s.ctx c).ackAt = some t → t ≤ s.clk.now → (s.ctx c).tcp = false → 0 < (s.ctx c).unacked → (s.ctx c).resident = true → exec (.ackCoalesceTimeout c) s = .next (sendAck c s))
  ∧ (∀ (s : State) (c t : Nat), (s.ctx c).toAt = some t → t ≤ s.clk.now → (s.ctx c).tcp = false → (s.ctx c).live = true → s.md.mode = .active → (s.ctx c).resident = true → (s.ctx c).tries < (s.ctx c).retry → exec (.ackTimeout c) s = .next (count1 2054 (resend c (onCtx c (fun x => { x with tries := x.tries + 1 }) s))))
  ∧ (∀ (s : State) (c t : Nat), (s.ctx c).resendAt = some t → t ≤ s.clk.now → (s.ctx c).live = true → (s.ctx c).resident = true → exec (.rnrResend c) s = .next (count1 2055 (resend c (onCtx c (fun x => { x with resendAt := none }) s))))
  ∧ (∀ (s : State) (c : Nat), (s.ctx c).tcp = false → (s.ctx c).live = true → (s.ctx c).rate.due ≤ s.clk.now → (s.ctx c).rate.n < 5 → exec (.ratePeriod c) s = .next (shadow .stateWrite 4 c (onCtx c (fun x => { x with rate := clipRate s x.lport { (s.ctx c).rate with alpha := (1 - 1 / ((2 ^ s.xpt.g : Nat) : Rat)) * (s.ctx c).rate.alpha, n := (s.ctx c).rate.n + 1, rt := min (lineRate s (s.ctx c).lport) (s.ctx c).rate.rt, rc := ((s.ctx c).rate.rc + min (lineRate s (s.ctx c).lport) (s.ctx c).rate.rt) / 2, due := s.clk.now + s.xpt.period * us } }) s)))

/-- Where the ICRC is right, the destination QP is a resident READY connection with nothing held, and the packet carries no CE mark: the request packet whose PSN is ePSN is executed as its opcode says; an acknowledgement, a READ response and a CNP are taken. Concluded to answer a next state, by constructor: roceRequestPacket, roceAckReceive, roceReadResponse, roceCnpReceive. -/
def Obligations.RdmaPacketsComplete : Prop :=
  (∀ (s : State) (p : RocePkt) (c bytes : Nat) (a : State), engineTakes p.lport s = true → p.icrcOk = true → p.rc = true → p.ce = false → c = p.qpn % 65536 → (s.ctx c).tcp = false → (s.ctx c).gen = p.qpn / 65536 → (s.ctx c).st = .ready → (s.ctx c).resident = true → (s.ctx c).pend = [] → (s.ctx c).tlsHeld = false → (s.ctx c).epsn = p.psn → p.psn < 2 ^ 24 → p.op = .send .only bytes → 64 ≤ bytes → bytes ≤ 8256 → sumNat (s.xpt.store.map (·.2)) + bytes ≤ 4194304 → a = onCtx c (fun x => { x with nakSent := false }) (onCtx c (fun x => { x with ref := true }) (count1 2048 (engineAt c s))) → exec (.roceRequestPacket p) s = .next (tookPkt c 1 true p.ackReq (a.onXpt fun d => { d with store := d.store ++ [(c, bytes)] })))
  ∧ (∀ (s : State) (p : RocePkt) (c rkey off len : Nat) (data : List (BitVec 64)) (a : State), engineTakes p.lport s = true → p.icrcOk = true → p.rc = true → p.ce = false → c = p.qpn % 65536 → (s.ctx c).tcp = false → (s.ctx c).gen = p.qpn / 65536 → (s.ctx c).st = .ready → (s.ctx c).resident = true → (s.ctx c).pend = [] → (s.ctx c).tlsHeld = false → (s.ctx c).epsn = p.psn → p.psn < 2 ^ 24 → p.op = .write .only rkey off len data → (mark (s.sub (s.ctx c).sub) (colourOf s p.dscp) p.bytes).1 ≠ 2 → a = onCtx c (fun x => { x with nakSent := false }) (onCtx c (fun x => { x with ref := true }) (count1 2048 (engineAt c s))) → exec (.roceRequestPacket p) s = .next (regionOp c rkey off len off len 1 (fun t => tookPkt c 1 true p.ackReq (onCtx c (fun x => { x with inWrite := none }) (if len = 0 then t else doWrite c p.psn rkey off len data (some (off, len)) t))) (countWatch (s.ctx c).sub (mark (s.sub (s.ctx c).sub) (colourOf s p.dscp) p.bytes).1 (markItem (s.ctx c).sub p.dscp p.bytes a).2)))
  ∧ (∀ (s : State) (h : RoceHead) (c psn : Nat), engineTakes h.lport s = true → h.icrcOk = true → h.ce = false → c = h.qpn % 65536 → (s.ctx c).tcp = false → (s.ctx c).gen = h.qpn / 65536 → (s.ctx c).st = .ready → (s.ctx c).resident = true → (s.ctx c).pend = [] → (s.ctx c).tlsHeld = false → exec (.roceAckReceive h psn .ack) s = .next (ackTo c psn (onCtx c (fun x => { x with ref := true }) (count1 2048 (engineAt c s)))))
  ∧ (∀ (s : State) (h : RoceHead) (c psn tag gen off : Nat) (blks : List HBlk) (last : Bool), engineTakes h.lport s = true → h.icrcOk = true → h.ce = false → c = h.qpn % 65536 → (s.ctx c).tcp = false → (s.ctx c).gen = h.qpn / 65536 → (s.ctx c).st = .ready → (s.ctx c).resident = true → (s.ctx c).pend = [] → (s.ctx c).tlsHeld = false → exec (.roceReadResponse h psn tag gen off blks last) s = .next (respExec c false psn tag gen off blks last (onCtx c (fun x => { x with ref := true }) (count1 2048 (engineAt c s)))))
  ∧ (∀ (s : State) (h : RoceHead) (c : Nat), engineTakes h.lport s = true → h.icrcOk = true → c = h.qpn % 65536 → (s.ctx c).tcp = false → (s.ctx c).gen = h.qpn / 65536 → (s.ctx c).st = .ready → (s.ctx c).resident = true → (s.ctx c).pend = [] → (s.ctx c).tlsHeld = false → exec (.roceCnpReceive h) s = .next (cnpExec c (markCe c h.ce (onCtx c (fun x => { x with ref := true }) (count1 2048 (engineAt c s))))))

/-- With parameters in range and no conflict, each command is answered OK with the result words of its table and the next state is the one named, whole: the effect, its shadow record and its reply, and nothing else. A region's key tag is drawn from the DRBG, a free value. Concluded to answer a next state, by constructor: xptSetRdmaPorts, xptSetRdmaParams, xptSetRelease, xptGetConnection, xptCloseConnection, xptCreateRegion, xptDeleteRegion, xptGrantRegion, xptRekeyRegion, xptGetRegion. -/
def Obligations.RdmaCommandsComplete : Prop :=
  (∀ (s : State) (p : Packet), taken 0x0401 2 0 p s = true → clean (mask 17 0 ||| mask 24 24) (p.w 3) = true → bits 15 0 (p.w 3) ≠ 0 → listenerClash ((s.arrived 0x0401 p).onXpt fun x => { x with rports := (p.w 2).toNat, svc := bits 15 0 (p.w 3), rv4 := bit 16 (p.w 3), rv6 := bit 17 (p.w 3) }) = false → (((s.arrived 0x0401 p).xpt.ctxs.filter fun e => e.2.live && !e.2.tcp && (!(p.w 2).toNat.testBit e.2.lport || bits 15 0 (p.w 3) != (s.arrived 0x0401 p).xpt.svc)).map (·.1)) = [] → exec (.xptSetRdmaPorts p) s = .next (answered 0x0401 p [] (discChanged (syncListeners ((s.arrived 0x0401 p).onXpt fun x => { x with rports := (p.w 2).toNat, svc := bits 15 0 (p.w 3), rv4 := bit 16 (p.w 3), rv6 := bit 17 (p.w 3) })))))
  ∧ (∀ (s : State) (p : Packet), taken 0x0402 4 0 p s = true → clean (mask 4 0 ||| mask 12 8) (p.w 2) = true → clean (mask 19 0) (p.w 3) = true → 1 ≤ bits 12 8 (p.w 2) → 1 ≤ bits 15 0 (p.w 3) → 1 ≤ bits 19 16 (p.w 3) → 1 ≤ bits 15 0 (p.w 4) → 1 ≤ bits 31 16 (p.w 4) → 1 ≤ bits 15 0 (p.w 5) → 1 ≤ bits 31 16 (p.w 5) → exec (.xptSetRdmaParams p) s = .next (answered 0x0402 p [] (clipAll ((s.arrived 0x0402 p).onXpt fun x => { x with ackto := bits 4 0 (p.w 2), rnrt := bits 12 8 (p.w 2), cnpgap := bits 15 0 (p.w 3), g := bits 19 16 (p.w 3), rai := bits 15 0 (p.w 4), rhai := bits 31 16 (p.w 4), rmin := bits 15 0 (p.w 5), period := bits 31 16 (p.w 5) }))))
  ∧ (∀ (s : State) (p : Packet), taken 0x0403 1 0 p s = true → clean (mask 10 0 ||| mask 16 16) (p.w 2) = true → exec (.xptSetRelease p) s = .next (answered 0x0403 p [] (onSub (bits 10 0 (p.w 2)) (fun x => { x with countWait := bit 16 (p.w 2) }) (s.arrived 0x0403 p))))
  ∧ (∀ (s : State) (p : Packet), taken 0x0404 1 0 p s = true → clean (mask 15 0) (p.w 2) = true → exec (.xptGetConnection p) s = .next (answered 0x0404 p ((deskXptGetConnection p (s.arrived 0x0404 p)).2.1) (s.arrived 0x0404 p)))
  ∧ (∀ (s : State) (p : Packet), taken 0x0405 1 0 p s = true → clean (mask 15 0) (p.w 2) = true → ((s.arrived 0x0405 p).ctx (bits 15 0 (p.w 2))).st = .ready → exec (.xptCloseConnection p) s = .next (answered 0x0405 p [] (ctxError (bits 15 0 (p.w 2)) 9 (s.arrived 0x0405 p))))
  ∧ (∀ (s : State) (p : Packet), taken 0x0406 2 0 p s = true → clean (mask 15 0) (p.w 2) = true → clean (mask 20 0) (p.w 3) = true → 1 ≤ bits 20 0 (p.w 3) → bits 20 0 (p.w 3) ≤ 1048576 → tabHas (s.arrived 0x0406 p).xpt.regions (bits 11 0 (p.w 2)) = false → regionPages (s.arrived 0x0406 p) + bits 20 0 (p.w 3) ≤ 1048576 → exec (.xptCreateRegion p) s = .next (answered 0x0406 p [word (rkeyOf (bits 11 0 (p.w 2)) { key := (takeFree (s.arrived 0x0406 p)).1.toNat % 2 ^ 19 })] (shadow .stateWrite 4 (65536 + bits 11 0 (p.w 2)) ((takeFree (s.arrived 0x0406 p)).2.onXpt fun x => { x with regions := tabIns x.regions (bits 11 0 (p.w 2)) { once := bit 12 (p.w 2), rights := bits 15 13 (p.w 2), pages := bits 20 0 (p.w 3), key := (takeFree (s.arrived 0x0406 p)).1.toNat % 2 ^ 19 } }))))
  ∧ (∀ (s : State) (p : Packet) (r : Region), taken 0x0407 1 0 p s = true → clean (mask 11 0 ||| mask 16 16) (p.w 2) = true → tabFind (s.arrived 0x0407 p).xpt.regions (bits 11 0 (p.w 2)) = some r → r.grants = [] ∨ bit 16 (p.w 2) = true → exec (.xptDeleteRegion p) s = .next (answered 0x0407 p [] ((s.arrived 0x0407 p).onXpt fun x => { x with regions := tabDel x.regions (bits 11 0 (p.w 2)) })))
  ∧ (∀ (s : State) (p : Packet) (r : Region), taken 0x0408 2 0 p s = true → clean (mask 12 0 ||| mask 19 16) (p.w 2) = true → clean (mask 10 0) (p.w 3) = true → bits 12 0 (p.w 2) < 4096 → tabFind (s.arrived 0x0408 p).xpt.regions (bits 12 0 (p.w 2)) = some r → exec (.xptGrantRegion p) s = .next (answered 0x0408 p [] ((s.arrived 0x0408 p).onXpt fun x => { x with regions := tabIns x.regions (bits 12 0 (p.w 2)) { r with grants := if bit 16 (p.w 2) then tabDel r.grants (bits 10 0 (p.w 3)) else tabIns r.grants (bits 10 0 (p.w 3)) (bits 19 17 (p.w 2)) } })))
  ∧ (∀ (s : State) (p : Packet) (r : Region), taken 0x0409 1 0 p s = true → clean (mask 12 0) (p.w 2) = true → bits 12 0 (p.w 2) < 4096 → tabFind (s.arrived 0x0409 p).xpt.regions (bits 12 0 (p.w 2)) = some r → exec (.xptRekeyRegion p) s = .next (answered 0x0409 p [word (rkeyOf (bits 12 0 (p.w 2)) { key := (takeFree (s.arrived 0x0409 p)).1.toNat % 2 ^ 19 })] (shadow .stateWrite 4 (65536 + bits 12 0 (p.w 2)) (putRegion (bits 12 0 (p.w 2)) { r with key := (takeFree (s.arrived 0x0409 p)).1.toNat % 2 ^ 19 } (takeFree (s.arrived 0x0409 p)).2))))
  ∧ (∀ (s : State) (p : Packet), taken 0x040A 1 0 p s = true → clean (mask 12 0) (p.w 2) = true → bits 12 0 (p.w 2) ≤ 4096 → exec (.xptGetRegion p) s = .next (answered 0x040A p ((deskXptGetRegion p (s.arrived 0x040A p)).2.1) (s.arrived 0x040A p)))

/-- Where the front is served and no take-over runs, a SYN for a listener takes the lowest SYN table entry and draws a SYN-ACK, which is resent and at last given up; the final ACK takes a context; a segment of a READY connection is executed, in sequence as it comes; a FIN closes and a valid RST ends the connection; the acknowledgement, retransmission, ICReq and handshake timers act; Kumel's handshake and new key are installed. Concluded to answer a next state, by constructor: tcpSyn, synackResend, synEntryExpiry, tcpHandshakeAck, tcpSegment, tcpFin, tcpRst, tcpAckTimer, tcpRto, icreqTimeout, tlsHandshakeTimeout, tlsHandshakeDone, keyupdateInstalled. -/
def Obligations.TcpComplete : Prop :=
  (∀ (s : State) (f : SynIn) (i : Nat) (t : State) (e : SynEnt), engineTakes f.lport s = true → t = count1 2080 (engineAt (f.rport + 65536 * (f.dport % 256)) s) → refusesHosts t = false → listens t f = true → managerHolds t ⟨false, f.v6, f.src, f.dst, f.rport, f.dport, 6, f.vid, f.tagged, f.lport⟩ = false → (t.xpt.syns.find? fun e => decide (e.2.src = f.src) && decide (e.2.rport = f.rport) && decide (e.2.dst = f.dst) && decide (e.2.dport = f.dport) && decide (e.2.lport = f.lport)) = none → tabFree t.xpt.syns 0 8192 = some i → e = { src := f.src, rport := f.rport, lport := f.lport, dport := f.dport, v6 := f.v6, dst := f.dst, vid := f.vid, tagged := f.tagged, tls := decide (f.dport = t.xpt.tlsPort), mss := f.mss, ecn := f.ecn && t.xpt.ecn, wnd := f.wnd, scale := f.scale, ts := f.ts, own := t.xpt.mtu - (if f.v6 then 60 else 40), isn := (takeFree t).1.toNat % 2 ^ 32, irs := f.seq % 2 ^ 32, tries := 0, dueAt := t.clk.now + sec } → exec (.tcpSyn f) s = .next (sendSynAck i e ((takeFree t).2.onXpt fun x => { x with syns := tabIns x.syns i e })))
  ∧ (∀ (s : State) (i : Nat) (e : SynEnt), tabFind s.xpt.syns i = some e → e.tries < 2 → e.dueAt ≤ s.clk.now → exec (.synackResend i) s = .next (sendSynAck i e (s.onXpt fun x => { x with syns := tabIns x.syns i { e with tries := e.tries + 1, dueAt := s.clk.now + (if e.tries = 0 then 2 else 4) * sec } })))
  ∧ (∀ (s : State) (i : Nat) (e : SynEnt), tabFind s.xpt.syns i = some e → e.tries = 2 → e.dueAt ≤ s.clk.now → exec (.synEntryExpiry i) s = .next (s.onXpt fun x => { x with syns := tabDel x.syns i, synTold := false }))
  ∧ (∀ (s : State) (i c : Nat) (e : SynEnt) (t : State), tabFind s.xpt.syns i = some e → engineTakes e.lport s = true → t = freeSyn i (count1 2080 (engineAt i s)) → e.tls = false → refusesHosts t = false → managerHolds t e.key = false → connAdmits t e.src = true → freeCtxNo t = some c → exec (.tcpHandshakeAck i) s = .next ((openCtx c { tcpCtx e t with gen := (t.ctx c).gen } t).onNet fun n => { n with flows := putFlow n.flows { key := e.key, action := 0, target := 37, mirror := none, ctx := some c } }))
  ∧ (∀ (s : State) (p : TcpSeg) (x : Ctx), engineTakes p.lport s = true → s.ctx p.ctx = x → x.tcp = true → x.st = .ready → x.resident = true → x.pend = [] → x.tlsHeld = false → exec (.tcpSegment p) s = .next (segExec p.ctx p (onCtx p.ctx (fun x => { x with ref := true }) (count1 2080 (engineAt p.ctx s)))))
  ∧ (∀ (s u : State) (p : TcpSeg), staleSeg (s.ctx p.ctx) p = false → u = tcpAckIn p.ctx p (onCtx p.ctx (fun x => match x.tsOn, p.ts with | true, some (v, _) => if reached32 x.rcvNxt p.seq then { x with tsRec := v % 2 ^ 32 } else x | _, _ => x) s) → (u.ctx p.ctx).rcvNxt = p.seq → p.seq < 2 ^ 32 → segExec p.ctx p s = segInSeq p.ctx p u)
  ∧ (∀ (s : State) (c : Nat) (x : Ctx) (f : List Word), engineTakes (s.ctx c).lport s = true → s.ctx c = x → x.tcp = true → x.st = .ready → x.resident = true → x.pend = [] → x.tlsHeld = false → exec (.tcpFin c x.rcvNxt f) s = .next (closeCtx c true (sendTcpAck c false (onCtx c (fun x => { x with rcvNxt := (x.rcvNxt + 1) % 2 ^ 32 }) (onCtx c (fun x => { x with ref := true }) (count1 2080 (engineAt c s)))))))
  ∧ (∀ (s : State) (c seq : Nat) (x : Ctx) (f : List Word), engineTakes (s.ctx c).lport s = true → s.ctx c = x → x.tcp = true → x.st = .ready → x.resident = true → x.pend = [] → x.tlsHeld = false → x.rcvNxt ≤ seq → seq < x.rcvNxt + x.rwin * 1024 → seq < 2 ^ 32 → exec (.tcpRst c seq f) s = .next (ctxError c 2 (onCtx c (fun x => { x with ref := true }) (count1 2080 (engineAt c s)))))
  ∧ (∀ (s : State) (c t : Nat), (s.ctx c).ackAt = some t → t ≤ s.clk.now → (s.ctx c).tcp = true → (s.ctx c).live = true → (s.ctx c).resident = true → exec (.tcpAckTimer c) s = .next (sendTcpAck c false s))
  ∧ (∀ (s : State) (c t : Nat), (s.ctx c).toAt = some t → t ≤ s.clk.now → (s.ctx c).tcp = true → (s.ctx c).live = true → s.md.mode = .active → (s.ctx c).resident = true → (s.ctx c).tries + 1 < s.xpt.retries → exec (.tcpRto c) s = .next (count1 2082 (goOn c (onCtx c (fun x => { x with tries := x.tries + 1, rto := min (s.xpt.rtomax * ms) (2 * rtoOf s x), ssth := max (2 * x.mtu) (flight x / 2), cwnd := x.mtu, dups := 0, rex := some x.sndUna, recover := none }) s))))
  ∧ (∀ (s : State) (c t : Nat), (s.ctx c).icAt = some t → t ≤ s.clk.now → (s.ctx c).st = .connecting → s.md.mode = .active → (s.ctx c).resident = true → exec (.icreqTimeout c) s = .next (ctxError c 11 s))
  ∧ (∀ (s : State) (c t : Nat), (s.ctx c).tlsAt = some t → t ≤ s.clk.now → (s.ctx c).st = .tls → s.md.mode = .active → (s.ctx c).resident = true → exec (.tlsHandshakeTimeout c) s = .next (ctxError c 5 s))
  ∧ (∀ (s : State) (c g rx tx : Nat) (hn sn : List Word), s.md.kumel = .running → (s.ctx c).st = .tls → (s.xpt.hsq.take 256).contains c = true → (s.ctx c).resident = true → handshakeOk s g hn sn = true → exec (.tlsHandshakeDone c true g rx tx hn sn) s = .next ((fun t => shadow .stateWrite 4 c (onCtx c (fun x => { x with st := .connecting, tlsOn := true, rxKey := rx, txKey := tx, tlsAt := none, icAt := some (t.clk.now + 10 * sec) }) t)) ((tcpSend c (Config.frameHead OutKind.tlsHandshake.ctorIdx).toNat none { kind := .tlsHandshake, a := c, b := g } (count1 2089 s)).onXpt fun x => { x with hsq := x.hsq.erase c })))
  ∧ (∀ (s : State) (c : Nat), s.md.kumel = .running → (s.ctx c).tlsHeld = true → (s.ctx c).resident = true → exec (.keyupdateInstalled c) s = .next (drainPend c (shadow .stateWrite 4 c (onCtx c (fun x => { x with tlsHeld := false, tlsRx := 0, rxKey := Config.tlsNext x.rxKey }) s))))

/-- The queued fill starts while fewer than 256 are in flight; a good fill makes the context resident and its held packets are processed; below 64 free slots contexts are evicted until 128 are free; a released completion leaves once postmarked; the XPT commands of the pool, the TCP listeners and TLS are answered OK with their effect. Concluded to answer a next state, by constructor: contextFillStart, contextFillDone, contextEvict, completionRelease, xptSetTcpPorts, xptSetTcpParams, xptSetTls, xptSetPool, xptGetPool. -/
def Obligations.PigeonholeComplete : Prop :=
  (∀ (s : State) (c : Nat) (cs : List Nat), s.xpt.fillq = c :: cs → tabCount s.xpt.ctxs (fun _ x => x.fill = 2) < 256 → residents s + tabCount s.xpt.ctxs (fun _ x => x.fill = 2) < 8192 → s.xpt.fillAt.all (fun t => decide (t + 100 ≤ s.clk.now)) = true → exec .contextFillStart s = .next (count1 2097 (onCtx c (fun x => { x with fill := 2 }) (s.onXpt fun x => { x with fillq := cs, fillAt := some s.clk.now }))))
  ∧ (∀ (s : State) (c : Nat), (s.ctx c).fill = 2 → exec (.contextFillDone c false) s = .next ((fun t => doIf ((t.ctx c).tcp && (t.ctx c).live) (goOn c) t) (drainPend c (shadow .stateWrite 4 c (onCtx c (fun x => { x with resident := true, fill := 0, ref := true }) s)))))
  ∧ (∀ (s : State), 8128 < residents s → exec .contextEvict s = .next (evictUntil 128 s))
  ∧ (∀ (s : State) (c : Nat) (h : Held) (hs : List Held), (s.ctx c).ready = h :: hs → (s.ctx c).st = .ready → s.marked h.seq = true → (s.ctx c).resident = true → (s.ctx c).tcp = true → exec (.completionRelease c) s = .next (tcpSend c (pduBytes (s.ctx c) 24 0) h.cls { kind := .capsuleResp, a := c, b := h.cid, ws := [word h.dw0, word (h.inv.getD 0), flag 0 h.inv.isSome ||| flag 1 h.dnr, word (h.dw0 / 2 ^ 32)], ds := [h.status.ctorIdx] } (onCtx c (fun x => { x with ready := hs }) s)))
  ∧ (∀ (s : State) (p : Packet), taken 0x040B 3 0 p s = true → clean (mask 3 0 ||| mask 8 8) (p.w 4) = true → bits 15 0 (p.w 3) ≠ 0 → bits 31 16 (p.w 3) ≠ 0 → bits 15 0 (p.w 3) ≠ bits 31 16 (p.w 3) → bit 3 (p.w 4) = false → listenerClash ((s.arrived 0x040B p).onXpt fun x => { x with tports := (p.w 2).toNat, port := bits 15 0 (p.w 3), tlsPort := bits 31 16 (p.w 3), tv4 := bit 0 (p.w 4), tv6 := bit 1 (p.w 4), plain := bit 2 (p.w 4), tls := bit 3 (p.w 4) }) = false → (s.arrived 0x040B p).xpt.ctxs = [] → exec (.xptSetTcpPorts p) s = .next (answered 0x040B p [] (discChanged (syncListeners ((s.arrived 0x040B p).onXpt fun x => { x with tports := (p.w 2).toNat, port := bits 15 0 (p.w 3), tlsPort := bits 31 16 (p.w 3), tv4 := bit 0 (p.w 4), tv6 := bit 1 (p.w 4), plain := bit 2 (p.w 4), tls := bit 3 (p.w 4) })))))
  ∧ (∀ (s : State) (p : Packet), taken 0x040C 3 0 p s = true → clean (mask 13 0 ||| mask 29 16) (p.w 2) = true → clean (mask 3 0 ||| mask 16 8) (p.w 4) = true → 1500 ≤ bits 13 0 (p.w 2) → bits 13 0 (p.w 2) ≤ 9000 → 256 ≤ bits 28 16 (p.w 2) → bits 28 16 (p.w 2) ≤ 4096 → 1 ≤ bits 15 0 (p.w 3) → bits 15 0 (p.w 3) ≤ 65535 → 10 ≤ bits 31 16 (p.w 3) → bits 31 16 (p.w 3) ≤ 60000 → 3 ≤ bits 3 0 (p.w 4) → bits 3 0 (p.w 4) ≤ 15 → 1 ≤ bits 16 8 (p.w 4) → bits 16 8 (p.w 4) ≤ 256 → exec (.xptSetTcpParams p) s = .next (answered 0x040C p [] ((s.arrived 0x040C p).onXpt fun x => { x with mtu := bits 13 0 (p.w 2), rcvwin := bits 28 16 (p.w 2), ecn := bit 29 (p.w 2), rtomin := bits 15 0 (p.w 3), rtomax := bits 31 16 (p.w 3), retries := bits 3 0 (p.w 4), h2cmax := bits 16 8 (p.w 4) })))
  ∧ (∀ (s : State) (p : Packet), taken 0x040D 1 0 p s = true → clean (mask 2 0) (p.w 2) = true → bits 2 1 (p.w 2) ≠ 0 → exec (.xptSetTls p) s = .next (answered 0x040D p [] ((s.arrived 0x040D p).onXpt fun x => { x with pskke := bit 0 (p.w 2), groups := bits 2 1 (p.w 2) })))
  ∧ (∀ (s : State) (p : Packet), taken 0x040E 2 0 p s = true → clean (mask 10 0 ||| mask 17 16) (p.w 2) = true → clean (mask 16 0) (p.w 3) = true → bit 16 (p.w 2) = false → bit 17 (p.w 2) = true → 1 ≤ bits 16 0 (p.w 3) → bits 16 0 (p.w 3) ≤ 65536 → exec (.xptSetPool p) s = .next (answered 0x040E p [] ((onSub (bits 10 0 (p.w 2)) (fun x => { x with pin := false }) (s.arrived 0x040E p)).onXpt fun d => { d with srcmax := bits 16 0 (p.w 3), ctxs := tabMap d.ctxs fun _ x => if x.st != .free && decide (x.sub = bits 10 0 (p.w 2)) && x.ctrl.isSome then { x with pinned := false } else x })))
  ∧ (∀ (s : State) (p : Packet), taken 0x040F 0 0 p s = true → exec (.xptGetPool p) s = .next (answered 0x040F p ((deskXptGetPool p (s.arrived 0x040F p)).2.1) (s.arrived 0x040F p)))

/-- An I/O command that passes its checks, whose subscriber has no waiting command, which is marked green or yellow and finds a tag, is started in its class; waiting commands start in queue order; write data is taken; a map fill lets starts proceed; data done ends the command. Concluded to answer a next state, by constructor: nvmeRead, nvmeWrite, nvmeFlush, nvmeCompare, nvmeWriteZeroes, nvmeDatasetManagement, nvmeVerify, nvmeCopy, nvmeReservationRegister, nvmeReservationReport, nvmeReservationAcquire, nvmeReservationRelease, commandStart, spaceQueueClaim, mapFillDone, writeDataArrival, dataDone, abortRequestAtTag. -/
def Obligations.NvmeIoComplete : Prop :=
  (∀ (s b : State) (c : IoCmd) (u col : Nat), ioTakes c s = true → u = ((adminAt c.ctx s).ctx c.ctx).sub → ((adminAt c.ctx s).sub u).queue = [] → markItem u c.dscp (costOf (adminAt c.ctx s) ⟨.read, c⟩ ((adminAt c.ctx s).sub u)) (adminAt c.ctx s) = (col, b) → col < 2 → tagFree (countWatch u col b) u = true → ((countWatch u col b).sub u).queue = [] → exec (.nvmeRead c) s = .next (startCmd ⟨.read, c⟩ u (classOf ((adminAt c.ctx s).sub u) col) (countWatch u col b)))
  ∧ (∀ (s b : State) (c : IoCmd) (u col : Nat), ioTakes c s = true → u = ((adminAt c.ctx s).ctx c.ctx).sub → ((adminAt c.ctx s).sub u).queue = [] → markItem u c.dscp (costOf (adminAt c.ctx s) ⟨.write, c⟩ ((adminAt c.ctx s).sub u)) (adminAt c.ctx s) = (col, b) → col < 2 → tagFree (countWatch u col b) u = true → ((countWatch u col b).sub u).queue = [] → exec (.nvmeWrite c) s = .next (startCmd ⟨.write, c⟩ u (classOf ((adminAt c.ctx s).sub u) col) (countWatch u col b)))
  ∧ (∀ (s b : State) (c : IoCmd) (u col : Nat), ioTakes c s = true → u = ((adminAt c.ctx s).ctx c.ctx).sub → ((adminAt c.ctx s).sub u).queue = [] → markItem u c.dscp (costOf (adminAt c.ctx s) ⟨.flush, c⟩ ((adminAt c.ctx s).sub u)) (adminAt c.ctx s) = (col, b) → col < 2 → tagFree (countWatch u col b) u = true → ((countWatch u col b).sub u).queue = [] → exec (.nvmeFlush c) s = .next (startCmd ⟨.flush, c⟩ u (classOf ((adminAt c.ctx s).sub u) col) (countWatch u col b)))
  ∧ (∀ (s b : State) (c : IoCmd) (u col : Nat), ioTakes c s = true → u = ((adminAt c.ctx s).ctx c.ctx).sub → ((adminAt c.ctx s).sub u).queue = [] → markItem u c.dscp (costOf (adminAt c.ctx s) ⟨.compare, c⟩ ((adminAt c.ctx s).sub u)) (adminAt c.ctx s) = (col, b) → col < 2 → tagFree (countWatch u col b) u = true → ((countWatch u col b).sub u).queue = [] → exec (.nvmeCompare c) s = .next (startCmd ⟨.compare, c⟩ u (classOf ((adminAt c.ctx s).sub u) col) (countWatch u col b)))
  ∧ (∀ (s b : State) (c : IoCmd) (u col : Nat), ioTakes c s = true → u = ((adminAt c.ctx s).ctx c.ctx).sub → ((adminAt c.ctx s).sub u).queue = [] → markItem u c.dscp (costOf (adminAt c.ctx s) ⟨.writeZeroes, c⟩ ((adminAt c.ctx s).sub u)) (adminAt c.ctx s) = (col, b) → col < 2 → tagFree (countWatch u col b) u = true → ((countWatch u col b).sub u).queue = [] → exec (.nvmeWriteZeroes c) s = .next (startCmd ⟨.writeZeroes, c⟩ u (classOf ((adminAt c.ctx s).sub u) col) (countWatch u col b)))
  ∧ (∀ (s b : State) (c : IoCmd) (u col : Nat), ioTakes c s = true → u = ((adminAt c.ctx s).ctx c.ctx).sub → ((adminAt c.ctx s).sub u).queue = [] → markItem u c.dscp (costOf (adminAt c.ctx s) ⟨.dsm, c⟩ ((adminAt c.ctx s).sub u)) (adminAt c.ctx s) = (col, b) → col < 2 → tagFree (countWatch u col b) u = true → ((countWatch u col b).sub u).queue = [] → exec (.nvmeDatasetManagement c) s = .next (startCmd ⟨.dsm, c⟩ u (classOf ((adminAt c.ctx s).sub u) col) (countWatch u col b)))
  ∧ (∀ (s b : State) (c : IoCmd) (u col : Nat), ioTakes c s = true → u = ((adminAt c.ctx s).ctx c.ctx).sub → ((adminAt c.ctx s).sub u).queue = [] → markItem u c.dscp (costOf (adminAt c.ctx s) ⟨.verify, c⟩ ((adminAt c.ctx s).sub u)) (adminAt c.ctx s) = (col, b) → col < 2 → tagFree (countWatch u col b) u = true → ((countWatch u col b).sub u).queue = [] → exec (.nvmeVerify c) s = .next (startCmd ⟨.verify, c⟩ u (classOf ((adminAt c.ctx s).sub u) col) (countWatch u col b)))
  ∧ (∀ (s b : State) (c : IoCmd) (u col : Nat), ioTakes c s = true → u = ((adminAt c.ctx s).ctx c.ctx).sub → ((adminAt c.ctx s).sub u).queue = [] → markItem u c.dscp (costOf (adminAt c.ctx s) ⟨.copy, c⟩ ((adminAt c.ctx s).sub u)) (adminAt c.ctx s) = (col, b) → col < 2 → tagFree (countWatch u col b) u = true → ((countWatch u col b).sub u).queue = [] → exec (.nvmeCopy c) s = .next (startCmd ⟨.copy, c⟩ u (classOf ((adminAt c.ctx s).sub u) col) (countWatch u col b)))
  ∧ (∀ (s b : State) (c : IoCmd) (u col : Nat), ioTakes c s = true → u = ((adminAt c.ctx s).ctx c.ctx).sub → ((adminAt c.ctx s).sub u).queue = [] → markItem u c.dscp (costOf (adminAt c.ctx s) ⟨.resRegister, c⟩ ((adminAt c.ctx s).sub u)) (adminAt c.ctx s) = (col, b) → col < 2 → tagFree (countWatch u col b) u = true → ((countWatch u col b).sub u).queue = [] → exec (.nvmeReservationRegister c) s = .next (startCmd ⟨.resRegister, c⟩ u (classOf ((adminAt c.ctx s).sub u) col) (countWatch u col b)))
  ∧ (∀ (s b : State) (c : IoCmd) (u col : Nat), ioTakes c s = true → u = ((adminAt c.ctx s).ctx c.ctx).sub → ((adminAt c.ctx s).sub u).queue = [] → markItem u c.dscp (costOf (adminAt c.ctx s) ⟨.resReport, c⟩ ((adminAt c.ctx s).sub u)) (adminAt c.ctx s) = (col, b) → col < 2 → tagFree (countWatch u col b) u = true → ((countWatch u col b).sub u).queue = [] → exec (.nvmeReservationReport c) s = .next (startCmd ⟨.resReport, c⟩ u (classOf ((adminAt c.ctx s).sub u) col) (countWatch u col b)))
  ∧ (∀ (s b : State) (c : IoCmd) (u col : Nat), ioTakes c s = true → u = ((adminAt c.ctx s).ctx c.ctx).sub → ((adminAt c.ctx s).sub u).queue = [] → markItem u c.dscp (costOf (adminAt c.ctx s) ⟨.resAcquire, c⟩ ((adminAt c.ctx s).sub u)) (adminAt c.ctx s) = (col, b) → col < 2 → tagFree (countWatch u col b) u = true → ((countWatch u col b).sub u).queue = [] → exec (.nvmeReservationAcquire c) s = .next (startCmd ⟨.resAcquire, c⟩ u (classOf ((adminAt c.ctx s).sub u) col) (countWatch u col b)))
  ∧ (∀ (s b : State) (c : IoCmd) (u col : Nat), ioTakes c s = true → u = ((adminAt c.ctx s).ctx c.ctx).sub → ((adminAt c.ctx s).sub u).queue = [] → markItem u c.dscp (costOf (adminAt c.ctx s) ⟨.resRelease, c⟩ ((adminAt c.ctx s).sub u)) (adminAt c.ctx s) = (col, b) → col < 2 → tagFree (countWatch u col b) u = true → ((countWatch u col b).sub u).queue = [] → exec (.nvmeReservationRelease c) s = .next (startCmd ⟨.resRelease, c⟩ u (classOf ((adminAt c.ctx s).sub u) col) (countWatch u col b)))
  ∧ (∀ (s : State) (u : Nat), exec (.commandStart u) s = .next (admitHeads false u (s.sub u).queue.length s))
  ∧ (∀ (s : State) (t : Nat) (ts : List Nat), s.wbf.space = t :: ts → exec .spaceQueueClaim s = .next (settleCmds (placeCmd t s)))
  ∧ (∀ (s : State) (l : Nat), tabHas s.vol.fills l = true → s.vol.lines.length < 2048 → exec (.mapFillDone l) s = .next (settleCmds ((s.onVol fun v => { v with lines := tabIns v.lines l true, fills := tabDel v.fills l }).onNvm fun n => { n with tags := tabMap n.tags fun _ c => { c with lines := c.lines.erase l } })))
  ∧ (∀ (s a : State) (t off : Nat) (hs : List HBlk) (c : Cmd) (n : Ns), tabFind s.stk.fwd t = none → s.cmdOf t = some c → c.phase = .run → hs.length < c.left → c.cmd.op = .write → s.nsOf c.cmd.a.nsid = some n → arriveBlks t c n off hs s = some a → exec (.writeDataArrival t c.gen off hs) s = .next (onCmd t (fun c => { c with left := c.left - hs.length, moved := true }) (count 2571 (hs.length * nsBlkBytes n) a)))
  ∧ (∀ (s : State) (t : Nat) (c : Cmd), s.cmdOf t = some c → c.ready = true → s.marked c.seq = true → (s.ctx c.cmd.a.ctx).resident = true → isResv c.cmd.op = false → dataHanded s c.cmd.a.ctx (t, c.gen) c.cmd.a.cid = true → ackedWrite c = false ∨ s.wbf.ackAt ≤ s.clk.now → exec (.dataDone t c.gen) s = .next (settleCmds (endCmd t (doIf (ackedWrite c) (paceAck (c.cmd.a.nlb * s.blkOf c.cmd.a.nsid)) s))))
  ∧ (∀ (s : State) (ctx cid : Nat) (k : Ctrl) (c acid : Nat) (sq : Nat), ctrlOf s ctx = some k → (k.aborts.find? fun a => a.1 = ctx && a.2.1 = cid) = some (ctx, cid, sq, acid) → (s.xpt.ctxs.find? fun e => e.2.ctrl = (s.ctx ctx).ctrl && e.2.qid = sq && e.2.st = .ready).map (·.1) = some c → (s.qos.subs.any fun e => e.2.queue.any fun d => decide (d.cmd.a.ctx = c) && decide (d.cmd.a.cid = acid)) = true → exec (.abortRequestAtTag ctx cid) s = .next (endAbort ctx cid false (dropDeferred (fun h => decide (h.a.ctx = c) && decide (h.a.cid = acid)) (some .abortRequested) s)))

/-- A command that passes the common checks is completed with the status, Dword 0 and data that its table gives, after its effect: a Connect joins a queue, Disconnect closes it, Keep Alive restarts the timer, authentication steps, properties, features, logs and Identify data, Aborts, namespace commands, Format and Sanitize. Concluded to answer a next state, by constructor: nvmeConnect, nvmeDisconnect, nvmeKeepAlive, nvmeAuthenticationSend, nvmeAuthenticationReceive, nvmePropertySet, nvmePropertyGet, nvmeGetLogPage, nvmeIdentify, nvmeSetFeatures, nvmeGetFeatures, nvmeAsyncEventRequest, nvmeAbort, nvmeNamespaceManagement, nvmeNamespaceAttachment, nvmeFormatNvm, nvmeSanitize, keepAliveExpiry. -/
def Obligations.NvmeAdminComplete : Prop :=
  (∀ (s : State) (r : ConnectReq) (h : Nat) (e : HostEnt), s.xpt.admq = [] → (s.ctx r.ctx).st = .ready → s.md.mode = .active → s.md.admitStop = false → ((adminAt r.ctx s).ctx r.ctx).ctrl = none → connectCheck r (adminAt r.ctx s) = .ok (h, e) → r.qid ≠ 0 → exec (.nvmeConnect r) s = .next (completeOn r.ctx r.cid .success r.cntlid (shadow .stateWrite 5 r.cntlid (bindSub r.ctx e.sub (onCtx r.ctx (fun x => { x with ctrl := some r.cntlid, qid := r.qid, sqsize := r.sqsize }) (count1 2577 (adminAt r.ctx s)))))))
  ∧ (∀ (s : State) (ctx cid n : Nat) (c : Ctrl), adminTakes .disconnect ctx cid n c s = true → ((adminAt ctx s).ctx ctx).qid ≠ 0 → ((adminAt ctx s).ctx ctx).tcp = false → exec (.nvmeDisconnect ctx cid) s = .next (closeCtx ctx false (rdmaSend ctx 16 false none { kind := .capsuleResp, a := ctx, b := cid, ws := [0, 0, 0], ds := [NvStatus.success.ctorIdx] } (adminAt ctx s))))
  ∧ (∀ (s : State) (ctx cid n : Nat) (c : Ctrl), adminTakes .keepAlive ctx cid n c s = true → exec (.nvmeKeepAlive ctx cid) s = .next (completeOn ctx cid .success 0 (onCtrl n (fun k => { k with kaAt := (adminAt ctx s).clk.now + c.kato * ms }) (adminAt ctx s))))
  ∧ (∀ (s : State) (ctx cid n : Nat) (c : Ctrl) (hs gs : List Nat) (h g : Nat), adminTakes .auth ctx cid n c s = true → c.authFails < 3 → (hs.find? fun h => decide (h < 3) && (tabGet {} (adminAt ctx s).nvm.hosts c.host : HostEnt).hashes.testBit h) = some h → (gs.find? fun g => decide (g < 5) && (tabGet {} (adminAt ctx s).nvm.hosts c.host : HostEnt).dhg.testBit g) = some g → exec (.nvmeAuthenticationSend ctx cid (.negotiate hs gs)) s = .next (completeOn ctx cid .success 0 (onCtrl n (fun k => { k with auth := .challenge h g }) (adminAt ctx s))))
  ∧ (∀ (s : State) (ctx cid n : Nat) (c : Ctrl) (h g : Nat), adminTakes .auth ctx cid n c s = true → c.auth = .challenge h g → exec (.nvmeAuthenticationReceive ctx cid) s = .next (completeData ctx cid (giveData ctx (Config.frameHead OutKind.dhchap.ctorIdx).toNat none { kind := .dhchap, a := ctx, b := cid, ds := [1, h, g] } (adminAt ctx s))))
  ∧ (∀ (s : State) (ctx cid n : Nat) (c : Ctrl) (v : Nat), adminTakes .discovery ctx cid n c s = true → v / 2 ^ 16 % 16 = 6 → v / 2 ^ 20 % 16 = 4 → exec (.nvmePropertySet ctx cid 0x14 v) s = .next (completeOn ctx cid .success 0 (shadow .stateWrite 5 n (writeCc n c v (adminAt ctx s)))))
  ∧ (∀ (s : State) (ctx cid n : Nat) (c : Ctrl), adminTakes .discovery ctx cid n c s = true → exec (.nvmePropertyGet ctx cid 0x1C) s = .next (completeOn ctx cid .success (cstsOf (adminAt ctx s) c) (adminAt ctx s)))
  ∧ (∀ (s : State) (ctx cid n : Nat) (c : Ctrl) (nsid : Nat), adminTakes .discovery ctx cid n c s = true → c.disc = false → exec (.nvmeGetLogPage ctx cid nsid 0x05) s = .next (completeData ctx cid (giveData ctx (Config.frameHead OutKind.logPage.ctorIdx).toNat none { kind := .logPage, a := ctx, b := cid, ws := [word 0x05], ds := supportedOps } (adminAt ctx s))))
  ∧ (∀ (s : State) (ctx cid n : Nat) (c : Ctrl) (nsid cntid : Nat), adminTakes .discovery ctx cid n c s = true → c.disc = false → exec (.nvmeIdentify ctx cid nsid 0x01 cntid) s = .next (completeData ctx cid (giveData ctx 4096 none { kind := .identify, a := ctx, b := cid, ws := [word 0x01], ds := identifyCtrl (adminAt ctx s) n c } (adminAt ctx s))))
  ∧ (∀ (s : State) (ctx cid n : Nat) (c : Ctrl) (nsid v : Nat), adminTakes .other ctx cid n c s = true → exec (.nvmeSetFeatures ctx cid nsid 0x06 v) s = .next (completeOn ctx cid .success 0 (shadow .stateWrite 5 n (onCtrl n (fun k => { k with vwc := v.testBit 0 }) (adminAt ctx s)))))
  ∧ (∀ (s : State) (ctx cid n : Nat) (c : Ctrl) (nsid v : Nat), adminTakes .other ctx cid n c s = true → exec (.nvmeGetFeatures ctx cid nsid 0x0F v) s = .next (completeOn ctx cid .success c.kato (adminAt ctx s)))
  ∧ (∀ (s : State) (ctx cid n : Nat) (c : Ctrl), adminTakes .discovery ctx cid n c s = true → c.notices = [] → c.aers.length < 8 → exec (.nvmeAsyncEventRequest ctx cid) s = .next (onCtrl n (fun k => { k with aers := k.aers ++ [(ctx, cid)] }) (adminAt ctx s)))
  ∧ (∀ (s : State) (ctx cid n : Nat) (c : Ctrl) (sqid acid : Nat), adminTakes .other ctx cid n c s = true → c.aborts.length < 4 → exec (.nvmeAbort ctx cid sqid acid) s = .next (onCtrl n (fun k => { k with aborts := k.aborts ++ [(ctx, cid, sqid, acid)] }) (adminAt ctx s)))
  ∧ (∀ (s : State) (ctx cid n : Nat) (c : Ctrl) (d : Nat) (r : NsCreate) (m : Ns), adminTakes .other ctx cid n c s = true → privOf (adminAt ctx s) c 0 = true → (adminAt ctx s).nsOf d = some m → m.home = (adminAt ctx s).pos → m.deleting = false → migrating (adminAt ctx s) d = false → exec (.nvmeNamespaceManagement ctx cid (some d) r) s = .next (hostClaim ctx cid 0x0606 d (.delete d) (adminAt ctx s)))
  ∧ (∀ (s : State) (ctx cid n : Nat) (c : Ctrl) (r : NsCreate), adminTakes .other ctx cid n c s = true → privOf (adminAt ctx s) c 0 = true → exec (.nvmeNamespaceManagement ctx cid none r) s = .next (hostCreate ctx cid r (adminAt ctx s)))
  ∧ (∀ (s : State) (ctx cid n : Nat) (c : Ctrl) (d q : Nat) (k : Ctrl) (m : Ns) (t : State), adminTakes .other ctx cid n c s = true → privOf (adminAt ctx s) c 0 = true → (adminAt ctx s).nsOf d = some m → m.home = (adminAt ctx s).pos → m.deleting = false → tabFind (adminAt ctx s).nvm.ctrls q = some k → k.disc = false → m.hosts.contains k.host = false → takeChange ⟨.host ctx cid, [.attach d k.host false]⟩ (adminAt ctx s) = some t → exec (.nvmeNamespaceAttachment ctx cid d true [q]) s = .next (t))
  ∧ (∀ (s : State) (ctx cid n : Nat) (c : Ctrl) (d lb : Nat) (m : Ns), adminTakes .other ctx cid n c s = true → privOf (adminAt ctx s) c 1 = true → d ≠ 0xFFFFFFFF → lb ≤ 3 → (adminAt ctx s).nsOf d = some m → m.hosts.contains c.host = true → m.home = (adminAt ctx s).pos → m.deleting = false → m.creating = false → (adminAt ctx s).nvm.sanitize = none → lb = m.lbaf ∨ m.map = [] → setsFit (adminAt ctx s) lb m.enc m.sets = true → m.held = false → exec (.nvmeFormatNvm ctx cid d 0 lb 0) s = .next (completeOn ctx cid .success 0 (shadow .stateWrite 6 d (onNs d (fun n => { n with lbaf := lb, pit := 0 }) (emptyNs d (adminAt ctx s))))))
  ∧ (∀ (s : State) (ctx cid n : Nat) (c : Ctrl), adminTakes .other ctx cid n c s = true → privOf (adminAt ctx s) c 2 = true → (adminAt ctx s).order = 1 → (adminAt ctx s).master = true → ((adminAt ctx s).vol.ns.any fun e => e.2.enc = 0) = false → (adminAt ctx s).nvm.sanitize = none → (adminAt ctx s).vol.ns ≠ [] → exec (.nvmeSanitize ctx cid 4) s = .next (completeOn ctx cid .success 0 (forAll (((adminAt ctx s).vol.ns.map (·.1)).map (· - 1)) (fun i => destroySlot i false none) (forAll ((adminAt ctx s).vol.ns.map (·.1)) emptyNs (raise 326 (ctrlParam ((((adminAt ctx s).ctx ctx).ctrl).getD 0) 0) ((adminAt ctx s).onNvm fun n => { n with sanitize := some (((adminAt ctx s).vol.ns.map (·.1)).map (· - 1)), sanDone := false }))))))
  ∧ (∀ (s : State) (n : Nat) (c : Ctrl), tabFind s.nvm.ctrls n = some c → s.md.mode = .active → s.md.kumel = .running → c.kaAt ≤ s.clk.now → exec (.keepAliveExpiry n) s = .next (endCtrl n 1 s))

/-- With parameters in range, each NVM command is answered OK with the result words of its table and the next state is the one named, whole: the effect, its shadow record and its reply, and nothing else. Concluded to answer a next state, by constructor: nvmSetSubsystem, nvmGetSubsystem, nvmSetHost, nvmDeleteHost, nvmGetHost, nvmSetHostSecret, nvmGetController, nvmEndController, nvmSetTagLimit, nvmGetTags. -/
def Obligations.NvmCommandsComplete : Prop :=
  (∀ (s : State) (p : Packet), taken 0x0501 1 (bits 5 0 (p.w 2)) p s = true → (s.arrived 0x0501 p).master = true → clean (mask 5 0) (p.w 2) = true → 1 ≤ bits 5 0 (p.w 2) → bits 5 0 (p.w 2) ≤ 56 → nameOk (p.data 1) = true → ((s.arrived 0x0501 p).nvm.ctrls.any fun c => !c.2.disc) = false → exec (.nvmSetSubsystem p) s = .next (answered 0x0501 p [] ((fun u => forAll ((otherShelves u).filter (reachable u)) sendDisc (shadow .stateWrite 5 0 u)) ((s.arrived 0x0501 p).onNvm fun d => { d with nqn := some (trimName (p.data 1)) }))))
  ∧ (∀ (s : State) (p : Packet), taken 0x0502 0 0 p s = true → exec (.nvmGetSubsystem p) s = .next (answered 0x0502 p ((deskNvmGetSubsystem p (s.arrived 0x0502 p)).2.1) (s.arrived 0x0502 p)))
  ∧ (∀ (s : State) (p : Packet), taken 0x0503 4 (bits 5 0 (p.w 2)) p s = true → clean (mask 5 0) (p.w 2) = true → 1 ≤ bits 5 0 (p.w 2) → bits 5 0 (p.w 2) ≤ 56 → clean (mask 10 0 ||| mask 26 16 ||| mask 31 31) (p.w 3) = true → clean (mask 3 0 ||| mask 10 8 ||| mask 14 12 ||| mask 20 16) (p.w 4) = true → clean (mask 4 0 ||| mask 8 8) (p.w 5) = true → 1 ≤ bits 4 0 (p.w 5) → bits 4 0 (p.w 5) ≤ 16 → nameOk (p.data 4) = true → bit 8 (p.w 4) = false → bit 10 (p.w 4) = false → ((s.arrived 0x0503 p).nvm.hosts.any fun e => e.1 != bits 10 0 (p.w 3) && trimName e.2.nqn = trimName (p.data 4)) = false → tabFind (s.arrived 0x0503 p).nvm.hosts (bits 10 0 (p.w 3)) = none → exec (.nvmSetHost p) s = .next (answered 0x0503 p [] ((s.arrived 0x0503 p).onNvm fun d => { d with hosts := tabIns d.hosts (bits 10 0 (p.w 3)) { nqn := trimName (p.data 4), sub := bits 26 16 (p.w 3), enable := bit 31 (p.w 3), priv := bits 3 0 (p.w 4), auth := false, bidir := bit 9 (p.w 4), tlsReq := false, hashes := bits 14 12 (p.w 4), dhg := bits 20 16 (p.w 4), maxCtrl := bits 4 0 (p.w 5) } })))
  ∧ (∀ (s : State) (p : Packet), taken 0x0504 1 0 p s = true → clean (mask 10 0 ||| mask 16 16) (p.w 2) = true → tabHas (s.arrived 0x0504 p).nvm.hosts (bits 10 0 (p.w 2)) = true → ctrlsOfHost (s.arrived 0x0504 p) (bits 10 0 (p.w 2)) = [] → exec (.nvmDeleteHost p) s = .next (answered 0x0504 p [] ((s.arrived 0x0504 p).onNvm fun d => { d with hosts := tabDel d.hosts (bits 10 0 (p.w 2)) })))
  ∧ (∀ (s : State) (p : Packet) (e : HostEnt), taken 0x0505 1 0 p s = true → clean (mask 10 0) (p.w 2) = true → tabFind (s.arrived 0x0505 p).nvm.hosts (bits 10 0 (p.w 2)) = some e → exec (.nvmGetHost p) s = .next (answered 0x0505 p ((deskNvmGetHost p (s.arrived 0x0505 p)).2.1) (s.arrived 0x0505 p)))
  ∧ (∀ (s : State) (p : Packet), taken 0x0506 2 (bits 4 0 (p.w 2)) p s = true → clean (mask 4 0) (p.w 2) = true → clean (mask 10 0 ||| mask 17 16 ||| mask 21 20 ||| mask 25 24) (p.w 3) = true → bits 4 0 (p.w 2) = 8 → bits 17 16 (p.w 3) = 0 → bit 24 (p.w 3) = false → bit 25 (p.w 3) = false → tabHas (s.arrived 0x0506 p).nvm.hosts (bits 10 0 (p.w 3)) = true → exec (.nvmSetHostSecret p) s = .next (answered 0x0506 p [] (onHost (bits 10 0 (p.w 3)) (fun e => { e with secret := some (bits 21 20 (p.w 3), p.data 2) }) (s.arrived 0x0506 p))))
  ∧ (∀ (s : State) (p : Packet) (c : Ctrl), taken 0x0507 1 0 p s = true → clean (mask 15 0) (p.w 2) = true → tabFind (s.arrived 0x0507 p).nvm.ctrls (bits 15 0 (p.w 2)) = some c → exec (.nvmGetController p) s = .next (answered 0x0507 p ((deskNvmGetController p (s.arrived 0x0507 p)).2.1) (s.arrived 0x0507 p)))
  ∧ (∀ (s : State) (p : Packet), taken 0x0508 1 0 p s = true → clean (mask 15 0) (p.w 2) = true → tabHas (s.arrived 0x0508 p).nvm.ctrls (bits 15 0 (p.w 2)) = true → exec (.nvmEndController p) s = .next (answered 0x0508 p [] (endCtrl (bits 15 0 (p.w 2)) 2 (s.arrived 0x0508 p))))
  ∧ (∀ (s : State) (p : Packet), taken 0x0509 2 0 p s = true → clean (mask 10 0) (p.w 2) = true → clean (mask 18 0) (p.w 3) = true → 64 ≤ bits 18 0 (p.w 3) → bits 18 0 (p.w 3) ≤ 262144 → exec (.nvmSetTagLimit p) s = .next (answered 0x0509 p [] (onSub (bits 10 0 (p.w 2)) (fun x => { x with maxTags := bits 18 0 (p.w 3) }) (s.arrived 0x0509 p))))
  ∧ (∀ (s : State) (p : Packet), taken 0x050A 1 0 p s = true → clean (mask 11 0) (p.w 2) = true → bits 11 0 (p.w 2) < 2048 → exec (.nvmGetTags p) s = .next (answered 0x050A p [fld 18 0 (tagsOf (s.arrived 0x050A p) (bits 11 0 (p.w 2))), fld 18 0 ((s.arrived 0x050A p).sub (bits 11 0 (p.w 2))).maxTags] (s.arrived 0x050A p)))

/-- With parameters in range and no conflict, each command is answered with the result words of its table and the next state is the one named, whole: the effect, its shadow record and its reply, and nothing else. A set identifier is drawn from the DRBG, a free value. Concluded to answer a next state, by constructor: volCreateSet, volDeleteSet, volGetSet, volSetReserve, volSetNsPolicy, volGetNamespace, volMigrateParcels, volGetParcel, volSetNsDefaults, volGetEpoch. -/
def Obligations.VolumeSetsComplete : Prop :=
  (∀ (s : State) (p : Packet) (slots : List Nat) (v : VSet), taken 0x0601 8 0 p s = true → clean (mask 4 0 ||| mask 9 8 ||| mask 20 16 ||| mask 27 24) (p.w 2) = true → clean (mask 22 0) (p.w 3) = true → widthOk (bits 9 8 (p.w 2)) (bits 20 16 (p.w 2)) = true → bits 25 24 (p.w 2) < 3 → bit 27 (p.w 2) = false → (List.range (bits 20 16 (p.w 2))).map (byteAt (p.words.drop 2)) = slots → (slots.all fun k => decide (k < 24)) = true → slots.eraseDups.length = bits 20 16 (p.w 2) → ((List.range 24).all fun b => decide (b < bits 20 16 (p.w 2)) || decide (byteAt (p.words.drop 2) b = 0)) = true → tabHas (s.arrived 0x0601 p).vol.sets (bits 4 0 (p.w 2)) = false → (slots.all fun k => (memberAt (s.arrived 0x0601 p) k).isNone && !tabHas (s.arrived 0x0601 p).vol.spares k) = true → (slots.all fun k => slotOn (s.arrived 0x0601 p) k && enumerated (s.arrived 0x0601 p) k) = true → drivesFit (s.arrived 0x0601 p) (bits 26 26 (p.w 2)) slots = true → 64 * GiB ≤ smallestOf (s.arrived 0x0601 p) slots → newSet (takeFree (s.arrived 0x0601 p)).2 (bits 9 8 (p.w 2)) (bits 20 16 (p.w 2)) (bits 25 24 (p.w 2)) (bits 26 26 (p.w 2)) false (bits 22 0 (p.w 3)) slots ((takeFree (s.arrived 0x0601 p)).1.toNat % 2 ^ 64) = v → bits 22 0 (p.w 3) ≤ setParcels v → exec (.volCreateSet p) s = .next (answered 0x0601 p (words2 v.setid) (installSet (bits 4 0 (p.w 2)) v slots (takeFree (s.arrived 0x0601 p)).2)))
  ∧ (∀ (s : State) (p : Packet) (v : VSet), taken 0x0602 1 0 p s = true → clean (mask 4 0) (p.w 2) = true → (s.arrived 0x0602 p).vset (bits 4 0 (p.w 2)) = some v → v.parcels = [] → (s.arrived 0x0602 p).vol.mig = none → exec (.volDeleteSet p) s = .next (answered 0x0602 p [] (shadow .stateWrite 6 (8192 + bits 4 0 (p.w 2)) (((forAll ((List.range v.width).filterMap fun m => if (v.mem m).st.out then none else (v.mem m).slot) (fun k s => onPort k (fun x => { x with id := none }) (send { kind := .idRecord, a := k, b := 0 } (send { kind := .idRecord, a := k, b := 524288 } s))) (s.arrived 0x0602 p)).onWbf fun w => { w with rings := tabFilter w.rings fun k _ => decide (k / 32 ≠ bits 4 0 (p.w 2)) }).onVol fun d => { d with sets := tabDel d.sets (bits 4 0 (p.w 2)) }))))
  ∧ (∀ (s : State) (p : Packet) (v : VSet), taken 0x0603 1 0 p s = true → clean (mask 4 0) (p.w 2) = true → (s.arrived 0x0603 p).vset (bits 4 0 (p.w 2)) = some v → exec (.volGetSet p) s = .next (answered 0x0603 p ((deskVolGetSet p (s.arrived 0x0603 p)).2.1) (s.arrived 0x0603 p)))
  ∧ (∀ (s : State) (p : Packet) (v : VSet), taken 0x0604 2 0 p s = true → clean (mask 4 0) (p.w 2) = true → clean (mask 22 0) (p.w 3) = true → (s.arrived 0x0604 p).vset (bits 4 0 (p.w 2)) = some v → bits 22 0 (p.w 3) ≤ setParcels v → exec (.volSetReserve p) s = .next (answered 0x0604 p [] (onSet (bits 4 0 (p.w 2)) (fun v => { v with reserve := bits 22 0 (p.w 3) }) (s.arrived 0x0604 p))))
  ∧ (∀ (s : State) (p : Packet) (n : Ns) (l : List Nat), taken 0x0608 5 0 p s = true → setListOf (p.w 5) (p.w 6) = some l → nsidOk (p.w 2) 0 = true → clean (mask 22 0) (p.w 3) = true → clean (mask 1 0) (p.w 4) = true → l ≠ [] → (s.arrived 0x0608 p).nsOf (bits 12 0 (p.w 2)) = some n → n.deleting = false → n.home = (s.arrived 0x0608 p).pos → actsForShelf (s.arrived 0x0608 p) = true → setsKnown (s.arrived 0x0608 p) l = true → setsFit (s.arrived 0x0608 p) n.lbaf n.enc l = true → exec (.volSetNsPolicy p) s = .next (answered 0x0608 p [] (onNs (bits 12 0 (p.w 2)) (fun n => { n with quota := bits 22 0 (p.w 3), userResv := bit 0 (p.w 4), spread := bit 1 (p.w 4), sets := l }) (s.arrived 0x0608 p))))
  ∧ (∀ (s : State) (p : Packet) (n : Ns), taken 0x060A 1 0 p s = true → nsidOk (p.w 2) 0 = true → (s.arrived 0x060A p).nsOf (bits 12 0 (p.w 2)) = some n → exec (.volGetNamespace p) s = .next (answered 0x060A p ((deskVolGetNamespace p (s.arrived 0x060A p)).2.1) (s.arrived 0x060A p)))
  ∧ (∀ (s : State) (p : Packet) (n : Ns), taken 0x060B 3 0 p s = true → nsidOk (p.w 2) 0 = true → clean (mask 21 0) (p.w 3) = true → clean (mask 10 0 ||| mask 20 16) (p.w 4) = true → 1 ≤ bits 10 0 (p.w 4) → bits 10 0 (p.w 4) ≤ 1024 → (s.arrived 0x060B p).nsOf (bits 12 0 (p.w 2)) = some n → n.deleting = false → n.home = (s.arrived 0x060B p).pos → actsForShelf (s.arrived 0x060B p) = true → (s.arrived 0x060B p).vol.mig = none → bits 21 0 (p.w 3) + bits 10 0 (p.w 4) ≤ n.size → tabHas (s.arrived 0x060B p).vol.sets (bits 20 16 (p.w 4)) = true → exec (.volMigrateParcels p) s = .next (accepted 0x060B p (nextParcel (bits 21 0 (p.w 3)) ((accept p 0x060B 0 0 (post p.door p.tag false stAccepted [] (s.arrived 0x060B p))).onVol fun v => { v with mig := some ⟨bits 12 0 (p.w 2), bits 21 0 (p.w 3) + bits 10 0 (p.w 4) - 1, bits 20 16 (p.w 4), bits 21 0 (p.w 3), none, 0, 1, 0, 0, 0⟩ }))))
  ∧ (∀ (s : State) (p : Packet) (n : Ns) (l : Leaf), taken 0x060C 2 0 p s = true → nsidOk (p.w 2) 0 = true → clean (mask 21 0) (p.w 3) = true → (s.arrived 0x060C p).nsOf (bits 12 0 (p.w 2)) = some n → bits 21 0 (p.w 3) < n.size → leafOf n (bits 21 0 (p.w 3)) = some l → exec (.volGetParcel p) s = .next (answered 0x060C p [l.word0, fld 10 0 (bitCount l.written), fld 22 0 (s.arrived 0x060C p).vol.quar.length] (s.arrived 0x060C p)))
  ∧ (∀ (s : State) (p : Packet) (l : List Nat), taken 0x060D 3 0 p s = true → setListOf (p.w 3) (p.w 4) = some l → clean (mask 3 0) (p.w 2) = true → bits 1 0 (p.w 2) = 0 → exec (.volSetNsDefaults p) s = .next (answered 0x060D p [] ((s.arrived 0x060D p).onVol fun v => { v with dflt := { enc := 0, spread := bit 2 (p.w 2), userResv := bit 3 (p.w 2), sets := l } })))
  ∧ (∀ (s : State) (p : Packet), taken 0x060E 0 0 p s = true → exec (.volGetEpoch p) s = .next (answered 0x060E p ((deskVolGetEpoch p (s.arrived 0x060E p)).2.1) (s.arrived 0x060E p)))

/-- A command that creates, deletes, resizes or attaches a namespace withholds its reply while its change is taken; the drains are settled; a change not drained after 1 s is answered ACCEPTED; a pass of a migration copies; free parcels return; delta blocks are written. Concluded to answer a next state, by constructor: volCreateNamespace, volDeleteNamespace, volResizeNamespace, volAttachNamespace, mapEpochDrained, mapEpochSlow, migrationPassDone, quarantineRelease, thickCreationComplete, mapDeltaFlush. -/
def Obligations.VolumeEpochsComplete : Prop :=
  (∀ (s : State) (p : Packet) (l : List Nat) (n : Ns) (b t : State), taken 0x0605 6 0 p s = true → actsForShelf (s.arrived 0x0605 p) = true → setListOf (p.w 5) (p.w 6) = some l → clean (mask 12 0 ||| mask 24 16) (p.w 2) = true → clean (mask 22 0) (p.w 3) = true → clean (mask 22 0) (p.w 4) = true → p.w 7 = 0 → 1 ≤ bits 12 0 (p.w 2) → bits 12 0 (p.w 2) ≤ 4096 → bits 19 18 (p.w 2) = 0 → bits 21 20 (p.w 2) = 0 → 1 ≤ bits 22 0 (p.w 3) → bits 22 0 (p.w 3) ≤ 4194304 → l.isEmpty = false → nsidTaken (s.arrived 0x0605 p) (bits 12 0 (p.w 2)) = false → setsFit (s.arrived 0x0605 p) (bits 17 16 (p.w 2)) 0 l = true → setsKnown (s.arrived 0x0605 p) l = true → sizeSum (s.arrived 0x0605 p) + bits 22 0 (p.w 3) ≤ 67108864 → newNs (s.arrived 0x0605 p) (bits 12 0 (p.w 2)) (bits 17 16 (p.w 2)) 0 0 (bit 22 (p.w 2)) (bit 23 (p.w 2)) (bit 24 (p.w 2)) (bits 22 0 (p.w 3)) (bits 22 0 (p.w 4)) l = (n, b) → n.thick = false → claimsHere b = true → takeChange ⟨.letter p.door p.tag 0x0605, [.create (bits 12 0 (p.w 2)) n]⟩ b = some t → exec (.volCreateNamespace p) s = .next (shadowLetter 0x0605 p t))
  ∧ (∀ (s : State) (p : Packet) (n : Ns) (t : State), taken 0x0606 1 0 p s = true → nsidOk (p.w 2) (mask 16 16) = true → (s.arrived 0x0606 p).nsOf (bits 12 0 (p.w 2)) = some n → n.deleting = false → n.home = (s.arrived 0x0606 p).pos → actsForShelf (s.arrived 0x0606 p) = true → n.hosts = [] ∨ bit 16 (p.w 2) = true → migrating (s.arrived 0x0606 p) (bits 12 0 (p.w 2)) = false → claimsHere (s.arrived 0x0606 p) = true → takeChange ⟨.letter p.door p.tag 0x0606, [.delete (bits 12 0 (p.w 2))]⟩ (s.arrived 0x0606 p) = some t → exec (.volDeleteNamespace p) s = .next (shadowLetter 0x0606 p t))
  ∧ (∀ (s : State) (p : Packet) (n : Ns) (t : State), taken 0x0607 2 0 p s = true → nsidOk (p.w 2) 0 = true → clean (mask 22 0) (p.w 3) = true → 1 ≤ bits 22 0 (p.w 3) → bits 22 0 (p.w 3) ≤ 4194304 → (s.arrived 0x0607 p).nsOf (bits 12 0 (p.w 2)) = some n → n.deleting = false → n.home = (s.arrived 0x0607 p).pos → actsForShelf (s.arrived 0x0607 p) = true → n.thick = false → n.map = [] → (s.arrived 0x0607 p).vol.quar = [] → sizeSum (s.arrived 0x0607 p) - n.size + bits 22 0 (p.w 3) ≤ 67108864 → takeChange ⟨.letter p.door p.tag 0x0607, [.resize (bits 12 0 (p.w 2)) (bits 22 0 (p.w 3))]⟩ (s.arrived 0x0607 p) = some t → exec (.volResizeNamespace p) s = .next (shadowLetter 0x0607 p t))
  ∧ (∀ (s : State) (p : Packet) (n : Ns) (t : State), taken 0x0609 2 0 p s = true → nsidOk (p.w 2) (mask 16 16) = true → clean (mask 10 0) (p.w 3) = true → (s.arrived 0x0609 p).nsOf (bits 12 0 (p.w 2)) = some n → n.deleting = false → n.home = (s.arrived 0x0609 p).pos → actsForShelf (s.arrived 0x0609 p) = true → n.hosts.contains (bits 10 0 (p.w 3)) = bit 16 (p.w 2) → takeChange ⟨.letter p.door p.tag 0x0609, [.attach (bits 12 0 (p.w 2)) (bits 10 0 (p.w 3)) (bit 16 (p.w 2))]⟩ (s.arrived 0x0609 p) = some t → exec (.volAttachNamespace p) s = .next (shadowLetter 0x0609 p t))
  ∧ (∀ (s : State), exec .mapEpochDrained s = .next (settleVol s))
  ∧ (∀ (s : State) (d : Nat) (tag : Word) (op : Nat) (cs : List VChange) (e f : Nat), s.vol.waits = [⟨.letter d tag op, cs, e, f, false, false⟩] → f + sec ≤ s.clk.now → exec .mapEpochSlow s = .next (raise 392 (word e) (post d tag false stAccepted [word e] ((s.onVol fun v => { v with waits := [⟨.letter d tag op, cs, e, f, true, false⟩] }).onLb fun l => { l with running := l.running ++ [⟨d, tag, op, e, 0⟩] }))))
  ∧ (∀ (s : State) (m : Migration) (n : Ns) (v : VSet) (p : Nat) (l : Leaf), s.vol.mig = some m → s.nsOf m.ns = some n → s.vset m.target = some v → m.parcel = some p → leafOf n m.index = some l → l.moving = true → actsForShelf s = true → s.drv.passes.any (fun e => e.2.kind = .move) = false → m.step = 1 → m.marks ≠ 0 → m.pass = 0 → nextChunk m n v p = none → exec .migrationPassDone s = .next (s.onVol fun d => { d with mig := some { m with pass := 1, todo := m.marks, marks := 0, next := 0 } }))
  ∧ (∀ (s : State) (m : Migration) (n : Ns) (v src : VSet) (p i k : Nat) (l : Leaf), s.vol.mig = some m → s.nsOf m.ns = some n → s.vset m.target = some v → m.parcel = some p → leafOf n m.index = some l → l.moving = true → actsForShelf s = true → s.drv.passes.any (fun e => e.2.kind = .move) = false → m.step = 1 → nextChunk m n v p = some (i, k) → s.vset l.set = some src → exec .migrationPassDone s = .next (startMove m l v src p i k s))
  ∧ (∀ (s : State) (q : Quar), s.vol.quar = [q] → q.cmds = [] → q.pages = [] → q.recs = [] → exec .quarantineRelease s = .next (noteFree q.set (onSet q.set (fun v => { v with parcels := tabDel v.parcels q.parcel }) (s.onVol fun v => { v with quar := [] }))))
  ∧ (∀ (s : State) (k : Nat) (n : Ns), s.nsOf k = some n → n.creating = true → exec (.thickCreationComplete k) s = .next (finish (fun r => r.op = 0x0605 && r.key = k) 389 stOk (fld 12 0 k) (onNs k (fun n => { n with creating := false }) s)))
  ∧ (∀ (s : State) (d : Nat), s.vol.deltas = some d → actsForShelf s = true → exec .mapDeltaFlush s = .next (forAll (copyMembers s) (fun m => send { kind := .mapCopy, a := m.1, b := m.2, ds := copyOf s m.1 }) (s.onVol fun v => { v with deltas := none })))

/-- A bin whose oldest page is older than AGEMAX is queued in S5; high occupancy queues bins down to LOW and an escalation down to HIGH; the next queued bin opens its record; a journal block is written 20 µs after its first record; a persisted record reads, and a record whose strip writes are done retires; open records are settled at recovery; and the WBF commands have the effect of their tables. Concluded to answer a next state, by constructor: wbfSetPolicy, wbfGetStatus, wbfDestage, wbfGetJournal, destageAgeTrigger, occupancyHigh, destageEscalated, destageStart, journalBlockTimer, journalPersisted, stripWriteComplete, recordRecovery. -/
def Obligations.WriteBufferComplete : Prop :=
  (∀ (s : State) (p : Packet), taken 0x0701 3 0 p s = true → clean (mask 12 0) (p.w 2) = true → clean (mask 6 0 ||| mask 14 8 ||| mask 22 16 ||| mask 25 24) (p.w 3) = true → clean (mask 12 0) (p.w 4) = true → 1 ≤ bits 12 0 (p.w 2) → bits 12 0 (p.w 2) ≤ 6000 → 10 ≤ bits 6 0 (p.w 3) → bits 6 0 (p.w 3) ≤ 95 → 5 ≤ bits 14 8 (p.w 3) → bits 14 8 (p.w 3) + 5 ≤ bits 6 0 (p.w 3) → bits 6 0 (p.w 3) + 5 ≤ bits 22 16 (p.w 3) → bits 22 16 (p.w 3) ≤ 98 → 1 ≤ bits 12 0 (p.w 4) → bits 12 0 (p.w 4) ≤ 4096 → exec (.wbfSetPolicy p) s = .next (answered 0x0701 p [] ((s.arrived 0x0701 p).onWbf fun w => { w with agemax := bits 12 0 (p.w 2), high := bits 6 0 (p.w 3), low := bits 14 8 (p.w 3), escpct := bits 22 16 (p.w 3), esc := bit 24 (p.w 3), unpfua := bit 25 (p.w 3), setmax := bits 12 0 (p.w 4) })))
  ∧ (∀ (s : State) (p : Packet), taken 0x0702 0 0 p s = true → exec (.wbfGetStatus p) s = .next (answered 0x0702 p ((deskWbfGetStatus p (s.arrived 0x0702 p)).2.1) (s.arrived 0x0702 p)))
  ∧ (∀ (s : State) (p : Packet) (ps : List Nat), taken 0x0703 1 0 p s = true → clean (mask 1 0 ||| mask 8 4 ||| mask 28 16) (p.w 2) = true → bits 1 0 (p.w 2) = 0 → ((s.arrived 0x0703 p).wbf.pages.filter fun e => e.2.st != .reserved).map (·.1) = ps → exec (.wbfDestage p) s = .next (checkWaits (accepted 0x0703 p (accept p 0x0703 (destageWait ps (s.arrived 0x0703 p)).1 0 (destageWait ps (post p.door p.tag false stAccepted [] (s.arrived 0x0703 p))).2))))
  ∧ (∀ (s : State) (p : Packet) (v : VSet), taken 0x0704 1 0 p s = true → clean (mask 4 0) (p.w 2) = true → (s.arrived 0x0704 p).vset (bits 4 0 (p.w 2)) = some v → exec (.wbfGetJournal p) s = .next (answered 0x0704 p ([fld 16 0 (recsOf (s.arrived 0x0704 p) (bits 4 0 (p.w 2))).length] ++ words2 (s.arrived 0x0704 p).wbf.jseq ++ words2 (rlow (s.arrived 0x0704 p))) (s.arrived 0x0704 p)))
  ∧ (∀ (s : State) (i n : Nat) (b : Nat × Nat × Nat × Nat), (dirtyBins s).find? (fun b => b.1 = i && b.2.1 = n) = some b → b.2.2.1 + s.wbf.agemax * 10 * ms < s.clk.now → exec (.destageAgeTrigger i n) s = .next (queueBin i n 5 false s))
  ∧ (∀ (s t : State), s.wbf.highOn = false → s.wbf.high ≤ occupancy s → raise 448 0 (s.onWbf fun w => { w with highOn := true }) = t → exec .occupancyHigh s = .next (queueDown 5 t.wbf.low ((dirtyBins t).map fun b => (b.1, b.2.1)) t))
  ∧ (∀ (s t : State), s.wbf.esc = true → s.wbf.escal = false → s.wbf.escpct ≤ occupancy s → raise 449 0 (s.onWbf fun w => { w with escal := true }) = t → exec .destageEscalated s = .next (queueDown 0 t.wbf.high ((binsByAge t fun p => p.st = .dirty || (p.st = .queued && !recOpen t p.set p.stripe)).map fun b => (b.1, b.2.1)) t))
  ∧ (∀ (s t : State) (i : Nat) (v : VSet) (b : QBin), s.vset i = some v → actsForShelf s = true → v.st ≠ .offline → v.recover = false → (recsOf s i).length < s.wbf.setmax → s.wbf.recs.length < 65536 → (binOrder s i).find? (fun b => !recOpen s i b.stripe && !passBusy s i b.stripe) = some b → resolveBin i b.stripe b.cls b.ahead s = t → binPages t i b.stripe ≠ [] → exec (.destageStart i) s = .next (openRecord i v b false t))
  ∧ (∀ (s : State) (i m : Nat), (s.ring i m).open_ ≠ [] → due ((s.ring i m).openAt + 20 * us) s.clk.now = true → exec (.journalBlockTimer i m) s = .next (writeJournal i m s))
  ∧ (∀ (s : State) (j : Nat) (r : JRec), s.rec_ j = some r → r.stage = 0 → r.homes = [] → s.marked r.seq = true → exec (.journalPersisted j) s = .next (issueReads j (onRec j (fun r => { r with stage := 1 }) s)))
  ∧ (∀ (s : State) (j : Nat) (r : JRec), s.rec_ j = some r → r.stage = 3 → r.writes = [] → exec (.stripWriteComplete j) s = .next (retire j s))
  ∧ (∀ (s : State) (i : Nat) (v : VSet) (found : List (Nat × ImgRec)) (reads : List (Nat × Nat × List Blk)), s.vset i = some v → v.recover = true → passesOf s i .recover = [] → exec (.recordRecovery i found reads) s = .next (recoverPass i v found reads s))

/-- Policies apply at once, an overdue member's trigger included; spares are designated and cleared, the identity record of a designated drive erased; members are ejected, readmitted and given a target; an OFFLINE set is brought online with holes; and health, members and bad ranges are read and cleared. Concluded to answer a next state, by constructor: redSetPolicy, redGetHealth, redGetMember, redSetSpare, redEjectMember, redReadmit, redStartRebuild, redForceOnline, redReadBadRanges, redClearBadRanges. -/
def Obligations.RedundancyCommandsComplete : Prop :=
  (∀ (s : State) (p : Packet) (v : VSet), taken 0x0801 3 0 p s = true → clean (mask 4 0 ||| mask 17 8 ||| mask 30 24) (p.w 2) = true → clean (mask 24 0) (p.w 3) = true → clean (mask 15 0) (p.w 4) = true → bits 17 8 (p.w 2) ≤ 1000 → bits 29 24 (p.w 2) ≤ 60 → 1 ≤ bits 24 16 (p.w 3) → bits 24 16 (p.w 3) ≤ 256 → (s.arrived 0x0801 p).vset (bits 4 0 (p.w 2)) = some v → exec (.redSetPolicy p) s = .next (answered 0x0801 p [] (fireOverdue (bits 4 0 (p.w 2)) (bits 29 24 (p.w 2)) v (onSet (bits 4 0 (p.w 2)) (fun v => { v with hedge := bits 17 8 (p.w 2), absentWait := bits 29 24 (p.w 2), autoReplace := bit 30 (p.w 2), rbRate := bits 15 0 (p.w 3), rbDepth := bits 24 16 (p.w 3), patRate := bits 15 0 (p.w 4) }) (s.arrived 0x0801 p)))))
  ∧ (∀ (s : State) (p : Packet) (v : VSet), taken 0x0802 1 0 p s = true → clean (mask 4 0) (p.w 2) = true → (s.arrived 0x0802 p).vset (bits 4 0 (p.w 2)) = some v → exec (.redGetHealth p) s = .next (answered 0x0802 p ((deskRedGetHealth p (s.arrived 0x0802 p)).2.1) (s.arrived 0x0802 p)))
  ∧ (∀ (s : State) (p : Packet) (v : VSet), taken 0x0803 1 0 p s = true → clean (mask 4 0 ||| mask 12 8) (p.w 2) = true → (s.arrived 0x0803 p).vset (bits 4 0 (p.w 2)) = some v → bits 12 8 (p.w 2) < v.width → exec (.redGetMember p) s = .next (answered 0x0803 p ((deskRedGetMember p (s.arrived 0x0803 p)).2.1) (s.arrived 0x0803 p)))
  ∧ (∀ (s : State) (p : Packet), taken 0x0804 2 0 p s = true → clean (mask 4 0 ||| mask 9 8) (p.w 2) = true → bits 4 0 (p.w 2) < 24 → bit 8 (p.w 2) = true → exec (.redSetSpare p) s = .next (answered 0x0804 p [] ((s.arrived 0x0804 p).onVol fun v => { v with spares := tabDel v.spares (bits 4 0 (p.w 2)) })))
  ∧ (∀ (s : State) (p : Packet) (d : DriveInfo), taken 0x0804 2 0 p s = true → clean (mask 4 0 ||| mask 9 8) (p.w 2) = true → bits 4 0 (p.w 2) < 24 → bit 8 (p.w 2) = false → memberAt (s.arrived 0x0804 p) (bits 4 0 (p.w 2)) = none → slotOn (s.arrived 0x0804 p) (bits 4 0 (p.w 2)) = true → enumerated (s.arrived 0x0804 p) (bits 4 0 (p.w 2)) = true → ((s.arrived 0x0804 p).port (bits 4 0 (p.w 2))).id = none → ((s.arrived 0x0804 p).port (bits 4 0 (p.w 2))).info = some d → exec (.redSetSpare p) s = .next (answered 0x0804 p [] ((fun u => if inCharge u then forAll (u.vol.sets.map (·.1)) startMissing u else u) (shadow .stateWrite 8 (32 + bits 4 0 (p.w 2)) ((s.arrived 0x0804 p).onVol fun v => { v with spares := tabIns v.spares (bits 4 0 (p.w 2)) ⟨(p.w 3).toNat, d.serial⟩ })))))
  ∧ (∀ (s : State) (p : Packet) (d : DriveInfo) (r : IdRec), taken 0x0804 2 0 p s = true → clean (mask 4 0 ||| mask 9 8) (p.w 2) = true → bits 4 0 (p.w 2) < 24 → bit 8 (p.w 2) = false → bit 9 (p.w 2) = true → memberAt (s.arrived 0x0804 p) (bits 4 0 (p.w 2)) = none → slotOn (s.arrived 0x0804 p) (bits 4 0 (p.w 2)) = true → enumerated (s.arrived 0x0804 p) (bits 4 0 (p.w 2)) = true → ((s.arrived 0x0804 p).port (bits 4 0 (p.w 2))).id = some r → ((s.arrived 0x0804 p).port (bits 4 0 (p.w 2))).info = some d → exec (.redSetSpare p) s = .next (answered 0x0804 p [] ((fun u => if inCharge u then forAll (u.vol.sets.map (·.1)) startMissing u else u) (shadow .stateWrite 8 (32 + bits 4 0 (p.w 2)) ((eraseId (bits 4 0 (p.w 2)) (s.arrived 0x0804 p)).onVol fun v => { v with spares := tabIns v.spares (bits 4 0 (p.w 2)) ⟨(p.w 3).toNat, d.serial⟩ })))))
  ∧ (∀ (s : State) (p : Packet) (v : VSet), taken 0x0805 1 0 p s = true → clean (mask 4 0 ||| mask 12 8 ||| mask 24 24) (p.w 2) = true → (s.arrived 0x0805 p).vset (bits 4 0 (p.w 2)) = some v → bits 12 8 (p.w 2) < v.width → (v.mem (bits 12 8 (p.w 2))).st.out = false → (bit 24 (p.w 2) || !ejectOffline v (bits 12 8 (p.w 2))) = true → exec (.redEjectMember p) s = .next (answered 0x0805 p [] (loseMember (bits 4 0 (p.w 2)) (bits 12 8 (p.w 2)) 5 (s.arrived 0x0805 p))))
  ∧ (∀ (s : State) (p : Packet) (v : VSet) (k : Nat) (r : IdRec), taken 0x0806 1 0 p s = true → clean (mask 4 0 ||| mask 12 8 ||| 0) (p.w 2) = true → (s.arrived 0x0806 p).vset (bits 4 0 (p.w 2)) = some v → bits 12 8 (p.w 2) < v.width → (v.mem (bits 12 8 (p.w 2))).st = .ejected → slotOfIndex (s.arrived 0x0806 p) (bits 4 0 (p.w 2)) (bits 12 8 (p.w 2)) none = some k → ((s.arrived 0x0806 p).port k).id = some r → exec (.redReadmit p) s = .next (answered 0x0806 p [] (returning (bits 4 0 (p.w 2)) (bits 12 8 (p.w 2)) k r (s.arrived 0x0806 p))))
  ∧ (∀ (s : State) (p : Packet) (v : VSet), taken 0x0807 1 0 p s = true → clean (mask 4 0 ||| mask 12 8 ||| mask 20 16) (p.w 2) = true → (s.arrived 0x0807 p).vset (bits 4 0 (p.w 2)) = some v → bits 12 8 (p.w 2) < v.width → (v.mem (bits 12 8 (p.w 2))).st.out = true → qualifies (s.arrived 0x0807 p) v (bits 20 16 (p.w 2)) = true → qualifies (post p.door p.tag false stAccepted [] (s.arrived 0x0807 p)) v (bits 20 16 (p.w 2)) = true → exec (.redStartRebuild p) s = .next (accepted 0x0807 p (accept p 0x0807 (bits 4 0 (p.w 2)) (bits 12 8 (p.w 2)) (onMember (bits 4 0 (p.w 2)) (bits 12 8 (p.w 2)) (fun x => { x with wish := some (bits 20 16 (p.w 2)), fired := true }) (post p.door p.tag false stAccepted [] (s.arrived 0x0807 p))))))
  ∧ (∀ (s : State) (p : Packet) (v : VSet), taken 0x0808 1 0 p s = true → clean (mask 4 0 ||| mask 12 8 ||| 0) (p.w 2) = true → (s.arrived 0x0808 p).vset (bits 4 0 (p.w 2)) = some v → bits 12 8 (p.w 2) < v.width → v.st = .offline → exec (.redForceOnline p) s = .next (answered 0x0808 p [] (forceOnline (bits 4 0 (p.w 2)) v (s.arrived 0x0808 p))))
  ∧ (∀ (s : State) (p : Packet) (v : VSet), taken 0x0809 2 0 p s = true → clean (mask 4 0) (p.w 2) = true → clean (mask 20 0) (p.w 3) = true → (s.arrived 0x0809 p).vset (bits 4 0 (p.w 2)) = some v → exec (.redReadBadRanges p) s = .next (answered 0x0809 p ([fld 20 0 v.bad.length, fld 3 0 ((v.bad.drop (bits 20 0 (p.w 3))).take 8).length] ++ ((v.bad.drop (bits 20 0 (p.w 3))).take 8).flatMap BadRange.toWords) (s.arrived 0x0809 p)))
  ∧ (∀ (s : State) (p : Packet) (v : VSet), taken 0x080A 1 0 p s = true → clean (mask 4 0) (p.w 2) = true → (s.arrived 0x080A p).vset (bits 4 0 (p.w 2)) = some v → exec (.redClearBadRanges p) s = .next (answered 0x080A p [word v.bad.length] ((s.arrived 0x080A p).onVol fun d => { d with deltas := d.deltas.or (some (s.arrived 0x080A p).clk.now), sets := tabUpd d.sets (bits 4 0 (p.w 2)) fun v => { v with bad := [] } })))

/-- An answered drive command is handled by its outcome; late commands eject their members; a read at its hedge deadline starts its reconstruction; a slot's percentile and timeout are computed; a missing member's trigger fires and its rebuild starts; initialisation, rebuild, resync and patrol take the stripe or region at their watermark; and moved watermarks reach the identity records. Concluded to answer a next state, by constructor: driveCompletion, memberTimeoutCheck, hedgeDeadline, latencyPercentileUpdate, absentwaitExpiry, rebuildStart, initStripe, rebuildStripe, resyncRegion, patrolStripe, identityRecordWrite. -/
def Obligations.RedundancyPassesComplete : Prop :=
  (∀ (s : State) (k : Nat) (c : DCmd) (o : DriveOutcome), tabFind s.drv.cmds k = some c → c.answer = some o → exec (.driveCompletion k) s = .next (settleCmds (outcome k c o s)))
  ∧ (∀ (s : State), inCharge s = true → exec .memberTimeoutCheck s = .next (forAll (lateSlots s) (fun sl => ejectSlot sl 1) s))
  ∧ (∀ (s : State) (k t g sp at_ : Nat) (tz : Bool) (c : DCmd) (v : VSet), tabFind s.drv.cmds k = some c → c.use = .host t g sp tz → c.at_ = some at_ → s.vset c.set = some v → c.hedged = false → c.answer = none → c.write = false → v.hedge ≠ 0 → due (at_ + v.hedge * ms) s.clk.now = true → exec (.hedgeDeadline k) s = .next (startRecon c.set v c.stripe c.member c.first c.n c.cls c.sub c.use (some k) false false [c.member] (count1 (4120 + c.slot) (s.onDrv fun d => { d with cmds := tabUpd d.cmds k fun c => { c with hedged := true } }))).2)
  ∧ (∀ (s : State) (k : Nat), k < 24 → exec (.latencyPercentileUpdate k) s = .next (shadow .stateWrite 8 (64 + k) (onPort k (latencyStep s.clk.now) s)))
  ∧ (∀ (s : State) (i m : Nat) (v : VSet), s.vset i = some v → inCharge s = true → m < v.width → (v.mem m).st = .absent → (v.mem m).fired = false → due ((v.mem m).since + v.absentWait * 60 * sec) s.clk.now = true → exec (.absentwaitExpiry i m) s = .next (fireTrigger i m s))
  ∧ (∀ (s : State) (i : Nat) (v : VSet), s.vset i = some v → inCharge s = true → v.st ≠ .offline → exec (.rebuildStart i) s = .next (forAll (List.range v.width) (startOne i) s))
  ∧ (∀ (s : State) (i n : Nat) (v : VSet), s.vset i = some v → actsForShelf s = true → v.st = .initialising → n = nextStripe v.initWm (passesOf s i .init) → n < v.stripes → (passesOf s i .init).length < v.rbDepth → v.rbAt ≤ s.clk.now → passMay s i n = true → exec (.initStripe i) s = .next (startPass { kind := .init, set := i, stripe := n, want := (List.range (dataStrips v)).flatMap fun j => (List.range (stripBlks v)).map fun b => blkKey (dataMember v n j) b } 4 (onSet i (fun x => { x with rbAt := paceAt s.clk.now x.rbAt x.rbRate ((if v.type = 3 then 2 else 1) * stripBytes x) }) s)))
  ∧ (∀ (s : State) (i m n : Nat) (v : VSet) (ms : List Nat), s.vset i = some v → inCharge s = true → v.st ≠ .offline → (v.mem m).st = .rebuilding → ms = (membersIn v fun x => x = .rebuilding).filter (fun k => decide ((v.mem k).wm = (v.mem m).wm)) → n = nextStripe (v.mem m).wm ((passesOf s i .rebuild).filter fun e => e.2.targets.any ms.contains) → n < v.stripes → (passesOf s i .rebuild).length < v.rbDepth → v.rbAt ≤ s.clk.now → passMay s i n = true → exec (.rebuildStripe i m) s = .next (startPass { kind := .rebuild, set := i, stripe := n, targets := ms, want := (ms.flatMap (sourceKeys s v n)).eraseDups } 4 (onSet i (fun x => { x with rbAt := paceAt s.clk.now x.rbAt x.rbRate (ms.length * stripBytes x) }) s)))
  ∧ (∀ (s : State) (i m : Nat) (v : VSet), s.vset i = some v → inCharge s = true → v.st ≠ .offline → (v.mem m).st = .resyncing → (passesOf s i .resync).any (fun e => e.2.targets.contains m) = false → (v.mem m).log = none → exec (.resyncRegion i m) s = .next (resyncDone i m s))
  ∧ (∀ (s : State) (i m k r : Nat) (v : VSet) (ns : List Nat), s.vset i = some v → inCharge s = true → v.st ≠ .offline → (v.mem m).st = .resyncing → (passesOf s i .resync).any (fun e => e.2.targets.contains m) = false → (v.mem m).log = some k → (tabGet {} v.logs k : LogSlot).bits = [r] → ns = ((List.range (1048576 / stripBytes v)).map (r * (1048576 / stripBytes v) + ·)).filter (fun n => n < v.stripes) → ns ≠ [] → ns.all (passMay s i) = true → exec (.resyncRegion i m) s = .next (forAll ns (fun n u => startPass { kind := .resync, set := i, stripe := n, targets := [m], want := sourceKeys u v n m } 4 u) s))
  ∧ (∀ (s : State) (i : Nat) (v : VSet) (tz : List (Nat × Nat × Nat × Nat)), s.vset i = some v → inCharge s = true → s.md.patrolPaused = false → v.patRate ≠ 0 → v.st = .optimal → v.patWm < v.stripes → v.patWm < v.initWm → v.patAt ≤ s.clk.now → passMay s i v.patWm = true → tz = ((List.range (dataStrips v)).flatMap fun j => (List.range (stripBlks v)).filterMap fun b => (tzAt s i v v.patWm j b).map fun t => (t.1, t.2.2)).eraseDups → exec (.patrolStripe i) s = .next (forAll tz (fun t u => (readStrip i v t.2.1 (dataMember v t.2.1 t.2.2.1) t.2.2.2 1 6 2048 (.pass (s.drv.passSeq + 1) (tzPassKey t.1)) (onPass (s.drv.passSeq + 1) (fun x => { x with want := x.want ++ [tzPassKey t.1] }) u)).2) (startPass { kind := .patrol, set := i, stripe := v.patWm, want := (List.range v.width).flatMap fun m => (List.range (stripBlks v)).map (blkKey m) } 6 (onSet i (fun x => { x with patAt := paceAt s.clk.now x.patAt x.patRate (x.width * stripBytes x) }) s))))
  ∧ (∀ (s : State) (i : Nat) (v : VSet), s.vset i = some v → actsForShelf s = true → v.idMoved = true → due (v.idAt + 10 * sec) s.clk.now = true → v.idWait = none → exec (.identityRecordWrite i) s = .next (writeIds i s))

/-- Training is tried every 100 ms; a link that comes up starts the initialisation and one that goes down stops it; too many correctable errors direct a retrain; DOWNMAX ejects the member; the CSTS waits, the admin commands and their timeouts drive the initialisation; completions are taken, doorbells written and memory requests performed or refused; and a reset pulse ends. Concluded to answer a next state, by constructor: driveTrainingAttempt, driveLinkUp, driveLinkDown, downmaxExpiry, driveLinkRetrain, cstsWaitTimeout, driveCstsReady, driveAdminCompletion, driveAdminTimeout, driveCqEntry, driveDmaRequest, doorbellTimer, driveResetRelease. -/
def Obligations.DrivePortsComplete : Prop :=
  (∀ (s : State) (k : Nat), k < 24 → slotOn s k = true → (s.port k).st = .training ∨ (s.port k).st = .recovery → (s.port k).pulse = none → due (s.port k).trainAt s.clk.now = true → exec (.driveTrainingAttempt k) s = .next (onPort k (fun p => { p with trainAt := p.trainAt + 100 * ms }) s))
  ∧ (∀ (s t u : State) (k speed width capTo mqes mps : Nat) (flit tag10 : Bool), k < 24 → slotOn s k = true → (s.port k).st = .training ∨ (s.port k).st = .recovery → (s.port k).pulse = none → 3 ≤ speed → speed ≤ (s.port k).maxSpeed → 1 ≤ width → width ≤ 2 → (speed = 6 → flit = true) → raise 576 (fld 4 0 k) (onPort k (fun p => { p with speed := speed, width := width, flit := flit, linked := true, downAt := none, capTo := capTo, mqes := mqes }) s) = t → configPort k mps tag10 (doIf (decide (speed < (s.port k).minSpeed) || decide (width = 1)) (raise 578 (fld 4 0 k)) t) = u → exec (.driveLinkUp k speed width flit true capTo mqes mps tag10) s = .next (beginInit k u) ∧ exec (.driveLinkUp k speed width flit false capTo mqes mps tag10) s = .next (initFail k (onPort k (fun p => { p with st := .init }) u)))
  ∧ (∀ (s : State) (k : Nat), k < 24 → (s.port k).st = .init ∨ (s.port k).st = .ready ∨ (s.port k).st = .unusable → exec (.driveLinkDown k) s = .next (driveLaneFault k (raise 577 (fld 4 0 k) (count1 (4608 + k) (linkGone k .recovery s)))))
  ∧ (∀ (s : State) (k t : Nat), (s.port k).downAt = some t → due (t + (s.port k).downmax * 100 * ms) s.clk.now = true → exec (.downmaxExpiry k) s = .next (ejectSlot k 1 s))
  ∧ (∀ (s t : State) (k n : Nat), k < 24 → (s.port k).speed ≠ 0 → count (4632 + k) n (onPort k (fun p => { p with cerr := n }) s) = t → ((s.port k).cerrmax < n → exec (.driveLinkRetrain k n) s = .next (raise 579 (fld 4 0 k) (count1 (4656 + k) (send { kind := .linkRetrain, a := k } t)))) ∧ (n ≤ (s.port k).cerrmax → exec (.driveLinkRetrain k n) s = .next t))
  ∧ (∀ (s : State) (k t : Nat), (s.port k).wantAt = some t → (s.port k).st = .init → due t s.clk.now = true → exec (.cstsWaitTimeout k) s = .next (initFail k s))
  ∧ (∀ (s : State) (k t : Nat), (s.port k).wantAt = some t → (s.port k).st = .init → ((s.port k).want = false → exec (.driveCstsReady k) s = .next (onPort k (fun p => { p with want := true, wantAt := some (s.clk.now + min p.capTo (60 * sec)) }) s)) ∧ ((s.port k).want = true → exec (.driveCstsReady k) s = .next (identifyDrive k (onPort k (fun p => { p with wantAt := none, step := 4 }) s))))
  ∧ (∀ (s : State) (k : Nat) (d : AdminDone), k < 24 → exec (.driveAdminCompletion k d) s = .next (adminDone k d s))
  ∧ (∀ (s t : State) (k : Nat) (a : AdminCmd), (s.port k).admin.find? (fun a => due a.due s.clk.now) = some a → raise 583 (fld 4 0 k) (count1 4802 (send { kind := .driveAdmin, a := k, b := 8, c := a.kind } (onPort k (fun p => { p with admin := p.admin.erase a }) s))) = t → (a.kind = 3 → exec (.driveAdminTimeout k) s = .next (initFail k t)) ∧ (a.kind = 5 → exec (.driveAdminTimeout k) s = .next (finish (fun r => r.op = 0x0905 && r.key = k) 586 stHwFault (fld 4 0 k ||| fld 11 8 1) t)) ∧ (a.kind = 6 → exec (.driveAdminTimeout k) s = .next (post a.door a.tag false stHwFault [0] t)))
  ∧ (∀ (s : State) (k q cid : Nat) (phase : Bool) (o : DriveOutcome), k < 24 → q < (s.port k).built → phase = phaseWant s k q → exec (.driveCqEntry k q cid phase o) s = .next (takeCq k q cid o s))
  ∧ (∀ (s : State) (r : DmaReq), r.slot < 24 → (nbits 47 46 r.addr = 0 → exec (.driveDmaRequest r) s = .next (queueDma r s)) ∧ (nbits 47 46 r.addr ≠ 0 → exec (.driveDmaRequest r) s = .next (dataDma r s)))
  ∧ (∀ (s : State) (k q n t : Nat), tabFind (s.port k).unrung q = some (n, t) → due (t + us) s.clk.now = true → tabFind ((ringQueue k q s).port k).cq q = none → exec (.doorbellTimer k q) s = .next (ringQueue k q s))
  ∧ (∀ (s : State) (k q n t : Nat), tabFind (s.port k).unrung q = none → tabFind (s.port k).cq q = some (n, t) → due (t + us) s.clk.now = true → exec (.doorbellTimer k q) s = .next (returnCq k q s))
  ∧ (∀ (s : State) (k t : Nat), (s.port k).pulse = some t → due t s.clk.now = true → due (s.slot k).rstDue s.clk.aon = true → slotOn s k = true → exec (.driveResetRelease k) s = .next (portReleased k (setReset k true s)))

/-- The ports of a mask take their settings; a port and a drive are read; a drive is reset, its member ejected first where FORCE says so; a format is accepted and started; a log is requested from the drive. Concluded to answer a next state, by constructor: drvSetPort, drvGetPort, drvGetDrive, drvResetDrive, drvFormatDrive, drvReadLog. -/
def Obligations.DriveCommandsComplete : Prop :=
  (∀ (s : State) (p : Packet), taken 0x0901 3 0 p s = true → clean (mask 23 0) (p.w 2) = true → clean (mask 29 0) (p.w 3) = true → (p.w 2 != 0) = true → 3 ≤ bits 2 0 (p.w 3) → bits 2 0 (p.w 3) ≤ 6 → 3 ≤ bits 5 3 (p.w 3) → bits 5 3 (p.w 3) ≤ bits 2 0 (p.w 3) → 8 ≤ bits 12 6 (p.w 3) → bits 12 6 (p.w 3) ≤ 64 → 1 ≤ bits 29 13 (p.w 3) → bits 29 13 (p.w 3) ≤ 65536 → 1 ≤ bits 9 0 (p.w 4) → bits 9 0 (p.w 4) ≤ 600 → 1 ≤ bits 16 10 (p.w 4) → bits 16 10 (p.w 4) ≤ 100 → 1 ≤ bits 31 17 (p.w 4) → exec (.drvSetPort p) s = .next (answered 0x0901 p [] (forAll (setBits 24 (p.w 2).toNat) (fun k s => placeReady k (onPort k (fun x => { x with maxSpeed := bits 2 0 (p.w 3), minSpeed := bits 5 3 (p.w 3), queues := bits 12 6 (p.w 3), outmax := bits 29 13 (p.w 3), adminto := bits 9 0 (p.w 4), downmax := bits 16 10 (p.w 4), cerrmax := bits 31 17 (p.w 4) }) s)) (s.arrived 0x0901 p))))
  ∧ (∀ (s : State) (p : Packet), taken 0x0902 1 0 p s = true → clean (mask 4 0) (p.w 2) = true → bits 4 0 (p.w 2) < 24 → exec (.drvGetPort p) s = .next (answered 0x0902 p ((deskDrvGetPort p (s.arrived 0x0902 p)).2.1) (s.arrived 0x0902 p)))
  ∧ (∀ (s : State) (p : Packet) (d : DriveInfo), taken 0x0903 1 0 p s = true → clean (mask 4 0) (p.w 2) = true → bits 4 0 (p.w 2) < 24 → ((s.arrived 0x0903 p).port (bits 4 0 (p.w 2))).st = .ready ∨ ((s.arrived 0x0903 p).port (bits 4 0 (p.w 2))).st = .unusable → ((s.arrived 0x0903 p).port (bits 4 0 (p.w 2))).info = some d → exec (.drvGetDrive p) s = .next (answered 0x0903 p (([fld 15 0 d.vid ||| fld 16 16 (d.fmt.getD 0) ||| flag 17 d.dual ||| flag 18 (d.vwcPresent && !d.vwcOff)] ++ words2 d.blocks ++ (List.range 2).map (wordAt d.fr) ++ (List.range 3).map (wordAt d.sn))) (s.arrived 0x0903 p)))
  ∧ (∀ (s : State) (p : Packet), taken 0x0904 1 0 p s = true → clean (mask 4 0 ||| mask 8 8) (p.w 2) = true → bits 4 0 (p.w 2) < 24 → memberAt (s.arrived 0x0904 p) (bits 4 0 (p.w 2)) = none → slotOn (s.arrived 0x0904 p) (bits 4 0 (p.w 2)) = true → exec (.drvResetDrive p) s = .next (answered 0x0904 p [] (raise 585 (fld 4 0 (bits 4 0 (p.w 2))) (pulseReset (bits 4 0 (p.w 2)) (onPort (bits 4 0 (p.w 2)) (fun x => { x with fails := 0 }) (s.arrived 0x0904 p))))))
  ∧ (∀ (s : State) (p : Packet) (i m : Nat) (v : VSet), taken 0x0904 1 0 p s = true → clean (mask 4 0 ||| mask 8 8) (p.w 2) = true → bits 4 0 (p.w 2) < 24 → memberAt (s.arrived 0x0904 p) (bits 4 0 (p.w 2)) = some (i, m) → (s.arrived 0x0904 p).vset i = some v → (v.mem m).st.out = false → bit 8 (p.w 2) = true → slotOn (s.arrived 0x0904 p) (bits 4 0 (p.w 2)) = true → exec (.drvResetDrive p) s = .next (answered 0x0904 p [] (raise 585 (fld 4 0 (bits 4 0 (p.w 2))) (pulseReset (bits 4 0 (p.w 2)) (onPort (bits 4 0 (p.w 2)) (fun x => { x with fails := 0 }) (loseMember i m 5 (s.arrived 0x0904 p)))))))
  ∧ (∀ (s : State) (p : Packet), taken 0x0905 1 0 p s = true → clean (mask 4 0 ||| mask 10 8) (p.w 2) = true → bits 4 0 (p.w 2) < 24 → bits 10 9 (p.w 2) ≤ 1 → memberAt (s.arrived 0x0905 p) (bits 4 0 (p.w 2)) = none → memberAt (post p.door p.tag false stAccepted [] (s.arrived 0x0905 p)) (bits 4 0 (p.w 2)) = none → tabHas (s.arrived 0x0905 p).vol.spares (bits 4 0 (p.w 2)) = false → ((s.arrived 0x0905 p).port (bits 4 0 (p.w 2))).st = .ready → exec (.drvFormatDrive p) s = .next (accepted 0x0905 p (accept p 0x0905 (bits 4 0 (p.w 2)) 0 (adminTo (bits 4 0 (p.w 2)) 5 p.door p.tag [p.w 2] (onPort (bits 4 0 (p.w 2)) (fun x => { x with fmtDo := some (bits 8 8 (p.w 2)) }) (post p.door p.tag false stAccepted [] (s.arrived 0x0905 p)))))))
  ∧ (∀ (s : State) (p : Packet), taken 0x0906 3 0 p s = true → clean (mask 4 0 ||| mask 15 8) (p.w 2) = true → clean (mask 10 0) (p.w 4) = true → bits 4 0 (p.w 2) < 24 → 1 ≤ bits 10 0 (p.w 4) → bits 10 0 (p.w 4) ≤ 1024 → ((s.arrived 0x0906 p).port (bits 4 0 (p.w 2))).st = .ready → exec (.drvReadLog p) s = .next (shadowLetter 0x0906 p (adminTo (bits 4 0 (p.w 2)) 6 p.door p.tag [p.w 2, p.w 3, p.w 4] (s.arrived 0x0906 p))))

/-- The identity key is read; a key-encryption key is established, keys are imported, generated, exported, destroyed and rotated, slots are read and vectors run. What the cryptography answers is uninterpreted: where it accepts its operands, the state is the one named. Keys drawn are free values. Concluded to answer a next state, by constructor: keyGetIdentityKey, keyEstablishKek, keyImportKey, keyGenerateKey, keyExportKey, keyDestroyKey, keyRotateKey, keyGetSlot, keyRunVector. -/
def Obligations.KeyCommandsComplete : Prop :=
  (∀ (s : State) (p : Packet), taken 0x0A01 0 0 p s = true → exec (.keyGetIdentityKey p) s = .next (answered 0x0A01 p (Config.identityKey) (s.arrived 0x0A01 p)))
  ∧ (∀ (s : State) (p : Packet), taken 0x0A02 1 (bits 4 0 (p.w 2)) p s = true → clean (mask 4 0) (p.w 2) = true → bits 4 0 (p.w 2) = 25 → ∀ kek, Config.deriveKek (p.data 1) = some kek → exec (.keyEstablishKek p) s = .next (answered 0x0A02 p (kcvWords kek) (raise 649 0 ((s.arrived 0x0A02 p).onKey fun k => { k with kek := some kek }))))
  ∧ (∀ (s : State) (p : Packet) (kek : List Word), taken 0x0A03 2 (bits 4 0 (p.w 2)) p s = true → clean (mask 4 0) (p.w 2) = true → clean (mask 13 0) (p.w 3) = true → bits 13 12 (p.w 3) = 1 ∨ bits 13 12 (p.w 3) = 2 → bits 4 0 (p.w 2) = (if bits 13 12 (p.w 3) = 1 then 18 else 10) → ((s.arrived 0x0A03 p).slotOf (bits 11 0 (p.w 3))).st = .empty → (s.arrived 0x0A03 p).key.kek = some kek → (s.arrived 0x0A03 p).nsOf (bits 11 0 (p.w 3) + 1) = none → ∀ key, Config.kwUnwrap kek (p.data 2) = some key → (bits 13 12 (p.w 3) = 1 → key.take 8 ≠ key.drop 8) → exec (.keyImportKey p) s = .next (answered 0x0A03 p (kcvWords key) (raise 640 (fld 11 0 (bits 11 0 (p.w 3))) (loadKey (bits 11 0 (p.w 3)) (bits 13 12 (p.w 3)) (if bits 13 12 (p.w 3) = 2 then 1 else 0) key (s.arrived 0x0A03 p)))))
  ∧ (∀ (s : State) (p : Packet) (key : List Word) (b : State), taken 0x0A04 1 0 p s = true → clean (mask 13 0) (p.w 2) = true → bits 13 12 (p.w 2) = 1 ∨ bits 13 12 (p.w 2) = 2 → ((s.arrived 0x0A04 p).slotOf (bits 11 0 (p.w 2))).st = .empty → (s.arrived 0x0A04 p).md.entropyBad = false → drawKey (bits 13 12 (p.w 2)) (s.arrived 0x0A04 p) = (key, b) → exec (.keyGenerateKey p) s = .next (answered 0x0A04 p (kcvWords key) (raise 640 (fld 11 0 (bits 11 0 (p.w 2))) (loadKey (bits 11 0 (p.w 2)) (bits 13 12 (p.w 2)) (if bits 13 12 (p.w 2) = 2 then 1 else 0) key b))))
  ∧ (∀ (s : State) (p : Packet) (kek : List Word), taken 0x0A05 1 0 p s = true → clean (mask 11 0) (p.w 2) = true → ((s.arrived 0x0A05 p).slotOf (bits 11 0 (p.w 2))).mode ≠ 0 → (s.arrived 0x0A05 p).key.kek = some kek → exec (.keyExportKey p) s = .next (answered 0x0A05 p (((fld 4 0 (keyWords ((s.arrived 0x0A05 p).slotOf (bits 11 0 (p.w 2))).mode + 2) ||| fld 13 12 ((s.arrived 0x0A05 p).slotOf (bits 11 0 (p.w 2))).mode) :: Config.kwWrap kek ((s.arrived 0x0A05 p).slotOf (bits 11 0 (p.w 2))).key)) (s.arrived 0x0A05 p)))
  ∧ (∀ (s : State) (p : Packet), taken 0x0A06 1 0 p s = true → clean (mask 11 0) (p.w 2) = true → bound (s.arrived 0x0A06 p) (bits 11 0 (p.w 2)) = false → exec (.keyDestroyKey p) s = .next (answered 0x0A06 p [] (destroySlot (bits 11 0 (p.w 2)) false none (s.arrived 0x0A06 p))))
  ∧ (∀ (s : State) (p : Packet) (n : Ns), taken 0x0A07 2 (bits 4 0 (p.w 2)) p s = true → clean (mask 4 0) (p.w 2) = true → bits 4 0 (p.w 2) = 0 → clean (mask 11 0) (p.w 3) = true → ((s.arrived 0x0A07 p).slotOf (bits 11 0 (p.w 3))).st = .gcm → (s.arrived 0x0A07 p).nsOf (bits 11 0 (p.w 3) + 1) = some n → n.enc ≠ 0 → backedBlks n ≤ 2 ^ 39 → (s.arrived 0x0A07 p).md.entropyBad = false → exec (.keyRotateKey p) s = .next (accepted 0x0A07 p (rotateTo p (bits 11 0 (p.w 3)) ((s.arrived 0x0A07 p).slotOf (bits 11 0 (p.w 3))) (drawKey 2 (post p.door p.tag false stAccepted [] (s.arrived 0x0A07 p))).1 (drawKey 2 (post p.door p.tag false stAccepted [] (s.arrived 0x0A07 p))).2)))
  ∧ (∀ (s : State) (p : Packet) (n : Ns) (kek : List Word), taken 0x0A07 2 (bits 4 0 (p.w 2)) p s = true → clean (mask 4 0) (p.w 2) = true → bits 4 0 (p.w 2) = 10 → clean (mask 11 0) (p.w 3) = true → ((s.arrived 0x0A07 p).slotOf (bits 11 0 (p.w 3))).st = .gcm → (s.arrived 0x0A07 p).nsOf (bits 11 0 (p.w 3) + 1) = some n → n.enc ≠ 0 → backedBlks n ≤ 2 ^ 39 → (s.arrived 0x0A07 p).key.kek = some kek → ∀ key, Config.kwUnwrap kek (p.data 2) = some key → exec (.keyRotateKey p) s = .next (accepted 0x0A07 p (rotateTo p (bits 11 0 (p.w 3)) ((s.arrived 0x0A07 p).slotOf (bits 11 0 (p.w 3))) key (post p.door p.tag false stAccepted [] (s.arrived 0x0A07 p)))))
  ∧ (∀ (s : State) (p : Packet), taken 0x0A08 1 0 p s = true → clean (mask 11 0) (p.w 2) = true → exec (.keyGetSlot p) s = .next (answered 0x0A08 p ((deskKeyGetSlot p (s.arrived 0x0A08 p)).2.1) (s.arrived 0x0A08 p)))
  ∧ (∀ (s : State) (p : Packet), taken 0x0A09 3 (bits 10 0 (p.w 2)) p s = true → clean (mask 10 0) (p.w 2) = true → clean (mask 1 0 ||| mask 13 8 ||| mask 21 16) (p.w 3) = true → clean (mask 15 0) (p.w 4) = true → bits 1 0 (p.w 3) = 1 → bits 13 8 (p.w 3) < 48 → bits 21 16 (p.w 3) = 0 → bits 10 0 (p.w 2) = 20 + wordsFor (bits 15 0 (p.w 4)) → 16 ≤ bits 15 0 (p.w 4) → bits 15 0 (p.w 4) % 16 = 0 → ((s.arrived 0x0A09 p).core (bits 13 8 (p.w 3))).retired = false → exec (.keyRunVector p) s = .next (answered 0x0A09 p (wordsOf (wordsFor (bits 15 0 (p.w 4))) (Config.xtsEnc ((p.data 3).take 16) (vecNum (p.data 3) 16 16) (bits 15 0 (p.w 4)) (vecNum (p.data 3) 20 (bits 15 0 (p.w 4))))) (count1 5168 (count1 (5120 + bits 13 8 (p.w 3)) (s.arrived 0x0A09 p)))))
  ∧ (∀ (s : State) (p : Packet) (ct : Nat), taken 0x0A09 3 (bits 10 0 (p.w 2)) p s = true → clean (mask 10 0) (p.w 2) = true → clean (mask 1 0 ||| mask 13 8 ||| mask 21 16) (p.w 3) = true → clean (mask 15 0) (p.w 4) = true → bits 1 0 (p.w 3) = 2 → bits 13 8 (p.w 3) < 48 → bits 21 16 (p.w 3) ≤ 32 → bits 10 0 (p.w 2) = 11 + wordsFor (bits 21 16 (p.w 3)) + wordsFor (bits 15 0 (p.w 4)) → bits 15 0 (p.w 4) = 512 ∨ bits 15 0 (p.w 4) = 4096 → ((s.arrived 0x0A09 p).core (bits 13 8 (p.w 3))).retired = false → Config.gcmEnc ((p.data 3).take 8) (revBytes 12 (vecNum (p.data 3) 8 12)) (bits 15 0 (p.w 4)) (vecNum (p.data 3) (11 + wordsFor (bits 21 16 (p.w 3))) (bits 15 0 (p.w 4))) = ct → exec (.keyRunVector p) s = .next (answered 0x0A09 p (wordsOf (wordsFor (bits 15 0 (p.w 4))) ct ++ wordsOf 4 (Config.gcmTag ((p.data 3).take 8) (revBytes 12 (vecNum (p.data 3) 8 12)) (bits 21 16 (p.w 3)) (vecNum (p.data 3) 11 (bits 21 16 (p.w 3))) (bits 15 0 (p.w 4)) ct)) (count1 5170 (count1 (5120 + bits 13 8 (p.w 3)) (s.arrived 0x0A09 p)))))

/-- A slot whose users have ended is zeroised, refilled for a Format or freed of its previous key; the erased copies raise KEY.SLOT_DESTROYED; the sweep visits the next block or ends and its position is recorded; a reservation becomes live; the known-answer tests retire the cores that fail; a retest ends an entropy fault, and the DRBG draws on. Concluded to answer a next state, by constructor: keyZeroise, keyCopiesErased, rotationSweepStep, sweepPositionRecord, nonceReservationLive, cipherSelfTest, entropyRetest, drbgReseed. -/
def Obligations.KeyEventsComplete : Prop :=
  (∀ (s : State) (i : Nat), i < 4096 → (s.slotOf i).users = [] → (s.slotOf i).dying = true → ((s.slotOf i).refill = true → exec (.keyZeroise i) s = .next (refillSlot i (s.slotOf i) s)) ∧ ((s.slotOf i).refill = false → exec (.keyZeroise i) s = .next (shadow .stateWrite 10 i (onKslot i (fun _ => { erasing := true }) s))))
  ∧ (∀ (s : State) (i : Nat), i < 4096 → (s.slotOf i).users = [] → (s.slotOf i).dying = false → (s.slotOf i).st = .gcm → (s.slotOf i).prev ≠ [] → exec (.keyZeroise i) s = .next (onKslot i (fun x => { x with prev := [], prevGen := 0 }) s))
  ∧ (∀ (s : State) (i : Nat), (s.slotOf i).erasing = true → s.nvm.sanitize = none → exec (.keyCopiesErased i) s = .next (raise 641 (fld 11 0 i) (send { kind := .keyErase, a := i } (onKslot i (fun x => { x with erasing := false }) s))))
  ∧ (∀ (s : State) (i : Nat) (n : Ns), s.nsOf (i + 1) = some n → (s.slotOf i).st = .rotating → actsForShelf s = true → (nextWritten n (s.slotOf i).sweep = none → sweepPass s i = none → exec (.rotationSweepStep i) s = .next (endSweep i s)) ∧ (∀ p y, nextWritten n (s.slotOf i).sweep = none → sweepPass s i = some (p, y) → exec (.rotationSweepStep i) s = .next (endSweep i (dropPass p s))) ∧ (∀ lba, nextWritten n (s.slotOf i).sweep = some lba → writeAhead s (i + 1) lba = false → usedPages s + 2 ≤ pageCount → exec (.rotationSweepStep i) s = .next (sweepNext i n lba s)))
  ∧ (∀ (s : State) (i : Nat), (s.slotOf i).st = .rotating → due ((s.slotOf i).sweepAt + 10 * sec) s.clk.now = true → exec (.sweepPositionRecord i) s = .next (onKslot i (fun k => { k with sweepRec := k.sweep, sweepAt := s.clk.now }) s))
  ∧ (∀ (s : State) (c a : Nat), c < 48 → (s.core c).ask = some a → s.marked (s.core c).askSeq = true → exec (.nonceReservationLive c) s = .next (restartHeld (settleCmds (count1 5174 ((onCore c (fun x => { x with ctr := if x.ctr < x.stop then x.ctr else (a + 2 ^ 20 - 1) / 2 ^ 20 * 2 ^ 20, stop := (a + 2 ^ 20 - 1) / 2 ^ 20 * 2 ^ 20 + 2 ^ 20, ask := none, askSeq := none, stalled := false }) s).onKey fun k => { k with ends := tabIns k.ends (48 * s.bay.bay + c) ((a + 2 ^ 20 - 1) / 2 ^ 20 * 2 ^ 20 + 2 ^ 20) })))))
  ∧ (∀ (s : State) (fs : List Nat), s.order ≠ 2 → (match s.key.testAt with | none => s.md.mode = .boot | some t => t + 86400 * sec ≤ s.clk.now) → exec (.cipherSelfTest fs) s = .next (forAll (fs.filter fun c => c < 48 && !(s.core c).retired) (fun c s => raise 646 (fld 5 0 c) (onCore c (fun x => { x with retired := true }) s)) (s.onKey fun k => { k with testAt := some s.clk.now })))
  ∧ (∀ (s : State), s.md.entropyBad = true → exec (.entropyRetest true) s = .next (raise 648 0 (s.onMd fun m => { m with entropyBad := false })))
  ∧ (∀ (s : State), s.md.entropyBad = false → exec .drbgReseed s = .next { s with free := s.free + 1 })

/-- Signal or 10 ms ends SILENT; training frames equalise the lanes until all are ready, or 150 ms mark the rest bad; codewords lock the lanes, eight identical CONFIG blocks refuse the link or bring it to ACTIVE; ALIGN and CONFIG last 1 ms; a refused link retries. Concluded to answer a next state, by constructor: linkSignalDetect, trainingFrame, equaliseTimeout, alignmentCodeword, configBlock, linkAlignTimeout, linkRefuseRetry. -/
def Obligations.LinkTrainingComplete : Prop :=
  (∀ (s u : State) (k g : Nat), k < 3 → onLink k (fun l => { l with signal := g % 2 ^ lanesOf k }) s = u → linkMay u k = true → (u.link k).st = .silent → (match (u.link k).retryAt with | some t => t ≤ u.clk.now | none => (u.link k).signal ≠ 0 ∨ (u.link k).since + 10 * ms ≤ u.clk.now) → exec (.linkSignalDetect k g) s = .next (linkTo k .equalise (onLink k (fun l => { l with retryAt := none, lanes := [], peer := none, same := 0 }) (if (u.link k).session = 0 then drawSession k u else u))))
  ∧ (∀ (s t : State) (k i : Nat) (f : TrainFrame) (e : Option Nat) (w : TapWish), linkMay s k = true → f.crcOk = true → i < lanesOf k → (s.link k).st = .equalise → send { kind := .trainFrame, a := k, b := i, ws := trainWords k i w (laneOf ((onLane k i (trainLane i f (patternReady e) w) s).link k) i) } (onLane k i (trainLane i f (patternReady e) w) s) = t → exec (.trainingFrame k i f e w) s = .next (if ((List.range (lanesOf k)).all fun i => (laneOf (t.link k) i).both) = true then toAlign k t else t))
  ∧ (∀ (s : State) (k i : Nat) (f : TrainFrame) (e : Option Nat) (w : TapWish), linkMay s k = true → f.crcOk = true → i < lanesOf k → (s.link k).st = .active → inGroup (s.link k) i = false → exec (.trainingFrame k i f e w) s = .next (send { kind := .trainFrame, a := k, b := i, ws := trainWords k i w (laneOf ((onLane k i (retrainLane i f (patternReady e) w) s).link k) i) } (onLane k i (retrainLane i f (patternReady e) w) s)))
  ∧ (∀ (s t : State) (k : Nat), (s.link k).st = .equalise → due ((s.link k).since + 150 * ms) s.clk.now = true → forAll (List.range (lanesOf k)) (fun i => onLane k i fun x => { x with bad := !x.both }) s = t → exec (.equaliseTimeout k) s = .next (if readyLanes k (t.link k) = 0 then linkTo k .silent t else toAlign k t))
  ∧ (∀ (s t : State) (k i run : Nat) (b : Bool), linkMay s k = true → i < lanesOf k → (s.link k).st = .active → onLink k (fun l => { l with rxPos := if b = true then 0 else l.rxPos }) (onLane k i (markLane b) s) = t → (t.link k).st = .active → exec (.alignmentCodeword k i b run) s = .next (if 3 ≤ run then linkDown k 6 t else t))
  ∧ (∀ (s t : State) (k i run : Nat) (b : Bool), linkMay s k = true → i < lanesOf k → (s.link k).st = .align → onLink k (fun l => { l with rxPos := if b = true then 0 else l.rxPos }) (onLane k i (markLane b) s) = t → (t.link k).st = .align → exec (.alignmentCodeword k i b run) s = .next (if readyLanes k (t.link k) ≠ 0 ∧ ownGood k (t.link k) = readyLanes k (t.link k) then toConfig k t else t))
  ∧ (∀ (s t : State) (k i run : Nat) (c : ConfigBlk), linkMay s k = true → i < lanesOf k → (s.link k).st = .config → onLink k (fun l => { l with rxPos := 0 }) (onLane k i (markLane true) s) = t → (t.link k).st = .config → agreed (t.link k) = some c → exec (.alignmentCodeword k i true run) s = .next (toActive k c t))
  ∧ (∀ (s t u : State) (k n : Nat) (b : ConfigBlk), linkMay s k = true → b.crcOk = true → (s.link k).st = .config → (if (s.link k).peer = some b then min 8 ((s.link k).same + 1) else 1) = n → onLink k (fun l => { l with peer := some b, same := n, ackSent := if l.ackd = true then min 8 (l.ackSent + 1) else 0, rxPos := l.rxPos + 256 }) s = t → 8 ≤ n → (if (s.link k).ackd = true then t else sendConfig k (onLink k (fun l => { l with ackd := true, ackSent := 1 }) t)) = u → (∀ r, refusal u k b = some r → exec (.configBlock k b) s = .next (refuseLink k r u)) ∧ (refusal u k b = none → exec (.configBlock k b) s = .next u))
  ∧ (∀ (s : State) (k : Nat), (s.link k).st = .align ∨ (s.link k).st = .config → due ((s.link k).since + ms) s.clk.now = true → (s.link k).resume = none → exec (.linkAlignTimeout k) s = .next (linkTo k .silent s))
  ∧ (∀ (s : State) (k t : Nat), (s.link k).st = .align ∨ (s.link k).st = .config → due ((s.link k).since + ms) s.clk.now = true → (s.link k).resume = some t → s.clk.now < t → exec (.linkAlignTimeout k) s = .next (toAlign k s))
  ∧ (∀ (s : State) (k t : Nat), (s.link k).retryAt = some t → due t s.clk.now = true → linkMay s k = true → (s.link k).st = .silent → exec (.linkRefuseRetry k) s = .next (linkTo k .equalise (onLink k (fun l => { l with retryAt := none, lanes := [], peer := none, same := 0 }) s)))

/-- A flit is accepted in order or discarded with one NAK; unacknowledged flits are replayed after 2 µs; heartbeats leave and are taken, and 50 µs without one take the link down, as do a lane fault and MATE_IN_N; a session that is not resumed in time is lost; a wider group retrains the link; postmarks are sent, taken and found stalled; a frame is routed and a channel without credits is reported. Concluded to answer a next state, by constructor: flitReceive, replayTimeout, laneFault, mateInHigh, heartbeatSend, heartbeatReceive, heartbeatTimeout, sessionResumeTimeout, linkWiden, postmarkAckSend, postmarkAckReceive, postmarkStall, creditStall, forwardedFrame. -/
def Obligations.LinkTrafficComplete : Prop :=
  (∀ (s t : State) (k : Nat) (f : FlitIn), (s.link k).st = .active → f.errs.length ≤ rsCorrects → ackFlit k f (onLink k (fun l => { l with rxPos := l.rxPos + 256 }) s) = t → exec (.flitReceive k f) s = .next (if (t.link k).st != .active || f.idle then t else acceptFlit k f t))
  ∧ (∀ (s : State) (k : Nat) (f : FlitIn), (s.link k).st = .active → rsCorrects < f.errs.length → exec (.flitReceive k f) s = .next (discardFlit k (count1 (linkCtr k 5648 6160) (onLink k (fun l => { l with rxPos := l.rxPos + 256 }) s))))
  ∧ (∀ (s : State) (k : Nat), (s.link k).st = .active → due ((s.link k).progAt + 2 * us) s.clk.now = true → exec (.replayTimeout k) s = .next (replayFlits k s))
  ∧ (∀ (s : State) (k i : Nat), (s.link k).st = .active → inGroup (s.link k) i = true → exec (.laneFault k i) s = .next (linkDown k 1 (linkLaneFault k i (onLane k i (fun x => { x with bad := true, locked := false }) s))))
  ∧ (∀ (s : State), exec .mateInHigh s = .next (linkDown 0 5 { s with pins := { s.pins with mateInN := true } }))
  ∧ (∀ (s t : State) (k q : Nat), (s.link k).st = .active → (s.link k).beatAt ≤ s.clk.now → ((s.link k).hbseq + 1) % 2 ^ 32 = q → ((onLink k (fun l => { l with beatAt := s.clk.now + 500, hbseq := q, hbTx := tabIns (tabFilter l.hbTx fun n _ => decide (q < n + 256)) q s.clk.now }) s).onPair fun p => { p with drainW := p.drainW && writesOut (onLink k (fun l => { l with beatAt := s.clk.now + 500, hbseq := q, hbTx := tabIns (tabFilter l.hbTx fun n _ => decide (q < n + 256)) q s.clk.now }) s) }) = t → exec (.heartbeatSend k) s = .next (linkSend k { kind := .heartbeat, a := k, b := q, ws := beatWords k q (s.link k) t } t))
  ∧ (∀ (s t : State) (k : Nat) (h : HeartbeatIn), (s.link k).st = .active → (if k = 0 then partnerBeat h (linkBeat k h s) else linkBeat k h s) = t → exec (.heartbeatReceive k h) s = .next (onLink k (fun l => { l with hbTx := tabFilter l.hbTx fun n _ => decide (h.echoSeq ≤ n) }) t))
  ∧ (∀ (s : State) (k : Nat), (s.link k).st = .active → due ((s.link k).hbAt + 50 * us) s.clk.now = true → exec (.heartbeatTimeout k) s = .next (linkDown k 3 s))
  ∧ (∀ (s : State) (k t : Nat), (s.link k).resume = some t → due t s.clk.now = true → (s.link k).st ≠ .active → exec (.sessionResumeTimeout k) s = .next (linkTo k .silent (onLink k (fun l => { l with retryAt := some (s.clk.now + 10 * ms) }) (loseSession k s))))
  ∧ (∀ (s t : State) (k a : Nat), (s.link k).wideAt = some a → (s.link k).st = .active → due (a + 10 * sec) s.clk.now = true → (k = 0 ∧ s.bay.bay = 0) ∨ k = 2 → notePartner k (toAlign k (onLink k (fun l => { l with canResume := true, resume := some (s.clk.now + 20 * ms), wideAt := none }) s)) = t → exec (.linkWiden k) s = .next (if k = 0 ∧ t.pair.paired = true then haltEgress t else t))
  ∧ (∀ (s : State), s.pair.rxNew ≠ 0 → (decide (64 ≤ s.pair.rxNew) || due (s.pair.rxAt + 200) s.clk.now) = true → s.links.partnerUp = true → exec .postmarkAckSend s = .next (linkSend 0 { kind := .postmarkAck, b := s.pair.rxseq } (s.onPair fun p => { p with rxNew := 0 })))
  ∧ (∀ (s t : State) (n : Nat) (left : List (Nat × Nat)), count1 5657 s = t → t.pair.shadowing = true → n ≤ t.pair.wire → t.pair.inFlight.filter (fun e => decide (n < e.1)) = left → left.length ≠ t.pair.inFlight.length → exec (.postmarkAckReceive n) s = .next (pumpHeld (t.onPair fun p => { p with inFlight := left, pmark := max p.pmark (markedTo left t), markAt := t.clk.now })))
  ∧ (∀ (s : State), s.pair.shadowing = true → s.pair.pmark < s.pair.pseq → due (s.pair.markAt + ms) s.clk.now = true → exec .postmarkStall s = .next (endSession s))
  ∧ (∀ (s : State) (k cls w : Nat), (s.link k).st = .active → (if k = 0 then 34 else 31 + k) = w → noCredit s w (cls % 8) = true ∨ ((s.link k).queue.any fun r => decide (r.vc = 8 + cls % 8)) = true → exec (.creditStall k cls) s = .next (count1 (linkCtr k 5658 6178) (s.onNet fun m => { m with stall := tabIns m.stall (w * 8 + cls % 8) true })))
  ∧ (∀ (s t : State) (m : MsgIn) (cls port : Nat) (f : Frame), (s.link m.link).st = .active → freeCredits m.link (8 + cls % 8) m.len s = t → m.hops < 15 → (routeOf t m = .take → port < 32 → exec (.forwardedFrame m cls port (some f)) s = .next (frameIn { f with lport := port } t)) ∧ (∀ k, routeOf t m = .pass k → exec (.forwardedFrame m cls port (some f)) s = .next (linkSend k { kind := .forward, a := port, b := f.len, c := cls, route := m.dst + 16 * ((m.hops + 1) % 16) } t)) ∧ (routeOf t m = .drop → exec (.forwardedFrame m cls port (some f)) s = .next (count1 6190 t)))

/-- The holder renews every 10 ms and resends after 0.5 ms, at most three times; a non-holder sends STATUS every 5 ms and claims in Boot every 100 ms; a GRANT gives or renews the lease; a DENY and an ACK have the effect of what they answer; the own clock ends the lease; silence of the witness is raised; and a grant is followed by announcements, by member writes after 12 ms and by a self-fault where one lasts. Bad frames are counted. Concluded to answer a next state, by constructor: renewSend, renewResend, statusSend, claimSend, leaseGrant, leaseDeny, leaseAck, leaseExpiry, witnessLost, leaseFrameIgnored, forceClaimTimeout, gratuitousArp, memberWriteHoldExpiry, selfFaultDetect. -/
def Obligations.LeaseComplete : Prop :=
  (∀ (s : State), s.pair.lease = true → leaseMay s = true → due (s.pair.renewAt + 10 * ms) s.clk.now = true → exec .renewSend s = .next (leaseTimed 1 false (count1 5663 (s.onPair fun p => { p with renewAt := s.clk.now, resends := 0, answered := false }))))
  ∧ (∀ (s : State), s.pair.lease = true → leaseMay s = true → s.pair.answered = false → s.pair.resends < 3 → due (s.pair.renewAt + (s.pair.resends + 1) * 500 * us) s.clk.now = true → exec .renewResend s = .next (leaseTimed 1 false (count1 5664 (count1 5663 (s.onPair fun p => { p with resends := p.resends + 1 })))))
  ∧ (∀ (s : State), s.pair.lease = false → leaseMay s = true → due (s.pair.statusAt + 5 * ms) s.clk.now = true → exec .statusSend s = .next (leaseSend 4 false (s.onPair fun p => { p with statusAt := s.clk.now })))
  ∧ (∀ (s : State) (t : Nat), s.pair.claimAt = some t → s.md.mode = .boot → s.pair.lease = false → leaseMay s = true → 2 ≤ s.pair.holder → s.md.maintBoot = false → s.md.selftestBad = false → s.md.dramBad = false → due t s.clk.now = true → exec .claimSend s = .next (leaseTimed 2 false (s.onPair fun p => { p with claimAt := some (s.clk.now + 100 * ms) })))
  ∧ (∀ (s t : State) (f : WitnessFrame), leaseMay s = true → sawWitness f s = t → (t.pair.lease = true → exec (.leaseGrant f) s = .next (renewed f t)) ∧ (t.pair.lease = false → t.md.mode ≠ .maintenance ∨ t.pair.force.isSome = true → exec (.leaseGrant f) s = .next (granted f t)) ∧ (t.pair.lease = false → t.md.mode = .maintenance → t.pair.force = none → exec (.leaseGrant f) s = .next t))
  ∧ (∀ (s t u : State) (f : WitnessFrame), leaseMay s = true → answerForce stConflict (sawWitness f s) = t → (if t.pair.down then t else raise 719 (pairParam t 0) (t.onPair fun p => { p with down := true })) = u → (f.result = 4 → u.pair.lease = true → exec (.leaseDeny f) s = .next (fence u)) ∧ (f.result = 4 → u.pair.lease = false → u.md.mode = .standby → exec (.leaseDeny f) s = .next (changeMode .fenced (u.onPair fun p => { p with current := false }))) ∧ (f.result = 4 → u.pair.lease = false → u.md.mode ≠ .standby → exec (.leaseDeny f) s = .next u) ∧ (f.result ≠ 4 → t.pair.take = some .released → f.seq = t.pair.relSeq → exec (.leaseDeny f) s = .next (unfreeze t)) ∧ (f.result = 1 → t.pair.take ≠ some .released → t.pair.lease = true → t.pair.fault ≠ 0 → exec (.leaseDeny f) s = .next (fence t)))
  ∧ (∀ (s t : State) (f : WitnessFrame), leaseMay s = true → sawWitness f s = t → (t.pair.soloAsk = true → f.seq = t.pair.soloSeq → exec (.leaseAck f) s = .next (goSolo t)) ∧ (t.pair.soloAsk = false → t.pair.take = some .released → f.seq = t.pair.relSeq → exec (.leaseAck f) s = .next (handOver t)))
  ∧ (∀ (s : State), s.pair.lease = true → due s.pair.expiry s.clk.now = true → exec .leaseExpiry s = .next (fence s))
  ∧ (∀ (s : State), s.pair.witness = true → leaseMay s = true → due (s.pair.frameAt + 20 * ms) s.clk.now = true → exec .witnessLost s = .next (raise 720 (pairParam s 0) (s.onPair fun p => { p with witness := false })))
  ∧ (∀ (s : State), exec .leaseFrameIgnored s = .next (count1 5665 s))
  ∧ (∀ (s : State) (d t : Nat) (tag : Word), s.pair.force = some (d, tag, t) → due (t + 100 * ms) s.clk.now = true → exec .forceClaimTimeout s = .next (answerForce stHwFault s))
  ∧ (∀ (s t : State) (g : Nat), s.pair.grantAt = some g → s.pair.arps < 3 → s.md.mode = .active → frontOn s = true → due (g + [0, ms, 10 * ms].getD s.pair.arps 0) s.clk.now = true → s.onPair (fun p => { p with arps := p.arps + 1 }) = t → exec .gratuitousArp s = .next (forAll t.net.lports (fun e s => forAll e.2.addrs (fun a s => putOut ⟨e.1, 0, 2048, 38, 0, 0, [0], { kind := .arp, a := e.1, b := a.2.ip, c := a.2.vid, ws := words2 a.2.mac }⟩ s) s) t))
  ∧ (∀ (s : State) (t : Nat), s.drv.writeHold = some t → due t s.clk.now = true → exec .memberWriteHoldExpiry s = .next (memberGo s))
  ∧ (∀ (s : State) (g c : Nat), s.pair.grantAt = some g → s.pair.lease = true → s.pair.fault = 0 → s.clk.now ≤ g + 100 * ms → selfFault s c = true → exec (.selfFaultDetect c) s = .next (leaseSend 6 false (raise 717 (pairParam (s.onPair fun p => { p with fault := c, egressHalt := true }) c) (s.onPair fun p => { p with fault := c, egressHalt := true }))))

/-- At a module that takes shadow records on an ACTIVE partner link: the next record of a running session in PSEQ order is placed and postmarked, as is the first, PSEQ 1, which starts a session; one that cannot be placed stops the postmarking; every other record only frees its credits. A planned take-over that has frozen releases the lease once its writes are out and its postmarks are through, and 1 ms after the witness's ACK the former active enters Standby. Resynchronisation starts where R762 allows it and AUTORESYNC is set, goes through phases 1 to 3 and ends in paired operation; a standby that is told phase 3 is current. PAIR.GET_STATUS answers its words and leaves the pair; PAIR.TAKEOVER freezes, with CONFLICT out of paired operation and BUSY, its hint a free value, while a take-over runs; PAIR.SET_POLICY sets its two values; PAIR.START_RESYNC is accepted, with CONFLICT while the link is down or the partner current; PAIR.FORCE_CLAIM sends its CLAIM with OVERRIDE and withholds its reply, with BAD_PARAM for another word. Concluded to answer a next state, by constructor: shadowPacket, mirrorWrite, mirrorState, takeoverFreezeDrained, takeoverForwardEnd, resyncStart, resyncPhaseDone, pairGetStatus, pairTakeover, pairSetPolicy, pairStartResync, pairForceClaim. -/
def Obligations.PairComplete : Prop :=
  (∀ (s t : State) (n len : Nat) (b : ShadowBody), freeCredits 0 1 len s = t → takesShadow t = true → n ≠ 1 → t.pair.rxOn = true → t.pair.stuck = false → n = t.pair.rxseq + 1 → exec (.shadowPacket n len true b) s = .next ((placeShadow b t).onPair fun p => { p with rxseq := n, rxNew := p.rxNew + 1, rxAt := if p.rxNew = 0 then (placeShadow b t).clk.now else p.rxAt }))
  ∧ (∀ (s t : State) (n len : Nat) (m : MirrorIn), freeCredits 0 2 len s = t → takesShadow t = true → n ≠ 1 → t.pair.rxOn = true → t.pair.stuck = false → n = t.pair.rxseq + 1 → exec (.mirrorWrite n len true m) s = .next ((mirrorPage m t).onPair fun p => { p with rxseq := n, rxNew := p.rxNew + 1, rxAt := if p.rxNew = 0 then (mirrorPage m t).clk.now else p.rxAt }))
  ∧ (∀ (s t u : State) (n len : Nat) (l : List MirrorItem), freeCredits 0 2 len s = t → takesShadow t = true → n ≠ 1 → t.pair.rxOn = true → t.pair.stuck = false → n = t.pair.rxseq + 1 → silently (forAll l mirrorItem) t = u → exec (.mirrorState n len true l) s = .next (u.onPair fun p => { p with rxseq := n, rxNew := p.rxNew + 1, rxAt := if p.rxNew = 0 then u.clk.now else p.rxAt }))
  ∧ (∀ (s t : State) (len : Nat) (b : ShadowBody), freeCredits 0 1 len s = t → takesShadow t = true → (startFeed t).pair.rxOn = true → (startFeed t).pair.stuck = false → (startFeed t).pair.rxseq = 0 → exec (.shadowPacket 1 len true b) s = .next ((placeShadow b (startFeed t)).onPair fun p => { p with rxseq := 1, rxNew := p.rxNew + 1, rxAt := if p.rxNew = 0 then (placeShadow b (startFeed t)).clk.now else p.rxAt }))
  ∧ (∀ (s t : State) (n : Nat) (len : Nat) (b : ShadowBody), freeCredits 0 1 len s = t → takesShadow t = true → n ≠ 1 → t.pair.rxOn = true → t.pair.stuck = false → n = t.pair.rxseq + 1 → exec (.shadowPacket n len false b) s = .next (t.onPair fun p => { p with stuck := true }))
  ∧ (∀ (s t : State) (n : Nat) (y : Bool) (len : Nat) (b : ShadowBody), freeCredits 0 1 len s = t → n ≠ 1 → takesShadow t = false ∨ t.pair.rxOn = false ∨ t.pair.stuck = true ∨ n ≠ t.pair.rxseq + 1 → exec (.shadowPacket n len y b) s = .next t)
  ∧ (∀ (s t : State) (len : Nat) (m : MirrorIn), freeCredits 0 2 len s = t → takesShadow t = true → (startFeed t).pair.rxOn = true → (startFeed t).pair.stuck = false → (startFeed t).pair.rxseq = 0 → exec (.mirrorWrite 1 len true m) s = .next ((mirrorPage m (startFeed t)).onPair fun p => { p with rxseq := 1, rxNew := p.rxNew + 1, rxAt := if p.rxNew = 0 then (mirrorPage m (startFeed t)).clk.now else p.rxAt }))
  ∧ (∀ (s t : State) (n : Nat) (len : Nat) (m : MirrorIn), freeCredits 0 2 len s = t → takesShadow t = true → n ≠ 1 → t.pair.rxOn = true → t.pair.stuck = false → n = t.pair.rxseq + 1 → exec (.mirrorWrite n len false m) s = .next (t.onPair fun p => { p with stuck := true }))
  ∧ (∀ (s t : State) (n : Nat) (y : Bool) (len : Nat) (m : MirrorIn), freeCredits 0 2 len s = t → n ≠ 1 → takesShadow t = false ∨ t.pair.rxOn = false ∨ t.pair.stuck = true ∨ n ≠ t.pair.rxseq + 1 → exec (.mirrorWrite n len y m) s = .next t)
  ∧ (∀ (s t : State) (len : Nat) (l : List MirrorItem), freeCredits 0 2 len s = t → takesShadow t = true → (startFeed t).pair.rxOn = true → (startFeed t).pair.stuck = false → (startFeed t).pair.rxseq = 0 → exec (.mirrorState 1 len true l) s = .next ((silently (forAll l mirrorItem) (startFeed t)).onPair fun p => { p with rxseq := 1, rxNew := p.rxNew + 1, rxAt := if p.rxNew = 0 then (silently (forAll l mirrorItem) (startFeed t)).clk.now else p.rxAt }))
  ∧ (∀ (s t : State) (n : Nat) (len : Nat) (l : List MirrorItem), freeCredits 0 2 len s = t → takesShadow t = true → n ≠ 1 → t.pair.rxOn = true → t.pair.stuck = false → n = t.pair.rxseq + 1 → exec (.mirrorState n len false l) s = .next (t.onPair fun p => { p with stuck := true }))
  ∧ (∀ (s t : State) (n : Nat) (y : Bool) (len : Nat) (l : List MirrorItem), freeCredits 0 2 len s = t → n ≠ 1 → takesShadow t = false ∨ t.pair.rxOn = false ∨ t.pair.stuck = true ∨ n ≠ t.pair.rxseq + 1 → exec (.mirrorState n len y l) s = .next t)
  ∧ (∀ (s t : State), s.pair.take = some .freeze → writesOut s = false → s.pair.pseq ≤ s.pair.pmark → leaseSend 3 false (shadow .stateWrite 11 0 s) = t → exec .takeoverFreezeDrained s = .next (t.onPair fun p => { p with take := some .released, relSeq := p.frame }))
  ∧ (∀ (s t : State), s.pair.take = some .forward → s.md.mode = .active → due (s.pair.takeAt + ms) s.clk.now = true → (s.onPair fun p => { p with take := none, egressHalt := false, current := true, grantAt := none, took := false }).onDrv (fun d => { d with cmds := [], recons := [], passes := [], writeHold := none }) = t → exec .takeoverForwardEnd s = .next (finish (fun r => r.op = 0x0B02) 713 stOk (pairParam (count1 5661 t) 0) (changeMode .standby (count1 5661 t))))
  ∧ (∀ (s : State), resyncMay s = true → s.pair.auto = true → exec .resyncStart s = .next (beginResync s))
  ∧ (∀ (s : State) (n b : Nat), s.pair.resync = some n → s.pair.shadowing = true → s.pair.phaseAt + b / max 1 s.pair.rsRate ≤ s.clk.now → n < 3 → exec (.resyncPhaseDone n b) s = .next (sendPhase (n + 1) ((count 5674 b s).onPair fun p => { p with rsPct := n * 33 })))
  ∧ (∀ (s t : State) (b : Nat), s.pair.resync = some 3 → s.pair.shadowing = true → s.pair.phaseAt + b / max 1 s.pair.rsRate ≤ s.clk.now → (count 5674 b s).onPair (fun p => { p with resync := none, rsPct := 100, paired := true, peerCurrent := true }) = t → exec (.resyncPhaseDone 3 b) s = .next (finish (fun r => r.op = 0x0B04) 716 stOk (pairParam t 0) (count1 5673 t)))
  ∧ (∀ (s : State) (b : Nat), s.pair.resync = none → s.pair.rxOn = true → s.md.mode = .standby ∨ s.md.mode = .fenced ∨ s.md.mode = .boot → exec (.resyncPhaseDone 3 b) s = .next (s.onPair fun p => { p with current := true }))
  ∧ (∀ (s : State) (p : Packet), taken 0x0B01 0 0 p s = true → exec (.pairGetStatus p) s = .next (answered 0x0B01 p (deskPairGetStatus p (s.arrived 0x0B01 p)).2.1 (s.arrived 0x0B01 p)))
  ∧ (∀ (s : State) (p : Packet), taken 0x0B02 0 0 p s = true → (s.arrived 0x0B02 p).pair.paired = true → (s.arrived 0x0B02 p).pair.take = none → exec (.pairTakeover p) s = .next (accepted 0x0B02 p (accept p 0x0B02 0 0 ((post p.door p.tag false stAccepted [] (s.arrived 0x0B02 p)).onPair fun d => { d with take := some .freeze, egressHalt := true, frozen := [] }))))
  ∧ (∀ (s : State) (p : Packet), taken 0x0B02 0 0 p s = true → (s.arrived 0x0B02 p).pair.paired = false → exec (.pairTakeover p) s = .next (post p.door p.tag false stConflict [] (s.arrived 0x0B02 p)))
  ∧ (∀ (s : State) (p : Packet) (x : TkPhase), taken 0x0B02 0 0 p s = true → (s.arrived 0x0B02 p).pair.paired = true → (s.arrived 0x0B02 p).pair.take = some x → exec (.pairTakeover p) s = .next (post p.door p.tag false stBusy [(takeFree (s.arrived 0x0B02 p)).1.setWidth 32] (takeFree (s.arrived 0x0B02 p)).2))
  ∧ (∀ (s : State) (p : Packet), taken 0x0B03 1 0 p s = true → clean (mask 6 0 ||| mask 8 8) (p.w 2) = true → 1 ≤ bits 6 0 (p.w 2) → bits 6 0 (p.w 2) ≤ 80 → exec (.pairSetPolicy p) s = .next (answered 0x0B03 p [] ((s.arrived 0x0B03 p).onPair fun d => { d with rsRate := bits 6 0 (p.w 2), auto := bit 8 (p.w 2) })))
  ∧ (∀ (s : State) (p : Packet), taken 0x0B04 0 0 p s = true → (s.arrived 0x0B04 p).links.partnerUp = true → (s.arrived 0x0B04 p).pair.peerCurrent = false → exec (.pairStartResync p) s = .next (accepted 0x0B04 p (if resyncMay (accept p 0x0B04 0 0 (post p.door p.tag false stAccepted [] (s.arrived 0x0B04 p))) = true then beginResync (accept p 0x0B04 0 0 (post p.door p.tag false stAccepted [] (s.arrived 0x0B04 p))) else accept p 0x0B04 0 0 (post p.door p.tag false stAccepted [] (s.arrived 0x0B04 p)))))
  ∧ (∀ (s : State) (p : Packet), taken 0x0B04 0 0 p s = true → (s.arrived 0x0B04 p).links.partnerUp = false ∨ (s.arrived 0x0B04 p).pair.peerCurrent = true → exec (.pairStartResync p) s = .next (post p.door p.tag false stConflict [] (s.arrived 0x0B04 p)))
  ∧ (∀ (s : State) (p : Packet), taken 0x0B05 1 0 p s = true → p.w 2 = 0x00004824 → (s.arrived 0x0B05 p).pair.force = none → exec (.pairForceClaim p) s = .next (shadowLetter 0x0B05 p (leaseTimed 2 true ((s.arrived 0x0B05 p).onPair fun d => { d with force := some (p.door, p.tag, (s.arrived 0x0B05 p).clk.now) }))))
  ∧ (∀ (s : State) (p : Packet), taken 0x0B05 1 0 p s = true → p.w 2 ≠ 0x00004824 → exec (.pairForceClaim p) s = .next (post p.door p.tag false stBadParam [] (s.arrived 0x0B05 p)))

/-- HELLO leaves on an ACTIVE relay link and is taken, and 5 ms without one clear the neighbour; a shelf forms its stack after 2 s; a message that the route keeps here has the effect of its kind; a forwarded command starts at its home module, its data pass in both directions, and its completion fills the held one; an unreachable master or home shelf ends what waits for it. Concluded to answer a next state, by constructor: helloSend, helloReceive, helloTimeout, stackRecordMessage, stackFormTimeout, dirUpdate, adminRequest, adminReply, masterUnreachable, forwardCommand, forwardDataRequest, forwardWriteData, forwardReadData, forwardCompletion, forwardTimeout. -/
def Obligations.StackMessagesComplete : Prop :=
  (∀ (s : State) (k : Nat), k = 1 ∨ k = 2 → (s.link k).st = .active → (s.link k).onlyHb = false → (s.link k).helloAt ≤ s.clk.now → exec (.helloSend k) s = .next (linkSend k { kind := .hello, a := k, ws := helloWords s k } (onLink k (fun l => { l with helloAt := s.clk.now + ms }) s)))
  ∧ (∀ (s : State) (k : Nat) (h : Hello), k = 1 ∨ k = 2 → (s.link k).st = .active → exec (.helloReceive k h) s = .next (takeHello k h s))
  ∧ (∀ (s : State) (k : Nat) (h : Hello), k = 3 ∨ k = 4 → s.links.partnerUp = true → exec (.helloReceive k h) s = .next (takeHello k h s))
  ∧ (∀ (s : State) (k : Nat) (nb : Neighbour) (h : Hello), tabGet {} s.stk.near k = nb → nb.hello = some h → due (nb.at_ + 5 * ms) s.clk.now = true → exec (.helloTimeout k) s = .next (reachChanged s (s.onStk fun k' => { k' with told := k'.told.erase k, near := tabUpd k'.near k fun n => { n with hello := none, reach := 0 } })))
  ∧ (∀ (s : State) (m : MsgIn) (r : StackRec), (s.link m.link).st = .active → s.stk.record = none → exec (.stackRecordMessage m r) s = .next (installRecord r (freeCredits m.link 3 m.len s)))
  ∧ (∀ (s t : State) (m : MsgIn) (r c : StackRec), (s.link m.link).st = .active → s.stk.record = some c → freeCredits m.link 3 m.len s = t → m.hops < 15 → routeOf t m = .take → exec (.stackRecordMessage m r) s = .next (installRecord r t))
  ∧ (∀ (s : State) (t : Nat), s.stk.formAt = some t → due t s.clk.now = true → s.stk.record = none → s.stk.cand = false → exec .stackFormTimeout s = .next (formNow s))
  ∧ (∀ (s t : State) (m : MsgIn) (full : Bool) (es : List DirEntry) (nqn : Option (List Word)) (lis : List (Nat × List DiscEnt)), (s.link m.link).st = .active → freeCredits m.link 3 m.len s = t → routeOf t m = .take → exec (.dirUpdate m full es nqn lis) s = .next (takeDir full es nqn lis t))
  ∧ (∀ (s t : State) (m : MsgIn) (src op : Nat) (p : Packet), (s.link m.link).st = .active → freeCredits m.link 3 m.len s = t → m.hops < 15 → routeOf t m = .take → exec (.adminRequest m src op p) s = .next (takeRequest src op p t))
  ∧ (∀ (s t : State) (m : MsgIn) (d st : Nat) (tag : Word), (s.link m.link).st = .active → freeCredits m.link 3 m.len s = t → m.hops < 15 → routeOf t m = .take → exec (.adminReply m d tag st) s = .next (takeReply d tag st t))
  ∧ (∀ (s : State), masterReach s = false → s.stk.masterTold = false → s.stk.record.isSome = true → actsForShelf s = true → due (s.stk.masterAt + sec) s.clk.now = true → exec .masterUnreachable s = .next (forAll s.stk.admin (fun a s => masterRefuses a.1 stBusy [word 1000] s) (raise 780 (word s.pos) (s.onStk fun k => { k with masterTold := true, admin := [] }))))
  ∧ (∀ (s t : State) (m : MsgIn) (h : FwdHead) (cls sub host : Nat) (op : IoOp) (c : IoCmd), (s.link m.link).st = .active → freeCredits m.link (8 + cls % 8) m.len s = t → m.hops < 15 → routeOf t m = .take → exec (.forwardCommand m h cls sub host op c) s = .next (takeFwd (homeCmd h cls sub host op c) sub cls (shadowFwd m.link t)))
  ∧ (∀ (s t : State) (m : MsgIn) (cls : Nat) (h : FwdHead), (s.link m.link).st = .active → freeCredits m.link (8 + cls % 8) m.len s = t → m.hops < 15 → routeOf t m = .take → exec (.forwardDataRequest m cls h) s = .next (askHost h (shadowFwd m.link t)))
  ∧ (∀ (s t : State) (m : MsgIn) (cls : Nat) (h : FwdHead) (bs : List HBlk), (s.link m.link).st = .active → freeCredits m.link (8 + cls % 8) m.len s = t → m.hops < 15 → routeOf t m = .take → exec (.forwardWriteData m cls h bs) s = .next (takeFwdWrite h bs (shadowFwd m.link t)))
  ∧ (∀ (s t : State) (m : MsgIn) (cls d : Nat) (h : FwdHead), (s.link m.link).st = .active → freeCredits m.link (8 + cls % 8) m.len s = t → m.hops < 15 → routeOf t m = .take → exec (.forwardReadData m cls h d) s = .next (takeFwdRead h d (shadowFwd m.link t)))
  ∧ (∀ (s t : State) (m : MsgIn) (cls : Nat) (h : FwdHead) (st : NvStatus) (dnr : Bool), (s.link m.link).st = .active → freeCredits m.link (8 + cls % 8) m.len s = t → m.hops < 15 → routeOf t m = .take → exec (.forwardCompletion m cls h st dnr) s = .next (takeFwdDone h st dnr (shadowFwd m.link t)))
  ∧ (∀ (s : State) (tag t : Nat) (w : FwdOut) (c : Cmd), tabFind s.stk.fwd tag = some w → w.goneAt = some t → s.cmdOf tag = some c → c.ready = false → due (t + 100 * ms) s.clk.now = true → exec (.forwardTimeout tag) s = .next (failCmd tag .anaInaccessible (count1 6186 s)))

/-- The stack and its shelves are read; the master admits a candidate and removes a shelf with none of its namespaces left; a shelf leaves its stack. What no message of the stack tells, whether a candidate that is no neighbour can be reached and where it stands, is a free value. Concluded to answer a next state, by constructor: stkGetStatus, stkGetShelf, stkAddShelf, stkRemoveShelf, stkLeaveStack. -/
def Obligations.StackCommandsComplete : Prop :=
  (∀ (s : State) (p : Packet), taken 0x0C01 0 0 p s = true → exec (.stkGetStatus p) s = .next (answered 0x0C01 p ((deskStkGetStatus p (s.arrived 0x0C01 p)).2.1) (s.arrived 0x0C01 p)))
  ∧ (∀ (s : State) (p : Packet), taken 0x0C02 1 0 p s = true → clean (mask 2 0) (p.w 2) = true → inStack (s.arrived 0x0C02 p) (bits 2 0 (p.w 2)) = true → exec (.stkGetShelf p) s = .next (answered 0x0C02 p ((deskStkGetShelf p (s.arrived 0x0C02 p)).2.1) ((takeFree (s.arrived 0x0C02 p)).2)))
  ∧ (∀ (s : State) (p : Packet) (c : CandPlace) (b : State), taken 0x0C03 3 0 p s = true → (s.arrived 0x0C03 p).master = true → (post p.door p.tag false stAccepted [] (s.arrived 0x0C03 p)).master = true → (s.arrived 0x0C03 p).order ≠ 2 → (post p.door p.tag false stAccepted [] (s.arrived 0x0C03 p)).order ≠ 2 → clean (mask 3 0) (p.w 2) = true → bit 3 (p.w 2) = false → inStack (s.arrived 0x0C03 p) (bits 2 0 (p.w 2)) = false → inStack (post p.door p.tag false stAccepted [] (s.arrived 0x0C03 p)) (bits 2 0 (p.w 2)) = false → (findCand ((p.w 3).toNat + (p.w 4).toNat * 2 ^ 32) (s.arrived 0x0C03 p)).1 = some c → findCand ((p.w 3).toNat + (p.w 4).toNat * 2 ^ 32) (post p.door p.tag false stAccepted [] (s.arrived 0x0C03 p)) = (some c, b) → inStack (findCand ((p.w 3).toNat + (p.w 4).toNat * 2 ^ 32) (s.arrived 0x0C03 p)).2 (bits 2 0 (p.w 2)) = false → inStack b (bits 2 0 (p.w 2)) = false → between c (bits 2 0 (p.w 2)) = true → exec (.stkAddShelf p) s = .next (accepted 0x0C03 p (accept p 0x0C03 (bits 2 0 (p.w 2)) 0 (admitShelf (bits 2 0 (p.w 2)) ((p.w 3).toNat + (p.w 4).toNat * 2 ^ 32) c b))))
  ∧ (∀ (s : State) (p : Packet), taken 0x0C04 1 0 p s = true → (s.arrived 0x0C04 p).master = true → clean (mask 2 0 ||| mask 8 8) (p.w 2) = true → bits 2 0 (p.w 2) ≠ 0 → inStack (s.arrived 0x0C04 p) (bits 2 0 (p.w 2)) = true → homedOn (s.arrived 0x0C04 p) (bits 2 0 (p.w 2)) = [] → exec (.stkRemoveShelf p) s = .next (answered 0x0C04 p [] (removeShelf (bits 2 0 (p.w 2)) (s.arrived 0x0C04 p))))
  ∧ (∀ (s : State) (p : Packet), taken 0x0C04 1 0 p s = true → (s.arrived 0x0C04 p).master = true → clean (mask 2 0 ||| mask 8 8) (p.w 2) = true → bits 2 0 (p.w 2) ≠ 0 → inStack (s.arrived 0x0C04 p) (bits 2 0 (p.w 2)) = true → bit 8 (p.w 2) = true → (s.arrived 0x0C04 p).stk.lost.testBit (bits 2 0 (p.w 2)) = true → exec (.stkRemoveShelf p) s = .next (answered 0x0C04 p [] (removeShelf (bits 2 0 (p.w 2)) (forAll (homedOn (s.arrived 0x0C04 p) (bits 2 0 (p.w 2))) (fun n s => sendDir n (bits 2 0 (p.w 2)) true (s.onVol fun v => { v with ns := tabDel v.ns n })) (s.arrived 0x0C04 p)))))
  ∧ (∀ (s : State) (p : Packet), taken 0x0C05 1 0 p s = true → p.w 2 = 0x00004824 → (s.arrived 0x0C05 p).stk.cand = false → homedOn (s.arrived 0x0C05 p) (s.arrived 0x0C05 p).pos = [] → otherShelves (s.arrived 0x0C05 p) = [] → exec (.stkLeaveStack p) s = .next (answered 0x0C05 p [] (leaveNow (s.arrived 0x0C05 p))))

/-- An error or poison of a named location is counted, logged, tested and consumed; a queued test starts once its part is out of service and ends with its record's result; one that waits ten minutes is untested; the idle scrubber reads its next line and ends a lap with the last of every part; a range scrub reads on and completes at its end. Concluded to answer a next state, by constructor: memoryError, selftestStart, selftestComplete, triageTimeout, idleScrubRead, scrubRangeRead. -/
def Obligations.MemoryEventsComplete : Prop :=
  (∀ (s : State) (e : MemErr), memClass e.cls = true → indexOk e.cls e.index = true → e.loc < classBytes e.cls → e.kind = 1 ∨ e.kind = 2 ∨ e.kind = 3 → exec (.memoryError e) s = .next (memError e s))
  ∧ (∀ (s t : State) (e : Nat) (x : SelfTest), s.mem.tests.find? (fun t => t.eseq = e && !t.run) = some x → testMay s x = true → runningTests s < 16 → count1 6683 (s.onMem fun m => { m with tests := m.tests.map fun y => if y.eseq = e then { y with run := true } else y }) = t → (x.cls ≠ 15 → exec (.selftestStart e) s = .next (t.onMem fun m => { m with overTold := m.overTold && decide (256 ≤ (m.tests.filter fun t => !t.run).length) })) ∧ (x.cls = 15 → exec (.selftestStart e) s = .next (linkGone x.index .training (t.onMem fun m => { m with overTold := m.overTold && decide (256 ≤ (m.tests.filter fun t => !t.run).length) }))))
  ∧ (∀ (s : State) (e : Nat) (x : SelfTest) (r : TestEnd), s.mem.tests.find? (fun t => t.eseq = e && t.run) = some x → exec (.selftestComplete e r) s = .next (testEnds x e r s))
  ∧ (∀ (s t : State) (e : Nat) (x : SelfTest), s.mem.tests.find? (fun t => t.eseq = e && !t.run && decide (12 ≤ t.cls)) = some x → due (x.since + 600 * sec) s.clk.now = true → untested e (s.onMem fun m => { m with tests := m.tests.filter fun y => y.eseq != e }) = t → exec (.triageTimeout e) s = .next (if x.cmd then finish (fun y => y.op = 0x0D0C && y.key = e) 840 stHwFault (word e) t else t))
  ∧ (∀ (s t : State) (c : Nat), c < 13 → s.mem.idleOn = true → scrubPaused s = false → idleStep c s = t → (t.mem.lapped ≠ 8191 → exec (.idleScrubRead c) s = .next t) ∧ (∀ d, t.mem.lapped = 8191 → d = (t.clk.now - t.mem.lapAt + sec - 1) / sec → exec (.idleScrubRead c) s = .next (raise 837 (word d) (count1 6690 (t.onMem fun m => { m with lapped := 0, lapAt := t.clk.now, lapTime := d, laps := m.laps + 1 })))))
  ∧ (∀ (s t : State) (cls n fixed bad old : Nat) (first : Option Nat) (x y : Scrub), tabFind s.mem.scrubs cls = some x → x.running = true → scrubPaused s = false → { x with pos := x.pos + min n (scrubReach s cls x - x.pos), lines := x.lines + min n (scrubReach s cls x - x.pos), fixed := x.fixed + fixed, bad := x.bad + bad, old := x.old + old, first := x.first.or first } = y → count 6688 (min n (scrubReach s cls x - x.pos)) (s.onMem fun m => { m with scrubs := tabIns m.scrubs cls y }) = t → (y.pos < scrubLines cls y → exec (.scrubRangeRead cls n fixed bad old first) s = .next t) ∧ (scrubLines cls y ≤ y.pos → exec (.scrubRangeRead cls n fixed bad old first) s = .next (finish (fun r => r.op = 0x0D03 && r.key = cls) 836 stOk (fld 3 0 cls ||| fld 15 8 y.index) (t.onMem fun m => { m with scrubs := tabUpd m.scrubs cls fun x => { x with running := false } }))))

/-- The log and the summaries are read; a range scrub and a self-test are accepted and started; the idle scrubber is set; pages and rows are retired while spares last; the test windows are written and read through the decoder; and a lost map is loaded again. Check bits and decoding of the windows are uninterpreted, and the KIND of a commanded memory test is a free value. Concluded to answer a next state, by constructor: memGetStatus, memReadLog, memScrubRange, memGetScrub, memSetIdleScrub, memGetIdleScrub, memRetirePage, memRetireRow, memTestWrite, memTestRead, memReloadMap, memRunSelftest. -/
def Obligations.MemoryCommandsComplete : Prop :=
  (∀ (s : State) (p : Packet), taken 0x0D01 0 0 p s = true → exec (.memGetStatus p) s = .next (answered 0x0D01 p ((deskMemGetStatus p (s.arrived 0x0D01 p)).2.1) (s.arrived 0x0D01 p)))
  ∧ (∀ (s : State) (p : Packet), taken 0x0D02 2 0 p s = true → clean (mask 3 0 ||| mask 8 8) (p.w 3) = true → 1 ≤ bits 3 0 (p.w 3) → bits 3 0 (p.w 3) ≤ 8 → exec (.memReadLog p) s = .next (answered 0x0D02 p ((deskMemReadLog p (s.arrived 0x0D02 p)).2.1) (s.arrived 0x0D02 p)))
  ∧ (∀ (s : State) (p : Packet) (st len : Nat), taken 0x0D03 6 0 p s = true → clean (mask 3 0 ||| mask 11 8) (p.w 2) = true → clean (mask 7 0) (p.w 7) = true → memClass (bits 3 0 (p.w 2)) = true → indexOk (bits 3 0 (p.w 2)) (bits 11 8 (p.w 2)) = true → (p.w 3).toNat + (p.w 4).toNat * 2 ^ 32 = st → (p.w 5).toNat + (p.w 6).toNat * 2 ^ 32 = len → st % 64 = 0 → len % 64 = 0 → 0 < len → st + len ≤ classBytes (bits 3 0 (p.w 2)) → bits 7 0 (p.w 7) ≤ 50 → (tabGet {} (s.arrived 0x0D03 p).mem.scrubs (bits 3 0 (p.w 2)) : Scrub).running = false → exec (.memScrubRange p) s = .next (accepted 0x0D03 p (accept p 0x0D03 (bits 3 0 (p.w 2)) 0 ((post p.door p.tag false stAccepted [] (s.arrived 0x0D03 p)).onMem fun m => { m with scrubs := tabIns m.scrubs (bits 3 0 (p.w 2)) { running := true, index := bits 11 8 (p.w 2), start := st, length := len, rate := if bits 7 0 (p.w 7) = 0 then 10 else bits 7 0 (p.w 7), at_ := (s.arrived 0x0D03 p).clk.now } }))))
  ∧ (∀ (s : State) (p : Packet), taken 0x0D04 1 0 p s = true → clean (mask 3 0) (p.w 2) = true → memClass (bits 3 0 (p.w 2)) = true → exec (.memGetScrub p) s = .next (answered 0x0D04 p ((deskMemGetScrub p (s.arrived 0x0D04 p)).2.1) (s.arrived 0x0D04 p)))
  ∧ (∀ (s : State) (p : Packet), taken 0x0D05 1 0 p s = true → clean (mask 0 0 ||| mask 15 8) (p.w 2) = true → 1 ≤ bits 15 8 (p.w 2) → exec (.memSetIdleScrub p) s = .next (answered 0x0D05 p [] ((s.arrived 0x0D05 p).onMem fun m => { m with idleOn := bit 0 (p.w 2), floor := bits 15 8 (p.w 2) })))
  ∧ (∀ (s : State) (p : Packet), taken 0x0D06 0 0 p s = true → exec (.memGetIdleScrub p) s = .next (answered 0x0D06 p ((deskMemGetIdleScrub p (s.arrived 0x0D06 p)).2.1) (s.arrived 0x0D06 p)))
  ∧ (∀ (s : State) (p : Packet) (x : Nat) (b : State), taken 0x0D07 3 0 p s = true → clean (mask 3 0 ||| mask 11 8) (p.w 2) = true → dramClass (bits 3 0 (p.w 2)) = true → indexOk (bits 3 0 (p.w 2)) (bits 11 8 (p.w 2)) = true → (p.w 3).toNat + (p.w 4).toNat * 2 ^ 32 = x → x % 4096 = 0 → x < classBytes (bits 3 0 (p.w 2)) → (s.arrived 0x0D07 p).mem.pages.contains (bits 3 0 (p.w 2), bits 11 8 (p.w 2), x) = false → ((List.range 4).any fun w => decide (w ≠ 0) && decide (windowClass w = bits 3 0 (p.w 2)) && decide (windowChannel w = bits 11 8 (p.w 2)) && decide (windowAddr w = x)) = false → 0 < sparePages (s.arrived 0x0D07 p) (bits 3 0 (p.w 2)) → count1 6691 ((s.arrived 0x0D07 p).onMem fun m => { m with pages := m.pages ++ [(bits 3 0 (p.w 2), bits 11 8 (p.w 2), x)] }) = b → exec (.memRetirePage p) s = .next (answered 0x0D07 p [word (sparePages b (bits 3 0 (p.w 2)))] (doIf (sparePages b (bits 3 0 (p.w 2)) = 409) (raise 838 (fld 3 0 (bits 3 0 (p.w 2)) ||| fld 15 8 (bits 11 8 (p.w 2)))) b)))
  ∧ (∀ (s : State) (p : Packet) (b : State), taken 0x0D08 2 0 p s = true → clean (mask 3 0) (p.w 2) = true → clean (mask 18 0) (p.w 3) = true → bits 3 0 (p.w 2) ≤ 5 → bits 18 0 (p.w 3) < classBytes (bits 3 0 (p.w 2)) / 512 → 0 < spareRows (s.arrived 0x0D08 p) (bits 3 0 (p.w 2)) (bits 18 0 (p.w 3)) → count1 6692 ((s.arrived 0x0D08 p).onMem fun m => { m with rows := m.rows ++ [(bits 3 0 (p.w 2), bits 18 0 (p.w 3))] }) = b → exec (.memRetireRow p) s = .next (answered 0x0D08 p [word (spareRows b (bits 3 0 (p.w 2)) (bits 18 0 (p.w 3)))] b))
  ∧ (∀ (s : State) (p : Packet), taken 0x0D09 2 (bits 10 0 (p.w 2)) p s = true → bits 10 0 (p.w 2) = windowWords (bits 13 12 (p.w 2)) → clean (mask 10 0 ||| mask 13 12) (p.w 2) = true → clean (mask 11 0 ||| mask 16 16) (p.w 3) = true → bits 11 0 (p.w 3) % 64 = 0 → exec (.memTestWrite p) s = .next (answered 0x0D09 p [] (logWindow (bits 13 12 (p.w 2)) (bits 11 0 (p.w 3)) 0 ((s.arrived 0x0D09 p).onMem fun m => { m with windows := tabIns m.windows (bits 13 12 (p.w 2) * 64 + bits 11 0 (p.w 3) / 64) ⟨(p.data 2).take 16, (p.data 2).drop 16, bit 16 (p.w 3)⟩ }))))
  ∧ (∀ (s : State) (p : Packet), taken 0x0D0A 1 0 p s = true → clean (mask 13 0) (p.w 2) = true → bits 11 0 (p.w 2) % 64 = 0 → exec (.memTestRead p) s = .next (answered 0x0D0A p ((deskMemTestRead p (s.arrived 0x0D0A p)).2.1) ((deskMemTestRead p (s.arrived 0x0D0A p)).2.2)))
  ∧ (∀ (s : State) (p : Packet) (n : Ns), taken 0x0D0B 1 0 p s = true → nsidOk (p.w 2) 0 = true → (s.arrived 0x0D0B p).nsOf (bits 12 0 (p.w 2)) = some n → n.deleting = false → n.home = (s.arrived 0x0D0B p).pos → actsForShelf (s.arrived 0x0D0B p) = true → n.ro = true → (s.arrived 0x0D0B p).vol.lost.contains (bits 12 0 (p.w 2)) = true → copiesRead (s.arrived 0x0D0B p) n = true → exec (.memReloadMap p) s = .next (answered 0x0D0B p [] (shadow .stateWrite 6 (bits 12 0 (p.w 2)) (onNs (bits 12 0 (p.w 2)) (fun m => { m with ro := decide (n.enc = 2) && decide (2 ^ 40 ≤ ((s.arrived 0x0D0B p).slotOf (bits 12 0 (p.w 2) - 1)).invoc) }) ((s.arrived 0x0D0B p).onVol fun v => { v with lost := v.lost.erase (bits 12 0 (p.w 2)) })))))
  ∧ (∀ (s : State) (p : Packet) (loc k e : Nat) (b : State), taken 0x0D0C 3 0 p s = true → clean (mask 3 0 ||| mask 15 8) (p.w 2) = true → clean (mask 7 0) (p.w 4) = true → (p.w 3).toNat + (p.w 4).toNat * 2 ^ 32 = loc → locOk (bits 3 0 (p.w 2)) (bits 15 8 (p.w 2)) loc = true → inService (s.arrived 0x0D0C p) (bits 3 0 (p.w 2)) (bits 15 8 (p.w 2)) loc = false → inService (post p.door p.tag false stAccepted [] (s.arrived 0x0D0C p)) (bits 3 0 (p.w 2)) (bits 15 8 (p.w 2)) loc = false → waitingTests (s.arrived 0x0D0C p) < 256 → (if bits 3 0 (p.w 2) = 15 then 5 else if 12 ≤ bits 3 0 (p.w 2) then 4 else (takeFree (post p.door p.tag false stAccepted [] (s.arrived 0x0D0C p))).1.toNat % 8) = k → newLog (bits 3 0 (p.w 2)) k (bits 15 8 (p.w 2)) loc 0 0 31 (takeFree (post p.door p.tag false stAccepted [] (s.arrived 0x0D0C p))).2 = (e, b) → exec (.memRunSelftest p) s = .next (accepted 0x0D0C p (accept p 0x0D0C e 0 (queueTest e (bits 3 0 (p.w 2)) (bits 15 8 (p.w 2)) loc b.clk.now true b))))

/-- What the signature and hash functions answer is uninterpreted: where the checks of a header pass, the session starts. Words at the expected offset are applied, FINISH and END start the verification, a match verifies the bank, activation selects it and restarts the module, and an image is offered, answered and reported link by link. Concluded to answer a next state, by constructor: updGetStatus, updBegin, updWriteDelta, updFinish, updActivate, updSetOwnerLock, updAbort, updPropagate, updVerifyDone, firmwareOffer, firmwareAnswer, firmwareData, firmwareEnd, firmwareResult, propagateTimeout, trialConfirm. -/
def Obligations.UpdateComplete : Prop :=
  (∀ (s : State) (p : Packet), taken 0x0E01 0 0 p s = true → exec (.updGetStatus p) s = .next (answered 0x0E01 p ((deskUpdGetStatus p (s.arrived 0x0E01 p)).2.1) (s.arrived 0x0E01 p)))
  ∧ (∀ (s : State) (p : Packet), taken 0x0E02 1 (bits 6 0 (p.w 2)) p s = true → clean (mask 6 0) (p.w 2) = true → bits 6 0 (p.w 2) = 64 → headChecks (p.data 1) (s.arrived 0x0E02 p) = none → exec (.updBegin p) s = .next (answered 0x0E02 p [] (startSession (headOf (p.data 1)) 0 none (s.arrived 0x0E02 p))))
  ∧ (∀ (s : State) (p : Packet) (x : Session) (b : State), taken 0x0E03 2 (bits 11 0 (p.w 2)) p s = true → clean (mask 11 0) (p.w 2) = true → 1 ≤ bits 11 0 (p.w 2) → bits 11 0 (p.w 2) ≤ 4092 → doorSession (s.arrived 0x0E03 p) = some x → (p.w 3).toNat = x.rcvd → takeOps x (p.data 2) (s.arrived 0x0E03 p) = some b → exec (.updWriteDelta p) s = .next (answered 0x0E03 p [word (x.rcvd + bits 11 0 (p.w 2))] b))
  ∧ (∀ (s : State) (p : Packet) (x : Session), taken 0x0E04 0 0 p s = true → doorSession (s.arrived 0x0E04 p) = some x → doorSession (post p.door p.tag false stAccepted [] (s.arrived 0x0E04 p)) = some x → exec (.updFinish p) s = .next (accepted 0x0E04 p (accept p 0x0E04 0 0 ((post p.door p.tag false stAccepted [] (s.arrived 0x0E04 p)).onUpd fun u => { u with sess := some { x with phase := 2 } }))))
  ∧ (∀ (s : State) (p : Packet), taken 0x0E05 2 0 p s = true → clean (mask 0 0) (p.w 2) = true → p.w 3 = (if bit 0 (p.w 2) then 0x00004824 else 0) → ((s.arrived 0x0E05 p).bankOf (s.arrived 0x0E05 p).spare).st = .verified → lateChecks (s.arrived 0x0E05 p) = none → (!(s.arrived 0x0E05 p).links.partnerUp || dvOverlap (s.arrived 0x0E05 p)) = true → (s.arrived 0x0E05 p).md.mode ≠ .active → exec (.updActivate p) s = .next (answered 0x0E05 p [] (restartRunning .update (selectBank (s.arrived 0x0E05 p)))))
  ∧ (∀ (s : State) (p : Packet), taken 0x0E05 2 0 p s = true → clean (mask 0 0) (p.w 2) = true → bit 0 (p.w 2) = true → p.w 3 = 0x00004824 → ((s.arrived 0x0E05 p).bankOf (s.arrived 0x0E05 p).spare).st = .verified → ((post p.door p.tag false stAccepted [] (s.arrived 0x0E05 p)).bankOf (post p.door p.tag false stAccepted [] (s.arrived 0x0E05 p)).spare).st = .verified → lateChecks (s.arrived 0x0E05 p) = none → lateChecks (post p.door p.tag false stAccepted [] (s.arrived 0x0E05 p)) = none → (!(s.arrived 0x0E05 p).links.partnerUp || dvOverlap (s.arrived 0x0E05 p)) = true → (!(post p.door p.tag false stAccepted [] (s.arrived 0x0E05 p)).links.partnerUp || dvOverlap (post p.door p.tag false stAccepted [] (s.arrived 0x0E05 p))) = true → (s.arrived 0x0E05 p).md.mode = .active → (post p.door p.tag false stAccepted [] (s.arrived 0x0E05 p)).md.mode = .active → (s.arrived 0x0E05 p).pair.paired = false → (post p.door p.tag false stAccepted [] (s.arrived 0x0E05 p)).pair.paired = false → exec (.updActivate p) s = .next (accepted 0x0E05 p (forcedProgress (closeHosts ((selectBank (post p.door p.tag false stAccepted [] (s.arrived 0x0E05 p))).onMd fun m => { m with restartReq := some (p.door, p.tag), restartWait := true, admitStop := true })))))
  ∧ (∀ (s : State) (p : Packet), taken 0x0E07 2 0 p s = true → clean (mask 0 0) (p.w 2) = true → bit 0 (p.w 2) = true ∨ p.w 3 = 0x00004824 → exec (.updSetOwnerLock p) s = .next (answered 0x0E07 p [] ((s.arrived 0x0E07 p).onUpd fun u => { u with ownLock := bit 0 (p.w 2) })))
  ∧ (∀ (s : State) (p : Packet), taken 0x0E08 0 0 p s = true → sessionRuns (s.arrived 0x0E08 p) = true → exec (.updAbort p) s = .next (answered 0x0E08 p [] (abortUpd 1 (s.arrived 0x0E08 p))))
  ∧ (∀ (s : State) (p : Packet) (x : Session) (d : ExaelHead × List Word) (want : Nat) (b : State), taken 0x0E06 1 0 p s = true → clean (mask 1 0) (p.w 2) = true → bits 1 0 (p.w 2) = 1 → (s.arrived 0x0E06 p).upd.sess = some x → (s.arrived 0x0E06 p).upd.staged = some d → x.phase = 3 → (if (s.arrived 0x0E06 p).links.partnerUp then 2 ^ (2 * (s.arrived 0x0E06 p).pos + 1 - (s.arrived 0x0E06 p).bay.bay) else 0) = want → forAll [0] (offerOn d.1 (s.arrived 0x0E06 p).modnum 1) (accept p 0x0E06 0 0 ((post p.door p.tag false stAccepted [] (s.arrived 0x0E06 p)).onUpd fun u => { u with sess := some { x with phase := 4 }, prop := some (1, want, 0, (s.arrived 0x0E06 p).clk.now), mask := 2 ^ (s.arrived 0x0E06 p).modnum, offered := [] })) = b → exec (.updPropagate p) s = .next (accepted 0x0E06 p (if want = 0 then endPropagation b else b)))
  ∧ (∀ (s t : State) (x : Session), s.upd.sess = some x → x.phase = 2 → s.md.stage ≠ .holdFlash → x.ended = true → x.rcvd = x.head.opwords → Config.sha384 (s.bankOf s.spare).image = x.head.target → finish (fun r => r.op = 0x0E04) 897 stOk (word x.head.fwver) ((onBank s.spare (fun b => { b with st := .verified, head := some x.head }) s).onUpd fun u => { u with sess := some { x with phase := 3 }, staged := some (x.head, x.ops) }) = t → exec .updVerifyDone s = .next (passOn x t))
  ∧ (∀ (s : State) (x : Session), s.upd.sess = some x → x.phase = 2 → x.ended = false → exec .updVerifyDone s = .next (failSession x s))
  ∧ (∀ (s : State) (k orig scope : Nat) (ws : List Word), k ≤ 2 → (s.link k).st = .active → s.md.kumel = .running → hasTarget s (headOf ws) 0 = false → hasTarget s (headOf ws) 1 = false → (headChecks ws s = none → exec (.firmwareOffer k orig scope ws) s = .next (linkSend k { kind := .offerAnswer, a := k, ws := [fld 15 0 stOk ||| flag 16 false] } (startSession (headOf ws) (k + 1) (some (orig % 16, scope % 4)) s))) ∧ (∀ st, headChecks ws s = some st → exec (.firmwareOffer k orig scope ws) s = .next (linkSend k { kind := .offerAnswer, a := k, ws := [fld 15 0 st ||| flag 16 false] } (raise 902 (fld 15 0 st ||| fld 18 16 (k + 1)) (count1 7174 s)))))
  ∧ (∀ (s t : State) (k : Nat) (d : ExaelHead × List Word), (s.link k).st = .active → s.upd.offered.contains k = true → s.onUpd (fun u => { u with offered := u.offered.erase k }) = t → t.upd.staged = some d → exec (.firmwareAnswer k stOk false) s = .next (sendDelta k d t))
  ∧ (∀ (s t : State) (k n st : Nat) (d : ExaelHead × List Word), (s.link k).st = .active → s.upd.offered.contains k = true → s.onUpd (fun u => { u with offered := u.offered.erase k }) = t → t.upd.staged = some d → peerMod t k = some n → exec (.firmwareAnswer k st true) s = .next (noteModule n true t))
  ∧ (∀ (s : State) (k : Nat) (ws : List Word) (x : Session), linkSession s k = some x → (∀ t, takeOps x ws s = some t → exec (.firmwareData k x.rcvd ws) s = .next t) ∧ (takeOps x ws s = none → exec (.firmwareData k x.rcvd ws) s = .next (failSession x (count 7169 ws.length s))))
  ∧ (∀ (s : State) (k n : Nat) (x : Session), linkSession s k = some x → exec (.firmwareEnd k n) s = .next (s.onUpd fun u => { u with sess := some { x with phase := 2, ended := x.ended && decide (n = x.rcvd) } }))
  ∧ (∀ (s : State) (m : MsgIn) (st n : Nat), (s.link m.link).st = .active → m.dst = s.modnum → exec (.firmwareResult m st n) s = .next (noteModule (n % 16) (st = stOk) (freeCredits m.link 3 m.len s)))
  ∧ (∀ (s : State) (a b c t : Nat), s.upd.prop = some (a, b, c, t) → due (t + 600 * sec) s.clk.now = true → exec .propagateTimeout s = .next (endPropagation s))
  ∧ (∀ (s : State) (t : Nat), s.upd.bootEnd = some t → s.md.kumel = .running → due (t + 60 * sec) s.clk.now = true → exec .trialConfirm s = .next (s.onUpd fun u => { u with trial := false, bootEnd := none }))

/-- With a command at the front of its queue, step is exec of that command on the state with the queue's rest; on an empty queue step is the passing of one nanosecond. That the empty queue passes time is the model's choice (log entry 1). -/
def Obligations.StepRunsTheFrontCommand : Prop :=
  (∀ (c : Instr) (rest : List Instr) (s : State), step { s with pending := c :: rest } = exec c { s with pending := rest })
  ∧ (∀ (s : State), s.pending = [] → step s = .next (tick s))

/-- After reset the module is in Boot at ALWAYS_ON with no command waiting; every slot is EMPTY with the limits of Table 3.3 and the budget is 720 W; every door is IDLE with no record and every event enabled, the desk lock is free and no door holds a key; every counter is 0 with its overflow bit clear; every DMA channel is OFF; every logical port is down and the buffer partitions are those of Table 5.4; no gate list is set; the context pool, the map cache and the write buffer are empty; no key-encryption key is established; the idle scrubber is enabled. -/
def Obligations.ResetState : Prop :=
  (∀ (k : Nat), (State.reset.slot k).state = .empty ∧ (State.reset.slot k).set = { ilim := 12, iinr := 4, tinr := 40, ifast := 12, retry := 10, allot := 25 } ∧ (State.reset.slot k).hist = [])
  ∧ (∀ (k : Nat), (State.reset.door k).st = .idle ∧ (State.reset.door k).evq = [] ∧ (State.reset.door k).maskOff = [] ∧ State.reset.lb.lock = none ∧ State.reset.lb.k0.held = false ∧ State.reset.lb.k1.held = false)
  ∧ (∀ (n : Nat), (tabGet {} State.reset.tal.ctrs n).val = 0 ∧ (tabGet {} State.reset.tal.ctrs n).ovf = false)
  ∧ (∀ (k : Nat), (tabGet {} State.reset.se.chans k).st = .off ∧ (State.reset.lport k).up = false ∧ (State.reset.qport k).gate.cur = none ∧ (State.reset.ctx k).st = .free)
  ∧ (State.reset.pending = [] ∧ State.reset.md.mode = .boot ∧ State.reset.md.stage = .alwaysOn ∧ State.reset.pwr.budget = 720 ∧ State.reset.vol.lines = [] ∧ State.reset.wbf.pages = [] ∧ State.reset.key.kek = none ∧ State.reset.mem.idleOn = true ∧ State.reset.net.pend = 16384 ∧ State.reset.net.dlCells = 4096 ∧ State.reset.net.mirCells = 8192 ∧ State.reset.net.qmin = 16 ∧ State.reset.net.headroom = 1024)

/-- After reset the ordering code is one of the two that Table 0.1 gives, and the module is in Boot. That reset chooses the TK-4824-F is the model's choice (log entry 5). -/
def Obligations.ResetMeetsTheInvariant : Prop :=
  (State.reset.order = 1 ∨ State.reset.order = 2) ∧ State.reset.stageOk = true

/-- For every state whose ordering code is legal and whose Boot stage is DONE in every mode but Boot, and for every command at its front (or the passing of time on an empty queue), the next state is again such a state; the ordering code is the same, and the queue is the one before without its front. -/
def Obligations.StepKeepsTheInvariant : Prop :=
  ∀ (s t : State), (s.order = 1 ∨ s.order = 2) ∧ s.stageOk = true → step s = .next t → (t.order = 1 ∨ t.order = 2) ∧ t.stageOk = true ∧ t.order = s.order ∧ t.pending = s.pending.tail

/-- Whatever command runs, in whatever state, and whenever time passes, the mode after the step is the one before it, or the step made a transition of Table 4.5 or one of two that other rules state beside the table: Standby to Fenced on DENY 4 (R761), and Maintenance to Active on a forced claim's GRANT (R746, R770). So only Active enters Drowse, Drowse never falls to Standby or to Maintenance, and Maintenance is left for Boot and Active alone. That these two are admitted is the model's reading (log entry 30). -/
def Obligations.StepChangesTheModeByTheTable : Prop :=
  ∀ (s t : State), step s = .next t → Mode.may s.md.mode t.md.mode = true

/-- For every packet, checked or refused, from any door and in any state, each of these query commands, and the commands of the desk lock and of the event mask, leaves every part of the state as it was, except the log of what left the module, the Letterbox, the Service Endpoint (which signals vectors) and the counters. -/
def Obligations.QueriesLeaveTheModule : Prop :=
  (∀ (s : State) (p : Packet), Keeps (.nop p) s fun t s => { s with out := t.out, lb := t.lb, se := t.se, tal := t.tal })
  ∧ (∀ (s : State) (p : Packet), Keeps (.modGetIdentity p) s fun t s => { s with out := t.out, lb := t.lb, se := t.se, tal := t.tal })
  ∧ (∀ (s : State) (p : Packet), Keeps (.modGetStatus p) s fun t s => { s with out := t.out, lb := t.lb, se := t.se, tal := t.tal })
  ∧ (∀ (s : State) (p : Packet), Keeps (.modGetDoor p) s fun t s => { s with out := t.out, lb := t.lb, se := t.se, tal := t.tal })
  ∧ (∀ (s : State) (p : Packet), Keeps (.talRead p) s fun t s => { s with out := t.out, lb := t.lb, se := t.se, tal := t.tal })
  ∧ (∀ (s : State) (p : Packet), Keeps (.talGetOverflow p) s fun t s => { s with out := t.out, lb := t.lb, se := t.se, tal := t.tal })
  ∧ (∀ (s : State) (p : Packet), Keeps (.pwrGetSlotStatus p) s fun t s => { s with out := t.out, lb := t.lb, se := t.se, tal := t.tal })
  ∧ (∀ (s : State) (p : Packet), Keeps (.pwrGetBudget p) s fun t s => { s with out := t.out, lb := t.lb, se := t.se, tal := t.tal })
  ∧ (∀ (s : State) (p : Packet), Keeps (.pwrGetFeeds p) s fun t s => { s with out := t.out, lb := t.lb, se := t.se, tal := t.tal })
  ∧ (∀ (s : State) (p : Packet), Keeps (.netGetPortStatus p) s fun t s => { s with out := t.out, lb := t.lb, se := t.se, tal := t.tal })
  ∧ (∀ (s : State) (p : Packet), Keeps (.netGetQueue p) s fun t s => { s with out := t.out, lb := t.lb, se := t.se, tal := t.tal })
  ∧ (∀ (s : State) (p : Packet), Keeps (.netGetEpoch p) s fun t s => { s with out := t.out, lb := t.lb, se := t.se, tal := t.tal })
  ∧ (∀ (s : State) (p : Packet), Keeps (.netGetPtp p) s fun t s => { s with out := t.out, lb := t.lb, se := t.se, tal := t.tal })
  ∧ (∀ (s : State) (p : Packet), Keeps (.qosGetPolicer p) s fun t s => { s with out := t.out, lb := t.lb, se := t.se, tal := t.tal })
  ∧ (∀ (s : State) (p : Packet), Keeps (.qosGetGateStatus p) s fun t s => { s with out := t.out, lb := t.lb, se := t.se, tal := t.tal })
  ∧ (∀ (s : State) (p : Packet), Keeps (.qosGetNode p) s fun t s => { s with out := t.out, lb := t.lb, se := t.se, tal := t.tal })
  ∧ (∀ (s : State) (p : Packet), Keeps (.xptGetConnection p) s fun t s => { s with out := t.out, lb := t.lb, se := t.se, tal := t.tal })
  ∧ (∀ (s : State) (p : Packet), Keeps (.xptGetRegion p) s fun t s => { s with out := t.out, lb := t.lb, se := t.se, tal := t.tal })
  ∧ (∀ (s : State) (p : Packet), Keeps (.xptGetPool p) s fun t s => { s with out := t.out, lb := t.lb, se := t.se, tal := t.tal })
  ∧ (∀ (s : State) (p : Packet), Keeps (.nvmGetSubsystem p) s fun t s => { s with out := t.out, lb := t.lb, se := t.se, tal := t.tal })
  ∧ (∀ (s : State) (p : Packet), Keeps (.nvmGetHost p) s fun t s => { s with out := t.out, lb := t.lb, se := t.se, tal := t.tal })
  ∧ (∀ (s : State) (p : Packet), Keeps (.nvmGetController p) s fun t s => { s with out := t.out, lb := t.lb, se := t.se, tal := t.tal })
  ∧ (∀ (s : State) (p : Packet), Keeps (.nvmGetTags p) s fun t s => { s with out := t.out, lb := t.lb, se := t.se, tal := t.tal })
  ∧ (∀ (s : State) (p : Packet), Keeps (.volGetSet p) s fun t s => { s with out := t.out, lb := t.lb, se := t.se, tal := t.tal })
  ∧ (∀ (s : State) (p : Packet), Keeps (.volGetNamespace p) s fun t s => { s with out := t.out, lb := t.lb, se := t.se, tal := t.tal })
  ∧ (∀ (s : State) (p : Packet), Keeps (.volGetParcel p) s fun t s => { s with out := t.out, lb := t.lb, se := t.se, tal := t.tal })
  ∧ (∀ (s : State) (p : Packet), Keeps (.volGetEpoch p) s fun t s => { s with out := t.out, lb := t.lb, se := t.se, tal := t.tal })
  ∧ (∀ (s : State) (p : Packet), Keeps (.wbfGetStatus p) s fun t s => { s with out := t.out, lb := t.lb, se := t.se, tal := t.tal })
  ∧ (∀ (s : State) (p : Packet), Keeps (.wbfGetJournal p) s fun t s => { s with out := t.out, lb := t.lb, se := t.se, tal := t.tal })
  ∧ (∀ (s : State) (p : Packet), Keeps (.redGetHealth p) s fun t s => { s with out := t.out, lb := t.lb, se := t.se, tal := t.tal })
  ∧ (∀ (s : State) (p : Packet), Keeps (.redGetMember p) s fun t s => { s with out := t.out, lb := t.lb, se := t.se, tal := t.tal })
  ∧ (∀ (s : State) (p : Packet), Keeps (.redReadBadRanges p) s fun t s => { s with out := t.out, lb := t.lb, se := t.se, tal := t.tal })
  ∧ (∀ (s : State) (p : Packet), Keeps (.drvGetPort p) s fun t s => { s with out := t.out, lb := t.lb, se := t.se, tal := t.tal })
  ∧ (∀ (s : State) (p : Packet), Keeps (.drvGetDrive p) s fun t s => { s with out := t.out, lb := t.lb, se := t.se, tal := t.tal })
  ∧ (∀ (s : State) (p : Packet), Keeps (.keyGetIdentityKey p) s fun t s => { s with out := t.out, lb := t.lb, se := t.se, tal := t.tal })
  ∧ (∀ (s : State) (p : Packet), Keeps (.keyGetSlot p) s fun t s => { s with out := t.out, lb := t.lb, se := t.se, tal := t.tal })
  ∧ (∀ (s : State) (p : Packet), Keeps (.pairGetStatus p) s fun t s => { s with out := t.out, lb := t.lb, se := t.se, tal := t.tal })
  ∧ (∀ (s : State) (p : Packet), Keeps (.stkGetStatus p) s fun t s => { s with out := t.out, lb := t.lb, se := t.se, tal := t.tal })
  ∧ (∀ (s : State) (p : Packet), Keeps (.memGetStatus p) s fun t s => { s with out := t.out, lb := t.lb, se := t.se, tal := t.tal })
  ∧ (∀ (s : State) (p : Packet), Keeps (.memReadLog p) s fun t s => { s with out := t.out, lb := t.lb, se := t.se, tal := t.tal })
  ∧ (∀ (s : State) (p : Packet), Keeps (.memGetScrub p) s fun t s => { s with out := t.out, lb := t.lb, se := t.se, tal := t.tal })
  ∧ (∀ (s : State) (p : Packet), Keeps (.memGetIdleScrub p) s fun t s => { s with out := t.out, lb := t.lb, se := t.se, tal := t.tal })
  ∧ (∀ (s : State) (p : Packet), Keeps (.updGetStatus p) s fun t s => { s with out := t.out, lb := t.lb, se := t.se, tal := t.tal })
  ∧ (∀ (s : State) (p : Packet), Keeps (.modReadEvents p) s fun t s => { s with out := t.out, lb := t.lb, se := t.se, tal := t.tal })
  ∧ (∀ (s : State) (p : Packet), Keeps (.modAcquireLock p) s fun t s => { s with out := t.out, lb := t.lb, se := t.se, tal := t.tal })
  ∧ (∀ (s : State) (p : Packet), Keeps (.modReleaseLock p) s fun t s => { s with out := t.out, lb := t.lb, se := t.se, tal := t.tal })
  ∧ (∀ (s : State) (p : Packet), Keeps (.modSetEventMask p) s fun t s => { s with out := t.out, lb := t.lb, se := t.se, tal := t.tal })

/-- A PWR.SET_SLOT_POWER packet with ON = 1 that its desk takes runs, and every slot that was not DISABLED is exactly as it was, whichever slots the packet selects. -/
def Obligations.SlotPowerOnLeavesOtherSlots : Prop :=
  ∀ (s : State) (p : Packet), taken 0x0103 2 0 p s = true → clean (mask 23 0) (p.w 2) = true → p.w 3 = 1 → Runs (.pwrSetSlotPower p) s fun t => Replied p stOk [flag 0 (!s.links.partnerUp)] t ∧ ∀ k, (s.slot k).state ≠ .disabled → t.slot k = s.slot k

/-- A PWR.CLEAR_LOCKOUT packet with no reserved bit set is answered OK; each slot below 24 whose bit is set in word 2 and which is in LOCKOUT is EMPTY afterwards with an empty trip history, and every other slot is exactly as it was. -/
def Obligations.ClearLockoutReleasesTheSelected : Prop :=
  ∀ (s : State) (p : Packet), taken 0x0104 1 0 p s = true → clean (mask 23 0) (p.w 2) = true → Runs (.pwrClearLockout p) s fun t => Replied p stOk [] t ∧ ∀ k, (if k < 24 ∧ bit k (p.w 2) = true ∧ (s.slot k).state = .lockout then (t.slot k).state = .empty ∧ (t.slot k).hist = [] else t.slot k = s.slot k)

/-- A request, an Acknowledge, a READ Response and a CNP with a bad ICRC that the engine takes each change nothing but the counters of packets received and of bad ICRCs (beside the shadow record that R730 sends of every packet for the engine), whatever the context and its state: nothing else leaves the module, so that it is neither acknowledged nor NAKed. Where no engine takes it, the front port counts it; in Drowse and during a take-over it waits without waking the module, or is forwarded. -/
def Obligations.BadIcrcIsOnlyCounted : Prop :=
  (∀ (s : State) (p : RocePkt), p.icrcOk = false → (engineTakes p.lport s = true → exec (.roceRequestPacket p) s = .next (count1 2050 (count1 2048 (engineAt (p.qpn % 65536) s)))) ∧ (servesFront s = false ∨ isAnalysis s p.lport = true → exec (.roceRequestPacket p) s = .next (count1 (1344 + p.lport % 32) s)) ∧ (servesFront s = true → isAnalysis s p.lport = false → s.pair.take = none → s.md.mode = .drowse → exec (.roceRequestPacket p) s = .next { s with woken := s.woken ++ [.roce ⟨p.lport, p.qpn, p.icrcOk, p.ce, p.bytes, p.frame⟩ p.rc (.roce p)] }) ∧ (servesFront s = true → isAnalysis s p.lport = false → s.pair.take = some .forward → exec (.roceRequestPacket p) s = .next (forwardFrame 0 0 p.lport 0 s)) ∧ (∀ st, servesFront s = true → isAnalysis s p.lport = false → s.pair.take = some st → st ≠ .forward → exec (.roceRequestPacket p) s = .next { s with woken := s.woken ++ [.roce ⟨p.lport, p.qpn, p.icrcOk, p.ce, p.bytes, p.frame⟩ p.rc (.roce p)] }))
  ∧ (∀ (s : State) (h : RoceHead) (psn : Nat) (k : AckKind), h.icrcOk = false → (engineTakes h.lport s = true → exec (.roceAckReceive h psn k) s = .next (count1 2050 (count1 2048 (engineAt (h.qpn % 65536) s)))) ∧ (servesFront s = false ∨ isAnalysis s h.lport = true → exec (.roceAckReceive h psn k) s = .next (count1 (1344 + h.lport % 32) s)) ∧ (servesFront s = true → isAnalysis s h.lport = false → s.pair.take = none → s.md.mode = .drowse → exec (.roceAckReceive h psn k) s = .next { s with woken := s.woken ++ [.roce h true (.ack h psn k)] }) ∧ (servesFront s = true → isAnalysis s h.lport = false → s.pair.take = some .forward → exec (.roceAckReceive h psn k) s = .next (forwardFrame 0 0 h.lport 0 s)) ∧ (∀ st, servesFront s = true → isAnalysis s h.lport = false → s.pair.take = some st → st ≠ .forward → exec (.roceAckReceive h psn k) s = .next { s with woken := s.woken ++ [.roce h true (.ack h psn k)] }))
  ∧ (∀ (s : State) (h : RoceHead) (psn tag gen off : Nat) (blks : List HBlk) (last : Bool), h.icrcOk = false → (engineTakes h.lport s = true → exec (.roceReadResponse h psn tag gen off blks last) s = .next (count1 2050 (count1 2048 (engineAt (h.qpn % 65536) s)))) ∧ (servesFront s = false ∨ isAnalysis s h.lport = true → exec (.roceReadResponse h psn tag gen off blks last) s = .next (count1 (1344 + h.lport % 32) s)) ∧ (servesFront s = true → isAnalysis s h.lport = false → s.pair.take = none → s.md.mode = .drowse → exec (.roceReadResponse h psn tag gen off blks last) s = .next { s with woken := s.woken ++ [.roce h true (.resp h psn tag gen off blks last)] }) ∧ (servesFront s = true → isAnalysis s h.lport = false → s.pair.take = some .forward → exec (.roceReadResponse h psn tag gen off blks last) s = .next (forwardFrame 0 0 h.lport 0 s)) ∧ (∀ st, servesFront s = true → isAnalysis s h.lport = false → s.pair.take = some st → st ≠ .forward → exec (.roceReadResponse h psn tag gen off blks last) s = .next { s with woken := s.woken ++ [.roce h true (.resp h psn tag gen off blks last)] }))
  ∧ (∀ (s : State) (h : RoceHead), h.icrcOk = false → (engineTakes h.lport s = true → exec (.roceCnpReceive h) s = .next (count1 2050 (count1 2048 (engineAt (h.qpn % 65536) s)))) ∧ (servesFront s = false ∨ isAnalysis s h.lport = true → exec (.roceCnpReceive h) s = .next (count1 (1344 + h.lport % 32) s)) ∧ (servesFront s = true → isAnalysis s h.lport = false → s.pair.take = none → s.md.mode = .drowse → exec (.roceCnpReceive h) s = .next { s with woken := s.woken ++ [.roce h true (.cnp h)] }) ∧ (servesFront s = true → isAnalysis s h.lport = false → s.pair.take = some .forward → exec (.roceCnpReceive h) s = .next (forwardFrame 0 0 h.lport 0 s)) ∧ (∀ st, servesFront s = true → isAnalysis s h.lport = false → s.pair.take = some st → st ≠ .forward → exec (.roceCnpReceive h) s = .next { s with woken := s.woken ++ [.roce h true (.cnp h)] }))

/-- A QOS.SET_GATE_LIST packet that its desk takes and whose list has an entry with S0 closed is answered BAD_PARAM with no result words, and no configuration changes: the state is the one the packet's arrival left, with the reply posted. -/
def Obligations.GateListMustOpenS0 : Prop :=
  ∀ (s : State) (p : Packet) (e : Nat × Nat), taken 0x0307 6 (bits 9 0 (p.w 2)) p s = true → (gateEntries (p.data 6)).contains e = true → e.1.testBit 0 = false → exec (.qosSetGateList p) s = .next (post p.door p.tag false stBadParam [] (s.arrived 0x0307 p))

/-- While a parcel migration, a resynchronisation of the partner or the rebuild or resync of a member runs, a taken MOD.ENTER_DROWSE is answered REFUSED_MOVING and starts no entry, and the Set Features (Power Management) of a host that may ask for power state 1 ends COMMAND_INTERRUPTED and starts none. -/
def Obligations.DrowseWaitsForMovingData : Prop :=
  (∀ (s : State) (p : Packet), taken 0x0006 0 0 p s = true → dataMoving (s.arrived 0x0006 p) = true → exec (.modEnterDrowse p) s = .next (post p.door p.tag false stRefusedMoving [] (s.arrived 0x0006 p)))
  ∧ (∀ (s : State) (ctx cid n : Nat) (c : Ctrl) (nsid v : Nat), adminTakes .other ctx cid n c s = true → v % 32 = 1 → (tabGet {} s.nvm.hosts c.host : HostEnt).priv.testBit 3 = true → dataMoving s = true → exec (.nvmeSetFeatures ctx cid nsid 2 v) s = .next (completeOn ctx cid .interrupted 0 (adminAt ctx s)))
end

