-- ==== Sys2Proof/Laws/State.lean ====
section
/-! SUPPORT. What each change of one desk's part of the state leaves: one lemma per field per update, true by rfl. -/
namespace Sys2Proof.Machine

/-! ## onMd -/

@[simp] theorem State.onMd_pending (f : ModDesk → ModDesk) (s : State) : (s.onMd f).pending = s.pending := rfl
@[simp] theorem State.onMd_out (f : ModDesk → ModDesk) (s : State) : (s.onMd f).out = s.out := rfl
@[simp] theorem State.onMd_free (f : ModDesk → ModDesk) (s : State) : (s.onMd f).free = s.free := rfl
@[simp] theorem State.onMd_order (f : ModDesk → ModDesk) (s : State) : (s.onMd f).order = s.order := rfl
@[simp] theorem State.onMd_pins (f : ModDesk → ModDesk) (s : State) : (s.onMd f).pins = s.pins := rfl
@[simp] theorem State.onMd_bay (f : ModDesk → ModDesk) (s : State) : (s.onMd f).bay = s.bay := rfl
@[simp] theorem State.onMd_fe (f : ModDesk → ModDesk) (s : State) : (s.onMd f).fe = s.fe := rfl
@[simp] theorem State.onMd_res (f : ModDesk → ModDesk) (s : State) : (s.onMd f).res = s.res := rfl
@[simp] theorem State.onMd_th (f : ModDesk → ModDesk) (s : State) : (s.onMd f).th = s.th := rfl
@[simp] theorem State.onMd_clk (f : ModDesk → ModDesk) (s : State) : (s.onMd f).clk = s.clk := rfl
@[simp] theorem State.onMd_md (f : ModDesk → ModDesk) (s : State) : (s.onMd f).md = f s.md := rfl
@[simp] theorem State.onMd_lb (f : ModDesk → ModDesk) (s : State) : (s.onMd f).lb = s.lb := rfl
@[simp] theorem State.onMd_se (f : ModDesk → ModDesk) (s : State) : (s.onMd f).se = s.se := rfl
@[simp] theorem State.onMd_tal (f : ModDesk → ModDesk) (s : State) : (s.onMd f).tal = s.tal := rfl
@[simp] theorem State.onMd_pwr (f : ModDesk → ModDesk) (s : State) : (s.onMd f).pwr = s.pwr := rfl
@[simp] theorem State.onMd_net (f : ModDesk → ModDesk) (s : State) : (s.onMd f).net = s.net := rfl
@[simp] theorem State.onMd_qos (f : ModDesk → ModDesk) (s : State) : (s.onMd f).qos = s.qos := rfl
@[simp] theorem State.onMd_xpt (f : ModDesk → ModDesk) (s : State) : (s.onMd f).xpt = s.xpt := rfl
@[simp] theorem State.onMd_nvm (f : ModDesk → ModDesk) (s : State) : (s.onMd f).nvm = s.nvm := rfl
@[simp] theorem State.onMd_vol (f : ModDesk → ModDesk) (s : State) : (s.onMd f).vol = s.vol := rfl
@[simp] theorem State.onMd_wbf (f : ModDesk → ModDesk) (s : State) : (s.onMd f).wbf = s.wbf := rfl
@[simp] theorem State.onMd_drv (f : ModDesk → ModDesk) (s : State) : (s.onMd f).drv = s.drv := rfl
@[simp] theorem State.onMd_key (f : ModDesk → ModDesk) (s : State) : (s.onMd f).key = s.key := rfl
@[simp] theorem State.onMd_links (f : ModDesk → ModDesk) (s : State) : (s.onMd f).links = s.links := rfl
@[simp] theorem State.onMd_pair (f : ModDesk → ModDesk) (s : State) : (s.onMd f).pair = s.pair := rfl
@[simp] theorem State.onMd_stk (f : ModDesk → ModDesk) (s : State) : (s.onMd f).stk = s.stk := rfl
@[simp] theorem State.onMd_mem (f : ModDesk → ModDesk) (s : State) : (s.onMd f).mem = s.mem := rfl
@[simp] theorem State.onMd_upd (f : ModDesk → ModDesk) (s : State) : (s.onMd f).upd = s.upd := rfl
@[simp] theorem State.onMd_woken (f : ModDesk → ModDesk) (s : State) : (s.onMd f).woken = s.woken := rfl
@[simp] theorem State.onMd_kwait (f : ModDesk → ModDesk) (s : State) : (s.onMd f).kwait = s.kwait := rfl

/-! ## onLb -/

@[simp] theorem State.onLb_pending (f : Letterbox → Letterbox) (s : State) : (s.onLb f).pending = s.pending := rfl
@[simp] theorem State.onLb_out (f : Letterbox → Letterbox) (s : State) : (s.onLb f).out = s.out := rfl
@[simp] theorem State.onLb_free (f : Letterbox → Letterbox) (s : State) : (s.onLb f).free = s.free := rfl
@[simp] theorem State.onLb_order (f : Letterbox → Letterbox) (s : State) : (s.onLb f).order = s.order := rfl
@[simp] theorem State.onLb_pins (f : Letterbox → Letterbox) (s : State) : (s.onLb f).pins = s.pins := rfl
@[simp] theorem State.onLb_bay (f : Letterbox → Letterbox) (s : State) : (s.onLb f).bay = s.bay := rfl
@[simp] theorem State.onLb_fe (f : Letterbox → Letterbox) (s : State) : (s.onLb f).fe = s.fe := rfl
@[simp] theorem State.onLb_res (f : Letterbox → Letterbox) (s : State) : (s.onLb f).res = s.res := rfl
@[simp] theorem State.onLb_th (f : Letterbox → Letterbox) (s : State) : (s.onLb f).th = s.th := rfl
@[simp] theorem State.onLb_clk (f : Letterbox → Letterbox) (s : State) : (s.onLb f).clk = s.clk := rfl
@[simp] theorem State.onLb_md (f : Letterbox → Letterbox) (s : State) : (s.onLb f).md = s.md := rfl
@[simp] theorem State.onLb_lb (f : Letterbox → Letterbox) (s : State) : (s.onLb f).lb = f s.lb := rfl
@[simp] theorem State.onLb_se (f : Letterbox → Letterbox) (s : State) : (s.onLb f).se = s.se := rfl
@[simp] theorem State.onLb_tal (f : Letterbox → Letterbox) (s : State) : (s.onLb f).tal = s.tal := rfl
@[simp] theorem State.onLb_pwr (f : Letterbox → Letterbox) (s : State) : (s.onLb f).pwr = s.pwr := rfl
@[simp] theorem State.onLb_net (f : Letterbox → Letterbox) (s : State) : (s.onLb f).net = s.net := rfl
@[simp] theorem State.onLb_qos (f : Letterbox → Letterbox) (s : State) : (s.onLb f).qos = s.qos := rfl
@[simp] theorem State.onLb_xpt (f : Letterbox → Letterbox) (s : State) : (s.onLb f).xpt = s.xpt := rfl
@[simp] theorem State.onLb_nvm (f : Letterbox → Letterbox) (s : State) : (s.onLb f).nvm = s.nvm := rfl
@[simp] theorem State.onLb_vol (f : Letterbox → Letterbox) (s : State) : (s.onLb f).vol = s.vol := rfl
@[simp] theorem State.onLb_wbf (f : Letterbox → Letterbox) (s : State) : (s.onLb f).wbf = s.wbf := rfl
@[simp] theorem State.onLb_drv (f : Letterbox → Letterbox) (s : State) : (s.onLb f).drv = s.drv := rfl
@[simp] theorem State.onLb_key (f : Letterbox → Letterbox) (s : State) : (s.onLb f).key = s.key := rfl
@[simp] theorem State.onLb_links (f : Letterbox → Letterbox) (s : State) : (s.onLb f).links = s.links := rfl
@[simp] theorem State.onLb_pair (f : Letterbox → Letterbox) (s : State) : (s.onLb f).pair = s.pair := rfl
@[simp] theorem State.onLb_stk (f : Letterbox → Letterbox) (s : State) : (s.onLb f).stk = s.stk := rfl
@[simp] theorem State.onLb_mem (f : Letterbox → Letterbox) (s : State) : (s.onLb f).mem = s.mem := rfl
@[simp] theorem State.onLb_upd (f : Letterbox → Letterbox) (s : State) : (s.onLb f).upd = s.upd := rfl
@[simp] theorem State.onLb_woken (f : Letterbox → Letterbox) (s : State) : (s.onLb f).woken = s.woken := rfl
@[simp] theorem State.onLb_kwait (f : Letterbox → Letterbox) (s : State) : (s.onLb f).kwait = s.kwait := rfl

/-! ## onSe -/

@[simp] theorem State.onSe_pending (f : Se → Se) (s : State) : (s.onSe f).pending = s.pending := rfl
@[simp] theorem State.onSe_out (f : Se → Se) (s : State) : (s.onSe f).out = s.out := rfl
@[simp] theorem State.onSe_free (f : Se → Se) (s : State) : (s.onSe f).free = s.free := rfl
@[simp] theorem State.onSe_order (f : Se → Se) (s : State) : (s.onSe f).order = s.order := rfl
@[simp] theorem State.onSe_pins (f : Se → Se) (s : State) : (s.onSe f).pins = s.pins := rfl
@[simp] theorem State.onSe_bay (f : Se → Se) (s : State) : (s.onSe f).bay = s.bay := rfl
@[simp] theorem State.onSe_fe (f : Se → Se) (s : State) : (s.onSe f).fe = s.fe := rfl
@[simp] theorem State.onSe_res (f : Se → Se) (s : State) : (s.onSe f).res = s.res := rfl
@[simp] theorem State.onSe_th (f : Se → Se) (s : State) : (s.onSe f).th = s.th := rfl
@[simp] theorem State.onSe_clk (f : Se → Se) (s : State) : (s.onSe f).clk = s.clk := rfl
@[simp] theorem State.onSe_md (f : Se → Se) (s : State) : (s.onSe f).md = s.md := rfl
@[simp] theorem State.onSe_lb (f : Se → Se) (s : State) : (s.onSe f).lb = s.lb := rfl
@[simp] theorem State.onSe_se (f : Se → Se) (s : State) : (s.onSe f).se = f s.se := rfl
@[simp] theorem State.onSe_tal (f : Se → Se) (s : State) : (s.onSe f).tal = s.tal := rfl
@[simp] theorem State.onSe_pwr (f : Se → Se) (s : State) : (s.onSe f).pwr = s.pwr := rfl
@[simp] theorem State.onSe_net (f : Se → Se) (s : State) : (s.onSe f).net = s.net := rfl
@[simp] theorem State.onSe_qos (f : Se → Se) (s : State) : (s.onSe f).qos = s.qos := rfl
@[simp] theorem State.onSe_xpt (f : Se → Se) (s : State) : (s.onSe f).xpt = s.xpt := rfl
@[simp] theorem State.onSe_nvm (f : Se → Se) (s : State) : (s.onSe f).nvm = s.nvm := rfl
@[simp] theorem State.onSe_vol (f : Se → Se) (s : State) : (s.onSe f).vol = s.vol := rfl
@[simp] theorem State.onSe_wbf (f : Se → Se) (s : State) : (s.onSe f).wbf = s.wbf := rfl
@[simp] theorem State.onSe_drv (f : Se → Se) (s : State) : (s.onSe f).drv = s.drv := rfl
@[simp] theorem State.onSe_key (f : Se → Se) (s : State) : (s.onSe f).key = s.key := rfl
@[simp] theorem State.onSe_links (f : Se → Se) (s : State) : (s.onSe f).links = s.links := rfl
@[simp] theorem State.onSe_pair (f : Se → Se) (s : State) : (s.onSe f).pair = s.pair := rfl
@[simp] theorem State.onSe_stk (f : Se → Se) (s : State) : (s.onSe f).stk = s.stk := rfl
@[simp] theorem State.onSe_mem (f : Se → Se) (s : State) : (s.onSe f).mem = s.mem := rfl
@[simp] theorem State.onSe_upd (f : Se → Se) (s : State) : (s.onSe f).upd = s.upd := rfl
@[simp] theorem State.onSe_woken (f : Se → Se) (s : State) : (s.onSe f).woken = s.woken := rfl
@[simp] theorem State.onSe_kwait (f : Se → Se) (s : State) : (s.onSe f).kwait = s.kwait := rfl

/-! ## onTal -/

@[simp] theorem State.onTal_pending (f : Tally → Tally) (s : State) : (s.onTal f).pending = s.pending := rfl
@[simp] theorem State.onTal_out (f : Tally → Tally) (s : State) : (s.onTal f).out = s.out := rfl
@[simp] theorem State.onTal_free (f : Tally → Tally) (s : State) : (s.onTal f).free = s.free := rfl
@[simp] theorem State.onTal_order (f : Tally → Tally) (s : State) : (s.onTal f).order = s.order := rfl
@[simp] theorem State.onTal_pins (f : Tally → Tally) (s : State) : (s.onTal f).pins = s.pins := rfl
@[simp] theorem State.onTal_bay (f : Tally → Tally) (s : State) : (s.onTal f).bay = s.bay := rfl
@[simp] theorem State.onTal_fe (f : Tally → Tally) (s : State) : (s.onTal f).fe = s.fe := rfl
@[simp] theorem State.onTal_res (f : Tally → Tally) (s : State) : (s.onTal f).res = s.res := rfl
@[simp] theorem State.onTal_th (f : Tally → Tally) (s : State) : (s.onTal f).th = s.th := rfl
@[simp] theorem State.onTal_clk (f : Tally → Tally) (s : State) : (s.onTal f).clk = s.clk := rfl
@[simp] theorem State.onTal_md (f : Tally → Tally) (s : State) : (s.onTal f).md = s.md := rfl
@[simp] theorem State.onTal_lb (f : Tally → Tally) (s : State) : (s.onTal f).lb = s.lb := rfl
@[simp] theorem State.onTal_se (f : Tally → Tally) (s : State) : (s.onTal f).se = s.se := rfl
@[simp] theorem State.onTal_tal (f : Tally → Tally) (s : State) : (s.onTal f).tal = f s.tal := rfl
@[simp] theorem State.onTal_pwr (f : Tally → Tally) (s : State) : (s.onTal f).pwr = s.pwr := rfl
@[simp] theorem State.onTal_net (f : Tally → Tally) (s : State) : (s.onTal f).net = s.net := rfl
@[simp] theorem State.onTal_qos (f : Tally → Tally) (s : State) : (s.onTal f).qos = s.qos := rfl
@[simp] theorem State.onTal_xpt (f : Tally → Tally) (s : State) : (s.onTal f).xpt = s.xpt := rfl
@[simp] theorem State.onTal_nvm (f : Tally → Tally) (s : State) : (s.onTal f).nvm = s.nvm := rfl
@[simp] theorem State.onTal_vol (f : Tally → Tally) (s : State) : (s.onTal f).vol = s.vol := rfl
@[simp] theorem State.onTal_wbf (f : Tally → Tally) (s : State) : (s.onTal f).wbf = s.wbf := rfl
@[simp] theorem State.onTal_drv (f : Tally → Tally) (s : State) : (s.onTal f).drv = s.drv := rfl
@[simp] theorem State.onTal_key (f : Tally → Tally) (s : State) : (s.onTal f).key = s.key := rfl
@[simp] theorem State.onTal_links (f : Tally → Tally) (s : State) : (s.onTal f).links = s.links := rfl
@[simp] theorem State.onTal_pair (f : Tally → Tally) (s : State) : (s.onTal f).pair = s.pair := rfl
@[simp] theorem State.onTal_stk (f : Tally → Tally) (s : State) : (s.onTal f).stk = s.stk := rfl
@[simp] theorem State.onTal_mem (f : Tally → Tally) (s : State) : (s.onTal f).mem = s.mem := rfl
@[simp] theorem State.onTal_upd (f : Tally → Tally) (s : State) : (s.onTal f).upd = s.upd := rfl
@[simp] theorem State.onTal_woken (f : Tally → Tally) (s : State) : (s.onTal f).woken = s.woken := rfl
@[simp] theorem State.onTal_kwait (f : Tally → Tally) (s : State) : (s.onTal f).kwait = s.kwait := rfl

/-! ## onPwr -/

@[simp] theorem State.onPwr_pending (f : Pwr → Pwr) (s : State) : (s.onPwr f).pending = s.pending := rfl
@[simp] theorem State.onPwr_out (f : Pwr → Pwr) (s : State) : (s.onPwr f).out = s.out := rfl
@[simp] theorem State.onPwr_free (f : Pwr → Pwr) (s : State) : (s.onPwr f).free = s.free := rfl
@[simp] theorem State.onPwr_order (f : Pwr → Pwr) (s : State) : (s.onPwr f).order = s.order := rfl
@[simp] theorem State.onPwr_pins (f : Pwr → Pwr) (s : State) : (s.onPwr f).pins = s.pins := rfl
@[simp] theorem State.onPwr_bay (f : Pwr → Pwr) (s : State) : (s.onPwr f).bay = s.bay := rfl
@[simp] theorem State.onPwr_fe (f : Pwr → Pwr) (s : State) : (s.onPwr f).fe = s.fe := rfl
@[simp] theorem State.onPwr_res (f : Pwr → Pwr) (s : State) : (s.onPwr f).res = s.res := rfl
@[simp] theorem State.onPwr_th (f : Pwr → Pwr) (s : State) : (s.onPwr f).th = s.th := rfl
@[simp] theorem State.onPwr_clk (f : Pwr → Pwr) (s : State) : (s.onPwr f).clk = s.clk := rfl
@[simp] theorem State.onPwr_md (f : Pwr → Pwr) (s : State) : (s.onPwr f).md = s.md := rfl
@[simp] theorem State.onPwr_lb (f : Pwr → Pwr) (s : State) : (s.onPwr f).lb = s.lb := rfl
@[simp] theorem State.onPwr_se (f : Pwr → Pwr) (s : State) : (s.onPwr f).se = s.se := rfl
@[simp] theorem State.onPwr_tal (f : Pwr → Pwr) (s : State) : (s.onPwr f).tal = s.tal := rfl
@[simp] theorem State.onPwr_pwr (f : Pwr → Pwr) (s : State) : (s.onPwr f).pwr = f s.pwr := rfl
@[simp] theorem State.onPwr_net (f : Pwr → Pwr) (s : State) : (s.onPwr f).net = s.net := rfl
@[simp] theorem State.onPwr_qos (f : Pwr → Pwr) (s : State) : (s.onPwr f).qos = s.qos := rfl
@[simp] theorem State.onPwr_xpt (f : Pwr → Pwr) (s : State) : (s.onPwr f).xpt = s.xpt := rfl
@[simp] theorem State.onPwr_nvm (f : Pwr → Pwr) (s : State) : (s.onPwr f).nvm = s.nvm := rfl
@[simp] theorem State.onPwr_vol (f : Pwr → Pwr) (s : State) : (s.onPwr f).vol = s.vol := rfl
@[simp] theorem State.onPwr_wbf (f : Pwr → Pwr) (s : State) : (s.onPwr f).wbf = s.wbf := rfl
@[simp] theorem State.onPwr_drv (f : Pwr → Pwr) (s : State) : (s.onPwr f).drv = s.drv := rfl
@[simp] theorem State.onPwr_key (f : Pwr → Pwr) (s : State) : (s.onPwr f).key = s.key := rfl
@[simp] theorem State.onPwr_links (f : Pwr → Pwr) (s : State) : (s.onPwr f).links = s.links := rfl
@[simp] theorem State.onPwr_pair (f : Pwr → Pwr) (s : State) : (s.onPwr f).pair = s.pair := rfl
@[simp] theorem State.onPwr_stk (f : Pwr → Pwr) (s : State) : (s.onPwr f).stk = s.stk := rfl
@[simp] theorem State.onPwr_mem (f : Pwr → Pwr) (s : State) : (s.onPwr f).mem = s.mem := rfl
@[simp] theorem State.onPwr_upd (f : Pwr → Pwr) (s : State) : (s.onPwr f).upd = s.upd := rfl
@[simp] theorem State.onPwr_woken (f : Pwr → Pwr) (s : State) : (s.onPwr f).woken = s.woken := rfl
@[simp] theorem State.onPwr_kwait (f : Pwr → Pwr) (s : State) : (s.onPwr f).kwait = s.kwait := rfl

/-! ## onNet -/

@[simp] theorem State.onNet_pending (f : Net → Net) (s : State) : (s.onNet f).pending = s.pending := rfl
@[simp] theorem State.onNet_out (f : Net → Net) (s : State) : (s.onNet f).out = s.out := rfl
@[simp] theorem State.onNet_free (f : Net → Net) (s : State) : (s.onNet f).free = s.free := rfl
@[simp] theorem State.onNet_order (f : Net → Net) (s : State) : (s.onNet f).order = s.order := rfl
@[simp] theorem State.onNet_pins (f : Net → Net) (s : State) : (s.onNet f).pins = s.pins := rfl
@[simp] theorem State.onNet_bay (f : Net → Net) (s : State) : (s.onNet f).bay = s.bay := rfl
@[simp] theorem State.onNet_fe (f : Net → Net) (s : State) : (s.onNet f).fe = s.fe := rfl
@[simp] theorem State.onNet_res (f : Net → Net) (s : State) : (s.onNet f).res = s.res := rfl
@[simp] theorem State.onNet_th (f : Net → Net) (s : State) : (s.onNet f).th = s.th := rfl
@[simp] theorem State.onNet_clk (f : Net → Net) (s : State) : (s.onNet f).clk = s.clk := rfl
@[simp] theorem State.onNet_md (f : Net → Net) (s : State) : (s.onNet f).md = s.md := rfl
@[simp] theorem State.onNet_lb (f : Net → Net) (s : State) : (s.onNet f).lb = s.lb := rfl
@[simp] theorem State.onNet_se (f : Net → Net) (s : State) : (s.onNet f).se = s.se := rfl
@[simp] theorem State.onNet_tal (f : Net → Net) (s : State) : (s.onNet f).tal = s.tal := rfl
@[simp] theorem State.onNet_pwr (f : Net → Net) (s : State) : (s.onNet f).pwr = s.pwr := rfl
@[simp] theorem State.onNet_net (f : Net → Net) (s : State) : (s.onNet f).net = f s.net := rfl
@[simp] theorem State.onNet_qos (f : Net → Net) (s : State) : (s.onNet f).qos = s.qos := rfl
@[simp] theorem State.onNet_xpt (f : Net → Net) (s : State) : (s.onNet f).xpt = s.xpt := rfl
@[simp] theorem State.onNet_nvm (f : Net → Net) (s : State) : (s.onNet f).nvm = s.nvm := rfl
@[simp] theorem State.onNet_vol (f : Net → Net) (s : State) : (s.onNet f).vol = s.vol := rfl
@[simp] theorem State.onNet_wbf (f : Net → Net) (s : State) : (s.onNet f).wbf = s.wbf := rfl
@[simp] theorem State.onNet_drv (f : Net → Net) (s : State) : (s.onNet f).drv = s.drv := rfl
@[simp] theorem State.onNet_key (f : Net → Net) (s : State) : (s.onNet f).key = s.key := rfl
@[simp] theorem State.onNet_links (f : Net → Net) (s : State) : (s.onNet f).links = s.links := rfl
@[simp] theorem State.onNet_pair (f : Net → Net) (s : State) : (s.onNet f).pair = s.pair := rfl
@[simp] theorem State.onNet_stk (f : Net → Net) (s : State) : (s.onNet f).stk = s.stk := rfl
@[simp] theorem State.onNet_mem (f : Net → Net) (s : State) : (s.onNet f).mem = s.mem := rfl
@[simp] theorem State.onNet_upd (f : Net → Net) (s : State) : (s.onNet f).upd = s.upd := rfl
@[simp] theorem State.onNet_woken (f : Net → Net) (s : State) : (s.onNet f).woken = s.woken := rfl
@[simp] theorem State.onNet_kwait (f : Net → Net) (s : State) : (s.onNet f).kwait = s.kwait := rfl

/-! ## onFe -/

@[simp] theorem State.onFe_pending (f : FrontEnd → FrontEnd) (s : State) : (s.onFe f).pending = s.pending := rfl
@[simp] theorem State.onFe_out (f : FrontEnd → FrontEnd) (s : State) : (s.onFe f).out = s.out := rfl
@[simp] theorem State.onFe_free (f : FrontEnd → FrontEnd) (s : State) : (s.onFe f).free = s.free := rfl
@[simp] theorem State.onFe_order (f : FrontEnd → FrontEnd) (s : State) : (s.onFe f).order = s.order := rfl
@[simp] theorem State.onFe_pins (f : FrontEnd → FrontEnd) (s : State) : (s.onFe f).pins = s.pins := rfl
@[simp] theorem State.onFe_bay (f : FrontEnd → FrontEnd) (s : State) : (s.onFe f).bay = s.bay := rfl
@[simp] theorem State.onFe_fe (f : FrontEnd → FrontEnd) (s : State) : (s.onFe f).fe = f s.fe := rfl
@[simp] theorem State.onFe_res (f : FrontEnd → FrontEnd) (s : State) : (s.onFe f).res = s.res := rfl
@[simp] theorem State.onFe_th (f : FrontEnd → FrontEnd) (s : State) : (s.onFe f).th = s.th := rfl
@[simp] theorem State.onFe_clk (f : FrontEnd → FrontEnd) (s : State) : (s.onFe f).clk = s.clk := rfl
@[simp] theorem State.onFe_md (f : FrontEnd → FrontEnd) (s : State) : (s.onFe f).md = s.md := rfl
@[simp] theorem State.onFe_lb (f : FrontEnd → FrontEnd) (s : State) : (s.onFe f).lb = s.lb := rfl
@[simp] theorem State.onFe_se (f : FrontEnd → FrontEnd) (s : State) : (s.onFe f).se = s.se := rfl
@[simp] theorem State.onFe_tal (f : FrontEnd → FrontEnd) (s : State) : (s.onFe f).tal = s.tal := rfl
@[simp] theorem State.onFe_pwr (f : FrontEnd → FrontEnd) (s : State) : (s.onFe f).pwr = s.pwr := rfl
@[simp] theorem State.onFe_net (f : FrontEnd → FrontEnd) (s : State) : (s.onFe f).net = s.net := rfl
@[simp] theorem State.onFe_qos (f : FrontEnd → FrontEnd) (s : State) : (s.onFe f).qos = s.qos := rfl
@[simp] theorem State.onFe_xpt (f : FrontEnd → FrontEnd) (s : State) : (s.onFe f).xpt = s.xpt := rfl
@[simp] theorem State.onFe_nvm (f : FrontEnd → FrontEnd) (s : State) : (s.onFe f).nvm = s.nvm := rfl
@[simp] theorem State.onFe_vol (f : FrontEnd → FrontEnd) (s : State) : (s.onFe f).vol = s.vol := rfl
@[simp] theorem State.onFe_wbf (f : FrontEnd → FrontEnd) (s : State) : (s.onFe f).wbf = s.wbf := rfl
@[simp] theorem State.onFe_drv (f : FrontEnd → FrontEnd) (s : State) : (s.onFe f).drv = s.drv := rfl
@[simp] theorem State.onFe_key (f : FrontEnd → FrontEnd) (s : State) : (s.onFe f).key = s.key := rfl
@[simp] theorem State.onFe_links (f : FrontEnd → FrontEnd) (s : State) : (s.onFe f).links = s.links := rfl
@[simp] theorem State.onFe_pair (f : FrontEnd → FrontEnd) (s : State) : (s.onFe f).pair = s.pair := rfl
@[simp] theorem State.onFe_stk (f : FrontEnd → FrontEnd) (s : State) : (s.onFe f).stk = s.stk := rfl
@[simp] theorem State.onFe_mem (f : FrontEnd → FrontEnd) (s : State) : (s.onFe f).mem = s.mem := rfl
@[simp] theorem State.onFe_upd (f : FrontEnd → FrontEnd) (s : State) : (s.onFe f).upd = s.upd := rfl
@[simp] theorem State.onFe_woken (f : FrontEnd → FrontEnd) (s : State) : (s.onFe f).woken = s.woken := rfl
@[simp] theorem State.onFe_kwait (f : FrontEnd → FrontEnd) (s : State) : (s.onFe f).kwait = s.kwait := rfl

/-! ## onRes -/

@[simp] theorem State.onRes_pending (f : Reserve → Reserve) (s : State) : (s.onRes f).pending = s.pending := rfl
@[simp] theorem State.onRes_out (f : Reserve → Reserve) (s : State) : (s.onRes f).out = s.out := rfl
@[simp] theorem State.onRes_free (f : Reserve → Reserve) (s : State) : (s.onRes f).free = s.free := rfl
@[simp] theorem State.onRes_order (f : Reserve → Reserve) (s : State) : (s.onRes f).order = s.order := rfl
@[simp] theorem State.onRes_pins (f : Reserve → Reserve) (s : State) : (s.onRes f).pins = s.pins := rfl
@[simp] theorem State.onRes_bay (f : Reserve → Reserve) (s : State) : (s.onRes f).bay = s.bay := rfl
@[simp] theorem State.onRes_fe (f : Reserve → Reserve) (s : State) : (s.onRes f).fe = s.fe := rfl
@[simp] theorem State.onRes_res (f : Reserve → Reserve) (s : State) : (s.onRes f).res = f s.res := rfl
@[simp] theorem State.onRes_th (f : Reserve → Reserve) (s : State) : (s.onRes f).th = s.th := rfl
@[simp] theorem State.onRes_clk (f : Reserve → Reserve) (s : State) : (s.onRes f).clk = s.clk := rfl
@[simp] theorem State.onRes_md (f : Reserve → Reserve) (s : State) : (s.onRes f).md = s.md := rfl
@[simp] theorem State.onRes_lb (f : Reserve → Reserve) (s : State) : (s.onRes f).lb = s.lb := rfl
@[simp] theorem State.onRes_se (f : Reserve → Reserve) (s : State) : (s.onRes f).se = s.se := rfl
@[simp] theorem State.onRes_tal (f : Reserve → Reserve) (s : State) : (s.onRes f).tal = s.tal := rfl
@[simp] theorem State.onRes_pwr (f : Reserve → Reserve) (s : State) : (s.onRes f).pwr = s.pwr := rfl
@[simp] theorem State.onRes_net (f : Reserve → Reserve) (s : State) : (s.onRes f).net = s.net := rfl
@[simp] theorem State.onRes_qos (f : Reserve → Reserve) (s : State) : (s.onRes f).qos = s.qos := rfl
@[simp] theorem State.onRes_xpt (f : Reserve → Reserve) (s : State) : (s.onRes f).xpt = s.xpt := rfl
@[simp] theorem State.onRes_nvm (f : Reserve → Reserve) (s : State) : (s.onRes f).nvm = s.nvm := rfl
@[simp] theorem State.onRes_vol (f : Reserve → Reserve) (s : State) : (s.onRes f).vol = s.vol := rfl
@[simp] theorem State.onRes_wbf (f : Reserve → Reserve) (s : State) : (s.onRes f).wbf = s.wbf := rfl
@[simp] theorem State.onRes_drv (f : Reserve → Reserve) (s : State) : (s.onRes f).drv = s.drv := rfl
@[simp] theorem State.onRes_key (f : Reserve → Reserve) (s : State) : (s.onRes f).key = s.key := rfl
@[simp] theorem State.onRes_links (f : Reserve → Reserve) (s : State) : (s.onRes f).links = s.links := rfl
@[simp] theorem State.onRes_pair (f : Reserve → Reserve) (s : State) : (s.onRes f).pair = s.pair := rfl
@[simp] theorem State.onRes_stk (f : Reserve → Reserve) (s : State) : (s.onRes f).stk = s.stk := rfl
@[simp] theorem State.onRes_mem (f : Reserve → Reserve) (s : State) : (s.onRes f).mem = s.mem := rfl
@[simp] theorem State.onRes_upd (f : Reserve → Reserve) (s : State) : (s.onRes f).upd = s.upd := rfl
@[simp] theorem State.onRes_woken (f : Reserve → Reserve) (s : State) : (s.onRes f).woken = s.woken := rfl
@[simp] theorem State.onRes_kwait (f : Reserve → Reserve) (s : State) : (s.onRes f).kwait = s.kwait := rfl

/-! ## onQos -/

@[simp] theorem State.onQos_pending (f : Qos → Qos) (s : State) : (s.onQos f).pending = s.pending := rfl
@[simp] theorem State.onQos_out (f : Qos → Qos) (s : State) : (s.onQos f).out = s.out := rfl
@[simp] theorem State.onQos_free (f : Qos → Qos) (s : State) : (s.onQos f).free = s.free := rfl
@[simp] theorem State.onQos_order (f : Qos → Qos) (s : State) : (s.onQos f).order = s.order := rfl
@[simp] theorem State.onQos_pins (f : Qos → Qos) (s : State) : (s.onQos f).pins = s.pins := rfl
@[simp] theorem State.onQos_bay (f : Qos → Qos) (s : State) : (s.onQos f).bay = s.bay := rfl
@[simp] theorem State.onQos_fe (f : Qos → Qos) (s : State) : (s.onQos f).fe = s.fe := rfl
@[simp] theorem State.onQos_res (f : Qos → Qos) (s : State) : (s.onQos f).res = s.res := rfl
@[simp] theorem State.onQos_th (f : Qos → Qos) (s : State) : (s.onQos f).th = s.th := rfl
@[simp] theorem State.onQos_clk (f : Qos → Qos) (s : State) : (s.onQos f).clk = s.clk := rfl
@[simp] theorem State.onQos_md (f : Qos → Qos) (s : State) : (s.onQos f).md = s.md := rfl
@[simp] theorem State.onQos_lb (f : Qos → Qos) (s : State) : (s.onQos f).lb = s.lb := rfl
@[simp] theorem State.onQos_se (f : Qos → Qos) (s : State) : (s.onQos f).se = s.se := rfl
@[simp] theorem State.onQos_tal (f : Qos → Qos) (s : State) : (s.onQos f).tal = s.tal := rfl
@[simp] theorem State.onQos_pwr (f : Qos → Qos) (s : State) : (s.onQos f).pwr = s.pwr := rfl
@[simp] theorem State.onQos_net (f : Qos → Qos) (s : State) : (s.onQos f).net = s.net := rfl
@[simp] theorem State.onQos_qos (f : Qos → Qos) (s : State) : (s.onQos f).qos = f s.qos := rfl
@[simp] theorem State.onQos_xpt (f : Qos → Qos) (s : State) : (s.onQos f).xpt = s.xpt := rfl
@[simp] theorem State.onQos_nvm (f : Qos → Qos) (s : State) : (s.onQos f).nvm = s.nvm := rfl
@[simp] theorem State.onQos_vol (f : Qos → Qos) (s : State) : (s.onQos f).vol = s.vol := rfl
@[simp] theorem State.onQos_wbf (f : Qos → Qos) (s : State) : (s.onQos f).wbf = s.wbf := rfl
@[simp] theorem State.onQos_drv (f : Qos → Qos) (s : State) : (s.onQos f).drv = s.drv := rfl
@[simp] theorem State.onQos_key (f : Qos → Qos) (s : State) : (s.onQos f).key = s.key := rfl
@[simp] theorem State.onQos_links (f : Qos → Qos) (s : State) : (s.onQos f).links = s.links := rfl
@[simp] theorem State.onQos_pair (f : Qos → Qos) (s : State) : (s.onQos f).pair = s.pair := rfl
@[simp] theorem State.onQos_stk (f : Qos → Qos) (s : State) : (s.onQos f).stk = s.stk := rfl
@[simp] theorem State.onQos_mem (f : Qos → Qos) (s : State) : (s.onQos f).mem = s.mem := rfl
@[simp] theorem State.onQos_upd (f : Qos → Qos) (s : State) : (s.onQos f).upd = s.upd := rfl
@[simp] theorem State.onQos_woken (f : Qos → Qos) (s : State) : (s.onQos f).woken = s.woken := rfl
@[simp] theorem State.onQos_kwait (f : Qos → Qos) (s : State) : (s.onQos f).kwait = s.kwait := rfl

/-! ## onXpt -/

@[simp] theorem State.onXpt_pending (f : Xpt → Xpt) (s : State) : (s.onXpt f).pending = s.pending := rfl
@[simp] theorem State.onXpt_out (f : Xpt → Xpt) (s : State) : (s.onXpt f).out = s.out := rfl
@[simp] theorem State.onXpt_free (f : Xpt → Xpt) (s : State) : (s.onXpt f).free = s.free := rfl
@[simp] theorem State.onXpt_order (f : Xpt → Xpt) (s : State) : (s.onXpt f).order = s.order := rfl
@[simp] theorem State.onXpt_pins (f : Xpt → Xpt) (s : State) : (s.onXpt f).pins = s.pins := rfl
@[simp] theorem State.onXpt_bay (f : Xpt → Xpt) (s : State) : (s.onXpt f).bay = s.bay := rfl
@[simp] theorem State.onXpt_fe (f : Xpt → Xpt) (s : State) : (s.onXpt f).fe = s.fe := rfl
@[simp] theorem State.onXpt_res (f : Xpt → Xpt) (s : State) : (s.onXpt f).res = s.res := rfl
@[simp] theorem State.onXpt_th (f : Xpt → Xpt) (s : State) : (s.onXpt f).th = s.th := rfl
@[simp] theorem State.onXpt_clk (f : Xpt → Xpt) (s : State) : (s.onXpt f).clk = s.clk := rfl
@[simp] theorem State.onXpt_md (f : Xpt → Xpt) (s : State) : (s.onXpt f).md = s.md := rfl
@[simp] theorem State.onXpt_lb (f : Xpt → Xpt) (s : State) : (s.onXpt f).lb = s.lb := rfl
@[simp] theorem State.onXpt_se (f : Xpt → Xpt) (s : State) : (s.onXpt f).se = s.se := rfl
@[simp] theorem State.onXpt_tal (f : Xpt → Xpt) (s : State) : (s.onXpt f).tal = s.tal := rfl
@[simp] theorem State.onXpt_pwr (f : Xpt → Xpt) (s : State) : (s.onXpt f).pwr = s.pwr := rfl
@[simp] theorem State.onXpt_net (f : Xpt → Xpt) (s : State) : (s.onXpt f).net = s.net := rfl
@[simp] theorem State.onXpt_qos (f : Xpt → Xpt) (s : State) : (s.onXpt f).qos = s.qos := rfl
@[simp] theorem State.onXpt_xpt (f : Xpt → Xpt) (s : State) : (s.onXpt f).xpt = f s.xpt := rfl
@[simp] theorem State.onXpt_nvm (f : Xpt → Xpt) (s : State) : (s.onXpt f).nvm = s.nvm := rfl
@[simp] theorem State.onXpt_vol (f : Xpt → Xpt) (s : State) : (s.onXpt f).vol = s.vol := rfl
@[simp] theorem State.onXpt_wbf (f : Xpt → Xpt) (s : State) : (s.onXpt f).wbf = s.wbf := rfl
@[simp] theorem State.onXpt_drv (f : Xpt → Xpt) (s : State) : (s.onXpt f).drv = s.drv := rfl
@[simp] theorem State.onXpt_key (f : Xpt → Xpt) (s : State) : (s.onXpt f).key = s.key := rfl
@[simp] theorem State.onXpt_links (f : Xpt → Xpt) (s : State) : (s.onXpt f).links = s.links := rfl
@[simp] theorem State.onXpt_pair (f : Xpt → Xpt) (s : State) : (s.onXpt f).pair = s.pair := rfl
@[simp] theorem State.onXpt_stk (f : Xpt → Xpt) (s : State) : (s.onXpt f).stk = s.stk := rfl
@[simp] theorem State.onXpt_mem (f : Xpt → Xpt) (s : State) : (s.onXpt f).mem = s.mem := rfl
@[simp] theorem State.onXpt_upd (f : Xpt → Xpt) (s : State) : (s.onXpt f).upd = s.upd := rfl
@[simp] theorem State.onXpt_woken (f : Xpt → Xpt) (s : State) : (s.onXpt f).woken = s.woken := rfl
@[simp] theorem State.onXpt_kwait (f : Xpt → Xpt) (s : State) : (s.onXpt f).kwait = s.kwait := rfl

/-! ## onNvm -/

@[simp] theorem State.onNvm_pending (f : Nvm → Nvm) (s : State) : (s.onNvm f).pending = s.pending := rfl
@[simp] theorem State.onNvm_out (f : Nvm → Nvm) (s : State) : (s.onNvm f).out = s.out := rfl
@[simp] theorem State.onNvm_free (f : Nvm → Nvm) (s : State) : (s.onNvm f).free = s.free := rfl
@[simp] theorem State.onNvm_order (f : Nvm → Nvm) (s : State) : (s.onNvm f).order = s.order := rfl
@[simp] theorem State.onNvm_pins (f : Nvm → Nvm) (s : State) : (s.onNvm f).pins = s.pins := rfl
@[simp] theorem State.onNvm_bay (f : Nvm → Nvm) (s : State) : (s.onNvm f).bay = s.bay := rfl
@[simp] theorem State.onNvm_fe (f : Nvm → Nvm) (s : State) : (s.onNvm f).fe = s.fe := rfl
@[simp] theorem State.onNvm_res (f : Nvm → Nvm) (s : State) : (s.onNvm f).res = s.res := rfl
@[simp] theorem State.onNvm_th (f : Nvm → Nvm) (s : State) : (s.onNvm f).th = s.th := rfl
@[simp] theorem State.onNvm_clk (f : Nvm → Nvm) (s : State) : (s.onNvm f).clk = s.clk := rfl
@[simp] theorem State.onNvm_md (f : Nvm → Nvm) (s : State) : (s.onNvm f).md = s.md := rfl
@[simp] theorem State.onNvm_lb (f : Nvm → Nvm) (s : State) : (s.onNvm f).lb = s.lb := rfl
@[simp] theorem State.onNvm_se (f : Nvm → Nvm) (s : State) : (s.onNvm f).se = s.se := rfl
@[simp] theorem State.onNvm_tal (f : Nvm → Nvm) (s : State) : (s.onNvm f).tal = s.tal := rfl
@[simp] theorem State.onNvm_pwr (f : Nvm → Nvm) (s : State) : (s.onNvm f).pwr = s.pwr := rfl
@[simp] theorem State.onNvm_net (f : Nvm → Nvm) (s : State) : (s.onNvm f).net = s.net := rfl
@[simp] theorem State.onNvm_qos (f : Nvm → Nvm) (s : State) : (s.onNvm f).qos = s.qos := rfl
@[simp] theorem State.onNvm_xpt (f : Nvm → Nvm) (s : State) : (s.onNvm f).xpt = s.xpt := rfl
@[simp] theorem State.onNvm_nvm (f : Nvm → Nvm) (s : State) : (s.onNvm f).nvm = f s.nvm := rfl
@[simp] theorem State.onNvm_vol (f : Nvm → Nvm) (s : State) : (s.onNvm f).vol = s.vol := rfl
@[simp] theorem State.onNvm_wbf (f : Nvm → Nvm) (s : State) : (s.onNvm f).wbf = s.wbf := rfl
@[simp] theorem State.onNvm_drv (f : Nvm → Nvm) (s : State) : (s.onNvm f).drv = s.drv := rfl
@[simp] theorem State.onNvm_key (f : Nvm → Nvm) (s : State) : (s.onNvm f).key = s.key := rfl
@[simp] theorem State.onNvm_links (f : Nvm → Nvm) (s : State) : (s.onNvm f).links = s.links := rfl
@[simp] theorem State.onNvm_pair (f : Nvm → Nvm) (s : State) : (s.onNvm f).pair = s.pair := rfl
@[simp] theorem State.onNvm_stk (f : Nvm → Nvm) (s : State) : (s.onNvm f).stk = s.stk := rfl
@[simp] theorem State.onNvm_mem (f : Nvm → Nvm) (s : State) : (s.onNvm f).mem = s.mem := rfl
@[simp] theorem State.onNvm_upd (f : Nvm → Nvm) (s : State) : (s.onNvm f).upd = s.upd := rfl
@[simp] theorem State.onNvm_woken (f : Nvm → Nvm) (s : State) : (s.onNvm f).woken = s.woken := rfl
@[simp] theorem State.onNvm_kwait (f : Nvm → Nvm) (s : State) : (s.onNvm f).kwait = s.kwait := rfl

/-! ## onVol -/

@[simp] theorem State.onVol_pending (f : Vol → Vol) (s : State) : (s.onVol f).pending = s.pending := rfl
@[simp] theorem State.onVol_out (f : Vol → Vol) (s : State) : (s.onVol f).out = s.out := rfl
@[simp] theorem State.onVol_free (f : Vol → Vol) (s : State) : (s.onVol f).free = s.free := rfl
@[simp] theorem State.onVol_order (f : Vol → Vol) (s : State) : (s.onVol f).order = s.order := rfl
@[simp] theorem State.onVol_pins (f : Vol → Vol) (s : State) : (s.onVol f).pins = s.pins := rfl
@[simp] theorem State.onVol_bay (f : Vol → Vol) (s : State) : (s.onVol f).bay = s.bay := rfl
@[simp] theorem State.onVol_fe (f : Vol → Vol) (s : State) : (s.onVol f).fe = s.fe := rfl
@[simp] theorem State.onVol_res (f : Vol → Vol) (s : State) : (s.onVol f).res = s.res := rfl
@[simp] theorem State.onVol_th (f : Vol → Vol) (s : State) : (s.onVol f).th = s.th := rfl
@[simp] theorem State.onVol_clk (f : Vol → Vol) (s : State) : (s.onVol f).clk = s.clk := rfl
@[simp] theorem State.onVol_md (f : Vol → Vol) (s : State) : (s.onVol f).md = s.md := rfl
@[simp] theorem State.onVol_lb (f : Vol → Vol) (s : State) : (s.onVol f).lb = s.lb := rfl
@[simp] theorem State.onVol_se (f : Vol → Vol) (s : State) : (s.onVol f).se = s.se := rfl
@[simp] theorem State.onVol_tal (f : Vol → Vol) (s : State) : (s.onVol f).tal = s.tal := rfl
@[simp] theorem State.onVol_pwr (f : Vol → Vol) (s : State) : (s.onVol f).pwr = s.pwr := rfl
@[simp] theorem State.onVol_net (f : Vol → Vol) (s : State) : (s.onVol f).net = s.net := rfl
@[simp] theorem State.onVol_qos (f : Vol → Vol) (s : State) : (s.onVol f).qos = s.qos := rfl
@[simp] theorem State.onVol_xpt (f : Vol → Vol) (s : State) : (s.onVol f).xpt = s.xpt := rfl
@[simp] theorem State.onVol_nvm (f : Vol → Vol) (s : State) : (s.onVol f).nvm = s.nvm := rfl
@[simp] theorem State.onVol_vol (f : Vol → Vol) (s : State) : (s.onVol f).vol = f s.vol := rfl
@[simp] theorem State.onVol_wbf (f : Vol → Vol) (s : State) : (s.onVol f).wbf = s.wbf := rfl
@[simp] theorem State.onVol_drv (f : Vol → Vol) (s : State) : (s.onVol f).drv = s.drv := rfl
@[simp] theorem State.onVol_key (f : Vol → Vol) (s : State) : (s.onVol f).key = s.key := rfl
@[simp] theorem State.onVol_links (f : Vol → Vol) (s : State) : (s.onVol f).links = s.links := rfl
@[simp] theorem State.onVol_pair (f : Vol → Vol) (s : State) : (s.onVol f).pair = s.pair := rfl
@[simp] theorem State.onVol_stk (f : Vol → Vol) (s : State) : (s.onVol f).stk = s.stk := rfl
@[simp] theorem State.onVol_mem (f : Vol → Vol) (s : State) : (s.onVol f).mem = s.mem := rfl
@[simp] theorem State.onVol_upd (f : Vol → Vol) (s : State) : (s.onVol f).upd = s.upd := rfl
@[simp] theorem State.onVol_woken (f : Vol → Vol) (s : State) : (s.onVol f).woken = s.woken := rfl
@[simp] theorem State.onVol_kwait (f : Vol → Vol) (s : State) : (s.onVol f).kwait = s.kwait := rfl

/-! ## onWbf -/

@[simp] theorem State.onWbf_pending (f : Wbf → Wbf) (s : State) : (s.onWbf f).pending = s.pending := rfl
@[simp] theorem State.onWbf_out (f : Wbf → Wbf) (s : State) : (s.onWbf f).out = s.out := rfl
@[simp] theorem State.onWbf_free (f : Wbf → Wbf) (s : State) : (s.onWbf f).free = s.free := rfl
@[simp] theorem State.onWbf_order (f : Wbf → Wbf) (s : State) : (s.onWbf f).order = s.order := rfl
@[simp] theorem State.onWbf_pins (f : Wbf → Wbf) (s : State) : (s.onWbf f).pins = s.pins := rfl
@[simp] theorem State.onWbf_bay (f : Wbf → Wbf) (s : State) : (s.onWbf f).bay = s.bay := rfl
@[simp] theorem State.onWbf_fe (f : Wbf → Wbf) (s : State) : (s.onWbf f).fe = s.fe := rfl
@[simp] theorem State.onWbf_res (f : Wbf → Wbf) (s : State) : (s.onWbf f).res = s.res := rfl
@[simp] theorem State.onWbf_th (f : Wbf → Wbf) (s : State) : (s.onWbf f).th = s.th := rfl
@[simp] theorem State.onWbf_clk (f : Wbf → Wbf) (s : State) : (s.onWbf f).clk = s.clk := rfl
@[simp] theorem State.onWbf_md (f : Wbf → Wbf) (s : State) : (s.onWbf f).md = s.md := rfl
@[simp] theorem State.onWbf_lb (f : Wbf → Wbf) (s : State) : (s.onWbf f).lb = s.lb := rfl
@[simp] theorem State.onWbf_se (f : Wbf → Wbf) (s : State) : (s.onWbf f).se = s.se := rfl
@[simp] theorem State.onWbf_tal (f : Wbf → Wbf) (s : State) : (s.onWbf f).tal = s.tal := rfl
@[simp] theorem State.onWbf_pwr (f : Wbf → Wbf) (s : State) : (s.onWbf f).pwr = s.pwr := rfl
@[simp] theorem State.onWbf_net (f : Wbf → Wbf) (s : State) : (s.onWbf f).net = s.net := rfl
@[simp] theorem State.onWbf_qos (f : Wbf → Wbf) (s : State) : (s.onWbf f).qos = s.qos := rfl
@[simp] theorem State.onWbf_xpt (f : Wbf → Wbf) (s : State) : (s.onWbf f).xpt = s.xpt := rfl
@[simp] theorem State.onWbf_nvm (f : Wbf → Wbf) (s : State) : (s.onWbf f).nvm = s.nvm := rfl
@[simp] theorem State.onWbf_vol (f : Wbf → Wbf) (s : State) : (s.onWbf f).vol = s.vol := rfl
@[simp] theorem State.onWbf_wbf (f : Wbf → Wbf) (s : State) : (s.onWbf f).wbf = f s.wbf := rfl
@[simp] theorem State.onWbf_drv (f : Wbf → Wbf) (s : State) : (s.onWbf f).drv = s.drv := rfl
@[simp] theorem State.onWbf_key (f : Wbf → Wbf) (s : State) : (s.onWbf f).key = s.key := rfl
@[simp] theorem State.onWbf_links (f : Wbf → Wbf) (s : State) : (s.onWbf f).links = s.links := rfl
@[simp] theorem State.onWbf_pair (f : Wbf → Wbf) (s : State) : (s.onWbf f).pair = s.pair := rfl
@[simp] theorem State.onWbf_stk (f : Wbf → Wbf) (s : State) : (s.onWbf f).stk = s.stk := rfl
@[simp] theorem State.onWbf_mem (f : Wbf → Wbf) (s : State) : (s.onWbf f).mem = s.mem := rfl
@[simp] theorem State.onWbf_upd (f : Wbf → Wbf) (s : State) : (s.onWbf f).upd = s.upd := rfl
@[simp] theorem State.onWbf_woken (f : Wbf → Wbf) (s : State) : (s.onWbf f).woken = s.woken := rfl
@[simp] theorem State.onWbf_kwait (f : Wbf → Wbf) (s : State) : (s.onWbf f).kwait = s.kwait := rfl

/-! ## onDrv -/

@[simp] theorem State.onDrv_pending (f : Drv → Drv) (s : State) : (s.onDrv f).pending = s.pending := rfl
@[simp] theorem State.onDrv_out (f : Drv → Drv) (s : State) : (s.onDrv f).out = s.out := rfl
@[simp] theorem State.onDrv_free (f : Drv → Drv) (s : State) : (s.onDrv f).free = s.free := rfl
@[simp] theorem State.onDrv_order (f : Drv → Drv) (s : State) : (s.onDrv f).order = s.order := rfl
@[simp] theorem State.onDrv_pins (f : Drv → Drv) (s : State) : (s.onDrv f).pins = s.pins := rfl
@[simp] theorem State.onDrv_bay (f : Drv → Drv) (s : State) : (s.onDrv f).bay = s.bay := rfl
@[simp] theorem State.onDrv_fe (f : Drv → Drv) (s : State) : (s.onDrv f).fe = s.fe := rfl
@[simp] theorem State.onDrv_res (f : Drv → Drv) (s : State) : (s.onDrv f).res = s.res := rfl
@[simp] theorem State.onDrv_th (f : Drv → Drv) (s : State) : (s.onDrv f).th = s.th := rfl
@[simp] theorem State.onDrv_clk (f : Drv → Drv) (s : State) : (s.onDrv f).clk = s.clk := rfl
@[simp] theorem State.onDrv_md (f : Drv → Drv) (s : State) : (s.onDrv f).md = s.md := rfl
@[simp] theorem State.onDrv_lb (f : Drv → Drv) (s : State) : (s.onDrv f).lb = s.lb := rfl
@[simp] theorem State.onDrv_se (f : Drv → Drv) (s : State) : (s.onDrv f).se = s.se := rfl
@[simp] theorem State.onDrv_tal (f : Drv → Drv) (s : State) : (s.onDrv f).tal = s.tal := rfl
@[simp] theorem State.onDrv_pwr (f : Drv → Drv) (s : State) : (s.onDrv f).pwr = s.pwr := rfl
@[simp] theorem State.onDrv_net (f : Drv → Drv) (s : State) : (s.onDrv f).net = s.net := rfl
@[simp] theorem State.onDrv_qos (f : Drv → Drv) (s : State) : (s.onDrv f).qos = s.qos := rfl
@[simp] theorem State.onDrv_xpt (f : Drv → Drv) (s : State) : (s.onDrv f).xpt = s.xpt := rfl
@[simp] theorem State.onDrv_nvm (f : Drv → Drv) (s : State) : (s.onDrv f).nvm = s.nvm := rfl
@[simp] theorem State.onDrv_vol (f : Drv → Drv) (s : State) : (s.onDrv f).vol = s.vol := rfl
@[simp] theorem State.onDrv_wbf (f : Drv → Drv) (s : State) : (s.onDrv f).wbf = s.wbf := rfl
@[simp] theorem State.onDrv_drv (f : Drv → Drv) (s : State) : (s.onDrv f).drv = f s.drv := rfl
@[simp] theorem State.onDrv_key (f : Drv → Drv) (s : State) : (s.onDrv f).key = s.key := rfl
@[simp] theorem State.onDrv_links (f : Drv → Drv) (s : State) : (s.onDrv f).links = s.links := rfl
@[simp] theorem State.onDrv_pair (f : Drv → Drv) (s : State) : (s.onDrv f).pair = s.pair := rfl
@[simp] theorem State.onDrv_stk (f : Drv → Drv) (s : State) : (s.onDrv f).stk = s.stk := rfl
@[simp] theorem State.onDrv_mem (f : Drv → Drv) (s : State) : (s.onDrv f).mem = s.mem := rfl
@[simp] theorem State.onDrv_upd (f : Drv → Drv) (s : State) : (s.onDrv f).upd = s.upd := rfl
@[simp] theorem State.onDrv_woken (f : Drv → Drv) (s : State) : (s.onDrv f).woken = s.woken := rfl
@[simp] theorem State.onDrv_kwait (f : Drv → Drv) (s : State) : (s.onDrv f).kwait = s.kwait := rfl

/-! ## onKey -/

@[simp] theorem State.onKey_pending (f : KeyDesk → KeyDesk) (s : State) : (s.onKey f).pending = s.pending := rfl
@[simp] theorem State.onKey_out (f : KeyDesk → KeyDesk) (s : State) : (s.onKey f).out = s.out := rfl
@[simp] theorem State.onKey_free (f : KeyDesk → KeyDesk) (s : State) : (s.onKey f).free = s.free := rfl
@[simp] theorem State.onKey_order (f : KeyDesk → KeyDesk) (s : State) : (s.onKey f).order = s.order := rfl
@[simp] theorem State.onKey_pins (f : KeyDesk → KeyDesk) (s : State) : (s.onKey f).pins = s.pins := rfl
@[simp] theorem State.onKey_bay (f : KeyDesk → KeyDesk) (s : State) : (s.onKey f).bay = s.bay := rfl
@[simp] theorem State.onKey_fe (f : KeyDesk → KeyDesk) (s : State) : (s.onKey f).fe = s.fe := rfl
@[simp] theorem State.onKey_res (f : KeyDesk → KeyDesk) (s : State) : (s.onKey f).res = s.res := rfl
@[simp] theorem State.onKey_th (f : KeyDesk → KeyDesk) (s : State) : (s.onKey f).th = s.th := rfl
@[simp] theorem State.onKey_clk (f : KeyDesk → KeyDesk) (s : State) : (s.onKey f).clk = s.clk := rfl
@[simp] theorem State.onKey_md (f : KeyDesk → KeyDesk) (s : State) : (s.onKey f).md = s.md := rfl
@[simp] theorem State.onKey_lb (f : KeyDesk → KeyDesk) (s : State) : (s.onKey f).lb = s.lb := rfl
@[simp] theorem State.onKey_se (f : KeyDesk → KeyDesk) (s : State) : (s.onKey f).se = s.se := rfl
@[simp] theorem State.onKey_tal (f : KeyDesk → KeyDesk) (s : State) : (s.onKey f).tal = s.tal := rfl
@[simp] theorem State.onKey_pwr (f : KeyDesk → KeyDesk) (s : State) : (s.onKey f).pwr = s.pwr := rfl
@[simp] theorem State.onKey_net (f : KeyDesk → KeyDesk) (s : State) : (s.onKey f).net = s.net := rfl
@[simp] theorem State.onKey_qos (f : KeyDesk → KeyDesk) (s : State) : (s.onKey f).qos = s.qos := rfl
@[simp] theorem State.onKey_xpt (f : KeyDesk → KeyDesk) (s : State) : (s.onKey f).xpt = s.xpt := rfl
@[simp] theorem State.onKey_nvm (f : KeyDesk → KeyDesk) (s : State) : (s.onKey f).nvm = s.nvm := rfl
@[simp] theorem State.onKey_vol (f : KeyDesk → KeyDesk) (s : State) : (s.onKey f).vol = s.vol := rfl
@[simp] theorem State.onKey_wbf (f : KeyDesk → KeyDesk) (s : State) : (s.onKey f).wbf = s.wbf := rfl
@[simp] theorem State.onKey_drv (f : KeyDesk → KeyDesk) (s : State) : (s.onKey f).drv = s.drv := rfl
@[simp] theorem State.onKey_key (f : KeyDesk → KeyDesk) (s : State) : (s.onKey f).key = f s.key := rfl
@[simp] theorem State.onKey_links (f : KeyDesk → KeyDesk) (s : State) : (s.onKey f).links = s.links := rfl
@[simp] theorem State.onKey_pair (f : KeyDesk → KeyDesk) (s : State) : (s.onKey f).pair = s.pair := rfl
@[simp] theorem State.onKey_stk (f : KeyDesk → KeyDesk) (s : State) : (s.onKey f).stk = s.stk := rfl
@[simp] theorem State.onKey_mem (f : KeyDesk → KeyDesk) (s : State) : (s.onKey f).mem = s.mem := rfl
@[simp] theorem State.onKey_upd (f : KeyDesk → KeyDesk) (s : State) : (s.onKey f).upd = s.upd := rfl
@[simp] theorem State.onKey_woken (f : KeyDesk → KeyDesk) (s : State) : (s.onKey f).woken = s.woken := rfl
@[simp] theorem State.onKey_kwait (f : KeyDesk → KeyDesk) (s : State) : (s.onKey f).kwait = s.kwait := rfl

/-! ## onLinks -/

@[simp] theorem State.onLinks_pending (f : Links → Links) (s : State) : (s.onLinks f).pending = s.pending := rfl
@[simp] theorem State.onLinks_out (f : Links → Links) (s : State) : (s.onLinks f).out = s.out := rfl
@[simp] theorem State.onLinks_free (f : Links → Links) (s : State) : (s.onLinks f).free = s.free := rfl
@[simp] theorem State.onLinks_order (f : Links → Links) (s : State) : (s.onLinks f).order = s.order := rfl
@[simp] theorem State.onLinks_pins (f : Links → Links) (s : State) : (s.onLinks f).pins = s.pins := rfl
@[simp] theorem State.onLinks_bay (f : Links → Links) (s : State) : (s.onLinks f).bay = s.bay := rfl
@[simp] theorem State.onLinks_fe (f : Links → Links) (s : State) : (s.onLinks f).fe = s.fe := rfl
@[simp] theorem State.onLinks_res (f : Links → Links) (s : State) : (s.onLinks f).res = s.res := rfl
@[simp] theorem State.onLinks_th (f : Links → Links) (s : State) : (s.onLinks f).th = s.th := rfl
@[simp] theorem State.onLinks_clk (f : Links → Links) (s : State) : (s.onLinks f).clk = s.clk := rfl
@[simp] theorem State.onLinks_md (f : Links → Links) (s : State) : (s.onLinks f).md = s.md := rfl
@[simp] theorem State.onLinks_lb (f : Links → Links) (s : State) : (s.onLinks f).lb = s.lb := rfl
@[simp] theorem State.onLinks_se (f : Links → Links) (s : State) : (s.onLinks f).se = s.se := rfl
@[simp] theorem State.onLinks_tal (f : Links → Links) (s : State) : (s.onLinks f).tal = s.tal := rfl
@[simp] theorem State.onLinks_pwr (f : Links → Links) (s : State) : (s.onLinks f).pwr = s.pwr := rfl
@[simp] theorem State.onLinks_net (f : Links → Links) (s : State) : (s.onLinks f).net = s.net := rfl
@[simp] theorem State.onLinks_qos (f : Links → Links) (s : State) : (s.onLinks f).qos = s.qos := rfl
@[simp] theorem State.onLinks_xpt (f : Links → Links) (s : State) : (s.onLinks f).xpt = s.xpt := rfl
@[simp] theorem State.onLinks_nvm (f : Links → Links) (s : State) : (s.onLinks f).nvm = s.nvm := rfl
@[simp] theorem State.onLinks_vol (f : Links → Links) (s : State) : (s.onLinks f).vol = s.vol := rfl
@[simp] theorem State.onLinks_wbf (f : Links → Links) (s : State) : (s.onLinks f).wbf = s.wbf := rfl
@[simp] theorem State.onLinks_drv (f : Links → Links) (s : State) : (s.onLinks f).drv = s.drv := rfl
@[simp] theorem State.onLinks_key (f : Links → Links) (s : State) : (s.onLinks f).key = s.key := rfl
@[simp] theorem State.onLinks_links (f : Links → Links) (s : State) : (s.onLinks f).links = f s.links := rfl
@[simp] theorem State.onLinks_pair (f : Links → Links) (s : State) : (s.onLinks f).pair = s.pair := rfl
@[simp] theorem State.onLinks_stk (f : Links → Links) (s : State) : (s.onLinks f).stk = s.stk := rfl
@[simp] theorem State.onLinks_mem (f : Links → Links) (s : State) : (s.onLinks f).mem = s.mem := rfl
@[simp] theorem State.onLinks_upd (f : Links → Links) (s : State) : (s.onLinks f).upd = s.upd := rfl
@[simp] theorem State.onLinks_woken (f : Links → Links) (s : State) : (s.onLinks f).woken = s.woken := rfl
@[simp] theorem State.onLinks_kwait (f : Links → Links) (s : State) : (s.onLinks f).kwait = s.kwait := rfl

/-! ## onPair -/

@[simp] theorem State.onPair_pending (f : Pair → Pair) (s : State) : (s.onPair f).pending = s.pending := rfl
@[simp] theorem State.onPair_out (f : Pair → Pair) (s : State) : (s.onPair f).out = s.out := rfl
@[simp] theorem State.onPair_free (f : Pair → Pair) (s : State) : (s.onPair f).free = s.free := rfl
@[simp] theorem State.onPair_order (f : Pair → Pair) (s : State) : (s.onPair f).order = s.order := rfl
@[simp] theorem State.onPair_pins (f : Pair → Pair) (s : State) : (s.onPair f).pins = s.pins := rfl
@[simp] theorem State.onPair_bay (f : Pair → Pair) (s : State) : (s.onPair f).bay = s.bay := rfl
@[simp] theorem State.onPair_fe (f : Pair → Pair) (s : State) : (s.onPair f).fe = s.fe := rfl
@[simp] theorem State.onPair_res (f : Pair → Pair) (s : State) : (s.onPair f).res = s.res := rfl
@[simp] theorem State.onPair_th (f : Pair → Pair) (s : State) : (s.onPair f).th = s.th := rfl
@[simp] theorem State.onPair_clk (f : Pair → Pair) (s : State) : (s.onPair f).clk = s.clk := rfl
@[simp] theorem State.onPair_md (f : Pair → Pair) (s : State) : (s.onPair f).md = s.md := rfl
@[simp] theorem State.onPair_lb (f : Pair → Pair) (s : State) : (s.onPair f).lb = s.lb := rfl
@[simp] theorem State.onPair_se (f : Pair → Pair) (s : State) : (s.onPair f).se = s.se := rfl
@[simp] theorem State.onPair_tal (f : Pair → Pair) (s : State) : (s.onPair f).tal = s.tal := rfl
@[simp] theorem State.onPair_pwr (f : Pair → Pair) (s : State) : (s.onPair f).pwr = s.pwr := rfl
@[simp] theorem State.onPair_net (f : Pair → Pair) (s : State) : (s.onPair f).net = s.net := rfl
@[simp] theorem State.onPair_qos (f : Pair → Pair) (s : State) : (s.onPair f).qos = s.qos := rfl
@[simp] theorem State.onPair_xpt (f : Pair → Pair) (s : State) : (s.onPair f).xpt = s.xpt := rfl
@[simp] theorem State.onPair_nvm (f : Pair → Pair) (s : State) : (s.onPair f).nvm = s.nvm := rfl
@[simp] theorem State.onPair_vol (f : Pair → Pair) (s : State) : (s.onPair f).vol = s.vol := rfl
@[simp] theorem State.onPair_wbf (f : Pair → Pair) (s : State) : (s.onPair f).wbf = s.wbf := rfl
@[simp] theorem State.onPair_drv (f : Pair → Pair) (s : State) : (s.onPair f).drv = s.drv := rfl
@[simp] theorem State.onPair_key (f : Pair → Pair) (s : State) : (s.onPair f).key = s.key := rfl
@[simp] theorem State.onPair_links (f : Pair → Pair) (s : State) : (s.onPair f).links = s.links := rfl
@[simp] theorem State.onPair_pair (f : Pair → Pair) (s : State) : (s.onPair f).pair = f s.pair := rfl
@[simp] theorem State.onPair_stk (f : Pair → Pair) (s : State) : (s.onPair f).stk = s.stk := rfl
@[simp] theorem State.onPair_mem (f : Pair → Pair) (s : State) : (s.onPair f).mem = s.mem := rfl
@[simp] theorem State.onPair_upd (f : Pair → Pair) (s : State) : (s.onPair f).upd = s.upd := rfl
@[simp] theorem State.onPair_woken (f : Pair → Pair) (s : State) : (s.onPair f).woken = s.woken := rfl
@[simp] theorem State.onPair_kwait (f : Pair → Pair) (s : State) : (s.onPair f).kwait = s.kwait := rfl

/-! ## onStk -/

@[simp] theorem State.onStk_pending (f : Stack → Stack) (s : State) : (s.onStk f).pending = s.pending := rfl
@[simp] theorem State.onStk_out (f : Stack → Stack) (s : State) : (s.onStk f).out = s.out := rfl
@[simp] theorem State.onStk_free (f : Stack → Stack) (s : State) : (s.onStk f).free = s.free := rfl
@[simp] theorem State.onStk_order (f : Stack → Stack) (s : State) : (s.onStk f).order = s.order := rfl
@[simp] theorem State.onStk_pins (f : Stack → Stack) (s : State) : (s.onStk f).pins = s.pins := rfl
@[simp] theorem State.onStk_bay (f : Stack → Stack) (s : State) : (s.onStk f).bay = s.bay := rfl
@[simp] theorem State.onStk_fe (f : Stack → Stack) (s : State) : (s.onStk f).fe = s.fe := rfl
@[simp] theorem State.onStk_res (f : Stack → Stack) (s : State) : (s.onStk f).res = s.res := rfl
@[simp] theorem State.onStk_th (f : Stack → Stack) (s : State) : (s.onStk f).th = s.th := rfl
@[simp] theorem State.onStk_clk (f : Stack → Stack) (s : State) : (s.onStk f).clk = s.clk := rfl
@[simp] theorem State.onStk_md (f : Stack → Stack) (s : State) : (s.onStk f).md = s.md := rfl
@[simp] theorem State.onStk_lb (f : Stack → Stack) (s : State) : (s.onStk f).lb = s.lb := rfl
@[simp] theorem State.onStk_se (f : Stack → Stack) (s : State) : (s.onStk f).se = s.se := rfl
@[simp] theorem State.onStk_tal (f : Stack → Stack) (s : State) : (s.onStk f).tal = s.tal := rfl
@[simp] theorem State.onStk_pwr (f : Stack → Stack) (s : State) : (s.onStk f).pwr = s.pwr := rfl
@[simp] theorem State.onStk_net (f : Stack → Stack) (s : State) : (s.onStk f).net = s.net := rfl
@[simp] theorem State.onStk_qos (f : Stack → Stack) (s : State) : (s.onStk f).qos = s.qos := rfl
@[simp] theorem State.onStk_xpt (f : Stack → Stack) (s : State) : (s.onStk f).xpt = s.xpt := rfl
@[simp] theorem State.onStk_nvm (f : Stack → Stack) (s : State) : (s.onStk f).nvm = s.nvm := rfl
@[simp] theorem State.onStk_vol (f : Stack → Stack) (s : State) : (s.onStk f).vol = s.vol := rfl
@[simp] theorem State.onStk_wbf (f : Stack → Stack) (s : State) : (s.onStk f).wbf = s.wbf := rfl
@[simp] theorem State.onStk_drv (f : Stack → Stack) (s : State) : (s.onStk f).drv = s.drv := rfl
@[simp] theorem State.onStk_key (f : Stack → Stack) (s : State) : (s.onStk f).key = s.key := rfl
@[simp] theorem State.onStk_links (f : Stack → Stack) (s : State) : (s.onStk f).links = s.links := rfl
@[simp] theorem State.onStk_pair (f : Stack → Stack) (s : State) : (s.onStk f).pair = s.pair := rfl
@[simp] theorem State.onStk_stk (f : Stack → Stack) (s : State) : (s.onStk f).stk = f s.stk := rfl
@[simp] theorem State.onStk_mem (f : Stack → Stack) (s : State) : (s.onStk f).mem = s.mem := rfl
@[simp] theorem State.onStk_upd (f : Stack → Stack) (s : State) : (s.onStk f).upd = s.upd := rfl
@[simp] theorem State.onStk_woken (f : Stack → Stack) (s : State) : (s.onStk f).woken = s.woken := rfl
@[simp] theorem State.onStk_kwait (f : Stack → Stack) (s : State) : (s.onStk f).kwait = s.kwait := rfl

/-! ## onMem -/

@[simp] theorem State.onMem_pending (f : Mem → Mem) (s : State) : (s.onMem f).pending = s.pending := rfl
@[simp] theorem State.onMem_out (f : Mem → Mem) (s : State) : (s.onMem f).out = s.out := rfl
@[simp] theorem State.onMem_free (f : Mem → Mem) (s : State) : (s.onMem f).free = s.free := rfl
@[simp] theorem State.onMem_order (f : Mem → Mem) (s : State) : (s.onMem f).order = s.order := rfl
@[simp] theorem State.onMem_pins (f : Mem → Mem) (s : State) : (s.onMem f).pins = s.pins := rfl
@[simp] theorem State.onMem_bay (f : Mem → Mem) (s : State) : (s.onMem f).bay = s.bay := rfl
@[simp] theorem State.onMem_fe (f : Mem → Mem) (s : State) : (s.onMem f).fe = s.fe := rfl
@[simp] theorem State.onMem_res (f : Mem → Mem) (s : State) : (s.onMem f).res = s.res := rfl
@[simp] theorem State.onMem_th (f : Mem → Mem) (s : State) : (s.onMem f).th = s.th := rfl
@[simp] theorem State.onMem_clk (f : Mem → Mem) (s : State) : (s.onMem f).clk = s.clk := rfl
@[simp] theorem State.onMem_md (f : Mem → Mem) (s : State) : (s.onMem f).md = s.md := rfl
@[simp] theorem State.onMem_lb (f : Mem → Mem) (s : State) : (s.onMem f).lb = s.lb := rfl
@[simp] theorem State.onMem_se (f : Mem → Mem) (s : State) : (s.onMem f).se = s.se := rfl
@[simp] theorem State.onMem_tal (f : Mem → Mem) (s : State) : (s.onMem f).tal = s.tal := rfl
@[simp] theorem State.onMem_pwr (f : Mem → Mem) (s : State) : (s.onMem f).pwr = s.pwr := rfl
@[simp] theorem State.onMem_net (f : Mem → Mem) (s : State) : (s.onMem f).net = s.net := rfl
@[simp] theorem State.onMem_qos (f : Mem → Mem) (s : State) : (s.onMem f).qos = s.qos := rfl
@[simp] theorem State.onMem_xpt (f : Mem → Mem) (s : State) : (s.onMem f).xpt = s.xpt := rfl
@[simp] theorem State.onMem_nvm (f : Mem → Mem) (s : State) : (s.onMem f).nvm = s.nvm := rfl
@[simp] theorem State.onMem_vol (f : Mem → Mem) (s : State) : (s.onMem f).vol = s.vol := rfl
@[simp] theorem State.onMem_wbf (f : Mem → Mem) (s : State) : (s.onMem f).wbf = s.wbf := rfl
@[simp] theorem State.onMem_drv (f : Mem → Mem) (s : State) : (s.onMem f).drv = s.drv := rfl
@[simp] theorem State.onMem_key (f : Mem → Mem) (s : State) : (s.onMem f).key = s.key := rfl
@[simp] theorem State.onMem_links (f : Mem → Mem) (s : State) : (s.onMem f).links = s.links := rfl
@[simp] theorem State.onMem_pair (f : Mem → Mem) (s : State) : (s.onMem f).pair = s.pair := rfl
@[simp] theorem State.onMem_stk (f : Mem → Mem) (s : State) : (s.onMem f).stk = s.stk := rfl
@[simp] theorem State.onMem_mem (f : Mem → Mem) (s : State) : (s.onMem f).mem = f s.mem := rfl
@[simp] theorem State.onMem_upd (f : Mem → Mem) (s : State) : (s.onMem f).upd = s.upd := rfl
@[simp] theorem State.onMem_woken (f : Mem → Mem) (s : State) : (s.onMem f).woken = s.woken := rfl
@[simp] theorem State.onMem_kwait (f : Mem → Mem) (s : State) : (s.onMem f).kwait = s.kwait := rfl

/-! ## onUpd -/

@[simp] theorem State.onUpd_pending (f : Upd → Upd) (s : State) : (s.onUpd f).pending = s.pending := rfl
@[simp] theorem State.onUpd_out (f : Upd → Upd) (s : State) : (s.onUpd f).out = s.out := rfl
@[simp] theorem State.onUpd_free (f : Upd → Upd) (s : State) : (s.onUpd f).free = s.free := rfl
@[simp] theorem State.onUpd_order (f : Upd → Upd) (s : State) : (s.onUpd f).order = s.order := rfl
@[simp] theorem State.onUpd_pins (f : Upd → Upd) (s : State) : (s.onUpd f).pins = s.pins := rfl
@[simp] theorem State.onUpd_bay (f : Upd → Upd) (s : State) : (s.onUpd f).bay = s.bay := rfl
@[simp] theorem State.onUpd_fe (f : Upd → Upd) (s : State) : (s.onUpd f).fe = s.fe := rfl
@[simp] theorem State.onUpd_res (f : Upd → Upd) (s : State) : (s.onUpd f).res = s.res := rfl
@[simp] theorem State.onUpd_th (f : Upd → Upd) (s : State) : (s.onUpd f).th = s.th := rfl
@[simp] theorem State.onUpd_clk (f : Upd → Upd) (s : State) : (s.onUpd f).clk = s.clk := rfl
@[simp] theorem State.onUpd_md (f : Upd → Upd) (s : State) : (s.onUpd f).md = s.md := rfl
@[simp] theorem State.onUpd_lb (f : Upd → Upd) (s : State) : (s.onUpd f).lb = s.lb := rfl
@[simp] theorem State.onUpd_se (f : Upd → Upd) (s : State) : (s.onUpd f).se = s.se := rfl
@[simp] theorem State.onUpd_tal (f : Upd → Upd) (s : State) : (s.onUpd f).tal = s.tal := rfl
@[simp] theorem State.onUpd_pwr (f : Upd → Upd) (s : State) : (s.onUpd f).pwr = s.pwr := rfl
@[simp] theorem State.onUpd_net (f : Upd → Upd) (s : State) : (s.onUpd f).net = s.net := rfl
@[simp] theorem State.onUpd_qos (f : Upd → Upd) (s : State) : (s.onUpd f).qos = s.qos := rfl
@[simp] theorem State.onUpd_xpt (f : Upd → Upd) (s : State) : (s.onUpd f).xpt = s.xpt := rfl
@[simp] theorem State.onUpd_nvm (f : Upd → Upd) (s : State) : (s.onUpd f).nvm = s.nvm := rfl
@[simp] theorem State.onUpd_vol (f : Upd → Upd) (s : State) : (s.onUpd f).vol = s.vol := rfl
@[simp] theorem State.onUpd_wbf (f : Upd → Upd) (s : State) : (s.onUpd f).wbf = s.wbf := rfl
@[simp] theorem State.onUpd_drv (f : Upd → Upd) (s : State) : (s.onUpd f).drv = s.drv := rfl
@[simp] theorem State.onUpd_key (f : Upd → Upd) (s : State) : (s.onUpd f).key = s.key := rfl
@[simp] theorem State.onUpd_links (f : Upd → Upd) (s : State) : (s.onUpd f).links = s.links := rfl
@[simp] theorem State.onUpd_pair (f : Upd → Upd) (s : State) : (s.onUpd f).pair = s.pair := rfl
@[simp] theorem State.onUpd_stk (f : Upd → Upd) (s : State) : (s.onUpd f).stk = s.stk := rfl
@[simp] theorem State.onUpd_mem (f : Upd → Upd) (s : State) : (s.onUpd f).mem = s.mem := rfl
@[simp] theorem State.onUpd_upd (f : Upd → Upd) (s : State) : (s.onUpd f).upd = f s.upd := rfl
@[simp] theorem State.onUpd_woken (f : Upd → Upd) (s : State) : (s.onUpd f).woken = s.woken := rfl
@[simp] theorem State.onUpd_kwait (f : Upd → Upd) (s : State) : (s.onUpd f).kwait = s.kwait := rfl

end Sys2Proof.Machine
end

