-- ==== Sys2Proof/Laws/Ops.lean ====
section
/-! SUPPORT. What the shared operations can change: everything but the log of what left the module, the Letterbox, the Service
Endpoint and the counters stays (`State.quiet`), with one lemma per operation and, from it, one per field. -/
namespace Sys2Proof.Machine

/-- The state without its log of what left the module, the Letterbox, the Service Endpoint and the counters. -/
def State.quiet (s : State) : State := { s with out := [], lb := {}, se := {}, tal := {} }

/-- States that agree on all but those four. -/
theorem quiet_eq {a b : State} (h : a.quiet = b.quiet) : a = { b with out := a.out, lb := a.lb, se := a.se, tal := a.tal } := by
  cases a; cases b
  simp only [State.quiet, State.mk.injEq] at h ⊢
  simp only [h, and_self]

/-- Agreement on all but those four is transitive. -/
theorem quiet_trans {a b c : State} (h : a.quiet = b.quiet) (k : b.quiet = c.quiet) : a.quiet = c.quiet := h.trans k

@[simp] theorem onLb_quiet (f : Letterbox → Letterbox) (s : State) : (s.onLb f).quiet = s.quiet := rfl
@[simp] theorem onSe_quiet (f : Se → Se) (s : State) : (s.onSe f).quiet = s.quiet := rfl
@[simp] theorem onTal_quiet (f : Tally → Tally) (s : State) : (s.onTal f).quiet = s.quiet := rfl
@[simp] theorem send_quiet (m : OutMsg) (s : State) : (send m s).quiet = s.quiet := rfl

/-- A fold of operations that keep `quiet` keeps it. -/
theorem foldl_quiet {α : Type} (f : State → α → State) (h : ∀ t x, (f t x).quiet = t.quiet) (xs : List α) (s : State) :
    (xs.foldl f s).quiet = s.quiet := by
  induction xs generalizing s with
  | nil => rfl
  | cons x xs ih => rw [List.foldl_cons, ih, h]

/-- So does one through `forAll`. -/
theorem forAll_quiet {α : Type} (f : α → State → State) (h : ∀ x t, (f x t).quiet = t.quiet) (xs : List α) (s : State) :
    (forAll xs f s).quiet = s.quiet := foldl_quiet _ (fun t x => h x t) xs s

/-- And a conditional one. -/
theorem doIf_quiet (b : Bool) (f : State → State) (h : ∀ t, (f t).quiet = t.quiet) (s : State) : (doIf b f s).quiet = s.quiet := by
  cases b <;> simp [doIf, h]

@[simp] theorem onDoor_quiet (d : Nat) (f : Door → Door) (s : State) : (onDoor d f s).quiet = s.quiet := by
  unfold onDoor; split <;> rfl

@[simp] theorem signalVec_quiet (v : Nat) (s : State) : (signalVec v s).quiet = s.quiet := by
  unfold signalVec; dsimp only; split <;> simp

@[simp] theorem settle_quiet (d : Nat) (s : State) : (settle d s).quiet = s.quiet := by
  unfold settle; dsimp only; split <;> simp

@[simp] theorem pushEvent_quiet (d : Nat) (c : Bool) (ev st : Nat) (param tag : Word) (s : State) :
    (pushEvent d c ev st param tag s).quiet = s.quiet := by simp [pushEvent]

@[simp] theorem bump_quiet (n k : Nat) (s : State) : (bump n k s).quiet = s.quiet := by
  unfold bump; split <;> simp

@[simp] theorem storeOrdinary_quiet (ev : Nat) (param : Word) (d : Nat) (s : State) : (storeOrdinary ev param d s).1.quiet = s.quiet := by
  unfold storeOrdinary; dsimp only; split
  · rfl
  · split <;> simp

@[simp] theorem raiseAt_quiet (fuel : Nat) (ds : List Nat) (ev : Nat) (param : Word) (s : State) :
    (raiseAt fuel ds ev param s).quiet = s.quiet := by
  induction fuel generalizing ds ev param s with
  | zero => rfl
  | succ n ih =>
    unfold raiseAt
    refine foldl_quiet _ (fun t d => ?_) ds s
    have h := storeOrdinary_quiet ev param d t
    rcases e : storeOrdinary ev param d t with ⟨u, told⟩
    rw [e] at h
    cases told
    · exact h
    · exact (ih _ _ _ _).trans h

@[simp] theorem raiseOverflow_quiet (n : Nat) (s : State) : (raiseOverflow n s).quiet = s.quiet := by
  
  have h : ∀ b : Bool, (if b = true then s else raiseAt 4 [0, 1, 2] 960 (word n) (s.onTal fun t => { t with ovfAt := some s.clk.now })).quiet = s.quiet := by
    intro b
    cases b
    · exact (raiseAt_quiet _ _ _ _ _).trans (onTal_quiet _ s)
    · rfl
  exact h _

@[simp] theorem count_quiet (n k : Nat) (s : State) : (count n k s).quiet = s.quiet := by
  unfold count; exact (doIf_quiet _ _ (fun t => raiseOverflow_quiet n t) _).trans (bump_quiet n k s)

@[simp] theorem count1_quiet (n : Nat) (s : State) : (count1 n s).quiet = s.quiet := count_quiet n 1 s

@[simp] theorem raise_quiet (ev : Nat) (param : Word) (s : State) : (raise ev param s).quiet = s.quiet := raiseAt_quiet _ _ _ _ s

@[simp] theorem complete_quiet (d : Nat) (tag : Word) (ev st : Nat) (param : Word) (s : State) :
    (complete d tag ev st param s).quiet = s.quiet := by
  unfold complete; split
  · rfl
  · split <;> simp

@[simp] theorem finish_quiet (p : Running → Bool) (ev st : Nat) (param : Word) (s : State) : (finish p ev st param s).quiet = s.quiet := by
  unfold finish
  exact (raiseAt_quiet _ _ _ _ _).trans ((foldl_quiet _ (fun t r => complete_quiet _ _ _ _ _ t) _ _).trans (onLb_quiet _ s))

@[simp] theorem finishOnly_quiet (p : Running → Bool) (ev st : Nat) (param : Word) (s : State) :
    (finishOnly p ev st param s).quiet = s.quiet := by
  unfold finishOnly
  exact (foldl_quiet _ (fun t r => complete_quiet _ _ _ _ _ t) _ _).trans (onLb_quiet _ s)

@[simp] theorem accept_quiet (p : Packet) (op key key2 : Nat) (s : State) : (accept p op key key2 s).quiet = s.quiet := rfl

@[simp] theorem post_quiet (d : Nat) (tag : Word) (orphan : Bool) (st : Nat) (ws : List Word) (s : State) :
    (post d tag orphan st ws s).quiet = s.quiet := by
  unfold post; split
  · rfl
  · exact (onLb_quiet _ _).trans (doIf_quiet _ _ (fun t => count1_quiet _ t) s)

@[simp] theorem releaseLock_quiet (s : State) : (releaseLock s).quiet = s.quiet := rfl


/-! ## send -/

@[simp] theorem send_pending (m : OutMsg) (s : State) : (send m s).pending = s.pending := by have h := congrArg State.pending (send_quiet m s); exact h
@[simp] theorem send_free (m : OutMsg) (s : State) : (send m s).free = s.free := by have h := congrArg State.free (send_quiet m s); exact h
@[simp] theorem send_order (m : OutMsg) (s : State) : (send m s).order = s.order := by have h := congrArg State.order (send_quiet m s); exact h
@[simp] theorem send_pins (m : OutMsg) (s : State) : (send m s).pins = s.pins := by have h := congrArg State.pins (send_quiet m s); exact h
@[simp] theorem send_bay (m : OutMsg) (s : State) : (send m s).bay = s.bay := by have h := congrArg State.bay (send_quiet m s); exact h
@[simp] theorem send_fe (m : OutMsg) (s : State) : (send m s).fe = s.fe := by have h := congrArg State.fe (send_quiet m s); exact h
@[simp] theorem send_res (m : OutMsg) (s : State) : (send m s).res = s.res := by have h := congrArg State.res (send_quiet m s); exact h
@[simp] theorem send_th (m : OutMsg) (s : State) : (send m s).th = s.th := by have h := congrArg State.th (send_quiet m s); exact h
@[simp] theorem send_clk (m : OutMsg) (s : State) : (send m s).clk = s.clk := by have h := congrArg State.clk (send_quiet m s); exact h
@[simp] theorem send_md (m : OutMsg) (s : State) : (send m s).md = s.md := by have h := congrArg State.md (send_quiet m s); exact h
@[simp] theorem send_pwr (m : OutMsg) (s : State) : (send m s).pwr = s.pwr := by have h := congrArg State.pwr (send_quiet m s); exact h
@[simp] theorem send_net (m : OutMsg) (s : State) : (send m s).net = s.net := by have h := congrArg State.net (send_quiet m s); exact h
@[simp] theorem send_qos (m : OutMsg) (s : State) : (send m s).qos = s.qos := by have h := congrArg State.qos (send_quiet m s); exact h
@[simp] theorem send_xpt (m : OutMsg) (s : State) : (send m s).xpt = s.xpt := by have h := congrArg State.xpt (send_quiet m s); exact h
@[simp] theorem send_nvm (m : OutMsg) (s : State) : (send m s).nvm = s.nvm := by have h := congrArg State.nvm (send_quiet m s); exact h
@[simp] theorem send_vol (m : OutMsg) (s : State) : (send m s).vol = s.vol := by have h := congrArg State.vol (send_quiet m s); exact h
@[simp] theorem send_wbf (m : OutMsg) (s : State) : (send m s).wbf = s.wbf := by have h := congrArg State.wbf (send_quiet m s); exact h
@[simp] theorem send_drv (m : OutMsg) (s : State) : (send m s).drv = s.drv := by have h := congrArg State.drv (send_quiet m s); exact h
@[simp] theorem send_key (m : OutMsg) (s : State) : (send m s).key = s.key := by have h := congrArg State.key (send_quiet m s); exact h
@[simp] theorem send_links (m : OutMsg) (s : State) : (send m s).links = s.links := by have h := congrArg State.links (send_quiet m s); exact h
@[simp] theorem send_pair (m : OutMsg) (s : State) : (send m s).pair = s.pair := by have h := congrArg State.pair (send_quiet m s); exact h
@[simp] theorem send_stk (m : OutMsg) (s : State) : (send m s).stk = s.stk := by have h := congrArg State.stk (send_quiet m s); exact h
@[simp] theorem send_mem (m : OutMsg) (s : State) : (send m s).mem = s.mem := by have h := congrArg State.mem (send_quiet m s); exact h
@[simp] theorem send_upd (m : OutMsg) (s : State) : (send m s).upd = s.upd := by have h := congrArg State.upd (send_quiet m s); exact h
@[simp] theorem send_woken (m : OutMsg) (s : State) : (send m s).woken = s.woken := by have h := congrArg State.woken (send_quiet m s); exact h
@[simp] theorem send_kwait (m : OutMsg) (s : State) : (send m s).kwait = s.kwait := by have h := congrArg State.kwait (send_quiet m s); exact h

/-! ## onDoor -/

@[simp] theorem onDoor_pending (d : Nat) (f : Door → Door) (s : State) : (onDoor d f s).pending = s.pending := by have h := congrArg State.pending (onDoor_quiet d f s); exact h
@[simp] theorem onDoor_free (d : Nat) (f : Door → Door) (s : State) : (onDoor d f s).free = s.free := by have h := congrArg State.free (onDoor_quiet d f s); exact h
@[simp] theorem onDoor_order (d : Nat) (f : Door → Door) (s : State) : (onDoor d f s).order = s.order := by have h := congrArg State.order (onDoor_quiet d f s); exact h
@[simp] theorem onDoor_pins (d : Nat) (f : Door → Door) (s : State) : (onDoor d f s).pins = s.pins := by have h := congrArg State.pins (onDoor_quiet d f s); exact h
@[simp] theorem onDoor_bay (d : Nat) (f : Door → Door) (s : State) : (onDoor d f s).bay = s.bay := by have h := congrArg State.bay (onDoor_quiet d f s); exact h
@[simp] theorem onDoor_fe (d : Nat) (f : Door → Door) (s : State) : (onDoor d f s).fe = s.fe := by have h := congrArg State.fe (onDoor_quiet d f s); exact h
@[simp] theorem onDoor_res (d : Nat) (f : Door → Door) (s : State) : (onDoor d f s).res = s.res := by have h := congrArg State.res (onDoor_quiet d f s); exact h
@[simp] theorem onDoor_th (d : Nat) (f : Door → Door) (s : State) : (onDoor d f s).th = s.th := by have h := congrArg State.th (onDoor_quiet d f s); exact h
@[simp] theorem onDoor_clk (d : Nat) (f : Door → Door) (s : State) : (onDoor d f s).clk = s.clk := by have h := congrArg State.clk (onDoor_quiet d f s); exact h
@[simp] theorem onDoor_md (d : Nat) (f : Door → Door) (s : State) : (onDoor d f s).md = s.md := by have h := congrArg State.md (onDoor_quiet d f s); exact h
@[simp] theorem onDoor_pwr (d : Nat) (f : Door → Door) (s : State) : (onDoor d f s).pwr = s.pwr := by have h := congrArg State.pwr (onDoor_quiet d f s); exact h
@[simp] theorem onDoor_net (d : Nat) (f : Door → Door) (s : State) : (onDoor d f s).net = s.net := by have h := congrArg State.net (onDoor_quiet d f s); exact h
@[simp] theorem onDoor_qos (d : Nat) (f : Door → Door) (s : State) : (onDoor d f s).qos = s.qos := by have h := congrArg State.qos (onDoor_quiet d f s); exact h
@[simp] theorem onDoor_xpt (d : Nat) (f : Door → Door) (s : State) : (onDoor d f s).xpt = s.xpt := by have h := congrArg State.xpt (onDoor_quiet d f s); exact h
@[simp] theorem onDoor_nvm (d : Nat) (f : Door → Door) (s : State) : (onDoor d f s).nvm = s.nvm := by have h := congrArg State.nvm (onDoor_quiet d f s); exact h
@[simp] theorem onDoor_vol (d : Nat) (f : Door → Door) (s : State) : (onDoor d f s).vol = s.vol := by have h := congrArg State.vol (onDoor_quiet d f s); exact h
@[simp] theorem onDoor_wbf (d : Nat) (f : Door → Door) (s : State) : (onDoor d f s).wbf = s.wbf := by have h := congrArg State.wbf (onDoor_quiet d f s); exact h
@[simp] theorem onDoor_drv (d : Nat) (f : Door → Door) (s : State) : (onDoor d f s).drv = s.drv := by have h := congrArg State.drv (onDoor_quiet d f s); exact h
@[simp] theorem onDoor_key (d : Nat) (f : Door → Door) (s : State) : (onDoor d f s).key = s.key := by have h := congrArg State.key (onDoor_quiet d f s); exact h
@[simp] theorem onDoor_links (d : Nat) (f : Door → Door) (s : State) : (onDoor d f s).links = s.links := by have h := congrArg State.links (onDoor_quiet d f s); exact h
@[simp] theorem onDoor_pair (d : Nat) (f : Door → Door) (s : State) : (onDoor d f s).pair = s.pair := by have h := congrArg State.pair (onDoor_quiet d f s); exact h
@[simp] theorem onDoor_stk (d : Nat) (f : Door → Door) (s : State) : (onDoor d f s).stk = s.stk := by have h := congrArg State.stk (onDoor_quiet d f s); exact h
@[simp] theorem onDoor_mem (d : Nat) (f : Door → Door) (s : State) : (onDoor d f s).mem = s.mem := by have h := congrArg State.mem (onDoor_quiet d f s); exact h
@[simp] theorem onDoor_upd (d : Nat) (f : Door → Door) (s : State) : (onDoor d f s).upd = s.upd := by have h := congrArg State.upd (onDoor_quiet d f s); exact h
@[simp] theorem onDoor_woken (d : Nat) (f : Door → Door) (s : State) : (onDoor d f s).woken = s.woken := by have h := congrArg State.woken (onDoor_quiet d f s); exact h
@[simp] theorem onDoor_kwait (d : Nat) (f : Door → Door) (s : State) : (onDoor d f s).kwait = s.kwait := by have h := congrArg State.kwait (onDoor_quiet d f s); exact h

/-! ## settle -/

@[simp] theorem settle_pending (d : Nat) (s : State) : (settle d s).pending = s.pending := by have h := congrArg State.pending (settle_quiet d s); exact h
@[simp] theorem settle_free (d : Nat) (s : State) : (settle d s).free = s.free := by have h := congrArg State.free (settle_quiet d s); exact h
@[simp] theorem settle_order (d : Nat) (s : State) : (settle d s).order = s.order := by have h := congrArg State.order (settle_quiet d s); exact h
@[simp] theorem settle_pins (d : Nat) (s : State) : (settle d s).pins = s.pins := by have h := congrArg State.pins (settle_quiet d s); exact h
@[simp] theorem settle_bay (d : Nat) (s : State) : (settle d s).bay = s.bay := by have h := congrArg State.bay (settle_quiet d s); exact h
@[simp] theorem settle_fe (d : Nat) (s : State) : (settle d s).fe = s.fe := by have h := congrArg State.fe (settle_quiet d s); exact h
@[simp] theorem settle_res (d : Nat) (s : State) : (settle d s).res = s.res := by have h := congrArg State.res (settle_quiet d s); exact h
@[simp] theorem settle_th (d : Nat) (s : State) : (settle d s).th = s.th := by have h := congrArg State.th (settle_quiet d s); exact h
@[simp] theorem settle_clk (d : Nat) (s : State) : (settle d s).clk = s.clk := by have h := congrArg State.clk (settle_quiet d s); exact h
@[simp] theorem settle_md (d : Nat) (s : State) : (settle d s).md = s.md := by have h := congrArg State.md (settle_quiet d s); exact h
@[simp] theorem settle_pwr (d : Nat) (s : State) : (settle d s).pwr = s.pwr := by have h := congrArg State.pwr (settle_quiet d s); exact h
@[simp] theorem settle_net (d : Nat) (s : State) : (settle d s).net = s.net := by have h := congrArg State.net (settle_quiet d s); exact h
@[simp] theorem settle_qos (d : Nat) (s : State) : (settle d s).qos = s.qos := by have h := congrArg State.qos (settle_quiet d s); exact h
@[simp] theorem settle_xpt (d : Nat) (s : State) : (settle d s).xpt = s.xpt := by have h := congrArg State.xpt (settle_quiet d s); exact h
@[simp] theorem settle_nvm (d : Nat) (s : State) : (settle d s).nvm = s.nvm := by have h := congrArg State.nvm (settle_quiet d s); exact h
@[simp] theorem settle_vol (d : Nat) (s : State) : (settle d s).vol = s.vol := by have h := congrArg State.vol (settle_quiet d s); exact h
@[simp] theorem settle_wbf (d : Nat) (s : State) : (settle d s).wbf = s.wbf := by have h := congrArg State.wbf (settle_quiet d s); exact h
@[simp] theorem settle_drv (d : Nat) (s : State) : (settle d s).drv = s.drv := by have h := congrArg State.drv (settle_quiet d s); exact h
@[simp] theorem settle_key (d : Nat) (s : State) : (settle d s).key = s.key := by have h := congrArg State.key (settle_quiet d s); exact h
@[simp] theorem settle_links (d : Nat) (s : State) : (settle d s).links = s.links := by have h := congrArg State.links (settle_quiet d s); exact h
@[simp] theorem settle_pair (d : Nat) (s : State) : (settle d s).pair = s.pair := by have h := congrArg State.pair (settle_quiet d s); exact h
@[simp] theorem settle_stk (d : Nat) (s : State) : (settle d s).stk = s.stk := by have h := congrArg State.stk (settle_quiet d s); exact h
@[simp] theorem settle_mem (d : Nat) (s : State) : (settle d s).mem = s.mem := by have h := congrArg State.mem (settle_quiet d s); exact h
@[simp] theorem settle_upd (d : Nat) (s : State) : (settle d s).upd = s.upd := by have h := congrArg State.upd (settle_quiet d s); exact h
@[simp] theorem settle_woken (d : Nat) (s : State) : (settle d s).woken = s.woken := by have h := congrArg State.woken (settle_quiet d s); exact h
@[simp] theorem settle_kwait (d : Nat) (s : State) : (settle d s).kwait = s.kwait := by have h := congrArg State.kwait (settle_quiet d s); exact h

/-! ## signalVec -/

@[simp] theorem signalVec_pending (v : Nat) (s : State) : (signalVec v s).pending = s.pending := by have h := congrArg State.pending (signalVec_quiet v s); exact h
@[simp] theorem signalVec_free (v : Nat) (s : State) : (signalVec v s).free = s.free := by have h := congrArg State.free (signalVec_quiet v s); exact h
@[simp] theorem signalVec_order (v : Nat) (s : State) : (signalVec v s).order = s.order := by have h := congrArg State.order (signalVec_quiet v s); exact h
@[simp] theorem signalVec_pins (v : Nat) (s : State) : (signalVec v s).pins = s.pins := by have h := congrArg State.pins (signalVec_quiet v s); exact h
@[simp] theorem signalVec_bay (v : Nat) (s : State) : (signalVec v s).bay = s.bay := by have h := congrArg State.bay (signalVec_quiet v s); exact h
@[simp] theorem signalVec_fe (v : Nat) (s : State) : (signalVec v s).fe = s.fe := by have h := congrArg State.fe (signalVec_quiet v s); exact h
@[simp] theorem signalVec_res (v : Nat) (s : State) : (signalVec v s).res = s.res := by have h := congrArg State.res (signalVec_quiet v s); exact h
@[simp] theorem signalVec_th (v : Nat) (s : State) : (signalVec v s).th = s.th := by have h := congrArg State.th (signalVec_quiet v s); exact h
@[simp] theorem signalVec_clk (v : Nat) (s : State) : (signalVec v s).clk = s.clk := by have h := congrArg State.clk (signalVec_quiet v s); exact h
@[simp] theorem signalVec_md (v : Nat) (s : State) : (signalVec v s).md = s.md := by have h := congrArg State.md (signalVec_quiet v s); exact h
@[simp] theorem signalVec_pwr (v : Nat) (s : State) : (signalVec v s).pwr = s.pwr := by have h := congrArg State.pwr (signalVec_quiet v s); exact h
@[simp] theorem signalVec_net (v : Nat) (s : State) : (signalVec v s).net = s.net := by have h := congrArg State.net (signalVec_quiet v s); exact h
@[simp] theorem signalVec_qos (v : Nat) (s : State) : (signalVec v s).qos = s.qos := by have h := congrArg State.qos (signalVec_quiet v s); exact h
@[simp] theorem signalVec_xpt (v : Nat) (s : State) : (signalVec v s).xpt = s.xpt := by have h := congrArg State.xpt (signalVec_quiet v s); exact h
@[simp] theorem signalVec_nvm (v : Nat) (s : State) : (signalVec v s).nvm = s.nvm := by have h := congrArg State.nvm (signalVec_quiet v s); exact h
@[simp] theorem signalVec_vol (v : Nat) (s : State) : (signalVec v s).vol = s.vol := by have h := congrArg State.vol (signalVec_quiet v s); exact h
@[simp] theorem signalVec_wbf (v : Nat) (s : State) : (signalVec v s).wbf = s.wbf := by have h := congrArg State.wbf (signalVec_quiet v s); exact h
@[simp] theorem signalVec_drv (v : Nat) (s : State) : (signalVec v s).drv = s.drv := by have h := congrArg State.drv (signalVec_quiet v s); exact h
@[simp] theorem signalVec_key (v : Nat) (s : State) : (signalVec v s).key = s.key := by have h := congrArg State.key (signalVec_quiet v s); exact h
@[simp] theorem signalVec_links (v : Nat) (s : State) : (signalVec v s).links = s.links := by have h := congrArg State.links (signalVec_quiet v s); exact h
@[simp] theorem signalVec_pair (v : Nat) (s : State) : (signalVec v s).pair = s.pair := by have h := congrArg State.pair (signalVec_quiet v s); exact h
@[simp] theorem signalVec_stk (v : Nat) (s : State) : (signalVec v s).stk = s.stk := by have h := congrArg State.stk (signalVec_quiet v s); exact h
@[simp] theorem signalVec_mem (v : Nat) (s : State) : (signalVec v s).mem = s.mem := by have h := congrArg State.mem (signalVec_quiet v s); exact h
@[simp] theorem signalVec_upd (v : Nat) (s : State) : (signalVec v s).upd = s.upd := by have h := congrArg State.upd (signalVec_quiet v s); exact h
@[simp] theorem signalVec_woken (v : Nat) (s : State) : (signalVec v s).woken = s.woken := by have h := congrArg State.woken (signalVec_quiet v s); exact h
@[simp] theorem signalVec_kwait (v : Nat) (s : State) : (signalVec v s).kwait = s.kwait := by have h := congrArg State.kwait (signalVec_quiet v s); exact h

/-! ## pushEvent -/

@[simp] theorem pushEvent_pending (d : Nat) (c : Bool) (ev st : Nat) (param tag : Word) (s : State) : (pushEvent d c ev st param tag s).pending = s.pending := by have h := congrArg State.pending (pushEvent_quiet d c ev st param tag s); exact h
@[simp] theorem pushEvent_free (d : Nat) (c : Bool) (ev st : Nat) (param tag : Word) (s : State) : (pushEvent d c ev st param tag s).free = s.free := by have h := congrArg State.free (pushEvent_quiet d c ev st param tag s); exact h
@[simp] theorem pushEvent_order (d : Nat) (c : Bool) (ev st : Nat) (param tag : Word) (s : State) : (pushEvent d c ev st param tag s).order = s.order := by have h := congrArg State.order (pushEvent_quiet d c ev st param tag s); exact h
@[simp] theorem pushEvent_pins (d : Nat) (c : Bool) (ev st : Nat) (param tag : Word) (s : State) : (pushEvent d c ev st param tag s).pins = s.pins := by have h := congrArg State.pins (pushEvent_quiet d c ev st param tag s); exact h
@[simp] theorem pushEvent_bay (d : Nat) (c : Bool) (ev st : Nat) (param tag : Word) (s : State) : (pushEvent d c ev st param tag s).bay = s.bay := by have h := congrArg State.bay (pushEvent_quiet d c ev st param tag s); exact h
@[simp] theorem pushEvent_fe (d : Nat) (c : Bool) (ev st : Nat) (param tag : Word) (s : State) : (pushEvent d c ev st param tag s).fe = s.fe := by have h := congrArg State.fe (pushEvent_quiet d c ev st param tag s); exact h
@[simp] theorem pushEvent_res (d : Nat) (c : Bool) (ev st : Nat) (param tag : Word) (s : State) : (pushEvent d c ev st param tag s).res = s.res := by have h := congrArg State.res (pushEvent_quiet d c ev st param tag s); exact h
@[simp] theorem pushEvent_th (d : Nat) (c : Bool) (ev st : Nat) (param tag : Word) (s : State) : (pushEvent d c ev st param tag s).th = s.th := by have h := congrArg State.th (pushEvent_quiet d c ev st param tag s); exact h
@[simp] theorem pushEvent_clk (d : Nat) (c : Bool) (ev st : Nat) (param tag : Word) (s : State) : (pushEvent d c ev st param tag s).clk = s.clk := by have h := congrArg State.clk (pushEvent_quiet d c ev st param tag s); exact h
@[simp] theorem pushEvent_md (d : Nat) (c : Bool) (ev st : Nat) (param tag : Word) (s : State) : (pushEvent d c ev st param tag s).md = s.md := by have h := congrArg State.md (pushEvent_quiet d c ev st param tag s); exact h
@[simp] theorem pushEvent_pwr (d : Nat) (c : Bool) (ev st : Nat) (param tag : Word) (s : State) : (pushEvent d c ev st param tag s).pwr = s.pwr := by have h := congrArg State.pwr (pushEvent_quiet d c ev st param tag s); exact h
@[simp] theorem pushEvent_net (d : Nat) (c : Bool) (ev st : Nat) (param tag : Word) (s : State) : (pushEvent d c ev st param tag s).net = s.net := by have h := congrArg State.net (pushEvent_quiet d c ev st param tag s); exact h
@[simp] theorem pushEvent_qos (d : Nat) (c : Bool) (ev st : Nat) (param tag : Word) (s : State) : (pushEvent d c ev st param tag s).qos = s.qos := by have h := congrArg State.qos (pushEvent_quiet d c ev st param tag s); exact h
@[simp] theorem pushEvent_xpt (d : Nat) (c : Bool) (ev st : Nat) (param tag : Word) (s : State) : (pushEvent d c ev st param tag s).xpt = s.xpt := by have h := congrArg State.xpt (pushEvent_quiet d c ev st param tag s); exact h
@[simp] theorem pushEvent_nvm (d : Nat) (c : Bool) (ev st : Nat) (param tag : Word) (s : State) : (pushEvent d c ev st param tag s).nvm = s.nvm := by have h := congrArg State.nvm (pushEvent_quiet d c ev st param tag s); exact h
@[simp] theorem pushEvent_vol (d : Nat) (c : Bool) (ev st : Nat) (param tag : Word) (s : State) : (pushEvent d c ev st param tag s).vol = s.vol := by have h := congrArg State.vol (pushEvent_quiet d c ev st param tag s); exact h
@[simp] theorem pushEvent_wbf (d : Nat) (c : Bool) (ev st : Nat) (param tag : Word) (s : State) : (pushEvent d c ev st param tag s).wbf = s.wbf := by have h := congrArg State.wbf (pushEvent_quiet d c ev st param tag s); exact h
@[simp] theorem pushEvent_drv (d : Nat) (c : Bool) (ev st : Nat) (param tag : Word) (s : State) : (pushEvent d c ev st param tag s).drv = s.drv := by have h := congrArg State.drv (pushEvent_quiet d c ev st param tag s); exact h
@[simp] theorem pushEvent_key (d : Nat) (c : Bool) (ev st : Nat) (param tag : Word) (s : State) : (pushEvent d c ev st param tag s).key = s.key := by have h := congrArg State.key (pushEvent_quiet d c ev st param tag s); exact h
@[simp] theorem pushEvent_links (d : Nat) (c : Bool) (ev st : Nat) (param tag : Word) (s : State) : (pushEvent d c ev st param tag s).links = s.links := by have h := congrArg State.links (pushEvent_quiet d c ev st param tag s); exact h
@[simp] theorem pushEvent_pair (d : Nat) (c : Bool) (ev st : Nat) (param tag : Word) (s : State) : (pushEvent d c ev st param tag s).pair = s.pair := by have h := congrArg State.pair (pushEvent_quiet d c ev st param tag s); exact h
@[simp] theorem pushEvent_stk (d : Nat) (c : Bool) (ev st : Nat) (param tag : Word) (s : State) : (pushEvent d c ev st param tag s).stk = s.stk := by have h := congrArg State.stk (pushEvent_quiet d c ev st param tag s); exact h
@[simp] theorem pushEvent_mem (d : Nat) (c : Bool) (ev st : Nat) (param tag : Word) (s : State) : (pushEvent d c ev st param tag s).mem = s.mem := by have h := congrArg State.mem (pushEvent_quiet d c ev st param tag s); exact h
@[simp] theorem pushEvent_upd (d : Nat) (c : Bool) (ev st : Nat) (param tag : Word) (s : State) : (pushEvent d c ev st param tag s).upd = s.upd := by have h := congrArg State.upd (pushEvent_quiet d c ev st param tag s); exact h
@[simp] theorem pushEvent_woken (d : Nat) (c : Bool) (ev st : Nat) (param tag : Word) (s : State) : (pushEvent d c ev st param tag s).woken = s.woken := by have h := congrArg State.woken (pushEvent_quiet d c ev st param tag s); exact h
@[simp] theorem pushEvent_kwait (d : Nat) (c : Bool) (ev st : Nat) (param tag : Word) (s : State) : (pushEvent d c ev st param tag s).kwait = s.kwait := by have h := congrArg State.kwait (pushEvent_quiet d c ev st param tag s); exact h

/-! ## bump -/

@[simp] theorem bump_pending (n k : Nat) (s : State) : (bump n k s).pending = s.pending := by have h := congrArg State.pending (bump_quiet n k s); exact h
@[simp] theorem bump_free (n k : Nat) (s : State) : (bump n k s).free = s.free := by have h := congrArg State.free (bump_quiet n k s); exact h
@[simp] theorem bump_order (n k : Nat) (s : State) : (bump n k s).order = s.order := by have h := congrArg State.order (bump_quiet n k s); exact h
@[simp] theorem bump_pins (n k : Nat) (s : State) : (bump n k s).pins = s.pins := by have h := congrArg State.pins (bump_quiet n k s); exact h
@[simp] theorem bump_bay (n k : Nat) (s : State) : (bump n k s).bay = s.bay := by have h := congrArg State.bay (bump_quiet n k s); exact h
@[simp] theorem bump_fe (n k : Nat) (s : State) : (bump n k s).fe = s.fe := by have h := congrArg State.fe (bump_quiet n k s); exact h
@[simp] theorem bump_res (n k : Nat) (s : State) : (bump n k s).res = s.res := by have h := congrArg State.res (bump_quiet n k s); exact h
@[simp] theorem bump_th (n k : Nat) (s : State) : (bump n k s).th = s.th := by have h := congrArg State.th (bump_quiet n k s); exact h
@[simp] theorem bump_clk (n k : Nat) (s : State) : (bump n k s).clk = s.clk := by have h := congrArg State.clk (bump_quiet n k s); exact h
@[simp] theorem bump_md (n k : Nat) (s : State) : (bump n k s).md = s.md := by have h := congrArg State.md (bump_quiet n k s); exact h
@[simp] theorem bump_pwr (n k : Nat) (s : State) : (bump n k s).pwr = s.pwr := by have h := congrArg State.pwr (bump_quiet n k s); exact h
@[simp] theorem bump_net (n k : Nat) (s : State) : (bump n k s).net = s.net := by have h := congrArg State.net (bump_quiet n k s); exact h
@[simp] theorem bump_qos (n k : Nat) (s : State) : (bump n k s).qos = s.qos := by have h := congrArg State.qos (bump_quiet n k s); exact h
@[simp] theorem bump_xpt (n k : Nat) (s : State) : (bump n k s).xpt = s.xpt := by have h := congrArg State.xpt (bump_quiet n k s); exact h
@[simp] theorem bump_nvm (n k : Nat) (s : State) : (bump n k s).nvm = s.nvm := by have h := congrArg State.nvm (bump_quiet n k s); exact h
@[simp] theorem bump_vol (n k : Nat) (s : State) : (bump n k s).vol = s.vol := by have h := congrArg State.vol (bump_quiet n k s); exact h
@[simp] theorem bump_wbf (n k : Nat) (s : State) : (bump n k s).wbf = s.wbf := by have h := congrArg State.wbf (bump_quiet n k s); exact h
@[simp] theorem bump_drv (n k : Nat) (s : State) : (bump n k s).drv = s.drv := by have h := congrArg State.drv (bump_quiet n k s); exact h
@[simp] theorem bump_key (n k : Nat) (s : State) : (bump n k s).key = s.key := by have h := congrArg State.key (bump_quiet n k s); exact h
@[simp] theorem bump_links (n k : Nat) (s : State) : (bump n k s).links = s.links := by have h := congrArg State.links (bump_quiet n k s); exact h
@[simp] theorem bump_pair (n k : Nat) (s : State) : (bump n k s).pair = s.pair := by have h := congrArg State.pair (bump_quiet n k s); exact h
@[simp] theorem bump_stk (n k : Nat) (s : State) : (bump n k s).stk = s.stk := by have h := congrArg State.stk (bump_quiet n k s); exact h
@[simp] theorem bump_mem (n k : Nat) (s : State) : (bump n k s).mem = s.mem := by have h := congrArg State.mem (bump_quiet n k s); exact h
@[simp] theorem bump_upd (n k : Nat) (s : State) : (bump n k s).upd = s.upd := by have h := congrArg State.upd (bump_quiet n k s); exact h
@[simp] theorem bump_woken (n k : Nat) (s : State) : (bump n k s).woken = s.woken := by have h := congrArg State.woken (bump_quiet n k s); exact h
@[simp] theorem bump_kwait (n k : Nat) (s : State) : (bump n k s).kwait = s.kwait := by have h := congrArg State.kwait (bump_quiet n k s); exact h

/-! ## raiseAt -/

@[simp] theorem raiseAt_pending (fuel : Nat) (ds : List Nat) (ev : Nat) (param : Word) (s : State) : (raiseAt fuel ds ev param s).pending = s.pending := by have h := congrArg State.pending (raiseAt_quiet fuel ds ev param s); exact h
@[simp] theorem raiseAt_free (fuel : Nat) (ds : List Nat) (ev : Nat) (param : Word) (s : State) : (raiseAt fuel ds ev param s).free = s.free := by have h := congrArg State.free (raiseAt_quiet fuel ds ev param s); exact h
@[simp] theorem raiseAt_order (fuel : Nat) (ds : List Nat) (ev : Nat) (param : Word) (s : State) : (raiseAt fuel ds ev param s).order = s.order := by have h := congrArg State.order (raiseAt_quiet fuel ds ev param s); exact h
@[simp] theorem raiseAt_pins (fuel : Nat) (ds : List Nat) (ev : Nat) (param : Word) (s : State) : (raiseAt fuel ds ev param s).pins = s.pins := by have h := congrArg State.pins (raiseAt_quiet fuel ds ev param s); exact h
@[simp] theorem raiseAt_bay (fuel : Nat) (ds : List Nat) (ev : Nat) (param : Word) (s : State) : (raiseAt fuel ds ev param s).bay = s.bay := by have h := congrArg State.bay (raiseAt_quiet fuel ds ev param s); exact h
@[simp] theorem raiseAt_fe (fuel : Nat) (ds : List Nat) (ev : Nat) (param : Word) (s : State) : (raiseAt fuel ds ev param s).fe = s.fe := by have h := congrArg State.fe (raiseAt_quiet fuel ds ev param s); exact h
@[simp] theorem raiseAt_res (fuel : Nat) (ds : List Nat) (ev : Nat) (param : Word) (s : State) : (raiseAt fuel ds ev param s).res = s.res := by have h := congrArg State.res (raiseAt_quiet fuel ds ev param s); exact h
@[simp] theorem raiseAt_th (fuel : Nat) (ds : List Nat) (ev : Nat) (param : Word) (s : State) : (raiseAt fuel ds ev param s).th = s.th := by have h := congrArg State.th (raiseAt_quiet fuel ds ev param s); exact h
@[simp] theorem raiseAt_clk (fuel : Nat) (ds : List Nat) (ev : Nat) (param : Word) (s : State) : (raiseAt fuel ds ev param s).clk = s.clk := by have h := congrArg State.clk (raiseAt_quiet fuel ds ev param s); exact h
@[simp] theorem raiseAt_md (fuel : Nat) (ds : List Nat) (ev : Nat) (param : Word) (s : State) : (raiseAt fuel ds ev param s).md = s.md := by have h := congrArg State.md (raiseAt_quiet fuel ds ev param s); exact h
@[simp] theorem raiseAt_pwr (fuel : Nat) (ds : List Nat) (ev : Nat) (param : Word) (s : State) : (raiseAt fuel ds ev param s).pwr = s.pwr := by have h := congrArg State.pwr (raiseAt_quiet fuel ds ev param s); exact h
@[simp] theorem raiseAt_net (fuel : Nat) (ds : List Nat) (ev : Nat) (param : Word) (s : State) : (raiseAt fuel ds ev param s).net = s.net := by have h := congrArg State.net (raiseAt_quiet fuel ds ev param s); exact h
@[simp] theorem raiseAt_qos (fuel : Nat) (ds : List Nat) (ev : Nat) (param : Word) (s : State) : (raiseAt fuel ds ev param s).qos = s.qos := by have h := congrArg State.qos (raiseAt_quiet fuel ds ev param s); exact h
@[simp] theorem raiseAt_xpt (fuel : Nat) (ds : List Nat) (ev : Nat) (param : Word) (s : State) : (raiseAt fuel ds ev param s).xpt = s.xpt := by have h := congrArg State.xpt (raiseAt_quiet fuel ds ev param s); exact h
@[simp] theorem raiseAt_nvm (fuel : Nat) (ds : List Nat) (ev : Nat) (param : Word) (s : State) : (raiseAt fuel ds ev param s).nvm = s.nvm := by have h := congrArg State.nvm (raiseAt_quiet fuel ds ev param s); exact h
@[simp] theorem raiseAt_vol (fuel : Nat) (ds : List Nat) (ev : Nat) (param : Word) (s : State) : (raiseAt fuel ds ev param s).vol = s.vol := by have h := congrArg State.vol (raiseAt_quiet fuel ds ev param s); exact h
@[simp] theorem raiseAt_wbf (fuel : Nat) (ds : List Nat) (ev : Nat) (param : Word) (s : State) : (raiseAt fuel ds ev param s).wbf = s.wbf := by have h := congrArg State.wbf (raiseAt_quiet fuel ds ev param s); exact h
@[simp] theorem raiseAt_drv (fuel : Nat) (ds : List Nat) (ev : Nat) (param : Word) (s : State) : (raiseAt fuel ds ev param s).drv = s.drv := by have h := congrArg State.drv (raiseAt_quiet fuel ds ev param s); exact h
@[simp] theorem raiseAt_key (fuel : Nat) (ds : List Nat) (ev : Nat) (param : Word) (s : State) : (raiseAt fuel ds ev param s).key = s.key := by have h := congrArg State.key (raiseAt_quiet fuel ds ev param s); exact h
@[simp] theorem raiseAt_links (fuel : Nat) (ds : List Nat) (ev : Nat) (param : Word) (s : State) : (raiseAt fuel ds ev param s).links = s.links := by have h := congrArg State.links (raiseAt_quiet fuel ds ev param s); exact h
@[simp] theorem raiseAt_pair (fuel : Nat) (ds : List Nat) (ev : Nat) (param : Word) (s : State) : (raiseAt fuel ds ev param s).pair = s.pair := by have h := congrArg State.pair (raiseAt_quiet fuel ds ev param s); exact h
@[simp] theorem raiseAt_stk (fuel : Nat) (ds : List Nat) (ev : Nat) (param : Word) (s : State) : (raiseAt fuel ds ev param s).stk = s.stk := by have h := congrArg State.stk (raiseAt_quiet fuel ds ev param s); exact h
@[simp] theorem raiseAt_mem (fuel : Nat) (ds : List Nat) (ev : Nat) (param : Word) (s : State) : (raiseAt fuel ds ev param s).mem = s.mem := by have h := congrArg State.mem (raiseAt_quiet fuel ds ev param s); exact h
@[simp] theorem raiseAt_upd (fuel : Nat) (ds : List Nat) (ev : Nat) (param : Word) (s : State) : (raiseAt fuel ds ev param s).upd = s.upd := by have h := congrArg State.upd (raiseAt_quiet fuel ds ev param s); exact h
@[simp] theorem raiseAt_woken (fuel : Nat) (ds : List Nat) (ev : Nat) (param : Word) (s : State) : (raiseAt fuel ds ev param s).woken = s.woken := by have h := congrArg State.woken (raiseAt_quiet fuel ds ev param s); exact h
@[simp] theorem raiseAt_kwait (fuel : Nat) (ds : List Nat) (ev : Nat) (param : Word) (s : State) : (raiseAt fuel ds ev param s).kwait = s.kwait := by have h := congrArg State.kwait (raiseAt_quiet fuel ds ev param s); exact h

/-! ## count -/

@[simp] theorem count_pending (n k : Nat) (s : State) : (count n k s).pending = s.pending := by have h := congrArg State.pending (count_quiet n k s); exact h
@[simp] theorem count_free (n k : Nat) (s : State) : (count n k s).free = s.free := by have h := congrArg State.free (count_quiet n k s); exact h
@[simp] theorem count_order (n k : Nat) (s : State) : (count n k s).order = s.order := by have h := congrArg State.order (count_quiet n k s); exact h
@[simp] theorem count_pins (n k : Nat) (s : State) : (count n k s).pins = s.pins := by have h := congrArg State.pins (count_quiet n k s); exact h
@[simp] theorem count_bay (n k : Nat) (s : State) : (count n k s).bay = s.bay := by have h := congrArg State.bay (count_quiet n k s); exact h
@[simp] theorem count_fe (n k : Nat) (s : State) : (count n k s).fe = s.fe := by have h := congrArg State.fe (count_quiet n k s); exact h
@[simp] theorem count_res (n k : Nat) (s : State) : (count n k s).res = s.res := by have h := congrArg State.res (count_quiet n k s); exact h
@[simp] theorem count_th (n k : Nat) (s : State) : (count n k s).th = s.th := by have h := congrArg State.th (count_quiet n k s); exact h
@[simp] theorem count_clk (n k : Nat) (s : State) : (count n k s).clk = s.clk := by have h := congrArg State.clk (count_quiet n k s); exact h
@[simp] theorem count_md (n k : Nat) (s : State) : (count n k s).md = s.md := by have h := congrArg State.md (count_quiet n k s); exact h
@[simp] theorem count_pwr (n k : Nat) (s : State) : (count n k s).pwr = s.pwr := by have h := congrArg State.pwr (count_quiet n k s); exact h
@[simp] theorem count_net (n k : Nat) (s : State) : (count n k s).net = s.net := by have h := congrArg State.net (count_quiet n k s); exact h
@[simp] theorem count_qos (n k : Nat) (s : State) : (count n k s).qos = s.qos := by have h := congrArg State.qos (count_quiet n k s); exact h
@[simp] theorem count_xpt (n k : Nat) (s : State) : (count n k s).xpt = s.xpt := by have h := congrArg State.xpt (count_quiet n k s); exact h
@[simp] theorem count_nvm (n k : Nat) (s : State) : (count n k s).nvm = s.nvm := by have h := congrArg State.nvm (count_quiet n k s); exact h
@[simp] theorem count_vol (n k : Nat) (s : State) : (count n k s).vol = s.vol := by have h := congrArg State.vol (count_quiet n k s); exact h
@[simp] theorem count_wbf (n k : Nat) (s : State) : (count n k s).wbf = s.wbf := by have h := congrArg State.wbf (count_quiet n k s); exact h
@[simp] theorem count_drv (n k : Nat) (s : State) : (count n k s).drv = s.drv := by have h := congrArg State.drv (count_quiet n k s); exact h
@[simp] theorem count_key (n k : Nat) (s : State) : (count n k s).key = s.key := by have h := congrArg State.key (count_quiet n k s); exact h
@[simp] theorem count_links (n k : Nat) (s : State) : (count n k s).links = s.links := by have h := congrArg State.links (count_quiet n k s); exact h
@[simp] theorem count_pair (n k : Nat) (s : State) : (count n k s).pair = s.pair := by have h := congrArg State.pair (count_quiet n k s); exact h
@[simp] theorem count_stk (n k : Nat) (s : State) : (count n k s).stk = s.stk := by have h := congrArg State.stk (count_quiet n k s); exact h
@[simp] theorem count_mem (n k : Nat) (s : State) : (count n k s).mem = s.mem := by have h := congrArg State.mem (count_quiet n k s); exact h
@[simp] theorem count_upd (n k : Nat) (s : State) : (count n k s).upd = s.upd := by have h := congrArg State.upd (count_quiet n k s); exact h
@[simp] theorem count_woken (n k : Nat) (s : State) : (count n k s).woken = s.woken := by have h := congrArg State.woken (count_quiet n k s); exact h
@[simp] theorem count_kwait (n k : Nat) (s : State) : (count n k s).kwait = s.kwait := by have h := congrArg State.kwait (count_quiet n k s); exact h

/-! ## count1 -/

@[simp] theorem count1_pending (n : Nat) (s : State) : (count1 n s).pending = s.pending := by have h := congrArg State.pending (count1_quiet n s); exact h
@[simp] theorem count1_free (n : Nat) (s : State) : (count1 n s).free = s.free := by have h := congrArg State.free (count1_quiet n s); exact h
@[simp] theorem count1_order (n : Nat) (s : State) : (count1 n s).order = s.order := by have h := congrArg State.order (count1_quiet n s); exact h
@[simp] theorem count1_pins (n : Nat) (s : State) : (count1 n s).pins = s.pins := by have h := congrArg State.pins (count1_quiet n s); exact h
@[simp] theorem count1_bay (n : Nat) (s : State) : (count1 n s).bay = s.bay := by have h := congrArg State.bay (count1_quiet n s); exact h
@[simp] theorem count1_fe (n : Nat) (s : State) : (count1 n s).fe = s.fe := by have h := congrArg State.fe (count1_quiet n s); exact h
@[simp] theorem count1_res (n : Nat) (s : State) : (count1 n s).res = s.res := by have h := congrArg State.res (count1_quiet n s); exact h
@[simp] theorem count1_th (n : Nat) (s : State) : (count1 n s).th = s.th := by have h := congrArg State.th (count1_quiet n s); exact h
@[simp] theorem count1_clk (n : Nat) (s : State) : (count1 n s).clk = s.clk := by have h := congrArg State.clk (count1_quiet n s); exact h
@[simp] theorem count1_md (n : Nat) (s : State) : (count1 n s).md = s.md := by have h := congrArg State.md (count1_quiet n s); exact h
@[simp] theorem count1_pwr (n : Nat) (s : State) : (count1 n s).pwr = s.pwr := by have h := congrArg State.pwr (count1_quiet n s); exact h
@[simp] theorem count1_net (n : Nat) (s : State) : (count1 n s).net = s.net := by have h := congrArg State.net (count1_quiet n s); exact h
@[simp] theorem count1_qos (n : Nat) (s : State) : (count1 n s).qos = s.qos := by have h := congrArg State.qos (count1_quiet n s); exact h
@[simp] theorem count1_xpt (n : Nat) (s : State) : (count1 n s).xpt = s.xpt := by have h := congrArg State.xpt (count1_quiet n s); exact h
@[simp] theorem count1_nvm (n : Nat) (s : State) : (count1 n s).nvm = s.nvm := by have h := congrArg State.nvm (count1_quiet n s); exact h
@[simp] theorem count1_vol (n : Nat) (s : State) : (count1 n s).vol = s.vol := by have h := congrArg State.vol (count1_quiet n s); exact h
@[simp] theorem count1_wbf (n : Nat) (s : State) : (count1 n s).wbf = s.wbf := by have h := congrArg State.wbf (count1_quiet n s); exact h
@[simp] theorem count1_drv (n : Nat) (s : State) : (count1 n s).drv = s.drv := by have h := congrArg State.drv (count1_quiet n s); exact h
@[simp] theorem count1_key (n : Nat) (s : State) : (count1 n s).key = s.key := by have h := congrArg State.key (count1_quiet n s); exact h
@[simp] theorem count1_links (n : Nat) (s : State) : (count1 n s).links = s.links := by have h := congrArg State.links (count1_quiet n s); exact h
@[simp] theorem count1_pair (n : Nat) (s : State) : (count1 n s).pair = s.pair := by have h := congrArg State.pair (count1_quiet n s); exact h
@[simp] theorem count1_stk (n : Nat) (s : State) : (count1 n s).stk = s.stk := by have h := congrArg State.stk (count1_quiet n s); exact h
@[simp] theorem count1_mem (n : Nat) (s : State) : (count1 n s).mem = s.mem := by have h := congrArg State.mem (count1_quiet n s); exact h
@[simp] theorem count1_upd (n : Nat) (s : State) : (count1 n s).upd = s.upd := by have h := congrArg State.upd (count1_quiet n s); exact h
@[simp] theorem count1_woken (n : Nat) (s : State) : (count1 n s).woken = s.woken := by have h := congrArg State.woken (count1_quiet n s); exact h
@[simp] theorem count1_kwait (n : Nat) (s : State) : (count1 n s).kwait = s.kwait := by have h := congrArg State.kwait (count1_quiet n s); exact h

/-! ## raise -/

@[simp] theorem raise_pending (ev : Nat) (param : Word) (s : State) : (raise ev param s).pending = s.pending := by have h := congrArg State.pending (raise_quiet ev param s); exact h
@[simp] theorem raise_free (ev : Nat) (param : Word) (s : State) : (raise ev param s).free = s.free := by have h := congrArg State.free (raise_quiet ev param s); exact h
@[simp] theorem raise_order (ev : Nat) (param : Word) (s : State) : (raise ev param s).order = s.order := by have h := congrArg State.order (raise_quiet ev param s); exact h
@[simp] theorem raise_pins (ev : Nat) (param : Word) (s : State) : (raise ev param s).pins = s.pins := by have h := congrArg State.pins (raise_quiet ev param s); exact h
@[simp] theorem raise_bay (ev : Nat) (param : Word) (s : State) : (raise ev param s).bay = s.bay := by have h := congrArg State.bay (raise_quiet ev param s); exact h
@[simp] theorem raise_fe (ev : Nat) (param : Word) (s : State) : (raise ev param s).fe = s.fe := by have h := congrArg State.fe (raise_quiet ev param s); exact h
@[simp] theorem raise_res (ev : Nat) (param : Word) (s : State) : (raise ev param s).res = s.res := by have h := congrArg State.res (raise_quiet ev param s); exact h
@[simp] theorem raise_th (ev : Nat) (param : Word) (s : State) : (raise ev param s).th = s.th := by have h := congrArg State.th (raise_quiet ev param s); exact h
@[simp] theorem raise_clk (ev : Nat) (param : Word) (s : State) : (raise ev param s).clk = s.clk := by have h := congrArg State.clk (raise_quiet ev param s); exact h
@[simp] theorem raise_md (ev : Nat) (param : Word) (s : State) : (raise ev param s).md = s.md := by have h := congrArg State.md (raise_quiet ev param s); exact h
@[simp] theorem raise_pwr (ev : Nat) (param : Word) (s : State) : (raise ev param s).pwr = s.pwr := by have h := congrArg State.pwr (raise_quiet ev param s); exact h
@[simp] theorem raise_net (ev : Nat) (param : Word) (s : State) : (raise ev param s).net = s.net := by have h := congrArg State.net (raise_quiet ev param s); exact h
@[simp] theorem raise_qos (ev : Nat) (param : Word) (s : State) : (raise ev param s).qos = s.qos := by have h := congrArg State.qos (raise_quiet ev param s); exact h
@[simp] theorem raise_xpt (ev : Nat) (param : Word) (s : State) : (raise ev param s).xpt = s.xpt := by have h := congrArg State.xpt (raise_quiet ev param s); exact h
@[simp] theorem raise_nvm (ev : Nat) (param : Word) (s : State) : (raise ev param s).nvm = s.nvm := by have h := congrArg State.nvm (raise_quiet ev param s); exact h
@[simp] theorem raise_vol (ev : Nat) (param : Word) (s : State) : (raise ev param s).vol = s.vol := by have h := congrArg State.vol (raise_quiet ev param s); exact h
@[simp] theorem raise_wbf (ev : Nat) (param : Word) (s : State) : (raise ev param s).wbf = s.wbf := by have h := congrArg State.wbf (raise_quiet ev param s); exact h
@[simp] theorem raise_drv (ev : Nat) (param : Word) (s : State) : (raise ev param s).drv = s.drv := by have h := congrArg State.drv (raise_quiet ev param s); exact h
@[simp] theorem raise_key (ev : Nat) (param : Word) (s : State) : (raise ev param s).key = s.key := by have h := congrArg State.key (raise_quiet ev param s); exact h
@[simp] theorem raise_links (ev : Nat) (param : Word) (s : State) : (raise ev param s).links = s.links := by have h := congrArg State.links (raise_quiet ev param s); exact h
@[simp] theorem raise_pair (ev : Nat) (param : Word) (s : State) : (raise ev param s).pair = s.pair := by have h := congrArg State.pair (raise_quiet ev param s); exact h
@[simp] theorem raise_stk (ev : Nat) (param : Word) (s : State) : (raise ev param s).stk = s.stk := by have h := congrArg State.stk (raise_quiet ev param s); exact h
@[simp] theorem raise_mem (ev : Nat) (param : Word) (s : State) : (raise ev param s).mem = s.mem := by have h := congrArg State.mem (raise_quiet ev param s); exact h
@[simp] theorem raise_upd (ev : Nat) (param : Word) (s : State) : (raise ev param s).upd = s.upd := by have h := congrArg State.upd (raise_quiet ev param s); exact h
@[simp] theorem raise_woken (ev : Nat) (param : Word) (s : State) : (raise ev param s).woken = s.woken := by have h := congrArg State.woken (raise_quiet ev param s); exact h
@[simp] theorem raise_kwait (ev : Nat) (param : Word) (s : State) : (raise ev param s).kwait = s.kwait := by have h := congrArg State.kwait (raise_quiet ev param s); exact h

/-! ## complete -/

@[simp] theorem complete_pending (d : Nat) (tag : Word) (ev st : Nat) (param : Word) (s : State) : (complete d tag ev st param s).pending = s.pending := by have h := congrArg State.pending (complete_quiet d tag ev st param s); exact h
@[simp] theorem complete_free (d : Nat) (tag : Word) (ev st : Nat) (param : Word) (s : State) : (complete d tag ev st param s).free = s.free := by have h := congrArg State.free (complete_quiet d tag ev st param s); exact h
@[simp] theorem complete_order (d : Nat) (tag : Word) (ev st : Nat) (param : Word) (s : State) : (complete d tag ev st param s).order = s.order := by have h := congrArg State.order (complete_quiet d tag ev st param s); exact h
@[simp] theorem complete_pins (d : Nat) (tag : Word) (ev st : Nat) (param : Word) (s : State) : (complete d tag ev st param s).pins = s.pins := by have h := congrArg State.pins (complete_quiet d tag ev st param s); exact h
@[simp] theorem complete_bay (d : Nat) (tag : Word) (ev st : Nat) (param : Word) (s : State) : (complete d tag ev st param s).bay = s.bay := by have h := congrArg State.bay (complete_quiet d tag ev st param s); exact h
@[simp] theorem complete_fe (d : Nat) (tag : Word) (ev st : Nat) (param : Word) (s : State) : (complete d tag ev st param s).fe = s.fe := by have h := congrArg State.fe (complete_quiet d tag ev st param s); exact h
@[simp] theorem complete_res (d : Nat) (tag : Word) (ev st : Nat) (param : Word) (s : State) : (complete d tag ev st param s).res = s.res := by have h := congrArg State.res (complete_quiet d tag ev st param s); exact h
@[simp] theorem complete_th (d : Nat) (tag : Word) (ev st : Nat) (param : Word) (s : State) : (complete d tag ev st param s).th = s.th := by have h := congrArg State.th (complete_quiet d tag ev st param s); exact h
@[simp] theorem complete_clk (d : Nat) (tag : Word) (ev st : Nat) (param : Word) (s : State) : (complete d tag ev st param s).clk = s.clk := by have h := congrArg State.clk (complete_quiet d tag ev st param s); exact h
@[simp] theorem complete_md (d : Nat) (tag : Word) (ev st : Nat) (param : Word) (s : State) : (complete d tag ev st param s).md = s.md := by have h := congrArg State.md (complete_quiet d tag ev st param s); exact h
@[simp] theorem complete_pwr (d : Nat) (tag : Word) (ev st : Nat) (param : Word) (s : State) : (complete d tag ev st param s).pwr = s.pwr := by have h := congrArg State.pwr (complete_quiet d tag ev st param s); exact h
@[simp] theorem complete_net (d : Nat) (tag : Word) (ev st : Nat) (param : Word) (s : State) : (complete d tag ev st param s).net = s.net := by have h := congrArg State.net (complete_quiet d tag ev st param s); exact h
@[simp] theorem complete_qos (d : Nat) (tag : Word) (ev st : Nat) (param : Word) (s : State) : (complete d tag ev st param s).qos = s.qos := by have h := congrArg State.qos (complete_quiet d tag ev st param s); exact h
@[simp] theorem complete_xpt (d : Nat) (tag : Word) (ev st : Nat) (param : Word) (s : State) : (complete d tag ev st param s).xpt = s.xpt := by have h := congrArg State.xpt (complete_quiet d tag ev st param s); exact h
@[simp] theorem complete_nvm (d : Nat) (tag : Word) (ev st : Nat) (param : Word) (s : State) : (complete d tag ev st param s).nvm = s.nvm := by have h := congrArg State.nvm (complete_quiet d tag ev st param s); exact h
@[simp] theorem complete_vol (d : Nat) (tag : Word) (ev st : Nat) (param : Word) (s : State) : (complete d tag ev st param s).vol = s.vol := by have h := congrArg State.vol (complete_quiet d tag ev st param s); exact h
@[simp] theorem complete_wbf (d : Nat) (tag : Word) (ev st : Nat) (param : Word) (s : State) : (complete d tag ev st param s).wbf = s.wbf := by have h := congrArg State.wbf (complete_quiet d tag ev st param s); exact h
@[simp] theorem complete_drv (d : Nat) (tag : Word) (ev st : Nat) (param : Word) (s : State) : (complete d tag ev st param s).drv = s.drv := by have h := congrArg State.drv (complete_quiet d tag ev st param s); exact h
@[simp] theorem complete_key (d : Nat) (tag : Word) (ev st : Nat) (param : Word) (s : State) : (complete d tag ev st param s).key = s.key := by have h := congrArg State.key (complete_quiet d tag ev st param s); exact h
@[simp] theorem complete_links (d : Nat) (tag : Word) (ev st : Nat) (param : Word) (s : State) : (complete d tag ev st param s).links = s.links := by have h := congrArg State.links (complete_quiet d tag ev st param s); exact h
@[simp] theorem complete_pair (d : Nat) (tag : Word) (ev st : Nat) (param : Word) (s : State) : (complete d tag ev st param s).pair = s.pair := by have h := congrArg State.pair (complete_quiet d tag ev st param s); exact h
@[simp] theorem complete_stk (d : Nat) (tag : Word) (ev st : Nat) (param : Word) (s : State) : (complete d tag ev st param s).stk = s.stk := by have h := congrArg State.stk (complete_quiet d tag ev st param s); exact h
@[simp] theorem complete_mem (d : Nat) (tag : Word) (ev st : Nat) (param : Word) (s : State) : (complete d tag ev st param s).mem = s.mem := by have h := congrArg State.mem (complete_quiet d tag ev st param s); exact h
@[simp] theorem complete_upd (d : Nat) (tag : Word) (ev st : Nat) (param : Word) (s : State) : (complete d tag ev st param s).upd = s.upd := by have h := congrArg State.upd (complete_quiet d tag ev st param s); exact h
@[simp] theorem complete_woken (d : Nat) (tag : Word) (ev st : Nat) (param : Word) (s : State) : (complete d tag ev st param s).woken = s.woken := by have h := congrArg State.woken (complete_quiet d tag ev st param s); exact h
@[simp] theorem complete_kwait (d : Nat) (tag : Word) (ev st : Nat) (param : Word) (s : State) : (complete d tag ev st param s).kwait = s.kwait := by have h := congrArg State.kwait (complete_quiet d tag ev st param s); exact h

/-! ## finish -/

@[simp] theorem finish_pending (p : Running → Bool) (ev st : Nat) (param : Word) (s : State) : (finish p ev st param s).pending = s.pending := by have h := congrArg State.pending (finish_quiet p ev st param s); exact h
@[simp] theorem finish_free (p : Running → Bool) (ev st : Nat) (param : Word) (s : State) : (finish p ev st param s).free = s.free := by have h := congrArg State.free (finish_quiet p ev st param s); exact h
@[simp] theorem finish_order (p : Running → Bool) (ev st : Nat) (param : Word) (s : State) : (finish p ev st param s).order = s.order := by have h := congrArg State.order (finish_quiet p ev st param s); exact h
@[simp] theorem finish_pins (p : Running → Bool) (ev st : Nat) (param : Word) (s : State) : (finish p ev st param s).pins = s.pins := by have h := congrArg State.pins (finish_quiet p ev st param s); exact h
@[simp] theorem finish_bay (p : Running → Bool) (ev st : Nat) (param : Word) (s : State) : (finish p ev st param s).bay = s.bay := by have h := congrArg State.bay (finish_quiet p ev st param s); exact h
@[simp] theorem finish_fe (p : Running → Bool) (ev st : Nat) (param : Word) (s : State) : (finish p ev st param s).fe = s.fe := by have h := congrArg State.fe (finish_quiet p ev st param s); exact h
@[simp] theorem finish_res (p : Running → Bool) (ev st : Nat) (param : Word) (s : State) : (finish p ev st param s).res = s.res := by have h := congrArg State.res (finish_quiet p ev st param s); exact h
@[simp] theorem finish_th (p : Running → Bool) (ev st : Nat) (param : Word) (s : State) : (finish p ev st param s).th = s.th := by have h := congrArg State.th (finish_quiet p ev st param s); exact h
@[simp] theorem finish_clk (p : Running → Bool) (ev st : Nat) (param : Word) (s : State) : (finish p ev st param s).clk = s.clk := by have h := congrArg State.clk (finish_quiet p ev st param s); exact h
@[simp] theorem finish_md (p : Running → Bool) (ev st : Nat) (param : Word) (s : State) : (finish p ev st param s).md = s.md := by have h := congrArg State.md (finish_quiet p ev st param s); exact h
@[simp] theorem finish_pwr (p : Running → Bool) (ev st : Nat) (param : Word) (s : State) : (finish p ev st param s).pwr = s.pwr := by have h := congrArg State.pwr (finish_quiet p ev st param s); exact h
@[simp] theorem finish_net (p : Running → Bool) (ev st : Nat) (param : Word) (s : State) : (finish p ev st param s).net = s.net := by have h := congrArg State.net (finish_quiet p ev st param s); exact h
@[simp] theorem finish_qos (p : Running → Bool) (ev st : Nat) (param : Word) (s : State) : (finish p ev st param s).qos = s.qos := by have h := congrArg State.qos (finish_quiet p ev st param s); exact h
@[simp] theorem finish_xpt (p : Running → Bool) (ev st : Nat) (param : Word) (s : State) : (finish p ev st param s).xpt = s.xpt := by have h := congrArg State.xpt (finish_quiet p ev st param s); exact h
@[simp] theorem finish_nvm (p : Running → Bool) (ev st : Nat) (param : Word) (s : State) : (finish p ev st param s).nvm = s.nvm := by have h := congrArg State.nvm (finish_quiet p ev st param s); exact h
@[simp] theorem finish_vol (p : Running → Bool) (ev st : Nat) (param : Word) (s : State) : (finish p ev st param s).vol = s.vol := by have h := congrArg State.vol (finish_quiet p ev st param s); exact h
@[simp] theorem finish_wbf (p : Running → Bool) (ev st : Nat) (param : Word) (s : State) : (finish p ev st param s).wbf = s.wbf := by have h := congrArg State.wbf (finish_quiet p ev st param s); exact h
@[simp] theorem finish_drv (p : Running → Bool) (ev st : Nat) (param : Word) (s : State) : (finish p ev st param s).drv = s.drv := by have h := congrArg State.drv (finish_quiet p ev st param s); exact h
@[simp] theorem finish_key (p : Running → Bool) (ev st : Nat) (param : Word) (s : State) : (finish p ev st param s).key = s.key := by have h := congrArg State.key (finish_quiet p ev st param s); exact h
@[simp] theorem finish_links (p : Running → Bool) (ev st : Nat) (param : Word) (s : State) : (finish p ev st param s).links = s.links := by have h := congrArg State.links (finish_quiet p ev st param s); exact h
@[simp] theorem finish_pair (p : Running → Bool) (ev st : Nat) (param : Word) (s : State) : (finish p ev st param s).pair = s.pair := by have h := congrArg State.pair (finish_quiet p ev st param s); exact h
@[simp] theorem finish_stk (p : Running → Bool) (ev st : Nat) (param : Word) (s : State) : (finish p ev st param s).stk = s.stk := by have h := congrArg State.stk (finish_quiet p ev st param s); exact h
@[simp] theorem finish_mem (p : Running → Bool) (ev st : Nat) (param : Word) (s : State) : (finish p ev st param s).mem = s.mem := by have h := congrArg State.mem (finish_quiet p ev st param s); exact h
@[simp] theorem finish_upd (p : Running → Bool) (ev st : Nat) (param : Word) (s : State) : (finish p ev st param s).upd = s.upd := by have h := congrArg State.upd (finish_quiet p ev st param s); exact h
@[simp] theorem finish_woken (p : Running → Bool) (ev st : Nat) (param : Word) (s : State) : (finish p ev st param s).woken = s.woken := by have h := congrArg State.woken (finish_quiet p ev st param s); exact h
@[simp] theorem finish_kwait (p : Running → Bool) (ev st : Nat) (param : Word) (s : State) : (finish p ev st param s).kwait = s.kwait := by have h := congrArg State.kwait (finish_quiet p ev st param s); exact h

/-! ## finishOnly -/

@[simp] theorem finishOnly_pending (p : Running → Bool) (ev st : Nat) (param : Word) (s : State) : (finishOnly p ev st param s).pending = s.pending := by have h := congrArg State.pending (finishOnly_quiet p ev st param s); exact h
@[simp] theorem finishOnly_free (p : Running → Bool) (ev st : Nat) (param : Word) (s : State) : (finishOnly p ev st param s).free = s.free := by have h := congrArg State.free (finishOnly_quiet p ev st param s); exact h
@[simp] theorem finishOnly_order (p : Running → Bool) (ev st : Nat) (param : Word) (s : State) : (finishOnly p ev st param s).order = s.order := by have h := congrArg State.order (finishOnly_quiet p ev st param s); exact h
@[simp] theorem finishOnly_pins (p : Running → Bool) (ev st : Nat) (param : Word) (s : State) : (finishOnly p ev st param s).pins = s.pins := by have h := congrArg State.pins (finishOnly_quiet p ev st param s); exact h
@[simp] theorem finishOnly_bay (p : Running → Bool) (ev st : Nat) (param : Word) (s : State) : (finishOnly p ev st param s).bay = s.bay := by have h := congrArg State.bay (finishOnly_quiet p ev st param s); exact h
@[simp] theorem finishOnly_fe (p : Running → Bool) (ev st : Nat) (param : Word) (s : State) : (finishOnly p ev st param s).fe = s.fe := by have h := congrArg State.fe (finishOnly_quiet p ev st param s); exact h
@[simp] theorem finishOnly_res (p : Running → Bool) (ev st : Nat) (param : Word) (s : State) : (finishOnly p ev st param s).res = s.res := by have h := congrArg State.res (finishOnly_quiet p ev st param s); exact h
@[simp] theorem finishOnly_th (p : Running → Bool) (ev st : Nat) (param : Word) (s : State) : (finishOnly p ev st param s).th = s.th := by have h := congrArg State.th (finishOnly_quiet p ev st param s); exact h
@[simp] theorem finishOnly_clk (p : Running → Bool) (ev st : Nat) (param : Word) (s : State) : (finishOnly p ev st param s).clk = s.clk := by have h := congrArg State.clk (finishOnly_quiet p ev st param s); exact h
@[simp] theorem finishOnly_md (p : Running → Bool) (ev st : Nat) (param : Word) (s : State) : (finishOnly p ev st param s).md = s.md := by have h := congrArg State.md (finishOnly_quiet p ev st param s); exact h
@[simp] theorem finishOnly_pwr (p : Running → Bool) (ev st : Nat) (param : Word) (s : State) : (finishOnly p ev st param s).pwr = s.pwr := by have h := congrArg State.pwr (finishOnly_quiet p ev st param s); exact h
@[simp] theorem finishOnly_net (p : Running → Bool) (ev st : Nat) (param : Word) (s : State) : (finishOnly p ev st param s).net = s.net := by have h := congrArg State.net (finishOnly_quiet p ev st param s); exact h
@[simp] theorem finishOnly_qos (p : Running → Bool) (ev st : Nat) (param : Word) (s : State) : (finishOnly p ev st param s).qos = s.qos := by have h := congrArg State.qos (finishOnly_quiet p ev st param s); exact h
@[simp] theorem finishOnly_xpt (p : Running → Bool) (ev st : Nat) (param : Word) (s : State) : (finishOnly p ev st param s).xpt = s.xpt := by have h := congrArg State.xpt (finishOnly_quiet p ev st param s); exact h
@[simp] theorem finishOnly_nvm (p : Running → Bool) (ev st : Nat) (param : Word) (s : State) : (finishOnly p ev st param s).nvm = s.nvm := by have h := congrArg State.nvm (finishOnly_quiet p ev st param s); exact h
@[simp] theorem finishOnly_vol (p : Running → Bool) (ev st : Nat) (param : Word) (s : State) : (finishOnly p ev st param s).vol = s.vol := by have h := congrArg State.vol (finishOnly_quiet p ev st param s); exact h
@[simp] theorem finishOnly_wbf (p : Running → Bool) (ev st : Nat) (param : Word) (s : State) : (finishOnly p ev st param s).wbf = s.wbf := by have h := congrArg State.wbf (finishOnly_quiet p ev st param s); exact h
@[simp] theorem finishOnly_drv (p : Running → Bool) (ev st : Nat) (param : Word) (s : State) : (finishOnly p ev st param s).drv = s.drv := by have h := congrArg State.drv (finishOnly_quiet p ev st param s); exact h
@[simp] theorem finishOnly_key (p : Running → Bool) (ev st : Nat) (param : Word) (s : State) : (finishOnly p ev st param s).key = s.key := by have h := congrArg State.key (finishOnly_quiet p ev st param s); exact h
@[simp] theorem finishOnly_links (p : Running → Bool) (ev st : Nat) (param : Word) (s : State) : (finishOnly p ev st param s).links = s.links := by have h := congrArg State.links (finishOnly_quiet p ev st param s); exact h
@[simp] theorem finishOnly_pair (p : Running → Bool) (ev st : Nat) (param : Word) (s : State) : (finishOnly p ev st param s).pair = s.pair := by have h := congrArg State.pair (finishOnly_quiet p ev st param s); exact h
@[simp] theorem finishOnly_stk (p : Running → Bool) (ev st : Nat) (param : Word) (s : State) : (finishOnly p ev st param s).stk = s.stk := by have h := congrArg State.stk (finishOnly_quiet p ev st param s); exact h
@[simp] theorem finishOnly_mem (p : Running → Bool) (ev st : Nat) (param : Word) (s : State) : (finishOnly p ev st param s).mem = s.mem := by have h := congrArg State.mem (finishOnly_quiet p ev st param s); exact h
@[simp] theorem finishOnly_upd (p : Running → Bool) (ev st : Nat) (param : Word) (s : State) : (finishOnly p ev st param s).upd = s.upd := by have h := congrArg State.upd (finishOnly_quiet p ev st param s); exact h
@[simp] theorem finishOnly_woken (p : Running → Bool) (ev st : Nat) (param : Word) (s : State) : (finishOnly p ev st param s).woken = s.woken := by have h := congrArg State.woken (finishOnly_quiet p ev st param s); exact h
@[simp] theorem finishOnly_kwait (p : Running → Bool) (ev st : Nat) (param : Word) (s : State) : (finishOnly p ev st param s).kwait = s.kwait := by have h := congrArg State.kwait (finishOnly_quiet p ev st param s); exact h

/-! ## accept -/

@[simp] theorem accept_pending (p : Packet) (op key key2 : Nat) (s : State) : (accept p op key key2 s).pending = s.pending := by have h := congrArg State.pending (accept_quiet p op key key2 s); exact h
@[simp] theorem accept_free (p : Packet) (op key key2 : Nat) (s : State) : (accept p op key key2 s).free = s.free := by have h := congrArg State.free (accept_quiet p op key key2 s); exact h
@[simp] theorem accept_order (p : Packet) (op key key2 : Nat) (s : State) : (accept p op key key2 s).order = s.order := by have h := congrArg State.order (accept_quiet p op key key2 s); exact h
@[simp] theorem accept_pins (p : Packet) (op key key2 : Nat) (s : State) : (accept p op key key2 s).pins = s.pins := by have h := congrArg State.pins (accept_quiet p op key key2 s); exact h
@[simp] theorem accept_bay (p : Packet) (op key key2 : Nat) (s : State) : (accept p op key key2 s).bay = s.bay := by have h := congrArg State.bay (accept_quiet p op key key2 s); exact h
@[simp] theorem accept_fe (p : Packet) (op key key2 : Nat) (s : State) : (accept p op key key2 s).fe = s.fe := by have h := congrArg State.fe (accept_quiet p op key key2 s); exact h
@[simp] theorem accept_res (p : Packet) (op key key2 : Nat) (s : State) : (accept p op key key2 s).res = s.res := by have h := congrArg State.res (accept_quiet p op key key2 s); exact h
@[simp] theorem accept_th (p : Packet) (op key key2 : Nat) (s : State) : (accept p op key key2 s).th = s.th := by have h := congrArg State.th (accept_quiet p op key key2 s); exact h
@[simp] theorem accept_clk (p : Packet) (op key key2 : Nat) (s : State) : (accept p op key key2 s).clk = s.clk := by have h := congrArg State.clk (accept_quiet p op key key2 s); exact h
@[simp] theorem accept_md (p : Packet) (op key key2 : Nat) (s : State) : (accept p op key key2 s).md = s.md := by have h := congrArg State.md (accept_quiet p op key key2 s); exact h
@[simp] theorem accept_pwr (p : Packet) (op key key2 : Nat) (s : State) : (accept p op key key2 s).pwr = s.pwr := by have h := congrArg State.pwr (accept_quiet p op key key2 s); exact h
@[simp] theorem accept_net (p : Packet) (op key key2 : Nat) (s : State) : (accept p op key key2 s).net = s.net := by have h := congrArg State.net (accept_quiet p op key key2 s); exact h
@[simp] theorem accept_qos (p : Packet) (op key key2 : Nat) (s : State) : (accept p op key key2 s).qos = s.qos := by have h := congrArg State.qos (accept_quiet p op key key2 s); exact h
@[simp] theorem accept_xpt (p : Packet) (op key key2 : Nat) (s : State) : (accept p op key key2 s).xpt = s.xpt := by have h := congrArg State.xpt (accept_quiet p op key key2 s); exact h
@[simp] theorem accept_nvm (p : Packet) (op key key2 : Nat) (s : State) : (accept p op key key2 s).nvm = s.nvm := by have h := congrArg State.nvm (accept_quiet p op key key2 s); exact h
@[simp] theorem accept_vol (p : Packet) (op key key2 : Nat) (s : State) : (accept p op key key2 s).vol = s.vol := by have h := congrArg State.vol (accept_quiet p op key key2 s); exact h
@[simp] theorem accept_wbf (p : Packet) (op key key2 : Nat) (s : State) : (accept p op key key2 s).wbf = s.wbf := by have h := congrArg State.wbf (accept_quiet p op key key2 s); exact h
@[simp] theorem accept_drv (p : Packet) (op key key2 : Nat) (s : State) : (accept p op key key2 s).drv = s.drv := by have h := congrArg State.drv (accept_quiet p op key key2 s); exact h
@[simp] theorem accept_key (p : Packet) (op key key2 : Nat) (s : State) : (accept p op key key2 s).key = s.key := by have h := congrArg State.key (accept_quiet p op key key2 s); exact h
@[simp] theorem accept_links (p : Packet) (op key key2 : Nat) (s : State) : (accept p op key key2 s).links = s.links := by have h := congrArg State.links (accept_quiet p op key key2 s); exact h
@[simp] theorem accept_pair (p : Packet) (op key key2 : Nat) (s : State) : (accept p op key key2 s).pair = s.pair := by have h := congrArg State.pair (accept_quiet p op key key2 s); exact h
@[simp] theorem accept_stk (p : Packet) (op key key2 : Nat) (s : State) : (accept p op key key2 s).stk = s.stk := by have h := congrArg State.stk (accept_quiet p op key key2 s); exact h
@[simp] theorem accept_mem (p : Packet) (op key key2 : Nat) (s : State) : (accept p op key key2 s).mem = s.mem := by have h := congrArg State.mem (accept_quiet p op key key2 s); exact h
@[simp] theorem accept_upd (p : Packet) (op key key2 : Nat) (s : State) : (accept p op key key2 s).upd = s.upd := by have h := congrArg State.upd (accept_quiet p op key key2 s); exact h
@[simp] theorem accept_woken (p : Packet) (op key key2 : Nat) (s : State) : (accept p op key key2 s).woken = s.woken := by have h := congrArg State.woken (accept_quiet p op key key2 s); exact h
@[simp] theorem accept_kwait (p : Packet) (op key key2 : Nat) (s : State) : (accept p op key key2 s).kwait = s.kwait := by have h := congrArg State.kwait (accept_quiet p op key key2 s); exact h

/-! ## post -/

@[simp] theorem post_pending (d : Nat) (tag : Word) (orphan : Bool) (st : Nat) (ws : List Word) (s : State) : (post d tag orphan st ws s).pending = s.pending := by have h := congrArg State.pending (post_quiet d tag orphan st ws s); exact h
@[simp] theorem post_free (d : Nat) (tag : Word) (orphan : Bool) (st : Nat) (ws : List Word) (s : State) : (post d tag orphan st ws s).free = s.free := by have h := congrArg State.free (post_quiet d tag orphan st ws s); exact h
@[simp] theorem post_order (d : Nat) (tag : Word) (orphan : Bool) (st : Nat) (ws : List Word) (s : State) : (post d tag orphan st ws s).order = s.order := by have h := congrArg State.order (post_quiet d tag orphan st ws s); exact h
@[simp] theorem post_pins (d : Nat) (tag : Word) (orphan : Bool) (st : Nat) (ws : List Word) (s : State) : (post d tag orphan st ws s).pins = s.pins := by have h := congrArg State.pins (post_quiet d tag orphan st ws s); exact h
@[simp] theorem post_bay (d : Nat) (tag : Word) (orphan : Bool) (st : Nat) (ws : List Word) (s : State) : (post d tag orphan st ws s).bay = s.bay := by have h := congrArg State.bay (post_quiet d tag orphan st ws s); exact h
@[simp] theorem post_fe (d : Nat) (tag : Word) (orphan : Bool) (st : Nat) (ws : List Word) (s : State) : (post d tag orphan st ws s).fe = s.fe := by have h := congrArg State.fe (post_quiet d tag orphan st ws s); exact h
@[simp] theorem post_res (d : Nat) (tag : Word) (orphan : Bool) (st : Nat) (ws : List Word) (s : State) : (post d tag orphan st ws s).res = s.res := by have h := congrArg State.res (post_quiet d tag orphan st ws s); exact h
@[simp] theorem post_th (d : Nat) (tag : Word) (orphan : Bool) (st : Nat) (ws : List Word) (s : State) : (post d tag orphan st ws s).th = s.th := by have h := congrArg State.th (post_quiet d tag orphan st ws s); exact h
@[simp] theorem post_clk (d : Nat) (tag : Word) (orphan : Bool) (st : Nat) (ws : List Word) (s : State) : (post d tag orphan st ws s).clk = s.clk := by have h := congrArg State.clk (post_quiet d tag orphan st ws s); exact h
@[simp] theorem post_md (d : Nat) (tag : Word) (orphan : Bool) (st : Nat) (ws : List Word) (s : State) : (post d tag orphan st ws s).md = s.md := by have h := congrArg State.md (post_quiet d tag orphan st ws s); exact h
@[simp] theorem post_pwr (d : Nat) (tag : Word) (orphan : Bool) (st : Nat) (ws : List Word) (s : State) : (post d tag orphan st ws s).pwr = s.pwr := by have h := congrArg State.pwr (post_quiet d tag orphan st ws s); exact h
@[simp] theorem post_net (d : Nat) (tag : Word) (orphan : Bool) (st : Nat) (ws : List Word) (s : State) : (post d tag orphan st ws s).net = s.net := by have h := congrArg State.net (post_quiet d tag orphan st ws s); exact h
@[simp] theorem post_qos (d : Nat) (tag : Word) (orphan : Bool) (st : Nat) (ws : List Word) (s : State) : (post d tag orphan st ws s).qos = s.qos := by have h := congrArg State.qos (post_quiet d tag orphan st ws s); exact h
@[simp] theorem post_xpt (d : Nat) (tag : Word) (orphan : Bool) (st : Nat) (ws : List Word) (s : State) : (post d tag orphan st ws s).xpt = s.xpt := by have h := congrArg State.xpt (post_quiet d tag orphan st ws s); exact h
@[simp] theorem post_nvm (d : Nat) (tag : Word) (orphan : Bool) (st : Nat) (ws : List Word) (s : State) : (post d tag orphan st ws s).nvm = s.nvm := by have h := congrArg State.nvm (post_quiet d tag orphan st ws s); exact h
@[simp] theorem post_vol (d : Nat) (tag : Word) (orphan : Bool) (st : Nat) (ws : List Word) (s : State) : (post d tag orphan st ws s).vol = s.vol := by have h := congrArg State.vol (post_quiet d tag orphan st ws s); exact h
@[simp] theorem post_wbf (d : Nat) (tag : Word) (orphan : Bool) (st : Nat) (ws : List Word) (s : State) : (post d tag orphan st ws s).wbf = s.wbf := by have h := congrArg State.wbf (post_quiet d tag orphan st ws s); exact h
@[simp] theorem post_drv (d : Nat) (tag : Word) (orphan : Bool) (st : Nat) (ws : List Word) (s : State) : (post d tag orphan st ws s).drv = s.drv := by have h := congrArg State.drv (post_quiet d tag orphan st ws s); exact h
@[simp] theorem post_key (d : Nat) (tag : Word) (orphan : Bool) (st : Nat) (ws : List Word) (s : State) : (post d tag orphan st ws s).key = s.key := by have h := congrArg State.key (post_quiet d tag orphan st ws s); exact h
@[simp] theorem post_links (d : Nat) (tag : Word) (orphan : Bool) (st : Nat) (ws : List Word) (s : State) : (post d tag orphan st ws s).links = s.links := by have h := congrArg State.links (post_quiet d tag orphan st ws s); exact h
@[simp] theorem post_pair (d : Nat) (tag : Word) (orphan : Bool) (st : Nat) (ws : List Word) (s : State) : (post d tag orphan st ws s).pair = s.pair := by have h := congrArg State.pair (post_quiet d tag orphan st ws s); exact h
@[simp] theorem post_stk (d : Nat) (tag : Word) (orphan : Bool) (st : Nat) (ws : List Word) (s : State) : (post d tag orphan st ws s).stk = s.stk := by have h := congrArg State.stk (post_quiet d tag orphan st ws s); exact h
@[simp] theorem post_mem (d : Nat) (tag : Word) (orphan : Bool) (st : Nat) (ws : List Word) (s : State) : (post d tag orphan st ws s).mem = s.mem := by have h := congrArg State.mem (post_quiet d tag orphan st ws s); exact h
@[simp] theorem post_upd (d : Nat) (tag : Word) (orphan : Bool) (st : Nat) (ws : List Word) (s : State) : (post d tag orphan st ws s).upd = s.upd := by have h := congrArg State.upd (post_quiet d tag orphan st ws s); exact h
@[simp] theorem post_woken (d : Nat) (tag : Word) (orphan : Bool) (st : Nat) (ws : List Word) (s : State) : (post d tag orphan st ws s).woken = s.woken := by have h := congrArg State.woken (post_quiet d tag orphan st ws s); exact h
@[simp] theorem post_kwait (d : Nat) (tag : Word) (orphan : Bool) (st : Nat) (ws : List Word) (s : State) : (post d tag orphan st ws s).kwait = s.kwait := by have h := congrArg State.kwait (post_quiet d tag orphan st ws s); exact h

/-! ## releaseLock -/

@[simp] theorem releaseLock_pending (s : State) : (releaseLock s).pending = s.pending := by have h := congrArg State.pending (releaseLock_quiet s); exact h
@[simp] theorem releaseLock_free (s : State) : (releaseLock s).free = s.free := by have h := congrArg State.free (releaseLock_quiet s); exact h
@[simp] theorem releaseLock_order (s : State) : (releaseLock s).order = s.order := by have h := congrArg State.order (releaseLock_quiet s); exact h
@[simp] theorem releaseLock_pins (s : State) : (releaseLock s).pins = s.pins := by have h := congrArg State.pins (releaseLock_quiet s); exact h
@[simp] theorem releaseLock_bay (s : State) : (releaseLock s).bay = s.bay := by have h := congrArg State.bay (releaseLock_quiet s); exact h
@[simp] theorem releaseLock_fe (s : State) : (releaseLock s).fe = s.fe := by have h := congrArg State.fe (releaseLock_quiet s); exact h
@[simp] theorem releaseLock_res (s : State) : (releaseLock s).res = s.res := by have h := congrArg State.res (releaseLock_quiet s); exact h
@[simp] theorem releaseLock_th (s : State) : (releaseLock s).th = s.th := by have h := congrArg State.th (releaseLock_quiet s); exact h
@[simp] theorem releaseLock_clk (s : State) : (releaseLock s).clk = s.clk := by have h := congrArg State.clk (releaseLock_quiet s); exact h
@[simp] theorem releaseLock_md (s : State) : (releaseLock s).md = s.md := by have h := congrArg State.md (releaseLock_quiet s); exact h
@[simp] theorem releaseLock_pwr (s : State) : (releaseLock s).pwr = s.pwr := by have h := congrArg State.pwr (releaseLock_quiet s); exact h
@[simp] theorem releaseLock_net (s : State) : (releaseLock s).net = s.net := by have h := congrArg State.net (releaseLock_quiet s); exact h
@[simp] theorem releaseLock_qos (s : State) : (releaseLock s).qos = s.qos := by have h := congrArg State.qos (releaseLock_quiet s); exact h
@[simp] theorem releaseLock_xpt (s : State) : (releaseLock s).xpt = s.xpt := by have h := congrArg State.xpt (releaseLock_quiet s); exact h
@[simp] theorem releaseLock_nvm (s : State) : (releaseLock s).nvm = s.nvm := by have h := congrArg State.nvm (releaseLock_quiet s); exact h
@[simp] theorem releaseLock_vol (s : State) : (releaseLock s).vol = s.vol := by have h := congrArg State.vol (releaseLock_quiet s); exact h
@[simp] theorem releaseLock_wbf (s : State) : (releaseLock s).wbf = s.wbf := by have h := congrArg State.wbf (releaseLock_quiet s); exact h
@[simp] theorem releaseLock_drv (s : State) : (releaseLock s).drv = s.drv := by have h := congrArg State.drv (releaseLock_quiet s); exact h
@[simp] theorem releaseLock_key (s : State) : (releaseLock s).key = s.key := by have h := congrArg State.key (releaseLock_quiet s); exact h
@[simp] theorem releaseLock_links (s : State) : (releaseLock s).links = s.links := by have h := congrArg State.links (releaseLock_quiet s); exact h
@[simp] theorem releaseLock_pair (s : State) : (releaseLock s).pair = s.pair := by have h := congrArg State.pair (releaseLock_quiet s); exact h
@[simp] theorem releaseLock_stk (s : State) : (releaseLock s).stk = s.stk := by have h := congrArg State.stk (releaseLock_quiet s); exact h
@[simp] theorem releaseLock_mem (s : State) : (releaseLock s).mem = s.mem := by have h := congrArg State.mem (releaseLock_quiet s); exact h
@[simp] theorem releaseLock_upd (s : State) : (releaseLock s).upd = s.upd := by have h := congrArg State.upd (releaseLock_quiet s); exact h
@[simp] theorem releaseLock_woken (s : State) : (releaseLock s).woken = s.woken := by have h := congrArg State.woken (releaseLock_quiet s); exact h
@[simp] theorem releaseLock_kwait (s : State) : (releaseLock s).kwait = s.kwait := by have h := congrArg State.kwait (releaseLock_quiet s); exact h

end Sys2Proof.Machine
end

