-- ==== Sys2Proof/Laws/Letter.lean ====
section
/-! SUPPORT. What a Letterbox command does when its desk takes the packet, by what the desk answers: the reply that sets out, and
that the state is the desk's but for the reply, its counters and its shadow record. -/
namespace Sys2Proof.Machine

/-- What keeps `quiet` keeps `calm`. -/
theorem calm_of_quiet {s t : State} (h : s.quiet = t.quiet) : s.calm = t.calm := by
  have e : ∀ x : State, x.calm = { x.quiet with links := {}, pair := {} } := fun _ => rfl
  rw [e s, e t, h]

@[simp] theorem onLinks_calm (f : Links → Links) (s : State) : (s.onLinks f).calm = s.calm := rfl
@[simp] theorem onPair_calm (f : Pair → Pair) (s : State) : (s.onPair f).calm = s.calm := rfl
@[simp] theorem onLb_calm (f : Letterbox → Letterbox) (s : State) : (s.onLb f).calm = s.calm := rfl
@[simp] theorem onSe_calm (f : Se → Se) (s : State) : (s.onSe f).calm = s.calm := rfl
@[simp] theorem onTal_calm (f : Tally → Tally) (s : State) : (s.onTal f).calm = s.calm := rfl
@[simp] theorem send_calm (m : OutMsg) (s : State) : (send m s).calm = s.calm := rfl
@[simp] theorem onLink_calm (k : Nat) (f : Link → Link) (s : State) : (onLink k f s).calm = s.calm := rfl
@[simp] theorem count_calm (n k : Nat) (s : State) : (count n k s).calm = s.calm := calm_of_quiet (count_quiet n k s)
@[simp] theorem count1_calm (n : Nat) (s : State) : (count1 n s).calm = s.calm := calm_of_quiet (count1_quiet n s)
@[simp] theorem raise_calm (ev : Nat) (w : Word) (s : State) : (raise ev w s).calm = s.calm := calm_of_quiet (raise_quiet ev w s)
@[simp] theorem raiseAt_calm (n : Nat) (ds : List Nat) (ev : Nat) (w : Word) (s : State) : (raiseAt n ds ev w s).calm = s.calm :=
  calm_of_quiet (raiseAt_quiet n ds ev w s)
@[simp] theorem finish_calm (p : Running → Bool) (ev st : Nat) (w : Word) (s : State) : (finish p ev st w s).calm = s.calm :=
  calm_of_quiet (finish_quiet p ev st w s)
@[simp] theorem complete_calm (d : Nat) (tag : Word) (ev st : Nat) (w : Word) (s : State) : (complete d tag ev st w s).calm = s.calm :=
  calm_of_quiet (complete_quiet d tag ev st w s)
@[simp] theorem accept_calm (p : Packet) (op k k2 : Nat) (s : State) : (accept p op k k2 s).calm = s.calm := rfl
@[simp] theorem post_calm (d : Nat) (tag : Word) (o : Bool) (st : Nat) (ws : List Word) (s : State) :
    (post d tag o st ws s).calm = s.calm := calm_of_quiet (post_quiet d tag o st ws s)
@[simp] theorem releaseLock_calm (s : State) : (releaseLock s).calm = s.calm := rfl
@[simp] theorem onDoor_calm (d : Nat) (f : Door → Door) (s : State) : (onDoor d f s).calm = s.calm := calm_of_quiet (onDoor_quiet d f s)
@[simp] theorem settle_calm (d : Nat) (s : State) : (settle d s).calm = s.calm := calm_of_quiet (settle_quiet d s)
@[simp] theorem signalVec_calm (v : Nat) (s : State) : (signalVec v s).calm = s.calm := calm_of_quiet (signalVec_quiet v s)
@[simp] theorem touchLock_calm (d : Nat) (s : State) : (touchLock d s).calm = s.calm := rfl
@[simp] theorem counted_calm (s : State) (p : Packet) : (s.counted p).calm = s.calm := by simp [State.counted]

/-- A conditional operation that keeps `calm` keeps it. -/
theorem doIf_calm (b : Bool) (f : State → State) (h : ∀ t, (f t).calm = t.calm) (s : State) : (doIf b f s).calm = s.calm := by
  cases b <;> simp [doIf, h]

@[simp] theorem takePseq_calm (r : LinkRec) (s : State) : (takePseq r s).2.calm = s.calm := by
  unfold takePseq; split <;> rfl

/-- A record that starts, or waits, on a link changes only the links, the pairing desk's numbers, the log and the counters (R707, R712). -/
@[simp] theorem startRecord_calm (k : Nat) (r : LinkRec) (s : State) : (startRecord k r s).calm = s.calm := by
  unfold startRecord; simp

@[simp] theorem linkSendLen_calm (k len : Nat) (m : OutMsg) (s : State) : (linkSendLen k len m s).calm = s.calm := by
  unfold linkSendLen; dsimp only; repeat' (first | (with_reducible rfl) | (simp; done) | split)

@[simp] theorem linkSend_calm (k : Nat) (m : OutMsg) (s : State) : (linkSend k m s).calm = s.calm := by simp [linkSend]

/-- A shadow record changes nothing that the desks hold (R714, R730). -/
@[simp] theorem shadow_calm (k : OutKind) (a b : Nat) (s : State) : (shadow k a b s).calm = s.calm := by
  unfold shadow; split <;> simp

@[simp] theorem shadowLetter_calm (op : Nat) (p : Packet) (s : State) : (shadowLetter op p s).calm = s.calm := by
  unfold shadowLetter; split <;> simp

/-- The reply that `post` sends out is the last that waits for its door. -/
theorem post_replied (p : Packet) (st : Nat) (ws : List Word) (s : State) (h : p.door < 3) :
    Replied p st ws (post p.door p.tag false st ws s) := by
  have hd : ¬ 2 < p.door := by omega
  simp [post, Replied, hd, State.onLb]

/-- The reply of a command that its desk has performed. -/
theorem answered_replied {op : Nat} {p : Packet} {ws : List Word} {u : State} (h : p.door < 3) :
    Replied p stOk ws (answered op p ws u) := post_replied p stOk ws _ h

/-- And the state it leaves, but for the reply and the shadow record. -/
theorem answered_calm (op : Nat) (p : Packet) (ws : List Word) (u : State) : (answered op p ws u).calm = u.calm := by simp [answered]

/-- After an ACCEPTED reply sets out it waits for its door. -/
theorem post_waits (p : Packet) (ws : List Word) (s : State) (h : p.door < 3) :
    replyWaits (post p.door p.tag false stAccepted ws s) p.door p.tag = true := by
  have hd : ¬ 2 < p.door := by omega
  simp [post, replyWaits, hd, State.onLb, stAccepted]

/-- The parts of `taken`. -/
theorem taken_parts {op n d : Nat} {p : Packet} {s : State} (h : taken op n d p s = true) :
    p.door < 3 ∧ deskEntry op p s = none ∧ preCheck op p (s.counted p) = none
      ∧ (match catRow op with | some r => wakesFirst r (s.counted p) | none => false) = false
      ∧ p.pwc = n ∧ p.words.length = n + d := by
  simp only [taken, below, Bool.and_eq_true, decide_eq_true_eq, Option.isNone_iff_eq_none, Bool.not_eq_true'] at h
  obtain ⟨⟨⟨⟨⟨h1, h2⟩, h3⟩, h4⟩, h5⟩, h6⟩ := h
  exact ⟨h1, h2, h3, h4, h5, h6⟩

/-- A packet that is taken reaches its desk. -/
theorem runLetter_taken {op n d : Nat} {p : Packet} {s : State} (h : taken op n d p s = true) (lenOk : Bool) (desk : State → Desk) :
    runLetter op p s lenOk desk = atDesk op p false lenOk (s.arrived op p) desk := by
  obtain ⟨-, h2, h3, h4, -, -⟩ := taken_parts h
  unfold runLetter
  rw [h2]
  simp only []
  change (match preCheck op p (s.counted p) with | some (st, ws) => _ | none => _) = _
  rw [h3]
  simp only []
  change (if (match catRow op with | some r => wakesFirst r (s.counted p) | none => false) = true then _ else _) = _
  rw [h4]
  rfl

/-- So does a command without data. -/
theorem letter_taken {op n : Nat} {p : Packet} {s : State} (h : taken op n 0 p s = true) (desk : State → Desk) :
    letter op n p s desk = .next (atDesk op p false true (s.arrived op p) desk) := by
  obtain ⟨-, -, -, -, h5, h6⟩ := taken_parts h
  unfold letter
  rw [runLetter_taken h, h5, h6]
  simp

/-- And one with data. -/
theorem letterData_taken {op n d : Nat} {p : Packet} {s : State} (h : taken op n d p s = true) (desk : State → Desk) :
    letterData op n d p s desk = .next (atDesk op p false true (s.arrived op p) desk) := by
  obtain ⟨-, -, -, -, h5, h6⟩ := taken_parts h
  unfold letterData
  rw [runLetter_taken h, h5, h6]
  simp

/-- The state after a desk that answers OK, whole. -/
theorem atDesk_ok_eq {op : Nat} {p : Packet} {s u : State} {ws : List Word} {desk : State → Desk} (h : desk s = (stOk, ws, u)) :
    atDesk op p false true s desk = answered op p ws u := by
  simp [answered, atDesk, h, stOk, stWithheld, stAccepted, doIf]

/-- The state after a desk that denies, whole. -/
theorem atDesk_deny_eq {op : Nat} {p : Packet} {s u : State} {st : Nat} {ws : List Word} {desk : State → Desk}
    (h : desk s = (st, ws, u)) (h0 : st ≠ stOk) (h1 : st ≠ stAccepted) (h2 : st ≠ stWithheld) :
    atDesk op p false true s desk = post p.door p.tag false st ws u := by
  simp [atDesk, h, h0, h1, h2, doIf]

/-- The state after a desk that accepts, whole: the reply waits for its door, and the effect runs behind it (R861). -/
theorem atDesk_accept_eq {op : Nat} {p : Packet} {s u v : State} {ws' : List Word} {desk : State → Desk}
    (h : desk s = (stAccepted, [], u)) (h' : desk (post p.door p.tag false stAccepted [] s) = (stAccepted, ws', v)) :
    atDesk op p false true s desk = accepted op p v := by
  simp only [stAccepted] at h h' ⊢
  simp [accepted, atDesk, h, h', stWithheld, stAccepted]

/-- The state after a desk that withholds its reply until epochs drain (R198, R493), whole. -/
theorem atDesk_withhold_eq {op : Nat} {p : Packet} {s u : State} {ws : List Word} {desk : State → Desk}
    (h : desk s = (stWithheld, ws, u)) : atDesk op p false true s desk = shadowLetter op p u := by simp [atDesk, h]

end Sys2Proof.Machine
end

