-- ==== Sys2Proof/Laws/Doors.lean ====
section
/-! SUPPORT. Events and counters touch the Letterbox at its three doors only: its lock, queues, keys and addresses stay. -/
namespace Sys2Proof.Machine

/-- The Letterbox without its doors. -/
def Letterbox.rest (l : Letterbox) : Letterbox := { l with d0 := {}, d1 := {}, d2 := {} }

@[simp] theorem onDoor_rest (d : Nat) (f : Door → Door) (s : State) : (onDoor d f s).lb.rest = s.lb.rest := by
  unfold onDoor; split <;> rfl

@[simp] theorem signalVec_rest (v : Nat) (s : State) : (signalVec v s).lb.rest = s.lb.rest := by
  unfold signalVec; dsimp only; split <;> rfl

@[simp] theorem settle_rest (d : Nat) (s : State) : (settle d s).lb.rest = s.lb.rest := by
  unfold settle; dsimp only; split <;> simp

@[simp] theorem pushEvent_rest (d : Nat) (c : Bool) (ev st : Nat) (param tag : Word) (s : State) :
    (pushEvent d c ev st param tag s).lb.rest = s.lb.rest := by simp [pushEvent]

@[simp] theorem bump_lb (n k : Nat) (s : State) : (bump n k s).lb = s.lb := by
  unfold bump; split <;> rfl

@[simp] theorem storeOrdinary_rest (ev : Nat) (param : Word) (d : Nat) (s : State) : (storeOrdinary ev param d s).1.lb.rest = s.lb.rest := by
  unfold storeOrdinary; dsimp only; split
  · rfl
  · split <;> simp

/-- A fold of operations that keep the rest keeps it. -/
theorem foldl_rest {α : Type} (f : State → α → State) (h : ∀ t x, (f t x).lb.rest = t.lb.rest) (xs : List α) (s : State) :
    (xs.foldl f s).lb.rest = s.lb.rest := by
  induction xs generalizing s with
  | nil => rfl
  | cons x xs ih => rw [List.foldl_cons, ih, h]

@[simp] theorem raiseAt_rest (fuel : Nat) (ds : List Nat) (ev : Nat) (param : Word) (s : State) :
    (raiseAt fuel ds ev param s).lb.rest = s.lb.rest := by
  induction fuel generalizing ds ev param s with
  | zero => rfl
  | succ n ih =>
    unfold raiseAt
    refine foldl_rest _ (fun t d => ?_) ds s
    have h := storeOrdinary_rest ev param d t
    rcases e : storeOrdinary ev param d t with ⟨u, told⟩
    rw [e] at h
    cases told
    · exact h
    · exact (ih _ _ _ _).trans h

@[simp] theorem raise_rest (ev : Nat) (w : Word) (s : State) : (raise ev w s).lb.rest = s.lb.rest := raiseAt_rest _ _ _ _ s

@[simp] theorem count_rest (n k : Nat) (s : State) : (count n k s).lb.rest = s.lb.rest := by
  have h : ∀ b t, (doIf b (raiseOverflow n) t).lb.rest = t.lb.rest := by
    intro b t
    cases b
    · rfl
    · have e : ∀ c : Bool, (if c = true then t else raiseAt 4 [0, 1, 2] 960 (word n) (t.onTal fun x => { x with ovfAt := some t.clk.now })).lb.rest = t.lb.rest := by
        intro c; cases c
        · exact raiseAt_rest _ _ _ _ _
        · rfl
      exact e _
  exact (h _ _).trans (by rw [bump_lb])

@[simp] theorem count1_rest (n : Nat) (s : State) : (count1 n s).lb.rest = s.lb.rest := count_rest n 1 s

@[simp] theorem count1_inbox (n : Nat) (s : State) : (count1 n s).lb.inbox = s.lb.inbox := by have h := congrArg Letterbox.inbox (count1_rest n s); exact h
@[simp] theorem count1_replies (n : Nat) (s : State) : (count1 n s).lb.replies = s.lb.replies := by have h := congrArg Letterbox.replies (count1_rest n s); exact h
@[simp] theorem count1_running (n : Nat) (s : State) : (count1 n s).lb.running = s.lb.running := by have h := congrArg Letterbox.running (count1_rest n s); exact h
@[simp] theorem count1_heldEv (n : Nat) (s : State) : (count1 n s).lb.heldEv = s.lb.heldEv := by have h := congrArg Letterbox.heldEv (count1_rest n s); exact h
@[simp] theorem count1_lock (n : Nat) (s : State) : (count1 n s).lb.lock = s.lb.lock := by have h := congrArg Letterbox.lock (count1_rest n s); exact h
@[simp] theorem count1_k0 (n : Nat) (s : State) : (count1 n s).lb.k0 = s.lb.k0 := by have h := congrArg Letterbox.k0 (count1_rest n s); exact h
@[simp] theorem count1_k1 (n : Nat) (s : State) : (count1 n s).lb.k1 = s.lb.k1 := by have h := congrArg Letterbox.k1 (count1_rest n s); exact h
@[simp] theorem count1_authAt (n : Nat) (s : State) : (count1 n s).lb.authAt = s.lb.authAt := by have h := congrArg Letterbox.authAt (count1_rest n s); exact h
@[simp] theorem count1_rateAt (n : Nat) (s : State) : (count1 n s).lb.rateAt = s.lb.rateAt := by have h := congrArg Letterbox.rateAt (count1_rest n s); exact h
@[simp] theorem count1_rateN (n : Nat) (s : State) : (count1 n s).lb.rateN = s.lb.rateN := by have h := congrArg Letterbox.rateN (count1_rest n s); exact h
@[simp] theorem count1_wait (n : Nat) (s : State) : (count1 n s).lb.wait = s.lb.wait := by have h := congrArg Letterbox.wait (count1_rest n s); exact h
@[simp] theorem count1_authKey (n : Nat) (s : State) : (count1 n s).lb.authKey = s.lb.authKey := by have h := congrArg Letterbox.authKey (count1_rest n s); exact h
@[simp] theorem count1_mgmtNew (n : Nat) (s : State) : (count1 n s).lb.mgmtNew = s.lb.mgmtNew := by have h := congrArg Letterbox.mgmtNew (count1_rest n s); exact h
@[simp] theorem count1_mgmtMode (n : Nat) (s : State) : (count1 n s).lb.mgmtMode = s.lb.mgmtMode := by have h := congrArg Letterbox.mgmtMode (count1_rest n s); exact h
@[simp] theorem count1_mgmtPfx4 (n : Nat) (s : State) : (count1 n s).lb.mgmtPfx4 = s.lb.mgmtPfx4 := by have h := congrArg Letterbox.mgmtPfx4 (count1_rest n s); exact h
@[simp] theorem count1_mgmtPfx6 (n : Nat) (s : State) : (count1 n s).lb.mgmtPfx6 = s.lb.mgmtPfx6 := by have h := congrArg Letterbox.mgmtPfx6 (count1_rest n s); exact h
@[simp] theorem count1_mgmt4 (n : Nat) (s : State) : (count1 n s).lb.mgmt4 = s.lb.mgmt4 := by have h := congrArg Letterbox.mgmt4 (count1_rest n s); exact h
@[simp] theorem count1_mgmtGw (n : Nat) (s : State) : (count1 n s).lb.mgmtGw = s.lb.mgmtGw := by have h := congrArg Letterbox.mgmtGw (count1_rest n s); exact h
@[simp] theorem count1_mgmt6 (n : Nat) (s : State) : (count1 n s).lb.mgmt6 = s.lb.mgmt6 := by have h := congrArg Letterbox.mgmt6 (count1_rest n s); exact h
@[simp] theorem raise_inbox (ev : Nat) (w : Word) (s : State) : (raise ev w s).lb.inbox = s.lb.inbox := by have h := congrArg Letterbox.inbox (raise_rest ev w s); exact h
@[simp] theorem raise_replies (ev : Nat) (w : Word) (s : State) : (raise ev w s).lb.replies = s.lb.replies := by have h := congrArg Letterbox.replies (raise_rest ev w s); exact h
@[simp] theorem raise_running (ev : Nat) (w : Word) (s : State) : (raise ev w s).lb.running = s.lb.running := by have h := congrArg Letterbox.running (raise_rest ev w s); exact h
@[simp] theorem raise_heldEv (ev : Nat) (w : Word) (s : State) : (raise ev w s).lb.heldEv = s.lb.heldEv := by have h := congrArg Letterbox.heldEv (raise_rest ev w s); exact h
@[simp] theorem raise_lock (ev : Nat) (w : Word) (s : State) : (raise ev w s).lb.lock = s.lb.lock := by have h := congrArg Letterbox.lock (raise_rest ev w s); exact h
@[simp] theorem raise_k0 (ev : Nat) (w : Word) (s : State) : (raise ev w s).lb.k0 = s.lb.k0 := by have h := congrArg Letterbox.k0 (raise_rest ev w s); exact h
@[simp] theorem raise_k1 (ev : Nat) (w : Word) (s : State) : (raise ev w s).lb.k1 = s.lb.k1 := by have h := congrArg Letterbox.k1 (raise_rest ev w s); exact h
@[simp] theorem raise_authAt (ev : Nat) (w : Word) (s : State) : (raise ev w s).lb.authAt = s.lb.authAt := by have h := congrArg Letterbox.authAt (raise_rest ev w s); exact h
@[simp] theorem raise_rateAt (ev : Nat) (w : Word) (s : State) : (raise ev w s).lb.rateAt = s.lb.rateAt := by have h := congrArg Letterbox.rateAt (raise_rest ev w s); exact h
@[simp] theorem raise_rateN (ev : Nat) (w : Word) (s : State) : (raise ev w s).lb.rateN = s.lb.rateN := by have h := congrArg Letterbox.rateN (raise_rest ev w s); exact h
@[simp] theorem raise_wait (ev : Nat) (w : Word) (s : State) : (raise ev w s).lb.wait = s.lb.wait := by have h := congrArg Letterbox.wait (raise_rest ev w s); exact h
@[simp] theorem raise_authKey (ev : Nat) (w : Word) (s : State) : (raise ev w s).lb.authKey = s.lb.authKey := by have h := congrArg Letterbox.authKey (raise_rest ev w s); exact h
@[simp] theorem raise_mgmtNew (ev : Nat) (w : Word) (s : State) : (raise ev w s).lb.mgmtNew = s.lb.mgmtNew := by have h := congrArg Letterbox.mgmtNew (raise_rest ev w s); exact h
@[simp] theorem raise_mgmtMode (ev : Nat) (w : Word) (s : State) : (raise ev w s).lb.mgmtMode = s.lb.mgmtMode := by have h := congrArg Letterbox.mgmtMode (raise_rest ev w s); exact h
@[simp] theorem raise_mgmtPfx4 (ev : Nat) (w : Word) (s : State) : (raise ev w s).lb.mgmtPfx4 = s.lb.mgmtPfx4 := by have h := congrArg Letterbox.mgmtPfx4 (raise_rest ev w s); exact h
@[simp] theorem raise_mgmtPfx6 (ev : Nat) (w : Word) (s : State) : (raise ev w s).lb.mgmtPfx6 = s.lb.mgmtPfx6 := by have h := congrArg Letterbox.mgmtPfx6 (raise_rest ev w s); exact h
@[simp] theorem raise_mgmt4 (ev : Nat) (w : Word) (s : State) : (raise ev w s).lb.mgmt4 = s.lb.mgmt4 := by have h := congrArg Letterbox.mgmt4 (raise_rest ev w s); exact h
@[simp] theorem raise_mgmtGw (ev : Nat) (w : Word) (s : State) : (raise ev w s).lb.mgmtGw = s.lb.mgmtGw := by have h := congrArg Letterbox.mgmtGw (raise_rest ev w s); exact h
@[simp] theorem raise_mgmt6 (ev : Nat) (w : Word) (s : State) : (raise ev w s).lb.mgmt6 = s.lb.mgmt6 := by have h := congrArg Letterbox.mgmt6 (raise_rest ev w s); exact h

/-- A reply that is not BUSY only joins those on their way. -/
theorem post_eq {d : Nat} {tag : Word} {o : Bool} {st : Nat} {ws : List Word} {s : State} (hd : d < 3) (h : st ≠ stBusy) :
    post d tag o st ws s = s.onLb fun l => { l with replies := l.replies ++ [{ door := d, tag := tag, status := st, words := ws, orphan := o }] } := by
  have e : ¬ 2 < d := by omega
  simp [post, e, h, doIf]

/-- A desk that answers OK, given as its three parts, where nothing of the command is shadowed. -/
theorem atDesk_plain {op : Nat} {p : Packet} {s : State} {desk : State → Desk} (hd : p.door < 3) (h : (desk s).1 = stOk)
    (hs : (derivedOps.contains op || writtenOps.contains op) = false) :
    atDesk op p false true s desk = (desk s).2.2.onLb fun l =>
      { l with replies := l.replies ++ [{ door := p.door, tag := p.tag, status := stOk, words := (desk s).2.1, orphan := false }] } := by
  have e : desk s = (stOk, (desk s).2.1, (desk s).2.2) := by rw [← h]
  rw [atDesk_ok_eq e, answered, post_eq hd (by decide)]
  simp only [shadowLetter, hs, Bool.false_eq_true, if_false]

/-- A packet that arrives is counted, and that leaves the Letterbox as it was but for its doors and the lock's time. -/
theorem counted_lockHolder (s : State) (p : Packet) : (s.counted p).lockHolder = s.lockHolder := by
  have h := count1_lock (16 + p.door) s
  unfold State.counted touchLock State.lockHolder
  simp only [State.onLb, h]
  cases s.lb.lock with
  | none => rfl
  | some l => simp only [Option.map_some]; split <;> rfl

end Sys2Proof.Machine
end

