-- ==== Sys2Proof/Laws/KeptBase.lean ====
section
/-! SUPPORT. The queue, the ordering code, the mode and the Boot stage (`State.kept`) under each operation of the shared operations, the engine below the hosts and the ports: one lemma for
each, which says that it keeps them. -/
namespace Sys2Proof.Machine

/-- What no operation but a change of mode, a restart and a row of Boot touches: the commands that wait, the ordering code, the mode
and the Boot stage. -/
def State.kept (s : State) : List Instr × Nat × Mode × BootStage := (s.pending, s.order, s.md.mode, s.md.stage)
@[simp] theorem mk_kept (pending out free order pins bay fe res th clk md lb se tal pwr net qos xpt nvm vol wbf drv key links pair stk mem upd woken kwait) : State.kept (State.mk pending out free order pins bay fe res th clk md lb se tal pwr net qos xpt nvm vol wbf drv key links pair stk mem upd woken kwait) = (pending, order, md.mode, md.stage) := id rfl
@[simp] theorem fold_kept (s : State) : (s.pending, s.order, s.md.mode, s.md.stage) = s.kept := id rfl
@[simp ↓] theorem State.onLb_kept (f) (s : State) : (State.onLb f s).kept = s.kept := id rfl
@[simp ↓] theorem State.onSe_kept (f) (s : State) : (State.onSe f s).kept = s.kept := id rfl
@[simp ↓] theorem State.onTal_kept (f) (s : State) : (State.onTal f s).kept = s.kept := id rfl
@[simp ↓] theorem State.onPwr_kept (f) (s : State) : (State.onPwr f s).kept = s.kept := id rfl
@[simp ↓] theorem State.onNet_kept (f) (s : State) : (State.onNet f s).kept = s.kept := id rfl
@[simp ↓] theorem State.onFe_kept (f) (s : State) : (State.onFe f s).kept = s.kept := id rfl
@[simp ↓] theorem State.onRes_kept (f) (s : State) : (State.onRes f s).kept = s.kept := id rfl
@[simp ↓] theorem State.onQos_kept (f) (s : State) : (State.onQos f s).kept = s.kept := id rfl
@[simp ↓] theorem State.onXpt_kept (f) (s : State) : (State.onXpt f s).kept = s.kept := id rfl
@[simp ↓] theorem State.onNvm_kept (f) (s : State) : (State.onNvm f s).kept = s.kept := id rfl
@[simp ↓] theorem State.onVol_kept (f) (s : State) : (State.onVol f s).kept = s.kept := id rfl
@[simp ↓] theorem State.onWbf_kept (f) (s : State) : (State.onWbf f s).kept = s.kept := id rfl
@[simp ↓] theorem State.onDrv_kept (f) (s : State) : (State.onDrv f s).kept = s.kept := id rfl
@[simp ↓] theorem State.onKey_kept (f) (s : State) : (State.onKey f s).kept = s.kept := id rfl
@[simp ↓] theorem State.onLinks_kept (f) (s : State) : (State.onLinks f s).kept = s.kept := id rfl
@[simp ↓] theorem State.onPair_kept (f) (s : State) : (State.onPair f s).kept = s.kept := id rfl
@[simp ↓] theorem State.onStk_kept (f) (s : State) : (State.onStk f s).kept = s.kept := id rfl
@[simp ↓] theorem State.onMem_kept (f) (s : State) : (State.onMem f s).kept = s.kept := id rfl
@[simp ↓] theorem State.onUpd_kept (f) (s : State) : (State.onUpd f s).kept = s.kept := id rfl
@[simp] theorem State.onMd_kept (f) (s : State) (h : (f s.md).mode = s.md.mode) (k : (f s.md).stage = s.md.stage) : (State.onMd f s).kept = s.kept := by
  show (s.pending, s.order, (f s.md).mode, (f s.md).stage) = _; rw [h, k]; rfl
@[simp ↓] theorem State.onMd_kept_all (f) (s : State) (h : ∀ m, (f m).mode = m.mode) (k : ∀ m, (f m).stage = m.stage) : (State.onMd f s).kept = s.kept :=
  State.onMd_kept f s (h _) (k _)
/-- Folds and conditionals keep what their bodies keep. -/
theorem foldl_kept {α : Type} (f : State → α → State) (h : ∀ t x, (f t x).kept = t.kept) (xs : List α) (s : State) : (xs.foldl f s).kept = s.kept := by
  induction xs generalizing s with
  | nil => rfl
  | cons x xs ih => rw [List.foldl_cons, ih, h]
@[simp ↓] theorem foldl_snd_kept {α β : Type} (f : β × State → α → β × State) (xs : List α) (a : β × State) (h : ∀ a x, (f a x).2.kept = a.2.kept) : (xs.foldl f a).2.kept = a.2.kept := by
  induction xs generalizing a with
  | nil => rfl
  | cons x xs ih => rw [List.foldl_cons, ih, h]
@[simp ↓] theorem foldl_kept' {α : Type} (f : State → α → State) (xs : List α) (s : State) (h : ∀ t x, (f t x).kept = t.kept) : (xs.foldl f s).kept = s.kept := foldl_kept f h xs s
/-- A meaning answers one next state. -/
theorem next_kept {a : State} {x : List Instr × Nat × Mode × BootStage} (h : a.kept = x) : ∀ z, (.next a : Out) = .next z → z.kept = x := by intro z hz; cases hz; exact h
@[simp ↓] theorem ite_desk_kept (c : Prop) [Decidable c] (a b : Desk) : (if c then a else b).2.2.kept = if c then a.2.2.kept else b.2.2.kept := by split <;> rfl
@[simp ↓] theorem ite_snd_kept {α : Type} (c : Prop) [Decidable c] (a b : α × State) : (if c then a else b).2.kept = if c then a.2.kept else b.2.kept := by split <;> rfl
@[simp ↓] theorem ite_fst_kept {α : Type} (c : Prop) [Decidable c] (a b : State × α) : (if c then a else b).1.kept = if c then a.1.kept else b.1.kept := by split <;> rfl
@[simp ↓] theorem ite_kept (c : Prop) [Decidable c] (a b : State) : (if c then a else b).kept = if c then a.kept else b.kept := by split <;> rfl

@[simp ↓] theorem send_kept (m : OutMsg) (s : State) : (send m s).kept = s.kept := by
  unfold send; simp
@[simp ↓] theorem takeFree_kept (s : State) : (takeFree s).2.kept = s.kept := by
  unfold takeFree; simp
@[simp ↓] theorem forAll_kept {α : Type} (xs : List α) (f : α → State → State) (s : State) (hf : ∀ x0 x1, (f x0 x1).kept = x1.kept) : (forAll xs f s).kept = s.kept := by
  unfold forAll; simp [hf]
@[simp ↓] theorem doIf_kept (b : Bool) (f : State → State) (s : State) (hf : ∀ x0, (f x0).kept = x0.kept) : (doIf b f s).kept = s.kept := by
  unfold doIf; simp [hf]
@[simp ↓] theorem onDoor_kept (d : Nat) (f : Door → Door) (s : State) : (onDoor d f s).kept = s.kept := by
  unfold onDoor; repeat' (first | (with_reducible rfl) | (simp; done) | (dsimp only) | split)
@[simp ↓] theorem signalVec_kept (v : Nat) (s : State) : (signalVec v s).kept = s.kept := by
  unfold signalVec; simp
@[simp ↓] theorem settle_kept (d : Nat) (s : State) : (settle d s).kept = s.kept := by
  unfold settle; simp
@[simp ↓] theorem bump_kept (n k : Nat) (s : State) : (bump n k s).kept = s.kept := by
  unfold bump; simp
@[simp ↓] theorem pushEvent_kept (d : Nat) (compl : Bool) (ev status : Nat) (param tag : Word) (s : State) : (pushEvent d compl ev status param tag s).kept = s.kept := by
  unfold pushEvent; simp
@[simp ↓] theorem storeOrdinary_kept (ev : Nat) (param : Word) (d : Nat) (s : State) : (storeOrdinary ev param d s).1.kept = s.kept := by
  unfold storeOrdinary; simp
@[simp ↓] theorem raiseAt_kept (fuel : Nat) (ds : List Nat) (ev : Nat) (param : Word) (s : State) : (raiseAt fuel ds ev param s).kept = s.kept := by
  induction fuel generalizing ds ev param s with
  | zero => rfl
  | succ n ih =>
    unfold raiseAt
    refine foldl_kept _ (fun t d => ?_) _ _
    dsimp only; split <;> simp [ih]
@[simp ↓] theorem raiseOverflow_kept (n : Nat) (s : State) : (raiseOverflow n s).kept = s.kept := by
  unfold raiseOverflow; simp
@[simp ↓] theorem count_kept (n k : Nat) (s : State) : (count n k s).kept = s.kept := by
  unfold count; simp
@[simp ↓] theorem count1_kept (n : Nat) (s : State) : (count1 n s).kept = s.kept := by
  unfold count1; simp
@[simp ↓] theorem raise_kept (ev : Nat) (param : Word) (s : State) : (raise ev param s).kept = s.kept := by
  unfold raise; simp
@[simp ↓] theorem complete_kept (d : Nat) (tag : Word) (ev status : Nat) (param : Word) (s : State) : (complete d tag ev status param s).kept = s.kept := by
  unfold complete; simp
@[simp ↓] theorem finish_kept (p : Running → Bool) (ev status : Nat) (param : Word) (s : State) : (finish p ev status param s).kept = s.kept := by
  unfold finish; simp
@[simp ↓] theorem finishOnly_kept (p : Running → Bool) (ev status : Nat) (param : Word) (s : State) : (finishOnly p ev status param s).kept = s.kept := by
  unfold finishOnly; simp
@[simp ↓] theorem accept_kept (p : Packet) (op key key2 : Nat) (s : State) : (accept p op key key2 s).kept = s.kept := by
  unfold accept; simp
@[simp ↓] theorem post_kept (d : Nat) (tag : Word) (orphan : Bool) (status : Nat) (ws : List Word) (s : State) : (post d tag orphan status ws s).kept = s.kept := by
  unfold post; simp
@[simp ↓] theorem releaseLock_kept (s : State) : (releaseLock s).kept = s.kept := by
  unfold releaseLock; simp
@[simp ↓] theorem stopGates_kept (s : State) : (stopGates s).kept = s.kept := by
  unfold stopGates; simp
@[simp ↓] theorem beginDrowseExit_kept (s : State) : (beginDrowseExit s).kept = s.kept := by
  unfold beginDrowseExit; simp
@[simp ↓] theorem entryArrival_kept (s : State) : (entryArrival s).kept = s.kept := by
  unfold entryArrival; repeat' (first | (with_reducible rfl) | (simp; done) | (dsimp only) | split | (refine (State.onMd_kept _ _ ?_ ?_).trans ?_))
@[simp ↓] theorem beginDrowse_kept (s : State) : (beginDrowse s).kept = s.kept := by
  unfold beginDrowse; simp
@[simp ↓] theorem onCage_kept (c : Nat) (f : Cage → Cage) (s : State) : (onCage c f s).kept = s.kept := by
  unfold onCage; simp
@[simp ↓] theorem onLport_kept (l : Nat) (f : LPort → LPort) (s : State) : (onLport l f s).kept = s.kept := by
  unfold onLport; simp
@[simp ↓] theorem setQueue_kept (k : Nat) (q : List QFrame) (s : State) : (setQueue k q s).kept = s.kept := by
  unfold setQueue; simp
@[simp ↓] theorem sendPfc_kept (l pcp quanta : Nat) (s : State) : (sendPfc l pcp quanta s).kept = s.kept := by
  unfold sendPfc; simp
@[simp ↓] theorem checkXoff_kept (l pcp : Nat) (s : State) : (checkXoff l pcp s).kept = s.kept := by
  unfold checkXoff; simp
@[simp ↓] theorem checkXon_kept (l pcp : Nat) (s : State) : (checkXon l pcp s).kept = s.kept := by
  unfold checkXon; simp
@[simp ↓] theorem ecnMark_kept (k : Nat) (lossy : Bool) (ecn : Nat) (s : State) : (ecnMark k lossy ecn s).2.kept = s.kept := by
  unfold ecnMark; simp
@[simp ↓] theorem enqueueFrame_kept (k : Nat) (f : QFrame) (s : State) : (enqueueFrame k f s).kept = s.kept := by
  unfold enqueueFrame; simp
@[simp ↓] theorem putOut_kept (x : TxFrames) (s : State) : (putOut x s).kept = s.kept := by
  unfold putOut; simp
@[simp ↓] theorem mirrorCopy_kept (i len pcp ecn : Nat) (s : State) : (mirrorCopy i len pcp ecn s).kept = s.kept := by
  unfold mirrorCopy; simp
@[simp ↓] theorem mirrorPort_kept (l dirBit len pcp ecn : Nat) (s : State) : (mirrorPort l dirBit len pcp ecn s).kept = s.kept := by
  unfold mirrorPort; simp
@[simp ↓] theorem onLink_kept (k : Nat) (f : Link → Link) (s : State) : (onLink k f s).kept = s.kept := by
  unfold onLink; simp
@[simp ↓] theorem takePseq_kept (r : LinkRec) (s : State) : (takePseq r s).2.kept = s.kept := by
  unfold takePseq; simp
@[simp ↓] theorem startRecord_kept (k : Nat) (r : LinkRec) (s : State) : (startRecord k r s).kept = s.kept := by
  unfold startRecord; simp
@[simp ↓] theorem linkSendLen_kept (k len : Nat) (m : OutMsg) (s : State) : (linkSendLen k len m s).kept = s.kept := by
  unfold linkSendLen; simp
@[simp ↓] theorem pumpLink_kept (fuel k : Nat) (s : State) : (pumpLink fuel k s).kept = s.kept := by
  induction fuel generalizing s with
  | zero => rfl
  | succ n ih => unfold pumpLink; split <;> simp [ih]
@[simp ↓] theorem pumpRecords_kept (k : Nat) (s : State) : (pumpRecords k s).kept = s.kept := by
  unfold pumpRecords; simp
@[simp ↓] theorem linkSend_kept (k : Nat) (m : OutMsg) (s : State) : (linkSend k m s).kept = s.kept := by
  unfold linkSend; simp
@[simp ↓] theorem noteIo_kept (k : Nat) (s : State) : (noteIo k s).kept = s.kept := by
  unfold noteIo; simp
@[simp ↓] theorem shadow_kept (kind : OutKind) (a b : Nat) (s : State) : (shadow kind a b s).kept = s.kept := by
  unfold shadow; simp
@[simp ↓] theorem emit_kept (m : TxFrames) (s : State) : (emit m s).kept = s.kept := by
  unfold emit; simp
@[simp ↓] theorem silently_kept (f : State → State) (s : State) (hf : ∀ x0, (f x0).kept = x0.kept) : (silently f s).kept = s.kept := by
  unfold silently; simp [hf]
@[simp ↓] theorem sendTo_kept (q : Nat) (m : OutMsg) (s : State) : (sendTo q m s).kept = s.kept := by
  unfold sendTo; simp
@[simp ↓] theorem forwardFrame_kept (k cls lport len : Nat) (s : State) : (forwardFrame k cls lport len s).kept = s.kept := by
  unfold forwardFrame; simp
@[simp ↓] theorem onBank_kept (k : Nat) (f : Bank → Bank) (s : State) : (onBank k f s).kept = s.kept := by
  unfold onBank; simp
@[simp ↓] theorem dropSession_kept (s : State) : (dropSession s).kept = s.kept := by
  unfold dropSession; simp
@[simp ↓] theorem abortUpd_kept (code : Nat) (s : State) : (abortUpd code s).kept = s.kept := by
  unfold abortUpd; simp
@[simp ↓] theorem bootBank_kept (aOk bOk : Bool) (s : State) : (bootBank aOk bOk s).kept = s.kept := by
  unfold bootBank; simp
@[simp ↓] theorem onLog_kept (eseq : Nat) (f : LogRec → LogRec) (s : State) : (onLog eseq f s).kept = s.kept := by
  unfold onLog; simp
@[simp ↓] theorem appendLog_kept (r : LogRec) (s : State) : (appendLog r s).kept = s.kept := by
  unfold appendLog; simp
@[simp ↓] theorem newLog_kept (cls kind index loc syn consumer device : Nat) (s : State) : (newLog cls kind index loc syn consumer device s).2.kept = s.kept := by
  unfold newLog; simp
@[simp ↓] theorem foldLog_kept (eseq : Nat) (s : State) : (foldLog eseq s).kept = s.kept := by
  unfold foldLog; simp
@[simp ↓] theorem untested_kept (eseq : Nat) (s : State) : (untested eseq s).kept = s.kept := by
  unfold untested; dsimp only; (repeat' split) <;> simp
@[simp ↓] theorem queueTest_kept (eseq cls index loc since : Nat) (cmd : Bool) (s : State) : (queueTest eseq cls index loc since cmd s).kept = s.kept := by
  unfold queueTest; simp
@[simp ↓] theorem partFault_kept (cls kind index loc since : Nat) (s : State) : (partFault cls kind index loc since s).kept = s.kept := by
  unfold partFault; dsimp only; (repeat' split) <;> simp
@[simp ↓] theorem frontLaneFault_kept (lane : Nat) (s : State) : (frontLaneFault lane s).kept = s.kept := by
  unfold frontLaneFault; simp
@[simp ↓] theorem driveLaneFault_kept (slot : Nat) (s : State) : (driveLaneFault slot s).kept = s.kept := by
  unfold driveLaneFault; simp
@[simp ↓] theorem linkLaneFault_kept (link lane : Nat) (s : State) : (linkLaneFault link lane s).kept = s.kept := by
  unfold linkLaneFault; simp
@[simp ↓] theorem portFault_kept (slot after : Nat) (s : State) : (portFault slot after s).kept = s.kept := by
  unfold portFault; simp
@[simp ↓] theorem onKslot_kept (i : Nat) (f : KSlot → KSlot) (s : State) : (onKslot i f s).kept = s.kept := by
  unfold onKslot; simp
@[simp ↓] theorem onCore_kept (c : Nat) (f : Core48 → Core48) (s : State) : (onCore c f s).kept = s.kept := by
  unfold onCore; simp
@[simp ↓] theorem askNext_kept (cs : List Nat) (s : State) : (askNext cs s).kept = s.kept := by
  unfold askNext; simp
@[simp ↓] theorem firstReservations_kept (s : State) : (firstReservations s).kept = s.kept := by
  unfold firstReservations; simp
@[simp ↓] theorem invoke_kept (i : Nat) (s : State) : (invoke i s).kept = s.kept := by
  unfold invoke; simp
@[simp ↓] theorem sealBlk_kept (nsid : Nat) (n : Ns) (lba : Nat) (h : HBlk) (order : Nat) (s : State) : (sealBlk nsid n lba h order s).2.kept = s.kept := by
  unfold sealBlk; dsimp only; (repeat' split) <;> simp
@[simp ↓] theorem openBlk_kept (nsid : Nat) (n : Ns) (lba : Nat) (b : PBlk) (s : State) : (openBlk nsid n lba b s).2.kept = s.kept := by
  unfold openBlk; dsimp only; (repeat' split) <;> simp
@[simp ↓] theorem onSet_kept (i : Nat) (f : VSet → VSet) (s : State) : (onSet i f s).kept = s.kept := by
  unfold onSet; simp
@[simp ↓] theorem onMember_kept (i m : Nat) (f : Member → Member) (s : State) : (onMember i m f s).kept = s.kept := by
  unfold onMember; simp
@[simp ↓] theorem onNs_kept (n : Nat) (f : Ns → Ns) (s : State) : (onNs n f s).kept = s.kept := by
  unfold onNs; simp
@[simp ↓] theorem onPort_kept (k : Nat) (f : DPort → DPort) (s : State) : (onPort k f s).kept = s.kept := by
  unfold onPort; simp
@[simp ↓] theorem onCmd_kept (t : Nat) (f : Cmd → Cmd) (s : State) : (onCmd t f s).kept = s.kept := by
  unfold onCmd; simp
@[simp ↓] theorem onPage_kept (p : Nat) (f : Page → Page) (s : State) : (onPage p f s).kept = s.kept := by
  unfold onPage; simp
@[simp ↓] theorem onRec_kept (j : Nat) (f : JRec → JRec) (s : State) : (onRec j f s).kept = s.kept := by
  unfold onRec; simp
@[simp ↓] theorem claimPage_kept (t ns : Nat) (n : Ns) (span : Nat) (s : State) : (claimPage t ns n span s).kept = s.kept := by
  unfold claimPage; dsimp only; (repeat' split) <;> simp
@[simp ↓] theorem freePage_kept (p : Nat) (s : State) : (freePage p s).kept = s.kept := by
  unfold freePage; simp
@[simp ↓] theorem putBlk_kept (p i : Nat) (b : PBlk) (s : State) : (putBlk p i b s).kept = s.kept := by
  unfold putBlk; simp
@[simp ↓] theorem tagPage_kept (set_ stripe tzBlk : Nat) (s : State) : (tagPage set_ stripe tzBlk s).2.kept = s.kept := by
  unfold tagPage; dsimp only; (repeat' split) <;> simp
@[simp ↓] theorem noteFree_kept (i : Nat) (s : State) : (noteFree i s).kept = s.kept := by
  unfold noteFree; dsimp only; (repeat' split) <;> simp
theorem grantOne_kept (ns i : Nat) (thick : Bool) (s : State) : ∀ z, grantOne ns i thick s = some z → z.kept = s.kept := by
  intro z h; unfold grantOne at h; (repeat' split at h) <;> (first | (cases h; done) | (cases h; simp; done))
theorem grantAll_kept (ns : Nat) (thick : Bool) (s : State) (l : List Nat) : ∀ z, grantAll ns thick s l = some z → z.kept = s.kept := by
  induction l generalizing s with
  | nil => intro z h; cases h; rfl
  | cons i is ih =>
    intro z h; unfold grantAll at h; split at h
    · cases h
    · next t e => rw [ih _ _ h, grantOne_kept _ _ _ _ _ e]
@[simp ↓] theorem grantedTo_kept (ns : Nat) (thick : Bool) (s : State) (l : List Nat) : (grantedTo ns thick s l).kept = s.kept := by
  induction l generalizing s with
  | nil => rfl
  | cons i is ih =>
    unfold grantedTo; split
    · rfl
    · next t e => rw [ih, grantOne_kept _ _ _ _ _ e]
@[simp ↓] theorem noteRefused_kept (ns : Nat) (thick : Bool) (is : List Nat) (s : State) : (noteRefused ns thick is s).kept = s.kept := by
  unfold noteRefused; repeat' (first | (with_reducible rfl) | (simp; done) | (dsimp only) | split)
@[simp ↓] theorem returnParcel_kept (ns i : Nat) (s : State) : (returnParcel ns i s).kept = s.kept := by
  unfold returnParcel; dsimp only; (repeat' split) <;> simp
@[simp ↓] theorem queueOne_kept (set_ stripe cls : Nat) (ahead : Bool) (s : State) : (queueOne set_ stripe cls ahead s).kept = s.kept := by
  unfold queueOne; simp
@[simp ↓] theorem queueBin_kept (set_ stripe cls : Nat) (ahead : Bool) (s : State) : (queueBin set_ stripe cls ahead s).kept = s.kept := by
  unfold queueBin; simp
@[simp ↓] theorem queuePages_kept (ps : List Nat) (cls : Nat) (ahead : Bool) (s : State) : (queuePages ps cls ahead s).kept = s.kept := by
  unfold queuePages; repeat' (first | (with_reducible rfl) | (simp; done) | (dsimp only) | split | (refine (forAll_kept _ _ _ (fun _ _ => ?_)).trans ?_))
@[simp ↓] theorem checkFull_kept (bins : List (Nat × Nat)) (s : State) : (checkFull bins s).kept = s.kept := by
  unfold checkFull; simp
@[simp ↓] theorem issue_kept (c : DCmd) (s : State) : (issue c s).kept = s.kept := by
  unfold issue; simp
@[simp ↓] theorem readKeys_kept (i : Nat) (v : VSet) (stripe cls : Nat) (use : Nat → Nat → DUse) (keys : List Nat) (s : State) : (readKeys i v stripe cls use keys s).kept = s.kept := by
  unfold readKeys; simp
@[simp ↓] theorem startRecon_kept (set_ : Nat) (v : VSet) (stripe m first n cls sub : Nat) (use : DUse) (hedge : Option Nat) (repair holes : Bool) (failed : List Nat) (s : State) : (startRecon set_ v stripe m first n cls sub use hedge repair holes failed s).2.kept = s.kept := by
  unfold startRecon; simp
@[simp ↓] theorem readStrip_kept (set_ : Nat) (v : VSet) (stripe m first n cls sub : Nat) (use : DUse) (s : State) : (readStrip set_ v stripe m first n cls sub use s).2.kept = s.kept := by
  unfold readStrip; dsimp only
  generalize (if isMirror v then mirrorPick s v stripe [] else if missing v stripe m true then none else some m) = o
  cases o
  · show (doIf _ _ _).kept = _; simp
  · simp
@[simp ↓] theorem onSub_kept (i : Nat) (f : Sub → Sub) (s : State) : (onSub i f s).kept = s.kept := by
  unfold onSub; simp
@[simp ↓] theorem countWatch_kept (sub col : Nat) (s : State) : (countWatch sub col s).kept = s.kept := by
  unfold countWatch; simp
@[simp ↓] theorem markItem_kept (sub dscp cost : Nat) (s : State) : (markItem sub dscp cost s).2.kept = s.kept := by
  unfold markItem; simp
@[simp ↓] theorem noteDeferFull_kept (sub : Nat) (s : State) : (noteDeferFull sub s).kept = s.kept := by
  unfold noteDeferFull; simp
@[simp ↓] theorem deferCmd_kept (sub : Nat) (d : Deferred) (s : State) : (deferCmd sub d s).kept = s.kept := by
  unfold deferCmd; simp
@[simp ↓] theorem setDeferred_kept (sub : Nat) (q : List Deferred) (s : State) : (setDeferred sub q s).kept = s.kept := by
  unfold setDeferred; simp
@[simp ↓] theorem onCtx_kept (c : Nat) (f : Ctx → Ctx) (s : State) : (onCtx c f s).kept = s.kept := by
  unfold onCtx; simp
@[simp ↓] theorem onCtrl_kept (n : Nat) (f : Ctrl → Ctrl) (s : State) : (onCtrl n f s).kept = s.kept := by
  unfold onCtrl; simp
@[simp ↓] theorem coverHorizon_kept (c k : Nat) (s : State) : (coverHorizon c k s).kept = s.kept := by
  unfold coverHorizon; simp
@[simp ↓] theorem layOut_kept (c bytes : Nat) (s : State) : (layOut c bytes s).kept = s.kept := by
  unfold layOut; simp
@[simp ↓] theorem needFill_kept (c : Nat) (s : State) : (needFill c s).kept = s.kept := by
  unfold needFill; simp
@[simp ↓] theorem withCtx_kept (c : Nat) (f : State → State) (s : State) (hf : ∀ x0, (f x0).kept = x0.kept) : (withCtx c f s).kept = s.kept := by
  unfold withCtx; simp [hf]
@[simp ↓] theorem paceCtx_kept (c bytes : Nat) (s : State) : (paceCtx c bytes s).2.kept = s.kept := by
  unfold paceCtx; simp
@[simp ↓] theorem emitCtx_kept (c : Nat) (cls : Option Nat) (lens : List Nat) (m : OutMsg) (s : State) : (emitCtx c cls lens m s).kept = s.kept := by
  unfold emitCtx; simp
@[simp ↓] theorem rdmaPart_kept (c bytes : Nat) (write : Bool) (cls : Option Nat) (m : OutMsg) (s : State) : (rdmaPart c bytes write cls m s).kept = s.kept := by
  unfold rdmaPart; simp
@[simp ↓] theorem sendRecorded_kept (fuel c : Nat) (s : State) : (sendRecorded fuel c s).kept = s.kept := by
  induction fuel generalizing s with
  | zero => rfl
  | succ n ih => unfold sendRecorded; dsimp only; repeat' (first | (with_reducible rfl) | (simp [ih]; done) | split)
@[simp ↓] theorem rdmaFill_kept (fuel c bytes : Nat) (write : Bool) (cls : Option Nat) (m : OutMsg) (s : State) : (rdmaFill fuel c bytes write cls m s).kept = s.kept := by
  induction fuel generalizing bytes s with
  | zero => unfold rdmaFill; simp
  | succ n ih => unfold rdmaFill; dsimp only; repeat' (first | (with_reducible rfl) | (simp [ih]; done) | split)
@[simp ↓] theorem rdmaSend_kept (c bytes : Nat) (write : Bool) (cls : Option Nat) (m : OutMsg) (s : State) : (rdmaSend c bytes write cls m s).kept = s.kept := by
  unfold rdmaSend; simp
@[simp ↓] theorem fillRest_kept (fuel c : Nat) (s : State) : (fillRest fuel c s).kept = s.kept := by
  induction fuel generalizing s with
  | zero => rfl
  | succ n ih => unfold fillRest; dsimp only; repeat' (first | (with_reducible rfl) | (simp [ih]; done) | split)
@[simp ↓] theorem fillEnd_kept (c : Nat) (s : State) : (fillEnd c s).kept = s.kept := by
  unfold fillEnd; simp
@[simp ↓] theorem sendPart_kept (c n : Nat) (last : Bool) (p : TcpPdu) (s : State) : (sendPart c n last p s).kept = s.kept := by
  unfold sendPart; simp
@[simp ↓] theorem pumpPdus_kept (c : Nat) (ps : List TcpPdu) (s : State) : (pumpPdus c ps s).kept = s.kept := by
  induction ps generalizing s with
  | nil => rfl
  | cons p ps ih => unfold pumpPdus; dsimp only; repeat' (first | (with_reducible rfl) | (simp [ih]; done) | split)
@[simp ↓] theorem pumpTcp_kept (c : Nat) (s : State) : (pumpTcp c s).kept = s.kept := by
  unfold pumpTcp; simp
@[simp ↓] theorem layPdu_kept (c bytes off len : Nat) (tag : Option (Nat × Nat)) (cls : Option Nat) (m : OutMsg) (s : State) : (layPdu c bytes off len tag cls m s).kept = s.kept := by
  unfold layPdu; simp
@[simp ↓] theorem layKeyUpdate_kept (c : Nat) (s : State) : (layKeyUpdate c s).kept = s.kept := by
  unfold layKeyUpdate; simp
@[simp ↓] theorem layNext_kept (c bytes off len : Nat) (tag : Option (Nat × Nat)) (cls : Option Nat) (m : OutMsg) (s : State) : (layNext c bytes off len tag cls m s).kept = s.kept := by
  unfold layNext; simp
@[simp ↓] theorem tcpSend_kept (c bytes : Nat) (cls : Option Nat) (m : OutMsg) (s : State) : (tcpSend c bytes cls m s).kept = s.kept := by
  unfold tcpSend; simp
@[simp ↓] theorem tcpLast_kept (c bytes : Nat) (m : OutMsg) (s : State) : (tcpLast c bytes m s).kept = s.kept := by
  unfold tcpLast; simp
@[simp ↓] theorem setMark_kept (c : Nat) (tag : Nat × Nat) (s : State) : (setMark c tag s).kept = s.kept := by
  unfold setMark; simp
@[simp ↓] theorem layRead_kept (c cid len : Nat) (tag : Nat × Nat) (s : State) : (layRead c cid len tag s).kept = s.kept := by
  unfold layRead; simp
@[simp ↓] theorem fillRead_kept (c off len data : Nat) (tag : Nat × Nat) (s : State) : (fillRead c off len data tag s).kept = s.kept := by
  unfold fillRead; simp
@[simp ↓] theorem sendData_kept (c cid len data : Nat) (sgl : Sgl) (tag : Nat × Nat) (s : State) : (sendData c cid len data sgl tag s).kept = s.kept := by
  unfold sendData; simp
@[simp ↓] theorem giveData_kept (c bytes : Nat) (cls : Option Nat) (m : OutMsg) (s : State) : (giveData c bytes cls m s).kept = s.kept := by
  unfold giveData; simp
@[simp ↓] theorem release_kept (c : Nat) (h : Held) (s : State) : (release c h s).kept = s.kept := by
  unfold release; dsimp only; (repeat' split) <;> simp
@[simp ↓] theorem sendCompletion_kept (q ft fg : Nat) (st : NvStatus) (dnr : Bool) (s : State) : (sendCompletion q ft fg st dnr s).kept = s.kept := by
  unfold sendCompletion; simp
@[simp ↓] theorem sendPieces_kept (kind : OutKind) (q ft fg off len data : Nat) (s : State) : (sendPieces kind q ft fg off len data s).kept = s.kept := by
  unfold sendPieces; simp
@[simp ↓] theorem completeOn_kept (c cid : Nat) (st : NvStatus) (dw0 : Nat) (s : State) : (completeOn c cid st dw0 s).kept = s.kept := by
  unfold completeOn; repeat' (first | (with_reducible rfl) | (simp; done) | (dsimp only) | split)
theorem execCompletionRelease_kept (ctx : Nat) (s : State) : ∀ z, execCompletionRelease ctx s = .next z → z.kept = s.kept := by
  unfold execCompletionRelease; apply next_kept; dsimp only; (repeat' split) <;> simp
@[simp ↓] theorem releaseWaiting_kept (c : Nat) (s : State) : (releaseWaiting c s).kept = s.kept := by
  unfold releaseWaiting; simp
@[simp ↓] theorem completeData_kept (c cid : Nat) (s : State) : (completeData c cid s).kept = s.kept := by
  unfold completeData; simp
@[simp ↓] theorem closeStep_kept (c : Nat) (s : State) : (closeStep c s).kept = s.kept := by
  unfold closeStep; simp
@[simp ↓] theorem freeTag_kept (t : Nat) (c : Cmd) (s : State) : (freeTag t c s).kept = s.kept := by
  unfold freeTag; simp
@[simp ↓] theorem giveUp_kept (c : Nat) (tag : Nat × Nat) (s : State) : (giveUp c tag s).kept = s.kept := by
  unfold giveUp; simp
@[simp ↓] theorem endCmd_kept (t : Nat) (s : State) : (endCmd t s).kept = s.kept := by
  unfold endCmd; dsimp only; (repeat' split) <;> simp
@[simp ↓] theorem failCmd_kept (t : Nat) (st : NvStatus) (s : State) : (failCmd t st s).kept = s.kept := by
  unfold failCmd; simp
@[simp ↓] theorem notify_kept (n kind info : Nat) (s : State) : (notify n kind info s).kept = s.kept := by
  unfold notify; repeat' (first | (with_reducible rfl) | (simp; done) | (dsimp only) | split)
@[simp ↓] theorem discRebuilt_kept (s : State) : (discRebuilt s).kept = s.kept := by
  unfold discRebuilt; simp
@[simp ↓] theorem sendDisc_kept (q : Nat) (s : State) : (sendDisc q s).kept = s.kept := by
  unfold sendDisc; simp
@[simp ↓] theorem discChanged_kept (s : State) : (discChanged s).kept = s.kept := by
  unfold discChanged; simp
@[simp ↓] theorem anaChanged_kept (g : Nat) (s : State) : (anaChanged g s).kept = s.kept := by
  unfold anaChanged; simp

end Sys2Proof.Machine
end

