-- ==== Sys2Proof/Laws/KeptEngine.lean ====
section
/-! SUPPORT. The queue, the ordering code, the mode and the Boot stage (`State.kept`) under each operation of serving host commands: one lemma for
each, which says that it keeps them. -/
namespace Sys2Proof.Machine

@[simp ↓] theorem lookLines_kept (ls : List Nat) (s : State) : (lookLines ls s).2.kept = s.kept := by
  unfold lookLines; simp
@[simp ↓] theorem ownPage_kept (t ns : Nat) (n : Ns) (span : Nat) (s : State) : (ownPage t ns n span s).2.kept = s.kept := by
  unfold ownPage; dsimp only; (repeat' split) <;> simp
@[simp ↓] theorem enterBlk_kept (t nsid : Nat) (n : Ns) (lba : Nat) (b : PBlk) (s : State) : (enterBlk t nsid n lba b s).kept = s.kept := by
  unfold enterBlk; repeat' (first | (with_reducible rfl) | (simp; done) | (dsimp only) | split | ((try have e_ownPage := congrArg (fun q => q.2.kept) ‹ownPage _ _ _ _ _ = (_, _)›); (try have e_tagPage := congrArg (fun q => q.2.kept) ‹tagPage _ _ _ _ = (_, _)›); (try simp at *); first | (simp [*]; done) | (simp_all; done)))
theorem sealEnter_kept (t nsid : Nat) (n : Ns) (order lba : Nat) (h : HBlk) (s : State) : ∀ z, sealEnter t nsid n order lba h s = some z → z.kept = s.kept := by
  intro z hz; unfold sealEnter at hz; split at hz
  · cases hz
  · split at hz
    · cases hz
    · next b u e =>
      cases hz
      have e' := congrArg (fun q => q.2.kept) e
      simp at e'; simp [e']
theorem sealAll_kept (t nsid : Nat) (n : Ns) (order : Nat) (l : List (Nat × HBlk)) (s : State) : ∀ z, sealAll t nsid n order l s = some z → z.kept = s.kept := by
  induction l generalizing s with
  | nil => intro z h; cases h; rfl
  | cons x xs ih =>
    intro z h; obtain ⟨lba, b⟩ := x; unfold sealAll at h; split at h
    · cases h
    · next t e => rw [ih _ _ h, sealEnter_kept _ _ _ _ _ _ _ _ e]
@[simp ↓] theorem setWritten_kept (nsid e : Nat) (b : Bool) (s : State) : (setWritten nsid e b s).kept = s.kept := by
  unfold setWritten; simp
@[simp ↓] theorem joinSpace_kept (t : Nat) (s : State) : (joinSpace t s).kept = s.kept := by
  unfold joinSpace; simp
@[simp ↓] theorem claimAll_kept (t ns : Nat) (n : Ns) (spans : List Nat) (s : State) : (claimAll t ns n spans s).kept = s.kept := by
  unfold claimAll; repeat' (first | (with_reducible rfl) | (simp; done) | (dsimp only) | split | (refine (forAll_kept _ _ _ (fun _ _ => ?_)).trans ?_))
@[simp ↓] theorem readFailed_kept (t : Nat) (spans tzs : List Nat) (s : State) : (readFailed t spans tzs s).kept = s.kept := by
  unfold readFailed; simp
@[simp ↓] theorem readGroups_kept (t gen cls sub : Nat) (gs : List (Nat × Nat × Nat × Nat × Nat × Nat)) (s : State) : (readGroups t gen cls sub gs s).kept = s.kept := by
  unfold readGroups; repeat' (first | (with_reducible rfl) | (simp; done) | (dsimp only) | split | (refine (forAll_kept _ _ _ (fun _ _ => ?_)).trans ?_) | (refine (doIf_kept _ _ _ (fun _ => ?_)).trans ?_))
@[simp ↓] theorem readTags_kept (t gen cls sub : Nat) (ks : List Nat) (s : State) : (readTags t gen cls sub ks s).kept = s.kept := by
  unfold readTags; repeat' (first | (with_reducible rfl) | (simp; done) | (dsimp only) | split | (refine (forAll_kept _ _ _ (fun _ _ => ?_)).trans ?_))
@[simp ↓] theorem serveRead_kept (t : Nat) (c : Cmd) (n : Ns) (s : State) : (serveRead t c n s).kept = s.kept := by
  unfold serveRead; simp
@[simp ↓] theorem openAll_kept (c : Cmd) (nsid : Nat) (n : Ns) (check_ : Bool) (i : Nat) (ls : List Nat) (s : State) : (openAll c nsid n check_ i ls s).2.2.kept = s.kept := by
  induction ls generalizing i s with
  | nil => rfl
  | cons l ls ih =>
    unfold openAll; split
    · exact ih _ _
    · split
      · rfl
      · next b _ _ =>
        have e0 : (openBlk nsid n l b s).2.kept = s.kept := by simp
        split
        · next u e => rw [e] at e0; exact e0
        · next h u e =>
          rw [e] at e0
          split
          · exact e0
          · exact (ih _ _).trans e0
@[simp ↓] theorem makeReady_kept (t : Nat) (s : State) : (makeReady t s).kept = s.kept := by
  unfold makeReady; simp
theorem copyOut_kept (t : Nat) (c : Cmd) (n : Ns) (hs : List HBlk) (s : State) : ∀ z, copyOut t c n hs s = some z → z.kept = s.kept :=
  fun z h => sealAll_kept _ _ _ _ _ _ z h
@[simp ↓] theorem dataWhole_kept (t : Nat) (s : State) : (dataWhole t s).kept = s.kept := by
  unfold dataWhole; dsimp only; (repeat' split) <;> simp
@[simp ↓] theorem retryTag_kept (t : Nat) (c : Cmd) (n : Ns) (s : State) : (retryTag t c n s).2.kept = s.kept := by
  unfold retryTag; dsimp only; (repeat' split) <;> simp
@[simp ↓] theorem repairTags_kept (c : Cmd) (n : Ns) (s : State) : (repairTags c n s).kept = s.kept := by
  unfold repairTags; repeat' (first | (with_reducible rfl) | (simp; done) | (dsimp only) | split | (refine (forAll_kept _ _ _ (fun _ _ => ?_)).trans ?_))
@[simp ↓] theorem conclude_kept (t : Nat) (s : State) : (conclude t s).kept = s.kept := by
  unfold conclude
  split
  · rfl
  · split
    · rfl
    · split
      · rfl
      · split
        · simp
        · split
          · rfl
          · next n _ =>
            dsimp only
            split
            · simp
            · split
              · next hs f u e =>
                have e0 : u.kept = s.kept := by have := congrArg (fun q => q.2.2.kept) e; simpa using this.symm
                split
                · next w e2 =>
                  have e3 := congrArg (fun q => q.2.kept) e2
                  split at e3 <;> (simp at e3; exact e3.symm.trans e0)
                · next w e2 =>
                  have e3 := congrArg (fun q => q.2.kept) e2
                  split at e3 <;> (simp at e3; simp [← e3, e0])
              · next hs u e =>
                have e0 : u.kept = s.kept := by have := congrArg (fun q => q.2.2.kept) e; simpa using this.symm
                split
                · split <;> simp [e0]
                · split <;> simp [e0]
                · split
                  · simp [e0]
                  · next z e2 => simp [copyOut_kept _ _ _ _ _ _ e2, e0]
                · simp [e0]
@[simp ↓] theorem askData_kept (t : Nat) (c : Cmd) (n : Ns) (s : State) : (askData t c n s).kept = s.kept := by
  unfold askData; dsimp only; (repeat' split) <;> simp
@[simp ↓] theorem pumpReads_kept (fuel c : Nat) (s : State) : (pumpReads fuel c s).kept = s.kept := by
  induction fuel generalizing s with
  | zero => rfl
  | succ n ih =>
    unfold pumpReads; dsimp only; repeat' (first | (with_reducible rfl) | (simp [ih]; done) | split)
@[simp ↓] theorem placeWrite_kept (t : Nat) (c : Cmd) (n : Ns) (s : State) : (placeWrite t c n s).kept = s.kept := by
  unfold placeWrite; repeat' (first | (with_reducible rfl) | (simp; done) | (dsimp only) | split | (refine (forAll_kept _ _ _ (fun _ _ => ?_)).trans ?_) | ((try have e_grantAll := grantAll_kept _ _ _ _ _ ‹grantAll _ _ _ _ = some _›); (try have e_sealAll := sealAll_kept _ _ _ _ _ _ _ ‹sealAll _ _ _ _ _ _ = some _›); (try simp at *); first | (simp [*]; done) | (simp_all; done)))
@[simp ↓] theorem placeClear_kept (t : Nat) (c : Cmd) (n : Ns) (s : State) : (placeClear t c n s).kept = s.kept := by
  unfold placeClear; extract_lets nsid rs clears es whole full part lbas spans
  split
  · simp
  · split
    · rfl
    · next u e =>
      have e0 := sealAll_kept _ _ _ _ _ _ _ e
      refine (dataWhole_kept _ _).trans ((shadow_kept _ _ _ _).trans ((onCmd_kept _ _ _).trans ?_))
      refine (forAll_kept _ _ _ (fun i v => ?_)).trans ?_
      · split
        · split <;> simp
        · rfl
      · simpa using e0
@[simp ↓] theorem placeFlush_kept (t : Nat) (c : Cmd) (s : State) : (placeFlush t c s).kept = s.kept := by
  unfold placeFlush; simp
@[simp ↓] theorem cancel_kept (t : Nat) (s : State) : (cancel t s).2.kept = s.kept := by
  unfold cancel; dsimp only; (repeat' split) <;> simp
@[simp ↓] theorem dropDeferred_kept (p : HostCmd → Bool) (st : Option NvStatus) (s : State) : (dropDeferred p st s).kept = s.kept := by
  unfold dropDeferred; dsimp only; (repeat' split) <;> simp
@[simp ↓] theorem placeResv_kept (t : Nat) (c : Cmd) (n : Ns) (s : State) : (placeResv t c n s).kept = s.kept := by
  unfold placeResv; simp
@[simp ↓] theorem placeCmd_kept (t : Nat) (s : State) : (placeCmd t s).kept = s.kept := by
  unfold placeCmd; dsimp only; (repeat' split) <;> simp
@[simp ↓] theorem settleOne_kept (t : Nat) (s : State) : (settleOne t s).kept = s.kept := by
  unfold settleOne; repeat' (first | (with_reducible rfl) | (simp; done) | (dsimp only) | split)
@[simp ↓] theorem settleCmds_kept (s : State) : (settleCmds s).kept = s.kept := by
  unfold settleCmds; simp
@[simp ↓] theorem forwardCmd_kept (t gen : Nat) (c : HostCmd) (sub cls home : Nat) (s : State) : (forwardCmd t gen c sub cls home s).kept = s.kept := by
  unfold forwardCmd; simp
@[simp ↓] theorem beginCmd_kept (t : Nat) (s : State) : (beginCmd t s).kept = s.kept := by
  unfold beginCmd; dsimp only; (repeat' split) <;> simp
@[simp ↓] theorem restartHeld_kept (s : State) : (restartHeld s).kept = s.kept := by
  unfold restartHeld; repeat' (first | (with_reducible rfl) | (simp; done) | (dsimp only) | split | (refine (forAll_kept _ _ _ (fun _ _ => ?_)).trans ?_))
@[simp ↓] theorem startCmd_kept (c : HostCmd) (sub cls : Nat) (s : State) : (startCmd c sub cls s).kept = s.kept := by
  unfold startCmd; dsimp only; (repeat' split) <;> simp
@[simp ↓] theorem startOrWait_kept (sub cls : Nat) (c : HostCmd) (s : State) : (startOrWait sub cls c s).kept = s.kept := by
  unfold startOrWait; simp
@[simp ↓] theorem police_kept (c : HostCmd) (s : State) : (police c s).kept = s.kept := by
  unfold police; simp
@[simp ↓] theorem takeCapsule_kept (ctx : Nat) (s : State) : (takeCapsule ctx s).kept = s.kept := by
  unfold takeCapsule; simp
@[simp ↓] theorem admitCmd_kept (c : HostCmd) (s : State) : (admitCmd c s).kept = s.kept := by
  unfold admitCmd; simp
@[simp ↓] theorem arriveCmd_kept (op : IoOp) (a : IoCmd) (s : State) : (arriveCmd op a s).kept = s.kept := by
  unfold arriveCmd; dsimp only; (repeat' split) <;> simp
theorem execNvmeRead_kept (c : IoCmd) (s : State) : ∀ z, execNvmeRead c s = .next z → z.kept = s.kept := by
  unfold execNvmeRead; apply next_kept; simp
theorem execNvmeWrite_kept (c : IoCmd) (s : State) : ∀ z, execNvmeWrite c s = .next z → z.kept = s.kept := by
  unfold execNvmeWrite; apply next_kept; simp
theorem execNvmeFlush_kept (c : IoCmd) (s : State) : ∀ z, execNvmeFlush c s = .next z → z.kept = s.kept := by
  unfold execNvmeFlush; apply next_kept; simp
theorem execNvmeCompare_kept (c : IoCmd) (s : State) : ∀ z, execNvmeCompare c s = .next z → z.kept = s.kept := by
  unfold execNvmeCompare; apply next_kept; simp
theorem execNvmeWriteZeroes_kept (c : IoCmd) (s : State) : ∀ z, execNvmeWriteZeroes c s = .next z → z.kept = s.kept := by
  unfold execNvmeWriteZeroes; apply next_kept; simp
theorem execNvmeDatasetManagement_kept (c : IoCmd) (s : State) : ∀ z, execNvmeDatasetManagement c s = .next z → z.kept = s.kept := by
  unfold execNvmeDatasetManagement; apply next_kept; simp
theorem execNvmeVerify_kept (c : IoCmd) (s : State) : ∀ z, execNvmeVerify c s = .next z → z.kept = s.kept := by
  unfold execNvmeVerify; apply next_kept; simp
theorem execNvmeCopy_kept (c : IoCmd) (s : State) : ∀ z, execNvmeCopy c s = .next z → z.kept = s.kept := by
  unfold execNvmeCopy; apply next_kept; simp
theorem execNvmeReservationRegister_kept (c : IoCmd) (s : State) : ∀ z, execNvmeReservationRegister c s = .next z → z.kept = s.kept := by
  unfold execNvmeReservationRegister; apply next_kept; simp
theorem execNvmeReservationReport_kept (c : IoCmd) (s : State) : ∀ z, execNvmeReservationReport c s = .next z → z.kept = s.kept := by
  unfold execNvmeReservationReport; apply next_kept; simp
theorem execNvmeReservationAcquire_kept (c : IoCmd) (s : State) : ∀ z, execNvmeReservationAcquire c s = .next z → z.kept = s.kept := by
  unfold execNvmeReservationAcquire; apply next_kept; simp
theorem execNvmeReservationRelease_kept (c : IoCmd) (s : State) : ∀ z, execNvmeReservationRelease c s = .next z → z.kept = s.kept := by
  unfold execNvmeReservationRelease; apply next_kept; simp
@[simp ↓] theorem admitHead_kept (remark : Bool) (sub : Nat) (s : State) : (admitHead remark sub s).2.kept = s.kept := by
  unfold admitHead; dsimp only; (repeat' split) <;> simp
@[simp ↓] theorem admitHeads_kept (remark : Bool) (sub fuel : Nat) (s : State) : (admitHeads remark sub fuel s).kept = s.kept := by
  induction fuel generalizing s with
  | zero => rfl
  | succ n ih =>
    unfold admitHeads; split
    · next u e => rw [ih]; have e' := congrArg (fun q => q.2.kept) e; simpa using e'.symm
    · next u e => have e' := congrArg (fun q => q.2.kept) e; simpa using e'.symm
theorem execCommandStart_kept (sub : Nat) (s : State) : ∀ z, execCommandStart sub s = .next z → z.kept = s.kept := by
  unfold execCommandStart; apply next_kept; simp
theorem execSpaceQueueClaim_kept (s : State) : ∀ z, execSpaceQueueClaim s = .next z → z.kept = s.kept := by
  unfold execSpaceQueueClaim; apply next_kept; repeat' (first | (with_reducible rfl) | (simp; done) | (dsimp only) | split)
theorem execMapFillDone_kept (line : Nat) (s : State) : ∀ z, execMapFillDone line s = .next z → z.kept = s.kept := by
  unfold execMapFillDone; apply next_kept; simp
@[simp ↓] theorem discardWrite_kept (t : Nat) (s : State) : (discardWrite t s).kept = s.kept := by
  unfold discardWrite; repeat' (first | (with_reducible rfl) | (simp; done) | (dsimp only) | split | (refine (forAll_kept _ _ _ (fun _ _ => ?_)).trans ?_) | ((try have e_sealAll := sealAll_kept _ _ _ _ _ _ _ ‹sealAll _ _ _ _ _ _ = some _›); (try simp at *); first | (simp [*]; done) | (simp_all; done)))
theorem arriveBlk_kept (t : Nat) (c : Cmd) (n : Ns) (i : Nat) (h : HBlk) (s : State) : ∀ z, arriveBlk t c n i h s = some z → z.kept = s.kept := by
  intro z hz; unfold arriveBlk at hz; dsimp only at hz
  split at hz
  · cases hz; simp
  · split at hz
    · cases hz; simp
    · exact sealEnter_kept _ _ _ _ _ _ _ _ hz
theorem arriveBlks_kept (t : Nat) (c : Cmd) (n : Ns) (y0 : Nat) (y1 : List HBlk) (y2 : State) : ∀ z, arriveBlks t c n y0 y1 y2 = some z → z.kept = y2.kept := by
  induction y1 generalizing y0 y2 with
  | nil => intro z h; cases h; rfl
  | cons b bs ih =>
    intro z h; unfold arriveBlks at h; split at h
    · cases h
    · next u e => exact (ih _ _ _ h).trans (arriveBlk_kept _ _ _ _ _ _ _ e)
@[simp ↓] theorem arriveData_kept (t gen off : Nat) (hs : List HBlk) (s : State) : (arriveData t gen off hs s).kept = s.kept := by
  unfold arriveData; repeat' (first | (with_reducible rfl) | (simp; done) | (dsimp only) | split | (refine (doIf_kept _ _ _ (fun _ => ?_)).trans ?_) | ((try have e_arriveBlks := arriveBlks_kept _ _ _ _ _ _ _ ‹arriveBlks _ _ _ _ _ _ = some _›); (try simp at *); first | (simp [*]; done) | (simp_all; done)))
@[simp ↓] theorem passData_kept (t gen off : Nat) (hs : List HBlk) (f : FwdOut) (s : State) : (passData t gen off hs f s).kept = s.kept := by
  unfold passData; dsimp only; (repeat' split) <;> simp
theorem execWriteDataArrival_kept (tag gen off : Nat) (blocks : List HBlk) (s : State) : ∀ z, execWriteDataArrival tag gen off blocks s = .next z → z.kept = s.kept := by
  unfold execWriteDataArrival; apply next_kept; repeat' (first | (with_reducible rfl) | (simp; done) | (dsimp only) | split)
@[simp ↓] theorem resvNotice_kept (nsid kind : Nat) (hosts : List Nat) (s : State) : (resvNotice nsid kind hosts s).kept = s.kept := by
  unfold resvNotice; repeat' (first | (with_reducible rfl) | (simp; done) | (dsimp only) | split | (refine (forAll_kept _ _ _ (fun _ _ => ?_)).trans ?_) | (refine (doIf_kept _ _ _ (fun _ => ?_)).trans ?_))
@[simp ↓] theorem commitResv_kept (c : Cmd) (s : State) : (commitResv c s).kept = s.kept := by
  unfold commitResv; dsimp only; (repeat' split) <;> simp
@[simp ↓] theorem paceAck_kept (n : Nat) (s : State) : (paceAck n s).kept = s.kept := by
  unfold paceAck; simp
theorem execDataDone_kept (tag gen : Nat) (s : State) : ∀ z, execDataDone tag gen s = .next z → z.kept = s.kept := by
  unfold execDataDone; apply next_kept; repeat' (first | (with_reducible rfl) | (simp; done) | (dsimp only) | split | (refine (doIf_kept _ _ _ (fun _ => ?_)).trans ?_))
@[simp ↓] theorem endAbort_kept (ctx cid : Nat) (not_ : Bool) (s : State) : (endAbort ctx cid not_ s).kept = s.kept := by
  unfold endAbort; simp
theorem execAbortRequestAtTag_kept (ctx cid : Nat) (s : State) : ∀ z, execAbortRequestAtTag ctx cid s = .next z → z.kept = s.kept := by
  unfold execAbortRequestAtTag; apply next_kept; dsimp only; (repeat' split) <;> simp

end Sys2Proof.Machine
end

