-- ==== Sys2Proof/Laws/KeptDoors.lean ====
section
/-! SUPPORT. The queue, the ordering code, the mode and the Boot stage (`State.kept`) under each operation of the ports, the Sorting Office, the Letterbox and the Service Endpoint: one lemma for
each, which says that it keeps them. -/
namespace Sys2Proof.Machine

@[simp ↓] theorem touchLock_kept (d : Nat) (s : State) : (touchLock d s).kept = s.kept := by
  unfold touchLock; simp
@[simp ↓] theorem dropEntry_kept (op : Nat) (p : Packet) (s : State) : (dropEntry op p s).kept = s.kept := by
  unfold dropEntry; simp
@[simp ↓] theorem deny_kept (st : Nat) (s : State) : (deny st s).2.2.kept = s.kept := by
  unfold deny; simp
@[simp ↓] theorem okay_kept (s : State) : (okay s).2.2.kept = s.kept := by
  unfold okay; simp
@[simp ↓] theorem answer_kept (ws : List Word) (s : State) : (answer ws s).2.2.kept = s.kept := by
  unfold answer; simp
@[simp ↓] theorem shadowLetter_kept (op : Nat) (p : Packet) (s : State) : (shadowLetter op p s).kept = s.kept := by
  unfold shadowLetter; simp
@[simp ↓] theorem atDesk_kept (op : Nat) (p : Packet) (orphan : Bool) (lenOk : Bool) (s : State) (desk : State → Desk) (hdesk : ∀ x0, (desk x0).2.2.kept = x0.kept) : (atDesk op p orphan lenOk s desk).kept = s.kept := by
  unfold atDesk; simp [hdesk]
@[simp ↓] theorem arriveInEntry_kept (op : Nat) (s : State) : (arriveInEntry op s).kept = s.kept := by
  unfold arriveInEntry; repeat' (first | (with_reducible rfl) | (simp; done) | (dsimp only) | split | (refine (doIf_kept _ _ _ (fun _ => ?_)).trans ?_))
@[simp ↓] theorem runLetter_kept (op : Nat) (p : Packet) (s : State) (lenOk : Bool) (desk : State → Desk) (hdesk : ∀ x0, (desk x0).2.2.kept = x0.kept) : (runLetter op p s lenOk desk).kept = s.kept := by
  unfold runLetter; dsimp only; (repeat' split) <;> simp [hdesk]
theorem letter_kept {op n : Nat} {p : Packet} {s : State} {desk : State → Desk} (hd : ∀ s, (desk s).2.2.kept = s.kept) : ∀ z, letter op n p s desk = .next z → z.kept = s.kept := by
  intro z h; injection h with h; subst h; exact runLetter_kept _ _ _ _ _ hd
theorem letterData_kept {op n d : Nat} {p : Packet} {s : State} {desk : State → Desk} (hd : ∀ s, (desk s).2.2.kept = s.kept) : ∀ z, letterData op n d p s desk = .next z → z.kept = s.kept := by
  intro z h; injection h with h; subst h; exact runLetter_kept _ _ _ _ _ hd
@[simp ↓] theorem guardParam_kept (b : Bool) (s : State) (k : State → Desk) (hk : ∀ x0, (k x0).2.2.kept = x0.kept) : (guardParam b s k).2.2.kept = s.kept := by
  unfold guardParam; simp [hk]
@[simp ↓] theorem check_kept (b : Bool) (st : Nat) (s : State) (k : State → Desk) (hk : ∀ x0, (k x0).2.2.kept = x0.kept) : (check b st s k).2.2.kept = s.kept := by
  unfold check; simp [hk]
@[simp ↓] theorem leaveReady_kept (c : Nat) (s : State) : (leaveReady c s).kept = s.kept := by
  unfold leaveReady; simp
@[simp ↓] theorem ctxError_kept (c cause : Nat) (s : State) : (ctxError c cause s).kept = s.kept := by
  unfold ctxError; simp
@[simp ↓] theorem closeCtx_kept (c : Nat) (fin : Bool) (s : State) : (closeCtx c fin s).kept = s.kept := by
  unfold closeCtx; simp
@[simp ↓] theorem errorToTimewait_kept (c : Nat) (s : State) : (errorToTimewait c s).kept = s.kept := by
  unfold errorToTimewait; simp
@[simp ↓] theorem bindSub_kept (c sub : Nat) (s : State) : (bindSub c sub s).kept = s.kept := by
  unfold bindSub; simp
@[simp ↓] theorem freeCtx_kept (c : Nat) (s : State) : (freeCtx c s).kept = s.kept := by
  unfold freeCtx; simp
@[simp ↓] theorem closeLport_kept (lp : Nat) (s : State) : (closeLport lp s).kept = s.kept := by
  unfold closeLport; simp
@[simp ↓] theorem syncListeners_kept (s : State) : (syncListeners s).kept = s.kept := by
  unfold syncListeners; simp
@[simp ↓] theorem lportDown_kept (l : Nat) (s : State) : (lportDown l s).kept = s.kept := by
  unfold lportDown; simp
theorem execPluggableInserted_kept (cage : Nat) (s : State) : ∀ z, execPluggableInserted cage s = .next z → z.kept = s.kept := by
  unfold execPluggableInserted; apply next_kept; simp
theorem execPluggableCmisRead_kept (cage watts : Nat) (s : State) : ∀ z, execPluggableCmisRead cage watts s = .next z → z.kept = s.kept := by
  unfold execPluggableCmisRead; apply next_kept; simp
theorem execPluggableReady_kept (cage : Nat) (s : State) : ∀ z, execPluggableReady cage s = .next z → z.kept = s.kept := by
  unfold execPluggableReady; apply next_kept; simp
theorem execPluggableFault_kept (cage : Nat) (s : State) : ∀ z, execPluggableFault cage s = .next z → z.kept = s.kept := by
  unfold execPluggableFault; apply next_kept; repeat' (first | (with_reducible rfl) | (simp; done) | (dsimp only) | split)
theorem execPluggableRemoved_kept (cage : Nat) (s : State) : ∀ z, execPluggableRemoved cage s = .next z → z.kept = s.kept := by
  unfold execPluggableRemoved; apply next_kept; simp
theorem execLinkUp_kept (lport : Nat) (s : State) : ∀ z, execLinkUp lport s = .next z → z.kept = s.kept := by
  unfold execLinkUp; apply next_kept; simp
theorem execLinkDown_kept (lport : Nat) (s : State) : ∀ z, execLinkDown lport s = .next z → z.kept = s.kept := by
  unfold execLinkDown; apply next_kept; simp
theorem execFecDegraded_kept (lport symbols corrected uncorrectable : Nat) (s : State) : ∀ z, execFecDegraded lport symbols corrected uncorrectable s = .next z → z.kept = s.kept := by
  unfold execFecDegraded; apply next_kept; simp
@[simp ↓] theorem deadLetter_kept (reason swport len : Nat) (ctx : Option Nat) (body : List Word) (s : State) : (deadLetter reason swport len ctx body s).kept = s.kept := by
  unfold deadLetter; simp
@[simp ↓] theorem applyFlow_kept (e : FlowEntry) (f : Frame) (cls : Nat) (s : State) : (applyFlow e f cls s).kept = s.kept := by
  unfold applyFlow; dsimp only; (repeat' split) <;> simp
@[simp ↓] theorem frameIn_kept (f : Frame) (s : State) : (frameIn f s).kept = s.kept := by
  unfold frameIn; dsimp only; (repeat' split) <;> simp
theorem execFrameReceive_kept (f : Frame) (s : State) : ∀ z, execFrameReceive f s = .next z → z.kept = s.kept := by
  unfold execFrameReceive; apply next_kept; repeat' (first | (with_reducible rfl) | (simp; done) | (dsimp only) | split)
@[simp ↓] theorem noteDelayReq_kept (s : State) : (noteDelayReq s).kept = s.kept := by
  unfold noteDelayReq; simp
@[simp ↓] theorem frontSent_kept (swport q : Nat) (f : QFrame) (s : State) : (frontSent swport q f s).kept = s.kept := by
  unfold frontSent; simp
@[simp ↓] theorem transmitHead_kept (swport q : Nat) (f : QFrame) (rest : List QFrame) (s : State) : (transmitHead swport q f rest s).kept = s.kept := by
  unfold transmitHead; dsimp only
  refine (doIf_kept _ _ _ (fun _ => by simp)).trans ?_
  split
  · cases f.msg <;> simp
  · split <;> simp
theorem execPfcReceive_kept (lport prio quanta : Nat) (s : State) : ∀ z, execPfcReceive lport prio quanta s = .next z → z.kept = s.kept := by
  unfold execPfcReceive; apply next_kept; simp
theorem execPfcPauseExpiry_kept (lport prio : Nat) (s : State) : ∀ z, execPfcPauseExpiry lport prio s = .next z → z.kept = s.kept := by
  unfold execPfcPauseExpiry; apply next_kept; repeat' (first | (with_reducible rfl) | (simp; done) | (dsimp only) | split)
theorem execPfcRefresh_kept (lport pcp : Nat) (s : State) : ∀ z, execPfcRefresh lport pcp s = .next z → z.kept = s.kept := by
  unfold execPfcRefresh; apply next_kept; repeat' (first | (with_reducible rfl) | (simp; done) | (dsimp only) | split)
@[simp ↓] theorem applyChange_kept (c : FlowChange) (s : State) : (applyChange c s).kept = s.kept := by
  unfold applyChange; simp
@[simp ↓] theorem flipNet_kept (cs : List FlowChange) (s : State) : (flipNet cs s).kept = s.kept := by
  unfold flipNet; simp
@[simp ↓] theorem netReply_kept (w : EpochWait) (s : State) : (netReply w s).kept = s.kept := by
  unfold netReply; simp
@[simp ↓] theorem settleNet_kept (s : State) : (settleNet s).kept = s.kept := by
  unfold settleNet; simp
theorem execEpochDrained_kept (s : State) : ∀ z, execEpochDrained s = .next z → z.kept = s.kept := by
  unfold execEpochDrained; apply next_kept; simp
theorem execEpochSlow_kept (s : State) : ∀ z, execEpochSlow s = .next z → z.kept = s.kept := by
  unfold execEpochSlow; apply next_kept; simp
@[simp ↓] theorem submitChange_kept (c : FlowChange) (s : State) : (submitChange c s).2.2.kept = s.kept := by
  unfold submitChange; simp
@[simp ↓] theorem stepGates_kept (s : State) : (stepGates s).kept = s.kept := by
  unfold stepGates; simp
@[simp ↓] theorem onPtp_kept (f : Ptp → Ptp) (s : State) : (onPtp f s).kept = s.kept := by
  unfold onPtp; simp
@[simp ↓] theorem steerPtp_kept (lport : Nat) (diff : Int) (s : State) : (steerPtp lport diff s).kept = s.kept := by
  unfold steerPtp; simp
@[simp ↓] theorem ptpIn_kept (lport : Nat) (m : PtpMsg) (s : State) : (ptpIn lport m s).kept = s.kept := by
  unfold ptpIn; dsimp only; (repeat' split) <;> simp
theorem execPtpMessage_kept (lport domain transport : Nat) (m : PtpMsg) (s : State) : ∀ z, execPtpMessage lport domain transport m s = .next z → z.kept = s.kept := by
  unfold execPtpMessage; apply next_kept; simp
theorem execPtpLocked_kept (s : State) : ∀ z, execPtpLocked s = .next z → z.kept = s.kept := by
  unfold execPtpLocked; apply next_kept; simp
theorem execPtpUnlocked_kept (s : State) : ∀ z, execPtpUnlocked s = .next z → z.kept = s.kept := by
  unfold execPtpUnlocked; apply next_kept; simp
@[simp ↓] theorem deskNetSetPortMode_kept (p : Packet) (s : State) : (deskNetSetPortMode p s).2.2.kept = s.kept := by
  unfold deskNetSetPortMode; repeat' (first | (with_reducible rfl) | (simp; done) | (dsimp only) | (refine guardParam_kept _ _ _ (fun _ => ?_)) | (refine check_kept _ _ _ _ (fun _ => ?_)) | split | (refine (forAll_kept _ _ _ (fun _ _ => ?_)).trans ?_) | (refine (doIf_kept _ _ _ (fun _ => ?_)).trans ?_))
theorem execNetSetPortMode_kept (p : Packet) (s : State) : ∀ z, execNetSetPortMode p s = .next z → z.kept = s.kept := letter_kept (fun s => deskNetSetPortMode_kept p s)
@[simp ↓] theorem deskNetGetPortStatus_kept (p : Packet) (s : State) : (deskNetGetPortStatus p s).2.2.kept = s.kept := by
  unfold deskNetGetPortStatus; simp
theorem execNetGetPortStatus_kept (p : Packet) (s : State) : ∀ z, execNetGetPortStatus p s = .next z → z.kept = s.kept := letter_kept (fun s => deskNetGetPortStatus_kept p s)
@[simp ↓] theorem deskNetSetPortAddr_kept (p : Packet) (s : State) : (deskNetSetPortAddr p s).2.2.kept = s.kept := by
  unfold deskNetSetPortAddr; simp
theorem execNetSetPortAddr_kept (p : Packet) (s : State) : ∀ z, execNetSetPortAddr p s = .next z → z.kept = s.kept := letter_kept (fun s => deskNetSetPortAddr_kept p s)
@[simp ↓] theorem deskNetSetClassMap_kept (p : Packet) (s : State) : (deskNetSetClassMap p s).2.2.kept = s.kept := by
  unfold deskNetSetClassMap; simp
theorem execNetSetClassMap_kept (p : Packet) (s : State) : ∀ z, execNetSetClassMap p s = .next z → z.kept = s.kept := letter_kept (fun s => deskNetSetClassMap_kept p s)
@[simp ↓] theorem deskNetSetQueue_kept (p : Packet) (s : State) : (deskNetSetQueue p s).2.2.kept = s.kept := by
  unfold deskNetSetQueue; simp
theorem execNetSetQueue_kept (p : Packet) (s : State) : ∀ z, execNetSetQueue p s = .next z → z.kept = s.kept := letter_kept (fun s => deskNetSetQueue_kept p s)
@[simp ↓] theorem deskNetGetQueue_kept (p : Packet) (s : State) : (deskNetGetQueue p s).2.2.kept = s.kept := by
  unfold deskNetGetQueue; simp
theorem execNetGetQueue_kept (p : Packet) (s : State) : ∀ z, execNetGetQueue p s = .next z → z.kept = s.kept := letter_kept (fun s => deskNetGetQueue_kept p s)
@[simp ↓] theorem deskNetFlushQueue_kept (p : Packet) (s : State) : (deskNetFlushQueue p s).2.2.kept = s.kept := by
  unfold deskNetFlushQueue; repeat' (first | (with_reducible rfl) | (simp; done) | (dsimp only) | (refine guardParam_kept _ _ _ (fun _ => ?_)) | split | (refine (forAll_kept _ _ _ (fun _ _ => ?_)).trans ?_) | (refine (doIf_kept _ _ _ (fun _ => ?_)).trans ?_))
theorem execNetFlushQueue_kept (p : Packet) (s : State) : ∀ z, execNetFlushQueue p s = .next z → z.kept = s.kept := letter_kept (fun s => deskNetFlushQueue_kept p s)
@[simp ↓] theorem deskNetSetBuffer_kept (p : Packet) (s : State) : (deskNetSetBuffer p s).2.2.kept = s.kept := by
  unfold deskNetSetBuffer; simp
theorem execNetSetBuffer_kept (p : Packet) (s : State) : ∀ z, execNetSetBuffer p s = .next z → z.kept = s.kept := letter_kept (fun s => deskNetSetBuffer_kept p s)
@[simp ↓] theorem deskNetSetFlow_kept (p : Packet) (s : State) : (deskNetSetFlow p s).2.2.kept = s.kept := by
  unfold deskNetSetFlow; simp
theorem execNetSetFlow_kept (p : Packet) (s : State) : ∀ z, execNetSetFlow p s = .next z → z.kept = s.kept := letter_kept (fun s => deskNetSetFlow_kept p s)
@[simp ↓] theorem deskNetDeleteFlow_kept (p : Packet) (s : State) : (deskNetDeleteFlow p s).2.2.kept = s.kept := by
  unfold deskNetDeleteFlow; simp
theorem execNetDeleteFlow_kept (p : Packet) (s : State) : ∀ z, execNetDeleteFlow p s = .next z → z.kept = s.kept := letter_kept (fun s => deskNetDeleteFlow_kept p s)
@[simp ↓] theorem deskNetGetEpoch_kept (_p : Packet) (s : State) : (deskNetGetEpoch _p s).2.2.kept = s.kept := by
  unfold deskNetGetEpoch; simp
theorem execNetGetEpoch_kept (p : Packet) (s : State) : ∀ z, execNetGetEpoch p s = .next z → z.kept = s.kept := letter_kept (fun s => deskNetGetEpoch_kept p s)
@[simp ↓] theorem deskNetSetMirror_kept (p : Packet) (s : State) : (deskNetSetMirror p s).2.2.kept = s.kept := by
  unfold deskNetSetMirror; simp
theorem execNetSetMirror_kept (p : Packet) (s : State) : ∀ z, execNetSetMirror p s = .next z → z.kept = s.kept := letter_kept (fun s => deskNetSetMirror_kept p s)
@[simp ↓] theorem deskNetSetDeadLetter_kept (p : Packet) (s : State) : (deskNetSetDeadLetter p s).2.2.kept = s.kept := by
  unfold deskNetSetDeadLetter; simp
theorem execNetSetDeadLetter_kept (p : Packet) (s : State) : ∀ z, execNetSetDeadLetter p s = .next z → z.kept = s.kept := letter_kept (fun s => deskNetSetDeadLetter_kept p s)
@[simp ↓] theorem dropCapture_kept (id : Nat) (s : State) : (dropCapture id s).kept = s.kept := by
  unfold dropCapture; simp
@[simp ↓] theorem deskNetReadDeadLetter_kept (_p : Packet) (s : State) : (deskNetReadDeadLetter _p s).2.2.kept = s.kept := by
  unfold deskNetReadDeadLetter; repeat' (first | (with_reducible rfl) | (simp; done) | (dsimp only) | split)
theorem execNetReadDeadLetter_kept (p : Packet) (s : State) : ∀ z, execNetReadDeadLetter p s = .next z → z.kept = s.kept := letter_kept (fun s => deskNetReadDeadLetter_kept p s)
@[simp ↓] theorem deskNetSetPtp_kept (p : Packet) (s : State) : (deskNetSetPtp p s).2.2.kept = s.kept := by
  unfold deskNetSetPtp; simp
theorem execNetSetPtp_kept (p : Packet) (s : State) : ∀ z, execNetSetPtp p s = .next z → z.kept = s.kept := letter_kept (fun s => deskNetSetPtp_kept p s)
@[simp ↓] theorem deskNetGetPtp_kept (_p : Packet) (s : State) : (deskNetGetPtp _p s).2.2.kept = s.kept := by
  unfold deskNetGetPtp; simp
theorem execNetGetPtp_kept (p : Packet) (s : State) : ∀ z, execNetGetPtp p s = .next z → z.kept = s.kept := letter_kept (fun s => deskNetGetPtp_kept p s)
@[simp ↓] theorem removeRecords_kept (src : Nat) (ids : List Nat) (s : State) : (removeRecords src ids s).kept = s.kept := by
  unfold removeRecords; repeat' (first | (with_reducible rfl) | (simp; done) | (dsimp only) | split | (refine (forAll_kept _ _ _ (fun _ _ => ?_)).trans ?_))
@[simp ↓] theorem enterError_kept (d code : Nat) (s : State) : (enterError d code s).kept = s.kept := by
  unfold enterError; simp
@[simp ↓] theorem ignored_kept (d : Nat) (s : State) : (ignored d s).kept = s.kept := by
  unfold ignored; simp
@[simp ↓] theorem startFilling_kept (d n : Nat) (s : State) : (startFilling d n s).kept = s.kept := by
  unfold startFilling; simp
@[simp ↓] theorem writeLbcnt_kept (d n : Nat) (s : State) : (writeLbcnt d n s).kept = s.kept := by
  unfold writeLbcnt; dsimp only; (repeat' split) <;> simp
@[simp ↓] theorem writeLbdata_kept (d : Nat) (w : Word) (s : State) : (writeLbdata d w s).kept = s.kept := by
  unfold writeLbdata; repeat' (first | (with_reducible rfl) | (simp; done) | (dsimp only) | split)
@[simp ↓] theorem readLbdata_kept (d : Nat) (s : State) : (readLbdata d s).2.kept = s.kept := by
  unfold readLbdata; repeat' (first | (with_reducible rfl) | (simp; done) | (dsimp only) | split)
@[simp ↓] theorem readWords_kept (d : Nat) (y0 : Nat) (y1 : State) : (readWords d y0 y1).2.kept = y1.kept := by
  induction y0 generalizing y1 with
  | zero => rfl
  | succ n ih =>
    unfold readWords; dsimp only; split
    · rw [ih]; simp
    · rfl
@[simp ↓] theorem abortDoor_kept (d : Nat) (s : State) : (abortDoor d s).kept = s.kept := by
  unfold abortDoor; repeat' (first | (with_reducible rfl) | (simp; done) | (dsimp only) | split)
@[simp ↓] theorem writeLbctl_kept (d : Nat) (w : Word) (s : State) : (writeLbctl d w s).kept = s.kept := by
  unfold writeLbctl; simp
@[simp ↓] theorem access_kept (d : Nat) (aligned : Bool) (f : State → State) (s : State) (hf : ∀ x0, (f x0).kept = x0.kept) : (access d aligned f s).kept = s.kept := by
  unfold access; simp [hf]
theorem execLbcntWrite_kept (door : Nat) (aligned : Bool) (w : Word) (s : State) : ∀ z, execLbcntWrite door aligned w s = .next z → z.kept = s.kept := by
  unfold execLbcntWrite; apply next_kept; simp
theorem execLbdataWrite_kept (door : Nat) (aligned : Bool) (w : Word) (s : State) : ∀ z, execLbdataWrite door aligned w s = .next z → z.kept = s.kept := by
  unfold execLbdataWrite; apply next_kept; simp
theorem execLbdataRead_kept (door : Nat) (aligned : Bool) (s : State) : ∀ z, execLbdataRead door aligned s = .next z → z.kept = s.kept := by
  unfold execLbdataRead; apply next_kept; simp
theorem execLbctlAbort_kept (door : Nat) (aligned : Bool) (w : Word) (s : State) : ∀ z, execLbctlAbort door aligned w s = .next z → z.kept = s.kept := by
  unfold execLbctlAbort; apply next_kept; simp
theorem execDoorFillingTimeout_kept (door : Nat) (s : State) : ∀ z, execDoorFillingTimeout door s = .next z → z.kept = s.kept := by
  unfold execDoorFillingTimeout; apply next_kept; simp
theorem execCommandEnterBusy_kept (door : Nat) (s : State) : ∀ z, execCommandEnterBusy door s = .next z → z.kept = s.kept := by
  unfold execCommandEnterBusy; apply next_kept; dsimp only; (repeat' split) <;> simp
theorem execKumelBeginCommand_kept (door : Nat) (s : State) : ∀ z, execKumelBeginCommand door s = .next z → z.kept = s.kept := by
  unfold execKumelBeginCommand; apply next_kept; repeat' (first | (with_reducible rfl) | (simp; done) | (dsimp only) | split)
theorem execKumelBacklogTimeout_kept (door backlogMs : Nat) (s : State) : ∀ z, execKumelBacklogTimeout door backlogMs s = .next z → z.kept = s.kept := by
  unfold execKumelBacklogTimeout; apply next_kept; repeat' (first | (with_reducible rfl) | (simp; done) | (dsimp only) | split)
@[simp ↓] theorem releaseHeld_kept (d : Nat) (tag : Word) (s : State) : (releaseHeld d tag s).kept = s.kept := by
  unfold releaseHeld; simp
@[simp ↓] theorem takeMgmt_kept (d : Nat) (tag : Word) (s : State) : (takeMgmt d tag s).kept = s.kept := by
  unfold takeMgmt; repeat' (first | (with_reducible rfl) | (simp; done) | (dsimp only) | split | (refine (doIf_kept _ _ _ (fun _ => ?_)).trans ?_))
theorem execCommandReplyReady_kept (door : Nat) (s : State) : ∀ z, execCommandReplyReady door s = .next z → z.kept = s.kept := by
  unfold execCommandReplyReady; apply next_kept; dsimp only; (repeat' split) <;> simp
theorem execLockExpired_kept (s : State) : ∀ z, execLockExpired s = .next z → z.kept = s.kept := by
  unfold execLockExpired; apply next_kept; repeat' (first | (with_reducible rfl) | (simp; done) | (dsimp only) | split)
theorem execSmbusBlockWrite_kept (count : Nat) (ws : List Word) (pecBad : Bool) (s : State) : ∀ z, execSmbusBlockWrite count ws pecBad s = .next z → z.kept = s.kept := by
  unfold execSmbusBlockWrite; apply next_kept; simp
theorem execSmbusBlockRead_kept (pecBad : Bool) (s : State) : ∀ z, execSmbusBlockRead pecBad s = .next z → z.kept = s.kept := by
  unfold execSmbusBlockRead; apply next_kept; simp
theorem execAlertResponseRead_kept (s : State) : ∀ z, execAlertResponseRead s = .next z → z.kept = s.kept := by
  unfold execAlertResponseRead; apply next_kept; simp
@[simp ↓] theorem onKey_kept (k : Nat) (f : DoorKey → DoorKey) (s : State) : (onKey k f s).kept = s.kept := by
  unfold onKey; simp
@[simp ↓] theorem respond_kept (keyId seq result : Nat) (ws : List Word) (s : State) : (respond keyId seq result ws s).kept = s.kept := by
  unfold respond; simp
@[simp ↓] theorem finishDatagram_kept (keyId seq nrd : Nat) (s : State) : (finishDatagram keyId seq nrd s).kept = s.kept := by
  unfold finishDatagram; simp
@[simp ↓] theorem applyDatagram_kept (d : Datagram) (s : State) : (applyDatagram d s).kept = s.kept := by
  unfold applyDatagram; simp
@[simp ↓] theorem countRate_kept (s : State) : (countRate s).kept = s.kept := by
  unfold countRate; simp
@[simp ↓] theorem authFail_kept (s : State) : (authFail s).kept = s.kept := by
  unfold authFail; simp
theorem execDoorDatagram_kept (d : Datagram) (s : State) : ∀ z, execDoorDatagram d s = .next z → z.kept = s.kept := by
  unfold execDoorDatagram; apply next_kept; simp
theorem execDatagramWaitEnd_kept (s : State) : ∀ z, execDatagramWaitEnd s = .next z → z.kept = s.kept := by
  unfold execDatagramWaitEnd; apply next_kept; repeat' (first | (with_reducible rfl) | (simp; done) | (dsimp only) | split)
theorem execNop_kept (p : Packet) (s : State) : ∀ z, execNop p s = .next z → z.kept = s.kept := by unfold execNop; exact letter_kept (fun s => by simp)
@[simp ↓] theorem deskModAcquireLock_kept (p : Packet) (s : State) : (deskModAcquireLock p s).2.2.kept = s.kept := by
  unfold deskModAcquireLock; repeat' (first | (with_reducible rfl) | (simp; done) | (dsimp only) | (refine guardParam_kept _ _ _ (fun _ => ?_)) | split)
theorem execModAcquireLock_kept (p : Packet) (s : State) : ∀ z, execModAcquireLock p s = .next z → z.kept = s.kept := letter_kept (fun s => deskModAcquireLock_kept p s)
@[simp ↓] theorem deskModReleaseLock_kept (p : Packet) (s : State) : (deskModReleaseLock p s).2.2.kept = s.kept := by
  unfold deskModReleaseLock; simp
theorem execModReleaseLock_kept (p : Packet) (s : State) : ∀ z, execModReleaseLock p s = .next z → z.kept = s.kept := letter_kept (fun s => deskModReleaseLock_kept p s)
@[simp ↓] theorem deskModGetDoor_kept (p : Packet) (s : State) : (deskModGetDoor p s).2.2.kept = s.kept := by
  unfold deskModGetDoor; simp
theorem execModGetDoor_kept (p : Packet) (s : State) : ∀ z, execModGetDoor p s = .next z → z.kept = s.kept := letter_kept (fun s => deskModGetDoor_kept p s)
@[simp ↓] theorem deskModReadEvents_kept (p : Packet) (s : State) : (deskModReadEvents p s).2.2.kept = s.kept := by
  unfold deskModReadEvents; simp
theorem execModReadEvents_kept (p : Packet) (s : State) : ∀ z, execModReadEvents p s = .next z → z.kept = s.kept := letter_kept (fun s => deskModReadEvents_kept p s)
@[simp ↓] theorem deskModSetEventMask_kept (p : Packet) (s : State) : (deskModSetEventMask p s).2.2.kept = s.kept := by
  unfold deskModSetEventMask; simp
theorem execModSetEventMask_kept (p : Packet) (s : State) : ∀ z, execModSetEventMask p s = .next z → z.kept = s.kept := letter_kept (fun s => deskModSetEventMask_kept p s)
@[simp ↓] theorem deskModSetDoorKey_kept (p : Packet) (s : State) : (deskModSetDoorKey p s).2.2.kept = s.kept := by
  unfold deskModSetDoorKey; repeat' (first | (with_reducible rfl) | (simp; done) | (dsimp only) | (refine guardParam_kept _ _ _ (fun _ => ?_)) | (refine check_kept _ _ _ _ (fun _ => ?_)) | split)
theorem execModSetDoorKey_kept (p : Packet) (s : State) : ∀ z, execModSetDoorKey p s = .next z → z.kept = s.kept := letterData_kept (fun s => deskModSetDoorKey_kept p s)
@[simp ↓] theorem deskModSetMgmtAddr_kept (p : Packet) (s : State) : (deskModSetMgmtAddr p s).2.2.kept = s.kept := by
  unfold deskModSetMgmtAddr; simp
theorem execModSetMgmtAddr_kept (p : Packet) (s : State) : ∀ z, execModSetMgmtAddr p s = .next z → z.kept = s.kept := letter_kept (fun s => deskModSetMgmtAddr_kept p s)
@[simp ↓] theorem onChan_kept (c : Nat) (f : Channel → Channel) (s : State) : (onChan c f s).kept = s.kept := by
  unfold onChan; simp
@[simp ↓] theorem haltChan_kept (code : HaltCode) (c : Nat) (s : State) : (haltChan code c s).kept = s.kept := by
  unfold haltChan; simp
@[simp ↓] theorem gainStat_kept (was : Bool) (f : Se → Se) (s : State) : (gainStat was f s).kept = s.kept := by
  unfold gainStat; simp
@[simp ↓] theorem masterOff_kept (s : State) : (masterOff s).kept = s.kept := by
  unfold masterOff; simp
@[simp ↓] theorem busError_kept (ecause : Nat) (s : State) : (busError ecause s).kept = s.kept := by
  unfold busError; simp
@[simp ↓] theorem sendPending_kept (s : State) : (sendPending s).kept = s.kept := by
  unfold sendPending; simp
@[simp ↓] theorem disown_kept (s : State) : (disown s).kept = s.kept := by
  unfold disown; simp
@[simp ↓] theorem resetDoor1_kept (s : State) : (resetDoor1 s).kept = s.kept := by
  unfold resetDoor1; simp
theorem execPerstAssert_kept (s : State) : ∀ z, execPerstAssert s = .next z → z.kept = s.kept := by
  unfold execPerstAssert; apply next_kept; simp
theorem execSeLinkUp_kept (s : State) : ∀ z, execSeLinkUp s = .next z → z.kept = s.kept := by
  unfold execSeLinkUp; apply next_kept; simp
@[simp ↓] theorem seDown_kept (s : State) : (seDown s).kept = s.kept := by
  unfold seDown; simp
theorem execSeLinkDown_kept (s : State) : ∀ z, execSeLinkDown s = .next z → z.kept = s.kept := by
  unfold execSeLinkDown; apply next_kept; simp
theorem execBusMasterDisable_kept (s : State) : ∀ z, execBusMasterDisable s = .next z → z.kept = s.kept := by
  unfold execBusMasterDisable; apply next_kept; simp
theorem execBusMasterEnable_kept (s : State) : ∀ z, execBusMasterEnable s = .next z → z.kept = s.kept := by
  unfold execBusMasterEnable; apply next_kept; simp
theorem execPowerStateD3hot_kept (s : State) : ∀ z, execPowerStateD3hot s = .next z → z.kept = s.kept := by
  unfold execPowerStateD3hot; apply next_kept; simp
theorem execPowerStateD0_kept (s : State) : ∀ z, execPowerStateD0 s = .next z → z.kept = s.kept := by
  unfold execPowerStateD0; apply next_kept; simp
@[simp ↓] theorem unmask_kept (v : Nat) (s : State) : (unmask v s).kept = s.kept := by
  unfold unmask; simp
theorem execMsixUnmask_kept (v : Nat) (s : State) : ∀ z, execMsixUnmask v s = .next z → z.kept = s.kept := by
  unfold execMsixUnmask; apply next_kept; simp
@[simp ↓] theorem startFetch_kept (c : Nat) (s : State) : (startFetch c s).kept = s.kept := by
  unfold startFetch; simp
@[simp ↓] theorem enableChan_kept (c : Nat) (s : State) : (enableChan c s).kept = s.kept := by
  unfold enableChan; simp
@[simp ↓] theorem closeDesc_kept (c status : Nat) (s : State) : (closeDesc c status s).kept = s.kept := by
  unfold closeDesc; dsimp only; (repeat' split) <;> simp
@[simp ↓] theorem disableChan_kept (c : Nat) (s : State) : (disableChan c s).kept = s.kept := by
  unfold disableChan; simp
@[simp ↓] theorem writeChctl_kept (c : Nat) (w : Word) (s : State) : (writeChctl c w s).kept = s.kept := by
  unfold writeChctl; simp
theorem execChctlEnable_kept (c : Nat) (w : Word) (s : State) : ∀ z, execChctlEnable c w s = .next z → z.kept = s.kept := by
  unfold execChctlEnable; apply next_kept; simp
theorem execChctlDisable_kept (c : Nat) (s : State) : ∀ z, execChctlDisable c s = .next z → z.kept = s.kept := by
  unfold execChctlDisable; apply next_kept; simp
@[simp ↓] theorem writeRinglo_kept (c : Nat) (w : Word) (s : State) : (writeRinglo c w s).kept = s.kept := by
  unfold writeRinglo; simp
theorem execRingloWrite_kept (c : Nat) (aligned : Bool) (w : Word) (s : State) : ∀ z, execRingloWrite c aligned w s = .next z → z.kept = s.kept := by
  unfold execRingloWrite; apply next_kept; simp
@[simp ↓] theorem kick_kept (c : Nat) (s : State) : (kick c s).kept = s.kept := by
  unfold kick; simp
theorem execKick_kept (c : Nat) (s : State) : ∀ z, execKick c s = .next z → z.kept = s.kept := by
  unfold execKick; apply next_kept; simp
@[simp ↓] theorem unexpected_kept (s : State) : (unexpected s).kept = s.kept := by
  unfold unexpected; simp
theorem execDmaDescriptorFetched_kept (c : Nat) (ws : List Word) (s : State) : ∀ z, execDmaDescriptorFetched c ws s = .next z → z.kept = s.kept := by
  unfold execDmaDescriptorFetched; apply next_kept; simp
theorem execDmaDescriptorPoll_kept (c : Nat) (s : State) : ∀ z, execDmaDescriptorPoll c s = .next z → z.kept = s.kept := by
  unfold execDmaDescriptorPoll; apply next_kept; simp
theorem execDmaRecordAvailable_kept (c : Nat) (s : State) : ∀ z, execDmaRecordAvailable c s = .next z → z.kept = s.kept := by
  unfold execDmaRecordAvailable; apply next_kept; dsimp only; (repeat' split) <;> simp
theorem execDmaFlushTimeout_kept (c : Nat) (s : State) : ∀ z, execDmaFlushTimeout c s = .next z → z.kept = s.kept := by
  unfold execDmaFlushTimeout; apply next_kept; repeat' (first | (with_reducible rfl) | (simp; done) | (dsimp only) | split)
theorem execDmaBusError_kept (ecause : Nat) (s : State) : ∀ z, execDmaBusError ecause s = .next z → z.kept = s.kept := by
  unfold execDmaBusError; apply next_kept; simp
theorem execDmaReadTimeout_kept (s : State) : ∀ z, execDmaReadTimeout s = .next z → z.kept = s.kept := by
  unfold execDmaReadTimeout; apply next_kept; simp
theorem execDmaUnexpectedCompletion_kept (s : State) : ∀ z, execDmaUnexpectedCompletion s = .next z → z.kept = s.kept := by
  unfold execDmaUnexpectedCompletion; apply next_kept; simp
@[simp ↓] theorem writeMsix_kept (v word : Nat) (w : Word) (s : State) : (writeMsix v word w s).kept = s.kept := by
  unfold writeMsix; simp
@[simp ↓] theorem writeChanReg_kept (c o : Nat) (w : Word) (s : State) : (writeChanReg c o w s).kept = s.kept := by
  unfold writeChanReg; repeat' (first | (with_reducible rfl) | (simp; done) | (dsimp only) | split | (refine (doIf_kept _ _ _ (fun _ => ?_)).trans ?_))
@[simp ↓] theorem writeBar0_kept (o : Nat) (w : Word) (s : State) : (writeBar0 o w s).kept = s.kept := by
  unfold writeBar0; simp
@[simp ↓] theorem writeConfig_kept (o : Nat) (w : Word) (s : State) : (writeConfig o w s).kept = s.kept := by
  unfold writeConfig; simp
theorem execRegisterWrite_kept (r : RegTarget) (aligned : Bool) (w : Word) (s : State) : ∀ z, execRegisterWrite r aligned w s = .next z → z.kept = s.kept := by
  unfold execRegisterWrite; apply next_kept; repeat' (first | (with_reducible rfl) | (simp; done) | (dsimp only) | split)
@[simp ↓] theorem takeSnapshot_kept (s : State) : (takeSnapshot s).kept = s.kept := by
  unfold takeSnapshot; simp
@[simp ↓] theorem deskTalRead_kept (p : Packet) (s : State) : (deskTalRead p s).2.2.kept = s.kept := by
  unfold deskTalRead; simp
theorem execTalRead_kept (p : Packet) (s : State) : ∀ z, execTalRead p s = .next z → z.kept = s.kept := letter_kept (fun s => deskTalRead_kept p s)
@[simp ↓] theorem deskTalSnapshot_kept (_p : Packet) (s : State) : (deskTalSnapshot _p s).2.2.kept = s.kept := by
  unfold deskTalSnapshot; simp
theorem execTalSnapshot_kept (p : Packet) (s : State) : ∀ z, execTalSnapshot p s = .next z → z.kept = s.kept := letter_kept (fun s => deskTalSnapshot_kept p s)
@[simp ↓] theorem deskTalClear_kept (p : Packet) (s : State) : (deskTalClear p s).2.2.kept = s.kept := by
  unfold deskTalClear; simp
theorem execTalClear_kept (p : Packet) (s : State) : ∀ z, execTalClear p s = .next z → z.kept = s.kept := letter_kept (fun s => deskTalClear_kept p s)
@[simp ↓] theorem deskTalGetOverflow_kept (p : Packet) (s : State) : (deskTalGetOverflow p s).2.2.kept = s.kept := by
  unfold deskTalGetOverflow; simp
theorem execTalGetOverflow_kept (p : Packet) (s : State) : ∀ z, execTalGetOverflow p s = .next z → z.kept = s.kept := letter_kept (fun s => deskTalGetOverflow_kept p s)
@[simp ↓] theorem deskTalSetStream_kept (p : Packet) (s : State) : (deskTalSetStream p s).2.2.kept = s.kept := by
  unfold deskTalSetStream; simp
theorem execTalSetStream_kept (p : Packet) (s : State) : ∀ z, execTalSetStream p s = .next z → z.kept = s.kept := letter_kept (fun s => deskTalSetStream_kept p s)
@[simp ↓] theorem skipCapture_kept (cause : Nat) (s : State) : (skipCapture cause s).kept = s.kept := by
  unfold skipCapture; simp
theorem execStreamCapture_kept (s : State) : ∀ z, execStreamCapture s = .next z → z.kept = s.kept := by
  unfold execStreamCapture; apply next_kept; simp

end Sys2Proof.Machine
end

