-- ==== Sys2Proof/Laws/KeptDrive.lean ====
section
/-! SUPPORT. The queue, the ordering code, the mode and the Boot stage (`State.kept`) under each operation of scheduling, redundancy, destaging, drive power and drive ports: one lemma for
each, which says that it keeps them. -/
namespace Sys2Proof.Machine

@[simp ↓] theorem onQport_kept (q : Nat) (f : QPort → QPort) (s : State) : (onQport q f s).kept = s.kept := by
  unfold onQport; simp
@[simp ↓] theorem onNode_kept (q cls : Nat) (f : Node → Node) (s : State) : (onNode q cls f s).kept = s.kept := by
  unfold onNode; simp
@[simp ↓] theorem gateOverrun_kept (q : Nat) (s : State) : (gateOverrun q s).kept = s.kept := by
  unfold gateOverrun; simp
@[simp ↓] theorem noteShut_kept (q mask : Nat) (s : State) : (noteShut q mask s).kept = s.kept := by
  unfold noteShut; simp
@[simp ↓] theorem enterEntry_kept (q idx startAt : Nat) (l : GateList) (s : State) : (enterEntry q idx startAt l s).kept = s.kept := by
  unfold enterEntry; simp
theorem execGateEntryChange_kept (qport : Nat) (s : State) : ∀ z, execGateEntryChange qport s = .next z → z.kept = s.kept := by
  unfold execGateEntryChange; apply next_kept; dsimp only; (repeat' split) <;> simp
@[simp ↓] theorem beginGateAt_kept (q : Nat) (l : GateList) (s : State) (t : Nat) : (beginGateAt q l s t).kept = s.kept := by
  unfold beginGateAt; simp
@[simp ↓] theorem beginGate_kept (q : Nat) (l : GateList) (s : State) : (beginGate q l s).kept = s.kept := by
  unfold beginGate; cases freshStart l (ptpTime s) <;> simp
@[simp ↓] theorem endGateAt_kept (q : Nat) (s : State) (t : Nat) : (endGateAt q s t).kept = s.kept := by
  unfold endGateAt; simp
@[simp ↓] theorem endGate_kept (q : Nat) (s : State) : (endGate q s).kept = s.kept := by
  unfold endGate; split
  · rfl
  · cases freshStart _ (ptpTime s) <;> simp
@[simp ↓] theorem rerunGate_kept (q : Nat) (s : State) : (rerunGate q s).kept = s.kept := by
  unfold rerunGate; dsimp only; split
  · next l _ => split
                · rfl
                · cases freshStart l (ptpTime s)
                  · rfl
                  · simp only [Option.elim]; split <;> simp
  · rfl
theorem execGateListStart_kept (qport : Nat) (s : State) : ∀ z, execGateListStart qport s = .next z → z.kept = s.kept := by
  unfold execGateListStart; apply next_kept; repeat' (first | (with_reducible rfl) | (simp; done) | (dsimp only) | split)
theorem execGateListRestart_kept (qport : Nat) (s : State) : ∀ z, execGateListRestart qport s = .next z → z.kept = s.kept := by
  unfold execGateListRestart; apply next_kept; dsimp only; (repeat' split) <;> simp
@[simp ↓] theorem deskQosSetPolicer_kept (p : Packet) (s : State) : (deskQosSetPolicer p s).2.2.kept = s.kept := by
  unfold deskQosSetPolicer; simp
theorem execQosSetPolicer_kept (p : Packet) (s : State) : ∀ z, execQosSetPolicer p s = .next z → z.kept = s.kept := letter_kept (fun s => deskQosSetPolicer_kept p s)
@[simp ↓] theorem deskQosSetSubscriber_kept (p : Packet) (s : State) : (deskQosSetSubscriber p s).2.2.kept = s.kept := by
  unfold deskQosSetSubscriber; simp
theorem execQosSetSubscriber_kept (p : Packet) (s : State) : ∀ z, execQosSetSubscriber p s = .next z → z.kept = s.kept := letter_kept (fun s => deskQosSetSubscriber_kept p s)
@[simp ↓] theorem deskQosGetPolicer_kept (p : Packet) (s : State) : (deskQosGetPolicer p s).2.2.kept = s.kept := by
  unfold deskQosGetPolicer; simp
theorem execQosGetPolicer_kept (p : Packet) (s : State) : ∀ z, execQosGetPolicer p s = .next z → z.kept = s.kept := letter_kept (fun s => deskQosGetPolicer_kept p s)
@[simp ↓] theorem deskQosSetColourMap_kept (p : Packet) (s : State) : (deskQosSetColourMap p s).2.2.kept = s.kept := by
  unfold deskQosSetColourMap; simp
theorem execQosSetColourMap_kept (p : Packet) (s : State) : ∀ z, execQosSetColourMap p s = .next z → z.kept = s.kept := letter_kept (fun s => deskQosSetColourMap_kept p s)
@[simp ↓] theorem deskQosSetNode_kept (p : Packet) (s : State) : (deskQosSetNode p s).2.2.kept = s.kept := by
  unfold deskQosSetNode; simp
theorem execQosSetNode_kept (p : Packet) (s : State) : ∀ z, execQosSetNode p s = .next z → z.kept = s.kept := letter_kept (fun s => deskQosSetNode_kept p s)
@[simp ↓] theorem deskQosSetPortShaper_kept (p : Packet) (s : State) : (deskQosSetPortShaper p s).2.2.kept = s.kept := by
  unfold deskQosSetPortShaper; simp
theorem execQosSetPortShaper_kept (p : Packet) (s : State) : ∀ z, execQosSetPortShaper p s = .next z → z.kept = s.kept := letter_kept (fun s => deskQosSetPortShaper_kept p s)
@[simp ↓] theorem deskQosSetGateList_kept (p : Packet) (s : State) : (deskQosSetGateList p s).2.2.kept = s.kept := by
  unfold deskQosSetGateList; dsimp only; (repeat' split) <;> simp
theorem execQosSetGateList_kept (p : Packet) (s : State) : ∀ z, execQosSetGateList p s = .next z → z.kept = s.kept := letterData_kept (fun s => deskQosSetGateList_kept p s)
@[simp ↓] theorem deskQosGetGateStatus_kept (p : Packet) (s : State) : (deskQosGetGateStatus p s).2.2.kept = s.kept := by
  unfold deskQosGetGateStatus; simp
theorem execQosGetGateStatus_kept (p : Packet) (s : State) : ∀ z, execQosGetGateStatus p s = .next z → z.kept = s.kept := letter_kept (fun s => deskQosGetGateStatus_kept p s)
@[simp ↓] theorem deskQosGetNode_kept (p : Packet) (s : State) : (deskQosGetNode p s).2.2.kept = s.kept := by
  unfold deskQosGetNode; simp
theorem execQosGetNode_kept (p : Packet) (s : State) : ∀ z, execQosGetNode p s = .next z → z.kept = s.kept := letter_kept (fun s => deskQosGetNode_kept p s)
@[simp ↓] theorem deskQosSetWatch_kept (p : Packet) (s : State) : (deskQosSetWatch p s).2.2.kept = s.kept := by
  unfold deskQosSetWatch; simp
theorem execQosSetWatch_kept (p : Packet) (s : State) : ∀ z, execQosSetWatch p s = .next z → z.kept = s.kept := letter_kept (fun s => deskQosSetWatch_kept p s)
@[simp ↓] theorem chargeItem_kept (q : Nat) (i : QItem) (rounds : Nat) (s : State) : (chargeItem q i rounds s).kept = s.kept := by
  unfold chargeItem; simp
@[simp ↓] theorem noteHeld_kept (q : Nat) (s : State) : (noteHeld q s).kept = s.kept := by
  unfold noteHeld; simp
@[simp ↓] theorem ringQueue_kept (slot q : Nat) (s : State) : (ringQueue slot q s).kept = s.kept := by
  unfold ringQueue; simp
@[simp ↓] theorem placeOne_kept (k : Nat) (c : DCmd) (s : State) : (placeOne k c s).kept = s.kept := by
  unfold placeOne; dsimp only; (repeat' split) <;> simp
@[simp ↓] theorem placeReady_kept (slot : Nat) (s : State) : (placeReady slot s).kept = s.kept := by
  unfold placeReady; repeat' (first | (with_reducible rfl) | (simp; done) | (dsimp only) | split | (refine (forAll_kept _ _ _ (fun _ _ => ?_)).trans ?_))
@[simp ↓] theorem startItem_kept (q : Nat) (i : QItem) (rounds : Nat) (s : State) : (startItem q i rounds s).kept = s.kept := by
  unfold startItem; dsimp only; (repeat' split) <;> simp
theorem execSchedulerDispatch_kept (qport : Nat) (s : State) : ∀ z, execSchedulerDispatch qport s = .next z → z.kept = s.kept := by
  unfold execSchedulerDispatch; apply next_kept; repeat' (first | (with_reducible rfl) | (simp; done) | (dsimp only) | split)
theorem execFrameTransmit_kept (swport q : Nat) (s : State) : ∀ z, execFrameTransmit swport q s = .next z → z.kept = s.kept := by
  unfold execFrameTransmit; apply next_kept; repeat' (first | (with_reducible rfl) | (simp; done) | (dsimp only) | split)
@[simp ↓] theorem tickPolicer_kept (i : Nat) (s : State) : (tickPolicer i s).kept = s.kept := by
  unfold tickPolicer; simp
@[simp ↓] theorem tickSub_kept (i : Nat) (s : State) : (tickSub i s).kept = s.kept := by
  unfold tickSub; simp
theorem execTokenTick_kept (s : State) : ∀ z, execTokenTick s = .next z → z.kept = s.kept := by
  unfold execTokenTick; apply next_kept; simp
theorem execRateEstimateInterval_kept (s : State) : ∀ z, execRateEstimateInterval s = .next z → z.kept = s.kept := by
  unfold execRateEstimateInterval; apply next_kept; simp
@[simp ↓] theorem setSt_kept (i : Nat) (new : SState) (s : State) : (setSt i new s).kept = s.kept := by
  unfold setSt; repeat' (first | (with_reducible rfl) | (simp; done) | (dsimp only) | split)
@[simp ↓] theorem writeIds_kept (i : Nat) (s : State) : (writeIds i s).kept = s.kept := by
  unfold writeIds; repeat' (first | (with_reducible rfl) | (simp; done) | (dsimp only) | split | (refine (forAll_kept _ _ _ (fun _ _ => ?_)).trans ?_))
@[simp ↓] theorem onRing_kept (i m : Nat) (f : Ring → Ring) (s : State) : (onRing i m f s).kept = s.kept := by
  unfold onRing; simp
@[simp ↓] theorem writeJournal_kept (i m : Nat) (s : State) : (writeJournal i m s).kept = s.kept := by
  unfold writeJournal; dsimp only; (repeat' split) <;> simp
@[simp ↓] theorem packRec_kept (i m j : Nat) (s : State) : (packRec i m j s).kept = s.kept := by
  unfold packRec; simp
@[simp ↓] theorem settleIds_kept (i : Nat) (s : State) : (settleIds i s).kept = s.kept := by
  unfold settleIds; repeat' (first | (with_reducible rfl) | (simp; done) | (dsimp only) | split)
@[simp ↓] theorem dropIdWait_kept (i : Nat) (gone : Nat × Nat → Bool) (s : State) : (dropIdWait i gone s).kept = s.kept := by
  unfold dropIdWait; simp
@[simp ↓] theorem newGen_kept (i : Nat) (s : State) : (newGen i s).kept = s.kept := by
  unfold newGen; dsimp only; split
  · simp
  · refine (shadow_kept _ _ _ _).trans ((settleIds_kept _ _).trans ?_)
    refine (forAll_kept _ _ _ (fun _ _ => ?_)).trans ?_
    · split <;> simp
    · simp
@[simp ↓] theorem writeLogHeader_kept (i k : Nat) (s : State) : (writeLogHeader i k s).kept = s.kept := by
  unfold writeLogHeader; dsimp only; (repeat' split) <;> simp
@[simp ↓] theorem openLog_kept (i m gen : Nat) (s : State) : (openLog i m gen s).kept = s.kept := by
  unfold openLog; dsimp only; (repeat' split) <;> simp
@[simp ↓] theorem closeLog_kept (i m : Nat) (s : State) : (closeLog i m s).kept = s.kept := by
  unfold closeLog; repeat' (first | (with_reducible rfl) | (simp; done) | (dsimp only) | split)
@[simp ↓] theorem dropPasses_kept (i : Nat) (s : State) : (dropPasses i s).kept = s.kept := by
  unfold dropPasses; simp
@[simp ↓] theorem goOffline_kept (i cause : Nat) (s : State) : (goOffline i cause s).kept = s.kept := by
  unfold goOffline; dsimp only; (repeat' split) <;> simp
@[simp ↓] theorem addBad_kept (i : Nat) (e : BadRange) (s : State) : (addBad i e s).kept = s.kept := by
  unfold addBad; repeat' (first | (with_reducible rfl) | (simp; done) | (dsimp only) | split)
@[simp ↓] theorem removeBad_kept (i stripe m b : Nat) (s : State) : (removeBad i stripe m b s).kept = s.kept := by
  unfold removeBad; dsimp only; (repeat' split) <;> simp
@[simp ↓] theorem enterHoles_kept (i stripe b cause : Nat) (got : Tab Blk) (s : State) : (enterHoles i stripe b cause got s).kept = s.kept := by
  unfold enterHoles; dsimp only; (repeat' split) <;> simp
@[simp ↓] theorem rewriteParity_kept (i stripe b : Nat) (got : Tab Blk) (s : State) : (rewriteParity i stripe b got s).kept = s.kept := by
  unfold rewriteParity; dsimp only; (repeat' split) <;> simp
@[simp ↓] theorem fireTrigger_kept (i m : Nat) (s : State) : (fireTrigger i m s).kept = s.kept := by
  unfold fireTrigger; dsimp only; (repeat' split) <;> simp
@[simp ↓] theorem takeTarget_kept (i m slot : Nat) (s : State) : (takeTarget i m slot s).kept = s.kept := by
  unfold takeTarget; simp
@[simp ↓] theorem settleSet_kept (i : Nat) (s : State) : (settleSet i s).kept = s.kept := by
  unfold settleSet; repeat' (first | (with_reducible rfl) | (simp; done) | (dsimp only) | split)
@[simp ↓] theorem endInit_kept (i : Nat) (s : State) : (endInit i s).kept = s.kept := by
  unfold endInit; repeat' (first | (with_reducible rfl) | (simp; done) | (dsimp only) | split)
theorem execJournalBlockTimer_kept (set_ member : Nat) (s : State) : ∀ z, execJournalBlockTimer set_ member s = .next z → z.kept = s.kept := by
  unfold execJournalBlockTimer; apply next_kept; simp
@[simp ↓] theorem resolveBin_kept (i stripe cls : Nat) (ahead : Bool) (s : State) : (resolveBin i stripe cls ahead s).kept = s.kept := by
  unfold resolveBin; repeat' (first | (with_reducible rfl) | (simp; done) | (dsimp only) | split | (refine (forAll_kept _ _ _ (fun _ _ => ?_)).trans ?_))
@[simp ↓] theorem openRecord_kept (i : Nat) (v : VSet) (b : QBin) (redo : Bool) (s : State) : (openRecord i v b redo s).kept = s.kept := by
  unfold openRecord; simp
theorem execDestageStart_kept (set_ : Nat) (s : State) : ∀ z, execDestageStart set_ s = .next z → z.kept = s.kept := by
  unfold execDestageStart; apply next_kept; dsimp only; (repeat' split) <;> simp
@[simp ↓] theorem dispatchWrites_kept (j : Nat) (s : State) : (dispatchWrites j s).kept = s.kept := by
  unfold dispatchWrites; repeat' (first | (with_reducible rfl) | (simp; done) | (dsimp only) | split | (refine (forAll_kept _ _ _ (fun _ _ => ?_)).trans ?_))
@[simp ↓] theorem pumpRecs_kept (s : State) : (pumpRecs s).kept = s.kept := by
  unfold pumpRecs; repeat' (first | (with_reducible rfl) | (simp; done) | (dsimp only) | split | (refine (forAll_kept _ _ _ (fun _ _ => ?_)).trans ?_))
@[simp ↓] theorem markRegions_kept (j : Nat) (r : JRec) (v : VSet) (s : State) : (markRegions j r v s).kept = s.kept := by
  unfold markRegions; repeat' (first | (with_reducible rfl) | (simp; done) | (dsimp only) | split | (refine (forAll_kept _ _ _ (fun _ _ => ?_)).trans ?_) | (refine (foldl_kept _ (fun _ _ => ?_) _ _).trans ?_) | (refine (foldl_snd_kept _ _ _ (fun _ _ => ?_)).trans ?_))
@[simp ↓] theorem startWrites_kept (j : Nat) (s : State) : (startWrites j s).kept = s.kept := by
  unfold startWrites; dsimp only; (repeat' split) <;> simp
@[simp ↓] theorem issueReads_kept (j : Nat) (s : State) : (issueReads j s).kept = s.kept := by
  unfold issueReads; dsimp only; (repeat' split) <;> simp
theorem execJournalPersisted_kept (jseq : Nat) (s : State) : ∀ z, execJournalPersisted jseq s = .next z → z.kept = s.kept := by
  unfold execJournalPersisted; apply next_kept; repeat' (first | (with_reducible rfl) | (simp; done) | (dsimp only) | split)
@[simp ↓] theorem checkWaits_kept (s : State) : (checkWaits s).kept = s.kept := by
  unfold checkWaits; simp
@[simp ↓] theorem checkOccupancy_kept (s : State) : (checkOccupancy s).kept = s.kept := by
  unfold checkOccupancy; simp
@[simp ↓] theorem markMoving_kept (ps : List Nat) (s : State) : (markMoving ps s).kept = s.kept := by
  unfold markMoving; dsimp only; (repeat' split) <;> simp
@[simp ↓] theorem retire_kept (j : Nat) (s : State) : (retire j s).kept = s.kept := by
  unfold retire; dsimp only; (repeat' split) <;> simp
theorem execStripWriteComplete_kept (jseq : Nat) (s : State) : ∀ z, execStripWriteComplete jseq s = .next z → z.kept = s.kept := by
  unfold execStripWriteComplete; apply next_kept; repeat' (first | (with_reducible rfl) | (simp; done) | (dsimp only) | split)
theorem execDestageAgeTrigger_kept (set_ stripe : Nat) (s : State) : ∀ z, execDestageAgeTrigger set_ stripe s = .next z → z.kept = s.kept := by
  unfold execDestageAgeTrigger; apply next_kept; repeat' (first | (with_reducible rfl) | (simp; done) | (dsimp only) | split)
@[simp ↓] theorem queueDown_kept (cls target : Nat) (y0 : List (Nat × Nat)) (y1 : State) : (queueDown cls target y0 y1).kept = y1.kept := by
  induction y0 generalizing y1 with
  | nil => rfl
  | cons b bs ih =>
    unfold queueDown; dsimp only; split
    · rfl
    · rw [ih]; simp
theorem execOccupancyHigh_kept (s : State) : ∀ z, execOccupancyHigh s = .next z → z.kept = s.kept := by
  unfold execOccupancyHigh; apply next_kept; simp
theorem execDestageEscalated_kept (s : State) : ∀ z, execDestageEscalated s = .next z → z.kept = s.kept := by
  unfold execDestageEscalated; apply next_kept; simp
@[simp ↓] theorem passPut_kept (p i : Nat) (v : VSet) (stripe m first cls : Nat) (bs : List Blk) (s : State) : (passPut p i v stripe m first cls bs s).kept = s.kept := by
  unfold passPut; simp
@[simp ↓] theorem settleRecord_kept (p i : Nat) (r : ImgRec) (reads : List (Nat × Nat × List Blk)) (s : State) : (settleRecord p i r reads s).kept = s.kept := by
  unfold settleRecord; dsimp only; (repeat' split) <;> simp
@[simp ↓] theorem deskWbfSetPolicy_kept (p : Packet) (s : State) : (deskWbfSetPolicy p s).2.2.kept = s.kept := by
  unfold deskWbfSetPolicy; simp
theorem execWbfSetPolicy_kept (p : Packet) (s : State) : ∀ z, execWbfSetPolicy p s = .next z → z.kept = s.kept := letter_kept (fun s => deskWbfSetPolicy_kept p s)
@[simp ↓] theorem deskWbfGetStatus_kept (_p : Packet) (s : State) : (deskWbfGetStatus _p s).2.2.kept = s.kept := by
  unfold deskWbfGetStatus; simp
theorem execWbfGetStatus_kept (p : Packet) (s : State) : ∀ z, execWbfGetStatus p s = .next z → z.kept = s.kept := letter_kept (fun s => deskWbfGetStatus_kept p s)
@[simp ↓] theorem destageWait_kept (ps : List Nat) (s : State) : (destageWait ps s).2.kept = s.kept := by
  unfold destageWait; simp
@[simp ↓] theorem deskWbfDestage_kept (p : Packet) (s : State) : (deskWbfDestage p s).2.2.kept = s.kept := by
  unfold deskWbfDestage; simp
theorem execWbfDestage_kept (p : Packet) (s : State) : ∀ z, execWbfDestage p s = .next z → z.kept = s.kept := by
  unfold execWbfDestage; apply next_kept; simp
@[simp ↓] theorem deskWbfGetJournal_kept (p : Packet) (s : State) : (deskWbfGetJournal p s).2.2.kept = s.kept := by
  unfold deskWbfGetJournal; simp
theorem execWbfGetJournal_kept (p : Packet) (s : State) : ∀ z, execWbfGetJournal p s = .next z → z.kept = s.kept := letter_kept (fun s => deskWbfGetJournal_kept p s)
@[simp ↓] theorem onPass_kept (p : Nat) (f : Pass → Pass) (s : State) : (onPass p f s).kept = s.kept := by
  unfold onPass; simp
@[simp ↓] theorem dropPass_kept (p : Nat) (s : State) : (dropPass p s).kept = s.kept := by
  unfold dropPass; simp
@[simp ↓] theorem initWrites_kept (p : Nat) (x : Pass) (v : VSet) (s : State) : (initWrites p x v s).kept = s.kept := by
  unfold initWrites; simp
@[simp ↓] theorem rebuildWrites_kept (p : Nat) (x : Pass) (v : VSet) (s : State) : (rebuildWrites p x v s).kept = s.kept := by
  unfold rebuildWrites; dsimp only; (repeat' split) <;> simp
@[simp ↓] theorem patrolWrites_kept (p : Nat) (x : Pass) (v : VSet) (s : State) : (patrolWrites p x v s).kept = s.kept := by
  unfold patrolWrites; repeat' (first | (with_reducible rfl) | (simp; done) | (dsimp only) | split | (refine (forAll_kept _ _ _ (fun _ _ => ?_)).trans ?_) | (refine (doIf_kept _ _ _ (fun _ => ?_)).trans ?_))
@[simp ↓] theorem moveWrites_kept (p : Nat) (x : Pass) (v : VSet) (s : State) : (moveWrites p x v s).kept = s.kept := by
  unfold moveWrites; simp
@[simp ↓] theorem rebuildDone_kept (i m : Nat) (s : State) : (rebuildDone i m s).kept = s.kept := by
  unfold rebuildDone; simp
@[simp ↓] theorem resyncDone_kept (i m : Nat) (s : State) : (resyncDone i m s).kept = s.kept := by
  unfold resyncDone; simp
@[simp ↓] theorem advanceInit_kept (i fuel : Nat) (s : State) : (advanceInit i fuel s).kept = s.kept := by
  induction fuel generalizing s with
  | zero => rfl
  | succ n ih => unfold advanceInit; dsimp only; repeat' (first | (with_reducible rfl) | (simp [ih]; done) | split)
@[simp ↓] theorem advanceRebuild_kept (i fuel : Nat) (s : State) : (advanceRebuild i fuel s).kept = s.kept := by
  induction fuel generalizing s with
  | zero => rfl
  | succ n ih => unfold advanceRebuild; dsimp only; repeat' (first | (with_reducible rfl) | (simp [ih]; done) | split)
@[simp ↓] theorem regionDone_kept (i m r : Nat) (s : State) : (regionDone i m r s).kept = s.kept := by
  unfold regionDone; simp
@[simp ↓] theorem advanceResync_kept (i m n : Nat) (s : State) : (advanceResync i m n s).kept = s.kept := by
  unfold advanceResync; dsimp only; (repeat' split) <;> simp
@[simp ↓] theorem advancePatrol_kept (i : Nat) (s : State) : (advancePatrol i s).kept = s.kept := by
  unfold advancePatrol; dsimp only; (repeat' split) <;> simp
@[simp ↓] theorem passDone_kept (p : Nat) (s : State) : (passDone p s).kept = s.kept := by
  unfold passDone; dsimp only; (repeat' split) <;> simp
@[simp ↓] theorem endPass_kept (p : Nat) (s : State) : (endPass p s).kept = s.kept := by
  unfold endPass; repeat' (first | (with_reducible rfl) | (simp; done) | (dsimp only) | split)
@[simp ↓] theorem passRead_kept (p : Nat) (s : State) : (passRead p s).kept = s.kept := by
  unfold passRead; dsimp only; (repeat' split) <;> simp
@[simp ↓] theorem startPass_kept (x : Pass) (cls : Nat) (s : State) : (startPass x cls s).kept = s.kept := by
  unfold startPass; dsimp only; (repeat' split) <;> simp
@[simp ↓] theorem deliver_kept (use : DUse) (k m : Nat) (b : Nat) (y : Blk) (s : State) : (deliver use k m b y s).kept = s.kept := by
  unfold deliver; repeat' (first | (with_reducible rfl) | (simp; done) | (dsimp only) | split)
@[simp ↓] theorem delivered_kept (use : DUse) (s : State) : (delivered use s).kept = s.kept := by
  unfold delivered; repeat' (first | (with_reducible rfl) | (simp; done) | (dsimp only) | split)
@[simp ↓] theorem repairBlk_kept (i : Nat) (v : VSet) (stripe m b : Nat) (x : Blk) (s : State) : (repairBlk i v stripe m b x s).kept = s.kept := by
  unfold repairBlk; repeat' (first | (with_reducible rfl) | (simp; done) | (dsimp only) | split)
@[simp ↓] theorem onRecon_kept (j : Nat) (f : Recon → Recon) (s : State) : (onRecon j f s).kept = s.kept := by
  unfold onRecon; simp
@[simp ↓] theorem holeBlk_kept (r : Recon) (i : Nat) (s : State) : (holeBlk r i s).kept = s.kept := by
  unfold holeBlk; dsimp only; (repeat' split) <;> simp
@[simp ↓] theorem finishRecon_kept (j : Nat) (s : State) : (finishRecon j s).kept = s.kept := by
  unfold finishRecon; split
  · rfl
  · next r _ =>
    split
    · rfl
    · split
      · rfl
      · extract_lets s1 live s2
        have h1 : s1.kept = s.kept := by simp only [s1]; simp
        have h2 : s2.kept = s.kept := by simp only [s2]; split <;> simp [h1]
        split
        · exact h1
        · refine (delivered_kept _ _).trans ((forAll_kept _ _ _ (fun _ _ => ?_)).trans h2)
          refine (forAll_kept _ _ _ (fun _ _ => ?_)).trans ?_
          · split
            · rfl
            · split <;> simp
          · split
            · refine (deliver_kept _ _ _ _ _ _).trans ?_; split <;> simp
            · simp
@[simp ↓] theorem reconLost_kept (j : Nat) (s : State) : (reconLost j s).kept = s.kept := by
  unfold reconLost; dsimp only; (repeat' split) <;> simp
@[simp ↓] theorem reconFail_kept (j key : Nat) (s : State) : (reconFail j key s).kept = s.kept := by
  unfold reconFail; dsimp only; (repeat' split) <;> simp
@[simp ↓] theorem serveByRecon_kept (c : DCmd) (repair : Bool) (s : State) : (serveByRecon c repair s).kept = s.kept := by
  unfold serveByRecon; dsimp only; (repeat' split) <;> simp
@[simp ↓] theorem dropDCmd_kept (k : Nat) (c : DCmd) (done : Bool) (s : State) : (dropDCmd k c done s).kept = s.kept := by
  unfold dropDCmd; simp
@[simp ↓] theorem noteCompleted_kept (c : DCmd) (s : State) : (noteCompleted c s).kept = s.kept := by
  unfold noteCompleted; simp
@[simp ↓] theorem logDone_kept (i k : Nat) (rs : List Nat) (j : Nat) (s : State) : (logDone i k rs j s).kept = s.kept := by
  unfold logDone; simp
@[simp ↓] theorem writeSettled_kept (c : DCmd) (s : State) : (writeSettled c s).kept = s.kept := by
  unfold writeSettled; dsimp only; (repeat' split) <;> simp
@[simp ↓] theorem endSlotCmds_kept (slot : Nat) (s : State) : (endSlotCmds slot s).2.kept = s.kept := by
  unfold endSlotCmds; repeat' (first | (with_reducible rfl) | (simp; done) | (dsimp only) | split | (refine (forAll_kept _ _ _ (fun _ _ => ?_)).trans ?_))
@[simp ↓] theorem failedByEjection_kept (c : DCmd) (s : State) : (failedByEjection c s).kept = s.kept := by
  unfold failedByEjection; simp
@[simp ↓] theorem dropTarget_kept (i m : Nat) (s : State) : (dropTarget i m s).kept = s.kept := by
  unfold dropTarget; simp
@[simp ↓] theorem loseMember_kept (i m reason : Nat) (s : State) : (loseMember i m reason s).kept = s.kept := by
  unfold loseMember; dsimp only; (repeat' split) <;> simp
@[simp ↓] theorem ejectSlot_kept (slot reason : Nat) (s : State) : (ejectSlot slot reason s).kept = s.kept := by
  unfold ejectSlot; repeat' (first | (with_reducible rfl) | (simp; done) | (dsimp only) | split)
@[simp ↓] theorem readDone_kept (k : Nat) (c : DCmd) (s : State) : (readDone k c s).kept = s.kept := by
  unfold readDone; dsimp only; (repeat' split) <;> simp
@[simp ↓] theorem readMedia_kept (k : Nat) (c : DCmd) (s : State) : (readMedia k c s).kept = s.kept := by
  unfold readMedia; repeat' (first | (with_reducible rfl) | (simp; done) | (dsimp only) | split | (refine (forAll_kept _ _ _ (fun _ _ => ?_)).trans ?_))
@[simp ↓] theorem outcome_kept (k : Nat) (c : DCmd) (o : DriveOutcome) (s : State) : (outcome k c o s).kept = s.kept := by
  unfold outcome; dsimp only; (repeat' split) <;> simp
theorem execDriveCompletion_kept (k : Nat) (s : State) : ∀ z, execDriveCompletion k s = .next z → z.kept = s.kept := by
  unfold execDriveCompletion; apply next_kept; repeat' (first | (with_reducible rfl) | (simp; done) | (dsimp only) | split)
theorem execMemberTimeoutCheck_kept (s : State) : ∀ z, execMemberTimeoutCheck s = .next z → z.kept = s.kept := by
  unfold execMemberTimeoutCheck; apply next_kept; simp
theorem execHedgeDeadline_kept (k : Nat) (s : State) : ∀ z, execHedgeDeadline k s = .next z → z.kept = s.kept := by
  unfold execHedgeDeadline; apply next_kept; dsimp only; (repeat' split) <;> simp
theorem execLatencyPercentileUpdate_kept (slot : Nat) (s : State) : ∀ z, execLatencyPercentileUpdate slot s = .next z → z.kept = s.kept := by
  unfold execLatencyPercentileUpdate; apply next_kept; simp
theorem execAbsentwaitExpiry_kept (set_ member : Nat) (s : State) : ∀ z, execAbsentwaitExpiry set_ member s = .next z → z.kept = s.kept := by
  unfold execAbsentwaitExpiry; apply next_kept; dsimp only; (repeat' split) <;> simp
@[simp ↓] theorem startOne_kept (i m : Nat) (s : State) : (startOne i m s).kept = s.kept := by
  unfold startOne; dsimp only; (repeat' split) <;> simp
@[simp ↓] theorem startMissing_kept (i : Nat) (s : State) : (startMissing i s).kept = s.kept := by
  unfold startMissing; repeat' (first | (with_reducible rfl) | (simp; done) | (dsimp only) | split | (refine (forAll_kept _ _ _ (fun _ _ => ?_)).trans ?_))
theorem execRebuildStart_kept (set_ : Nat) (s : State) : ∀ z, execRebuildStart set_ s = .next z → z.kept = s.kept := by
  unfold execRebuildStart; apply next_kept; repeat' (first | (with_reducible rfl) | (simp; done) | (dsimp only) | split)
@[simp ↓] theorem returnCq_kept (slot q : Nat) (s : State) : (returnCq slot q s).kept = s.kept := by
  unfold returnCq; simp
@[simp ↓] theorem takeCq_kept (slot q cid : Nat) (status : DriveOutcome) (s : State) : (takeCq slot q cid status s).kept = s.kept := by
  unfold takeCq; dsimp only; (repeat' split) <;> simp
theorem execDriveCqEntry_kept (slot q cid : Nat) (phase : Bool) (status : DriveOutcome) (s : State) : ∀ z, execDriveCqEntry slot q cid phase status s = .next z → z.kept = s.kept := by
  unfold execDriveCqEntry; apply next_kept; simp
theorem execDoorbellTimer_kept (slot q : Nat) (s : State) : ∀ z, execDoorbellTimer slot q s = .next z → z.kept = s.kept := by
  unfold execDoorbellTimer; apply next_kept; dsimp only; (repeat' split) <;> simp
@[simp ↓] theorem dmaViolation_kept (slot : Nat) (s : State) : (dmaViolation slot s).kept = s.kept := by
  unfold dmaViolation; simp
@[simp ↓] theorem queueDma_kept (r : DmaReq) (s : State) : (queueDma r s).kept = s.kept := by
  unfold queueDma; simp
@[simp ↓] theorem dataDma_kept (r : DmaReq) (s : State) : (dataDma r s).kept = s.kept := by
  unfold dataDma; dsimp only; (repeat' split) <;> simp
theorem execDriveDmaRequest_kept (r : DmaReq) (s : State) : ∀ z, execDriveDmaRequest r s = .next z → z.kept = s.kept := by
  unfold execDriveDmaRequest; apply next_kept; simp
@[simp ↓] theorem startResync_kept (i m slot : Nat) (s : State) : (startResync i m slot s).kept = s.kept := by
  unfold startResync; dsimp only; (repeat' split) <;> simp
@[simp ↓] theorem returning_kept (i m slot : Nat) (r : IdRec) (s : State) : (returning i m slot r s).kept = s.kept := by
  unfold returning; dsimp only; (repeat' split) <;> simp
@[simp ↓] theorem classifyDrive_kept (slot : Nat) (s : State) : (classifyDrive slot s).kept = s.kept := by
  unfold classifyDrive; dsimp only; (repeat' split) <;> simp
@[simp ↓] theorem absentMissing_kept (i : Nat) (s : State) : (absentMissing i s).kept = s.kept := by
  unfold absentMissing; repeat' (first | (with_reducible rfl) | (simp; done) | (dsimp only) | split | (refine (forAll_kept _ _ _ (fun _ _ => ?_)).trans ?_))
@[simp ↓] theorem recovered_kept (i p : Nat) (x : Pass) (s : State) : (recovered i p x s).kept = s.kept := by
  unfold recovered; simp
@[simp ↓] theorem recoverPass_kept (i : Nat) (v : VSet) (found : List (Nat × ImgRec)) (reads : List (Nat × Nat × List Blk)) (s : State) : (recoverPass i v found reads s).kept = s.kept := by
  unfold recoverPass; simp
theorem execRecordRecovery_kept (set_ : Nat) (found : List (Nat × ImgRec)) (reads : List (Nat × Nat × List Blk)) (s : State) : ∀ z, execRecordRecovery set_ found reads s = .next z → z.kept = s.kept := by
  unfold execRecordRecovery; apply next_kept; repeat' (first | (with_reducible rfl) | (simp; done) | (dsimp only) | split)
@[simp ↓] theorem dropAdmin_kept (k : Nat) (s : State) : (dropAdmin k s).kept = s.kept := by
  unfold dropAdmin; simp
@[simp ↓] theorem linkGone_kept (k : Nat) (st : PortSt) (s : State) : (linkGone k st s).kept = s.kept := by
  unfold linkGone; simp
@[simp ↓] theorem portLost_kept (k : Nat) (s : State) : (portLost k s).kept = s.kept := by
  unfold portLost; simp
@[simp ↓] theorem memberPulled_kept (k : Nat) (s : State) : (memberPulled k s).kept = s.kept := by
  unfold memberPulled; repeat' (first | (with_reducible rfl) | (simp; done) | (dsimp only) | split)
@[simp ↓] theorem portOn_kept (k : Nat) (s : State) : (portOn k s).kept = s.kept := by
  unfold portOn; simp
@[simp ↓] theorem portReleased_kept (k : Nat) (s : State) : (portReleased k s).kept = s.kept := by
  unfold portReleased; simp
@[simp ↓] theorem setReset_kept (k : Nat) (high : Bool) (s : State) : (setReset k high s).kept = s.kept := by
  unfold setReset; simp
@[simp ↓] theorem pulseReset_kept (k : Nat) (s : State) : (pulseReset k s).kept = s.kept := by
  unfold pulseReset; simp
@[simp ↓] theorem initFail_kept (k : Nat) (s : State) : (initFail k s).kept = s.kept := by
  unfold initFail; simp
@[simp ↓] theorem beginInit_kept (k : Nat) (s : State) : (beginInit k s).kept = s.kept := by
  unfold beginInit; simp
@[simp ↓] theorem adminTo_kept (k kind door : Nat) (tag : Word) (ws : List Word) (s : State) : (adminTo k kind door tag ws s).kept = s.kept := by
  unfold adminTo; simp
@[simp ↓] theorem identifyDrive_kept (k : Nat) (s : State) : (identifyDrive k s).kept = s.kept := by
  unfold identifyDrive; simp
@[simp ↓] theorem onSlot_kept (k : Nat) (f : Slot → Slot) (s : State) : (onSlot k f s).kept = s.kept := by
  unfold onSlot; simp
@[simp ↓] theorem shareSend_kept (trip cmdOff cmdOn clear : Nat) (s : State) : (shareSend trip cmdOff cmdOn clear s).kept = s.kept := by
  unfold shareSend; simp
@[simp ↓] theorem tellOn_kept (before : Nat) (s : State) : (tellOn before s).kept = s.kept := by
  unfold tellOn; simp
@[simp ↓] theorem leaveQueue_kept (k : Nat) (s : State) : (leaveQueue k s).kept = s.kept := by
  unfold leaveQueue; simp
@[simp ↓] theorem joinQueue_kept (k : Nat) (s : State) : (joinQueue k s).kept = s.kept := by
  unfold joinQueue; simp
@[simp ↓] theorem noteWaiting_kept (k : Nat) (s : State) : (noteWaiting k s).kept = s.kept := by
  unfold noteWaiting; simp
@[simp ↓] theorem enqueue_kept (k : Nat) (s : State) : (enqueue k s).kept = s.kept := by
  unfold enqueue; simp
@[simp ↓] theorem stageOff_kept (k : Nat) (s : State) : (stageOff k s).kept = s.kept := by
  unfold stageOff; simp
@[simp ↓] theorem noteAdmission_kept (k : Nat) (s : State) : (noteAdmission k s).kept = s.kept := by
  unfold noteAdmission; simp
@[simp ↓] theorem enterJoin_kept (k : Nat) (s : State) : (enterJoin k s).kept = s.kept := by
  unfold enterJoin; simp
@[simp ↓] theorem enterRamp_kept (k : Nat) (s : State) : (enterRamp k s).kept = s.kept := by
  unfold enterRamp; simp
@[simp ↓] theorem recordTrip_kept (k cause time : Nat) (s : State) : (recordTrip k cause time s).kept = s.kept := by
  unfold recordTrip; simp
@[simp ↓] theorem enterDisabled_kept (k : Nat) (s : State) : (enterDisabled k s).kept = s.kept := by
  unfold enterDisabled; simp
@[simp ↓] theorem trip_kept (k cause time : Nat) (s : State) : (trip k cause time s).kept = s.kept := by
  unfold trip; simp
@[simp ↓] theorem ownTrip_kept (k cause : Nat) (s : State) : (ownTrip k cause s).kept = s.kept := by
  unfold ownTrip; simp
@[simp ↓] theorem leaveLockout_kept (k : Nat) (s : State) : (leaveLockout k s).kept = s.kept := by
  unfold leaveLockout; simp
@[simp ↓] theorem enterPartnerOnly_kept (k : Nat) (s : State) : (enterPartnerOnly k s).kept = s.kept := by
  unfold enterPartnerOnly; simp
@[simp ↓] theorem pulled_kept (k : Nat) (s : State) : (pulled k s).kept = s.kept := by
  unfold pulled; dsimp only; (repeat' split) <;> simp
@[simp ↓] theorem probeEmpty_kept (k : Nat) (s : State) : (probeEmpty k s).kept = s.kept := by
  unfold probeEmpty; simp
@[simp ↓] theorem probePresent_kept (k : Nat) (s : State) : (probePresent k s).kept = s.kept := by
  unfold probePresent; simp
@[simp ↓] theorem probePartnerFed_kept (k : Nat) (changed : Bool) (s : State) : (probePartnerFed k changed s).kept = s.kept := by
  unfold probePartnerFed; dsimp only; (repeat' split) <;> simp
theorem execSlotProbe_kept (slot pre : Nat) (riseUs : Option Nat) (s : State) : ∀ z, execSlotProbe slot pre riseUs s = .next z → z.kept = s.kept := by
  unfold execSlotProbe; apply next_kept; dsimp only; (repeat' split) <;> simp
theorem execSlotInserted_kept (slot : Nat) (s : State) : ∀ z, execSlotInserted slot s = .next z → z.kept = s.kept := by
  unfold execSlotInserted; apply next_kept; dsimp only; (repeat' split) <;> simp
theorem execSlotSuspectPull_kept (slot iout : Nat) (s : State) : ∀ z, execSlotSuspectPull slot iout s = .next z → z.kept = s.kept := by
  unfold execSlotSuspectPull; apply next_kept; simp
theorem execSlotAdmit_kept (slot pre : Nat) (s : State) : ∀ z, execSlotAdmit slot pre s = .next z → z.kept = s.kept := by
  unfold execSlotAdmit; apply next_kept; simp
@[simp ↓] theorem unadmit_kept (k : Nat) (s : State) : (unadmit k s).kept = s.kept := by
  unfold unadmit; simp
theorem execRampResample_kept (slot pre : Nat) (s : State) : ∀ z, execRampResample slot pre s = .next z → z.kept = s.kept := by
  unfold execRampResample; apply next_kept; simp
@[simp ↓] theorem enterOn_kept (k : Nat) (s : State) : (enterOn k s).kept = s.kept := by
  unfold enterOn; simp
theorem execSlotPowerGood_kept (slot : Nat) (s : State) : ∀ z, execSlotPowerGood slot s = .next z → z.kept = s.kept := by
  unfold execSlotPowerGood; apply next_kept; simp
theorem execSlotResetRelease_kept (slot : Nat) (s : State) : ∀ z, execSlotResetRelease slot s = .next z → z.kept = s.kept := by
  unfold execSlotResetRelease; apply next_kept; simp
theorem execSlotJoinSettled_kept (slot : Nat) (s : State) : ∀ z, execSlotJoinSettled slot s = .next z → z.kept = s.kept := by
  unfold execSlotJoinSettled; apply next_kept; simp
theorem execInrushTimeout_kept (slot : Nat) (s : State) : ∀ z, execInrushTimeout slot s = .next z → z.kept = s.kept := by
  unfold execInrushTimeout; apply next_kept; simp
theorem execSlotTrip_kept (slot cause meas : Nat) (s : State) : ∀ z, execSlotTrip slot cause meas s = .next z → z.kept = s.kept := by
  unfold execSlotTrip; apply next_kept; simp
theorem execSlotRetryExpiry_kept (slot : Nat) (s : State) : ∀ z, execSlotRetryExpiry slot s = .next z → z.kept = s.kept := by
  unfold execSlotRetryExpiry; apply next_kept; simp
@[simp ↓] theorem queueShed_kept (k : Nat) (s : State) : (queueShed k s).kept = s.kept := by
  unfold queueShed; simp
theorem execSlotStageOffDelay_kept (slot : Nat) (s : State) : ∀ z, execSlotStageOffDelay slot s = .next z → z.kept = s.kept := by
  unfold execSlotStageOffDelay; apply next_kept; dsimp only; (repeat' split) <;> simp
@[simp ↓] theorem turnOff_kept (k : Nat) (s : State) : (turnOff k s).kept = s.kept := by
  unfold turnOff; simp
@[simp ↓] theorem turnOn_kept (k : Nat) (s : State) : (turnOn k s).kept = s.kept := by
  unfold turnOn; simp
@[simp ↓] theorem clearLockout_kept (k : Nat) (s : State) : (clearLockout k s).kept = s.kept := by
  unfold clearLockout; simp
@[simp ↓] theorem measure_kept (k iout vout : Nat) (s : State) : (measure k iout vout s).kept = s.kept := by
  unfold measure; simp
theorem execShareTelemetrySend_kept (iout vout : List Nat) (s : State) : ∀ z, execShareTelemetrySend iout vout s = .next z → z.kept = s.kept := by
  unfold execShareTelemetrySend; apply next_kept; simp
@[simp ↓] theorem alignProbes_kept (phase : Nat) (s : State) : (alignProbes phase s).kept = s.kept := by
  unfold alignProbes; simp
@[simp ↓] theorem shareSlot_kept (r : ShareRec) (k : Nat) (s : State) : (shareSlot r k s).kept = s.kept := by
  unfold shareSlot; simp
theorem execShareTelemetryReceive_kept (r : ShareRec) (s : State) : ∀ z, execShareTelemetryReceive r s = .next z → z.kept = s.kept := by
  unfold execShareTelemetryReceive; apply next_kept; simp
theorem execShareUpdateMissed_kept (s : State) : ∀ z, execShareUpdateMissed s = .next z → z.kept = s.kept := by
  unfold execShareUpdateMissed; apply next_kept; simp
@[simp ↓] theorem enterDroop_kept (s : State) : (enterDroop s).kept = s.kept := by
  unfold enterDroop; simp
theorem execShareDroop_kept (s : State) : ∀ z, execShareDroop s = .next z → z.kept = s.kept := by
  unfold execShareDroop; apply next_kept; simp
theorem execShareRestored_kept (s : State) : ∀ z, execShareRestored s = .next z → z.kept = s.kept := by
  unfold execShareRestored; apply next_kept; simp
@[simp ↓] theorem drivesPower_kept (low : Bool) (s : State) : (drivesPower low s).kept = s.kept := by
  unfold drivesPower; simp
@[simp ↓] theorem settleBudget_kept (s : State) : (settleBudget s).kept = s.kept := by
  unfold settleBudget; repeat' (first | (with_reducible rfl) | (simp; done) | (dsimp only) | split)
theorem execSingleFeedBudgetTick_kept (mv1 mv2 i1 i2 : Nat) (s : State) : ∀ z, execSingleFeedBudgetTick mv1 mv2 i1 i2 s = .next z → z.kept = s.kept := by
  unfold execSingleFeedBudgetTick; apply next_kept; simp
theorem execSlotShed_kept (current : Nat) (s : State) : ∀ z, execSlotShed current s = .next z → z.kept = s.kept := by
  unfold execSlotShed; apply next_kept; dsimp only; (repeat' split) <;> simp
theorem execIndicatorFrame_kept (s : State) : ∀ z, execIndicatorFrame s = .next z → z.kept = s.kept := by
  unfold execIndicatorFrame; apply next_kept; simp
@[simp ↓] theorem deskPwrSetSlotLimits_kept (p : Packet) (s : State) : (deskPwrSetSlotLimits p s).2.2.kept = s.kept := by
  unfold deskPwrSetSlotLimits; simp
theorem execPwrSetSlotLimits_kept (p : Packet) (s : State) : ∀ z, execPwrSetSlotLimits p s = .next z → z.kept = s.kept := letter_kept (fun s => deskPwrSetSlotLimits_kept p s)
@[simp ↓] theorem deskPwrGetSlotStatus_kept (p : Packet) (s : State) : (deskPwrGetSlotStatus p s).2.2.kept = s.kept := by
  unfold deskPwrGetSlotStatus; simp
theorem execPwrGetSlotStatus_kept (p : Packet) (s : State) : ∀ z, execPwrGetSlotStatus p s = .next z → z.kept = s.kept := letter_kept (fun s => deskPwrGetSlotStatus_kept p s)
@[simp ↓] theorem deskPwrSetSlotPower_kept (p : Packet) (s : State) : (deskPwrSetSlotPower p s).2.2.kept = s.kept := by
  unfold deskPwrSetSlotPower; dsimp only; (repeat' split) <;> simp
theorem execPwrSetSlotPower_kept (p : Packet) (s : State) : ∀ z, execPwrSetSlotPower p s = .next z → z.kept = s.kept := letter_kept (fun s => deskPwrSetSlotPower_kept p s)
@[simp ↓] theorem deskPwrClearLockout_kept (p : Packet) (s : State) : (deskPwrClearLockout p s).2.2.kept = s.kept := by
  unfold deskPwrClearLockout; simp
theorem execPwrClearLockout_kept (p : Packet) (s : State) : ∀ z, execPwrClearLockout p s = .next z → z.kept = s.kept := letter_kept (fun s => deskPwrClearLockout_kept p s)
@[simp ↓] theorem deskPwrSetBudget_kept (p : Packet) (s : State) : (deskPwrSetBudget p s).2.2.kept = s.kept := by
  unfold deskPwrSetBudget; simp
theorem execPwrSetBudget_kept (p : Packet) (s : State) : ∀ z, execPwrSetBudget p s = .next z → z.kept = s.kept := letter_kept (fun s => deskPwrSetBudget_kept p s)
@[simp ↓] theorem deskPwrGetBudget_kept (_p : Packet) (s : State) : (deskPwrGetBudget _p s).2.2.kept = s.kept := by
  unfold deskPwrGetBudget; simp
theorem execPwrGetBudget_kept (p : Packet) (s : State) : ∀ z, execPwrGetBudget p s = .next z → z.kept = s.kept := letter_kept (fun s => deskPwrGetBudget_kept p s)
@[simp ↓] theorem deskPwrSetIndicator_kept (p : Packet) (s : State) : (deskPwrSetIndicator p s).2.2.kept = s.kept := by
  unfold deskPwrSetIndicator; simp
theorem execPwrSetIndicator_kept (p : Packet) (s : State) : ∀ z, execPwrSetIndicator p s = .next z → z.kept = s.kept := letter_kept (fun s => deskPwrSetIndicator_kept p s)
@[simp ↓] theorem deskPwrGetFeeds_kept (_p : Packet) (s : State) : (deskPwrGetFeeds _p s).2.2.kept = s.kept := by
  unfold deskPwrGetFeeds; simp
theorem execPwrGetFeeds_kept (p : Packet) (s : State) : ∀ z, execPwrGetFeeds p s = .next z → z.kept = s.kept := letter_kept (fun s => deskPwrGetFeeds_kept p s)
theorem execDriveTrainingAttempt_kept (slot : Nat) (s : State) : ∀ z, execDriveTrainingAttempt slot s = .next z → z.kept = s.kept := by
  unfold execDriveTrainingAttempt; apply next_kept; simp
@[simp ↓] theorem configPort_kept (slot mps : Nat) (tag10 : Bool) (s : State) : (configPort slot mps tag10 s).kept = s.kept := by
  unfold configPort; simp
theorem execDriveLinkUp_kept (slot speed width : Nat) (flit classOk : Bool) (capTo mqes mps : Nat) (tag10 : Bool) (s : State) : ∀ z, execDriveLinkUp slot speed width flit classOk capTo mqes mps tag10 s = .next z → z.kept = s.kept := by
  unfold execDriveLinkUp; apply next_kept; simp
@[simp ↓] theorem driveDown_kept (slot : Nat) (s : State) : (driveDown slot s).kept = s.kept := by
  unfold driveDown; simp
theorem execDriveLinkDown_kept (slot : Nat) (s : State) : ∀ z, execDriveLinkDown slot s = .next z → z.kept = s.kept := by
  unfold execDriveLinkDown; apply next_kept; simp
theorem execDownmaxExpiry_kept (slot : Nat) (s : State) : ∀ z, execDownmaxExpiry slot s = .next z → z.kept = s.kept := by
  unfold execDownmaxExpiry; apply next_kept; repeat' (first | (with_reducible rfl) | (simp; done) | (dsimp only) | split)
theorem execDriveLinkRetrain_kept (slot errors : Nat) (s : State) : ∀ z, execDriveLinkRetrain slot errors s = .next z → z.kept = s.kept := by
  unfold execDriveLinkRetrain; apply next_kept; simp
theorem execCstsWaitTimeout_kept (slot : Nat) (s : State) : ∀ z, execCstsWaitTimeout slot s = .next z → z.kept = s.kept := by
  unfold execCstsWaitTimeout; apply next_kept; repeat' (first | (with_reducible rfl) | (simp; done) | (dsimp only) | split)
theorem execDriveCstsReady_kept (slot : Nat) (s : State) : ∀ z, execDriveCstsReady slot s = .next z → z.kept = s.kept := by
  unfold execDriveCstsReady; apply next_kept; simp
@[simp ↓] theorem failReq_kept (k code : Nat) (s : State) : (failReq k code s).kept = s.kept := by
  unfold failReq; simp
@[simp ↓] theorem adminDone_kept (slot : Nat) (d : AdminDone) (s : State) : (adminDone slot d s).kept = s.kept := by
  unfold adminDone; dsimp only; (repeat' split) <;> simp
theorem execDriveAdminCompletion_kept (slot : Nat) (d : AdminDone) (s : State) : ∀ z, execDriveAdminCompletion slot d s = .next z → z.kept = s.kept := by
  unfold execDriveAdminCompletion; apply next_kept; simp
theorem execDriveAdminTimeout_kept (slot : Nat) (s : State) : ∀ z, execDriveAdminTimeout slot s = .next z → z.kept = s.kept := by
  unfold execDriveAdminTimeout; apply next_kept; dsimp only; (repeat' split) <;> simp
theorem execDriveResetRelease_kept (slot : Nat) (s : State) : ∀ z, execDriveResetRelease slot s = .next z → z.kept = s.kept := by
  unfold execDriveResetRelease; apply next_kept; repeat' (first | (with_reducible rfl) | (simp; done) | (dsimp only) | split)
@[simp ↓] theorem deskDrvSetPort_kept (p : Packet) (s : State) : (deskDrvSetPort p s).2.2.kept = s.kept := by
  unfold deskDrvSetPort; simp
theorem execDrvSetPort_kept (p : Packet) (s : State) : ∀ z, execDrvSetPort p s = .next z → z.kept = s.kept := letter_kept (fun s => deskDrvSetPort_kept p s)
@[simp ↓] theorem deskDrvGetPort_kept (p : Packet) (s : State) : (deskDrvGetPort p s).2.2.kept = s.kept := by
  unfold deskDrvGetPort; simp
theorem execDrvGetPort_kept (p : Packet) (s : State) : ∀ z, execDrvGetPort p s = .next z → z.kept = s.kept := letter_kept (fun s => deskDrvGetPort_kept p s)
@[simp ↓] theorem deskDrvGetDrive_kept (p : Packet) (s : State) : (deskDrvGetDrive p s).2.2.kept = s.kept := by
  unfold deskDrvGetDrive; repeat' (first | (with_reducible rfl) | (simp; done) | (dsimp only) | (refine guardParam_kept _ _ _ (fun _ => ?_)) | split)
theorem execDrvGetDrive_kept (p : Packet) (s : State) : ∀ z, execDrvGetDrive p s = .next z → z.kept = s.kept := letter_kept (fun s => deskDrvGetDrive_kept p s)
@[simp ↓] theorem deskDrvResetDrive_kept (p : Packet) (s : State) : (deskDrvResetDrive p s).2.2.kept = s.kept := by
  unfold deskDrvResetDrive; repeat' (first | (with_reducible rfl) | (simp; done) | (dsimp only) | (refine guardParam_kept _ _ _ (fun _ => ?_)) | (refine check_kept _ _ _ _ (fun _ => ?_)) | split)
theorem execDrvResetDrive_kept (p : Packet) (s : State) : ∀ z, execDrvResetDrive p s = .next z → z.kept = s.kept := letter_kept (fun s => deskDrvResetDrive_kept p s)
@[simp ↓] theorem deskDrvFormatDrive_kept (p : Packet) (s : State) : (deskDrvFormatDrive p s).2.2.kept = s.kept := by
  unfold deskDrvFormatDrive; repeat' (first | (with_reducible rfl) | (simp; done) | (dsimp only) | (refine guardParam_kept _ _ _ (fun _ => ?_)) | (refine check_kept _ _ _ _ (fun _ => ?_)) | split)
theorem execDrvFormatDrive_kept (p : Packet) (s : State) : ∀ z, execDrvFormatDrive p s = .next z → z.kept = s.kept := letter_kept (fun s => deskDrvFormatDrive_kept p s)
@[simp ↓] theorem deskDrvReadLog_kept (p : Packet) (s : State) : (deskDrvReadLog p s).2.2.kept = s.kept := by
  unfold deskDrvReadLog; simp
theorem execDrvReadLog_kept (p : Packet) (s : State) : ∀ z, execDrvReadLog p s = .next z → z.kept = s.kept := letter_kept (fun s => deskDrvReadLog_kept p s)
theorem execInitStripe_kept (set_ : Nat) (s : State) : ∀ z, execInitStripe set_ s = .next z → z.kept = s.kept := by
  unfold execInitStripe; apply next_kept; repeat' (first | (with_reducible rfl) | (simp; done) | (dsimp only) | split)
theorem execRebuildStripe_kept (set_ member : Nat) (s : State) : ∀ z, execRebuildStripe set_ member s = .next z → z.kept = s.kept := by
  unfold execRebuildStripe; apply next_kept; repeat' (first | (with_reducible rfl) | (simp; done) | (dsimp only) | split)
theorem execResyncRegion_kept (set_ member : Nat) (s : State) : ∀ z, execResyncRegion set_ member s = .next z → z.kept = s.kept := by
  unfold execResyncRegion; apply next_kept; repeat' (first | (with_reducible rfl) | (simp; done) | (dsimp only) | split | (refine (forAll_kept _ _ _ (fun _ _ => ?_)).trans ?_) | (refine (foldl_kept _ (fun _ _ => ?_) _ _).trans ?_) | (refine (foldl_snd_kept _ _ _ (fun _ _ => ?_)).trans ?_))
theorem execPatrolStripe_kept (set_ : Nat) (s : State) : ∀ z, execPatrolStripe set_ s = .next z → z.kept = s.kept := by
  unfold execPatrolStripe; apply next_kept; repeat' (first | (with_reducible rfl) | (simp; done) | (dsimp only) | split | (refine (forAll_kept _ _ _ (fun _ _ => ?_)).trans ?_))
theorem execIdentityRecordWrite_kept (set_ : Nat) (s : State) : ∀ z, execIdentityRecordWrite set_ s = .next z → z.kept = s.kept := by
  unfold execIdentityRecordWrite; apply next_kept; repeat' (first | (with_reducible rfl) | (simp; done) | (dsimp only) | split)
@[simp ↓] theorem withSet_kept (i : Nat) (s : State) (k : VSet → State → Desk) (hk : ∀ x0 x1, (k x0 x1).2.2.kept = x1.kept) : (withSet i s k).2.2.kept = s.kept := by
  unfold withSet; split
  · simp
  · exact hk _ _
@[simp ↓] theorem fireOverdue_kept (i a : Nat) (v : VSet) (s : State) : (fireOverdue i a v s).kept = s.kept := by
  unfold fireOverdue; simp
@[simp ↓] theorem deskRedSetPolicy_kept (p : Packet) (s : State) : (deskRedSetPolicy p s).2.2.kept = s.kept := by
  unfold deskRedSetPolicy; simp
theorem execRedSetPolicy_kept (p : Packet) (s : State) : ∀ z, execRedSetPolicy p s = .next z → z.kept = s.kept := letter_kept (fun s => deskRedSetPolicy_kept p s)
@[simp ↓] theorem deskRedGetHealth_kept (p : Packet) (s : State) : (deskRedGetHealth p s).2.2.kept = s.kept := by
  unfold deskRedGetHealth; simp
theorem execRedGetHealth_kept (p : Packet) (s : State) : ∀ z, execRedGetHealth p s = .next z → z.kept = s.kept := letter_kept (fun s => deskRedGetHealth_kept p s)
@[simp ↓] theorem deskRedGetMember_kept (p : Packet) (s : State) : (deskRedGetMember p s).2.2.kept = s.kept := by
  unfold deskRedGetMember; repeat' (first | (with_reducible rfl) | (simp; done) | (dsimp only) | (refine guardParam_kept _ _ _ (fun _ => ?_)) | (refine withSet_kept _ _ _ (fun _ _ => ?_)) | split)
theorem execRedGetMember_kept (p : Packet) (s : State) : ∀ z, execRedGetMember p s = .next z → z.kept = s.kept := letter_kept (fun s => deskRedGetMember_kept p s)
@[simp ↓] theorem eraseId_kept (k : Nat) (s : State) : (eraseId k s).kept = s.kept := by
  unfold eraseId; simp
@[simp ↓] theorem deskRedSetSpare_kept (p : Packet) (s : State) : (deskRedSetSpare p s).2.2.kept = s.kept := by
  unfold deskRedSetSpare; repeat' (first | (with_reducible rfl) | (simp; done) | (dsimp only) | (refine guardParam_kept _ _ _ (fun _ => ?_)) | (refine check_kept _ _ _ _ (fun _ => ?_)) | split | (refine (forAll_kept _ _ _ (fun _ _ => ?_)).trans ?_))
theorem execRedSetSpare_kept (p : Packet) (s : State) : ∀ z, execRedSetSpare p s = .next z → z.kept = s.kept := letter_kept (fun s => deskRedSetSpare_kept p s)
@[simp ↓] theorem withMember_kept (p : Packet) (used : Word) (s : State) (k : Nat → Nat → VSet → State → Desk) (hk : ∀ x0 x1 x2 x3, (k x0 x1 x2 x3).2.2.kept = x3.kept) : (withMember p used s k).2.2.kept = s.kept := by
  unfold withMember; repeat' (first | (with_reducible rfl) | (simp [hk]; done) | (dsimp only) | (refine guardParam_kept _ _ _ (fun _ => ?_)) | (refine withSet_kept _ _ _ (fun _ _ => ?_)) | split)
@[simp ↓] theorem deskRedEjectMember_kept (p : Packet) (s : State) : (deskRedEjectMember p s).2.2.kept = s.kept := by
  unfold deskRedEjectMember; repeat' (first | (with_reducible rfl) | (simp; done) | (dsimp only) | (refine check_kept _ _ _ _ (fun _ => ?_)) | (refine withMember_kept _ _ _ _ (fun _ _ _ _ => ?_)) | split)
theorem execRedEjectMember_kept (p : Packet) (s : State) : ∀ z, execRedEjectMember p s = .next z → z.kept = s.kept := letter_kept (fun s => deskRedEjectMember_kept p s)
@[simp ↓] theorem deskRedReadmit_kept (p : Packet) (s : State) : (deskRedReadmit p s).2.2.kept = s.kept := by
  unfold deskRedReadmit; repeat' (first | (with_reducible rfl) | (simp; done) | (dsimp only) | (refine withMember_kept _ _ _ _ (fun _ _ _ _ => ?_)) | split)
theorem execRedReadmit_kept (p : Packet) (s : State) : ∀ z, execRedReadmit p s = .next z → z.kept = s.kept := letter_kept (fun s => deskRedReadmit_kept p s)
@[simp ↓] theorem deskRedStartRebuild_kept (p : Packet) (s : State) : (deskRedStartRebuild p s).2.2.kept = s.kept := by
  unfold deskRedStartRebuild
  refine withMember_kept _ _ _ _ (fun _ _ _ _ => ?_)
  repeat' (first | with_reducible rfl | (simp; done) | dsimp only | (refine check_kept _ _ _ _ (fun _ => ?_)) | split)
theorem execRedStartRebuild_kept (p : Packet) (s : State) : ∀ z, execRedStartRebuild p s = .next z → z.kept = s.kept := letter_kept (fun s => deskRedStartRebuild_kept p s)
@[simp ↓] theorem forceOnline_kept (i : Nat) (v : VSet) (s : State) : (forceOnline i v s).kept = s.kept := by
  unfold forceOnline; simp
@[simp ↓] theorem deskRedForceOnline_kept (p : Packet) (s : State) : (deskRedForceOnline p s).2.2.kept = s.kept := by
  unfold deskRedForceOnline; simp
theorem execRedForceOnline_kept (p : Packet) (s : State) : ∀ z, execRedForceOnline p s = .next z → z.kept = s.kept := letter_kept (fun s => deskRedForceOnline_kept p s)
@[simp ↓] theorem deskRedReadBadRanges_kept (p : Packet) (s : State) : (deskRedReadBadRanges p s).2.2.kept = s.kept := by
  unfold deskRedReadBadRanges; simp
theorem execRedReadBadRanges_kept (p : Packet) (s : State) : ∀ z, execRedReadBadRanges p s = .next z → z.kept = s.kept := letter_kept (fun s => deskRedReadBadRanges_kept p s)
@[simp ↓] theorem deskRedClearBadRanges_kept (p : Packet) (s : State) : (deskRedClearBadRanges p s).2.2.kept = s.kept := by
  unfold deskRedClearBadRanges; simp
theorem execRedClearBadRanges_kept (p : Packet) (s : State) : ∀ z, execRedClearBadRanges p s = .next z → z.kept = s.kept := letter_kept (fun s => deskRedClearBadRanges_kept p s)

end Sys2Proof.Machine
end

