-- ==== Sys2Proof/Laws/KeptVol.lean ====
section
/-! SUPPORT. The queue, the ordering code, the mode and the Boot stage (`State.kept`) under each operation of keys, volumes and the NVMe target: one lemma for
each, which says that it keeps them. -/
namespace Sys2Proof.Machine

@[simp ↓] theorem drawKey_kept (mode : Nat) (s : State) : (drawKey mode s).2.kept = s.kept := by
  unfold drawKey; simp
@[simp ↓] theorem loadKey_kept (i mode gen : Nat) (key : List Word) (s : State) : (loadKey i mode gen key s).kept = s.kept := by
  unfold loadKey; simp
@[simp ↓] theorem destroySlot_kept (i : Nat) (refill : Bool) (who : Option (Nat × Nat)) (s : State) : (destroySlot i refill who s).kept = s.kept := by
  unfold destroySlot; simp
@[simp ↓] theorem refillSlot_kept (slot : Nat) (k : KSlot) (s : State) : (refillSlot slot k s).kept = s.kept := by
  unfold refillSlot; dsimp only; (repeat' split) <;> simp
theorem execKeyZeroise_kept (slot : Nat) (s : State) : ∀ z, execKeyZeroise slot s = .next z → z.kept = s.kept := by
  unfold execKeyZeroise; apply next_kept; simp
theorem execKeyCopiesErased_kept (slot : Nat) (s : State) : ∀ z, execKeyCopiesErased slot s = .next z → z.kept = s.kept := by
  unfold execKeyCopiesErased; apply next_kept; dsimp only; (repeat' split) <;> simp
@[simp ↓] theorem endSweep_kept (i : Nat) (s : State) : (endSweep i s).kept = s.kept := by
  unfold endSweep; simp
@[simp ↓] theorem enterSwept_kept (nsid : Nat) (n : Ns) (lba : Nat) (b : PBlk) (s : State) : (enterSwept nsid n lba b s).kept = s.kept := by
  unfold enterSwept; repeat' (first | (with_reducible rfl) | (simp; done) | (dsimp only) | split | ((try have e_tagPage := congrArg (fun q => q.2.kept) ‹tagPage _ _ _ _ = (_, _)›); (try simp at *); first | (simp [*]; done) | (simp_all; done)))
@[simp ↓] theorem passSwept_kept (slot lba : Nat) (s : State) : (passSwept slot lba s).kept = s.kept := by
  unfold passSwept; simp
@[simp ↓] theorem loseSwept_kept (slot : Nat) (n : Ns) (lba : Nat) (s : State) : (loseSwept slot n lba s).kept = s.kept := by
  unfold loseSwept; dsimp only; (repeat' split) <;> simp
@[simp ↓] theorem readSwept_kept (slot : Nat) (n : Ns) (lba : Nat) (s : State) : (readSwept slot n lba s).kept = s.kept := by
  unfold readSwept; dsimp only; (repeat' split) <;> simp
@[simp ↓] theorem sweepAgain_kept (slot : Nat) (n : Ns) (lba : Nat) (s : State) : (sweepAgain slot n lba s).kept = s.kept := by
  unfold sweepAgain; dsimp only; (repeat' split) <;> simp
@[simp ↓] theorem sweepBlock_kept (slot : Nat) (n : Ns) (lba : Nat) (read : Bool) (b : PBlk) (s : State) : (sweepBlock slot n lba read b s).kept = s.kept := by
  unfold sweepBlock; repeat' (first | (with_reducible rfl) | (simp; done) | (dsimp only) | split | ((try have e_openBlk := congrArg (fun q => q.2.kept) ‹openBlk _ _ _ _ _ = (_, _)›); (try have e_sealBlk := congrArg (fun q => q.2.kept) ‹sealBlk _ _ _ _ _ _ = (_, _)›); (try simp at *); first | (simp [*]; done) | (simp_all; done)))
@[simp ↓] theorem sweepNext_kept (slot : Nat) (n : Ns) (lba : Nat) (s : State) : (sweepNext slot n lba s).kept = s.kept := by
  unfold sweepNext; extract_lets k s1
  have h1 : s1.kept = s.kept := by simp only [s1]; repeat' (first | (with_reducible rfl) | (simp; done) | split)
  rw [← h1]
  repeat' (first | (with_reducible rfl) | (simp; done) | (dsimp only) | split)
theorem execRotationSweepStep_kept (slot : Nat) (s : State) : ∀ z, execRotationSweepStep slot s = .next z → z.kept = s.kept := by
  unfold execRotationSweepStep; apply next_kept; repeat' (first | (with_reducible rfl) | (simp; done) | (dsimp only) | split)
theorem execSweepPositionRecord_kept (slot : Nat) (s : State) : ∀ z, execSweepPositionRecord slot s = .next z → z.kept = s.kept := by
  unfold execSweepPositionRecord; apply next_kept; simp
theorem execEntropyFault_kept (s : State) : ∀ z, execEntropyFault s = .next z → z.kept = s.kept := by
  unfold execEntropyFault; apply next_kept; simp
theorem execEntropyRetest_kept (pass : Bool) (s : State) : ∀ z, execEntropyRetest pass s = .next z → z.kept = s.kept := by
  unfold execEntropyRetest; apply next_kept; simp
theorem execDrbgReseed_kept (s : State) : ∀ z, execDrbgReseed s = .next z → z.kept = s.kept := by
  unfold execDrbgReseed; apply next_kept; simp
theorem execCipherSelfTest_kept (failed : List Nat) (s : State) : ∀ z, execCipherSelfTest failed s = .next z → z.kept = s.kept := by
  unfold execCipherSelfTest; apply next_kept; simp
theorem execNonceReservationLive_kept (core : Nat) (s : State) : ∀ z, execNonceReservationLive core s = .next z → z.kept = s.kept := by
  unfold execNonceReservationLive; apply next_kept; dsimp only; (repeat' split) <;> simp
@[simp ↓] theorem busyFree_kept (s : State) : (busyFree s).2.2.kept = s.kept := by
  unfold busyFree; simp
@[simp ↓] theorem deskKeyGetIdentityKey_kept (_p : Packet) (s : State) : (deskKeyGetIdentityKey _p s).2.2.kept = s.kept := by
  unfold deskKeyGetIdentityKey; simp
theorem execKeyGetIdentityKey_kept (p : Packet) (s : State) : ∀ z, execKeyGetIdentityKey p s = .next z → z.kept = s.kept := letter_kept (fun s => deskKeyGetIdentityKey_kept p s)
@[simp ↓] theorem deskKeyEstablishKek_kept (p : Packet) (s : State) : (deskKeyEstablishKek p s).2.2.kept = s.kept := by
  unfold deskKeyEstablishKek; repeat' (first | (with_reducible rfl) | (simp; done) | (dsimp only) | (refine guardParam_kept _ _ _ (fun _ => ?_)) | split)
theorem execKeyEstablishKek_kept (p : Packet) (s : State) : ∀ z, execKeyEstablishKek p s = .next z → z.kept = s.kept := letterData_kept (fun s => deskKeyEstablishKek_kept p s)
@[simp ↓] theorem unwrapKey_kept (ws : List Word) (s : State) (k : List Word → State → Desk) (hk : ∀ x0 x1, (k x0 x1).2.2.kept = x1.kept) : (unwrapKey ws s k).2.2.kept = s.kept := by
  unfold unwrapKey; repeat' (first | (with_reducible rfl) | (simp [hk]; done) | (dsimp only) | split)
@[simp ↓] theorem deskKeyImportKey_kept (p : Packet) (s : State) : (deskKeyImportKey p s).2.2.kept = s.kept := by
  unfold deskKeyImportKey; repeat' (first | (with_reducible rfl) | (simp; done) | (dsimp only) | (refine guardParam_kept _ _ _ (fun _ => ?_)) | (refine check_kept _ _ _ _ (fun _ => ?_)) | (refine unwrapKey_kept _ _ _ (fun _ _ => ?_)) | split)
theorem execKeyImportKey_kept (p : Packet) (s : State) : ∀ z, execKeyImportKey p s = .next z → z.kept = s.kept := letterData_kept (fun s => deskKeyImportKey_kept p s)
@[simp ↓] theorem deskKeyGenerateKey_kept (p : Packet) (s : State) : (deskKeyGenerateKey p s).2.2.kept = s.kept := by
  unfold deskKeyGenerateKey; repeat' (first | (with_reducible rfl) | (simp; done) | (dsimp only) | (refine guardParam_kept _ _ _ (fun _ => ?_)) | (refine check_kept _ _ _ _ (fun _ => ?_)) | split)
theorem execKeyGenerateKey_kept (p : Packet) (s : State) : ∀ z, execKeyGenerateKey p s = .next z → z.kept = s.kept := letter_kept (fun s => deskKeyGenerateKey_kept p s)
@[simp ↓] theorem deskKeyExportKey_kept (p : Packet) (s : State) : (deskKeyExportKey p s).2.2.kept = s.kept := by
  unfold deskKeyExportKey; repeat' (first | (with_reducible rfl) | (simp; done) | (dsimp only) | (refine guardParam_kept _ _ _ (fun _ => ?_)) | (refine check_kept _ _ _ _ (fun _ => ?_)) | split)
theorem execKeyExportKey_kept (p : Packet) (s : State) : ∀ z, execKeyExportKey p s = .next z → z.kept = s.kept := letter_kept (fun s => deskKeyExportKey_kept p s)
@[simp ↓] theorem deskKeyDestroyKey_kept (p : Packet) (s : State) : (deskKeyDestroyKey p s).2.2.kept = s.kept := by
  unfold deskKeyDestroyKey; simp
theorem execKeyDestroyKey_kept (p : Packet) (s : State) : ∀ z, execKeyDestroyKey p s = .next z → z.kept = s.kept := letter_kept (fun s => deskKeyDestroyKey_kept p s)
@[simp ↓] theorem rotateTo_kept (p : Packet) (i : Nat) (k : KSlot) (key : List Word) (s : State) : (rotateTo p i k key s).kept = s.kept := by
  unfold rotateTo; simp
@[simp ↓] theorem deskKeyRotateKey_kept (p : Packet) (s : State) : (deskKeyRotateKey p s).2.2.kept = s.kept := by
  unfold deskKeyRotateKey; repeat' (first | (with_reducible rfl) | (simp; done) | (dsimp only) | (refine guardParam_kept _ _ _ (fun _ => ?_)) | (refine check_kept _ _ _ _ (fun _ => ?_)) | (refine unwrapKey_kept _ _ _ (fun _ _ => ?_)) | split)
theorem execKeyRotateKey_kept (p : Packet) (s : State) : ∀ z, execKeyRotateKey p s = .next z → z.kept = s.kept := letterData_kept (fun s => deskKeyRotateKey_kept p s)
@[simp ↓] theorem deskKeyGetSlot_kept (p : Packet) (s : State) : (deskKeyGetSlot p s).2.2.kept = s.kept := by
  unfold deskKeyGetSlot; simp
theorem execKeyGetSlot_kept (p : Packet) (s : State) : ∀ z, execKeyGetSlot p s = .next z → z.kept = s.kept := letter_kept (fun s => deskKeyGetSlot_kept p s)
@[simp ↓] theorem deskKeyRunVector_kept (p : Packet) (s : State) : (deskKeyRunVector p s).2.2.kept = s.kept := by
  unfold deskKeyRunVector; repeat' (first | (with_reducible rfl) | (simp; done) | (dsimp only) | (refine guardParam_kept _ _ _ (fun _ => ?_)) | (refine check_kept _ _ _ _ (fun _ => ?_)) | split)
theorem execKeyRunVector_kept (p : Packet) (s : State) : ∀ z, execKeyRunVector p s = .next z → z.kept = s.kept := letterData_kept (fun s => deskKeyRunVector_kept p s)
@[simp ↓] theorem sendDir_kept (nsid home : Nat) (deleted : Bool) (s : State) : (sendDir nsid home deleted s).kept = s.kept := by
  unfold sendDir; simp
@[simp ↓] theorem dropPages_kept (nsid : Nat) (s : State) : (dropPages nsid s).kept = s.kept := by
  unfold dropPages; simp
@[simp ↓] theorem returnAll_kept (nsid : Nat) (s : State) : (returnAll nsid s).kept = s.kept := by
  unfold returnAll; repeat' (first | (with_reducible rfl) | (simp; done) | (dsimp only) | split | (refine (forAll_kept _ _ _ (fun _ _ => ?_)).trans ?_))
@[simp ↓] theorem finishDelete_kept (nsid : Nat) (s : State) : (finishDelete nsid s).kept = s.kept := by
  unfold finishDelete; dsimp only; (repeat' split) <;> simp
@[simp ↓] theorem resizeNs_kept (nsid size : Nat) (s : State) : (resizeNs nsid size s).kept = s.kept := by
  unfold resizeNs; repeat' (first | (with_reducible rfl) | (simp; done) | (dsimp only) | split | (refine (forAll_kept _ _ _ (fun _ _ => ?_)).trans ?_) | (refine (doIf_kept _ _ _ (fun _ => ?_)).trans ?_))
@[simp ↓] theorem applyVol_kept (c : VChange) (s : State) : (applyVol c s).kept = s.kept := by
  unfold applyVol; dsimp only; (repeat' split) <;> simp
@[simp ↓] theorem thickStart_kept (who : VWho) (nsid new : Nat) (s : State) : (thickStart who nsid new s).kept = s.kept := by
  unfold thickStart; repeat' (first | (with_reducible rfl) | (simp; done) | (dsimp only) | split | ((try have e_grantAll := grantAll_kept _ _ _ _ _ ‹grantAll _ _ _ _ = some _›); (try simp at *); first | (simp [*]; done) | (simp_all; done)))
@[simp ↓] theorem flipVol_kept (qs : List VQueued) (s : State) : (flipVol qs s).kept = s.kept := by
  unfold flipVol; simp
@[simp ↓] theorem replyHost_kept (ctx cid : Nat) (chg : List VChange) (s : State) : (replyHost ctx cid chg s).kept = s.kept := by
  unfold replyHost; simp
@[simp ↓] theorem returnOld_kept (nsid i k p : Nat) (s : State) : (returnOld nsid i k p s).kept = s.kept := by
  unfold returnOld; simp
@[simp ↓] theorem nextParcel_kept (from_ : Nat) (s : State) : (nextParcel from_ s).kept = s.kept := by
  unfold nextParcel; dsimp only; (repeat' split) <;> simp
@[simp ↓] theorem finishChange_kept (c : VChange) (s : State) : (finishChange c s).kept = s.kept := by
  unfold finishChange; repeat' (first | (with_reducible rfl) | (simp; done) | (dsimp only) | split)
@[simp ↓] theorem volReply_kept (w : VWait) (s : State) : (volReply w s).kept = s.kept := by
  unfold volReply; dsimp only; (repeat' split) <;> simp
@[simp ↓] theorem settleVol_kept (s : State) : (settleVol s).kept = s.kept := by
  unfold settleVol; simp
theorem takeChange_kept (q : VQueued) (s : State) : ∀ z, takeChange q s = some z → z.kept = s.kept := by
  intro z h; unfold takeChange at h; dsimp only at h
  split at h
  · cases h; simp
  · split at h
    · cases h; simp
    · cases h
@[simp ↓] theorem submitVol_kept (p : Packet) (op : Nat) (c : VChange) (s : State) : (submitVol p op c s).2.2.kept = s.kept := by
  unfold submitVol; repeat' (first | (with_reducible rfl) | (simp; done) | (dsimp only) | split | ((try have e_takeChange := takeChange_kept _ _ _ ‹takeChange _ _ = some _›); (try simp at *); first | (simp [*]; done) | (simp_all; done)))
theorem execMapEpochDrained_kept (s : State) : ∀ z, execMapEpochDrained s = .next z → z.kept = s.kept := by
  unfold execMapEpochDrained; apply next_kept; simp
theorem execMapEpochSlow_kept (s : State) : ∀ z, execMapEpochSlow s = .next z → z.kept = s.kept := by
  unfold execMapEpochSlow; apply next_kept; repeat' (first | (with_reducible rfl) | (simp; done) | (dsimp only) | split | (refine (forAll_kept _ _ _ (fun _ _ => ?_)).trans ?_))
@[simp ↓] theorem startMove_kept (m : Migration) (l : Leaf) (v src : VSet) (p i cnt : Nat) (s : State) : (startMove m l v src p i cnt s).kept = s.kept := by
  unfold startMove; simp
theorem execMigrationPassDone_kept (s : State) : ∀ z, execMigrationPassDone s = .next z → z.kept = s.kept := by
  unfold execMigrationPassDone; apply next_kept; repeat' (first | (with_reducible rfl) | (simp; done) | (dsimp only) | split | (refine (doIf_kept _ _ _ (fun _ => ?_)).trans ?_) | ((try have e_takeChange := takeChange_kept _ _ _ ‹takeChange _ _ = some _›); (try simp at *); first | (simp [*]; done) | (simp_all; done)))
theorem execQuarantineRelease_kept (s : State) : ∀ z, execQuarantineRelease s = .next z → z.kept = s.kept := by
  unfold execQuarantineRelease; apply next_kept; simp
theorem execThickCreationComplete_kept (nsid : Nat) (s : State) : ∀ z, execThickCreationComplete nsid s = .next z → z.kept = s.kept := by
  unfold execThickCreationComplete; apply next_kept; repeat' (first | (with_reducible rfl) | (simp; done) | (dsimp only) | split)
theorem execMapDeltaFlush_kept (s : State) : ∀ z, execMapDeltaFlush s = .next z → z.kept = s.kept := by
  unfold execMapDeltaFlush; apply next_kept; repeat' (first | (with_reducible rfl) | (simp; done) | (dsimp only) | split | (refine (forAll_kept _ _ _ (fun _ _ => ?_)).trans ?_))
@[simp ↓] theorem installSet_kept (i : Nat) (v : VSet) (slots : List Nat) (s : State) : (installSet i v slots s).kept = s.kept := by
  unfold installSet; simp
@[simp ↓] theorem deskVolCreateSet_kept (p : Packet) (s : State) : (deskVolCreateSet p s).2.2.kept = s.kept := by
  unfold deskVolCreateSet; repeat' (first | (with_reducible rfl) | (simp; done) | (dsimp only) | (refine guardParam_kept _ _ _ (fun _ => ?_)) | (refine check_kept _ _ _ _ (fun _ => ?_)) | split)
theorem execVolCreateSet_kept (p : Packet) (s : State) : ∀ z, execVolCreateSet p s = .next z → z.kept = s.kept := letter_kept (fun s => deskVolCreateSet_kept p s)
@[simp ↓] theorem deskVolDeleteSet_kept (p : Packet) (s : State) : (deskVolDeleteSet p s).2.2.kept = s.kept := by
  unfold deskVolDeleteSet; repeat' (first | (with_reducible rfl) | (simp; done) | (dsimp only) | (refine guardParam_kept _ _ _ (fun _ => ?_)) | (refine check_kept _ _ _ _ (fun _ => ?_)) | (refine withSet_kept _ _ _ (fun _ _ => ?_)) | split | (refine (forAll_kept _ _ _ (fun _ _ => ?_)).trans ?_))
theorem execVolDeleteSet_kept (p : Packet) (s : State) : ∀ z, execVolDeleteSet p s = .next z → z.kept = s.kept := letter_kept (fun s => deskVolDeleteSet_kept p s)
@[simp ↓] theorem deskVolGetSet_kept (p : Packet) (s : State) : (deskVolGetSet p s).2.2.kept = s.kept := by
  unfold deskVolGetSet; simp
theorem execVolGetSet_kept (p : Packet) (s : State) : ∀ z, execVolGetSet p s = .next z → z.kept = s.kept := letter_kept (fun s => deskVolGetSet_kept p s)
@[simp ↓] theorem deskVolSetReserve_kept (p : Packet) (s : State) : (deskVolSetReserve p s).2.2.kept = s.kept := by
  unfold deskVolSetReserve; repeat' (first | (with_reducible rfl) | (simp; done) | (dsimp only) | (refine guardParam_kept _ _ _ (fun _ => ?_)) | (refine withSet_kept _ _ _ (fun _ _ => ?_)) | split)
theorem execVolSetReserve_kept (p : Packet) (s : State) : ∀ z, execVolSetReserve p s = .next z → z.kept = s.kept := letter_kept (fun s => deskVolSetReserve_kept p s)
@[simp ↓] theorem newNs_kept (s : State) (nsid lbaf pit enc : Nat) (thick resv spread : Bool) (size quota : Nat) (sets : List Nat) : (newNs s nsid lbaf pit enc thick resv spread size quota sets).2.kept = s.kept := by
  unfold newNs; simp
@[simp ↓] theorem askMaster_kept (q : VQueued) (op : Nat) (p : Packet) (s : State) : (askMaster q op p s).kept = s.kept := by
  unfold askMaster; simp
@[simp ↓] theorem submitClaim_kept (p : Packet) (op : Nat) (c : VChange) (s : State) : (submitClaim p op c s).2.2.kept = s.kept := by
  unfold submitClaim; simp
@[simp ↓] theorem deskVolCreateNamespace_kept (p : Packet) (s : State) : (deskVolCreateNamespace p s).2.2.kept = s.kept := by
  unfold deskVolCreateNamespace; extract_lets nsid lbaf pit enc size
  refine check_kept _ _ _ _ (fun s => ?_)
  split
  · simp
  · refine guardParam_kept _ _ _ (fun s => ?_)
    refine check_kept _ _ _ _ (fun s => ?_)
    refine check_kept _ _ _ _ (fun s => ?_)
    refine check_kept _ _ _ _ (fun s => ?_)
    refine check_kept _ _ _ _ (fun s => ?_)
    split
    next n u e =>
    have e' : u.kept = s.kept := by have e' := congrArg (fun q => q.2.kept) e; simpa using e'.symm
    extract_lets t
    have et : t.kept = u.kept := by simp only [t]; simp
    unfold check; split
    · simp [e']
    · show (doIf _ _ u).kept = _
      unfold doIf; split
      · have h := noteRefused_kept nsid true (List.range size) t
        exact (show _ = (noteRefused nsid true (List.range size) t).kept from rfl).trans (h.trans (et.trans e'))
      · exact e'
theorem execVolCreateNamespace_kept (p : Packet) (s : State) : ∀ z, execVolCreateNamespace p s = .next z → z.kept = s.kept := letter_kept (fun s => deskVolCreateNamespace_kept p s)
@[simp ↓] theorem withNs_kept (nsid : Nat) (s : State) (k : Ns → State → Desk) (hk : ∀ x0 x1, (k x0 x1).2.2.kept = x1.kept) : (withNs nsid s k).2.2.kept = s.kept := by
  unfold withNs; split
  · simp
  · split
    · simp
    · exact check_kept _ _ _ _ (fun x => hk _ _)
@[simp ↓] theorem deskVolDeleteNamespace_kept (p : Packet) (s : State) : (deskVolDeleteNamespace p s).2.2.kept = s.kept := by
  unfold deskVolDeleteNamespace; repeat' (first | (with_reducible rfl) | (simp; done) | (dsimp only) | (refine guardParam_kept _ _ _ (fun _ => ?_)) | (refine check_kept _ _ _ _ (fun _ => ?_)) | (refine withNs_kept _ _ _ (fun _ _ => ?_)) | split)
theorem execVolDeleteNamespace_kept (p : Packet) (s : State) : ∀ z, execVolDeleteNamespace p s = .next z → z.kept = s.kept := letter_kept (fun s => deskVolDeleteNamespace_kept p s)
@[simp ↓] theorem deskVolResizeNamespace_kept (p : Packet) (s : State) : (deskVolResizeNamespace p s).2.2.kept = s.kept := by
  unfold deskVolResizeNamespace; repeat' (first | (with_reducible rfl) | (simp; done) | (dsimp only) | (refine guardParam_kept _ _ _ (fun _ => ?_)) | (refine check_kept _ _ _ _ (fun _ => ?_)) | (refine withNs_kept _ _ _ (fun _ _ => ?_)) | split | ((try have e_grantAll := grantAll_kept _ _ _ _ _ ‹grantAll _ _ _ _ = some _›); (try simp at *); first | (simp [*]; done) | (simp_all; done)))
theorem execVolResizeNamespace_kept (p : Packet) (s : State) : ∀ z, execVolResizeNamespace p s = .next z → z.kept = s.kept := letter_kept (fun s => deskVolResizeNamespace_kept p s)
@[simp ↓] theorem deskVolSetNsPolicy_kept (p : Packet) (s : State) : (deskVolSetNsPolicy p s).2.2.kept = s.kept := by
  unfold deskVolSetNsPolicy; repeat' (first | (with_reducible rfl) | (simp; done) | (dsimp only) | (refine guardParam_kept _ _ _ (fun _ => ?_)) | (refine check_kept _ _ _ _ (fun _ => ?_)) | (refine withNs_kept _ _ _ (fun _ _ => ?_)) | split)
theorem execVolSetNsPolicy_kept (p : Packet) (s : State) : ∀ z, execVolSetNsPolicy p s = .next z → z.kept = s.kept := letter_kept (fun s => deskVolSetNsPolicy_kept p s)
@[simp ↓] theorem deskVolAttachNamespace_kept (p : Packet) (s : State) : (deskVolAttachNamespace p s).2.2.kept = s.kept := by
  unfold deskVolAttachNamespace; simp
theorem execVolAttachNamespace_kept (p : Packet) (s : State) : ∀ z, execVolAttachNamespace p s = .next z → z.kept = s.kept := letter_kept (fun s => deskVolAttachNamespace_kept p s)
@[simp ↓] theorem deskVolGetNamespace_kept (p : Packet) (s : State) : (deskVolGetNamespace p s).2.2.kept = s.kept := by
  unfold deskVolGetNamespace; repeat' (first | (with_reducible rfl) | (simp; done) | (dsimp only) | (refine guardParam_kept _ _ _ (fun _ => ?_)) | split)
theorem execVolGetNamespace_kept (p : Packet) (s : State) : ∀ z, execVolGetNamespace p s = .next z → z.kept = s.kept := letter_kept (fun s => deskVolGetNamespace_kept p s)
@[simp ↓] theorem deskVolMigrateParcels_kept (p : Packet) (s : State) : (deskVolMigrateParcels p s).2.2.kept = s.kept := by
  unfold deskVolMigrateParcels; repeat' (first | (with_reducible rfl) | (simp; done) | (dsimp only) | (refine guardParam_kept _ _ _ (fun _ => ?_)) | (refine check_kept _ _ _ _ (fun _ => ?_)) | (refine withNs_kept _ _ _ (fun _ _ => ?_)) | split)
theorem execVolMigrateParcels_kept (p : Packet) (s : State) : ∀ z, execVolMigrateParcels p s = .next z → z.kept = s.kept := letter_kept (fun s => deskVolMigrateParcels_kept p s)
@[simp ↓] theorem deskVolGetParcel_kept (p : Packet) (s : State) : (deskVolGetParcel p s).2.2.kept = s.kept := by
  unfold deskVolGetParcel; repeat' (first | (with_reducible rfl) | (simp; done) | (dsimp only) | (refine guardParam_kept _ _ _ (fun _ => ?_)) | split)
theorem execVolGetParcel_kept (p : Packet) (s : State) : ∀ z, execVolGetParcel p s = .next z → z.kept = s.kept := letter_kept (fun s => deskVolGetParcel_kept p s)
@[simp ↓] theorem deskVolSetNsDefaults_kept (p : Packet) (s : State) : (deskVolSetNsDefaults p s).2.2.kept = s.kept := by
  unfold deskVolSetNsDefaults; dsimp only; (repeat' split) <;> simp
theorem execVolSetNsDefaults_kept (p : Packet) (s : State) : ∀ z, execVolSetNsDefaults p s = .next z → z.kept = s.kept := letter_kept (fun s => deskVolSetNsDefaults_kept p s)
@[simp ↓] theorem deskVolGetEpoch_kept (_p : Packet) (s : State) : (deskVolGetEpoch _p s).2.2.kept = s.kept := by
  unfold deskVolGetEpoch; simp
theorem execVolGetEpoch_kept (p : Packet) (s : State) : ∀ z, execVolGetEpoch p s = .next z → z.kept = s.kept := letter_kept (fun s => deskVolGetEpoch_kept p s)
@[simp ↓] theorem drowseReply_kept (ok : Bool) (s : State) : (drowseReply ok s).kept = s.kept := by
  unfold drowseReply; simp
@[simp ↓] theorem abandonDrowse_kept (s : State) : (abandonDrowse s).kept = s.kept := by
  unfold abandonDrowse; simp
@[simp ↓] theorem onHost_kept (h : Nat) (f : HostEnt → HostEnt) (s : State) : (onHost h f s).kept = s.kept := by
  unfold onHost; simp
@[simp ↓] theorem endCtrl_kept (n cause : Nat) (s : State) : (endCtrl n cause s).kept = s.kept := by
  unfold endCtrl; dsimp only; (repeat' split) <;> simp
theorem execKeepAliveExpiry_kept (cntlid : Nat) (s : State) : ∀ z, execKeepAliveExpiry cntlid s = .next z → z.kept = s.kept := by
  unfold execKeepAliveExpiry; apply next_kept; repeat' (first | (with_reducible rfl) | (simp; done) | (dsimp only) | split)
@[simp ↓] theorem resumeKeepAlive_kept (s : State) : (resumeKeepAlive s).kept = s.kept := by
  unfold resumeKeepAlive; simp
@[simp ↓] theorem interruptHosts_kept (s : State) : (interruptHosts s).kept = s.kept := by
  unfold interruptHosts; simp
@[simp ↓] theorem refuseConnect_kept (r : ConnectReq) (st : NvStatus) (dw0 : Nat) (s : State) : (refuseConnect r st dw0 s).kept = s.kept := by
  unfold refuseConnect; simp
@[simp ↓] theorem newCtrl_kept (r : ConnectReq) (h : Nat) (e : HostEnt) (s : State) : (newCtrl r h e s).kept = s.kept := by
  unfold newCtrl; dsimp only; (repeat' split) <;> simp
@[simp ↓] theorem joinCtrl_kept (r : ConnectReq) (e : HostEnt) (s : State) : (joinCtrl r e s).kept = s.kept := by
  unfold joinCtrl; simp
@[simp ↓] theorem connectIn_kept (r : ConnectReq) (s : State) : (connectIn r s).kept = s.kept := by
  unfold connectIn; dsimp only; (repeat' split) <;> simp
@[simp ↓] theorem admitConnect_kept (r : ConnectReq) (s : State) : (admitConnect r s).kept = s.kept := by
  unfold admitConnect; dsimp only; (repeat' split) <;> simp
theorem execNvmeConnect_kept (r : ConnectReq) (s : State) : ∀ z, execNvmeConnect r s = .next z → z.kept = s.kept := by
  unfold execNvmeConnect; apply next_kept; repeat' (first | (with_reducible rfl) | (simp; done) | (dsimp only) | split)
@[simp ↓] theorem adminIn_kept (row : AdmRow) (ctx cid : Nat) (kind : AdmKind) (k : Nat → Ctrl → State → State) (s : State) (hk : ∀ x0 x1 x2, (k x0 x1 x2).kept = x2.kept) : (adminIn row ctx cid kind k s).kept = s.kept := by
  unfold adminIn; dsimp only; (repeat' split) <;> simp [hk]
@[simp ↓] theorem ends_kept (ctx cid : Nat) (st : NvStatus) (s : State) : (ends ctx cid st s).kept = s.kept := by
  unfold ends; simp
theorem execNvmeDisconnect_kept (ctx cid : Nat) (s : State) : ∀ z, execNvmeDisconnect ctx cid s = .next z → z.kept = s.kept := by
  unfold execNvmeDisconnect; apply next_kept; simp
theorem execNvmeKeepAlive_kept (ctx cid : Nat) (s : State) : ∀ z, execNvmeKeepAlive ctx cid s = .next z → z.kept = s.kept := by
  unfold execNvmeKeepAlive; apply next_kept; simp
@[simp ↓] theorem authFailed_kept (n reason : Nat) (c : Ctrl) (s : State) : (authFailed n reason c s).kept = s.kept := by
  unfold authFailed; simp
@[simp ↓] theorem authDone_kept (n : Nat) (s : State) : (authDone n s).kept = s.kept := by
  unfold authDone; simp
@[simp ↓] theorem authStep_kept (n : Nat) (c : Ctrl) (m : AuthMsg) (s : State) : (authStep n c m s).kept = s.kept := by
  unfold authStep; dsimp only; (repeat' split) <;> simp
theorem execNvmeAuthenticationSend_kept (ctx cid : Nat) (m : AuthMsg) (s : State) : ∀ z, execNvmeAuthenticationSend ctx cid m s = .next z → z.kept = s.kept := by
  unfold execNvmeAuthenticationSend; apply next_kept; simp
theorem execNvmeAuthenticationReceive_kept (ctx cid : Nat) (s : State) : ∀ z, execNvmeAuthenticationReceive ctx cid s = .next z → z.kept = s.kept := by
  unfold execNvmeAuthenticationReceive; apply next_kept; repeat' (first | (with_reducible rfl) | (simp; done) | (dsimp only) | (refine adminIn_kept _ _ _ _ _ _ (fun _ _ _ => ?_)) | split)
@[simp ↓] theorem writeCc_kept (n : Nat) (c : Ctrl) (v : Nat) (s : State) : (writeCc n c v s).kept = s.kept := by
  unfold writeCc; simp
theorem execNvmePropertySet_kept (ctx cid prop value : Nat) (s : State) : ∀ z, execNvmePropertySet ctx cid prop value s = .next z → z.kept = s.kept := by
  unfold execNvmePropertySet; apply next_kept; simp
theorem execNvmePropertyGet_kept (ctx cid prop : Nat) (s : State) : ∀ z, execNvmePropertyGet ctx cid prop s = .next z → z.kept = s.kept := by
  unfold execNvmePropertyGet; apply next_kept; dsimp only; (repeat' split) <;> simp
theorem execNvmeGetLogPage_kept (ctx cid nsid lid : Nat) (s : State) : ∀ z, execNvmeGetLogPage ctx cid nsid lid s = .next z → z.kept = s.kept := by
  unfold execNvmeGetLogPage; apply next_kept; repeat' (first | (with_reducible rfl) | (simp; done) | (dsimp only) | (refine adminIn_kept _ _ _ _ _ _ (fun _ _ _ => ?_)) | split)
theorem execNvmeIdentify_kept (ctx cid nsid cns cntid : Nat) (s : State) : ∀ z, execNvmeIdentify ctx cid nsid cns cntid s = .next z → z.kept = s.kept := by
  unfold execNvmeIdentify; apply next_kept; repeat' (first | (with_reducible rfl) | (simp; done) | (dsimp only) | (refine adminIn_kept _ _ _ _ _ _ (fun _ _ _ => ?_)) | split)
@[simp ↓] theorem setPower_kept (ctx cid : Nat) (c : Ctrl) (v : Nat) (s : State) : (setPower ctx cid c v s).kept = s.kept := by
  unfold setPower; simp
theorem execNvmeSetFeatures_kept (ctx cid nsid fid value : Nat) (s : State) : ∀ z, execNvmeSetFeatures ctx cid nsid fid value s = .next z → z.kept = s.kept := by
  unfold execNvmeSetFeatures; apply next_kept; dsimp only; (repeat' split) <;> simp
theorem execNvmeGetFeatures_kept (ctx cid nsid fid value : Nat) (s : State) : ∀ z, execNvmeGetFeatures ctx cid nsid fid value s = .next z → z.kept = s.kept := by
  unfold execNvmeGetFeatures; apply next_kept; dsimp only; (repeat' split) <;> simp
theorem execNvmeAsyncEventRequest_kept (ctx cid : Nat) (s : State) : ∀ z, execNvmeAsyncEventRequest ctx cid s = .next z → z.kept = s.kept := by
  unfold execNvmeAsyncEventRequest; apply next_kept; repeat' (first | (with_reducible rfl) | (simp; done) | (dsimp only) | (refine adminIn_kept _ _ _ _ _ _ (fun _ _ _ => ?_)) | split)
theorem execNvmeAbort_kept (ctx cid sqid acid : Nat) (s : State) : ∀ z, execNvmeAbort ctx cid sqid acid s = .next z → z.kept = s.kept := by
  unfold execNvmeAbort; apply next_kept; simp
@[simp ↓] theorem hostClaim_kept (ctx cid op nsid : Nat) (c : VChange) (s : State) : (hostClaim ctx cid op nsid c s).kept = s.kept := by
  unfold hostClaim; repeat' (first | (with_reducible rfl) | (simp; done) | (dsimp only) | split | ((try have e_takeChange := takeChange_kept _ _ _ ‹takeChange _ _ = some _›); (try simp at *); first | (simp [*]; done) | (simp_all; done)))
@[simp ↓] theorem hostCreate_kept (ctx cid : Nat) (c : NsCreate) (s : State) : (hostCreate ctx cid c s).kept = s.kept := by
  unfold hostCreate; dsimp only; (repeat' split) <;> simp
theorem execNvmeNamespaceManagement_kept (ctx cid : Nat) (del : Option Nat) (c : NsCreate) (s : State) : ∀ z, execNvmeNamespaceManagement ctx cid del c s = .next z → z.kept = s.kept := by
  unfold execNvmeNamespaceManagement; apply next_kept; repeat' (first | (with_reducible rfl) | (simp; done) | (dsimp only) | (refine adminIn_kept _ _ _ _ _ _ (fun _ _ _ => ?_)) | split)
theorem execNvmeNamespaceAttachment_kept (ctx cid nsid : Nat) (attach : Bool) (ctrls : List Nat) (s : State) : ∀ z, execNvmeNamespaceAttachment ctx cid nsid attach ctrls s = .next z → z.kept = s.kept := by
  unfold execNvmeNamespaceAttachment; apply next_kept; repeat' (first | (with_reducible rfl) | (simp; done) | (dsimp only) | (refine adminIn_kept _ _ _ _ _ _ (fun _ _ _ => ?_)) | split | ((try have e_takeChange := takeChange_kept _ _ _ ‹takeChange _ _ = some _›); (try simp at *); first | (simp [*]; done) | (simp_all; done)))
@[simp ↓] theorem emptyNs_kept (nsid : Nat) (s : State) : (emptyNs nsid s).kept = s.kept := by
  unfold emptyNs; dsimp only; (repeat' split) <;> simp
theorem execNvmeFormatNvm_kept (ctx cid nsid ses lbaf pit : Nat) (s : State) : ∀ z, execNvmeFormatNvm ctx cid nsid ses lbaf pit s = .next z → z.kept = s.kept := by
  unfold execNvmeFormatNvm; apply next_kept; repeat' (first | (with_reducible rfl) | (simp; done) | (dsimp only) | (refine adminIn_kept _ _ _ _ _ _ (fun _ _ _ => ?_)) | split)
theorem execNvmeSanitize_kept (ctx cid sanact : Nat) (s : State) : ∀ z, execNvmeSanitize ctx cid sanact s = .next z → z.kept = s.kept := by
  unfold execNvmeSanitize; apply next_kept; simp
@[simp ↓] theorem deskNvmSetSubsystem_kept (p : Packet) (s : State) : (deskNvmSetSubsystem p s).2.2.kept = s.kept := by
  unfold deskNvmSetSubsystem; repeat' (first | (with_reducible rfl) | (simp; done) | (dsimp only) | (refine guardParam_kept _ _ _ (fun _ => ?_)) | (refine check_kept _ _ _ _ (fun _ => ?_)) | split | (refine (forAll_kept _ _ _ (fun _ _ => ?_)).trans ?_))
theorem execNvmSetSubsystem_kept (p : Packet) (s : State) : ∀ z, execNvmSetSubsystem p s = .next z → z.kept = s.kept := letterData_kept (fun s => deskNvmSetSubsystem_kept p s)
@[simp ↓] theorem deskNvmGetSubsystem_kept (_p : Packet) (s : State) : (deskNvmGetSubsystem _p s).2.2.kept = s.kept := by
  unfold deskNvmGetSubsystem; simp
theorem execNvmGetSubsystem_kept (p : Packet) (s : State) : ∀ z, execNvmGetSubsystem p s = .next z → z.kept = s.kept := letter_kept (fun s => deskNvmGetSubsystem_kept p s)
@[simp ↓] theorem deskNvmSetHost_kept (p : Packet) (s : State) : (deskNvmSetHost p s).2.2.kept = s.kept := by
  unfold deskNvmSetHost; repeat' (first | (with_reducible rfl) | (simp; done) | (dsimp only) | (refine guardParam_kept _ _ _ (fun _ => ?_)) | (refine check_kept _ _ _ _ (fun _ => ?_)) | split | (refine (forAll_kept _ _ _ (fun _ _ => ?_)).trans ?_) | (refine (doIf_kept _ _ _ (fun _ => ?_)).trans ?_))
theorem execNvmSetHost_kept (p : Packet) (s : State) : ∀ z, execNvmSetHost p s = .next z → z.kept = s.kept := letterData_kept (fun s => deskNvmSetHost_kept p s)
@[simp ↓] theorem deskNvmDeleteHost_kept (p : Packet) (s : State) : (deskNvmDeleteHost p s).2.2.kept = s.kept := by
  unfold deskNvmDeleteHost; repeat' (first | (with_reducible rfl) | (simp; done) | (dsimp only) | (refine guardParam_kept _ _ _ (fun _ => ?_)) | (refine check_kept _ _ _ _ (fun _ => ?_)) | split | (refine (forAll_kept _ _ _ (fun _ _ => ?_)).trans ?_))
theorem execNvmDeleteHost_kept (p : Packet) (s : State) : ∀ z, execNvmDeleteHost p s = .next z → z.kept = s.kept := letter_kept (fun s => deskNvmDeleteHost_kept p s)
@[simp ↓] theorem deskNvmGetHost_kept (p : Packet) (s : State) : (deskNvmGetHost p s).2.2.kept = s.kept := by
  unfold deskNvmGetHost; repeat' (first | (with_reducible rfl) | (simp; done) | (dsimp only) | (refine guardParam_kept _ _ _ (fun _ => ?_)) | split)
theorem execNvmGetHost_kept (p : Packet) (s : State) : ∀ z, execNvmGetHost p s = .next z → z.kept = s.kept := letter_kept (fun s => deskNvmGetHost_kept p s)
@[simp ↓] theorem deskNvmSetHostSecret_kept (p : Packet) (s : State) : (deskNvmSetHostSecret p s).2.2.kept = s.kept := by
  unfold deskNvmSetHostSecret; repeat' (first | (with_reducible rfl) | (simp; done) | (dsimp only) | (refine guardParam_kept _ _ _ (fun _ => ?_)) | (refine check_kept _ _ _ _ (fun _ => ?_)) | split)
theorem execNvmSetHostSecret_kept (p : Packet) (s : State) : ∀ z, execNvmSetHostSecret p s = .next z → z.kept = s.kept := letterData_kept (fun s => deskNvmSetHostSecret_kept p s)
@[simp ↓] theorem deskNvmGetController_kept (p : Packet) (s : State) : (deskNvmGetController p s).2.2.kept = s.kept := by
  unfold deskNvmGetController; repeat' (first | (with_reducible rfl) | (simp; done) | (dsimp only) | (refine guardParam_kept _ _ _ (fun _ => ?_)) | split)
theorem execNvmGetController_kept (p : Packet) (s : State) : ∀ z, execNvmGetController p s = .next z → z.kept = s.kept := letter_kept (fun s => deskNvmGetController_kept p s)
@[simp ↓] theorem deskNvmEndController_kept (p : Packet) (s : State) : (deskNvmEndController p s).2.2.kept = s.kept := by
  unfold deskNvmEndController; simp
theorem execNvmEndController_kept (p : Packet) (s : State) : ∀ z, execNvmEndController p s = .next z → z.kept = s.kept := letter_kept (fun s => deskNvmEndController_kept p s)
@[simp ↓] theorem deskNvmSetTagLimit_kept (p : Packet) (s : State) : (deskNvmSetTagLimit p s).2.2.kept = s.kept := by
  unfold deskNvmSetTagLimit; simp
theorem execNvmSetTagLimit_kept (p : Packet) (s : State) : ∀ z, execNvmSetTagLimit p s = .next z → z.kept = s.kept := letter_kept (fun s => deskNvmSetTagLimit_kept p s)
@[simp ↓] theorem deskNvmGetTags_kept (p : Packet) (s : State) : (deskNvmGetTags p s).2.2.kept = s.kept := by
  unfold deskNvmGetTags; simp
theorem execNvmGetTags_kept (p : Packet) (s : State) : ∀ z, execNvmGetTags p s = .next z → z.kept = s.kept := letter_kept (fun s => deskNvmGetTags_kept p s)

end Sys2Proof.Machine
end

