-- ==== Sys2Proof/Laws/KeptXpt.lean ====
section
/-! SUPPORT. The queue, the ordering code, the mode and the Boot stage (`State.kept`) under each operation of the RDMA and TCP engines: one lemma for
each, which says that it keeps them. -/
namespace Sys2Proof.Machine

@[simp ↓] theorem refuseAdmission_kept (s : State) : (refuseAdmission s).kept = s.kept := by
  unfold refuseAdmission; simp
@[simp ↓] theorem openCtx_kept (c : Nat) (x : Ctx) (s : State) : (openCtx c x s).kept = s.kept := by
  unfold openCtx; simp
@[simp ↓] theorem toEngine_kept (lport obj : Nat) (hold : Woken) (wakes : Bool) (take : State → State) (s : State) (htake : ∀ x0, (take x0).kept = x0.kept) : (toEngine lport obj hold wakes take s).kept = s.kept := by
  unfold toEngine; repeat' (first | (with_reducible rfl) | (simp [htake]; done) | (dsimp only) | split | (refine (doIf_kept _ _ _ (fun _ => ?_)).trans ?_))
@[simp ↓] theorem notePendDrop_kept (c : Nat) (s : State) : (notePendDrop c s).kept = s.kept := by
  unfold notePendDrop; simp
@[simp ↓] theorem holdPkt_kept (c : Nat) (k : PendPkt) (s : State) : (holdPkt c k s).kept = s.kept := by
  unfold holdPkt; simp
@[simp ↓] theorem packetFor_kept (c : Nat) (k : PendPkt) (now : State → State) (s : State) (hnow : ∀ x0, (now x0).kept = x0.kept) : (packetFor c k now s).kept = s.kept := by
  unfold packetFor; simp [hnow]
theorem execContextFillStart_kept (s : State) : ∀ z, execContextFillStart s = .next z → z.kept = s.kept := by
  unfold execContextFillStart; apply next_kept; repeat' (first | (with_reducible rfl) | (simp; done) | (dsimp only) | split)
@[simp ↓] theorem poisonCtx_kept (c : Nat) (s : State) : (poisonCtx c s).kept = s.kept := by
  unfold poisonCtx; simp
theorem clockCtx_kept  (y0 : List Nat) (y1 : State) : ∀ z, clockCtx y0 y1 = some z → z.kept = y1.kept := by
  induction y0 generalizing y1 with
  | nil => intro z h; cases h
  | cons c cs ih =>
    intro z h; unfold clockCtx at h; dsimp only at h
    split at h
    · exact ih _ _ h
    · split at h
      · exact (ih _ _ h).trans (by simp)
      · cases h; simp
@[simp ↓] theorem evictUntil_kept  (y0 : Nat) (y1 : State) : (evictUntil y0 y1).kept = y1.kept := by
  induction y0 generalizing y1 with
  | zero => rfl
  | succ n ih =>
    unfold evictUntil; dsimp only; split
    · rfl
    · split
      · next u e => rw [ih, clockCtx_kept _ _ _ e]
      · rfl
theorem execContextEvict_kept (s : State) : ∀ z, execContextEvict s = .next z → z.kept = s.kept := by
  unfold execContextEvict; apply next_kept; simp
@[simp ↓] theorem deskXptSetPool_kept (p : Packet) (s : State) : (deskXptSetPool p s).2.2.kept = s.kept := by
  unfold deskXptSetPool; simp
theorem execXptSetPool_kept (p : Packet) (s : State) : ∀ z, execXptSetPool p s = .next z → z.kept = s.kept := letter_kept (fun s => deskXptSetPool_kept p s)
@[simp ↓] theorem deskXptGetPool_kept (_p : Packet) (s : State) : (deskXptGetPool _p s).2.2.kept = s.kept := by
  unfold deskXptGetPool; simp
theorem execXptGetPool_kept (p : Packet) (s : State) : ∀ z, execXptGetPool p s = .next z → z.kept = s.kept := letter_kept (fun s => deskXptGetPool_kept p s)
@[simp ↓] theorem deskXptGetConnection_kept (p : Packet) (s : State) : (deskXptGetConnection p s).2.2.kept = s.kept := by
  unfold deskXptGetConnection; simp
theorem execXptGetConnection_kept (p : Packet) (s : State) : ∀ z, execXptGetConnection p s = .next z → z.kept = s.kept := letter_kept (fun s => deskXptGetConnection_kept p s)
@[simp ↓] theorem deskXptCloseConnection_kept (p : Packet) (s : State) : (deskXptCloseConnection p s).2.2.kept = s.kept := by
  unfold deskXptCloseConnection; simp
theorem execXptCloseConnection_kept (p : Packet) (s : State) : ∀ z, execXptCloseConnection p s = .next z → z.kept = s.kept := letter_kept (fun s => deskXptCloseConnection_kept p s)
@[simp ↓] theorem sendAck_kept (c : Nat) (s : State) : (sendAck c s).kept = s.kept := by
  unfold sendAck; simp
@[simp ↓] theorem sendNak_kept (c code : Nat) (s : State) : (sendNak c code s).kept = s.kept := by
  unfold sendNak; simp
@[simp ↓] theorem nakError_kept (c code cause : Nat) (s : State) : (nakError c code cause s).kept = s.kept := by
  unfold nakError; simp
@[simp ↓] theorem tookPkt_kept (c n : Nat) (msg ackReq : Bool) (s : State) : (tookPkt c n msg ackReq s).kept = s.kept := by
  unfold tookPkt; simp
@[simp ↓] theorem respondData_kept (c : Nat) (lens : List Nat) (m : OutMsg) (s : State) : (respondData c lens m s).kept = s.kept := by
  unfold respondData; simp
@[simp ↓] theorem markCe_kept (c : Nat) (ce : Bool) (s : State) : (markCe c ce s).kept = s.kept := by
  unfold markCe; simp
@[simp ↓] theorem onRegion_kept (i : Nat) (f : Region → Region) (s : State) : (onRegion i f s).kept = s.kept := by
  unfold onRegion; simp
@[simp ↓] theorem denyRegion_kept (c rkey code right : Nat) (s : State) : (denyRegion c rkey code right s).kept = s.kept := by
  unfold denyRegion; simp
@[simp ↓] theorem regionOp_kept (c rkey off total first len right : Nat) (k : State → State) (s : State) (hk : ∀ x0, (k x0).kept = x0.kept) : (regionOp c rkey off total first len right k s).kept = s.kept := by
  unfold regionOp; dsimp only; (repeat' split) <;> simp [hk]
@[simp ↓] theorem doWrite_kept (c psn rkey off n : Nat) (data : List (BitVec 64)) (head : Option (Nat × Nat)) (s : State) : (doWrite c psn rkey off n data head s).kept = s.kept := by
  unfold doWrite; dsimp only; (repeat' split) <;> simp
@[simp ↓] theorem doRead_kept (c psn rkey off len : Nat) (s : State) : (doRead c psn rkey off len s).kept = s.kept := by
  unfold doRead; simp
@[simp ↓] theorem doAtomic_kept (c psn rkey off : Nat) (faa : Bool) (f : BitVec 64 → BitVec 64) (s : State) : (doAtomic c psn rkey off faa f s).kept = s.kept := by
  unfold doAtomic; simp
@[simp ↓] theorem roceInSeq_kept (c : Nat) (p : RocePkt) (s : State) : (roceInSeq c p s).kept = s.kept := by
  unfold roceInSeq; dsimp only; (repeat' split) <;> simp
@[simp ↓] theorem dupWrite_kept (c : Nat) (p : RocePkt) (part : Part) (rkey off len : Nat) (data : List (BitVec 64)) (s : State) : (dupWrite c p part rkey off len data s).kept = s.kept := by
  unfold dupWrite; dsimp only; (repeat' split) <;> simp
@[simp ↓] theorem roceDup_kept (c : Nat) (p : RocePkt) (s : State) : (roceDup c p s).kept = s.kept := by
  unfold roceDup; dsimp only; (repeat' split) <;> simp
@[simp ↓] theorem roceExec_kept (c : Nat) (p : RocePkt) (s : State) : (roceExec c p s).kept = s.kept := by
  unfold roceExec; simp
@[simp ↓] theorem ackTo_kept (c psn : Nat) (s : State) : (ackTo c psn s).kept = s.kept := by
  unfold ackTo; simp
@[simp ↓] theorem resend_kept (c : Nat) (s : State) : (resend c s).kept = s.kept := by
  unfold resend; simp
@[simp ↓] theorem ackExec_kept (c : Nat) (ce : Bool) (psn : Nat) (k : AckKind) (s : State) : (ackExec c ce psn k s).kept = s.kept := by
  unfold ackExec; dsimp only; (repeat' split) <;> simp
@[simp ↓] theorem placeAgain_kept (t gen off : Nat) (hs : List HBlk) (s : State) : (placeAgain t gen off hs s).kept = s.kept := by
  unfold placeAgain; split
  · rfl
  · next c _ =>
    split
    · rfl
    · split
      · rfl
      · next n _ =>
        cases e : arriveBlks t c n off hs s with
        | none => rfl
        | some u => exact arriveBlks_kept _ _ _ _ _ _ _ e
@[simp ↓] theorem respExec_kept (c : Nat) (ce : Bool) (psn tag gen off : Nat) (blks : List HBlk) (last : Bool) (s : State) : (respExec c ce psn tag gen off blks last s).kept = s.kept := by
  unfold respExec; dsimp only; (repeat' split) <;> simp
@[simp ↓] theorem cnpExec_kept (c : Nat) (s : State) : (cnpExec c s).kept = s.kept := by
  unfold cnpExec; simp
theorem execRatePeriod_kept (ctx : Nat) (s : State) : ∀ z, execRatePeriod ctx s = .next z → z.kept = s.kept := by
  unfold execRatePeriod; apply next_kept; simp
@[simp ↓] theorem rdmaExec_kept (c : Nat) (k : PendPkt) (s : State) : (rdmaExec c k s).kept = s.kept := by
  unfold rdmaExec; repeat' (first | (with_reducible rfl) | (simp; done) | (dsimp only) | split)
@[simp ↓] theorem enterReady_kept (c : Nat) (first : State → State) (s : State) (hfirst : ∀ x0, (first x0).kept = x0.kept) : (enterReady c first s).kept = s.kept := by
  unfold enterReady; simp [hfirst]
@[simp ↓] theorem rdmaNow_kept (c : Nat) (k : PendPkt) (s : State) : (rdmaNow c k s).kept = s.kept := by
  unfold rdmaNow; repeat' (first | (with_reducible rfl) | (simp; done) | (dsimp only) | split)
@[simp ↓] theorem roceTake_kept (h : RoceHead) (rc : Bool) (k : PendPkt) (s : State) : (roceTake h rc k s).kept = s.kept := by
  unfold roceTake; simp
@[simp ↓] theorem roceArrive_kept (h : RoceHead) (rc : Bool) (k : PendPkt) (s : State) : (roceArrive h rc k s).kept = s.kept := by
  unfold roceArrive; simp
theorem execRoceRequestPacket_kept (p : RocePkt) (s : State) : ∀ z, execRoceRequestPacket p s = .next z → z.kept = s.kept := by
  unfold execRoceRequestPacket; apply next_kept; simp
theorem execRoceAckReceive_kept (h : RoceHead) (psn : Nat) (k : AckKind) (s : State) : ∀ z, execRoceAckReceive h psn k s = .next z → z.kept = s.kept := by
  unfold execRoceAckReceive; apply next_kept; simp
theorem execRoceReadResponse_kept (h : RoceHead) (psn tag gen off : Nat) (blks : List HBlk) (last : Bool) (s : State) : ∀ z, execRoceReadResponse h psn tag gen off blks last s = .next z → z.kept = s.kept := by
  unfold execRoceReadResponse; apply next_kept; simp
theorem execRoceCnpReceive_kept (h : RoceHead) (s : State) : ∀ z, execRoceCnpReceive h s = .next z → z.kept = s.kept := by
  unfold execRoceCnpReceive; apply next_kept; simp
theorem execAckCoalesceTimeout_kept (ctx : Nat) (s : State) : ∀ z, execAckCoalesceTimeout ctx s = .next z → z.kept = s.kept := by
  unfold execAckCoalesceTimeout; apply next_kept; repeat' (first | (with_reducible rfl) | (simp; done) | (dsimp only) | split)
theorem execAckTimeout_kept (ctx : Nat) (s : State) : ∀ z, execAckTimeout ctx s = .next z → z.kept = s.kept := by
  unfold execAckTimeout; apply next_kept; dsimp only; (repeat' split) <;> simp
theorem execRnrResend_kept (ctx : Nat) (s : State) : ∀ z, execRnrResend ctx s = .next z → z.kept = s.kept := by
  unfold execRnrResend; apply next_kept; repeat' (first | (with_reducible rfl) | (simp; done) | (dsimp only) | split)
@[simp ↓] theorem sendRej_kept (r : CmReq) (reason status : Nat) (s : State) : (sendRej r reason status s).kept = s.kept := by
  unfold sendRej; simp
@[simp ↓] theorem sendRep_kept (c : Nat) (s : State) : (sendRep c s).kept = s.kept := by
  unfold sendRep; simp
@[simp ↓] theorem cmReqTake_kept (r : CmReq) (s : State) : (cmReqTake r s).kept = s.kept := by
  unfold cmReqTake; dsimp only; (repeat' split) <;> simp
theorem execCmReq_kept (r : CmReq) (s : State) : ∀ z, execCmReq r s = .next z → z.kept = s.kept := by
  unfold execCmReq; apply next_kept; repeat' (first | (with_reducible rfl) | (simp; done) | (dsimp only) | split)
@[simp ↓] theorem rtuTake_kept (qpn : Nat) (s : State) : (rtuTake qpn s).kept = s.kept := by
  unfold rtuTake; repeat' (first | (with_reducible rfl) | (simp; done) | (dsimp only) | split)
theorem execCmRtu_kept (qpn : Nat) (s : State) : ∀ z, execCmRtu qpn s = .next z → z.kept = s.kept := by
  unfold execCmRtu; apply next_kept; repeat' (first | (with_reducible rfl) | (simp; done) | (dsimp only) | split)
theorem execRepResend_kept (ctx : Nat) (s : State) : ∀ z, execRepResend ctx s = .next z → z.kept = s.kept := by
  unfold execRepResend; apply next_kept; repeat' (first | (with_reducible rfl) | (simp; done) | (dsimp only) | split)
@[simp ↓] theorem dreqTake_kept (qpn : Nat) (s : State) : (dreqTake qpn s).kept = s.kept := by
  unfold dreqTake; repeat' (first | (with_reducible rfl) | (simp; done) | (dsimp only) | split)
theorem execCmDreq_kept (qpn : Nat) (s : State) : ∀ z, execCmDreq qpn s = .next z → z.kept = s.kept := by
  unfold execCmDreq; apply next_kept; repeat' (first | (with_reducible rfl) | (simp; done) | (dsimp only) | split)
@[simp ↓] theorem drepTake_kept (qpn : Nat) (s : State) : (drepTake qpn s).kept = s.kept := by
  unfold drepTake; repeat' (first | (with_reducible rfl) | (simp; done) | (dsimp only) | split)
theorem execCmDrep_kept (qpn : Nat) (s : State) : ∀ z, execCmDrep qpn s = .next z → z.kept = s.kept := by
  unfold execCmDrep; apply next_kept; repeat' (first | (with_reducible rfl) | (simp; done) | (dsimp only) | split)
theorem execDreqTimeout_kept (ctx : Nat) (s : State) : ∀ z, execDreqTimeout ctx s = .next z → z.kept = s.kept := by
  unfold execDreqTimeout; apply next_kept; repeat' (first | (with_reducible rfl) | (simp; done) | (dsimp only) | split)
theorem execTimewaitExpiry_kept (ctx : Nat) (s : State) : ∀ z, execTimewaitExpiry ctx s = .next z → z.kept = s.kept := by
  unfold execTimewaitExpiry; apply next_kept; repeat' (first | (with_reducible rfl) | (simp; done) | (dsimp only) | split)
@[simp ↓] theorem deskXptSetRdmaPorts_kept (p : Packet) (s : State) : (deskXptSetRdmaPorts p s).2.2.kept = s.kept := by
  unfold deskXptSetRdmaPorts; repeat' (first | (with_reducible rfl) | (simp; done) | (dsimp only) | (refine guardParam_kept _ _ _ (fun _ => ?_)) | (refine check_kept _ _ _ _ (fun _ => ?_)) | split | (refine (forAll_kept _ _ _ (fun _ _ => ?_)).trans ?_))
theorem execXptSetRdmaPorts_kept (p : Packet) (s : State) : ∀ z, execXptSetRdmaPorts p s = .next z → z.kept = s.kept := letter_kept (fun s => deskXptSetRdmaPorts_kept p s)
@[simp ↓] theorem clipAll_kept (s : State) : (clipAll s).kept = s.kept := by
  unfold clipAll; simp
@[simp ↓] theorem deskXptSetRdmaParams_kept (p : Packet) (s : State) : (deskXptSetRdmaParams p s).2.2.kept = s.kept := by
  unfold deskXptSetRdmaParams; simp
theorem execXptSetRdmaParams_kept (p : Packet) (s : State) : ∀ z, execXptSetRdmaParams p s = .next z → z.kept = s.kept := letter_kept (fun s => deskXptSetRdmaParams_kept p s)
@[simp ↓] theorem deskXptSetRelease_kept (p : Packet) (s : State) : (deskXptSetRelease p s).2.2.kept = s.kept := by
  unfold deskXptSetRelease; simp
theorem execXptSetRelease_kept (p : Packet) (s : State) : ∀ z, execXptSetRelease p s = .next z → z.kept = s.kept := letter_kept (fun s => deskXptSetRelease_kept p s)
@[simp ↓] theorem deskXptCreateRegion_kept (p : Packet) (s : State) : (deskXptCreateRegion p s).2.2.kept = s.kept := by
  unfold deskXptCreateRegion; repeat' (first | (with_reducible rfl) | (simp; done) | (dsimp only) | (refine guardParam_kept _ _ _ (fun _ => ?_)) | (refine check_kept _ _ _ _ (fun _ => ?_)) | split)
theorem execXptCreateRegion_kept (p : Packet) (s : State) : ∀ z, execXptCreateRegion p s = .next z → z.kept = s.kept := letter_kept (fun s => deskXptCreateRegion_kept p s)
@[simp ↓] theorem deskXptDeleteRegion_kept (p : Packet) (s : State) : (deskXptDeleteRegion p s).2.2.kept = s.kept := by
  unfold deskXptDeleteRegion; repeat' (first | (with_reducible rfl) | (simp; done) | (dsimp only) | (refine guardParam_kept _ _ _ (fun _ => ?_)) | (refine check_kept _ _ _ _ (fun _ => ?_)) | split)
theorem execXptDeleteRegion_kept (p : Packet) (s : State) : ∀ z, execXptDeleteRegion p s = .next z → z.kept = s.kept := letter_kept (fun s => deskXptDeleteRegion_kept p s)
@[simp ↓] theorem putRegion_kept (i : Nat) (r : Region) (s : State) : (putRegion i r s).kept = s.kept := by
  unfold putRegion; simp
@[simp ↓] theorem deskXptGrantRegion_kept (p : Packet) (s : State) : (deskXptGrantRegion p s).2.2.kept = s.kept := by
  unfold deskXptGrantRegion; repeat' (first | (with_reducible rfl) | (simp; done) | (dsimp only) | (refine guardParam_kept _ _ _ (fun _ => ?_)) | split)
theorem execXptGrantRegion_kept (p : Packet) (s : State) : ∀ z, execXptGrantRegion p s = .next z → z.kept = s.kept := letter_kept (fun s => deskXptGrantRegion_kept p s)
@[simp ↓] theorem deskXptRekeyRegion_kept (p : Packet) (s : State) : (deskXptRekeyRegion p s).2.2.kept = s.kept := by
  unfold deskXptRekeyRegion; repeat' (first | (with_reducible rfl) | (simp; done) | (dsimp only) | (refine guardParam_kept _ _ _ (fun _ => ?_)) | split)
theorem execXptRekeyRegion_kept (p : Packet) (s : State) : ∀ z, execXptRekeyRegion p s = .next z → z.kept = s.kept := letter_kept (fun s => deskXptRekeyRegion_kept p s)
@[simp ↓] theorem deskXptGetRegion_kept (p : Packet) (s : State) : (deskXptGetRegion p s).2.2.kept = s.kept := by
  unfold deskXptGetRegion; repeat' (first | (with_reducible rfl) | (simp; done) | (dsimp only) | (refine guardParam_kept _ _ _ (fun _ => ?_)) | split)
theorem execXptGetRegion_kept (p : Packet) (s : State) : ∀ z, execXptGetRegion p s = .next z → z.kept = s.kept := letter_kept (fun s => deskXptGetRegion_kept p s)
@[simp ↓] theorem answerRst_kept (lport rport : Nat) (s : State) : (answerRst lport rport s).kept = s.kept := by
  unfold answerRst; simp
@[simp ↓] theorem sendSynAck_kept (i : Nat) (e : SynEnt) (s : State) : (sendSynAck i e s).kept = s.kept := by
  unfold sendSynAck; simp
@[simp ↓] theorem synFull_kept (s : State) : (synFull s).kept = s.kept := by
  unfold synFull; simp
@[simp ↓] theorem freeSyn_kept (i : Nat) (s : State) : (freeSyn i s).kept = s.kept := by
  unfold freeSyn; simp
@[simp ↓] theorem synTake_kept (f : SynIn) (s : State) : (synTake f s).kept = s.kept := by
  unfold synTake; dsimp only; (repeat' split) <;> simp
theorem execTcpSyn_kept (f : SynIn) (s : State) : ∀ z, execTcpSyn f s = .next z → z.kept = s.kept := by
  unfold execTcpSyn; apply next_kept; repeat' (first | (with_reducible rfl) | (simp; done) | (dsimp only) | split)
theorem execSynackResend_kept (i : Nat) (s : State) : ∀ z, execSynackResend i s = .next z → z.kept = s.kept := by
  unfold execSynackResend; apply next_kept; repeat' (first | (with_reducible rfl) | (simp; done) | (dsimp only) | split)
theorem execSynEntryExpiry_kept (i : Nat) (s : State) : ∀ z, execSynEntryExpiry i s = .next z → z.kept = s.kept := by
  unfold execSynEntryExpiry; apply next_kept; repeat' (first | (with_reducible rfl) | (simp; done) | (dsimp only) | split)
@[simp ↓] theorem synDoneTake_kept (i : Nat) (s : State) : (synDoneTake i s).kept = s.kept := by
  unfold synDoneTake; dsimp only; (repeat' split) <;> simp
theorem execTcpHandshakeAck_kept (i : Nat) (s : State) : ∀ z, execTcpHandshakeAck i s = .next z → z.kept = s.kept := by
  unfold execTcpHandshakeAck; apply next_kept; repeat' (first | (with_reducible rfl) | (simp; done) | (dsimp only) | split)
@[simp ↓] theorem sendTcpAck_kept (c : Nat) (dup : Bool) (s : State) : (sendTcpAck c dup s).kept = s.kept := by
  unfold sendTcpAck; simp
@[simp ↓] theorem resendOne_kept (c q : Nat) (s : State) : (resendOne c q s).kept = s.kept := by
  unfold resendOne; simp
@[simp ↓] theorem resendMore_kept (fuel c : Nat) (s : State) : (resendMore fuel c s).kept = s.kept := by
  induction fuel generalizing s with
  | zero => rfl
  | succ n ih => unfold resendMore; dsimp only; repeat' (first | (with_reducible rfl) | (simp [ih]; done) | split)
@[simp ↓] theorem goOn_kept (c : Nat) (s : State) : (goOn c s).kept = s.kept := by
  unfold goOn; simp
@[simp ↓] theorem dupAckIn_kept (c : Nat) (s : State) : (dupAckIn c s).kept = s.kept := by
  unfold dupAckIn; simp
@[simp ↓] theorem newAckIn_kept (c n : Nat) (p : TcpSeg) (s : State) : (newAckIn c n p s).kept = s.kept := by
  unfold newAckIn; simp
@[simp ↓] theorem tcpAckIn_kept (c : Nat) (p : TcpSeg) (s : State) : (tcpAckIn c p s).kept = s.kept := by
  unfold tcpAckIn; simp
@[simp ↓] theorem pduError_kept (c fes : Nat) (s : State) : (pduError c fes s).kept = s.kept := by
  unfold pduError; simp
@[simp ↓] theorem loseData_kept (tag gen len : Nat) (s : State) : (loseData tag gen len s).kept = s.kept := by
  unfold loseData; dsimp only; (repeat' split) <;> simp
@[simp ↓] theorem h2cIn_kept (c tag gen off len : Nat) (ok : Bool) (s : State) : (h2cIn c tag gen off len ok s).kept = s.kept := by
  unfold h2cIn; dsimp only; (repeat' split) <;> simp
@[simp ↓] theorem icReqIn_kept (c pfv hpda maxr2t : Nat) (hd dd : Bool) (s : State) : (icReqIn c pfv hpda maxr2t hd dd s).kept = s.kept := by
  unfold icReqIn; simp
@[simp ↓] theorem pduIn_kept (c : Nat) (p : PduIn) (s : State) : (pduIn c p s).kept = s.kept := by
  unfold pduIn; dsimp only; (repeat' split) <;> simp
@[simp ↓] theorem alertOut_kept (c code : Nat) (s : State) : (alertOut c code s).kept = s.kept := by
  unfold alertOut; simp
@[simp ↓] theorem sendKeyUpdate_kept (c : Nat) (s : State) : (sendKeyUpdate c s).kept = s.kept := by
  unfold sendKeyUpdate; simp
@[simp ↓] theorem tlsIn_kept (c : Nat) (t : TlsIn) (ps : List PduIn) (s : State) : (tlsIn c t ps s).kept = s.kept := by
  unfold tlsIn; dsimp only; (repeat' split) <;> simp
@[simp ↓] theorem segInSeq_kept (c : Nat) (p : TcpSeg) (s : State) : (segInSeq c p s).kept = s.kept := by
  unfold segInSeq; simp
@[simp ↓] theorem segExec_kept (c : Nat) (p : TcpSeg) (s : State) : (segExec c p s).kept = s.kept := by
  unfold segExec; simp
@[simp ↓] theorem finExec_kept (c seq : Nat) (s : State) : (finExec c seq s).kept = s.kept := by
  unfold finExec; simp
@[simp ↓] theorem rstExec_kept (c seq : Nat) (s : State) : (rstExec c seq s).kept = s.kept := by
  unfold rstExec; simp
@[simp ↓] theorem packetNow_kept (c : Nat) (k : PendPkt) (s : State) : (packetNow c k s).kept = s.kept := by
  unfold packetNow; repeat' (first | (with_reducible rfl) | (simp; done) | (dsimp only) | split)
@[simp ↓] theorem tcpTake_kept (c lport bytes : Nat) (isRst : Bool) (k : PendPkt) (s : State) : (tcpTake c lport bytes isRst k s).kept = s.kept := by
  unfold tcpTake; simp
@[simp ↓] theorem tcpArrive_kept (c lport bytes : Nat) (isRst : Bool) (k : PendPkt) (s : State) : (tcpArrive c lport bytes isRst k s).kept = s.kept := by
  unfold tcpArrive; simp
theorem execTcpSegment_kept (p : TcpSeg) (s : State) : ∀ z, execTcpSegment p s = .next z → z.kept = s.kept := by
  unfold execTcpSegment; apply next_kept; simp
theorem execTcpFin_kept (ctx seq : Nat) (frame : List Word) (s : State) : ∀ z, execTcpFin ctx seq frame s = .next z → z.kept = s.kept := by
  unfold execTcpFin; apply next_kept; simp
theorem execTcpRst_kept (ctx seq : Nat) (frame : List Word) (s : State) : ∀ z, execTcpRst ctx seq frame s = .next z → z.kept = s.kept := by
  unfold execTcpRst; apply next_kept; simp
@[simp ↓] theorem runPkt_kept (w : Woken) (s : State) : (runPkt w s).kept = s.kept := by
  unfold runPkt; repeat' (first | (with_reducible rfl) | (simp; done) | (dsimp only) | split)
@[simp ↓] theorem drainPend_kept (c : Nat) (s : State) : (drainPend c s).kept = s.kept := by
  unfold drainPend; simp
theorem execContextFillDone_kept (ctx : Nat) (poison : Bool) (s : State) : ∀ z, execContextFillDone ctx poison s = .next z → z.kept = s.kept := by
  unfold execContextFillDone; apply next_kept; simp
theorem execTcpAckTimer_kept (ctx : Nat) (s : State) : ∀ z, execTcpAckTimer ctx s = .next z → z.kept = s.kept := by
  unfold execTcpAckTimer; apply next_kept; repeat' (first | (with_reducible rfl) | (simp; done) | (dsimp only) | split)
theorem execTcpRto_kept (ctx : Nat) (s : State) : ∀ z, execTcpRto ctx s = .next z → z.kept = s.kept := by
  unfold execTcpRto; apply next_kept; dsimp only; (repeat' split) <;> simp
theorem execIcreqTimeout_kept (ctx : Nat) (s : State) : ∀ z, execIcreqTimeout ctx s = .next z → z.kept = s.kept := by
  unfold execIcreqTimeout; apply next_kept; repeat' (first | (with_reducible rfl) | (simp; done) | (dsimp only) | split)
theorem execTlsHandshakeTimeout_kept (ctx : Nat) (s : State) : ∀ z, execTlsHandshakeTimeout ctx s = .next z → z.kept = s.kept := by
  unfold execTlsHandshakeTimeout; apply next_kept; repeat' (first | (with_reducible rfl) | (simp; done) | (dsimp only) | split)
theorem execTlsHandshakeDone_kept (ctx : Nat) (ok : Bool) (group rx tx : Nat) (hostNqn subNqn : List Word) (s : State) : ∀ z, execTlsHandshakeDone ctx ok group rx tx hostNqn subNqn s = .next z → z.kept = s.kept := by
  unfold execTlsHandshakeDone; apply next_kept; simp
theorem execKeyupdateInstalled_kept (ctx : Nat) (s : State) : ∀ z, execKeyupdateInstalled ctx s = .next z → z.kept = s.kept := by
  unfold execKeyupdateInstalled; apply next_kept; simp
@[simp ↓] theorem deskXptSetTcpPorts_kept (p : Packet) (s : State) : (deskXptSetTcpPorts p s).2.2.kept = s.kept := by
  unfold deskXptSetTcpPorts; repeat' (first | (with_reducible rfl) | (simp; done) | (dsimp only) | (refine guardParam_kept _ _ _ (fun _ => ?_)) | (refine check_kept _ _ _ _ (fun _ => ?_)) | split | (refine (forAll_kept _ _ _ (fun _ _ => ?_)).trans ?_))
theorem execXptSetTcpPorts_kept (p : Packet) (s : State) : ∀ z, execXptSetTcpPorts p s = .next z → z.kept = s.kept := letter_kept (fun s => deskXptSetTcpPorts_kept p s)
@[simp ↓] theorem deskXptSetTcpParams_kept (p : Packet) (s : State) : (deskXptSetTcpParams p s).2.2.kept = s.kept := by
  unfold deskXptSetTcpParams; simp
theorem execXptSetTcpParams_kept (p : Packet) (s : State) : ∀ z, execXptSetTcpParams p s = .next z → z.kept = s.kept := letter_kept (fun s => deskXptSetTcpParams_kept p s)
@[simp ↓] theorem deskXptSetTls_kept (p : Packet) (s : State) : (deskXptSetTls p s).2.2.kept = s.kept := by
  unfold deskXptSetTls; simp
theorem execXptSetTls_kept (p : Packet) (s : State) : ∀ z, execXptSetTls p s = .next z → z.kept = s.kept := letter_kept (fun s => deskXptSetTls_kept p s)

end Sys2Proof.Machine
end

