-- ==== Sys2Proof/Laws/KeptPair.lean ====
section
/-! SUPPORT. The queue, the ordering code, the mode and the Boot stage (`State.kept`) under each operation of the lease, the links, the stack and the pair: one lemma for
each, which says that it keeps them. -/
namespace Sys2Proof.Machine

@[simp ↓] theorem resendCmds_kept (q : Nat) (s : State) : (resendCmds q s).kept = s.kept := by
  unfold resendCmds; repeat' (first | (with_reducible rfl) | (simp; done) | (dsimp only) | split | (refine (forAll_kept _ _ _ (fun _ _ => ?_)).trans ?_))
@[simp ↓] theorem sendFullDir_kept (q : Nat) (s : State) : (sendFullDir q s).kept = s.kept := by
  unfold sendFullDir; simp
@[simp ↓] theorem reachOne_kept (old : State) (q : Nat) (s : State) : (reachOne old q s).kept = s.kept := by
  unfold reachOne; simp
@[simp ↓] theorem noteAdmitted_kept (s : State) : (noteAdmitted s).kept = s.kept := by
  unfold noteAdmitted; simp
@[simp ↓] theorem reachChanged_kept (old s : State) : (reachChanged old s).kept = s.kept := by
  unfold reachChanged; simp
@[simp ↓] theorem tookMaster_kept (s : State) : (tookMaster s).kept = s.kept := by
  unfold tookMaster; simp
@[simp ↓] theorem leaseSend_kept (type : Nat) (override : Bool) (s : State) : (leaseSend type override s).kept = s.kept := by
  unfold leaseSend; simp
@[simp ↓] theorem leaseTimed_kept (type : Nat) (override : Bool) (s : State) : (leaseTimed type override s).kept = s.kept := by
  unfold leaseTimed; simp
@[simp ↓] theorem sendHeld_kept (h : HeldTx) (s : State) : (sendHeld h s).kept = s.kept := by
  unfold sendHeld; simp
@[simp ↓] theorem pumpHeld_kept (s : State) : (pumpHeld s).kept = s.kept := by
  unfold pumpHeld; simp
@[simp ↓] theorem haltEgress_kept (s : State) : (haltEgress s).kept = s.kept := by
  unfold haltEgress; simp
@[simp ↓] theorem resumeEgress_kept (s : State) : (resumeEgress s).kept = s.kept := by
  unfold resumeEgress; simp
@[simp ↓] theorem drawSess_kept (s : State) : (drawSess s).2.kept = s.kept := by
  unfold drawSess; simp
@[simp ↓] theorem openSession_kept (paired : Bool) (s : State) : (openSession paired s).kept = s.kept := by
  unfold openSession; simp
@[simp ↓] theorem unpair_kept (s : State) : (unpair s).kept = s.kept := by
  unfold unpair; simp
@[simp ↓] theorem purgeQueue_kept (k : Nat) (vcs : List Nat) (s : State) : (purgeQueue k vcs s).kept = s.kept := by
  unfold purgeQueue; simp
@[simp ↓] theorem endSession_kept (s : State) : (endSession s).kept = s.kept := by
  unfold endSession; simp
@[simp ↓] theorem feedEnds_kept (s : State) : (feedEnds s).kept = s.kept := by
  unfold feedEnds; simp
@[simp ↓] theorem dropDrowse_kept (s : State) : (dropDrowse s).kept = s.kept := by
  unfold dropDrowse; simp
@[simp ↓] theorem redoRecord_kept (j : Nat) (s : State) : (redoRecord j s).kept = s.kept := by
  unfold redoRecord; dsimp only; (repeat' split) <;> simp
@[simp ↓] theorem memberGo_kept (s : State) : (memberGo s).kept = s.kept := by
  unfold memberGo; simp
@[simp ↓] theorem fetchAgain_kept (t : Nat) (c : Cmd) (n : Ns) (s : State) : (fetchAgain t c n s).kept = s.kept := by
  unfold fetchAgain; dsimp only; (repeat' split) <;> simp
@[simp ↓] theorem resumeCmd_kept (t : Nat) (s : State) : (resumeCmd t s).kept = s.kept := by
  unfold resumeCmd; dsimp only; (repeat' split) <;> simp
@[simp ↓] theorem fillCtx_kept (c : Nat) (s : State) : (fillCtx c s).kept = s.kept := by
  unfold fillCtx; dsimp only; (repeat' split) <;> simp
@[simp ↓] theorem resumeCtx_kept (c : Nat) (s : State) : (resumeCtx c s).kept = s.kept := by
  unfold resumeCtx; simp
@[simp ↓] theorem resumeAll_kept (s : State) : (resumeAll s).kept = s.kept := by
  unfold resumeAll; simp
@[simp ↓] theorem seedLatency_kept (s : State) : (seedLatency s).kept = s.kept := by
  unfold seedLatency; simp
@[simp ↓] theorem onLane_kept (k i : Nat) (f : Lane → Lane) (s : State) : (onLane k i f s).kept = s.kept := by
  unfold onLane; simp
@[simp ↓] theorem raiseLink_kept (k ev width code : Nat) (s : State) : (raiseLink k ev width code s).kept = s.kept := by
  unfold raiseLink; simp
@[simp ↓] theorem linkTo_kept (k : Nat) (st : LinkSt) (s : State) : (linkTo k st s).kept = s.kept := by
  unfold linkTo; simp
@[simp ↓] theorem notePartner_kept (k : Nat) (s : State) : (notePartner k s).kept = s.kept := by
  unfold notePartner; simp
@[simp ↓] theorem drawSession_kept (k : Nat) (s : State) : (drawSession k s).kept = s.kept := by
  unfold drawSession; simp
@[simp ↓] theorem loseSession_kept (k : Nat) (s : State) : (loseSession k s).kept = s.kept := by
  unfold loseSession; dsimp only; (repeat' split) <;> simp
@[simp ↓] theorem linkDown_kept (k cause : Nat) (s : State) : (linkDown k cause s).kept = s.kept := by
  unfold linkDown; simp
@[simp ↓] theorem silenceLinks_kept (s : State) : (silenceLinks s).kept = s.kept := by
  unfold silenceLinks; simp
theorem execLinkSignalDetect_kept (link signal : Nat) (s : State) : ∀ z, execLinkSignalDetect link signal s = .next z → z.kept = s.kept := by
  unfold execLinkSignalDetect; apply next_kept; simp
@[simp ↓] theorem toAlign_kept (k : Nat) (s : State) : (toAlign k s).kept = s.kept := by
  unfold toAlign; simp
theorem execTrainingFrame_kept (link lane : Nat) (f : TrainFrame) (errs : Option Nat) (want : TapWish) (s : State) : ∀ z, execTrainingFrame link lane f errs want s = .next z → z.kept = s.kept := by
  unfold execTrainingFrame; apply next_kept; simp
theorem execEqualiseTimeout_kept (link : Nat) (s : State) : ∀ z, execEqualiseTimeout link s = .next z → z.kept = s.kept := by
  unfold execEqualiseTimeout; apply next_kept; simp
@[simp ↓] theorem sendConfig_kept (k : Nat) (s : State) : (sendConfig k s).kept = s.kept := by
  unfold sendConfig; simp
@[simp ↓] theorem toConfig_kept (k : Nat) (s : State) : (toConfig k s).kept = s.kept := by
  unfold toConfig; simp
theorem execLinkAlignTimeout_kept (link : Nat) (s : State) : ∀ z, execLinkAlignTimeout link s = .next z → z.kept = s.kept := by
  unfold execLinkAlignTimeout; apply next_kept; simp
@[simp ↓] theorem refuseLink_kept (k reason : Nat) (s : State) : (refuseLink k reason s).kept = s.kept := by
  unfold refuseLink; simp
@[simp ↓] theorem toActive_kept (k : Nat) (b : ConfigBlk) (s : State) : (toActive k b s).kept = s.kept := by
  unfold toActive; simp
theorem execAlignmentCodeword_kept (link lane : Nat) (found : Bool) (run : Nat) (s : State) : ∀ z, execAlignmentCodeword link lane found run s = .next z → z.kept = s.kept := by
  unfold execAlignmentCodeword; apply next_kept; dsimp only; (repeat' split) <;> simp
theorem execConfigBlock_kept (link : Nat) (b : ConfigBlk) (s : State) : ∀ z, execConfigBlock link b s = .next z → z.kept = s.kept := by
  unfold execConfigBlock; apply next_kept; dsimp only; (repeat' split) <;> simp
theorem execLinkRefuseRetry_kept (link : Nat) (s : State) : ∀ z, execLinkRefuseRetry link s = .next z → z.kept = s.kept := by
  unfold execLinkRefuseRetry; apply next_kept; repeat' (first | (with_reducible rfl) | (simp; done) | (dsimp only) | split)
@[simp ↓] theorem takeAck_kept (k akseq : Nat) (s : State) : (takeAck k akseq s).kept = s.kept := by
  unfold takeAck; simp
@[simp ↓] theorem replayFlits_kept (k : Nat) (s : State) : (replayFlits k s).kept = s.kept := by
  unfold replayFlits; simp
@[simp ↓] theorem discardFlit_kept (k : Nat) (s : State) : (discardFlit k s).kept = s.kept := by
  unfold discardFlit; simp
@[simp ↓] theorem noteErrs_kept (link : Nat) (f : FlitIn) (s : State) : (noteErrs link f s).kept = s.kept := by
  unfold noteErrs; dsimp only; (repeat' split) <;> simp
@[simp ↓] theorem ackFlit_kept (link : Nat) (f : FlitIn) (s : State) : (ackFlit link f s).kept = s.kept := by
  unfold ackFlit; simp
@[simp ↓] theorem acceptFlit_kept (link : Nat) (f : FlitIn) (s : State) : (acceptFlit link f s).kept = s.kept := by
  unfold acceptFlit; simp
theorem execFlitReceive_kept (link : Nat) (f : FlitIn) (s : State) : ∀ z, execFlitReceive link f s = .next z → z.kept = s.kept := by
  unfold execFlitReceive; apply next_kept; simp
theorem execReplayTimeout_kept (link : Nat) (s : State) : ∀ z, execReplayTimeout link s = .next z → z.kept = s.kept := by
  unfold execReplayTimeout; apply next_kept; simp
theorem execLaneFault_kept (link lane : Nat) (s : State) : ∀ z, execLaneFault link lane s = .next z → z.kept = s.kept := by
  unfold execLaneFault; apply next_kept; simp
theorem execMateInHigh_kept (s : State) : ∀ z, execMateInHigh s = .next z → z.kept = s.kept := by
  unfold execMateInHigh; apply next_kept; simp
theorem execHeartbeatSend_kept (link : Nat) (s : State) : ∀ z, execHeartbeatSend link s = .next z → z.kept = s.kept := by
  unfold execHeartbeatSend; apply next_kept; simp
@[simp ↓] theorem steer_kept (h : HeartbeatIn) (s : State) : (steer h s).kept = s.kept := by
  unfold steer; dsimp only; (repeat' split) <;> simp
@[simp ↓] theorem linkBeat_kept (link : Nat) (h : HeartbeatIn) (s : State) : (linkBeat link h s).kept = s.kept := by
  unfold linkBeat; simp
theorem execHeartbeatTimeout_kept (link : Nat) (s : State) : ∀ z, execHeartbeatTimeout link s = .next z → z.kept = s.kept := by
  unfold execHeartbeatTimeout; apply next_kept; simp
theorem execSessionResumeTimeout_kept (link : Nat) (s : State) : ∀ z, execSessionResumeTimeout link s = .next z → z.kept = s.kept := by
  unfold execSessionResumeTimeout; apply next_kept; repeat' (first | (with_reducible rfl) | (simp; done) | (dsimp only) | split)
theorem execLinkWiden_kept (link : Nat) (s : State) : ∀ z, execLinkWiden link s = .next z → z.kept = s.kept := by
  unfold execLinkWiden; apply next_kept; dsimp only; (repeat' split) <;> simp
theorem execPostmarkAckSend_kept (s : State) : ∀ z, execPostmarkAckSend s = .next z → z.kept = s.kept := by
  unfold execPostmarkAckSend; apply next_kept; simp
theorem execPostmarkAckReceive_kept (pmark : Nat) (s : State) : ∀ z, execPostmarkAckReceive pmark s = .next z → z.kept = s.kept := by
  unfold execPostmarkAckReceive; apply next_kept; simp
theorem execPostmarkStall_kept (s : State) : ∀ z, execPostmarkStall s = .next z → z.kept = s.kept := by
  unfold execPostmarkStall; apply next_kept; simp
@[simp ↓] theorem freeCredits_kept (k vc len : Nat) (s : State) : (freeCredits k vc len s).kept = s.kept := by
  unfold freeCredits; simp
theorem execCreditStall_kept (link cls : Nat) (s : State) : ∀ z, execCreditStall link cls s = .next z → z.kept = s.kept := by
  unfold execCreditStall; apply next_kept; simp
@[simp ↓] theorem routed_kept (m : MsgIn) (vc : Nat) (out : OutMsg) (take : State → State) (s : State) (htake : ∀ x0, (take x0).kept = x0.kept) : (routed m vc out take s).kept = s.kept := by
  unfold routed; dsimp only; (repeat' split) <;> simp [htake]
theorem execForwardedFrame_kept (m : MsgIn) (cls port : Nat) (f : Option Frame) (s : State) : ∀ z, execForwardedFrame m cls port f s = .next z → z.kept = s.kept := by
  unfold execForwardedFrame; apply next_kept; repeat' (first | (with_reducible rfl) | (simp; done) | (dsimp only) | split)
theorem execHelloSend_kept (link : Nat) (s : State) : ∀ z, execHelloSend link s = .next z → z.kept = s.kept := by
  unfold execHelloSend; apply next_kept; simp
@[simp ↓] theorem helloCandidate_kept (link : Nat) (h : Hello) (s : State) : (helloCandidate link h s).kept = s.kept := by
  unfold helloCandidate; simp
@[simp ↓] theorem helloActive_kept (h : Hello) (s : State) : (helloActive h s).kept = s.kept := by
  unfold helloActive; simp
@[simp ↓] theorem takeHello_kept (link : Nat) (h : Hello) (s : State) : (takeHello link h s).kept = s.kept := by
  unfold takeHello; simp
theorem execHelloReceive_kept (link : Nat) (h : Hello) (s : State) : ∀ z, execHelloReceive link h s = .next z → z.kept = s.kept := by
  unfold execHelloReceive; apply next_kept; simp
theorem execHelloTimeout_kept (link : Nat) (s : State) : ∀ z, execHelloTimeout link s = .next z → z.kept = s.kept := by
  unfold execHelloTimeout; apply next_kept; simp
@[simp ↓] theorem sendRecord_kept (q : Nat) (r : StackRec) (s : State) : (sendRecord q r s).kept = s.kept := by
  unfold sendRecord; simp
@[simp ↓] theorem setRecord_kept (r : Option StackRec) (s : State) : (setRecord r s).kept = s.kept := by
  unfold setRecord; simp
@[simp ↓] theorem formNow_kept (s : State) : (formNow s).kept = s.kept := by
  unfold formNow; simp
@[simp ↓] theorem clearRecord_kept (s : State) : (clearRecord s).kept = s.kept := by
  unfold clearRecord; simp
@[simp ↓] theorem installRecord_kept (r : StackRec) (s : State) : (installRecord r s).kept = s.kept := by
  unfold installRecord; dsimp only; (repeat' split) <;> simp
theorem execStackRecordMessage_kept (m : MsgIn) (r : StackRec) (s : State) : ∀ z, execStackRecordMessage m r s = .next z → z.kept = s.kept := by
  unfold execStackRecordMessage; apply next_kept; simp
theorem execStackFormTimeout_kept (s : State) : ∀ z, execStackFormTimeout s = .next z → z.kept = s.kept := by
  unfold execStackFormTimeout; apply next_kept; repeat' (first | (with_reducible rfl) | (simp; done) | (dsimp only) | split)
@[simp ↓] theorem applyDir_kept (e : DirEntry) (s : State) : (applyDir e s).kept = s.kept := by
  unfold applyDir; split
  · split
    · split
      · cases e : takeChange ⟨.self, [.delete _]⟩ s with
        | none => rfl
        | some t => exact takeChange_kept _ _ _ e
      · rfl
    · rfl
  · simp
@[simp ↓] theorem takeDisc_kept (nqn : Option (List Word)) (lis : List (Nat × List DiscEnt)) (s : State) : (takeDisc nqn lis s).kept = s.kept := by
  unfold takeDisc; simp
@[simp ↓] theorem takeDir_kept (full : Bool) (es : List DirEntry) (nqn : Option (List Word)) (lis : List (Nat × List DiscEnt)) (s : State) : (takeDir full es nqn lis s).kept = s.kept := by
  unfold takeDir; simp
theorem execDirUpdate_kept (m : MsgIn) (full : Bool) (es : List DirEntry) (nqn : Option (List Word)) (lis : List (Nat × List DiscEnt)) (s : State) : ∀ z, execDirUpdate m full es nqn lis s = .next z → z.kept = s.kept := by
  unfold execDirUpdate; apply next_kept; simp
@[simp ↓] theorem removeShelf_kept (q : Nat) (s : State) : (removeShelf q s).kept = s.kept := by
  unfold removeShelf; dsimp only; (repeat' split) <;> simp
@[simp ↓] theorem applyAdmin_kept (src op : Nat) (p : Packet) (s : State) : (applyAdmin src op p s).2.kept = s.kept := by
  unfold applyAdmin; dsimp only; (repeat' split) <;> simp
@[simp ↓] theorem takeRequest_kept (src op : Nat) (p : Packet) (s : State) : (takeRequest src op p s).kept = s.kept := by
  unfold takeRequest; simp
theorem execAdminRequest_kept (m : MsgIn) (src op : Nat) (p : Packet) (s : State) : ∀ z, execAdminRequest m src op p s = .next z → z.kept = s.kept := by
  unfold execAdminRequest; apply next_kept; simp
@[simp ↓] theorem leaveNow_kept (s : State) : (leaveNow s).kept = s.kept := by
  unfold leaveNow; simp
@[simp ↓] theorem masterSaysOk_kept (q : VQueued) (op : Nat) (s : State) : (masterSaysOk q op s).kept = s.kept := by
  have e0 : ((takeChange q s).getD (s.onVol fun v => { v with changes := v.changes ++ [q] })).kept = s.kept := by
    cases e : takeChange q s with
    | none => simp
    | some t => exact takeChange_kept _ _ _ e
  unfold masterSaysOk; split
  · split
    · simp
    · exact e0
  · exact e0
@[simp ↓] theorem masterRefuses_kept (q : VQueued) (st : Nat) (ws : List Word) (s : State) : (masterRefuses q st ws s).kept = s.kept := by
  unfold masterRefuses; repeat' (first | (with_reducible rfl) | (simp; done) | (dsimp only) | split)
@[simp ↓] theorem takeReply_kept (door : Nat) (tag : Word) (status : Nat) (s : State) : (takeReply door tag status s).kept = s.kept := by
  unfold takeReply; dsimp only; (repeat' split) <;> simp
theorem execAdminReply_kept (m : MsgIn) (door : Nat) (tag : Word) (status : Nat) (s : State) : ∀ z, execAdminReply m door tag status s = .next z → z.kept = s.kept := by
  unfold execAdminReply; apply next_kept; simp
theorem execMasterUnreachable_kept (s : State) : ∀ z, execMasterUnreachable s = .next z → z.kept = s.kept := by
  unfold execMasterUnreachable; apply next_kept; simp
@[simp ↓] theorem shadowFwd_kept (link : Nat) (s : State) : (shadowFwd link s).kept = s.kept := by
  unfold shadowFwd; simp
@[simp ↓] theorem fwdMessage_kept (m : MsgIn) (cls : Nat) (out : OutMsg) (take : State → State) (s : State) (htake : ∀ x0, (take x0).kept = x0.kept) : (fwdMessage m cls out take s).kept = s.kept := by
  unfold fwdMessage; simp [htake]
@[simp ↓] theorem takeFwd_kept (c : HostCmd) (sub cls : Nat) (s : State) : (takeFwd c sub cls s).kept = s.kept := by
  unfold takeFwd; simp
theorem execForwardCommand_kept (m : MsgIn) (h : FwdHead) (cls sub host : Nat) (op : IoOp) (c : IoCmd) (s : State) : ∀ z, execForwardCommand m h cls sub host op c s = .next z → z.kept = s.kept := by
  unfold execForwardCommand; apply next_kept; simp
@[simp ↓] theorem atArrival_kept (h : FwdHead) (f : FwdOut → Cmd → State → State) (s : State) (hf : ∀ x0 x1 x2, (f x0 x1 x2).kept = x2.kept) : (atArrival h f s).kept = s.kept := by
  unfold atArrival; repeat' (first | (with_reducible rfl) | (simp [hf]; done) | (dsimp only) | split)
@[simp ↓] theorem askHost_kept (h : FwdHead) (s : State) : (askHost h s).kept = s.kept := by
  unfold askHost; repeat' (first | (with_reducible rfl) | (simp; done) | (dsimp only) | (refine atArrival_kept _ _ _ (fun _ _ _ => ?_)) | split)
theorem execForwardDataRequest_kept (m : MsgIn) (cls : Nat) (h : FwdHead) (s : State) : ∀ z, execForwardDataRequest m cls h s = .next z → z.kept = s.kept := by
  unfold execForwardDataRequest; apply next_kept; simp
@[simp ↓] theorem takeFwdWrite_kept (h : FwdHead) (blocks : List HBlk) (s : State) : (takeFwdWrite h blocks s).kept = s.kept := by
  unfold takeFwdWrite; dsimp only; (repeat' split) <;> simp
theorem execForwardWriteData_kept (m : MsgIn) (cls : Nat) (h : FwdHead) (blocks : List HBlk) (s : State) : ∀ z, execForwardWriteData m cls h blocks s = .next z → z.kept = s.kept := by
  unfold execForwardWriteData; apply next_kept; simp
@[simp ↓] theorem sendPiece_kept (c : Cmd) (t off len data : Nat) (s : State) : (sendPiece c t off len data s).kept = s.kept := by
  unfold sendPiece; simp
@[simp ↓] theorem takeFwdRead_kept (h : FwdHead) (data : Nat) (s : State) : (takeFwdRead h data s).kept = s.kept := by
  unfold takeFwdRead; simp
theorem execForwardReadData_kept (m : MsgIn) (cls : Nat) (h : FwdHead) (data : Nat) (s : State) : ∀ z, execForwardReadData m cls h data s = .next z → z.kept = s.kept := by
  unfold execForwardReadData; apply next_kept; simp
@[simp ↓] theorem takeFwdDone_kept (h : FwdHead) (status : NvStatus) (dnr : Bool) (s : State) : (takeFwdDone h status dnr s).kept = s.kept := by
  unfold takeFwdDone; simp
theorem execForwardCompletion_kept (m : MsgIn) (cls : Nat) (h : FwdHead) (status : NvStatus) (dnr : Bool) (s : State) : ∀ z, execForwardCompletion m cls h status dnr s = .next z → z.kept = s.kept := by
  unfold execForwardCompletion; apply next_kept; simp
theorem execForwardTimeout_kept (tag : Nat) (s : State) : ∀ z, execForwardTimeout tag s = .next z → z.kept = s.kept := by
  unfold execForwardTimeout; apply next_kept; repeat' (first | (with_reducible rfl) | (simp; done) | (dsimp only) | split)
@[simp ↓] theorem deskStkGetStatus_kept (_p : Packet) (s : State) : (deskStkGetStatus _p s).2.2.kept = s.kept := by
  unfold deskStkGetStatus; simp
theorem execStkGetStatus_kept (p : Packet) (s : State) : ∀ z, execStkGetStatus p s = .next z → z.kept = s.kept := letter_kept (fun s => deskStkGetStatus_kept p s)
@[simp ↓] theorem deskStkGetShelf_kept (p : Packet) (s : State) : (deskStkGetShelf p s).2.2.kept = s.kept := by
  unfold deskStkGetShelf; simp
theorem execStkGetShelf_kept (p : Packet) (s : State) : ∀ z, execStkGetShelf p s = .next z → z.kept = s.kept := letter_kept (fun s => deskStkGetShelf_kept p s)
@[simp ↓] theorem findCand_kept (serial : Nat) (s : State) : (findCand serial s).2.kept = s.kept := by
  unfold findCand; dsimp only; (repeat' split) <;> simp
@[simp ↓] theorem admitShelf_kept (q serial : Nat) (c : CandPlace) (s : State) : (admitShelf q serial c s).kept = s.kept := by
  unfold admitShelf; dsimp only; (repeat' split) <;> simp
@[simp ↓] theorem deskStkAddShelf_kept (p : Packet) (s : State) : (deskStkAddShelf p s).2.2.kept = s.kept := by
  unfold deskStkAddShelf; repeat' (first | (with_reducible rfl) | (simp; done) | (dsimp only) | (refine guardParam_kept _ _ _ (fun _ => ?_)) | (refine check_kept _ _ _ _ (fun _ => ?_)) | split)
theorem execStkAddShelf_kept (p : Packet) (s : State) : ∀ z, execStkAddShelf p s = .next z → z.kept = s.kept := letter_kept (fun s => deskStkAddShelf_kept p s)
@[simp ↓] theorem deskStkRemoveShelf_kept (p : Packet) (s : State) : (deskStkRemoveShelf p s).2.2.kept = s.kept := by
  unfold deskStkRemoveShelf; repeat' (first | (with_reducible rfl) | (simp; done) | (dsimp only) | (refine guardParam_kept _ _ _ (fun _ => ?_)) | (refine check_kept _ _ _ _ (fun _ => ?_)) | split | (refine (forAll_kept _ _ _ (fun _ _ => ?_)).trans ?_))
theorem execStkRemoveShelf_kept (p : Packet) (s : State) : ∀ z, execStkRemoveShelf p s = .next z → z.kept = s.kept := letter_kept (fun s => deskStkRemoveShelf_kept p s)
@[simp ↓] theorem deskStkLeaveStack_kept (p : Packet) (s : State) : (deskStkLeaveStack p s).2.2.kept = s.kept := by
  unfold deskStkLeaveStack; repeat' (first | (with_reducible rfl) | (simp; done) | (dsimp only) | (refine guardParam_kept _ _ _ (fun _ => ?_)) | (refine check_kept _ _ _ _ (fun _ => ?_)) | split)
theorem execStkLeaveStack_kept (p : Packet) (s : State) : ∀ z, execStkLeaveStack p s = .next z → z.kept = s.kept := letter_kept (fun s => deskStkLeaveStack_kept p s)
theorem execRenewSend_kept (s : State) : ∀ z, execRenewSend s = .next z → z.kept = s.kept := by
  unfold execRenewSend; apply next_kept; simp
theorem execRenewResend_kept (s : State) : ∀ z, execRenewResend s = .next z → z.kept = s.kept := by
  unfold execRenewResend; apply next_kept; simp
theorem execStatusSend_kept (s : State) : ∀ z, execStatusSend s = .next z → z.kept = s.kept := by
  unfold execStatusSend; apply next_kept; simp
theorem execClaimSend_kept (s : State) : ∀ z, execClaimSend s = .next z → z.kept = s.kept := by
  unfold execClaimSend; apply next_kept; repeat' (first | (with_reducible rfl) | (simp; done) | (dsimp only) | split)
@[simp ↓] theorem startClaims_kept (s : State) : (startClaims s).kept = s.kept := by
  unfold startClaims; simp
theorem execLeaseFrameIgnored_kept (s : State) : ∀ z, execLeaseFrameIgnored s = .next z → z.kept = s.kept := by
  unfold execLeaseFrameIgnored; apply next_kept; simp
theorem execWitnessLost_kept (s : State) : ∀ z, execWitnessLost s = .next z → z.kept = s.kept := by
  unfold execWitnessLost; apply next_kept; simp
@[simp ↓] theorem sawWitness_kept (f : WitnessFrame) (s : State) : (sawWitness f s).kept = s.kept := by
  unfold sawWitness; simp
@[simp ↓] theorem answerForce_kept (status : Nat) (s : State) : (answerForce status s).kept = s.kept := by
  unfold answerForce; repeat' (first | (with_reducible rfl) | (simp; done) | (dsimp only) | split)
@[simp ↓] theorem renewed_kept (f : WitnessFrame) (s : State) : (renewed f s).kept = s.kept := by
  unfold renewed; repeat' (first | (with_reducible rfl) | (simp; done) | (dsimp only) | split)
@[simp ↓] theorem unfreeze_kept (s : State) : (unfreeze s).kept = s.kept := by
  unfold unfreeze; simp
@[simp ↓] theorem goSolo_kept (s : State) : (goSolo s).kept = s.kept := by
  unfold goSolo; simp
@[simp ↓] theorem handOver_kept (s : State) : (handOver s).kept = s.kept := by
  unfold handOver; simp
theorem execLeaseAck_kept (f : WitnessFrame) (s : State) : ∀ z, execLeaseAck f s = .next z → z.kept = s.kept := by
  unfold execLeaseAck; apply next_kept; simp
theorem execForceClaimTimeout_kept (s : State) : ∀ z, execForceClaimTimeout s = .next z → z.kept = s.kept := by
  unfold execForceClaimTimeout; apply next_kept; repeat' (first | (with_reducible rfl) | (simp; done) | (dsimp only) | split)
theorem execGratuitousArp_kept (s : State) : ∀ z, execGratuitousArp s = .next z → z.kept = s.kept := by
  unfold execGratuitousArp; apply next_kept; dsimp only; (repeat' split) <;> simp
theorem execMemberWriteHoldExpiry_kept (s : State) : ∀ z, execMemberWriteHoldExpiry s = .next z → z.kept = s.kept := by
  unfold execMemberWriteHoldExpiry; apply next_kept; repeat' (first | (with_reducible rfl) | (simp; done) | (dsimp only) | split)
theorem execSelfFaultDetect_kept (code : Nat) (s : State) : ∀ z, execSelfFaultDetect code s = .next z → z.kept = s.kept := by
  unfold execSelfFaultDetect; apply next_kept; dsimp only; (repeat' split) <;> simp
theorem execTakeoverFreezeDrained_kept (s : State) : ∀ z, execTakeoverFreezeDrained s = .next z → z.kept = s.kept := by
  unfold execTakeoverFreezeDrained; apply next_kept; simp
@[simp ↓] theorem sendPhase_kept (n : Nat) (s : State) : (sendPhase n s).kept = s.kept := by
  unfold sendPhase; simp
@[simp ↓] theorem beginResync_kept (s : State) : (beginResync s).kept = s.kept := by
  unfold beginResync; simp
theorem execResyncStart_kept (s : State) : ∀ z, execResyncStart s = .next z → z.kept = s.kept := by
  unfold execResyncStart; apply next_kept; simp
theorem execResyncPhaseDone_kept (phase bytes : Nat) (s : State) : ∀ z, execResyncPhaseDone phase bytes s = .next z → z.kept = s.kept := by
  unfold execResyncPhaseDone; apply next_kept; dsimp only; (repeat' split) <;> simp
@[simp ↓] theorem deskPairGetStatus_kept (_p : Packet) (s : State) : (deskPairGetStatus _p s).2.2.kept = s.kept := by
  unfold deskPairGetStatus; simp
theorem execPairGetStatus_kept (p : Packet) (s : State) : ∀ z, execPairGetStatus p s = .next z → z.kept = s.kept := letter_kept (fun s => deskPairGetStatus_kept p s)
@[simp ↓] theorem deskPairTakeover_kept (p : Packet) (s : State) : (deskPairTakeover p s).2.2.kept = s.kept := by
  unfold deskPairTakeover; simp
theorem execPairTakeover_kept (p : Packet) (s : State) : ∀ z, execPairTakeover p s = .next z → z.kept = s.kept := letter_kept (fun s => deskPairTakeover_kept p s)
@[simp ↓] theorem deskPairSetPolicy_kept (p : Packet) (s : State) : (deskPairSetPolicy p s).2.2.kept = s.kept := by
  unfold deskPairSetPolicy; simp
theorem execPairSetPolicy_kept (p : Packet) (s : State) : ∀ z, execPairSetPolicy p s = .next z → z.kept = s.kept := letter_kept (fun s => deskPairSetPolicy_kept p s)
@[simp ↓] theorem deskPairStartResync_kept (p : Packet) (s : State) : (deskPairStartResync p s).2.2.kept = s.kept := by
  unfold deskPairStartResync; simp
theorem execPairStartResync_kept (p : Packet) (s : State) : ∀ z, execPairStartResync p s = .next z → z.kept = s.kept := letter_kept (fun s => deskPairStartResync_kept p s)
@[simp ↓] theorem deskPairForceClaim_kept (p : Packet) (s : State) : (deskPairForceClaim p s).2.2.kept = s.kept := by
  unfold deskPairForceClaim; simp
theorem execPairForceClaim_kept (p : Packet) (s : State) : ∀ z, execPairForceClaim p s = .next z → z.kept = s.kept := letter_kept (fun s => deskPairForceClaim_kept p s)

end Sys2Proof.Machine
end

