-- ==== Sys2Proof/Laws/KeptMod.lean ====
section
/-! SUPPORT. The queue, the ordering code, the mode and the Boot stage (`State.kept`) under each operation of modes, memory, shadowing and updates: one lemma for
each, which says that it keeps them. -/
namespace Sys2Proof.Machine

@[simp ↓] theorem closeHosts_kept (s : State) : (closeHosts s).kept = s.kept := by
  unfold closeHosts; simp
@[simp ↓] theorem releaseLease_kept (s : State) : (releaseLease s).kept = s.kept := by
  unfold releaseLease; simp
@[simp ↓] theorem expire_kept (c cause : Nat) (s : State) : (expire c cause s).kept = s.kept := by
  unfold expire; simp
@[simp ↓] theorem expireCtrl_kept (n : Nat) (s : State) : (expireCtrl n s).kept = s.kept := by
  unfold expireCtrl; simp
@[simp ↓] theorem errorExpired_kept (s : State) : (errorExpired s).kept = s.kept := by
  unfold errorExpired; simp
@[simp ↓] theorem runHeld_kept (c : HostCmd) (s : State) : (runHeld c s).kept = s.kept := by
  unfold runHeld; simp
theorem rowAgain_kept (i : AdmRow) (s : State) : ∀ z, rowAgain i s = .next z → z.kept = s.kept := by
  cases i
  case connect r => exact execNvmeConnect_kept r s
  case authenticationSend a b c => exact execNvmeAuthenticationSend_kept a b c s
  case authenticationReceive a b => exact execNvmeAuthenticationReceive_kept a b s
  case propertySet a b c d => exact execNvmePropertySet_kept a b c d s
  case propertyGet a b c => exact execNvmePropertyGet_kept a b c s
  case disconnect a b => exact execNvmeDisconnect_kept a b s
  case getLogPage a b c d => exact execNvmeGetLogPage_kept a b c d s
  case identify a b c d e => exact execNvmeIdentify_kept a b c d e s
  case abort a b c d => exact execNvmeAbort_kept a b c d s
  case setFeatures a b c d e => exact execNvmeSetFeatures_kept a b c d e s
  case getFeatures a b c d e => exact execNvmeGetFeatures_kept a b c d e s
  case asyncEventRequest a b => exact execNvmeAsyncEventRequest_kept a b s
  case namespaceManagement a b c d => exact execNvmeNamespaceManagement_kept a b c d s
  case namespaceAttachment a b c d e => exact execNvmeNamespaceAttachment_kept a b c d e s
  case keepAlive a b => exact execNvmeKeepAlive_kept a b s
  case formatNvm a b c d e f => exact execNvmeFormatNvm_kept a b c d e f s
  case sanitize a b c => exact execNvmeSanitize_kept a b c s
@[simp ↓] theorem runRow_kept (i : AdmRow) (s : State) : (runRow i s).kept = s.kept := by
  unfold runRow; split
  · next t e => exact rowAgain_kept i s t e
  · rfl
@[simp ↓] theorem runWoken_kept (w : Woken) (s : State) : (runWoken w s).kept = s.kept := by
  unfold runWoken; repeat' (first | (with_reducible rfl) | (simp; done) | (dsimp only) | split)
@[simp ↓] theorem resumeHeld_kept (s : State) : (resumeHeld s).kept = s.kept := by
  unfold resumeHeld; simp
@[simp ↓] theorem resumeKumel_kept (s : State) : (resumeKumel s).kept = s.kept := by
  unfold resumeKumel; simp
@[simp ↓] theorem interruptKumel_kept (s : State) : (interruptKumel s).kept = s.kept := by
  unfold interruptKumel; simp
@[simp ↓] theorem laneLost_kept (i : Nat) (s : State) : (laneLost i s).kept = s.kept := by
  unfold laneLost; simp
@[simp ↓] theorem linksDownForClock_kept (c : ClockId) (s : State) : (linksDownForClock c s).kept = s.kept := by
  unfold linksDownForClock; repeat' (first | (with_reducible rfl) | (simp; done) | (dsimp only) | split | (refine (forAll_kept _ _ _ (fun _ _ => ?_)).trans ?_))
@[simp ↓] theorem entropyFault_kept (s : State) : (entropyFault s).kept = s.kept := by
  unfold entropyFault; simp
@[simp ↓] theorem silenceLanes_kept (s : State) : (silenceLanes s).kept = s.kept := by
  unfold silenceLanes; simp
@[simp ↓] theorem persistHoldup_kept (s : State) : (persistHoldup s).kept = s.kept := by
  unfold persistHoldup; simp
@[simp ↓] theorem keepOverRestart_kept (_c : Cause) (s base : State) : (keepOverRestart _c s base).kept = base.kept := by
  unfold keepOverRestart; simp
@[simp ↓] theorem bootMemory_kept (s : State) : (bootMemory s).kept = s.kept := by
  unfold bootMemory; simp
@[simp ↓] theorem startLease_kept (s : State) : (startLease s).kept = s.kept := by
  unfold startLease; simp
@[simp ↓] theorem missingKeys_kept (s : State) : (missingKeys s).kept = s.kept := by
  unfold missingKeys; simp
@[simp ↓] theorem confirmBank_kept (s : State) : (confirmBank s).kept = s.kept := by
  unfold confirmBank; simp
@[simp ↓] theorem allStagesOff_kept (s : State) : (allStagesOff s).kept = s.kept := by
  unfold allStagesOff; simp
@[simp ↓] theorem settleReserve_kept (s : State) : (settleReserve s).kept = s.kept := by
  unfold settleReserve; simp
theorem execUnseat_kept (s : State) : ∀ z, execUnseat s = .next z → z.kept = s.kept := by
  unfold execUnseat; apply next_kept; simp
@[simp ↓] theorem onFeed_kept (k : Nat) (f : Feed → Feed) (s : State) : (onFeed k f s).kept = s.kept := by
  unfold onFeed; simp
@[simp ↓] theorem enterHoldup_kept (s : State) : (enterHoldup s).kept = s.kept := by
  unfold enterHoldup; simp
theorem execFeedGood_kept (feed mv : Nat) (s : State) : ∀ z, execFeedGood feed mv s = .next z → z.kept = s.kept := by
  unfold execFeedGood; apply next_kept; simp
theorem execFeedUvWarn_kept (feed mv : Nat) (s : State) : ∀ z, execFeedUvWarn feed mv s = .next z → z.kept = s.kept := by
  unfold execFeedUvWarn; apply next_kept; simp
theorem execFeedLost_kept (feed mv : Nat) (s : State) : ∀ z, execFeedLost feed mv s = .next z → z.kept = s.kept := by
  unfold execFeedLost; apply next_kept; simp
theorem execFeedOv_kept (feed mv : Nat) (s : State) : ∀ z, execFeedOv feed mv s = .next z → z.kept = s.kept := by
  unfold execFeedOv; apply next_kept; simp
theorem execFeedOvReclose_kept (feed mv : Nat) (s : State) : ∀ z, execFeedOvReclose feed mv s = .next z → z.kept = s.kept := by
  unfold execFeedOvReclose; apply next_kept; simp
theorem execFrontEndTrip_kept (s : State) : ∀ z, execFrontEndTrip s = .next z → z.kept = s.kept := by
  unfold execFrontEndTrip; apply next_kept; simp
theorem execChargeFail_kept (s : State) : ∀ z, execChargeFail s = .next z → z.kept = s.kept := by
  unfold execChargeFail; apply next_kept; simp
theorem execChargeRetry_kept (s : State) : ∀ z, execChargeRetry s = .next z → z.kept = s.kept := by
  unfold execChargeRetry; apply next_kept; simp
theorem execFeedsOffReset_kept (s : State) : ∀ z, execFeedsOffReset s = .next z → z.kept = s.kept := by
  unfold execFeedsOffReset; apply next_kept; simp
@[simp ↓] theorem setCharge_kept (j : Nat) (s : State) : (setCharge j s).kept = s.kept := by
  unfold setCharge; simp
theorem execReserveReady_kept (joules : Nat) (s : State) : ∀ z, execReserveReady joules s = .next z → z.kept = s.kept := by
  unfold execReserveReady; apply next_kept; simp
theorem execReserveWaitTimeout_kept (s : State) : ∀ z, execReserveWaitTimeout s = .next z → z.kept = s.kept := by
  unfold execReserveWaitTimeout; apply next_kept; simp
theorem execReserveCapacityTest_kept (joules : Nat) (s : State) : ∀ z, execReserveCapacityTest joules s = .next z → z.kept = s.kept := by
  unfold execReserveCapacityTest; apply next_kept; simp
theorem execReserveTestDone_kept (joules : Nat) (s : State) : ∀ z, execReserveTestDone joules s = .next z → z.kept = s.kept := by
  unfold execReserveTestDone; apply next_kept; simp
theorem execReserveChargeLow_kept (joules : Nat) (s : State) : ∀ z, execReserveChargeLow joules s = .next z → z.kept = s.kept := by
  unfold execReserveChargeLow; apply next_kept; simp
theorem execThermalWarn_kept (tj : BitVec 16) (s : State) : ∀ z, execThermalWarn tj s = .next z → z.kept = s.kept := by
  unfold execThermalWarn; apply next_kept; simp
theorem execThermalRearm_kept (tj : BitVec 16) (s : State) : ∀ z, execThermalRearm tj s = .next z → z.kept = s.kept := by
  unfold execThermalRearm; apply next_kept; simp
theorem execThermalShutdown_kept (tj : BitVec 16) (s : State) : ∀ z, execThermalShutdown tj s = .next z → z.kept = s.kept := by
  unfold execThermalShutdown; apply next_kept; simp
theorem execManagementLinkUp_kept (s : State) : ∀ z, execManagementLinkUp s = .next z → z.kept = s.kept := by
  unfold execManagementLinkUp; apply next_kept; simp
theorem execDrowseQuiescent_kept (s : State) : ∀ z, execDrowseQuiescent s = .next z → z.kept = s.kept := by
  unfold execDrowseQuiescent; apply next_kept; simp
theorem execDrowseAbandonTimeout_kept (s : State) : ∀ z, execDrowseAbandonTimeout s = .next z → z.kept = s.kept := by
  unfold execDrowseAbandonTimeout; apply next_kept; simp
theorem execDrowseExit_kept (s : State) : ∀ z, execDrowseExit s = .next z → z.kept = s.kept := by
  unfold execDrowseExit; apply next_kept; simp
@[simp ↓] theorem answerWakes_kept (s : State) : (answerWakes s).kept = s.kept := by
  unfold answerWakes; simp
@[simp ↓] theorem kumelInterrupts_kept (s : State) : (kumelInterrupts s).kept = s.kept := by
  unfold kumelInterrupts; simp
@[simp ↓] theorem resetKumel_kept (recent : List Nat) (s : State) : (resetKumel recent s).kept = s.kept := by
  unfold resetKumel; simp
@[simp ↓] theorem kumelRestart_kept (s : State) : (kumelRestart s).kept = s.kept := by
  unfold kumelRestart; simp
theorem execWatchdogExpiry_kept (s : State) : ∀ z, execWatchdogExpiry s = .next z → z.kept = s.kept := by
  unfold execWatchdogExpiry; apply next_kept; simp
theorem execKumelRestartDone_kept (s : State) : ∀ z, execKumelRestartDone s = .next z → z.kept = s.kept := by
  unfold execKumelRestartDone; apply next_kept; simp
@[simp ↓] theorem deskModGetIdentity_kept (_p : Packet) (s : State) : (deskModGetIdentity _p s).2.2.kept = s.kept := by
  unfold deskModGetIdentity; simp
theorem execModGetIdentity_kept (p : Packet) (s : State) : ∀ z, execModGetIdentity p s = .next z → z.kept = s.kept := letter_kept (fun s => deskModGetIdentity_kept p s)
@[simp ↓] theorem deskModGetStatus_kept (_p : Packet) (s : State) : (deskModGetStatus _p s).2.2.kept = s.kept := by
  unfold deskModGetStatus; simp
theorem execModGetStatus_kept (p : Packet) (s : State) : ∀ z, execModGetStatus p s = .next z → z.kept = s.kept := letter_kept (fun s => deskModGetStatus_kept p s)
@[simp ↓] theorem overtakeDrowse_kept (s : State) : (overtakeDrowse s).kept = s.kept := by
  unfold overtakeDrowse; simp
@[simp ↓] theorem deskModSetBootOptions_kept (p : Packet) (s : State) : (deskModSetBootOptions p s).2.2.kept = s.kept := by
  unfold deskModSetBootOptions; simp
theorem execModSetBootOptions_kept (p : Packet) (s : State) : ∀ z, execModSetBootOptions p s = .next z → z.kept = s.kept := letter_kept (fun s => deskModSetBootOptions_kept p s)
@[simp ↓] theorem deskModEnterDrowse_kept (p : Packet) (s : State) : (deskModEnterDrowse p s).2.2.kept = s.kept := by
  unfold deskModEnterDrowse; simp
theorem execModEnterDrowse_kept (p : Packet) (s : State) : ∀ z, execModEnterDrowse p s = .next z → z.kept = s.kept := letter_kept (fun s => deskModEnterDrowse_kept p s)
theorem execModWake_kept (p : Packet) (s : State) : ∀ z, execModWake p s = .next z → z.kept = s.kept := by unfold execModWake; exact letter_kept (fun s => by simp)
@[simp ↓] theorem poisonBlock_kept (p i : Nat) (s : State) : (poisonBlock p i s).kept = s.kept := by
  unfold poisonBlock; simp
@[simp ↓] theorem poisonWord_kept (r w : Nat) (s : State) : (poisonWord r w s).kept = s.kept := by
  unfold poisonWord; simp
@[simp ↓] theorem poisonRead_kept (t : Nat) (s : State) : (poisonRead t s).kept = s.kept := by
  unfold poisonRead; dsimp only; (repeat' split) <;> simp
@[simp ↓] theorem poisonMap_kept (nsid : Nat) (s : State) : (poisonMap nsid s).kept = s.kept := by
  unfold poisonMap; dsimp only; (repeat' split) <;> simp
@[simp ↓] theorem poisonRecord_kept (j : Nat) (s : State) : (poisonRecord j s).kept = s.kept := by
  unfold poisonRecord; repeat' (first | (with_reducible rfl) | (simp; done) | (dsimp only) | split)
@[simp ↓] theorem poisonFrame_kept (swport q i : Nat) (begun : Bool) (s : State) : (poisonFrame swport q i begun s).kept = s.kept := by
  unfold poisonFrame; dsimp only; (repeat' split) <;> simp
@[simp ↓] theorem poisonKey_kept (i : Nat) (copyOk : Bool) (s : State) : (poisonKey i copyOk s).kept = s.kept := by
  unfold poisonKey; simp
@[simp ↓] theorem resetCtr_kept (n : Nat) (s : State) : (resetCtr n s).kept = s.kept := by
  unfold resetCtr; simp
@[simp ↓] theorem setLasting_kept (e : Nat) (dev : Option Nat) (s : State) : (setLasting e dev s).kept = s.kept := by
  unfold setLasting; dsimp only; (repeat' split) <;> simp
@[simp ↓] theorem recheck_kept (cls index part : Nat) (s : State) : (recheck cls index part s).kept = s.kept := by
  unfold recheck; simp
theorem execSelftestStart_kept (eseq : Nat) (s : State) : ∀ z, execSelftestStart eseq s = .next z → z.kept = s.kept := by
  unfold execSelftestStart; apply next_kept; dsimp only; (repeat' split) <;> simp
@[simp ↓] theorem testEnds_kept (t : SelfTest) (eseq : Nat) (r : TestEnd) (s : State) : (testEnds t eseq r s).kept = s.kept := by
  unfold testEnds; simp
theorem execSelftestComplete_kept (eseq : Nat) (r : TestEnd) (s : State) : ∀ z, execSelftestComplete eseq r s = .next z → z.kept = s.kept := by
  unfold execSelftestComplete; apply next_kept; repeat' (first | (with_reducible rfl) | (simp; done) | (dsimp only) | split)
theorem execTriageTimeout_kept (eseq : Nat) (s : State) : ∀ z, execTriageTimeout eseq s = .next z → z.kept = s.kept := by
  unfold execTriageTimeout; apply next_kept; dsimp only; (repeat' split) <;> simp
@[simp ↓] theorem idleStep_kept (chan : Nat) (s : State) : (idleStep chan s).kept = s.kept := by
  unfold idleStep; simp
theorem execIdleScrubRead_kept (chan : Nat) (s : State) : ∀ z, execIdleScrubRead chan s = .next z → z.kept = s.kept := by
  unfold execIdleScrubRead; apply next_kept; simp
theorem execScrubRangeRead_kept (cls lines fixed bad old : Nat) (first : Option Nat) (s : State) : ∀ z, execScrubRangeRead cls lines fixed bad old first s = .next z → z.kept = s.kept := by
  unfold execScrubRangeRead; apply next_kept; dsimp only; (repeat' split) <;> simp
@[simp ↓] theorem deskMemGetStatus_kept (_p : Packet) (s : State) : (deskMemGetStatus _p s).2.2.kept = s.kept := by
  unfold deskMemGetStatus; simp
theorem execMemGetStatus_kept (p : Packet) (s : State) : ∀ z, execMemGetStatus p s = .next z → z.kept = s.kept := letter_kept (fun s => deskMemGetStatus_kept p s)
@[simp ↓] theorem deskMemReadLog_kept (p : Packet) (s : State) : (deskMemReadLog p s).2.2.kept = s.kept := by
  unfold deskMemReadLog; simp
theorem execMemReadLog_kept (p : Packet) (s : State) : ∀ z, execMemReadLog p s = .next z → z.kept = s.kept := letter_kept (fun s => deskMemReadLog_kept p s)
@[simp ↓] theorem deskMemScrubRange_kept (p : Packet) (s : State) : (deskMemScrubRange p s).2.2.kept = s.kept := by
  unfold deskMemScrubRange; simp
theorem execMemScrubRange_kept (p : Packet) (s : State) : ∀ z, execMemScrubRange p s = .next z → z.kept = s.kept := letter_kept (fun s => deskMemScrubRange_kept p s)
@[simp ↓] theorem deskMemGetScrub_kept (p : Packet) (s : State) : (deskMemGetScrub p s).2.2.kept = s.kept := by
  unfold deskMemGetScrub; simp
theorem execMemGetScrub_kept (p : Packet) (s : State) : ∀ z, execMemGetScrub p s = .next z → z.kept = s.kept := letter_kept (fun s => deskMemGetScrub_kept p s)
@[simp ↓] theorem deskMemSetIdleScrub_kept (p : Packet) (s : State) : (deskMemSetIdleScrub p s).2.2.kept = s.kept := by
  unfold deskMemSetIdleScrub; simp
theorem execMemSetIdleScrub_kept (p : Packet) (s : State) : ∀ z, execMemSetIdleScrub p s = .next z → z.kept = s.kept := letter_kept (fun s => deskMemSetIdleScrub_kept p s)
@[simp ↓] theorem deskMemGetIdleScrub_kept (_p : Packet) (s : State) : (deskMemGetIdleScrub _p s).2.2.kept = s.kept := by
  unfold deskMemGetIdleScrub; simp
theorem execMemGetIdleScrub_kept (p : Packet) (s : State) : ∀ z, execMemGetIdleScrub p s = .next z → z.kept = s.kept := letter_kept (fun s => deskMemGetIdleScrub_kept p s)
@[simp ↓] theorem deskMemRetirePage_kept (p : Packet) (s : State) : (deskMemRetirePage p s).2.2.kept = s.kept := by
  unfold deskMemRetirePage; repeat' (first | (with_reducible rfl) | (simp; done) | (dsimp only) | (refine guardParam_kept _ _ _ (fun _ => ?_)) | (refine check_kept _ _ _ _ (fun _ => ?_)) | split | (refine (doIf_kept _ _ _ (fun _ => ?_)).trans ?_))
theorem execMemRetirePage_kept (p : Packet) (s : State) : ∀ z, execMemRetirePage p s = .next z → z.kept = s.kept := letter_kept (fun s => deskMemRetirePage_kept p s)
@[simp ↓] theorem deskMemRetireRow_kept (p : Packet) (s : State) : (deskMemRetireRow p s).2.2.kept = s.kept := by
  unfold deskMemRetireRow; simp
theorem execMemRetireRow_kept (p : Packet) (s : State) : ∀ z, execMemRetireRow p s = .next z → z.kept = s.kept := letter_kept (fun s => deskMemRetireRow_kept p s)
@[simp ↓] theorem logWindow_kept (w off : Nat) (syn : Nat) (s : State) : (logWindow w off syn s).kept = s.kept := by
  unfold logWindow; dsimp only; (repeat' split) <;> simp
@[simp ↓] theorem deskMemTestWrite_kept (p : Packet) (s : State) : (deskMemTestWrite p s).2.2.kept = s.kept := by
  unfold deskMemTestWrite; simp
theorem execMemTestWrite_kept (p : Packet) (s : State) : ∀ z, execMemTestWrite p s = .next z → z.kept = s.kept := letterData_kept (fun s => deskMemTestWrite_kept p s)
@[simp ↓] theorem deskMemTestRead_kept (p : Packet) (s : State) : (deskMemTestRead p s).2.2.kept = s.kept := by
  unfold deskMemTestRead; simp
theorem execMemTestRead_kept (p : Packet) (s : State) : ∀ z, execMemTestRead p s = .next z → z.kept = s.kept := letter_kept (fun s => deskMemTestRead_kept p s)
@[simp ↓] theorem deskMemReloadMap_kept (p : Packet) (s : State) : (deskMemReloadMap p s).2.2.kept = s.kept := by
  unfold deskMemReloadMap; repeat' (first | (with_reducible rfl) | (simp; done) | (dsimp only) | (refine guardParam_kept _ _ _ (fun _ => ?_)) | (refine check_kept _ _ _ _ (fun _ => ?_)) | (refine withNs_kept _ _ _ (fun _ _ => ?_)) | split)
theorem execMemReloadMap_kept (p : Packet) (s : State) : ∀ z, execMemReloadMap p s = .next z → z.kept = s.kept := letter_kept (fun s => deskMemReloadMap_kept p s)
@[simp ↓] theorem deskMemRunSelftest_kept (p : Packet) (s : State) : (deskMemRunSelftest p s).2.2.kept = s.kept := by
  unfold deskMemRunSelftest; repeat' (first | (with_reducible rfl) | (simp; done) | (dsimp only) | (refine guardParam_kept _ _ _ (fun _ => ?_)) | (refine check_kept _ _ _ _ (fun _ => ?_)) | split)
theorem execMemRunSelftest_kept (p : Packet) (s : State) : ∀ z, execMemRunSelftest p s = .next z → z.kept = s.kept := letter_kept (fun s => deskMemRunSelftest_kept p s)
@[simp ↓] theorem discardVolatile_kept (s : State) : (discardVolatile s).kept = s.kept := by
  unfold discardVolatile; simp
@[simp ↓] theorem derivedDesk_kept (op : Nat) (p : Packet) (s : State) : (derivedDesk op p s).2.2.kept = s.kept := by
  unfold derivedDesk; repeat' (first | (with_reducible rfl) | (simp; done) | (dsimp only) | split)
@[simp ↓] theorem placeRelease_kept (c tag gen : Nat) (status : NvStatus) (psn : Nat) (s : State) : (placeRelease c tag gen status psn s).kept = s.kept := by
  unfold placeRelease; dsimp only; (repeat' split) <;> simp
@[simp ↓] theorem applyWrite_kept (w : StateWrite) (s : State) : (applyWrite w s).kept = s.kept := by
  unfold applyWrite; dsimp only; (repeat' split) <;> simp
@[simp ↓] theorem placeShadow_kept (b : ShadowBody) (s : State) : (placeShadow b s).kept = s.kept := by
  unfold placeShadow; dsimp only; (repeat' split) <;> simp
@[simp ↓] theorem mirrorPage_kept (m : MirrorIn) (s : State) : (mirrorPage m s).kept = s.kept := by
  unfold mirrorPage; simp
@[simp ↓] theorem openMirrored_kept (r : JWire) (s : State) : (openMirrored r s).kept = s.kept := by
  unfold openMirrored; simp
@[simp ↓] theorem retireMirrored_kept (j : Nat) (s : State) : (retireMirrored j s).kept = s.kept := by
  unfold retireMirrored; dsimp only; (repeat' split) <;> simp
@[simp ↓] theorem placeLeaf_kept (nsid i w0 w1 : Nat) (s : State) : (placeLeaf nsid i w0 w1 s).kept = s.kept := by
  unfold placeLeaf; dsimp only; (repeat' split) <;> simp
@[simp ↓] theorem mirrorItem_kept (x : MirrorItem) (s : State) : (mirrorItem x s).kept = s.kept := by
  unfold mirrorItem; dsimp only; (repeat' split) <;> simp
@[simp ↓] theorem startSession_kept (h : ExaelHead) (src : Nat) (orig : Option (Nat × Nat)) (s : State) : (startSession h src orig s).kept = s.kept := by
  unfold startSession; simp
@[simp ↓] theorem reportResult_kept (x : Session) (status : Nat) (s : State) : (reportResult x status s).kept = s.kept := by
  unfold reportResult; repeat' (first | (with_reducible rfl) | (simp; done) | (dsimp only) | split)
@[simp ↓] theorem failSession_kept (x : Session) (s : State) : (failSession x s).kept = s.kept := by
  unfold failSession; simp
theorem takeOps_kept (x : Session) (ws : List Word) (s : State) : ∀ z, takeOps x ws s = some z → z.kept = s.kept := by
  intro z h; unfold takeOps at h; dsimp only at h
  rw [Option.map_eq_some_iff] at h
  obtain ⟨y, -, rfl⟩ := h; simp
@[simp ↓] theorem offerOn_kept (h : ExaelHead) (orig scope k : Nat) (s : State) : (offerOn h orig scope k s).kept = s.kept := by
  unfold offerOn; simp
@[simp ↓] theorem passOn_kept (x : Session) (s : State) : (passOn x s).kept = s.kept := by
  unfold passOn; dsimp only; (repeat' split) <;> simp
@[simp ↓] theorem endPropagation_kept (s : State) : (endPropagation s).kept = s.kept := by
  unfold endPropagation; simp
@[simp ↓] theorem noteModule_kept (n : Nat) (good : Bool) (s : State) : (noteModule n good s).kept = s.kept := by
  unfold noteModule; dsimp only; (repeat' split) <;> simp
theorem execFirmwareOffer_kept (link orig scope : Nat) (ws : List Word) (s : State) : ∀ z, execFirmwareOffer link orig scope ws s = .next z → z.kept = s.kept := by
  unfold execFirmwareOffer; apply next_kept; dsimp only; (repeat' split) <;> simp
@[simp ↓] theorem sendDelta_kept (k : Nat) (d : ExaelHead × List Word) (s : State) : (sendDelta k d s).kept = s.kept := by
  unfold sendDelta; simp
theorem execFirmwareAnswer_kept (link status : Nat) (already : Bool) (s : State) : ∀ z, execFirmwareAnswer link status already s = .next z → z.kept = s.kept := by
  unfold execFirmwareAnswer; apply next_kept; dsimp only; (repeat' split) <;> simp
theorem execFirmwareData_kept (link off : Nat) (ws : List Word) (s : State) : ∀ z, execFirmwareData link off ws s = .next z → z.kept = s.kept := by
  unfold execFirmwareData; apply next_kept; split
  · rfl
  · split
    · rfl
    · next x _ _ =>
      cases e : takeOps x ws s with
      | none => simp
      | some t => exact takeOps_kept _ _ _ _ e
theorem execFirmwareEnd_kept (link opwords : Nat) (s : State) : ∀ z, execFirmwareEnd link opwords s = .next z → z.kept = s.kept := by
  unfold execFirmwareEnd; apply next_kept; repeat' (first | (with_reducible rfl) | (simp; done) | (dsimp only) | split)
theorem execFirmwareResult_kept (m : MsgIn) (status mod : Nat) (s : State) : ∀ z, execFirmwareResult m status mod s = .next z → z.kept = s.kept := by
  unfold execFirmwareResult; apply next_kept; simp
theorem execPropagateTimeout_kept (s : State) : ∀ z, execPropagateTimeout s = .next z → z.kept = s.kept := by
  unfold execPropagateTimeout; apply next_kept; repeat' (first | (with_reducible rfl) | (simp; done) | (dsimp only) | split)
theorem execTrialConfirm_kept (s : State) : ∀ z, execTrialConfirm s = .next z → z.kept = s.kept := by
  unfold execTrialConfirm; apply next_kept; repeat' (first | (with_reducible rfl) | (simp; done) | (dsimp only) | split)
@[simp ↓] theorem deskUpdGetStatus_kept (_p : Packet) (s : State) : (deskUpdGetStatus _p s).2.2.kept = s.kept := by
  unfold deskUpdGetStatus; simp
theorem execUpdGetStatus_kept (p : Packet) (s : State) : ∀ z, execUpdGetStatus p s = .next z → z.kept = s.kept := letter_kept (fun s => deskUpdGetStatus_kept p s)
@[simp ↓] theorem deskUpdBegin_kept (p : Packet) (s : State) : (deskUpdBegin p s).2.2.kept = s.kept := by
  unfold deskUpdBegin; repeat' (first | (with_reducible rfl) | (simp; done) | (dsimp only) | (refine guardParam_kept _ _ _ (fun _ => ?_)) | split)
theorem execUpdBegin_kept (p : Packet) (s : State) : ∀ z, execUpdBegin p s = .next z → z.kept = s.kept := letterData_kept (fun s => deskUpdBegin_kept p s)
@[simp ↓] theorem deskUpdWriteDelta_kept (p : Packet) (s : State) : (deskUpdWriteDelta p s).2.2.kept = s.kept := by
  unfold deskUpdWriteDelta; repeat' (first | (with_reducible rfl) | (simp; done) | (dsimp only) | (refine guardParam_kept _ _ _ (fun _ => ?_)) | split | ((try have e_takeOps := takeOps_kept _ _ _ _ ‹takeOps _ _ _ = some _›); (try simp at *); first | (simp [*]; done) | (simp_all; done)))
theorem execUpdWriteDelta_kept (p : Packet) (s : State) : ∀ z, execUpdWriteDelta p s = .next z → z.kept = s.kept := letterData_kept (fun s => deskUpdWriteDelta_kept p s)
@[simp ↓] theorem deskUpdFinish_kept (p : Packet) (s : State) : (deskUpdFinish p s).2.2.kept = s.kept := by
  unfold deskUpdFinish; repeat' (first | (with_reducible rfl) | (simp; done) | (dsimp only) | split)
theorem execUpdFinish_kept (p : Packet) (s : State) : ∀ z, execUpdFinish p s = .next z → z.kept = s.kept := letter_kept (fun s => deskUpdFinish_kept p s)
@[simp ↓] theorem selectBank_kept (s : State) : (selectBank s).kept = s.kept := by
  unfold selectBank; simp
@[simp ↓] theorem deskUpdPropagate_kept (p : Packet) (s : State) : (deskUpdPropagate p s).2.2.kept = s.kept := by
  unfold deskUpdPropagate; repeat' (first | (with_reducible rfl) | (simp; done) | (dsimp only) | (refine guardParam_kept _ _ _ (fun _ => ?_)) | split | (refine (forAll_kept _ _ _ (fun _ _ => ?_)).trans ?_))
theorem execUpdPropagate_kept (p : Packet) (s : State) : ∀ z, execUpdPropagate p s = .next z → z.kept = s.kept := letter_kept (fun s => deskUpdPropagate_kept p s)
@[simp ↓] theorem deskUpdSetOwnerLock_kept (p : Packet) (s : State) : (deskUpdSetOwnerLock p s).2.2.kept = s.kept := by
  unfold deskUpdSetOwnerLock; simp
theorem execUpdSetOwnerLock_kept (p : Packet) (s : State) : ∀ z, execUpdSetOwnerLock p s = .next z → z.kept = s.kept := letter_kept (fun s => deskUpdSetOwnerLock_kept p s)
@[simp ↓] theorem deskUpdAbort_kept (_p : Packet) (s : State) : (deskUpdAbort _p s).2.2.kept = s.kept := by
  unfold deskUpdAbort; simp
theorem execUpdAbort_kept (p : Packet) (s : State) : ∀ z, execUpdAbort p s = .next z → z.kept = s.kept := letter_kept (fun s => deskUpdAbort_kept p s)
@[simp ↓] theorem slotEnergy_kept (k : Nat) (s : State) : (slotEnergy k s).kept = s.kept := by
  unfold slotEnergy; simp

end Sys2Proof.Machine
end

