-- ==== Sys2Proof/Laws/Moves.lean ====
section
/-! SUPPORT. The operations that change the mode or the Boot stage, and what they may do to them (`Moves`): Table 4.5. -/
namespace Sys2Proof.Machine

/-- What one step may do to the queue, the ordering code, the mode and the Boot stage. -/
def Moves (s t : State) : Prop :=
  t.pending = s.pending ∧ t.order = s.order ∧ Mode.may s.md.mode t.md.mode = true ∧ (s.stageOk = true → t.stageOk = true)

theorem may_refl (m : Mode) : Mode.may m m = true := by cases m <;> rfl
theorem moves_kept {s t : State} (h : t.kept = s.kept) : Moves s t := by
  simp only [State.kept, Prod.mk.injEq] at h
  obtain ⟨h1, h2, h3, h4⟩ := h
  refine ⟨h1, h2, by rw [h3]; exact may_refl _, fun k => ?_⟩
  simpa only [State.stageOk, h3, h4] using k
/-- Frames before and after a move. -/
theorem Moves.after {s t u : State} (h : Moves s t) (k : u.kept = t.kept) : Moves s u := by
  simp only [State.kept, Prod.mk.injEq] at k
  obtain ⟨h1, h2, h3, h4⟩ := k
  exact ⟨h1.trans h.1, h2.trans h.2.1, by rw [h3]; exact h.2.2.1, fun j => by have := h.2.2.2 j; simpa only [State.stageOk, h3, h4] using this⟩
theorem Moves.before {s t u : State} (h : Moves t u) (k : t.kept = s.kept) : Moves s u := by
  simp only [State.kept, Prod.mk.injEq] at k
  obtain ⟨h1, h2, h3, h4⟩ := k
  exact ⟨h.1.trans h1, h.2.1.trans h2, by rw [← h3]; exact h.2.2.1, fun j => h.2.2.2 (by simpa only [State.stageOk, h3, h4] using j)⟩
theorem moves_next {s a : State} (h : Moves s a) : ∀ z, (.next a : Out) = .next z → Moves s z := by intro z hz; cases hz; exact h
theorem moves_ite {s a b : State} {c : Prop} [Decidable c] (h : c → Moves s a) (k : ¬c → Moves s b) : Moves s (if c then a else b) := by
  split
  · exact h ‹_›
  · exact k ‹_›

/-- What a change of mode leaves. -/
theorem changeMode_kept (m : Mode) (s : State) : (changeMode m s).kept = (s.pending, s.order, m, s.md.stage) := by
  unfold changeMode; dsimp only
  split
  · next h => simp [State.kept, h]
  · refine (doIf_kept _ _ _ (fun _ => by simp)).trans ((doIf_kept _ _ _ (fun _ => by simp)).trans ((doIf_kept _ _ _ (fun _ => by simp)).trans ?_))
    rfl
theorem changeMode_moves {m : Mode} {s : State} (h : Mode.may s.md.mode m = true) (k : s.md.mode ≠ .boot ∨ m = .boot) : Moves s (changeMode m s) := by
  have e := changeMode_kept m s
  simp only [State.kept, Prod.mk.injEq] at e
  obtain ⟨h1, h2, h3, h4⟩ := e
  refine ⟨h1, h2, by rw [h3]; exact h, fun j => ?_⟩
  simp only [State.stageOk, h3, h4]
  simp only [State.stageOk, Bool.or_eq_true, decide_eq_true_eq] at j ⊢
  rcases k with k | k
  · exact j.imp (fun x => absurd x k) id
  · exact .inl k
theorem moves_boot {s t : State} (h1 : t.pending = s.pending) (h2 : t.order = s.order) (h3 : t.md.mode = .boot) : Moves s t :=
  ⟨h1, h2, by rw [h3]; cases s.md.mode <;> rfl, fun _ => by simp [State.stageOk, h3]⟩
theorem beginBoot_kept (s : State) : (beginBoot s).pending = s.pending ∧ (beginBoot s).order = s.order ∧ (beginBoot s).md.mode = .boot := by
  unfold beginBoot; dsimp only
  split <;> exact ⟨(congrArg (·.1) (settleReserve_kept _)).trans rfl, (congrArg (·.2.1) (settleReserve_kept _)).trans rfl,
    (congrArg (·.2.2.1) (settleReserve_kept _)).trans rfl⟩
theorem moduleRestart_moves (c : Cause) (s : State) : Moves s (moduleRestart c s) := by
  have key : ∀ base : State, base.kept = (s.pending, s.order, .boot, .alwaysOn) → Moves s
      (doIf s.th.report (raise 9 0) (if s.pins.seated then beginBoot (count1 0 (keepOverRestart c s base)) else count1 0 (keepOverRestart c s base))) := by
    intro base e0
    have e1 : (count1 0 (keepOverRestart c s base)).kept = base.kept := by simp
    rw [e0] at e1
    simp only [State.kept, Prod.mk.injEq] at e1
    refine Moves.after (t := if s.pins.seated then beginBoot (count1 0 (keepOverRestart c s base)) else count1 0 (keepOverRestart c s base)) ?_ (doIf_kept _ _ _ (fun _ => by simp))
    split
    · obtain ⟨a, b, d⟩ := beginBoot_kept (count1 0 (keepOverRestart c s base))
      exact moves_boot (a.trans e1.1) (b.trans e1.2.1) d
    · exact moves_boot e1.1 e1.2.1 e1.2.2.1
  exact key _ rfl
theorem restartRunning_moves (c : Cause) (s : State) : Moves s (restartRunning c s) := by
  unfold restartRunning; exact moves_ite (fun _ => moves_kept rfl) (fun _ => moduleRestart_moves c s)
theorem enterMaintenance_moves (s : State) (h : s.md.mode ≠ .boot) (k : s.md.mode ≠ .drowse) : Moves s (enterMaintenance s) := by
  unfold enterMaintenance
  have e : (s.onPair fun p => { p with egressHalt := false, held := [] }).md.mode = s.md.mode := rfl
  refine (changeMode_moves (m := .maintenance) ?_ (.inl ?_)).before (State.onPair_kept _ s)
  · rw [e]; revert h k; cases s.md.mode <;> simp [Mode.may]
  · rw [e]; exact h
theorem fence_moves (s : State) : Moves s (fence s) := by
  unfold fence; extract_lets s1 s2 s3 s4
  have h1 : s1.kept = s.kept := by simp only [s1]; simp
  have h3 : s3.kept = s1.kept := by simp only [s3, s2]; simp
  split
  · exact moves_kept h1
  · next h =>
    have hm : s1.md.mode = .active ∨ s1.md.mode = .drowse := by
      cases e : s1.md.mode <;> simp [e] at h ⊢
    have h3 : (dropDrowse s3).kept = s1.kept := (dropDrowse_kept s3).trans h3
    have h3m : (dropDrowse s3).md.mode = s1.md.mode := by have := congrArg (fun q => q.2.2.1) h3; exact this
    have k : Moves s s4 := (changeMode_moves (m := .fenced) (s := dropDrowse s3) (by rw [h3m]; rcases hm with e | e <;> rw [e] <;> rfl)
      (.inl (by rw [h3m]; rcases hm with e | e <;> rw [e] <;> decide))).before (h3.trans h1)
    split
    · exact k
    · exact k.after (forAll_kept _ _ _ (fun _ _ => by simp))
theorem leaseLost_moves (s : State) : Moves s (leaseLost s) := by
  unfold leaseLost; exact moves_ite (fun _ => fence_moves s) (fun _ => moves_kept rfl)
/-- What becoming Active leaves. -/
theorem becomeActive_kept (s : State) : (becomeActive s).kept = (s.pending, s.order, .active, s.md.stage) := by
  unfold becomeActive
  extract_lets took planned up rdy s1 s2 s3 s4 s5 s6 s7 s8 s9 s10
  have h1 : s1.kept = (changeMode .active s).kept := by simp only [s1]; simp
  have h2 : s2.kept = s1.kept := by simp only [s2]; simp
  have h3 : s3.kept = s2.kept := by simp only [s3]; simp
  have h4 : s4.kept = s3.kept := by simp only [s4]; simp
  have h5 : s5.kept = s4.kept := by simp only [s5]; simp
  have h6 : s6.kept = s5.kept := by simp only [s6]; simp
  have h7 : s7.kept = s6.kept := by simp only [s7]; simp
  have h8 : s8.kept = s7.kept := by simp only [s8]; simp
  have h9 : s9.kept = s8.kept := by simp only [s9]; simp
  have h10 : s10.kept = s9.kept := by simp only [s10]; simp
  have k : s10.kept = (s.pending, s.order, .active, s.md.stage) := by rw [h10, h9, h8, h7, h6, h5, h4, h3, h2, h1, changeMode_kept]
  split
  · exact k
  · exact (resumeAll_kept _).trans k
theorem becomeActive_moves (s : State) (h : s.md.mode ≠ .boot) : Moves s (becomeActive s) :=
  (changeMode_moves (m := .active) (by cases e : s.md.mode <;> rfl) (.inl h)).after (by rw [becomeActive_kept, changeMode_kept])
theorem mastered_kept (s : State) : (mastered s).kept = s.kept := by
  unfold mastered; dsimp only
  have h0 : (missingKeys (confirmBank s)).kept = s.kept := by simp
  split
  · next h => rw [becomeActive_kept, ← h0]; simp only [State.kept, h]
  · exact h0
theorem granted_moves (f : WitnessFrame) (s : State) : Moves s (granted f s) := by
  unfold granted; extract_lets t s1 s2 s3 s4
  have h4 : s4.kept = s.kept := by simp only [s4, s3, s2, s1]; simp
  split
  · exact moves_kept h4
  · next h => exact (becomeActive_moves _ h).before h4
theorem forcedProgress_moves (s : State) : Moves s (forcedProgress s) := by
  unfold forcedProgress
  split
  · exact moves_kept rfl
  · split
    · exact restartRunning_moves _ _
    · split
      · have h0 : (releaseLease (s.onMd fun m => { m with entering := none, admitStop := false })).kept = s.kept := by simp
        split
        · exact moves_kept rfl
        · next h =>
          have e : _ = s.md.mode := congrArg (fun q => q.2.2.1) h0
          simp only [Bool.or_eq_true, decide_eq_true_eq, not_or] at h
          exact (enterMaintenance_moves _ (fun x => h.1 (e.symm.trans x)) (fun x => h.2 (e.symm.trans x))).before h0
      · exact moves_kept rfl
theorem endBoot_moves (m : Mode) (s : State) (h : s.md.mode = .boot) (k : m ≠ .drowse) : Moves s (endBoot m s) := by
  unfold endBoot; extract_lets s1 req s2 param
  have e1 := changeMode_kept m (s.onMd fun x => { x with stage := .done, enumStop := true })
  have e2 : s2.kept = s1.kept := by simp only [s2]; simp
  rw [show s1.kept = _ from e1] at e2
  simp only [State.kept, Prod.mk.injEq] at e2
  have hm : Moves s s2 := by
    refine ⟨e2.1, e2.2.1, ?_, fun _ => ?_⟩
    · rw [e2.2.2.1, h]; cases m <;> simp_all [Mode.may]
    · simp [State.stageOk, e2.2.2.2, State.onMd]
  clear_value req
  cases req with
  | none => exact hm.after (by simp)
  | some d => exact hm.after (by simp)
theorem moves_trans_kept {s t u : State} (h : Moves s t) (k : u.kept = t.kept) : Moves s u := h.after k
theorem execBootEnd_moves (s : State) : ∀ z, execBootEnd s = .next z → Moves s z := by
  unfold execBootEnd; apply moves_next; split
  · next h =>
    have hb : s.md.mode = .boot := by simp only [Bool.and_eq_true, decide_eq_true_eq] at h; exact h.1.1
    split
    · exact moves_kept rfl
    · next m e =>
      dsimp only
      have hk : ∀ f : ModDesk → ModDesk, (∀ d, (f d).mode = d.mode ∧ (f d).stage = d.stage) → (doIf (m = .maintenance) releaseLease (s.onMd f)).kept = s.kept := by
        intro f hf
        exact (doIf_kept _ _ _ (fun _ => by simp)).trans (State.onMd_kept _ _ (hf _).1 (hf _).2)
      have hd : m ≠ .drowse := by
        intro hd; subst hd; unfold bootOutcome at e; revert e; (repeat' split) <;> simp
      have h1 := hk (fun x => { x with maintOpt := x.maintOpt && !(s.md.maintBoot && !s.md.selftestBad && !s.md.dramBad), maintBoot := false }) (fun _ => ⟨rfl, rfl⟩)
      have hm := congrArg (fun q => q.2.2.1) h1
      exact ((endBoot_moves m _ (Eq.trans hm hb) hd).before h1).after (mastered_kept _)
  · exact moves_kept rfl
theorem execBootTimeout_moves (s : State) : ∀ z, execBootTimeout s = .next z → Moves s z := by
  unfold execBootTimeout; apply moves_next
  refine moves_ite (fun h => ?_) (fun _ => moves_kept rfl)
  have hb : s.md.mode = .boot := by simp only [Bool.and_eq_true, decide_eq_true_eq] at h; exact h.1.1.1
  exact endBoot_moves _ _ hb (by decide)
theorem startFeed_moves (s : State) : Moves s (startFeed s) := by
  unfold startFeed; extract_lets s1
  have h1 : s1.kept = s.kept := by simp only [s1]; split <;> rfl
  have e : (drawSess s1).2.kept = s.kept := (drawSess_kept _).trans h1
  split
  next q s2 hq =>
  rw [hq] at e
  extract_lets s3
  have h3 : s3.kept = s.kept := by simp only [s3]; simpa using e
  refine moves_ite (fun h => ?_) (fun _ => moves_kept h3)
  exact (changeMode_moves (by rw [h]; rfl) (.inl (by rw [h]; decide))).before h3
theorem placeRecord_moves (seq vc len : Nat) (placed : Bool) (f : State → State) (s : State) (hf : ∀ s, (f s).kept = s.kept) : Moves s (placeRecord seq vc len placed f s) := by
  unfold placeRecord; extract_lets s1 s2 s3
  have h1 : s1.kept = s.kept := by simp only [s1]; simp
  have h2 : Moves s s2 := by
    simp only [s2]; split
    · exact (startFeed_moves _).before h1
    · exact moves_kept h1
  have h3 : s3.kept = s2.kept := hf _
  split
  · exact moves_kept h1
  · split
    · exact h2
    · split
      · exact h2.after (by simp)
      · exact h2.after (by simp [h3])
theorem partnerBeat_moves (h : HeartbeatIn) (s : State) : Moves s (partnerBeat h s) := by
  unfold partnerBeat; extract_lets s1 s2 s3
  have h1 : s1.kept = s.kept := by simp only [s1]; simp
  have h2 : s2.kept = s1.kept := by simp only [s2]; simp
  have h3 : s3.kept = s.kept := by rw [← h1, ← h2]; simp only [s3]; simp
  split
  · split
    · exact moves_kept (by simp [h3])
    · split
      · exact (fence_moves _).before h3
      · exact moves_kept h3
  · split
    · exact (fence_moves _).before h3
    · exact moves_kept h3
theorem consumed_moves (o : MemObj) (s : State) : Moves s (consumed o s) := by
  unfold consumed; split
  · exact moves_kept rfl
  · exact restartRunning_moves _ _
  · exact moves_kept (by simp)
  · exact moves_kept (by simp)
  · exact moves_kept (by simp)
  · split
    · exact moves_kept rfl
    · split <;> exact moves_kept (by simp)
theorem memError_moves (e : MemErr) (s : State) : Moves s (memError e s) := by
  unfold memError; extract_lets code base s1 s2 part s3 s4 s5
  have h1 : s1.kept = s.kept := by simp only [s1]; simp
  have h2 : s2.kept = s1.kept := by simp only [s2]; simp
  have h3 : s3.kept = s2.kept := by simp only [s3]; simp
  have h4 : s4.kept = s3.kept := by simp only [s4]; split <;> simp
  have h5 : s5.kept = s.kept := by rw [← h1, ← h2, ← h3, ← h4]; simp only [s5]; simp
  split
  · exact (consumed_moves _ _).before h5
  · split
    · split <;> exact moves_kept (by simp [h5])
    · exact moves_kept h5
theorem atDesk_moves (op : Nat) (p : Packet) (orphan lenOk : Bool) (s : State) (desk : State → Desk) (hd : ∀ x, Moves x (desk x).2.2) : Moves s (atDesk op p orphan lenOk s desk) := by
  unfold atDesk; split
  · exact moves_kept (by simp)
  · have h0 := hd s
    have h1 := (hd (post p.door p.tag orphan stAccepted (desk s).2.1 s)).before (post_kept _ _ _ _ _ _)
    dsimp only
    split
    · exact h0.after (by simp)
    · split
      · split
        · exact h1.after (by simp)
        · exact h1.after (by simp)
      · refine h0.after ((post_kept _ _ _ _ _ _).trans (doIf_kept _ _ _ (fun _ => by simp)))
theorem runLetter_moves (op : Nat) (p : Packet) (s : State) (lenOk : Bool) (desk : State → Desk) (hd : ∀ x, Moves x (desk x).2.2) : Moves s (runLetter op p s lenOk desk) := by
  unfold runLetter
  cases deskEntry op p s with
  | some e =>
    dsimp only
    refine moves_ite (fun _ => moves_kept (by simp)) (fun _ => moves_ite (fun _ => moves_kept (by simp)) (fun _ => ?_))
    exact (atDesk_moves _ _ _ _ _ _ hd).before (dropEntry_kept _ _ _)
  | none =>
    dsimp only
    have h1 : (touchLock p.door (count1 (16 + p.door) s)).kept = s.kept := by simp
    cases preCheck op p (touchLock p.door (count1 (16 + p.door) s)) with
    | some r => exact moves_kept (by simp)
    | none =>
      dsimp only
      refine moves_ite (fun _ => moves_kept (by simp)) (fun _ => ?_)
      exact (atDesk_moves _ _ _ _ _ _ hd).before ((arriveInEntry_kept _ _).trans h1)
theorem letter_moves {op n : Nat} {p : Packet} {s : State} {desk : State → Desk} (hd : ∀ x, Moves x (desk x).2.2) : ∀ z, letter op n p s desk = .next z → Moves s z :=
  moves_next (runLetter_moves _ _ _ _ _ hd)
theorem guardParam_moves (b : Bool) (s : State) (k : State → Desk) (hk : ∀ x, Moves x (k x).2.2) : Moves s (guardParam b s k).2.2 := by
  unfold guardParam; split
  · exact hk _
  · exact moves_kept (by simp)
theorem check_moves (b : Bool) (st : Nat) (s : State) (k : State → Desk) (hk : ∀ x, Moves x (k x).2.2) : Moves s (check b st s k).2.2 := by
  unfold check; split
  · exact hk _
  · exact moves_kept (by simp)
theorem execModEnterMaintenance_moves (p : Packet) (s : State) : ∀ z, execModEnterMaintenance p s = .next z → Moves s z := by
  refine letter_moves (fun s => ?_)
  unfold deskModEnterMaintenance
  refine guardParam_moves _ _ _ (fun s => ?_)
  split
  · next h =>
    simp only [Bool.or_eq_true, decide_eq_true_eq] at h
    exact enterMaintenance_moves s (by rcases h with h | h <;> rw [h] <;> decide) (by rcases h with h | h <;> rw [h] <;> decide)
  · refine check_moves _ _ _ _ (fun s => ?_)
    exact (forcedProgress_moves _).before (by simp)
theorem execModRestart_moves (p : Packet) (s : State) : ∀ z, execModRestart p s = .next z → Moves s z := by
  refine letter_moves (fun s => ?_)
  unfold deskModRestart
  refine guardParam_moves _ _ _ (fun s => ?_)
  extract_lets serving
  split
  · exact moves_kept (by simp)
  · refine check_moves _ _ _ _ (fun s => ?_)
    split
    · exact (forcedProgress_moves _).before (by simp)
    · exact restartRunning_moves _ _
theorem execUpdActivate_moves (p : Packet) (s : State) : ∀ z, execUpdActivate p s = .next z → Moves s z := by
  refine letter_moves (fun s => ?_)
  unfold deskUpdActivate
  refine guardParam_moves _ _ _ (fun s => check_moves _ _ _ _ (fun s => ?_))
  split
  · exact moves_kept (by simp)
  · refine check_moves _ _ _ _ (fun s => ?_)
    split
    · exact (restartRunning_moves _ _).before (by simp)
    · split
      · exact moves_kept (by simp)
      · split
        · exact moves_kept (by simp)
        · exact (forcedProgress_moves _).before (by simp)
theorem execSeat_moves (bayOpen chkOpen : Bool) (strap : Nat) (s : State) : ∀ z, execSeat bayOpen chkOpen strap s = .next z → Moves s z := by
  unfold execSeat; apply moves_next
  refine moves_ite (fun _ => moves_kept rfl) (fun _ => moves_ite (fun _ => moves_ite (fun _ => moves_kept rfl) (fun _ => moves_kept rfl)) (fun _ =>
    moves_ite (fun _ => moves_kept rfl) (fun _ => moves_ite (fun _ => moves_kept rfl) (fun _ => moves_ite (fun _ => ?_) (fun _ => ?_)))))
  · exact (moduleRestart_moves _ _).before rfl
  · obtain ⟨a, b, c⟩ := beginBoot_kept _
    exact moves_boot a b c
theorem execBulkChargeEnd_moves (s : State) : ∀ z, execBulkChargeEnd s = .next z → Moves s z := by
  unfold execBulkChargeEnd; apply moves_next; split
  · exact moves_kept rfl
  · exact (moduleRestart_moves _ _).before rfl
theorem execClockLost_moves (c : ClockId) (s : State) : ∀ z, execClockLost c s = .next z → Moves s z := by
  unfold execClockLost; apply moves_next; extract_lets s1 s2
  have h2 : s2.kept = s.kept := by simp only [s2, s1]; simp
  split
  · exact moves_kept (by simp [h2])
  · exact moves_kept (by simp [h2])
  · exact moves_kept (by simp [h2])
  · exact (restartRunning_moves _ _).before h2
  · exact (restartRunning_moves _ _).before h2
theorem execDrowseDrivesLow_moves (s : State) : ∀ z, execDrowseDrivesLow s = .next z → Moves s z := by
  unfold execDrowseDrivesLow; apply moves_next; split
  · next h =>
    have ha : s.md.mode = .active := by simp only [Bool.and_eq_true, decide_eq_true_eq] at h; exact h.2
    extract_lets s1 s2
    have h2 : s2.kept = s.kept := by simp only [s2, s1]; simp
    have hm : s2.md.mode = .active := (congrArg (fun q => q.2.2.1) h2 : _).trans ha
    exact ((changeMode_moves (m := .drowse) (by rw [hm]; rfl) (.inl (by rw [hm]; decide))).before h2).after (by simp)
  · exact moves_kept rfl
theorem execDrowseExitDone_moves (s : State) : ∀ z, execDrowseExitDone s = .next z → Moves s z := by
  unfold execDrowseExitDone; apply moves_next; split
  · next h =>
    have ha : s.md.mode = .drowse := by simp only [Bool.and_eq_true, decide_eq_true_eq] at h; exact h.1
    extract_lets took s1 s2
    have h2 : s2.kept = s.kept := by simp only [s2, s1]; simp
    have hm : s2.md.mode = .drowse := (congrArg (fun q => q.2.2.1) h2 : _).trans ha
    exact ((changeMode_moves (m := .active) (by rw [hm]; rfl) (.inl (by rw [hm]; decide))).before h2).after (by simp)
  · exact moves_kept rfl
theorem execHeartbeatReceive_moves (link : Nat) (h : HeartbeatIn) (s : State) : ∀ z, execHeartbeatReceive link h s = .next z → Moves s z := by
  unfold execHeartbeatReceive; apply moves_next; split
  · exact moves_kept rfl
  · extract_lets s1 s2
    have h1 : s1.kept = s.kept := by simp only [s1]; simp
    have h2 : Moves s s2 := by
      simp only [s2]; split
      · exact (partnerBeat_moves _ _).before h1
      · exact moves_kept h1
    exact h2.after (by simp)
theorem execHoldupDone_moves (s : State) : ∀ z, execHoldupDone s = .next z → Moves s z := by
  unfold execHoldupDone; apply moves_next; split
  · exact moves_kept rfl
  · split
    · exact (restartRunning_moves _ _).before rfl
    · exact moves_kept rfl
theorem execLeaseDeny_moves (f : WitnessFrame) (s : State) : ∀ z, execLeaseDeny f s = .next z → Moves s z := by
  unfold execLeaseDeny; apply moves_next; split
  · exact moves_kept rfl
  · extract_lets s1 s2
    have h1 : s1.kept = s.kept := by simp only [s1]; simp
    have h2 : s2.kept = s.kept := by rw [← h1]; simp only [s2]; simp
    split
    · split
      · exact (fence_moves _).before h2
      · split
        · next h => exact (changeMode_moves (s := s2.onPair _) (by rw [show (s2.onPair _).md.mode = _ from h]; rfl) (.inl (by rw [show (s2.onPair _).md.mode = _ from h]; decide))).before h2
        · exact moves_kept h2
    · split
      · exact moves_kept (by simp [h1])
      · split
        · exact (fence_moves _).before h1
        · exact moves_kept h1
theorem execLeaseExpiry_moves (s : State) : ∀ z, execLeaseExpiry s = .next z → Moves s z := by
  unfold execLeaseExpiry; apply moves_next; split
  · exact fence_moves _
  · exact moves_kept rfl
theorem execLeaseGrant_moves (f : WitnessFrame) (s : State) : ∀ z, execLeaseGrant f s = .next z → Moves s z := by
  unfold execLeaseGrant; apply moves_next; split
  · exact moves_kept rfl
  · extract_lets s1
    have h1 : s1.kept = s.kept := by simp only [s1]; simp
    split
    · exact moves_kept (by simp [h1])
    · exact moves_ite (fun _ => moves_kept h1) (fun _ => (granted_moves _ _).before h1)
theorem execMemoryError_moves (e : MemErr) (s : State) : ∀ z, execMemoryError e s = .next z → Moves s z := by
  unfold execMemoryError; apply moves_next; split
  · exact moves_kept rfl
  · exact memError_moves _ _
theorem execMirrorState_moves (seq len : Nat) (placed : Bool) (items : List MirrorItem) (s : State) : ∀ z, execMirrorState seq len placed items s = .next z → Moves s z := by
  unfold execMirrorState; apply moves_next
  exact placeRecord_moves _ _ _ _ _ _ (fun s => by simp)
theorem execMirrorWrite_moves (seq len : Nat) (placed : Bool) (m : MirrorIn) (s : State) : ∀ z, execMirrorWrite seq len placed m s = .next z → Moves s z := by
  unfold execMirrorWrite; apply moves_next
  exact placeRecord_moves _ _ _ _ _ _ (fun s => by simp)
theorem execShadowPacket_moves (seq len : Nat) (placed : Bool) (body : ShadowBody) (s : State) : ∀ z, execShadowPacket seq len placed body s = .next z → Moves s z := by
  unfold execShadowPacket; apply moves_next
  exact placeRecord_moves _ _ _ _ _ _ (fun s => by simp)
theorem execTakeoverForwardEnd_moves (s : State) : ∀ z, execTakeoverForwardEnd s = .next z → Moves s z := by
  unfold execTakeoverForwardEnd; apply moves_next; split
  · exact moves_kept rfl
  · extract_lets s1 s2 s3
    have h3 : s3.kept = s.kept := by simp only [s3, s2, s1]; simp
    refine Moves.after (t := if s3.md.mode = .active then changeMode .standby s3 else s3) ?_ (by simp)
    split
    · next h => exact (changeMode_moves (by rw [h]; rfl) (.inl (by rw [h]; decide))).before h3
    · exact moves_kept h3
theorem execThermalRestart_moves (tj : BitVec 16) (s : State) : ∀ z, execThermalRestart tj s = .next z → Moves s z := by
  unfold execThermalRestart; apply moves_next; extract_lets s1
  split
  · exact (moduleRestart_moves _ _).before rfl
  · exact moves_kept rfl
theorem execUpdVerifyDone_moves (s : State) : ∀ z, execUpdVerifyDone s = .next z → Moves s z := by
  unfold execUpdVerifyDone; apply moves_next; split
  · exact moves_kept rfl
  · split
    · exact moves_kept rfl
    · split
      · exact moves_kept (by simp)
      · extract_lets s1 s2 s3
        have h3 : s3.kept = s.kept := by simp only [s3, s2, s1]; simp
        split
        · exact (restartRunning_moves _ _).before (by rw [State.onUpd_kept]; exact h3)
        · exact moves_kept ((passOn_kept _ _).trans h3)
theorem boot_moves {s : State} {t : State} (h : s.md.mode = .boot) (h1 : t.pending = s.pending) (h2 : t.order = s.order) (h3 : t.md.mode = s.md.mode) : Moves s t :=
  moves_boot h1 h2 (h3.trans h)
/-- A row of Boot sets the stage and keeps the mode. -/
theorem stage_moves {s t : State} {st : BootStage} (h : s.md.mode = .boot) (k : t.kept = (s.pending, s.order, .boot, st)) : Moves s t := by
  simp only [State.kept, Prod.mk.injEq] at k
  exact moves_boot k.1 k.2.1 k.2.2.1
theorem onMd_stage {s : State} {f : ModDesk → ModDesk} {st : BootStage} (h : s.md.mode = .boot) (k : (f s.md).mode = s.md.mode) (j : (f s.md).stage = st) :
    (s.onMd f).kept = (s.pending, s.order, .boot, st) := by
  show (s.pending, s.order, (f s.md).mode, (f s.md).stage) = _
  rw [k, j, h]
theorem execBootRailsUp_moves (s : State) : ∀ z, execBootRailsUp s = .next z → Moves s z := by
  unfold execBootRailsUp; apply moves_next
  refine moves_ite (fun h => ?_) (fun _ => moves_kept rfl)
  have hb : s.md.mode = .boot := by simp only [Bool.and_eq_true, decide_eq_true_eq] at h; exact h.1.1.1
  exact stage_moves hb (onMd_stage (st := .rails) hb rfl rfl)
theorem execBootFlashChecked_moves (aOk bOk : Bool) (s : State) : ∀ z, execBootFlashChecked aOk bOk s = .next z → Moves s z := by
  unfold execBootFlashChecked; apply moves_next
  refine moves_ite (fun h => ?_) (fun _ => moves_kept rfl)
  have hb : s.md.mode = .boot := by simp only [Bool.and_eq_true, decide_eq_true_eq] at h; exact h.1
  refine moves_ite (fun _ => ?_) (fun _ => ?_)
  · exact stage_moves hb ((bootBank_kept _ _ _).trans (onMd_stage (st := .holdFlash) hb rfl rfl))
  · exact stage_moves hb ((bootBank_kept _ _ _).trans (onMd_stage (st := .flash) hb rfl rfl))
theorem execBootSelftestDone_moves (lasting : Bool) (s : State) : ∀ z, execBootSelftestDone lasting s = .next z → Moves s z := by
  unfold execBootSelftestDone; apply moves_next
  refine moves_ite (fun h => ?_) (fun _ => moves_kept rfl)
  have hb : s.md.mode = .boot := by simp only [Bool.and_eq_true, decide_eq_true_eq] at h; exact h.1
  exact stage_moves hb ((doIf_kept _ _ _ (fun _ => by simp)).trans (onMd_stage (st := .selftest) hb rfl rfl))
theorem execBootDramTrained_moves (failed : List Nat) (s : State) : ∀ z, execBootDramTrained failed s = .next z → Moves s z := by
  unfold execBootDramTrained; apply moves_next
  refine moves_ite (fun h => ?_) (fun _ => moves_kept rfl)
  have hb : s.md.mode = .boot := by simp only [Bool.and_eq_true, decide_eq_true_eq] at h; exact h.1
  exact stage_moves hb ((bootMemory_kept _).trans ((forAll_kept _ _ _ (fun _ _ => by simp)).trans (onMd_stage (st := .dram) hb rfl rfl)))
theorem execKumelStarted_moves (entropyOk : Bool) (s : State) : ∀ z, execKumelStarted entropyOk s = .next z → Moves s z := by
  unfold execKumelStarted; apply moves_next
  refine moves_ite (fun h => ?_) (fun _ => moves_kept rfl)
  have hb : s.md.mode = .boot := by simp only [Bool.and_eq_true, decide_eq_true_eq] at h; exact h.1
  exact stage_moves hb ((doIf_kept _ _ _ (fun _ => by simp)).trans ((startLease_kept _).trans (onMd_stage (st := .kumel) hb rfl rfl)))
theorem execEnumerationStop_moves (s : State) : ∀ z, execEnumerationStop s = .next z → Moves s z := by
  unfold execEnumerationStop; apply moves_next
  refine moves_ite (fun h => ?_) (fun _ => moves_kept rfl)
  have hb : s.md.mode = .boot := by simp only [Bool.and_eq_true, decide_eq_true_eq] at h; exact h.1.1
  exact stage_moves hb (onMd_stage (st := .pairing) hb rfl rfl)
theorem tick_moves (s : State) : Moves s (tick s) := by
  have key : ∀ u : State, u.kept = s.kept → ∀ b, Moves s (doIf b forcedProgress (forAll (u.pwr.slots.map (·.1)) slotEnergy u)) := by
    intro u hu b
    have h2 : (forAll (u.pwr.slots.map (·.1)) slotEnergy u).kept = s.kept := (forAll_kept _ _ _ (fun k t => slotEnergy_kept k t)).trans hu
    cases b
    · exact moves_kept h2
    · exact (forcedProgress_moves _).before h2
  exact key { s with clk := { s.clk with aon := s.clk.aon + 1, now := if s.fe.coreOn then s.clk.now + 1 else s.clk.now } } rfl _

end Sys2Proof.Machine
end

