-- ==== Sys2Proof/Laws/Tab.lean ====
section
/-! SUPPORT. The laws of the sparse tables: reading what was just put in, everything else unchanged, and the canonical form (keys
strictly rising) kept by every operation. -/
namespace Sys2Proof.Machine

variable {α : Type}

@[simp] theorem tabFind_ins_self (t : Tab α) (k : Nat) (v : α) : tabFind (tabIns t k v) k = some v := by
  induction t with
  | nil => simp [tabIns, tabFind]
  | cons e t ih =>
    obtain ⟨k', v'⟩ := e
    unfold tabIns
    by_cases h : k = k'
    · simp [h, tabFind]
    · by_cases h2 : k < k'
      · simp [h, h2, tabFind]
      · simp [h, h2, tabFind, Ne.symm h, ih]

theorem tabFind_ins_ne (t : Tab α) {k j : Nat} (v : α) (h : j ≠ k) : tabFind (tabIns t k v) j = tabFind t j := by
  induction t with
  | nil => simp [tabIns, tabFind, Ne.symm h]
  | cons e t ih =>
    obtain ⟨k', v'⟩ := e
    unfold tabIns
    by_cases h1 : k = k'
    · subst h1; simp [tabFind, Ne.symm h]
    · by_cases h2 : k < k'
      · simp [h1, h2, tabFind, Ne.symm h]
      · simp [h1, h2, tabFind, ih]

theorem tabFind_del_ne (t : Tab α) {k j : Nat} (h : j ≠ k) : tabFind (tabDel t k) j = tabFind t j := by
  induction t with
  | nil => rfl
  | cons e t ih =>
    obtain ⟨k', v'⟩ := e
    unfold tabDel
    by_cases h1 : k' = k
    · subst h1; simp [tabFind, Ne.symm h]
    · simp [h1, tabFind, ih]

@[simp] theorem tabFind_upd_self (t : Tab α) (k : Nat) (f : α → α) : tabFind (tabUpd t k f) k = (tabFind t k).map f := by
  induction t with
  | nil => rfl
  | cons e t ih =>
    obtain ⟨k', v'⟩ := e
    unfold tabUpd
    by_cases h1 : k' = k
    · simp [h1, tabFind]
    · simp [h1, tabFind, ih]

theorem tabFind_upd_ne (t : Tab α) {k j : Nat} (f : α → α) (h : j ≠ k) : tabFind (tabUpd t k f) j = tabFind t j := by
  induction t with
  | nil => rfl
  | cons e t ih =>
    obtain ⟨k', v'⟩ := e
    unfold tabUpd
    by_cases h1 : k' = k
    · subst h1; simp [tabFind, Ne.symm h]
    · simp [h1, tabFind, ih]

@[simp] theorem tabGet_ins_self (d : α) (t : Tab α) (k : Nat) (v : α) : tabGet d (tabIns t k v) k = v := by simp [tabGet]

theorem tabGet_ins_ne (d : α) (t : Tab α) {k j : Nat} (v : α) (h : j ≠ k) : tabGet d (tabIns t k v) j = tabGet d t j := by
  simp [tabGet, tabFind_ins_ne t v h]

@[simp] theorem tabGet_mod_self (d : α) (t : Tab α) (k : Nat) (f : α → α) : tabGet d (tabMod d t k f) k = f (tabGet d t k) := by
  simp [tabMod]

theorem tabGet_mod_ne (d : α) (t : Tab α) {k j : Nat} (f : α → α) (h : j ≠ k) : tabGet d (tabMod d t k f) j = tabGet d t j := by
  simp [tabMod, tabGet_ins_ne d t _ h]

/-- A bound below every key may be lowered. -/
theorem tabWfFrom_mono {lo : Option Nat} {hi : Nat} {t : Tab α} (h : tabWfFrom (some hi) t = true)
    (hl : ∀ l, lo = some l → l ≤ hi) : tabWfFrom lo t = true := by
  cases t with
  | nil => rfl
  | cons e t =>
    obtain ⟨k, v⟩ := e
    cases lo with
    | none => simp [tabWfFrom] at h ⊢; exact h.2
    | some l =>
      have := hl l rfl
      simp [tabWfFrom] at h ⊢
      exact ⟨by omega, h.2⟩

theorem tabWfFrom_ins {lo : Option Nat} {t : Tab α} {k : Nat} {v : α} (h : tabWfFrom lo t = true)
    (hk : ∀ l, lo = some l → l < k) : tabWfFrom lo (tabIns t k v) = true := by
  induction t generalizing lo with
  | nil => cases lo <;> simp_all [tabIns, tabWfFrom]
  | cons e t ih =>
    obtain ⟨k', v'⟩ := e
    unfold tabIns
    by_cases h1 : k = k'
    · subst h1; cases lo <;> simp_all [tabWfFrom]
    · by_cases h2 : k < k'
      · simp only [h1, h2, if_true, if_false]
        cases lo <;> simp_all [tabWfFrom]
      · simp only [h1, h2, if_false]
        have hlt : k' < k := by omega
        have ht : tabWfFrom (some k') t = true := by cases lo <;> simp_all [tabWfFrom]
        have := ih ht (fun l e => by cases e; exact hlt)
        cases lo <;> simp_all [tabWfFrom]

theorem tabWfFrom_del {lo : Option Nat} {t : Tab α} {k : Nat} (h : tabWfFrom lo t = true) : tabWfFrom lo (tabDel t k) = true := by
  induction t generalizing lo with
  | nil => rfl
  | cons e t ih =>
    obtain ⟨k', v'⟩ := e
    have ht : tabWfFrom (some k') t = true := by cases lo <;> simp_all [tabWfFrom]
    unfold tabDel
    by_cases h1 : k' = k
    · simp only [h1, if_true]
      refine tabWfFrom_mono ht fun l e => ?_
      subst e; simp [tabWfFrom] at h; omega
    · simp only [h1, if_false]
      have := ih ht
      cases lo <;> simp_all [tabWfFrom]

theorem tabWfFrom_upd {lo : Option Nat} {t : Tab α} {k : Nat} (f : α → α) (h : tabWfFrom lo t = true) :
    tabWfFrom lo (tabUpd t k f) = true := by
  induction t generalizing lo with
  | nil => rfl
  | cons e t ih =>
    obtain ⟨k', v'⟩ := e
    have ht : tabWfFrom (some k') t = true := by cases lo <;> simp_all [tabWfFrom]
    unfold tabUpd
    by_cases h1 : k' = k
    · simp only [h1, if_true]; cases lo <;> simp_all [tabWfFrom]
    · simp only [h1, if_false]
      have := ih ht
      cases lo <;> simp_all [tabWfFrom]

/-- Every operation keeps the canonical form. -/
theorem tabWf_ins {t : Tab α} {k : Nat} {v : α} (h : tabWf t = true) : tabWf (tabIns t k v) = true :=
  tabWfFrom_ins h (fun _ e => by cases e)
theorem tabWf_del {t : Tab α} {k : Nat} (h : tabWf t = true) : tabWf (tabDel t k) = true := tabWfFrom_del h
theorem tabWf_upd {t : Tab α} {k : Nat} (f : α → α) (h : tabWf t = true) : tabWf (tabUpd t k f) = true := tabWfFrom_upd f h
theorem tabWf_mod {d : α} {t : Tab α} {k : Nat} (f : α → α) (h : tabWf t = true) : tabWf (tabMod d t k f) = true := tabWf_ins h

end Sys2Proof.Machine
end

