-- ==== Sys2Proof/Laws/Slots.lean ====
section
/-! SUPPORT. One slot read after a change of it, and what events, counters and share records leave of the slots. -/
namespace Sys2Proof.Machine

@[simp] theorem slot_onSlot (k : Nat) (f : Slot → Slot) (s : State) : (onSlot k f s).slot k = f (s.slot k) := by
  simp only [State.slot, onSlot, State.onPwr_pwr, tabGet_mod_self]

theorem slot_onSlot_ne {j k : Nat} (f : Slot → Slot) (s : State) (h : j ≠ k) : (onSlot k f s).slot j = s.slot j := by
  simp only [State.slot, onSlot, State.onPwr_pwr, tabGet_mod_ne _ _ _ h]

@[simp] theorem slot_raise (k ev : Nat) (w : Word) (s : State) : (raise ev w s).slot k = s.slot k := by simp only [State.slot, raise_pwr]
@[simp] theorem slot_count1 (k n : Nat) (s : State) : (count1 n s).slot k = s.slot k := by simp only [State.slot, count1_pwr]
@[simp] theorem slot_leaveQueue (k j : Nat) (s : State) : (leaveQueue j s).slot k = s.slot k := rfl

@[simp] theorem slot_shareSend (k a b c d : Nat) (s : State) : (shareSend a b c d s).slot k = s.slot k := by
  unfold shareSend; split <;> rfl

@[simp] theorem slot_tellOn (k n : Nat) (s : State) : (tellOn n s).slot k = s.slot k := by
  unfold tellOn doIf; split <;> simp

end Sys2Proof.Machine
end

