-- ==== Sys2Proof/Laws/Reads.lean ====
section
/-! SUPPORT. What single operations leave to be read after them, what the checks at the arrival of a command let through, and what a
query's row can change. -/
namespace Sys2Proof.Machine

/-- A reply moves no data. -/
theorem dataMoving_post (d : Nat) (tag : Word) (o : Bool) (st : Nat) (ws : List Word) (s : State) : dataMoving (post d tag o st ws s) = dataMoving s := by
  simp [dataMoving]

/-- Zero has no reserved bit set. -/
@[simp] theorem clean_zero (m : Word) : clean m 0#32 = true := by simp [clean]
@[simp] theorem clean00_1 : clean (mask 0 0) 1#32 = true := by decide
/-- No bit of zero is set. -/
@[simp] theorem bit_zero (n : Nat) : bit n 0#32 = false := by simp [bit]
@[simp] theorem bit0_1 : bit 0 1#32 = true := by decide
/-- Every field of zero is zero. -/
@[simp] theorem bits_zero (a b : Nat) : bits a b 0#32 = 0 := by simp [bits]
/-- An entry that the table holds takes its new value. -/
theorem ctx_onCtx (c : Nat) (f : Ctx → Ctx) (s : State) (h : (s.ctx c).st ≠ .free) : (onCtx c f s).ctx c = f (s.ctx c) := by
  simp only [State.ctx, onCtx, State.onXpt, tabGet, tabFind_upd_self] at *
  cases e : tabFind s.xpt.ctxs c with
  | none => rw [e] at h; exact absurd rfl h
  | some v => rfl
@[simp] theorem ctx_count1 (n c : Nat) (s : State) : (count1 n s).ctx c = s.ctx c := by simp [State.ctx]
@[simp] theorem sub_count1 (n c : Nat) (s : State) : (count1 n s).sub c = s.sub c := by simp [State.sub]
@[simp] theorem onCtx_qos (c : Nat) (f : Ctx → Ctx) (s : State) : (onCtx c f s).qos = s.qos := rfl
@[simp] theorem onCtx_clk (c : Nat) (f : Ctx → Ctx) (s : State) : (onCtx c f s).clk = s.clk := rfl
@[simp] theorem onCtx_md (c : Nat) (f : Ctx → Ctx) (s : State) : (onCtx c f s).md = s.md := rfl
@[simp] theorem onCtx_sub (c i : Nat) (f : Ctx → Ctx) (s : State) : (onCtx c f s).sub i = s.sub i := rfl
@[simp] theorem markCe_off (c : Nat) (s : State) : markCe c false s = s := by simp [markCe]
/-- What an admin command that passes the common checks runs. -/
theorem adminIn_takes {row : AdmRow} {kind : AdmKind} {ctx cid n : Nat} {c : Ctrl} {s : State} (h : adminTakes kind ctx cid n c s = true)
    (k : Nat → Ctrl → State → State) : adminIn row ctx cid kind k s = k n c (adminAt ctx s) := by
  simp only [adminTakes, Bool.and_eq_true, decide_eq_true_eq, Bool.or_eq_true, Bool.not_eq_true', Bool.and_eq_false_iff] at h
  obtain ⟨⟨⟨⟨⟨⟨⟨⟨⟨h0, ha⟩, h1⟩, h2⟩, h3⟩, h4⟩, h5⟩, h6⟩, h7⟩, h8⟩ := h
  have e4 : tabFind (takeCapsule ctx s).nvm.ctrls n = some c := h4
  have e2 : (takeCapsule ctx s).md.kumel = .running := h2
  simp only [adminIn, h0, ha, h1, h2, h3, e4, e2, h8]
  have n5 : ((s.ctx ctx).qid ≠ 0 && kind != .disconnect) = false := by
    rcases h5 with h | h <;> simp [h]
  have n6 : (c.disc && decide (kind = .other)) = false := by rcases h6 with h | h <;> simp [h]
  have n7 : (c.needAuth && !c.authd && kind != .auth && kind != .disconnect) = false := by
    rcases h7 with ((h | h) | h) | h <;> simp [h]
  simp only [adminAt]
  simp only [n5, n6, n7]
  simp
/-- What an I/O command that passes the checks at its arrival does: it is policed. -/
theorem arriveCmd_takes {op : IoOp} {c : IoCmd} {s : State} (h : ioTakes c s = true) :
    arriveCmd op c s = police ⟨op, c⟩ (adminAt c.ctx s) := by
  simp only [ioTakes, Bool.and_eq_true, decide_eq_true_eq, Bool.not_eq_true'] at h
  obtain ⟨⟨⟨⟨⟨⟨⟨h0, ha⟩, h1⟩, h2⟩, h3⟩, h4⟩, h5⟩, h6⟩ := h
  have e1 : (s.ctx c.ctx).ctrl.isNone = false := by cases hh : (s.ctx c.ctx).ctrl <;> simp [hh] at h1 ⊢
  simp only [arriveCmd, h0, e1, h2, ha]
  show admitCmd ⟨op, c⟩ (adminAt c.ctx s) = _
  simp only [admitCmd, h4, h6, decide_eq_false h3, Bool.or_self, Bool.false_eq_true, if_false]
  exact if_neg (fun hh => absurd (Eq.trans (Eq.symm hh) h5) (by simp))
@[simp] theorem post_nsOf (d : Nat) (tag : Word) (o : Bool) (st : Nat) (ws : List Word) (s : State) (k : Nat) : (post d tag o st ws s).nsOf k = s.nsOf k := by simp [State.nsOf]
@[simp] theorem post_pos (d : Nat) (tag : Word) (o : Bool) (st : Nat) (ws : List Word) (s : State) : (post d tag o st ws s).pos = s.pos := by simp [State.pos]
@[simp] theorem post_acts (d : Nat) (tag : Word) (o : Bool) (st : Nat) (ws : List Word) (s : State) : actsForShelf (post d tag o st ws s) = actsForShelf s := by simp [actsForShelf]
@[simp] theorem post_vset (d : Nat) (tag : Word) (o : Bool) (st : Nat) (ws : List Word) (s : State) (k : Nat) : (post d tag o st ws s).vset k = s.vset k := by simp [State.vset]

@[simp] theorem post_port (d : Nat) (tag : Word) (o : Bool) (st : Nat) (ws : List Word) (s : State) (k : Nat) : (post d tag o st ws s).port k = s.port k := by simp [State.port]
@[simp] theorem post_slotOf (d : Nat) (tag : Word) (o : Bool) (st : Nat) (ws : List Word) (s : State) (k : Nat) : (post d tag o st ws s).slotOf k = s.slotOf k := by simp [State.slotOf]
/-- An opcode of a command that neither wakes the module, counts as an entry, nor is shadowed. -/
def quietOp (op : Nat) : Bool :=
  !(derivedOps.contains op || writtenOps.contains op) && decide (op ≠ 4) && decide (op ≠ 7) && (match catRow op with | some r => !(decide (r.modes = .c) || decide (r.modes = .cf)) && decide (r.op ≠ 4) && decide (r.op ≠ 7) | none => true)
/-- A desk that keeps everything but the doors, events and counters keeps it through its answer. -/
theorem atDesk_quiet {op : Nat} {p : Packet} {o b : Bool} {s : State} {desk : State → Desk} (h : quietOp op = true)
    (hd : ∀ s, (desk s).2.2.quiet = s.quiet) : (atDesk op p o b s desk).quiet = s.quiet := by
  have hs : ∀ x, shadowLetter op p x = x := by
    intro x; simp only [quietOp, Bool.and_eq_true, Bool.not_eq_true'] at h
    unfold shadowLetter; rw [h.1.1.1]; rfl
  unfold atDesk
  split
  · simp
  · have := hd s
    rcases e : desk s with ⟨st, ws, t⟩
    rw [e] at this
    dsimp only at this ⊢
    simp only [hs]
    split
    · exact this
    · split
      · split
        · rw [hd]; simp
        · rw [post_quiet, hd]; simp
      · rw [post_quiet]; rw [doIf_quiet _ _ (fun x => by rw [hs])]; exact this
/-- So does the whole Letterbox row of such a command. -/
theorem query_run {op : Nat} {p : Packet} {s : State} {b : Bool} {desk : State → Desk} (h : quietOp op = true)
    (hd : ∀ s, (desk s).2.2.quiet = s.quiet) : (runLetter op p s b desk).quiet = s.quiet := by
  have hw : ∀ x : State, (match catRow op with | some r => wakesFirst r x | none => false) = false := by
    intro x
    simp only [quietOp, Bool.and_eq_true] at h
    have h2 := h.2
    cases e : catRow op with
    | none => rfl
    | some r =>
      rw [e] at h2
      simp only [Bool.and_eq_true, Bool.not_eq_true', Bool.or_eq_false_iff, decide_eq_false_iff_not, decide_eq_true_eq, ne_eq] at h2
      simp [wakesFirst, h2]
  have ha : ∀ x : State, arriveInEntry op x = x := by
    intro x
    simp only [quietOp, Bool.and_eq_true] at h
    have h2 := h.2
    unfold arriveInEntry
    cases e : catRow op with
    | none => rfl
    | some r =>
      rw [e] at h2
      simp only [Bool.and_eq_true, Bool.not_eq_true'] at h2
      simp [h2.1.1, doIf]
  have hq : ∀ x : State, (touchLock p.door x).quiet = x.quiet := by intro x; unfold touchLock; (repeat' split) <;> rfl
  unfold runLetter
  split
  · refine (congrArg State.quiet (if_neg (fun hh => Bool.noConfusion ((hw _).symm.trans (Bool.and_eq_true_iff.1 hh).2)))).trans ?_
    have hif : ∀ (P : Prop) [Decidable P] (x y : State), x.quiet = s.quiet → y.quiet = s.quiet → (if P then x else y).quiet = s.quiet := by
      intro P _ x y hx hy; split <;> assumption
    exact hif _ _ _ (by rw [post_quiet]; rfl) (by rw [atDesk_quiet h hd]; rfl)
  · dsimp only
    split
    · rw [post_quiet, hq]; simp
    · refine (congrArg State.quiet (if_neg (fun hh => Bool.noConfusion ((hw _).symm.trans hh)))).trans ?_
      rw [ha, atDesk_quiet h hd, hq]; simp
/-- And so, for its constructor. -/
theorem query_keeps {i : Instr} (op : Nat) {p : Packet} {s : State} (b : Bool) (desk : State → Desk) (h : quietOp op = true)
    (e : exec i s = .next (runLetter op p s b desk)) (hd : ∀ s, (desk s).2.2.quiet = s.quiet) :
    Keeps i s fun t s => { s with out := t.out, lb := t.lb, se := t.se, tal := t.tal } := by
  intro t ht
  have : t = runLetter op p s b desk := by rw [e] at ht; injection ht with ht; exact ht.symm
  subst this
  exact quiet_eq (query_run h hd)
/-- A slot is read from what replies, events and counters leave. -/
theorem calm_slot {a b : State} (h : a.calm = b.calm) (k : Nat) : a.slot k = b.slot k := by
  have := congrArg (fun s : State => s.pwr) h; simp only [State.calm] at this; simp only [State.slot, this]
/-- The bits that are set, below a bound. -/
theorem mem_setBits {k n m : Nat} : k ∈ setBits n m ↔ k < n ∧ m.testBit k = true := by simp [setBits]
/-- Releasing a slot from DISABLED leaves every slot that is not DISABLED. -/
theorem slot_turnOn_ne (j k : Nat) (s : State) (h : (s.slot k).state ≠ .disabled) : (turnOn j s).slot k = s.slot k := by
  unfold turnOn; split
  · rename_i hj
    by_cases e : k = j
    · subst e; exact absurd hj h
    · exact slot_onSlot_ne _ _ e
  · rfl
/-- So does releasing several. -/
theorem slot_turnOns (xs : List Nat) (k : Nat) (s : State) (h : (s.slot k).state ≠ .disabled) : (forAll xs turnOn s).slot k = s.slot k := by
  unfold forAll
  induction xs generalizing s with
  | nil => rfl
  | cons x xs ih =>
    have e := slot_turnOn_ne x k s h
    rw [List.foldl_cons, ih _ (by rw [e]; exact h), e]
/-- Clearing one lockout leaves the other slots. -/
theorem slot_clear_ne (j k : Nat) (s : State) (h : k ≠ j) : (clearLockout j s).slot k = s.slot k := by
  unfold clearLockout leaveLockout; split
  · simp [slot_onSlot_ne _ _ h]
  · rfl
/-- A slot that is not in LOCKOUT stays. -/
theorem slot_clear_id (j k : Nat) (s : State) (h : (s.slot k).state ≠ .lockout) : (clearLockout j s).slot k = s.slot k := by
  by_cases e : k = j
  · subst e; unfold clearLockout; rw [if_neg h]
  · exact slot_clear_ne j k s e
/-- A slot in LOCKOUT becomes EMPTY with no history. -/
theorem slot_clear_self (k : Nat) (s : State) (h : (s.slot k).state = .lockout) : ((clearLockout k s).slot k).state = .empty ∧ ((clearLockout k s).slot k).hist = [] := by
  unfold clearLockout leaveLockout; rw [if_pos h]; simp
/-- Clearing several lockouts, slot by slot. -/
theorem slot_clears (xs : List Nat) (k : Nat) (s : State) :
    (k ∈ xs ∧ (s.slot k).state = .lockout → ((forAll xs clearLockout s).slot k).state = .empty ∧ ((forAll xs clearLockout s).slot k).hist = [])
    ∧ (¬ (k ∈ xs ∧ (s.slot k).state = .lockout) → (forAll xs clearLockout s).slot k = s.slot k) := by
  unfold forAll
  induction xs generalizing s with
  | nil => simp
  | cons x xs ih =>
    rw [List.foldl_cons]
    obtain ⟨i1, i2⟩ := ih (clearLockout x s)
    by_cases hl : (s.slot k).state = .lockout
    · by_cases e : k = x
      · subst e
        obtain ⟨a, b⟩ := slot_clear_self k s hl
        have : ¬ (k ∈ xs ∧ ((clearLockout k s).slot k).state = .lockout) := by rw [a]; simp
        have r := i2 this
        exact ⟨fun _ => by rw [r]; exact ⟨a, b⟩, fun hh => absurd ⟨List.mem_cons_self, hl⟩ hh⟩
      · have r := slot_clear_ne x k s e
        rw [r] at i1 i2
        exact ⟨fun hh => i1 ⟨(List.mem_cons.1 hh.1).resolve_left e, hl⟩, fun hh => i2 (fun h2 => hh ⟨List.mem_cons_of_mem _ h2.1, hl⟩)⟩
    · have r := slot_clear_id x k s hl
      rw [r] at i1 i2
      exact ⟨fun hh => absurd hh.2 hl, fun _ => i2 (fun h2 => hl h2.2)⟩
/-- A command that arrives during a Drowse entry leaves power and links. -/
theorem entryArrival_pwr_links (s : State) : (entryArrival s).pwr = s.pwr ∧ (entryArrival s).links = s.links := by
  unfold entryArrival; split <;> simp
/-- So does the restart of the lock timer. -/
theorem touchLock_pwr_links (d : Nat) (s : State) : (touchLock d s).pwr = s.pwr ∧ (touchLock d s).links = s.links := by
  unfold touchLock; (repeat' split) <;> exact ⟨rfl, rfl⟩
/-- And a packet's arrival. -/
theorem arrived_both (op : Nat) (p : Packet) (s : State) : (s.arrived op p).pwr = s.pwr ∧ (s.arrived op p).links = s.links := by
  unfold State.arrived arriveInEntry State.counted
  have h := touchLock_pwr_links p.door (count1 (16 + p.door) s)
  split
  · unfold doIf; split
    · have e := entryArrival_pwr_links (touchLock p.door (count1 (16 + p.door) s))
      rw [e.1, e.2, h.1, h.2]; simp
    · rw [h.1, h.2]; simp
  · rw [h.1, h.2]; simp
/-- A packet's arrival leaves the power desk. -/
theorem arrived_pwr (op : Nat) (p : Packet) (s : State) : (s.arrived op p).pwr = s.pwr := (arrived_both op p s).1
/-- A packet's arrival leaves the links. -/
theorem arrived_links (op : Nat) (p : Packet) (s : State) : (s.arrived op p).links = s.links := (arrived_both op p s).2

/-- Taking the management addresses changes no door. -/
theorem takeMgmt_door (d : Nat) (tag : Word) (e : Nat) (s : State) : (takeMgmt d tag s).door e = s.door e := by
  unfold takeMgmt; split
  · unfold doIf; split
    · rcases e with _ | _ | _ <;> rfl
    · rfl
  · rfl

/-- What the engine takes, it acts on at once. -/
theorem toEngine_takes {lport : Nat} {s : State} (h : engineTakes lport s = true) (obj : Nat) (hold : Woken) (wakes : Bool) (take : State → State) :
    toEngine lport obj hold wakes take s = take (engineAt obj s) := by
  simp only [engineTakes, Bool.and_eq_true, Bool.not_eq_true', decide_eq_true_eq, Option.isNone_iff_eq_none] at h
  obtain ⟨⟨⟨h0, h1⟩, h2⟩, h3⟩ := h
  simp [toEngine, engineAt, h0, h1, h2, h3]
/-- A shadow record leaves everything but the links and the pairing desk. -/
theorem engineAt_calm (obj : Nat) (s : State) : (engineAt obj s).calm = s.calm := shadow_calm _ _ _ _
@[simp] theorem engineAt_md (o : Nat) (s : State) : (engineAt o s).md = s.md := by have h := congrArg State.md (engineAt_calm o s); exact h
@[simp] theorem engineAt_clk (o : Nat) (s : State) : (engineAt o s).clk = s.clk := by have h := congrArg State.clk (engineAt_calm o s); exact h
@[simp] theorem engineAt_xpt (o : Nat) (s : State) : (engineAt o s).xpt = s.xpt := by have h := congrArg State.xpt (engineAt_calm o s); exact h
@[simp] theorem engineAt_net (o : Nat) (s : State) : (engineAt o s).net = s.net := by have h := congrArg State.net (engineAt_calm o s); exact h
@[simp] theorem engineAt_qos (o : Nat) (s : State) : (engineAt o s).qos = s.qos := by have h := congrArg State.qos (engineAt_calm o s); exact h
@[simp] theorem engineAt_nvm (o : Nat) (s : State) : (engineAt o s).nvm = s.nvm := by have h := congrArg State.nvm (engineAt_calm o s); exact h
@[simp] theorem engineAt_free (o : Nat) (s : State) : (engineAt o s).free = s.free := by have h := congrArg State.free (engineAt_calm o s); exact h
@[simp] theorem engineAt_ctx (o c : Nat) (s : State) : (engineAt o s).ctx c = s.ctx c := by simp [State.ctx]
/-- A count changes nothing of what decides whether the engine takes. -/
theorem engineTakes_count1 (n l : Nat) (s : State) : engineTakes l (count1 n s) = engineTakes l s := by
  simp [engineTakes, servesFront, isAnalysis]

end Sys2Proof.Machine
end

