-- ==== Sys2Proof/Laws/Regions.lean ====
section
/-! SUPPORT. The contents of a memory region keep their canonical form. -/
namespace Sys2Proof.Machine
variable {α : Type}

/-- What a table holds after an entry is removed, it held before. -/
theorem mem_tabDel {t : Tab α} {k : Nat} {e : Nat × α} (h : e ∈ tabDel t k) : e ∈ t := by
  induction t with
  | nil => exact h
  | cons x t ih =>
    obtain ⟨j, v⟩ := x
    unfold tabDel at h
    split at h
    · exact List.mem_cons_of_mem _ h
    · rcases List.mem_cons.1 h with h | h
      · exact h ▸ List.mem_cons_self
      · exact List.mem_cons_of_mem _ (ih h)

/-- What a table holds after an entry is put, it held before, or is that entry. -/
theorem mem_tabIns {t : Tab α} {k : Nat} {v : α} {e : Nat × α} (h : e ∈ tabIns t k v) : e = (k, v) ∨ e ∈ t := by
  induction t with
  | nil => exact .inl (by simpa [tabIns] using h)
  | cons x t ih =>
    obtain ⟨j, w⟩ := x
    unfold tabIns at h
    split at h
    · rcases List.mem_cons.1 h with h | h
      · exact .inl h
      · exact .inr (List.mem_cons_of_mem _ h)
    · split at h
      · rcases List.mem_cons.1 h with h | h
        · exact .inl h
        · exact .inr h
      · rcases List.mem_cons.1 h with h | h
        · exact .inr (h ▸ List.mem_cons_self)
        · exact (ih h).imp_right (List.mem_cons_of_mem _)

/-- One word of a region written: it is listed unless it is 0. -/
theorem region_put_wf (r : Region) (k : Nat) (v : BitVec 64) (h : r.wf = true) :
    Region.wf { r with words := if v = 0 then tabDel r.words k else tabIns r.words k v } = true := by
  simp only [Region.wf, Bool.and_eq_true, List.all_eq_true, decide_eq_true_eq] at h ⊢
  split
  · exact ⟨tabWf_del h.1, fun e he => h.2 e (mem_tabDel he)⟩
  · next hv =>
    refine ⟨tabWf_ins h.1, fun e he => ?_⟩
    rcases mem_tabIns he with rfl | he
    · exact hv
    · exact h.2 e he

/-- A write keeps the canonical form. -/
theorem writeRegion_wf (off len v : Nat) (r : Region) (h : r.wf = true) : (writeRegion off len v r).wf = true := by
  unfold writeRegion
  generalize wordsTouched off len = ks
  induction ks generalizing r with
  | nil => exact h
  | cons k ks ih => exact ih _ (region_put_wf r k _ h)

end Sys2Proof.Machine
end

