-- ==== Sys2Proof/Tests/Slice0.lean ====
section
/-! SUPPORT. The tests: ill-formed commands that the checks refuse, a witness for each statement that has hypotheses, and single
steps whose result is worked out by hand from the spec. -/
open Sys2Proof Sys2Proof.Machine
namespace Sys2Proof.Tests

/-! ## Well-formedness: an ill-formed term for each check -/

theorem test_wellFormed_refuses_1 : ([.nop ⟨3, 0, 0, 0, []⟩,
  .lbcntWrite 3 false 0,
  .lbdataWrite 3 false 0,
  .lbdataRead 3 false,
  .lbctlAbort 3 false 0,
  .registerWrite (.lbctl 3) false 0,
  .doorFillingTimeout 3,
  .commandEnterBusy 3,
  .kumelBeginCommand 3,
  .kumelBacklogTimeout 3 0,
  .commandReplyReady 3,
  .doorDatagram ⟨65536, false, 0, 0, 0, false, false, 0, 0, 0, 0, 0, [], []⟩,
  .seat false false 4,
  .feedGood 3 0,
  .feedUvWarn 3 0,
  .feedLost 3 0,
  .feedOv 3 0,
  .feedOvReclose 3 0,
  .clockLost (.lane 116),
  .slotProbe 24 0 none,
  .slotInserted 24,
  .slotSuspectPull 24 0,
  .slotAdmit 24 0,
  .rampResample 24 0,
  .slotPowerGood 24,
  .slotResetRelease 24,
  .slotJoinSettled 24,
  .inrushTimeout 24,
  .slotTrip 24 0 0,
  .slotTrip 0 8 0,
  .slotRetryExpiry 24,
  .slotStageOffDelay 24,
  .shareTelemetryReceive ⟨(2 ^ 24), 0, 0, 0, 0, 0, 0, false, 0, []⟩,
  .pluggableInserted 6,
  .pluggableCmisRead 6 0,
  .pluggableCmisRead 0 256,
  .pluggableReady 6,
  .pluggableFault 6,
  .pluggableRemoved 6,
  .linkUp 32] : List Instr).all (fun i => !WellFormed i) = true := by decide
theorem test_wellFormed_refuses_2 : ([.linkDown 32,
  .fecDegraded 32 0 0 0,
  .frameReceive ⟨32, 0, false, 0, false, 0, false, 0, 0, 0, .kumel, []⟩,
  .frameTransmit 39 0,
  .frameTransmit 0 8,
  .pfcReceive 32 0 0,
  .pfcReceive 0 8 0,
  .pfcReceive 0 0 65536,
  .pfcPauseExpiry 32 0,
  .pfcPauseExpiry 0 8,
  .pfcRefresh 32 0,
  .pfcRefresh 0 8,
  .ptpMessage 32 0 0 (.followUp 0 0),
  .ptpMessage 0 256 0 (.followUp 0 0),
  .ptpMessage 0 0 4 (.followUp 0 0),
  .schedulerDispatch 56,
  .gateEntryChange 56,
  .gateListStart 56,
  .gateListRestart 56,
  .cmReq ⟨32, 0, false, 0, 0, 0, 0, 0, 0, 0, 0, 0, 0, 0, 0, 0⟩,
  .cmRtu (2 ^ 24),
  .repResend 65536,
  .cmDreq (2 ^ 24),
  .cmDrep (2 ^ 24),
  .dreqTimeout 65536,
  .timewaitExpiry 65536,
  .roceRequestPacket ⟨32, 0, false, false, false, 0, 0, false, 0, .invalid, []⟩,
  .roceAckReceive ⟨32, 0, false, false, 0, []⟩ 0 .ack,
  .roceAckReceive ⟨0, 0, false, false, 0, []⟩ (2 ^ 24) .ack,
  .roceReadResponse ⟨32, 0, false, false, 0, []⟩ 0 0 0 0 [] false,
  .roceReadResponse ⟨0, 0, false, false, 0, []⟩ (2 ^ 24) 0 0 0 [] false,
  .roceReadResponse ⟨0, 0, false, false, 0, []⟩ 0 262144 0 0 [] false,
  .roceReadResponse ⟨0, 0, false, false, 0, []⟩ 0 0 64 0 [] false,
  .roceCnpReceive ⟨32, 0, false, false, 0, []⟩,
  .ackCoalesceTimeout 65536,
  .ackTimeout 65536,
  .rnrResend 65536,
  .ratePeriod 65536,
  .dataDone 262144 0,
  .dataDone 0 64] : List Instr).all (fun i => !WellFormed i) = true := by decide
theorem test_wellFormed_refuses_3 : ([.completionRelease 65536,
  .tcpSyn ⟨32, false, 0, 0, 0, 0, 0, false, 0, 0, false, 0, none, none⟩,
  .tcpSegment ⟨65536, 0, 0, 0, 0, false, false, false, 0, .none, [], 0, [], none, []⟩,
  .tcpAckTimer 65536,
  .tcpRto 65536,
  .tcpFin 65536 0 [],
  .tcpFin 0 (2 ^ 32) [],
  .tcpRst 65536 0 [],
  .tcpRst 0 (2 ^ 32) [],
  .icreqTimeout 65536,
  .tlsHandshakeDone 65536 false 0 0 0 [] [],
  .tlsHandshakeTimeout 65536,
  .keyupdateInstalled 65536,
  .contextFillDone 65536 false,
  .keepAliveExpiry 65536,
  .nvmeConnect ⟨65536, 0, 0, 0, 0, 0, [], [], false, 0⟩,
  .nvmeAuthenticationSend 65536 0 (.success2 false),
  .nvmeAuthenticationSend 0 65536 (.success2 false),
  .nvmeAuthenticationReceive 65536 0,
  .nvmeAuthenticationReceive 0 65536,
  .nvmePropertySet 65536 0 0 0,
  .nvmePropertySet 0 65536 0 0,
  .nvmePropertySet 0 0 (2 ^ 32) 0,
  .nvmePropertySet 0 0 0 (2 ^ 64),
  .nvmePropertyGet 65536 0 0,
  .nvmePropertyGet 0 65536 0,
  .nvmePropertyGet 0 0 (2 ^ 32),
  .nvmeDisconnect 65536 0,
  .nvmeDisconnect 0 65536,
  .nvmeGetLogPage 65536 0 0 0,
  .nvmeGetLogPage 0 65536 0 0,
  .nvmeGetLogPage 0 0 (2 ^ 32) 0,
  .nvmeGetLogPage 0 0 0 256,
  .nvmeIdentify 65536 0 0 0 0,
  .nvmeIdentify 0 65536 0 0 0,
  .nvmeIdentify 0 0 (2 ^ 32) 0 0,
  .nvmeIdentify 0 0 0 256 0,
  .nvmeAbort 65536 0 0 0,
  .nvmeAbort 0 65536 0 0,
  .nvmeAbort 0 0 65536 0] : List Instr).all (fun i => !WellFormed i) = true := by decide
theorem test_wellFormed_refuses_4 : ([.nvmeAbort 0 0 0 65536,
  .abortRequestAtTag 65536 0,
  .abortRequestAtTag 0 65536,
  .nvmeSetFeatures 65536 0 0 0 0,
  .nvmeSetFeatures 0 65536 0 0 0,
  .nvmeSetFeatures 0 0 (2 ^ 32) 0 0,
  .nvmeSetFeatures 0 0 0 256 0,
  .nvmeSetFeatures 0 0 0 0 (2 ^ 64),
  .nvmeGetFeatures 65536 0 0 0 0,
  .nvmeGetFeatures 0 65536 0 0 0,
  .nvmeGetFeatures 0 0 (2 ^ 32) 0 0,
  .nvmeGetFeatures 0 0 0 256 0,
  .nvmeGetFeatures 0 0 0 0 (2 ^ 32),
  .nvmeAsyncEventRequest 65536 0,
  .nvmeAsyncEventRequest 0 65536,
  .nvmeNamespaceManagement 65536 0 none ⟨0, 0, 0, 0, false⟩,
  .nvmeNamespaceManagement 0 65536 none ⟨0, 0, 0, 0, false⟩,
  .nvmeNamespaceManagement 0 0 none ⟨(2 ^ 64), 0, 0, 0, false⟩,
  .nvmeNamespaceAttachment 65536 0 0 false [],
  .nvmeNamespaceAttachment 0 65536 0 false [],
  .nvmeNamespaceAttachment 0 0 (2 ^ 32) false [],
  .nvmeKeepAlive 65536 0,
  .nvmeKeepAlive 0 65536,
  .nvmeFormatNvm 65536 0 0 0 0 0,
  .nvmeFormatNvm 0 65536 0 0 0 0,
  .nvmeFormatNvm 0 0 (2 ^ 32) 0 0 0,
  .nvmeSanitize 65536 0 0,
  .nvmeSanitize 0 65536 0,
  .nvmeRead ⟨65536, 0, 0, 0, 0, false, 0, false, 0, 0, [], .none, false, 0, 0, false, 0, false, 0, 0, 0, 0, 0⟩,
  .nvmeWrite ⟨65536, 0, 0, 0, 0, false, 0, false, 0, 0, [], .none, false, 0, 0, false, 0, false, 0, 0, 0, 0, 0⟩,
  .nvmeFlush ⟨65536, 0, 0, 0, 0, false, 0, false, 0, 0, [], .none, false, 0, 0, false, 0, false, 0, 0, 0, 0, 0⟩,
  .nvmeCompare ⟨65536, 0, 0, 0, 0, false, 0, false, 0, 0, [], .none, false, 0, 0, false, 0, false, 0, 0, 0, 0, 0⟩,
  .nvmeWriteZeroes ⟨65536, 0, 0, 0, 0, false, 0, false, 0, 0, [], .none, false, 0, 0, false, 0, false, 0, 0, 0, 0, 0⟩,
  .nvmeDatasetManagement ⟨65536, 0, 0, 0, 0, false, 0, false, 0, 0, [], .none, false, 0, 0, false, 0, false, 0, 0, 0, 0, 0⟩,
  .nvmeVerify ⟨65536, 0, 0, 0, 0, false, 0, false, 0, 0, [], .none, false, 0, 0, false, 0, false, 0, 0, 0, 0, 0⟩,
  .nvmeCopy ⟨65536, 0, 0, 0, 0, false, 0, false, 0, 0, [], .none, false, 0, 0, false, 0, false, 0, 0, 0, 0, 0⟩,
  .nvmeReservationRegister ⟨65536, 0, 0, 0, 0, false, 0, false, 0, 0, [], .none, false, 0, 0, false, 0, false, 0, 0, 0, 0, 0⟩,
  .nvmeReservationReport ⟨65536, 0, 0, 0, 0, false, 0, false, 0, 0, [], .none, false, 0, 0, false, 0, false, 0, 0, 0, 0, 0⟩,
  .nvmeReservationAcquire ⟨65536, 0, 0, 0, 0, false, 0, false, 0, 0, [], .none, false, 0, 0, false, 0, false, 0, 0, 0, 0, 0⟩,
  .nvmeReservationRelease ⟨65536, 0, 0, 0, 0, false, 0, false, 0, 0, [], .none, false, 0, 0, false, 0, false, 0, 0, 0, 0, 0⟩] : List Instr).all (fun i => !WellFormed i) = true := by decide
theorem test_wellFormed_refuses_5 : ([.commandStart 2048,
  .writeDataArrival 262144 0 0 [],
  .writeDataArrival 0 64 0 [],
  .destageAgeTrigger 32 0,
  .destageStart 32,
  .journalBlockTimer 32 0,
  .journalBlockTimer 0 24,
  .journalPersisted (2 ^ 64),
  .stripWriteComplete (2 ^ 64),
  .recordRecovery 32 [] [],
  .initStripe 32,
  .latencyPercentileUpdate 24,
  .absentwaitExpiry 32 0,
  .absentwaitExpiry 0 24,
  .rebuildStart 32,
  .rebuildStripe 32 0,
  .rebuildStripe 0 24,
  .resyncRegion 32 0,
  .resyncRegion 0 24,
  .patrolStripe 32,
  .identityRecordWrite 32,
  .driveTrainingAttempt 24,
  .driveLinkUp 24 0 0 false false 0 0 0 false,
  .driveLinkUp 0 7 0 false false 0 0 0 false,
  .driveLinkUp 0 0 17 false false 0 0 0 false,
  .driveLinkDown 24,
  .downmaxExpiry 24,
  .cstsWaitTimeout 24,
  .driveAdminCompletion 24 (.format false),
  .driveAdminTimeout 24,
  .driveLinkRetrain 24 0,
  .driveDmaRequest ⟨24, 0, false, 0, false, 0⟩,
  .driveCqEntry 24 0 0 false .media,
  .driveCqEntry 0 64 0 false .media,
  .driveCqEntry 0 0 65536 false .media,
  .doorbellTimer 24 0,
  .doorbellTimer 0 64,
  .driveResetRelease 24,
  .nonceReservationLive 48,
  .rotationSweepStep 24] : List Instr).all (fun i => !WellFormed i) = true := by decide
theorem test_wellFormed_refuses_6 : ([.sweepPositionRecord 24,
  .keyZeroise 24,
  .linkSignalDetect 3 0,
  .trainingFrame 3 0 ⟨false, 0, 0, 0, 0, 0, (0, 0, 0), false, false⟩ none (0, 0, 0, 0, false),
  .trainingFrame 0 16 ⟨false, 0, 0, 0, 0, 0, (0, 0, 0), false, false⟩ none (0, 0, 0, 0, false),
  .trainingFrame 0 0 ⟨false, 16, 0, 0, 0, 0, (0, 0, 0), false, false⟩ none (0, 0, 0, 0, false),
  .trainingFrame 0 0 ⟨false, 0, 0, 0, 0, 0, (0, 0, 0), false, false⟩ none (3, 0, 0, 0, false),
  .trainingFrame 0 0 ⟨false, 0, 0, 0, 0, 0, (0, 0, 0), false, false⟩ none (0, 3, 0, 0, false),
  .trainingFrame 0 0 ⟨false, 0, 0, 0, 0, 0, (0, 0, 0), false, false⟩ none (0, 0, 3, 0, false),
  .trainingFrame 0 0 ⟨false, 0, 0, 0, 0, 0, (0, 0, 0), false, false⟩ none (0, 0, 0, 4, false),
  .equaliseTimeout 3,
  .alignmentCodeword 3 0 false 0,
  .alignmentCodeword 0 16 false 0,
  .linkAlignTimeout 3,
  .configBlock 3 ⟨false, 0, 0, 0, 0, 0, 0, 0, false, false, 0, 0, 0, 0, 0, 0, 0, [], 0⟩,
  .configBlock 0 ⟨false, 0, 0, 0, 0, 16, 0, 0, false, false, 0, 0, 0, 0, 0, 0, 0, [], 0⟩,
  .linkRefuseRetry 3,
  .flitReceive 3 ⟨[], 0, 0, false, false, 0, false⟩,
  .flitReceive 0 ⟨[], 4096, 0, false, false, 0, false⟩,
  .replayTimeout 3,
  .laneFault 3 0,
  .laneFault 0 16,
  .heartbeatSend 3,
  .heartbeatReceive 3 ⟨0, 0, false, false, false, 0, 0, 0, 0, [], 0⟩,
  .heartbeatReceive 0 ⟨(2 ^ 32), 0, false, false, false, 0, 0, 0, 0, [], 0⟩,
  .heartbeatTimeout 3,
  .postmarkAckReceive (2 ^ 48),
  .shadowPacket (2 ^ 48) 0 false (.write (.budget 0)),
  .shadowPacket 0 2561 false (.write (.budget 0)),
  .mirrorWrite (2 ^ 48) 0 false ⟨0, 0, 0, 0, 0, 0, []⟩,
  .mirrorWrite 0 2561 false ⟨0, 0, 0, 0, 0, 0, []⟩,
  .mirrorWrite 0 0 false ⟨15728640, 0, 0, 0, 0, 0, []⟩,
  .mirrorState (2 ^ 48) 0 false [],
  .mirrorState 0 2561 false [],
  .forwardedFrame ⟨3, 0, 0, 0⟩ 0 0 none,
  .forwardedFrame ⟨0, 0, 0, 0⟩ 8 0 none,
  .forwardedFrame ⟨0, 0, 0, 0⟩ 0 32 none,
  .sessionResumeTimeout 3,
  .linkWiden 3,
  .leaseGrant ⟨(2 ^ 32), 0, 0, 0, false, 0⟩] : List Instr).all (fun i => !WellFormed i) = true := by decide
theorem test_wellFormed_refuses_7 : ([.leaseDeny ⟨(2 ^ 32), 0, 0, 0, false, 0⟩,
  .leaseAck ⟨(2 ^ 32), 0, 0, 0, false, 0⟩,
  .selfFaultDetect 256,
  .resyncPhaseDone 4 0,
  .helloSend 3,
  .helloReceive 5 ⟨0, 0, 0, 0, false, false, false, 0⟩,
  .helloReceive 0 ⟨0, 8, 0, 0, false, false, false, 0⟩,
  .helloTimeout 3,
  .dirUpdate ⟨3, 0, 0, 0⟩ false [] none [],
  .stackRecordMessage ⟨3, 0, 0, 0⟩ ⟨0, 0, 0, 0, []⟩,
  .stackRecordMessage ⟨0, 0, 0, 0⟩ ⟨0, 8, 0, 0, []⟩,
  .adminRequest ⟨3, 0, 0, 0⟩ 0 0 ⟨0, 0, 0, 0, []⟩,
  .adminRequest ⟨0, 0, 0, 0⟩ 8 0 ⟨0, 0, 0, 0, []⟩,
  .adminRequest ⟨0, 0, 0, 0⟩ 0 65536 ⟨0, 0, 0, 0, []⟩,
  .adminRequest ⟨0, 0, 0, 0⟩ 0 0 ⟨3, 0, 0, 0, []⟩,
  .adminReply ⟨3, 0, 0, 0⟩ 0 0 0,
  .adminReply ⟨0, 0, 0, 0⟩ 3 0 0,
  .forwardCommand ⟨3, 0, 0, 0⟩ ⟨0, 0, 0, 0, 0⟩ 0 0 0 .dsm ⟨0, 0, 0, 0, 0, false, 0, false, 0, 0, [], .none, false, 0, 0, false, 0, false, 0, 0, 0, 0, 0⟩,
  .forwardCommand ⟨0, 0, 0, 0⟩ ⟨8, 0, 0, 0, 0⟩ 0 0 0 .dsm ⟨0, 0, 0, 0, 0, false, 0, false, 0, 0, [], .none, false, 0, 0, false, 0, false, 0, 0, 0, 0, 0⟩,
  .forwardCommand ⟨0, 0, 0, 0⟩ ⟨0, 0, 0, 0, 0⟩ 8 0 0 .dsm ⟨0, 0, 0, 0, 0, false, 0, false, 0, 0, [], .none, false, 0, 0, false, 0, false, 0, 0, 0, 0, 0⟩,
  .forwardCommand ⟨0, 0, 0, 0⟩ ⟨0, 0, 0, 0, 0⟩ 0 2048 0 .dsm ⟨0, 0, 0, 0, 0, false, 0, false, 0, 0, [], .none, false, 0, 0, false, 0, false, 0, 0, 0, 0, 0⟩,
  .forwardCommand ⟨0, 0, 0, 0⟩ ⟨0, 0, 0, 0, 0⟩ 0 0 (2 ^ 128) .dsm ⟨0, 0, 0, 0, 0, false, 0, false, 0, 0, [], .none, false, 0, 0, false, 0, false, 0, 0, 0, 0, 0⟩,
  .forwardCommand ⟨0, 0, 0, 0⟩ ⟨0, 0, 0, 0, 0⟩ 0 0 0 .dsm ⟨65536, 0, 0, 0, 0, false, 0, false, 0, 0, [], .none, false, 0, 0, false, 0, false, 0, 0, 0, 0, 0⟩,
  .forwardDataRequest ⟨3, 0, 0, 0⟩ 0 ⟨0, 0, 0, 0, 0⟩,
  .forwardDataRequest ⟨0, 0, 0, 0⟩ 8 ⟨0, 0, 0, 0, 0⟩,
  .forwardDataRequest ⟨0, 0, 0, 0⟩ 0 ⟨8, 0, 0, 0, 0⟩,
  .forwardWriteData ⟨3, 0, 0, 0⟩ 0 ⟨0, 0, 0, 0, 0⟩ [],
  .forwardWriteData ⟨0, 0, 0, 0⟩ 8 ⟨0, 0, 0, 0, 0⟩ [],
  .forwardWriteData ⟨0, 0, 0, 0⟩ 0 ⟨8, 0, 0, 0, 0⟩ [],
  .forwardReadData ⟨3, 0, 0, 0⟩ 0 ⟨0, 0, 0, 0, 0⟩ 0,
  .forwardReadData ⟨0, 0, 0, 0⟩ 8 ⟨0, 0, 0, 0, 0⟩ 0,
  .forwardReadData ⟨0, 0, 0, 0⟩ 0 ⟨8, 0, 0, 0, 0⟩ 0,
  .forwardCompletion ⟨3, 0, 0, 0⟩ 0 ⟨0, 0, 0, 0, 0⟩ .piApp false,
  .forwardCompletion ⟨0, 0, 0, 0⟩ 8 ⟨0, 0, 0, 0, 0⟩ .piApp false,
  .forwardCompletion ⟨0, 0, 0, 0⟩ 0 ⟨8, 0, 0, 0, 0⟩ .piApp false,
  .forwardTimeout 262144,
  .firmwareOffer 3 0 0 [],
  .firmwareAnswer 3 0 false,
  .firmwareData 3 0 [],
  .firmwareEnd 3 0] : List Instr).all (fun i => !WellFormed i) = true := by decide
theorem test_wellFormed_refuses_8 : ([.firmwareResult ⟨3, 0, 0, 0⟩ 0 0,
  .firmwareResult ⟨0, 0, 0, 0⟩ 0 16,
  .memoryError ⟨16, 0, 0, 0, 0, 0, .none⟩,
  .selftestStart (2 ^ 32),
  .selftestComplete (2 ^ 32) ⟨false, 0, false, 0⟩,
  .triageTimeout (2 ^ 32),
  .idleScrubRead 12,
  .scrubRangeRead 8 0 0 0 0 none,
  .msixUnmask 10,
  .chctlEnable 8 0,
  .chctlDisable 8,
  .ringloWrite 8 false 0,
  .kick 8,
  .dmaDescriptorFetched 8 [],
  .dmaDescriptorPoll 8,
  .dmaRecordAvailable 8,
  .dmaFlushTimeout 8,
  .dmaBusError 16,
  .driveCstsReady 24,
  .keyCopiesErased 24,
  .thickCreationComplete (2 ^ 32),
  .creditStall 3 0,
  .creditStall 0 8] : List Instr).all (fun i => !WellFormed i) = true := by decide
theorem test_wellFormed_packet : Sys2Proof.Packet.ok ⟨0, 0, 0, 0, []⟩ = true ∧ ([⟨3, 0, 0, 0, []⟩, ⟨0, 256, 0, 0, []⟩, ⟨0, 0, 256, 0, []⟩] : List Packet).all (fun x => !Sys2Proof.Packet.ok x) = true := by decide
theorem test_wellFormed_datagram : Sys2Proof.Datagram.ok ⟨0, false, 0, 0, 0, false, false, 0, 0, 0, 0, 0, [], []⟩ = true ∧ ([⟨65536, false, 0, 0, 0, false, false, 0, 0, 0, 0, 0, [], []⟩, ⟨0, false, 65536, 0, 0, false, false, 0, 0, 0, 0, 0, [], []⟩, ⟨0, false, 0, 256, 0, false, false, 0, 0, 0, 0, 0, [], []⟩, ⟨0, false, 0, 0, 2, false, false, 0, 0, 0, 0, 0, [], []⟩, ⟨0, false, 0, 0, 0, false, false, 0, (2 ^ 64), 0, 0, 0, [], []⟩, ⟨0, false, 0, 0, 0, false, false, 0, 0, 65536, 0, 0, [], []⟩, ⟨0, false, 0, 0, 0, false, false, 0, 0, 0, 65536, 0, [], []⟩, ⟨0, false, 0, 0, 0, false, false, 0, 0, 0, 0, 8192, [], []⟩] : List Datagram).all (fun x => !Sys2Proof.Datagram.ok x) = true := by decide
theorem test_wellFormed_shareRec : Sys2Proof.ShareRec.ok ⟨0, 0, 0, 0, 0, 0, 0, false, 0, []⟩ = true ∧ ([⟨(2 ^ 24), 0, 0, 0, 0, 0, 0, false, 0, []⟩, ⟨0, (2 ^ 24), 0, 0, 0, 0, 0, false, 0, []⟩, ⟨0, 0, (2 ^ 24), 0, 0, 0, 0, false, 0, []⟩, ⟨0, 0, 0, (2 ^ 24), 0, 0, 0, false, 0, []⟩, ⟨0, 0, 0, 0, (2 ^ 24), 0, 0, false, 0, []⟩, ⟨0, 0, 0, 0, 0, (2 ^ 64), 0, false, 0, []⟩, ⟨0, 0, 0, 0, 0, 0, 128, false, 0, []⟩, ⟨0, 0, 0, 0, 0, 0, 0, false, 256, []⟩, ⟨0, 0, 0, 0, 0, 0, 0, false, 0, List.replicate 25 0⟩] : List ShareRec).all (fun x => !Sys2Proof.ShareRec.ok x) = true := by decide
theorem test_wellFormed_frame : Sys2Proof.Frame.ok ⟨0, 0, false, 0, false, 0, false, 0, 0, 0, .kumel, []⟩ = true ∧ ([⟨32, 0, false, 0, false, 0, false, 0, 0, 0, .kumel, []⟩, ⟨0, 0, false, (2 ^ 48), false, 0, false, 0, 0, 0, .kumel, []⟩, ⟨0, 0, false, 0, false, 4096, false, 0, 0, 0, .kumel, []⟩, ⟨0, 0, false, 0, false, 0, false, 8, 0, 0, .kumel, []⟩, ⟨0, 0, false, 0, false, 0, false, 0, 64, 0, .kumel, []⟩, ⟨0, 0, false, 0, false, 0, false, 0, 0, 4, .kumel, []⟩] : List Frame).all (fun x => !Sys2Proof.Frame.ok x) = true := by decide
theorem test_wellFormed_rocePkt : Sys2Proof.RocePkt.ok ⟨0, 0, false, false, false, 0, 0, false, 0, .invalid, []⟩ = true ∧ ([⟨32, 0, false, false, false, 0, 0, false, 0, .invalid, []⟩, ⟨0, (2 ^ 24), false, false, false, 0, 0, false, 0, .invalid, []⟩, ⟨0, 0, false, false, false, 64, 0, false, 0, .invalid, []⟩, ⟨0, 0, false, false, false, 0, (2 ^ 24), false, 0, .invalid, []⟩] : List RocePkt).all (fun x => !Sys2Proof.RocePkt.ok x) = true := by decide
theorem test_wellFormed_roceHead : Sys2Proof.RoceHead.ok ⟨0, 0, false, false, 0, []⟩ = true ∧ ([⟨32, 0, false, false, 0, []⟩, ⟨0, (2 ^ 24), false, false, 0, []⟩] : List RoceHead).all (fun x => !Sys2Proof.RoceHead.ok x) = true := by decide
theorem test_wellFormed_cmReq : Sys2Proof.CmReq.ok ⟨0, 0, false, 0, 0, 0, 0, 0, 0, 0, 0, 0, 0, 0, 0, 0⟩ = true ∧ ([⟨32, 0, false, 0, 0, 0, 0, 0, 0, 0, 0, 0, 0, 0, 0, 0⟩, ⟨0, (2 ^ 128), false, 0, 0, 0, 0, 0, 0, 0, 0, 0, 0, 0, 0, 0⟩, ⟨0, 0, false, 0, 0, 65536, 0, 0, 0, 0, 0, 0, 0, 0, 0, 0⟩, ⟨0, 0, false, 0, 0, 0, 65536, 0, 0, 0, 0, 0, 0, 0, 0, 0⟩, ⟨0, 0, false, 0, 0, 0, 0, 65536, 0, 0, 0, 0, 0, 0, 0, 0⟩, ⟨0, 0, false, 0, 0, 0, 0, 0, 65536, 0, 0, 0, 0, 0, 0, 0⟩, ⟨0, 0, false, 0, 0, 0, 0, 0, 0, 0, 0, (2 ^ 24), 0, 0, 0, 0⟩, ⟨0, 0, false, 0, 0, 0, 0, 0, 0, 0, 0, 0, (2 ^ 24), 0, 0, 0⟩, ⟨0, 0, false, 0, 0, 0, 0, 0, 0, 0, 0, 0, 0, 0, 8, 0⟩, ⟨0, 0, false, 0, 0, 0, 0, 0, 0, 0, 0, 0, 0, 0, 0, 8⟩] : List CmReq).all (fun x => !Sys2Proof.CmReq.ok x) = true := by decide
theorem test_wellFormed_tcpSeg : Sys2Proof.TcpSeg.ok ⟨0, 0, 0, 0, 0, false, false, false, 0, .none, [], 0, [], none, []⟩ = true ∧ ([⟨65536, 0, 0, 0, 0, false, false, false, 0, .none, [], 0, [], none, []⟩, ⟨0, 32, 0, 0, 0, false, false, false, 0, .none, [], 0, [], none, []⟩, ⟨0, 0, (2 ^ 32), 0, 0, false, false, false, 0, .none, [], 0, [], none, []⟩, ⟨0, 0, 0, 0, (2 ^ 32), false, false, false, 0, .none, [], 0, [], none, []⟩] : List TcpSeg).all (fun x => !Sys2Proof.TcpSeg.ok x) = true := by decide
theorem test_wellFormed_synIn : Sys2Proof.SynIn.ok ⟨0, false, 0, 0, 0, 0, 0, false, 0, 0, false, 0, none, none⟩ = true ∧ ([⟨32, false, 0, 0, 0, 0, 0, false, 0, 0, false, 0, none, none⟩, ⟨0, false, (2 ^ 128), 0, 0, 0, 0, false, 0, 0, false, 0, none, none⟩, ⟨0, false, 0, (2 ^ 128), 0, 0, 0, false, 0, 0, false, 0, none, none⟩, ⟨0, false, 0, 0, 65536, 0, 0, false, 0, 0, false, 0, none, none⟩, ⟨0, false, 0, 0, 0, 65536, 0, false, 0, 0, false, 0, none, none⟩, ⟨0, false, 0, 0, 0, 0, 4096, false, 0, 0, false, 0, none, none⟩, ⟨0, false, 0, 0, 0, 0, 0, false, (2 ^ 32), 0, false, 0, none, none⟩, ⟨0, false, 0, 0, 0, 0, 0, false, 0, 65536, false, 0, none, none⟩] : List SynIn).all (fun x => !Sys2Proof.SynIn.ok x) = true := by decide
theorem test_wellFormed_ioCmd : Sys2Proof.IoCmd.ok ⟨0, 0, 0, 0, 0, false, 0, false, 0, 0, [], .none, false, 0, 0, false, 0, false, 0, 0, 0, 0, 0⟩ = true ∧ ([⟨65536, 0, 0, 0, 0, false, 0, false, 0, 0, [], .none, false, 0, 0, false, 0, false, 0, 0, 0, 0, 0⟩, ⟨0, 65536, 0, 0, 0, false, 0, false, 0, 0, [], .none, false, 0, 0, false, 0, false, 0, 0, 0, 0, 0⟩, ⟨0, 0, (2 ^ 32), 0, 0, false, 0, false, 0, 0, [], .none, false, 0, 0, false, 0, false, 0, 0, 0, 0, 0⟩, ⟨0, 0, 0, (2 ^ 64), 0, false, 0, false, 0, 0, [], .none, false, 0, 0, false, 0, false, 0, 0, 0, 0, 0⟩, ⟨0, 0, 0, 0, 65537, false, 0, false, 0, 0, [], .none, false, 0, 0, false, 0, false, 0, 0, 0, 0, 0⟩, ⟨0, 0, 0, 0, 0, false, 0, false, 0, 64, [], .none, false, 0, 0, false, 0, false, 0, 0, 0, 0, 0⟩, ⟨0, 0, 0, 0, 0, false, 0, false, 16, 0, [], .none, false, 0, 0, false, 0, false, 0, 0, 0, 0, 0⟩] : List IoCmd).all (fun x => !Sys2Proof.IoCmd.ok x) = true := by decide
theorem test_wellFormed_connectReq : Sys2Proof.ConnectReq.ok ⟨0, 0, 0, 0, 0, 0, [], [], false, 0⟩ = true ∧ ([⟨65536, 0, 0, 0, 0, 0, [], [], false, 0⟩, ⟨0, 65536, 0, 0, 0, 0, [], [], false, 0⟩, ⟨0, 0, 65536, 0, 0, 0, [], [], false, 0⟩, ⟨0, 0, 0, 65536, 0, 0, [], [], false, 0⟩, ⟨0, 0, 0, 0, 65536, 0, [], [], false, 0⟩, ⟨0, 0, 0, 0, 0, (2 ^ 32), [], [], false, 0⟩, ⟨0, 0, 0, 0, 0, 0, [], [], false, (2 ^ 128)⟩] : List ConnectReq).all (fun x => !Sys2Proof.ConnectReq.ok x) = true := by decide
theorem test_wellFormed_nsCreate : Sys2Proof.NsCreate.ok ⟨0, 0, 0, 0, false⟩ = true ∧ ([⟨(2 ^ 64), 0, 0, 0, false⟩, ⟨0, (2 ^ 64), 0, 0, false⟩, ⟨0, 0, 16, 0, false⟩, ⟨0, 0, 0, 8, false⟩] : List NsCreate).all (fun x => !Sys2Proof.NsCreate.ok x) = true := by decide
theorem test_wellFormed_dmaReq : Sys2Proof.DmaReq.ok ⟨0, 0, false, 0, false, 0⟩ = true ∧ ([⟨24, 0, false, 0, false, 0⟩, ⟨0, (2 ^ 64), false, 0, false, 0⟩] : List DmaReq).all (fun x => !Sys2Proof.DmaReq.ok x) = true := by decide
theorem test_wellFormed_trainFrame : Sys2Proof.TrainFrame.ok ⟨false, 0, 0, 0, 0, 0, (0, 0, 0), false, false⟩ = true ∧ ([⟨false, 16, 0, 0, 0, 0, (0, 0, 0), false, false⟩, ⟨false, 0, 4, 0, 0, 0, (0, 0, 0), false, false⟩, ⟨false, 0, 0, 4, 0, 0, (0, 0, 0), false, false⟩, ⟨false, 0, 0, 0, 4, 0, (0, 0, 0), false, false⟩] : List TrainFrame).all (fun x => !Sys2Proof.TrainFrame.ok x) = true := by decide
theorem test_wellFormed_configBlk : Sys2Proof.ConfigBlk.ok ⟨false, 0, 0, 0, 0, 0, 0, 0, false, false, 0, 0, 0, 0, 0, 0, 0, [], 0⟩ = true ∧ ([⟨false, 0, 0, 0, 0, 16, 0, 0, false, false, 0, 0, 0, 0, 0, 0, 0, [], 0⟩, ⟨false, 0, 0, 0, 0, 0, 2, 0, false, false, 0, 0, 0, 0, 0, 0, 0, [], 0⟩, ⟨false, 0, 0, 0, 0, 0, 0, 8, false, false, 0, 0, 0, 0, 0, 0, 0, [], 0⟩, ⟨false, 0, 0, 0, 0, 0, 0, 0, false, false, (2 ^ 64), 0, 0, 0, 0, 0, 0, [], 0⟩, ⟨false, 0, 0, 0, 0, 0, 0, 0, false, false, 0, (2 ^ 64), 0, 0, 0, 0, 0, [], 0⟩, ⟨false, 0, 0, 0, 0, 0, 0, 0, false, false, 0, 0, 0, 0, 0, 65536, 0, [], 0⟩, ⟨false, 0, 0, 0, 0, 0, 0, 0, false, false, 0, 0, 0, 0, 0, 0, 4096, [], 0⟩] : List ConfigBlk).all (fun x => !Sys2Proof.ConfigBlk.ok x) = true := by decide
theorem test_wellFormed_flitIn : Sys2Proof.FlitIn.ok ⟨[], 0, 0, false, false, 0, false⟩ = true ∧ ([⟨[], 4096, 0, false, false, 0, false⟩, ⟨[], 0, 4096, false, false, 0, false⟩] : List FlitIn).all (fun x => !Sys2Proof.FlitIn.ok x) = true := by decide
theorem test_wellFormed_heartbeatIn : Sys2Proof.HeartbeatIn.ok ⟨0, 0, false, false, false, 0, 0, 0, 0, [], 0⟩ = true ∧ ([⟨(2 ^ 32), 0, false, false, false, 0, 0, 0, 0, [], 0⟩, ⟨0, 8, false, false, false, 0, 0, 0, 0, [], 0⟩, ⟨0, 0, false, false, false, 65536, 0, 0, 0, [], 0⟩, ⟨0, 0, false, false, false, 0, 0, (2 ^ 32), 0, [], 0⟩] : List HeartbeatIn).all (fun x => !Sys2Proof.HeartbeatIn.ok x) = true := by decide
theorem test_wellFormed_mirrorIn : Sys2Proof.MirrorIn.ok ⟨0, 0, 0, 0, 0, 0, []⟩ = true ∧ ([⟨15728640, 0, 0, 0, 0, 0, []⟩, ⟨0, 8192, 0, 0, 0, 0, []⟩, ⟨0, 0, 0, 0, 32, 0, []⟩, ⟨0, 0, 0, 0, 0, (2 ^ 40), []⟩] : List MirrorIn).all (fun x => !Sys2Proof.MirrorIn.ok x) = true := by decide
theorem test_wellFormed_witnessFrame : Sys2Proof.WitnessFrame.ok ⟨0, 0, 0, 0, false, 0⟩ = true ∧ ([⟨(2 ^ 32), 0, 0, 0, false, 0⟩, ⟨0, 65536, 0, 0, false, 0⟩, ⟨0, 0, 5, 0, false, 0⟩, ⟨0, 0, 0, 4, false, 0⟩] : List WitnessFrame).all (fun x => !Sys2Proof.WitnessFrame.ok x) = true := by decide
theorem test_wellFormed_hello : Sys2Proof.Hello.ok ⟨0, 0, 0, 0, false, false, false, 0⟩ = true ∧ ([⟨0, 8, 0, 0, false, false, false, 0⟩, ⟨0, 0, 2, 0, false, false, false, 0⟩, ⟨0, 0, 0, 8, false, false, false, 0⟩, ⟨0, 0, 0, 0, false, false, false, 65536⟩] : List Hello).all (fun x => !Sys2Proof.Hello.ok x) = true := by decide
theorem test_wellFormed_stackRec : Sys2Proof.StackRec.ok ⟨0, 0, 0, 0, []⟩ = true ∧ ([⟨0, 8, 0, 0, []⟩, ⟨0, 0, 256, 0, []⟩] : List StackRec).all (fun x => !Sys2Proof.StackRec.ok x) = true := by decide
theorem test_wellFormed_fwdHead : Sys2Proof.FwdHead.ok ⟨0, 0, 0, 0, 0⟩ = true ∧ ([⟨8, 0, 0, 0, 0⟩, ⟨0, 262144, 0, 0, 0⟩, ⟨0, 0, 64, 0, 0⟩] : List FwdHead).all (fun x => !Sys2Proof.FwdHead.ok x) = true := by decide
theorem test_wellFormed_memErr : Sys2Proof.MemErr.ok ⟨0, 0, 0, 0, 0, 0, .none⟩ = true ∧ ([⟨16, 0, 0, 0, 0, 0, .none⟩, ⟨0, 0, 0, 0, 32, 0, .none⟩, ⟨0, 0, 0, 0, 0, 4, .none⟩] : List MemErr).all (fun x => !Sys2Proof.MemErr.ok x) = true := by decide
theorem test_wellFormed_msgIn : Sys2Proof.MsgIn.ok ⟨0, 0, 0, 0⟩ = true ∧ ([⟨3, 0, 0, 0⟩, ⟨0, 16, 0, 0⟩, ⟨0, 0, 16, 0⟩] : List MsgIn).all (fun x => !Sys2Proof.MsgIn.ok x) = true := by decide
theorem test_wellFormed_registers : ([.lbctl 3, .lbstat 3, .bar0 1048576, .config 4096] : List RegTarget).all (fun x => !Sys2Proof.RegTarget.ok x) = true := by decide
theorem test_wellFormed_clocks : ([.lane 116, .txGroup 8, .dram 12] : List ClockId).all (fun x => !Sys2Proof.ClockId.ok x) = true := by decide
theorem test_wellFormed_packet_length : Sys2Proof.Packet.ok ⟨0, 0, 0, 0, List.replicate 4095 0⟩ = false := by simp only [Sys2Proof.Packet.ok, List.length_replicate]; decide

/-! ## States and operands that the witnesses use -/

/-- An Active module with its doors open, the lock at door 0. -/
def w0 : State := { md := { mode := .active, stage := .done, kumel := .running }, lb := { lock := some ⟨0, 60, 0⟩ } }
/-- The same in a mode. -/
def wm (m : Mode) : State := { md := { mode := m, stage := .done, kumel := .running }, lb := { lock := some ⟨0, 60, 0⟩ } }
/-- A packet of parameters at door 0. -/
def pk (ws : List Word) : Packet := { door := 0, flags := 0, pwc := ws.length, tag := 7, words := ws }
/-- A packet with `n` parameters and data at door 0. -/
def pkd (n : Nat) (ws : List Word) : Packet := { door := 0, flags := 0, pwc := n, tag := 7, words := ws }
/-- A module whose management Ethernet door holds key slot 0. -/
def dgS : State := { md := { mgmtLink := true }, lb := { k0 := { held := true } } }
/-- A request datagram with a right MAC. -/
def dgD (seq : Nat) : Datagram :=
  let d : Datagram := { bytes := 40, fragment := false, magic := 0x4C42, ver := 1, keyId := 0, ctlv := false, wait := false, ctl := 0, seq := seq, nwr := 0, nrd := 0, cnt := 0, words := [], mac := [] }
  { d with mac := Config.hmacSha256 [] d.covered }
/-- An Active module with the connection `x` in context 3. -/
def wc (x : Ctx) : State := { w0 with xpt := { ctxs := [(3, x)] }, nvm := { ctrls := [] } }
/-- A ready RDMA connection of generation 1. -/
def cx : Ctx := { st := .ready, resident := true, gen := 1, mtu := 4096, epsn := 5, npsn := 20, una := 10, sub := 9 }
/-- A request packet for context 3. -/
def rp (psn : Nat) (op : RoceOp) : RocePkt := ⟨0, 65539, true, true, false, 0, psn, true, 100, op, []⟩
/-- A ready TCP connection. -/
def tx : Ctx := { tcp := true, st := .ready, resident := true, mtu := 1448, rcvNxt := 50, sndNxt := 90, sndUna := 90, rwin := 256, icDone := true, sub := 9 }
/-- An Active module that listens on port 4420 at address 5 of logical port 0. -/
def wl : State := { w0 with xpt := { tports := 1, tv4 := true, plain := true }, net := { lports := [(0, { up := true, addrs := [(0, { ip := 5, mac := 1, vid := 0, tagged := false, ipv6 := false })] })] } }
/-- A SYN for it. -/
def sy : SynIn := ⟨0, false, 7, 5, 1000, 4420, 0, false, 99, 1460, false, 65535, none, none⟩
/-- The SYN table entry that it makes. -/
def se0 : SynEnt := ⟨7, 1000, 0, 4420, false, 5, 0, false, false, 1460, false, 65535, none, none, 1460, 1, 99, 0, 0⟩
/-- A namespace of four parcels attached to host entry 0. -/
def nx : Ns := { home := 0, lbaf := 2, pit := 0, enc := 0, thick := false, userResv := false, spread := false, size := 4, quota := 0, sets := [0], hosts := [0], salt := 0 }
/-- A mirror of two members. -/
def vx : VSet := { type := 1, width := 2, strip := 0, fmt := 0, tagzone := false, reserve := 0, setid := 7, stripes := 65536, st := .optimal, members := [(0, { slot := some 0 }), (1, { slot := some 1 })] }
/-- A host entry with every privilege. -/
def hx : HostEnt := { nqn := [5], enable := true, priv := 15, sub := 9 }
/-- Its controller. -/
def kx : Ctrl := { host := 0, hostId := 77, adminCtx := 3, src := 7, kato := 5000, kaAt := 0, en := true, rdy := true }
/-- An Active module with that controller: its admin queue in context 3, an I/O queue in context 4. -/
def wa : State := { w0 with xpt := { ctxs := [(3, { cx with ctrl := some 1 }), (4, { cx with ctrl := some 1, qid := 1 })] }, nvm := { nqn := some [6], hosts := [(0, hx)], ctrls := [(1, kx)] }, vol := { ns := [(1, nx)], sets := [(0, vx)] } }
/-- An I/O command of one block on the I/O queue. -/
def ic : IoCmd := ⟨4, 9, 1, 0, 1, false, 0, false, 0, 0, [], .keyed [(4096, 1, false)], false, 0, 0, false, 0, false, 0, 0, 0, 0, 0⟩
/-- A Connect of the I/O queue 2. -/
def cr : ConnectReq := ⟨4, 9, 2, 1, 31, 0, [5], [6], false, 77⟩
/-- A drive of 1 TiB with format 0. -/
def di : DriveInfo := ⟨0x1F3A, true, true, 268435456, some 0, 1024, true, true, true, [], [], 5⟩
/-- Two powered slots with ready drives. -/
def wd : State := { w0 with pwr := { slots := [(0, { state := .on }), (1, { state := .on })] }, drv := { ports := [(0, { st := .ready, info := some di }), (1, { st := .ready, info := some { di with serial := 6 } })] } }
/-- The identity record of member `m` of set `i`, of SETID 7. -/
def ir (i m : Nat) : IdRec := { set := i, type := 1, width := 2, strip := 0, fmt := 0, tagzone := false, member := m, mstate := 0, setid := 7, gen := 0, iseq := 0, stripes := 65536, initWm := 0, memberWm := 0, patWm := 0, creator := 0, driveIds := [], ejMask := 0, lastSlots := [] }
/-- A running module whose partner link is `l`. -/
def wk (l : Link) : State := { w0 with fe := { w0.fe with coreOn := true }, pins := { w0.pins with seated := true }, links := { links := [(0, l)] } }
/-- A CONFIG block of the partner in bay 1. -/
def cb : ConfigBlk := ⟨true, 0x48240C0F, 1, 1, 1, 1, 1, 0, false, true, 5, 6, 1, 0, 9, 65535, 0, [], 1⟩
/-- A plain frame. -/
def fr : Frame := ⟨0, 100, true, 5, false, 0, false, 0, 0, 0, .other, []⟩
/-- A running module whose pair desk is `p`. -/
def wq (p : Pair) : State := { w0 with clk := { w0.clk with now := 10 ^ 12 }, fe := { w0.fe with coreOn := true }, pins := { w0.pins with seated := true }, pair := p }
/-- A frame of the witness that answers frame 4. -/
def wf : WitnessFrame := ⟨3, 4, 0, 0, false, 0⟩
/-- A current standby that has placed two records. -/
def wr : State := { wk { st := .active } with md := { mode := .standby, stage := .done, kumel := .running }, pair := { rxOn := true, rxseq := 2 } }
/-- A stack of shelves 0 and 1. -/
def sr : StackRec := { stackid := 77, pos := 0, members := 3, gen := 4, serials := [(0, 5, 6), (1, 8, 9)] }
/-- Its master, with the DN link ACTIVE, and a message that comes by it. -/
def wt : State := { w0 with fe := { w0.fe with coreOn := true }, pins := { w0.pins with seated := true }, links := { links := [(2, { st := .active })] }, stk := { record := some sr } }
def mg : MsgIn := ⟨2, 0, 1, 10⟩
/-- The heading of a forwarded message. -/
def fh : FwdHead := ⟨1, 5, 2, 0, 4096⟩
/-- A started read. -/
def ck : Cmd := { cmd := ⟨.read, ic⟩, gen := 2, order := 1, sub := 9, cls := 5, epoch := 0, phase := .run }
/-- A header, and a session of a door that awaits its op words. -/
def hd0 : ExaelHead := { full := true, len := 64, fwver := 2, opwords := 2, dvmin := 0, dvmax := 9, orders := 3, keyslot := 0, base := [], target := [], words := [] }
def se : Session := { head := hd0, src := 0, rcvd := 0, ops := [], inOp := none, built := 0, ended := false, phase := 1, orig := none }
/-- A drive command of one block to slot 0. -/
def dc : DCmd := { slot := 0, set := 0, member := 0, stripe := 0, first := 0, write := false, lba := 0, n := 1, cls := 5, sub := 0, fua := false, data := [], use := .spent }

/-! ## Witnesses: for each statement, concrete states and operands that meet the hypotheses of each of its clauses -/

theorem witness_moduleCommandsComplete :
    (∃ (s : State) (p : Packet), taken 0x0000 0 0 p s = true)
    ∧ (∃ (s : State) (p : Packet), taken 0x0001 0 0 p s = true)
    ∧ (∃ (s : State) (p : Packet), taken 0x0002 0 0 p s = true)
    ∧ (∃ (s : State) (p : Packet), taken 0x0005 1 0 p s = true ∧ clean (mask 1 0) (p.w 2) = true)
    ∧ (∃ (s : State) (p : Packet), taken 0x0007 0 0 p s = true ∧ s.md.mode = .active)
    ∧ (∃ (s : State) (p : Packet), taken 0x0003 2 0 p s = true ∧ p.w 2 = 0 ∧ p.w 3 = 0x00004824 ∧ (s.arrived 0x0003 p).md.mode ≠ .active ∧ (s.arrived 0x0003 p).md.mode ≠ .drowse)
    ∧ (∃ (s : State) (p : Packet), taken 0x0004 1 0 p s = true ∧ clean (mask 0 0) (p.w 2) = true ∧ ((s.arrived 0x0004 p).md.mode = .standby ∨ (s.arrived 0x0004 p).md.mode = .fenced))
    ∧ (∃ (s : State) (p : Packet), taken 0x0004 1 0 p s = true ∧ p.w 2 = 1 ∧ (s.arrived 0x0004 p).md.mode = .active)
    ∧ (∃ (s : State) (p : Packet), taken 0x0006 0 0 p s = true ∧ dataMoving (s.arrived 0x0006 p) = false ∧ (s.arrived 0x0006 p).md.admitStop = false) :=
  ⟨⟨w0, pk [], by decide⟩,
   ⟨w0, pk [], by decide⟩,
   ⟨w0, pk [], by decide⟩,
   ⟨w0, pk [3], by decide⟩,
   ⟨w0, pk [], by decide⟩,
   ⟨wm .standby, pk [0, 0x4824], by decide⟩,
   ⟨wm .standby, pk [0], by decide⟩,
   ⟨w0, pk [1], by decide⟩,
   ⟨w0, pk [], by decide⟩⟩
theorem witness_seatingAndFeedsComplete :
    (∃ (s : State), s.pins.seated = false ∧ s.fe.latch = .none ∧ s.fe.charged = true ∧ s.fe.leverOpen = false ∧ s.fe.holdup = false ∧ s.th.shutdown = false)
    ∧ (∃ (s : State), s.pins.seated = false ∧ s.fe.latch = .none ∧ s.fe.charged = true ∧ s.fe.leverOpen = false ∧ s.fe.holdup = false ∧ s.th.shutdown = false)
    ∧ (∃ (s : State), s.pins.seated = false ∧ s.fe.latch = .none ∧ s.fe.charged = true ∧ s.fe.leverOpen = true ∧ s.bay.sampled = true ∧ s.fe.holdup = false ∧ s.th.shutdown = false)
    ∧ (∃ (s : State), s.pins.seated = false ∧ s.fe.latch ≠ .tripped ∧ (s.fe.holdup = true ∨ s.th.shutdown = true))
    ∧ (∃ (s : State), s.pins.seated = true)
    ∧ (∃ (s : State) (k mv : Nat), (s.feed k).good = false ∧ 10600 ≤ mv ∧ feedNo k = true ∧ s.fe.latch = .none ∧ s.fe.holdup = false ∧ s.fe.charged = false)
    ∧ (∃ (k mv : Nat), feedNo k = true ∧ mv < 10800)
    ∧ (∃ (s : State) (k mv : Nat), feedNo k = true ∧ (s.feed k).good = true ∧ mv < 10200)
    ∧ (∃ (s : State) (k mv : Nat), feedNo k = true ∧ (s.feed k).ov = false ∧ 13800 < mv)
    ∧ (∃ (s : State) (k mv : Nat), feedNo k = true ∧ (s.feed k).ov = true ∧ mv < 13500)
    ∧ (∃ (s : State), s.fe.charged = true ∧ s.fe.latch ≠ .tripped) :=
  ⟨⟨{ fe := { charged := true } }, by decide⟩,
   ⟨{ fe := { charged := true } }, by decide⟩,
   ⟨{ fe := { charged := true, leverOpen := true }, bay := { sampled := true } }, by decide⟩,
   ⟨{ fe := { holdup := true } }, by decide⟩,
   ⟨{ pins := { seated := true } }, by decide⟩,
   ⟨{}, 1, 11000, by decide⟩,
   ⟨1, 10700, by decide⟩,
   ⟨{ fe := { f1 := { good := true } } }, 1, 9000, by decide⟩,
   ⟨{}, 2, 14000, by decide⟩,
   ⟨{ fe := { f1 := { ov := true } } }, 1, 12000, by decide⟩,
   ⟨{ fe := { charged := true } }, by decide⟩⟩
theorem witness_chargeHoldupReserveComplete :
    (∃ (s : State), s.fe.charging = true)
    ∧ (∃ (s : State), s.fe.charging = true)
    ∧ (∃ (s : State), s.fe.latch = .chargeRetry ∧ due s.fe.retryDue s.clk.aon = true)
    ∧ (∃ (s : State), (s.fe.latch = .tripped ∨ s.fe.latch = .chargeOff))
    ∧ (∃ (s : State), s.fe.holdup = true ∧ someGood s = true ∧ s.fe.latch = .none)
    ∧ (∃ (s : State), s.fe.holdup = true ∧ someGood s = false)
    ∧ (∃ (s : State) (j : Nat), 110 ≤ j ∧ s.res.ready = false)
    ∧ (∃ (s : State) (j : Nat), 110 ≤ j ∧ s.res.ready = true)
    ∧ (∃ (s : State), s.res.waiting = true ∧ s.md.mode = .boot ∧ s.md.bootAt + 20 * sec ≤ s.clk.now)
    ∧ (∃ (s : State) (j : Nat), testDue (setCharge j s) = true ∧ 130 ≤ j)
    ∧ (∃ (s : State) (j : Nat), testDue (setCharge j s) = false)
    ∧ (∃ (j : Nat), j < 130)
    ∧ (∃ (s : State), s.res.testing = true)
    ∧ (∃ (j : Nat), j < 110) :=
  ⟨⟨{ fe := { charging := true } }, by decide⟩,
   ⟨{ fe := { charging := true } }, by decide⟩,
   ⟨{ fe := { latch := .chargeRetry } }, by decide⟩,
   ⟨{ fe := { latch := .tripped } }, by decide⟩,
   ⟨{ fe := { holdup := true, f1 := { good := true } } }, by decide⟩,
   ⟨{ fe := { holdup := true } }, by decide⟩,
   ⟨{}, 120, by decide⟩,
   ⟨{ res := { ready := true } }, 120, by decide⟩,
   ⟨{ res := { waiting := true }, clk := { now := 20000000000 } }, by decide⟩,
   ⟨{ res := { charger := true, ready := true } }, 140, by decide⟩,
   ⟨{ res := { charger := true, ready := true, testing := true } }, 140, by decide⟩,
   ⟨100, by decide⟩,
   ⟨{ res := { testing := true } }, by decide⟩,
   ⟨50, by decide⟩⟩
theorem witness_heatClocksComplete :
    (∃ (s : State) (tj : BitVec 16), s.th.armed = true ∧ 800 ≤ tj.toInt)
    ∧ (∃ (s : State) (tj : BitVec 16), 920 < tj.toInt ∧ s.th.shutdown = false ∧ s.fe.coreOn = true)
    ∧ (∃ (s : State) (tj : BitVec 16), s.th.shutdown = true ∧ tj.toInt < 720) :=
  ⟨⟨{}, 800, by decide⟩,
   ⟨{ fe := { coreOn := true } }, 921, by decide⟩,
   ⟨{ th := { shutdown := true } }, 719, by decide⟩⟩
theorem witness_bootStagesComplete :
    (∃ (s : State), s.md.mode = .boot ∧ s.md.stage = .alwaysOn ∧ s.bay.ok = true ∧ s.fe.coreOn = true)
    ∧ (∃ (s : State), s.md.mode = .boot ∧ s.md.stage = .rails)
    ∧ (∃ (s : State), s.md.mode = .boot ∧ s.md.stage = .flash)
    ∧ (∃ (s : State), s.md.mode = .boot ∧ s.md.stage = .selftest)
    ∧ (∃ (s : State), s.md.mode = .boot ∧ s.md.stage = .dram)
    ∧ (∃ (s : State), s.md.mode = .boot ∧ s.step6 = true ∧ s.md.bootAt + 40 * sec ≤ s.clk.now)
    ∧ (∃ (s : State) (m : Mode), s.md.mode = .boot ∧ s.step6 = true ∧ s.md.resWaitOver = true ∧ bootOutcome s = some m)
    ∧ (∃ (s : State), s.md.mode = .boot ∧ s.step6 = true ∧ bootOutcome s = none ∧ s.md.bootAt + (if s.md.dramBoot then 105 else 45) * sec ≤ s.clk.now)
    ∧ (∃ (s : State), s.md.entropyBad = false) :=
  ⟨⟨{ bay := { valid := true }, fe := { coreOn := true } }, by decide⟩,
   ⟨{ md := { stage := .rails } }, by decide⟩,
   ⟨{ md := { stage := .flash } }, by decide⟩,
   ⟨{ md := { stage := .selftest } }, by decide⟩,
   ⟨{ md := { stage := .dram } }, by decide⟩,
   ⟨{ md := { stage := .enum }, clk := { now := 40000000000 } }, by decide⟩,
   ⟨{ md := { stage := .kumel, resWaitOver := true, maintBoot := true } }, .maintenance, by decide⟩,
   ⟨{ md := { stage := .kumel }, clk := { now := 45000000000 } }, by decide⟩,
   ⟨{}, by decide⟩⟩
theorem witness_drowseAndWatchdogComplete :
    (∃ (s : State), s.md.drowse = .quiesce ∧ s.md.mode = .active ∧ quiescent s = true ∧ s.md.quietAt + 10 * ms ≤ s.clk.now)
    ∧ (∃ (s : State), s.md.drowse = .drivesLow ∧ s.md.mode = .active)
    ∧ (∃ (s : State), s.md.drowse = .quiesce ∧ s.md.drowseAt + 10 * sec ≤ s.clk.now)
    ∧ (∃ (s : State), s.md.mode = .drowse ∧ s.md.drowse ≠ .exiting)
    ∧ (∃ (s : State), s.md.mode = .drowse ∧ s.md.drowse = .exiting)
    ∧ (∃ (s : State), s.md.kumel = .running)
    ∧ (∃ (s : State), s.md.kumel = .restarting) :=
  ⟨⟨{ md := { mode := .active, drowse := .quiesce }, clk := { now := 10000000 } }, by decide⟩,
   ⟨{ md := { mode := .active, drowse := .drivesLow } }, by decide⟩,
   ⟨{ md := { mode := .active, drowse := .quiesce }, clk := { now := 10000000000 } }, by decide⟩,
   ⟨wm .drowse, by decide⟩,
   ⟨{ md := { mode := .drowse, drowse := .exiting } }, by decide⟩,
   ⟨w0, by decide⟩,
   ⟨{ md := { kumel := .restarting } }, by decide⟩⟩
theorem witness_doorRegistersComplete :
    (∃ (s : State) (d : Nat) (al : Bool) (w : Word), doorOpen s d = true ∧ (d = 1 → al = true) ∧ ((s.door d).st = .idle ∨ (s.door d).st = .reply) ∧ 2 ≤ bits 12 0 w ∧ bits 12 0 w ≤ 4096)
    ∧ (∃ (s : State) (d : Nat) (al : Bool), doorOpen s d = true ∧ (d = 1 → al = true) ∧ (s.door d).st = .filling)
    ∧ (∃ (s : State) (d : Nat) (al : Bool) (w : Word) (ws : List Word), doorOpen s d = true ∧ (d = 1 → al = true) ∧ (s.door d).st = .reply ∧ (s.door d).reply = w :: ws)
    ∧ (∃ (s : State) (d : Nat) (al : Bool), doorOpen s d = true ∧ (d = 1 → al = true) ∧ (s.door d).st = .busy)
    ∧ (∃ (s : State) (d : Nat) (al : Bool), doorOpen s d = true ∧ (d = 1 → al = true) ∧ ((s.door d).st = .filling ∨ (s.door d).st = .reply ∨ (s.door d).st = .error))
    ∧ (∃ (s : State) (d : Nat), d < 3 ∧ (s.door d).st = .filling ∧ (s.door d).lastWr + sec ≤ s.clk.now)
    ∧ (∃ (s : State) (d : Nat) (al : Bool) (w : Word), doorOpen s d = true ∧ (d = 1 → al = true) ∧ bit 0 w = false)
    ∧ (∃ (s : State), s.se.link = true)
    ∧ (∃ (s : State), s.se.link = true) :=
  ⟨⟨{ se := { link := true } }, 1, true, 7, by decide⟩,
   ⟨{ se := { link := true }, lb := { d1 := { st := .filling, expect := 2 } } }, 1, true, by decide⟩,
   ⟨{ se := { link := true }, lb := { d1 := { st := .reply, reply := [1, 2] } } }, 1, true, 1, [2], by decide⟩,
   ⟨{ se := { link := true }, lb := { d1 := { st := .busy } } }, 1, true, by decide⟩,
   ⟨{ se := { link := true }, lb := { d1 := { st := .error } } }, 1, true, by decide⟩,
   ⟨{ clk := { now := 1000000000 }, lb := { d2 := { st := .filling } } }, 2, by decide⟩,
   ⟨{ md := { mgmtLink := true } }, 2, true, 0x300, by decide⟩,
   ⟨{ se := { link := true, busErr := true } }, by decide⟩,
   ⟨{ se := { link := true } }, by decide⟩⟩
theorem witness_doorToDeskComplete :
    (∃ (s : State) (d op : Nat) (p : Packet) (st : Nat) (ws : List Word), doorPacket s d = some (op, p) ∧ preCheck op p (onDoor d (fun x => { x with buf := [] }) (touchLock d (count1 (16 + d) s))) = some (st, ws))
    ∧ (∃ (s : State) (d op : Nat) (p : Packet) (r : CatRow), doorPacket s d = some (op, p) ∧ preCheck op p (onDoor d (fun x => { x with buf := [] }) (touchLock d (count1 (16 + d) s))) = none ∧ catRow op = some r ∧ s.md.mode ≠ .drowse)
    ∧ (∃ (s : State) (d : Nat) (e : DeskEntry), s.md.kumel = .running ∧ s.lb.inbox.find? (backlogged d) = some e)
    ∧ (∃ (s : State) (d : Nat) (e : DeskEntry), s.lb.inbox.find? (backlogged d) = some e)
    ∧ (∃ (s : State) (d : Nat) (r : DeskReply), s.lb.replies.find? (fun r => r.door = d) = some r ∧ r.orphan = false ∧ (s.door d).discard = false ∧ (s.door d).st = .busy)
    ∧ (∃ (s : State) (d : Nat) (r : DeskReply), s.lb.replies.find? (fun r => r.door = d) = some r ∧ r.orphan = false ∧ (s.door d).discard = true)
    ∧ (∃ (s : State) (d : Nat) (tag : Word) (ws : List Word), s.lb.mgmtNew = some (d, tag, ws))
    ∧ (∃ (s : State) (l : Lock), s.lb.lock = some l ∧ l.last + l.span * sec ≤ s.clk.now) :=
  ⟨⟨{ lb := { d0 := { st := .busy, buf := [0x30000, 7] } } }, 0, 3, { door := 0, flags := 0, pwc := 0, tag := 7, words := [] }, 0x10, [1000], by decide⟩,
   ⟨{ lb := { d0 := { st := .busy, buf := [0, 7] } }, md := { mode := .active } }, 0, 0x0, { door := 0, flags := 0, pwc := 0, tag := 7, words := [] }, ⟨0x0000, false, false, .any, .final, false⟩, by decide⟩,
   ⟨{ md := { kumel := .running }, lb := { inbox := [⟨1, 7, 3, 0, [], false, false⟩] } }, 1, ⟨1, 7, 3, 0, [], false, false⟩, by decide⟩,
   ⟨{ lb := { inbox := [⟨1, 7, 3, 0, [], false, false⟩] } }, 1, ⟨1, 7, 3, 0, [], false, false⟩, by decide⟩,
   ⟨{ lb := { d1 := { st := .busy }, replies := [⟨1, 7, 0, [5], false⟩] } }, 1, ⟨1, 7, 0, [5], false⟩, by decide⟩,
   ⟨{ lb := { d1 := { st := .busy, discard := true }, replies := [⟨1, 7, 0, [5], false⟩] } }, 1, ⟨1, 7, 0, [5], false⟩, by decide⟩,
   ⟨{ lb := { mgmtNew := some (0, 7, [1, 2, 3]) } }, 0, 7, [1, 2, 3], by decide⟩,
   ⟨{ clk := { now := 60000000000 }, lb := { lock := some ⟨0, 60, 0⟩ } }, ⟨0, 60, 0⟩, by decide⟩⟩
theorem witness_transportsComplete :
    (∃ (s : State) (n : Nat) (ws : List Word), s.bay.valid = true ∧ n % 4 = 0 ∧ 4 ≤ n ∧ n ≤ 252 ∧ ws.length * 4 = n)
    ∧ (∃ (s : State), s.bay.valid = true)
    ∧ (∃ (s : State), s.bay.valid = true ∧ s.lb.d0.st = .reply)
    ∧ (∃ (s : State), s.bay.valid = true ∧ s.lb.d0.alert = true ∧ (s.lb.d0.evLvl = true ∨ s.lb.d0.rpLvl = true))
    ∧ (∃ (s : State) (d : Datagram), s.md.mgmtLink = true ∧ s.lb.wait = none ∧ overRate s = false ∧ (s.doorKey d.keyId).held = true ∧ d.malformed = false ∧ Config.hmacSha256 (s.doorKey d.keyId).key d.covered = d.mac ∧ (s.doorKey d.keyId).last < d.seq)
    ∧ (∃ (s : State) (d : Datagram), s.md.mgmtLink = true ∧ s.lb.wait = none ∧ overRate s = false ∧ (s.doorKey d.keyId).held = true ∧ d.malformed = false ∧ Config.hmacSha256 (s.doorKey d.keyId).key d.covered = d.mac ∧ d.seq = (s.doorKey d.keyId).last)
    ∧ (∃ (s : State) (w : WaitDgram), s.lb.wait = some w ∧ (s.lb.d2.st ≠ .busy ∨ w.due ≤ s.clk.now)) :=
  ⟨⟨{ bay := { valid := true } }, 4, [1], by decide⟩,
   ⟨{ bay := { valid := true } }, by decide⟩,
   ⟨{ bay := { valid := true }, lb := { d0 := { st := .reply, reply := [1, 2] } } }, by decide⟩,
   ⟨{ bay := { valid := true }, lb := { d0 := { alert := true, evLvl := true } } }, by decide⟩,
   ⟨dgS, dgD 5, ⟨by decide, by decide, by decide, by decide, by decide, rfl, by decide⟩⟩,
   ⟨dgS, dgD 0, ⟨by decide, by decide, by decide, by decide, by decide, rfl, by decide⟩⟩,
   ⟨{ lb := { wait := some ⟨1, 0, 0, 5⟩ } }, ⟨1, 0, 0, 5⟩, by decide⟩⟩
theorem witness_lockAndEventCommandsComplete :
    (∃ (s : State) (p : Packet), taken 0x0010 2 0 p s = true ∧ clean (mask 11 0 ||| mask 16 16) (p.w 2) = true ∧ 1 ≤ bits 11 0 (p.w 2) ∧ bits 11 0 (p.w 2) ≤ 3600 ∧ p.w 3 = (if bit 16 (p.w 2) then 0x00004824 else 0) ∧ (s.lb.lock = none ∨ s.lockHolder = p.door))
    ∧ (∃ (s : State) (p : Packet) (l : Lock), taken 0x0010 2 0 p s = true ∧ clean (mask 11 0 ||| mask 16 16) (p.w 2) = true ∧ 1 ≤ bits 11 0 (p.w 2) ∧ bits 11 0 (p.w 2) ≤ 3600 ∧ p.w 3 = (if bit 16 (p.w 2) then 0x00004824 else 0) ∧ (s.counted p).lb.lock = some l ∧ l.door ≠ p.door)
    ∧ (∃ (s : State) (p : Packet), taken 0x0011 0 0 p s = true)
    ∧ (∃ (s : State) (p : Packet), taken 0x0012 1 0 p s = true ∧ clean (mask 1 0) (p.w 2) = true ∧ bits 1 0 (p.w 2) < 3)
    ∧ (∃ (s : State) (p : Packet), taken 0x0013 1 0 p s = true ∧ clean (mask 5 0) (p.w 2) = true ∧ 1 ≤ bits 5 0 (p.w 2) ∧ bits 5 0 (p.w 2) ≤ 32)
    ∧ (∃ (s : State) (p : Packet), taken 0x0014 3 0 p s = true ∧ clean (mask 3 0) (p.w 2) = true)
    ∧ (∃ (s : State) (p : Packet) (k : Nat), taken 0x0015 2 8 p s = true ∧ p.w 2 = 8 ∧ clean (mask 0 0 ||| mask 9 8) (p.w 3) = true ∧ bit 8 (p.w 3) = false ∧ bit 9 (p.w 3) = false ∧ bits 0 0 (p.w 3) = k ∧ (p.door ≠ 2 ∨ (s.arrived 0x0015 p).lb.authKey ≠ k))
    ∧ (∃ (s : State) (p : Packet) (k : Nat) (kek : List Word), taken 0x0015 2 10 p s = true ∧ p.w 2 = 10 ∧ clean (mask 0 0 ||| mask 9 8) (p.w 3) = true ∧ bit 8 (p.w 3) = true ∧ bit 9 (p.w 3) = false ∧ bits 0 0 (p.w 3) = k ∧ (s.arrived 0x0015 p).order ≠ 2 ∧ (s.arrived 0x0015 p).key.kek = some kek ∧ (p.door ≠ 2 ∨ (s.arrived 0x0015 p).lb.authKey ≠ k))
    ∧ (∃ (s : State) (p : Packet) (k : Nat), taken 0x0015 2 0 p s = true ∧ p.w 2 = 0 ∧ clean (mask 0 0 ||| mask 9 8) (p.w 3) = true ∧ bit 9 (p.w 3) = true ∧ (bit 8 (p.w 3) = false ∨ (s.arrived 0x0015 p).order ≠ 2) ∧ bits 0 0 (p.w 3) = k ∧ (p.door ≠ 2 ∨ (s.arrived 0x0015 p).lb.authKey ≠ k))
    ∧ (∃ (s : State) (p : Packet), taken 0x0016 7 0 p s = true ∧ clean (mask 1 0 ||| mask 13 8 ||| mask 23 16) (p.w 2) = true ∧ bits 13 8 (p.w 2) ≤ 32 ∧ bits 23 16 (p.w 2) ≤ 128) :=
  ⟨⟨w0, pk [5, 0], by decide⟩,
   ⟨{ lb := { lock := some ⟨1, 60, 0⟩ }, md := w0.md }, pk [0x10005, 0x4824], ⟨1, 60, 0⟩, by decide⟩,
   ⟨w0, pk [], by decide⟩,
   ⟨w0, pk [1], by decide⟩,
   ⟨w0, pk [4], by decide⟩,
   ⟨w0, pk [1, 2, 3], by decide⟩,
   ⟨w0, pkd 2 [8, 1, 1, 2, 3, 4, 5, 6, 7, 8], 1, by decide⟩,
   ⟨{ w0 with key := { kek := some [1] } }, pkd 2 ([10, 0x101] ++ List.replicate 10 3), 1, [1], by decide⟩,
   ⟨w0, pk [0, 0x201], 1, by decide⟩,
   ⟨w0, pk [0, 1, 2, 3, 4, 5, 6], by decide⟩⟩
theorem witness_endpointComplete :
    (∃ (s : State), s.se.link = false)
    ∧ (∃ (s : State), s.se.link = true)
    ∧ (∃ (s : State), s.se.link = true ∧ s.se.bme = true)
    ∧ (∃ (s : State), s.se.link = true)
    ∧ (∃ (s : State), s.se.link = false)
    ∧ (∃ (s : State), s.se.link = true ∧ s.se.d3 = false)
    ∧ (∃ (s : State), s.se.link = true)
    ∧ (∃ (s : State) (v : Nat), s.se.link = true ∧ v < 10)
    ∧ (∃ (s : State), s.se.link = true) :=
  ⟨⟨{}, by decide⟩,
   ⟨{ se := { link := true } }, by decide⟩,
   ⟨{ se := { link := true, bme := true } }, by decide⟩,
   ⟨{ se := { link := true } }, by decide⟩,
   ⟨{}, by decide⟩,
   ⟨{ se := { link := true } }, by decide⟩,
   ⟨{ se := { link := true } }, by decide⟩,
   ⟨{ se := { link := true } }, 9, by decide⟩,
   ⟨{ se := { link := true } }, by decide⟩⟩
theorem witness_serviceDmaComplete :
    (∃ (s : State) (c : Nat), c < 8 ∧ s.se.link = true ∧ (s.chan c).st = .off)
    ∧ (∃ (s : State) (c : Nat), (s.chan c).active = false ∧ (s.chan c).ringOk = true ∧ (s.chan c).src ≠ 0 ∧ srcTaken (onChan c (fun x => { x with en := true }) s) c = false ∧ s.se.busErr = false ∧ s.se.bme = true ∧ s.se.d3 = false)
    ∧ (∃ (s : State) (c : Nat), c < 8 ∧ s.se.link = true ∧ (s.chan c).active = true ∧ (s.chan c).desc = none)
    ∧ (∃ (s : State) (c : Nat), c < 8 ∧ s.se.link = true ∧ (s.chan c).active = false)
    ∧ (∃ (s : State) (c : Nat), c < 8 ∧ s.se.link = true ∧ (s.chan c).st = .waiting)
    ∧ (∃ (s : State) (c : Nat) (ws : List Word), c < 8 ∧ (s.chan c).fetch = true ∧ (s.chan c).active = true ∧ bit 31 (wordAt ws 2) = false ∧ s.se.link = true)
    ∧ (∃ (s : State) (c : Nat) (ws : List Word), c < 8 ∧ (s.chan c).fetch = true ∧ (s.chan c).active = true ∧ bit 31 (wordAt ws 2) = true ∧ 4096 ≤ bits 20 0 (wordAt ws 2) ∧ bits 20 0 (wordAt ws 2) ≤ 1048576 ∧ bits 20 0 (wordAt ws 2) % 64 = 0 ∧ bits 5 0 (wordAt ws 0) = 0 ∧ s.se.link = true)
    ∧ (∃ (s : State) (c : Nat), c < 8 ∧ (s.chan c).st = .waiting ∧ (s.chan c).pollAt ≤ s.clk.now)
    ∧ (∃ (s : State) (c id : Nat) (ws : List Word) (d : OpenDesc), c < 8 ∧ (s.chan c).active = true ∧ (s.chan c).desc = some d ∧ nextRecord s c d = some (id, ws) ∧ d.used + 4 * (ws.length + 1) ≤ d.len)
    ∧ (∃ (s : State) (c id : Nat) (ws : List Word) (d : OpenDesc), c < 8 ∧ (s.chan c).active = true ∧ (s.chan c).desc = some d ∧ nextRecord s c d = some (id, ws) ∧ d.len < d.used + 4 * (ws.length + 1))
    ∧ (∃ (s : State) (c t0 : Nat) (d : OpenDesc), c < 8 ∧ (s.chan c).active = true ∧ (s.chan c).desc = some d ∧ d.first = some t0 ∧ t0 + max 1 (s.chan c).flush * ms ≤ s.clk.now)
    ∧ (∃ (s : State), s.se.link = true)
    ∧ (∃ (s : State), (activeChans s).any (fun c => (s.chan c).fetch && due ((s.chan c).fetchAt + 50 * ms) s.clk.now) = true) :=
  ⟨⟨{ se := { link := true } }, 7, by decide⟩,
   ⟨{ se := { bme := true, chans := [(2, { log2n := 5, src := 3 })] } }, 2, by decide⟩,
   ⟨{ se := { link := true, chans := [(2, { st := .running })] } }, 2, by decide⟩,
   ⟨{ se := { link := true } }, 7, by decide⟩,
   ⟨{ se := { link := true, chans := [(2, { st := .waiting })] } }, 2, by decide⟩,
   ⟨{ se := { link := true, chans := [(2, { st := .running, fetch := true })] } }, 2, [0, 0, 0], by decide⟩,
   ⟨{ se := { link := true, chans := [(2, { st := .running, fetch := true })] } }, 2, [0, 0, 0x80001000], by decide⟩,
   ⟨{ se := { chans := [(2, { st := .waiting })] } }, 2, by decide⟩,
   ⟨{ se := { chans := [(2, { st := .running, src := 1, desc := some ⟨0, 4096, false, 0, [], none⟩ })] }, lb := { d1 := { evq := [⟨1, 0, false, 0, 0, 0, 0⟩] } } }, 2, 1, EvRec.toWords ⟨1, 0, false, 0, 0, 0, 0⟩, ⟨0, 4096, false, 0, [], none⟩, by decide⟩,
   ⟨{ se := { chans := [(2, { st := .running, src := 1, desc := some ⟨0, 4, false, 0, [], none⟩ })] }, lb := { d1 := { evq := [⟨1, 0, false, 0, 0, 0, 0⟩] } } }, 2, 1, EvRec.toWords ⟨1, 0, false, 0, 0, 0, 0⟩, ⟨0, 4, false, 0, [], none⟩, by decide⟩,
   ⟨{ clk := { now := 5000000 }, se := { chans := [(2, { st := .running, desc := some ⟨0, 4096, false, 0, [], some 0⟩ })] } }, 2, 0, ⟨0, 4096, false, 0, [], some 0⟩, by decide⟩,
   ⟨{ se := { link := true } }, by decide⟩,
   ⟨{ clk := { now := 50000000 }, se := { chans := [(2, { st := .running, fetch := true })] } }, by decide⟩⟩
theorem witness_countersComplete :
    (∃ (s : State) (p : Packet), taken 0x0F01 2 0 p s = true ∧ clean (mask 12 0 ||| mask 16 16) (p.w 2) = true ∧ bit 16 (p.w 2) = false ∧ clean (mask 6 0) (p.w 3) = true ∧ 1 ≤ bits 6 0 (p.w 3) ∧ bits 6 0 (p.w 3) ≤ 64 ∧ bits 12 0 (p.w 2) + bits 6 0 (p.w 3) ≤ 8192)
    ∧ (∃ (s : State) (p : Packet), taken 0x0F01 2 0 p s = true ∧ clean (mask 12 0 ||| mask 16 16) (p.w 2) = true ∧ bit 16 (p.w 2) = true ∧ (s.arrived 0x0F01 p).tal.sseq ≠ 0 ∧ clean (mask 6 0) (p.w 3) = true ∧ 1 ≤ bits 6 0 (p.w 3) ∧ bits 6 0 (p.w 3) ≤ 64 ∧ bits 12 0 (p.w 2) + bits 6 0 (p.w 3) ≤ 8192)
    ∧ (∃ (s : State) (p : Packet), taken 0x0F02 0 0 p s = true)
    ∧ (∃ (s : State) (p : Packet) (t : State), taken 0x0F03 1 0 p s = true ∧ clean (mask 17 0) (p.w 2) = true ∧ bits 15 0 (p.w 2) ≠ 0 ∧ (doIf (bit 16 (p.w 2)) takeSnapshot (s.arrived 0x0F03 p)).onTal (fun x => { x with ctrs := clearCtrs (bits 15 0 (p.w 2)) (bit 17 (p.w 2)) x.ctrs }) = t)
    ∧ (∃ (s : State) (p : Packet), taken 0x0F04 1 0 p s = true ∧ clean (mask 3 0) (p.w 2) = true)
    ∧ (∃ (s : State) (p : Packet), taken 0x0F05 2 0 p s = true ∧ clean (mask 15 0) (p.w 2) = true ∧ clean (mask 15 0) (p.w 3) = true ∧ (bits 15 0 (p.w 2) = 0 ∨ (10 ≤ bits 15 0 (p.w 2) ∧ bits 15 0 (p.w 2) ≤ 60000 ∧ bits 15 0 (p.w 3) ≠ 0)))
    ∧ (∃ (s : State), s.tal.period ≠ 0 ∧ s.tal.stDue ≤ s.clk.now ∧ (List.range 8).any (fun c => (s.chan c).src = 2 && ((s.chan c).st = .running || (s.chan c).st = .waiting)) = true ∧ s.tal.stLeft.all (fun r => inBuffer s r.id) = true) :=
  ⟨⟨w0, pk [5, 2], by decide⟩,
   ⟨{ w0 with tal := { sseq := 1 } }, pk [0x10005, 2], by decide⟩,
   ⟨w0, pk [], by decide⟩,
   ⟨w0, pk [3], _, ⟨by decide, by decide, by decide, rfl⟩⟩,
   ⟨w0, pk [3], by decide⟩,
   ⟨w0, pk [100, 5], by decide⟩,
   ⟨{ tal := { period := 10, smask := 1 }, se := { chans := [(2, { st := .running, src := 2 })] } }, by decide⟩⟩
theorem witness_slotProbeAndAdmissionComplete :
    (∃ (s : State) (k pre : Nat), k < 24 ∧ pre < 500 ∧ probing s = true ∧ (s.slot k).state = .empty ∧ (s.slot k).offDue = none ∧ (s.slot k).presentAt = none ∧ probeTime s k = true)
    ∧ (∃ (s : State) (k t0 : Nat), k < 24 ∧ (s.slot k).state = .debounce ∧ (s.slot k).presentAt = some t0 ∧ t0 + 500 * ms ≤ s.clk.aon)
    ∧ (∃ (s : State) (k i : Nat), k < 24 ∧ i < 50 ∧ (s.slot k).state = .on ∧ (s.slot k).rstHigh = true ∧ (s.slot k).offDue = none ∧ portLinked s k = false ∧ portLinkedOnce s k = true)
    ∧ (∃ (s : State) (k pre : Nat), admits s k = true ∧ (s.slot k).state ≠ .partnerOnly ∧ pre < 1000 ∧ (partnerRamps s = false ∨ (s.slot k).state ≠ .queued))
    ∧ (∃ (s : State) (k pre : Nat), admits s k = true ∧ 10800 < pre)
    ∧ (∃ (s : State) (k pre : Nat), (s.slot k).state = .ramp ∧ (s.slot k).wait = .resample ∧ (s.slot k).rampDue ≤ s.clk.aon ∧ pre < 1000 ∧ frontEndOn s = true ∧ partnerRamps s = false)
    ∧ (∃ (s : State) (k pre : Nat), (s.slot k).state = .ramp ∧ (s.slot k).wait = .resample ∧ (s.slot k).rampDue ≤ s.clk.aon ∧ 1000 ≤ pre ∧ pre ≤ 10800 ∧ frontEndOn s = true)
    ∧ (∃ (s : State) (k : Nat), (s.slot k).state = .ramp ∧ (s.slot k).stage = true ∧ (s.slot k).offDue = none)
    ∧ (∃ (s : State) (k : Nat), (s.slot k).state = .on ∧ (s.slot k).rstHigh = false ∧ (s.slot k).rstDue ≤ s.clk.aon ∧ (s.slot k).offDue = none ∧ pulseOver s k = true)
    ∧ (∃ (s : State) (k : Nat), (s.slot k).state = .join ∧ (s.slot k).stage = true ∧ settled s (s.slot k) = true ∧ frontEndOn s = true ∧ (s.slot k).offDue = none) :=
  ⟨⟨{ clk := { aon := 12000000 }, pins := { seated := true }, bay := { valid := true }, fe := { f1 := { closed := true }, charged := true, coreOn := true } }, 3, 100, by decide⟩,
   ⟨{ clk := { aon := 500000000 }, pwr := { slots := [(3, { state := .debounce, presentAt := some 0 })] } }, 3, 0, by decide⟩,
   ⟨{ pwr := { slots := [(3, { state := .on, rstHigh := true })] }, drv := { ports := [(3, { linked := true })] } }, 3, 0, by decide⟩,
   ⟨{ pins := { seated := true }, fe := { f1 := { closed := true }, charged := true, coreOn := true }, pwr := { queue := [3], slots := [(3, { state := .queued })] } }, 3, 0, by decide⟩,
   ⟨{ pins := { seated := true }, fe := { f1 := { closed := true }, charged := true, coreOn := true }, pwr := { queue := [3], slots := [(3, { state := .queued })] } }, 3, 12000, by decide⟩,
   ⟨{ pins := { seated := true }, fe := { f1 := { closed := true }, charged := true, coreOn := true }, pwr := { slots := [(3, { state := .ramp, wait := .resample })] } }, 3, 0, by decide⟩,
   ⟨{ pins := { seated := true }, fe := { f1 := { closed := true }, charged := true, coreOn := true }, pwr := { slots := [(3, { state := .ramp, wait := .resample })] } }, 3, 5000, by decide⟩,
   ⟨{ pwr := { slots := [(3, { state := .ramp, stage := true })] } }, 3, by decide⟩,
   ⟨{ pwr := { slots := [(3, { state := .on })] } }, 3, by decide⟩,
   ⟨{ clk := { aon := 20000000 }, pins := { seated := true }, fe := { f1 := { closed := true }, charged := true, coreOn := true }, pwr := { slots := [(3, { state := .join, stage := true })] } }, 3, by decide⟩⟩
theorem witness_slotProtectionComplete :
    (∃ (s : State) (k : Nat), (s.slot k).state = .ramp ∧ (s.slot k).stage = true ∧ (s.slot k).rampDue ≤ s.clk.aon ∧ (s.slot k).offDue = none)
    ∧ (∃ (s : State) (k m : Nat), (s.slot k).stage = true ∧ (s.slot k).state.commits = true ∧ 500000 ≤ m)
    ∧ (∃ (s : State) (k m : Nat), (s.slot k).stage = true ∧ (s.slot k).state.commits = true ∧ 1000 * (s.slot k).act.ifast < m)
    ∧ (∃ (s : State) (k m : Nat), (s.slot k).stage = true ∧ ((s.slot k).state = .ramp ∨ (s.slot k).state = .join) ∧ 2000 ≤ m)
    ∧ (∃ (s : State) (k : Nat), turningOff (s.slot k) = false)
    ∧ (∃ (s : State) (k : Nat), (s.slot k).state = .retryWait ∧ (s.slot k).retryDue ≤ s.clk.aon)
    ∧ (∃ (s : State) (k t0 : Nat), (s.slot k).offDue = some (t0, .disabled) ∧ t0 ≤ s.clk.aon)
    ∧ (∃ (s : State) (k t0 : Nat), (s.slot k).offDue = some (t0, .queued) ∧ t0 ≤ s.clk.aon)
    ∧ (∃ (s : State) (i k : Nat), shedDue s i = true ∧ lastAdmitted s (fun x => x.stage && x.fedBy && x.state.commits && x.offDue.isNone) = some k)
    ∧ (∃ (s : State) (i k : Nat), shedDue s i = true ∧ lastAdmitted s (fun x => x.stage && x.fedBy && x.state.commits && x.offDue.isNone) = none ∧ lastAdmitted s (fun x => x.stage && x.state.commits && x.offDue.isNone) = some k) :=
  ⟨⟨{ pwr := { slots := [(3, { state := .ramp, stage := true })] } }, 3, by decide⟩,
   ⟨{ pwr := { slots := [(3, { state := .on, stage := true })] } }, 3, 500000, by decide⟩,
   ⟨{ pwr := { slots := [(3, { state := .on, stage := true })] } }, 3, 500000, by decide⟩,
   ⟨{ pwr := { slots := [(3, { state := .ramp, stage := true })] } }, 3, 2000, by decide⟩,
   ⟨{}, 3, by decide⟩,
   ⟨{ pwr := { slots := [(3, { state := .retryWait })] } }, 3, by decide⟩,
   ⟨{ pwr := { slots := [(3, { offDue := some (0, .disabled) })] } }, 3, 0, by decide⟩,
   ⟨{ pwr := { slots := [(3, { offDue := some (0, .queued) })] } }, 3, 0, by decide⟩,
   ⟨{ clk := { aon := 1000000000 }, pwr := { single := some 700, over95 := some 0, slots := [(3, { state := .on, stage := true, fedBy := true })] } }, 9600, 3, by decide⟩,
   ⟨{ clk := { aon := 1000000000 }, pwr := { single := some 700, over95 := some 0, slots := [(3, { state := .on, stage := true })] } }, 9600, 3, by decide⟩⟩
theorem witness_sharingComplete :
    (∃ (s : State) (k : Nat), (s.slot k).stage = true ∧ (s.slot k).state ≠ .on)
    ∧ (∃ (s : State), s.links.partnerUp = true)
    ∧ (∃ (s : State), 5 ≤ s.pwr.missed ∧ s.pwr.droop = false)
    ∧ (∃ (s : State), s.pwr.droop = true ∧ 100 ≤ s.pwr.goodUpd)
    ∧ (∃ (s : State) (a : Nat), s.fe.f1.good = true ∧ s.fe.f2.good = false ∧ a < 11400)
    ∧ (∃ (s : State), s.pins.seated = true ∧ s.fe.charged = true) :=
  ⟨⟨{ pwr := { slots := [(3, { state := .ramp, stage := true })] } }, 3, by decide⟩,
   ⟨{ links := { partnerUp := true } }, by decide⟩,
   ⟨{ pwr := { missed := 5 } }, by decide⟩,
   ⟨{ pwr := { droop := true, goodUpd := 100 } }, by decide⟩,
   ⟨{ fe := { f1 := { good := true } } }, 11000, by decide⟩,
   ⟨{ pins := { seated := true }, fe := { f1 := { closed := true }, charged := true, coreOn := true } }, by decide⟩⟩
theorem witness_powerCommandsComplete :
    (∃ (s : State) (p : Packet), taken 0x0101 3 0 p s = true ∧ clean (mask 23 0) (p.w 2) = true ∧ clean (mask 4 0 ||| mask 23 8) (p.w 3) = true ∧ clean (mask 6 0 ||| mask 14 8) (p.w 4) = true ∧ bits 23 0 (p.w 2) ≠ 0 ∧ inRange 1 24 (bits 4 0 (p.w 3)) = true ∧ inRange 2 8 (bits 11 8 (p.w 3)) = true ∧ inRange 1 64 (bits 18 12 (p.w 3)) = true ∧ inRange 8 16 (bits 23 19 (p.w 3)) = true ∧ inRange 1 100 (bits 6 0 (p.w 4)) = true ∧ inRange 1 72 (bits 14 8 (p.w 4)) = true)
    ∧ (∃ (s : State) (p : Packet), taken 0x0102 1 0 p s = true ∧ clean (mask 4 0) (p.w 2) = true ∧ bits 4 0 (p.w 2) < 24)
    ∧ (∃ (s : State) (p : Packet), taken 0x0103 2 0 p s = true ∧ clean (mask 23 0) (p.w 2) = true ∧ p.w 3 = 0)
    ∧ (∃ (s : State) (p : Packet), taken 0x0103 2 0 p s = true ∧ clean (mask 23 0) (p.w 2) = true ∧ p.w 3 = 1)
    ∧ (∃ (s : State) (p : Packet), taken 0x0104 1 0 p s = true ∧ clean (mask 23 0) (p.w 2) = true)
    ∧ (∃ (s : State) (p : Packet), taken 0x0105 1 0 p s = true ∧ clean (mask 9 0) (p.w 2) = true ∧ bits 9 0 (p.w 2) ≤ 720)
    ∧ (∃ (s : State) (p : Packet), taken 0x0106 0 0 p s = true)
    ∧ (∃ (s : State) (p : Packet), taken 0x0107 1 0 p s = true ∧ clean (mask 4 0 ||| mask 9 8) (p.w 2) = true ∧ bits 4 0 (p.w 2) < 24)
    ∧ (∃ (s : State) (p : Packet), taken 0x0108 0 0 p s = true) :=
  ⟨⟨w0, pk [1, 0, 0], by decide⟩,
   ⟨w0, pk [5], by decide⟩,
   ⟨w0, pk [1, 0], by decide⟩,
   ⟨w0, pk [1, 1], by decide⟩,
   ⟨w0, pk [1], by decide⟩,
   ⟨w0, pk [720], by decide⟩,
   ⟨w0, pk [], by decide⟩,
   ⟨w0, pk [0x117], by decide⟩,
   ⟨w0, pk [], by decide⟩⟩
theorem witness_cagesAndLinksComplete :
    (∃ (s : State) (c : Nat), c < 6 ∧ (s.cage c).present = false)
    ∧ (∃ (s : State) (c w : Nat), c < 6 ∧ (s.cage c).present = true ∧ cageSupply c < w)
    ∧ (∃ (s : State) (c w : Nat), c < 6 ∧ (s.cage c).present = true ∧ w ≤ cageSupply c)
    ∧ (∃ (s : State) (c : Nat), c < 6 ∧ (s.cage c).present = true ∧ (s.cage c).lowPwr = false)
    ∧ (∃ (s : State) (c t0 : Nat), c < 6 ∧ (s.cage c).readyDue = some t0 ∧ t0 ≤ s.clk.now ∧ (s.cage c).ready = false)
    ∧ (∃ (s : State) (c : Nat), c < 4 ∧ (s.cage c).present = true)
    ∧ (∃ (s : State) (l : Nat), lportExists s l = true ∧ (s.cage (l / 8)).ready = true ∧ (s.lport l).up = false ∧ s.md.egressOff = false)
    ∧ (∃ (s : State) (l : Nat), l < 32 ∧ (s.lport l).up = true)
    ∧ (∃ (s : State) (l u : Nat), l < 32 ∧ (s.lport l).up = true ∧ u ≤ 100)
    ∧ (∃ (s : State) (l u : Nat), l < 32 ∧ (s.lport l).up = true ∧ 100 < u) :=
  ⟨⟨{}, 5, by decide⟩,
   ⟨{ net := { cages := [(5, { present := true })] } }, 5, 13, by decide⟩,
   ⟨{ net := { cages := [(5, { present := true })] } }, 5, 12, by decide⟩,
   ⟨{ net := { cages := [(5, { present := true, lowPwr := false })] } }, 5, by decide⟩,
   ⟨{ net := { cages := [(5, { present := true, readyDue := some 0 })] } }, 5, 0, by decide⟩,
   ⟨{ net := { cages := [(3, { present := true })] } }, 3, by decide⟩,
   ⟨{ md := { egressOff := false }, net := { cages := [(1, { ready := true })] } }, 8, by decide⟩,
   ⟨{ net := { lports := [(8, { up := true })] } }, 8, by decide⟩,
   ⟨{ net := { lports := [(8, { up := true })] } }, 8, 2, by decide⟩,
   ⟨{ net := { lports := [(8, { up := true })] } }, 8, 200, by decide⟩⟩
theorem witness_sortingOfficeComplete :
    (∃ (s : State) (f : Frame), f.lport < 32 ∧ (s.lport f.lport).up = true ∧ s.pair.take = none)
    ∧ (∃ (s : State) (f : Frame), f.lport < 32 ∧ (s.lport f.lport).up = true ∧ s.pair.take = none ∧ f.fcsOk = false)
    ∧ (∃ (s : State) (l q n : Nat), l < 32 ∧ q < 8 ∧ (s.lport l).up = true ∧ n ≠ 0 ∧ isAnalysis s l = false)
    ∧ (∃ (s : State) (l q : Nat), l < 32 ∧ q < 8 ∧ (s.lport l).up = true ∧ isAnalysis s l = true)
    ∧ (∃ (s : State) (l q t0 : Nat), tabFind (s.lport l).paused q = some t0 ∧ t0 ≤ s.clk.now)
    ∧ (∃ (s : State) (l q t0 : Nat), tabFind (s.lport l).xoff q = some t0 ∧ t0 + 0xFFFF * 512 / lportRate s l / 2 ≤ s.clk.now)
    ∧ (∃ (s : State) (l : Nat), frontOn s = true ∧ (s.lport l).up = true)
    ∧ (∃ (s : State) (l d t : Nat), l < 32 ∧ s.net.ptp.enable = true ∧ s.net.ptp.domain = d ∧ s.net.ptp.transport = t ∧ s.net.ptp.ports.testBit l = true ∧ (s.lport l).up = true ∧ s.md.mode = .active ∧ isAnalysis s l = false)
    ∧ (∃ (s : State) (l d t src : Nat) (b : PtpMaster), l < 32 ∧ s.net.ptp.enable = true ∧ s.net.ptp.domain = d ∧ s.net.ptp.transport = t ∧ s.net.ptp.ports.testBit l = true ∧ (s.lport l).up = true ∧ s.md.mode = .active ∧ isAnalysis s l = false ∧ bestMaster (count1 (1024 + l) s) = some b ∧ b.lport = l ∧ b.src = src)
    ∧ (∃ (s : State) (l : Nat), l < 32 ∧ (s.lport l).up = true ∧ isAnalysis s l = false ∧ s.md.mode ≠ .active ∧ s.md.mode ≠ .drowse)
    ∧ (∃ (s : State) (d : Int), -1000 ≤ d - s.net.ptp.delay ∧ d - s.net.ptp.delay ≤ 1000)
    ∧ (∃ (s : State), 16 ≤ s.net.ptp.good ∧ s.net.ptp.locked = false)
    ∧ (∃ (s : State), s.net.ptp.locked = true ∧ (4 ≤ s.net.ptp.bad ∨ s.net.ptp.lastSync + 3 * sec ≤ s.clk.now)) :=
  ⟨⟨{ net := { lports := [(8, { up := true })] } }, { lport := 8, len := 64, fcsOk := true, dstMac := 0, mcast := false, vid := 0, tagged := false, pcp := 0, dscp := 0, ecn := 0, kind := .kumel, body := [] }, by decide⟩,
   ⟨{ net := { lports := [(8, { up := true })] } }, { lport := 8, len := 64, fcsOk := false, dstMac := 0, mcast := false, vid := 0, tagged := false, pcp := 0, dscp := 0, ecn := 0, kind := .kumel, body := [] }, by decide⟩,
   ⟨{ net := { lports := [(8, { up := true })] } }, 8, 3, 10, by decide⟩,
   ⟨{ net := { lports := [(8, { up := true })], mirrors := [(0, ⟨true, 1, 0, 8, false⟩)] } }, 8, 3, by decide⟩,
   ⟨{ net := { lports := [(8, { paused := [(3, 0)] })] } }, 8, 3, 0, by decide⟩,
   ⟨{ clk := { now := 1000000 }, net := { lports := [(8, { xoff := [(3, 0)] })] } }, 8, 3, 0, by decide⟩,
   ⟨{ md := { egressOff := false, mode := .active }, net := { lports := [(8, { up := true })] } }, 8, by decide⟩,
   ⟨{ md := { mode := .active }, net := { lports := [(2, { up := true })], ptp := { enable := true, ports := 4, domain := 0, transport := 0 } } }, 2, 0, 0, by decide⟩,
   ⟨{ md := { mode := .active }, net := { lports := [(2, { up := true })], ptp := { enable := true, ports := 4, domain := 0, transport := 0, masters := [⟨2, 5, [1], 0⟩] } } }, 2, 0, 0, 5, ⟨2, 5, [1], 0⟩, by decide⟩,
   ⟨{ md := { mode := .standby }, net := { lports := [(2, { up := true })] } }, 2, by decide⟩,
   ⟨{}, 5, by decide⟩,
   ⟨{ net := { ptp := { good := 16 } } }, by decide⟩,
   ⟨{ net := { ptp := { locked := true, bad := 4 } } }, by decide⟩⟩
theorem witness_netSettingsComplete :
    (∃ (s : State) (p : Packet), taken 0x0201 1 0 p s = true ∧ clean (mask 3 0 ||| mask 8 8) (p.w 2) = true ∧ bit 8 (p.w 2) = false ∧ ((List.range 8).map (8 * bits 1 0 (p.w 2) + ·)).any (ctxBound (s.arrived 0x0201 p)) = false)
    ∧ (∃ (s : State) (p : Packet), taken 0x0203 8 0 p s = true ∧ clean (mask 8 0) (p.w 2) = true ∧ clean (mask 15 0) (p.w 4) = true ∧ clean (mask 12 0) (p.w 5) = true ∧ bit 5 (p.w 2) = true ∧ bit 8 (p.w 2) = false ∧ listenerClash (onLport (bits 4 0 (p.w 2)) (fun x => { x with addrs := tabIns x.addrs (bits 7 6 (p.w 2)) ⟨numOf [p.w 3, p.w 4], bits 11 0 (p.w 5), bit 12 (p.w 5), true, numOf [p.w 6, p.w 7, p.w 8, p.w 9]⟩ }) (s.arrived 0x0203 p)) = false)
    ∧ (∃ (s : State) (p : Packet), taken 0x0204 10 0 p s = true ∧ clean (mask 5 0 ||| mask 15 8) (p.w 2) = true ∧ clean (mask 23 0) (p.w 3) = true ∧ ([4, 5, 6, 7, 8, 9].all fun k => clean (mask 29 0) (p.w k)) = true ∧ clean (mask 11 0) (p.w 10) = true ∧ clean (mask 23 0) (p.w 11) = true ∧ bit 11 (p.w 2) = true ∧ bit 15 (p.w 2) = false ∧ (lossValues (s.arrived 0x0204 p) (bits 4 0 (p.w 2)) (some (bits 10 8 (p.w 2))) none).length ≤ 2)
    ∧ (∃ (s : State) (p : Packet), taken 0x0205 3 0 p s = true ∧ clean (mask 5 0 ||| mask 15 8) (p.w 2) = true ∧ clean (mask 8 0) (p.w 4) = true ∧ bits 5 0 (p.w 2) ≤ 38 ∧ bits 15 0 (p.w 3) ≤ bits 31 16 (p.w 3))
    ∧ (∃ (s : State) (p : Packet), taken 0x0208 6 0 p s = true ∧ clean (mask 16 0) (p.w 2) = true ∧ clean (mask 16 0) (p.w 3) = true ∧ clean (mask 16 0) (p.w 4) = true ∧ clean (mask 8 0 ||| mask 18 16) (p.w 5) = true ∧ clean (mask 12 0) (p.w 6) = true ∧ 4096 ≤ bits 16 0 (p.w 2) ∧ bits 16 0 (p.w 2) ≤ 65536 ∧ bits 16 0 (p.w 3) ≤ 16384 ∧ bits 16 0 (p.w 4) ≤ 32768 ∧ bits 8 0 (p.w 5) ≤ 256 ∧ bits 12 0 (p.w 6) ≤ 4096 ∧ bits 31 16 (p.w 7) < bits 15 0 (p.w 7) ∧ bits 16 0 (p.w 2) + bits 16 0 (p.w 3) + bits 16 0 (p.w 4) + 312 * bits 8 0 (p.w 5) + 64 * bits 12 0 (p.w 6) + 32768 ≤ 196608)
    ∧ (∃ (s : State) (p : Packet), taken 0x020C 1 0 p s = true ∧ clean (mask 2 0 ||| mask 14 8 ||| mask 21 16) (p.w 2) = true ∧ (bit 2 (p.w 2) = false ∨ ctxBound (s.arrived 0x020C p) (bits 20 16 (p.w 2)) = false))
    ∧ (∃ (s : State) (p : Packet), taken 0x020D 1 0 p s = true ∧ clean (mask 3 0 ||| mask 14 8) (p.w 2) = true ∧ 2 ≤ bits 14 8 (p.w 2) ∧ bits 14 8 (p.w 2) ≤ 64)
    ∧ (∃ (s : State) (p : Packet), taken 0x020F 2 0 p s = true ∧ clean (mask 6 0 ||| mask 10 8) (p.w 2) = true ∧ bits 10 9 (p.w 2) ≤ 2) :=
  ⟨⟨w0, pk [5], by decide⟩,
   ⟨w0, pk [0x20, 1, 0, 0, 1, 2, 3, 4], by decide⟩,
   ⟨w0, pk [0xB05, 0, 0, 0, 0, 0, 0, 0, 0, 0], by decide⟩,
   ⟨w0, pk [0x105, 0x20001, 0], by decide⟩,
   ⟨w0, pk [4096, 0, 0, 0, 0, 2], by decide⟩,
   ⟨w0, pk [5], by decide⟩,
   ⟨w0, pk [0x207], by decide⟩,
   ⟨w0, pk [0x107, 3], by decide⟩⟩
theorem witness_netTableAndReadCommandsComplete :
    (∃ (s : State) (p : Packet), taken 0x0209 13 0 p s = true ∧ flowOk p = true ∧ ((s.arrived 0x0209 p).net.flows.any fun x => x.1 != bits 16 0 (p.w 2) && decide (x.2.key = (flowOf p).key)) = false ∧ (s.arrived 0x0209 p).net.changes = [] ∧ (s.arrived 0x0209 p).net.older = [])
    ∧ (∃ (s : State) (p : Packet), taken 0x020A 1 0 p s = true ∧ clean (mask 16 0) (p.w 2) = true ∧ bits 16 0 (p.w 2) ≤ 8191 ∧ tabHas (s.arrived 0x020A p).net.flows (bits 16 0 (p.w 2)) = true ∧ (s.arrived 0x020A p).net.changes = [] ∧ (s.arrived 0x020A p).net.older = [])
    ∧ (∃ (s : State) (p : Packet), taken 0x0202 1 0 p s = true ∧ clean (mask 4 0) (p.w 2) = true)
    ∧ (∃ (s : State) (p : Packet), taken 0x0206 1 0 p s = true ∧ clean (mask 5 0 ||| mask 10 8) (p.w 2) = true ∧ bits 5 0 (p.w 2) ≤ 38)
    ∧ (∃ (s : State) (p : Packet), taken 0x0207 1 0 p s = true ∧ clean (mask 5 0 ||| mask 15 8) (p.w 2) = true ∧ bits 5 0 (p.w 2) ≤ 38)
    ∧ (∃ (s : State) (p : Packet), taken 0x020B 0 0 p s = true)
    ∧ (∃ (s : State) (p : Packet) (c : Capture), taken 0x020E 0 0 p s = true ∧ (s.arrived 0x020E p).net.dlq.find? (fun c => !streamed (s.arrived 0x020E p) c.id) = some c)
    ∧ (∃ (s : State) (p : Packet), taken 0x0210 0 0 p s = true) :=
  ⟨⟨w0, pk [0x40005, 0, 0, 0, 0, 0, 0, 0, 0, 0, 6, 3, 0], by decide⟩,
   ⟨{ w0 with net := { flows := [(5, { key := ⟨true, false, 0, 0, 0, 0, 6, 0, false, 0⟩, action := 3, target := 0, mirror := none, ctx := none })] } }, pk [5], by decide⟩,
   ⟨w0, pk [5], by decide⟩,
   ⟨w0, pk [5], by decide⟩,
   ⟨w0, pk [0x105], by decide⟩,
   ⟨w0, pk [], by decide⟩,
   ⟨{ w0 with net := { dlq := [⟨1, 64, 1, 0, none, 0, 0, 0, []⟩] } }, pk [], ⟨1, 64, 1, 0, none, 0, 0, 0, []⟩, by decide⟩,
   ⟨w0, pk [], by decide⟩⟩
theorem witness_schedulerComplete :
    (∃ (s : State) (q r : Nat) (j : QItem), q < 56 ∧ pickItem s q = some (j, r))
    ∧ (∃ (s : State) (w q : Nat) (f : QFrame) (fs : List QFrame), 32 ≤ w ∧ queueMay s w q = true ∧ (List.range q).any (fun k => queueMay s w k) = false ∧ s.queue (w * 8 + q) = f :: fs)
    ∧ (∃ (s : State) (w q r : Nat) (j : QItem), w < 32 ∧ queueMay s w q = true ∧ pickItem s w = some (j, r) ∧ j.cls = q)
    ∧ (∃ (s : State) (q : Nat) (l : GateList), (s.qport q).gate.cur = some l ∧ (s.qport q).gate.running = true ∧ (s.qport q).gate.hold = false ∧ (s.qport q).gate.entryEnd ≤ ptpTime s ∧ l.entries ≠ [])
    ∧ (∃ (s : State) (q t0 : Nat) (l : GateList), s.net.ptp.everLocked = true ∧ s.md.mode = .active ∧ (s.qport q).gate.next = some (some l) ∧ (s.qport q).gate.running = true ∧ freshStart l (ptpTime s) = some t0 ∧ (s.qport q).gate.change ≤ t0)
    ∧ (∃ (s : State) (q : Nat) (l : GateList), (s.qport q).gate.cur = some l ∧ (s.qport q).gate.running = true ∧ (s.qport q).gate.hold = true ∧ (s.qport q).gate.stepAt ≤ ptpTime s)
    ∧ (∃ (s : State), s.qos.tickAt + us ≤ s.clk.now)
    ∧ (∃ (s : State), s.qos.estAt + 10 * ms ≤ s.clk.now) :=
  ⟨⟨{ md := { egressOff := false, mode := .active }, net := { lports := [(0, { up := true })], queues := [(0, [⟨64, 0, 0, 0, none, 0, 1, 0, 0, 0, none, 9, none⟩])] }, qos := { ports := [(0, { level := 100 })] } }, 0, 1, ⟨0, 9, 64, 0, 0⟩, by decide +kernel⟩,
   ⟨{ md := { mode := .active }, net := { queues := [(38 * 8 + 1, [⟨64, 0, 0, 0, none, 0, 1, 0, 0, 0, none, 9, none⟩])] } }, 38, 1, ⟨64, 0, 0, 0, none, 0, 1, 0, 0, 0, none, 9, none⟩, [], by decide⟩,
   ⟨{ md := { egressOff := false, mode := .active }, net := { lports := [(0, { up := true })], queues := [(0, [⟨64, 0, 0, 0, none, 0, 1, 0, 0, 0, none, 9, none⟩])] }, qos := { ports := [(0, { level := 100 })] } }, 0, 0, 1, ⟨0, 9, 64, 0, 0⟩, by decide +kernel⟩,
   ⟨{ qos := { ports := [(3, { gate := { cur := some ⟨[(1, 1000), (3, 2000)], 0⟩, running := true } })] } }, 3, ⟨[(1, 1000), (3, 2000)], 0⟩, by decide⟩,
   ⟨{ md := { mode := .active }, net := { ptp := { everLocked := true } }, qos := { ports := [(3, { gate := { next := some (some ⟨[(1, 1000), (3, 2000)], 0⟩), running := true } })] } }, 3, 0, ⟨[(1, 1000), (3, 2000)], 0⟩, by decide⟩,
   ⟨{ qos := { ports := [(3, { gate := { cur := some ⟨[(1, 1000), (3, 2000)], 0⟩, running := true, hold := true } })] } }, 3, ⟨[(1, 1000), (3, 2000)], 0⟩, by decide⟩,
   ⟨{ clk := { now := 1000 } }, by decide⟩,
   ⟨{ clk := { now := 10000000 } }, by decide⟩⟩
theorem witness_qosCommandsComplete :
    (∃ (s : State) (p : Packet), taken 0x0301 6 0 p s = true ∧ clean (mask 10 0 ||| mask 14 12) (p.w 2) = true ∧ ([3, 4, 5, 6].all fun k => clean (mask 23 0) (p.w k)) = true ∧ clean (mask 15 0) (p.w 7) = true ∧ (bit 12 (p.w 2) = true ∨ bits 23 0 (p.w 3) ≤ bits 23 0 (p.w 4)) ∧ 1 ≤ bits 23 0 (p.w 5) ∧ bits 23 0 (p.w 5) ≤ 1048576 ∧ 1 ≤ bits 23 0 (p.w 6) ∧ bits 23 0 (p.w 6) ≤ 1048576)
    ∧ (∃ (s : State) (p : Packet), taken 0x0302 3 0 p s = true ∧ clean (mask 11 0) (p.w 2) = true ∧ clean (mask 2 0 ||| mask 6 4 ||| mask 8 8 ||| mask 23 16) (p.w 3) = true ∧ clean (mask 12 0) (p.w 4) = true ∧ bits 11 0 (p.w 2) < 2048 ∧ 1 ≤ bits 23 16 (p.w 3) ∧ bits 2 0 (p.w 3) ≤ 3 ∧ (bits 6 4 (p.w 3) ≤ 3 ∨ bits 6 4 (p.w 3) = 7) ∧ 1 ≤ bits 12 0 (p.w 4) ∧ bits 12 0 (p.w 4) ≤ 4096)
    ∧ (∃ (s : State) (p : Packet), taken 0x0303 1 0 p s = true ∧ clean (mask 10 0) (p.w 2) = true)
    ∧ (∃ (s : State) (p : Packet), taken 0x0304 4 0 p s = true ∧ ((List.range 64).map fun d => (d, bits (2 * (d % 16) + 1) (2 * (d % 16)) (p.w (2 + d / 16)))).all (fun c => decide (c.2 ≠ 3)) = true)
    ∧ (∃ (s : State) (p : Packet), taken 0x0305 3 0 p s = true ∧ clean (mask 5 0 ||| mask 12 8 ||| mask 23 16) (p.w 2) = true ∧ clean (mask 23 0) (p.w 4) = true ∧ bits 5 0 (p.w 2) ≤ 55 ∧ bit 11 (p.w 2) = true ∧ bit 12 (p.w 2) = false ∧ 1 ≤ bits 31 16 (p.w 3))
    ∧ (∃ (s : State) (p : Packet), taken 0x0306 2 0 p s = true ∧ clean (mask 5 0) (p.w 2) = true ∧ bits 5 0 (p.w 2) ≤ 55 ∧ 1 ≤ bits 31 24 (p.w 3))
    ∧ (∃ (s : State) (p : Packet), taken 0x0307 6 4 p s = true ∧ p.w 2 = 4 ∧ clean (mask 5 0 ||| mask 8 8) (p.w 3) = true ∧ bits 5 0 (p.w 3) ≤ 55 ∧ bit 8 (p.w 3) = true ∧ gateMasksClean (p.data 6) = true ∧ (gateEntries (p.data 6)).length = 2 ∧ ((gateEntries (p.data 6)).all fun e => e.1.testBit 0 && decide (1000 ≤ e.2) && decide (e.2 ≤ sec)) = true ∧ 10000 ≤ sumNat ((gateEntries (p.data 6)).map (·.2)) ∧ sumNat ((gateEntries (p.data 6)).map (·.2)) ≤ sec ∧ (s.arrived 0x0307 p).net.ptp.everLocked = false)
    ∧ (∃ (s : State) (p : Packet), taken 0x0308 1 0 p s = true ∧ clean (mask 5 0) (p.w 2) = true ∧ bits 5 0 (p.w 2) ≤ 55)
    ∧ (∃ (s : State) (p : Packet), taken 0x0309 1 0 p s = true ∧ clean (mask 5 0 ||| mask 10 8) (p.w 2) = true ∧ bits 5 0 (p.w 2) ≤ 55)
    ∧ (∃ (s : State) (p : Packet), taken 0x030A 1 0 p s = true ∧ clean (mask 5 0 ||| mask 26 16 ||| mask 31 31) (p.w 2) = true) :=
  ⟨⟨w0, pk [0x1001, 1, 1, 1, 1, 0], by decide⟩,
   ⟨w0, pk [5, 0x10121, 7], by decide⟩,
   ⟨w0, pk [5], by decide⟩,
   ⟨w0, pk [1, 2, 0, 0], by decide⟩,
   ⟨w0, pk [0x805, 0x10000, 0], by decide⟩,
   ⟨w0, pk [5, 0x1000005], by decide⟩,
   ⟨w0, pkd 6 [4, 0x105, 0, 0, 0, 0, 1, 5000, 1, 5000], by decide⟩,
   ⟨w0, pk [5], by decide⟩,
   ⟨w0, pk [0x105], by decide⟩,
   ⟨w0, pk [0x80010003], by decide⟩⟩
theorem witness_rdmaConnectionsComplete :
    (∃ (s : State) (r : CmReq) (c : Nat) (t : State), engineTakes r.lport s = true ∧ t = engineAt (r.qpn % 2 ^ 24) (count1 2066 s) ∧ refusesHosts t = false ∧ t.xpt.rports.testBit r.lport = true ∧ r.rc = true ∧ (t.xpt.ctxs.find? fun e => !e.2.tcp && decide (e.2.rqpn = r.qpn) && decide (e.2.src = r.src) && (e.2.st = .connecting || e.2.st = .ready)) = none ∧ reqFail t r = none ∧ connAdmits t r.src = true ∧ freeCtxNo t = some c)
    ∧ (∃ (s : State) (r : CmReq), engineTakes r.lport s = false ∧ (s.md.mode = .standby ∨ s.md.mode = .fenced))
    ∧ (∃ (s : State) (qpn c : Nat), engineTakes (s.ctx (qpn % 65536)).lport s = true ∧ ctxOfQpn s qpn = some c ∧ (s.ctx c).st = .connecting)
    ∧ (∃ (s : State) (c t : Nat), (s.ctx c).repAt = some t ∧ t ≤ s.clk.now ∧ (s.ctx c).st = .connecting ∧ (s.ctx c).reps < 3)
    ∧ (∃ (s : State) (qpn c : Nat), engineTakes (s.ctx (qpn % 65536)).lport s = true ∧ ctxOfQpn s qpn = some c)
    ∧ (∃ (s : State) (qpn c : Nat), engineTakes (s.ctx (qpn % 65536)).lport s = true ∧ ctxOfQpn s qpn = some c ∧ (s.ctx c).st = .error)
    ∧ (∃ (s : State) (c t : Nat), (s.ctx c).dreqAt = some t ∧ t ≤ s.clk.now ∧ (s.ctx c).st = .error)
    ∧ (∃ (s : State) (c t : Nat), (s.ctx c).freeAt = some t ∧ t ≤ s.clk.now ∧ (s.ctx c).st = .timewait)
    ∧ (∃ (s : State) (c t : Nat), (s.ctx c).ackAt = some t ∧ t ≤ s.clk.now ∧ (s.ctx c).tcp = false ∧ 0 < (s.ctx c).unacked ∧ (s.ctx c).resident = true)
    ∧ (∃ (s : State) (c t : Nat), (s.ctx c).toAt = some t ∧ t ≤ s.clk.now ∧ (s.ctx c).tcp = false ∧ (s.ctx c).live = true ∧ s.md.mode = .active ∧ (s.ctx c).resident = true ∧ (s.ctx c).tries < (s.ctx c).retry)
    ∧ (∃ (s : State) (c t : Nat), (s.ctx c).resendAt = some t ∧ t ≤ s.clk.now ∧ (s.ctx c).live = true ∧ (s.ctx c).resident = true)
    ∧ (∃ (s : State) (c : Nat), (s.ctx c).tcp = false ∧ (s.ctx c).live = true ∧ (s.ctx c).rate.due ≤ s.clk.now ∧ (s.ctx c).rate.n < 5) :=
  ⟨⟨{ w0 with xpt := { rports := 1 } }, ⟨0, 5, true, 0x01060000 + 4420, 32, 0, 0, 32, 31, 4, 4, 77, 9, 4096, 3, 3⟩, 0, engineAt 77 (count1 2066 { w0 with xpt := { rports := 1 } }), by decide +kernel⟩,
   ⟨wm .standby, ⟨0, 5, true, 0x01060000 + 4420, 32, 0, 0, 32, 31, 4, 4, 77, 9, 4096, 3, 3⟩, by decide⟩,
   ⟨wc { cx with st := .connecting }, 65539, 3, by decide⟩,
   ⟨wc { cx with st := .connecting, repAt := some 0 }, 3, 0, by decide⟩,
   ⟨wc cx, 65539, 3, by decide⟩,
   ⟨wc { cx with st := .error }, 65539, 3, by decide⟩,
   ⟨wc { cx with st := .error, dreqAt := some 0 }, 3, 0, by decide⟩,
   ⟨wc { cx with st := .timewait, freeAt := some 0 }, 3, 0, by decide⟩,
   ⟨wc { cx with ackAt := some 0, unacked := 2 }, 3, 0, by decide⟩,
   ⟨wc { cx with toAt := some 0, retry := 3 }, 3, 0, by decide⟩,
   ⟨wc { cx with resendAt := some 0 }, 3, 0, by decide⟩,
   ⟨wc cx, 3, by decide⟩⟩
theorem witness_rdmaPacketsComplete :
    (∃ (s : State) (p : RocePkt) (c bytes : Nat) (a : State), engineTakes p.lport s = true ∧ p.icrcOk = true ∧ p.rc = true ∧ p.ce = false ∧ c = p.qpn % 65536 ∧ (s.ctx c).tcp = false ∧ (s.ctx c).gen = p.qpn / 65536 ∧ (s.ctx c).st = .ready ∧ (s.ctx c).resident = true ∧ (s.ctx c).pend = [] ∧ (s.ctx c).tlsHeld = false ∧ (s.ctx c).epsn = p.psn ∧ p.psn < 2 ^ 24 ∧ p.op = .send .only bytes ∧ 64 ≤ bytes ∧ bytes ≤ 8256 ∧ sumNat (s.xpt.store.map (·.2)) + bytes ≤ 4194304 ∧ a = onCtx c (fun x => { x with nakSent := false }) (onCtx c (fun x => { x with ref := true }) (count1 2048 (engineAt c s))))
    ∧ (∃ (s : State) (p : RocePkt) (c rkey off len : Nat) (data : List (BitVec 64)) (a : State), engineTakes p.lport s = true ∧ p.icrcOk = true ∧ p.rc = true ∧ p.ce = false ∧ c = p.qpn % 65536 ∧ (s.ctx c).tcp = false ∧ (s.ctx c).gen = p.qpn / 65536 ∧ (s.ctx c).st = .ready ∧ (s.ctx c).resident = true ∧ (s.ctx c).pend = [] ∧ (s.ctx c).tlsHeld = false ∧ (s.ctx c).epsn = p.psn ∧ p.psn < 2 ^ 24 ∧ p.op = .write .only rkey off len data ∧ (mark (s.sub (s.ctx c).sub) (colourOf s p.dscp) p.bytes).1 ≠ 2 ∧ a = onCtx c (fun x => { x with nakSent := false }) (onCtx c (fun x => { x with ref := true }) (count1 2048 (engineAt c s))))
    ∧ (∃ (s : State) (h : RoceHead) (c : Nat), engineTakes h.lport s = true ∧ h.icrcOk = true ∧ h.ce = false ∧ c = h.qpn % 65536 ∧ (s.ctx c).tcp = false ∧ (s.ctx c).gen = h.qpn / 65536 ∧ (s.ctx c).st = .ready ∧ (s.ctx c).resident = true ∧ (s.ctx c).pend = [] ∧ (s.ctx c).tlsHeld = false)
    ∧ (∃ (s : State) (h : RoceHead) (c : Nat), engineTakes h.lport s = true ∧ h.icrcOk = true ∧ h.ce = false ∧ c = h.qpn % 65536 ∧ (s.ctx c).tcp = false ∧ (s.ctx c).gen = h.qpn / 65536 ∧ (s.ctx c).st = .ready ∧ (s.ctx c).resident = true ∧ (s.ctx c).pend = [] ∧ (s.ctx c).tlsHeld = false)
    ∧ (∃ (s : State) (h : RoceHead) (c : Nat), engineTakes h.lport s = true ∧ h.icrcOk = true ∧ c = h.qpn % 65536 ∧ (s.ctx c).tcp = false ∧ (s.ctx c).gen = h.qpn / 65536 ∧ (s.ctx c).st = .ready ∧ (s.ctx c).resident = true ∧ (s.ctx c).pend = [] ∧ (s.ctx c).tlsHeld = false) :=
  ⟨⟨wc cx, rp 5 (.send .only 64), 3, 64, onCtx 3 (fun x => { x with nakSent := false }) (onCtx 3 (fun x => { x with ref := true }) (count1 2048 (engineAt 3 (wc cx)))), by decide⟩,
   ⟨wc cx, rp 5 (.write .only 77 0 8 [1]), 3, 77, 0, 8, [1], onCtx 3 (fun x => { x with nakSent := false }) (onCtx 3 (fun x => { x with ref := true }) (count1 2048 (engineAt 3 (wc cx)))), by decide⟩,
   ⟨wc cx, ⟨0, 65539, true, false, 64, []⟩, 3, by decide⟩,
   ⟨wc cx, ⟨0, 65539, true, false, 64, []⟩, 3, by decide⟩,
   ⟨wc cx, ⟨0, 65539, true, false, 64, []⟩, 3, by decide⟩⟩
theorem witness_rdmaCommandsComplete :
    (∃ (s : State) (p : Packet), taken 0x0401 2 0 p s = true ∧ clean (mask 17 0 ||| mask 24 24) (p.w 3) = true ∧ bits 15 0 (p.w 3) ≠ 0 ∧ listenerClash ((s.arrived 0x0401 p).onXpt fun x => { x with rports := (p.w 2).toNat, svc := bits 15 0 (p.w 3), rv4 := bit 16 (p.w 3), rv6 := bit 17 (p.w 3) }) = false ∧ (((s.arrived 0x0401 p).xpt.ctxs.filter fun e => e.2.live && !e.2.tcp && (!(p.w 2).toNat.testBit e.2.lport || bits 15 0 (p.w 3) != (s.arrived 0x0401 p).xpt.svc)).map (·.1)) = [])
    ∧ (∃ (s : State) (p : Packet), taken 0x0402 4 0 p s = true ∧ clean (mask 4 0 ||| mask 12 8) (p.w 2) = true ∧ clean (mask 19 0) (p.w 3) = true ∧ 1 ≤ bits 12 8 (p.w 2) ∧ 1 ≤ bits 15 0 (p.w 3) ∧ 1 ≤ bits 19 16 (p.w 3) ∧ 1 ≤ bits 15 0 (p.w 4) ∧ 1 ≤ bits 31 16 (p.w 4) ∧ 1 ≤ bits 15 0 (p.w 5) ∧ 1 ≤ bits 31 16 (p.w 5))
    ∧ (∃ (s : State) (p : Packet), taken 0x0403 1 0 p s = true ∧ clean (mask 10 0 ||| mask 16 16) (p.w 2) = true)
    ∧ (∃ (s : State) (p : Packet), taken 0x0404 1 0 p s = true ∧ clean (mask 15 0) (p.w 2) = true)
    ∧ (∃ (s : State) (p : Packet), taken 0x0405 1 0 p s = true ∧ clean (mask 15 0) (p.w 2) = true ∧ ((s.arrived 0x0405 p).ctx (bits 15 0 (p.w 2))).st = .ready)
    ∧ (∃ (s : State) (p : Packet), taken 0x0406 2 0 p s = true ∧ clean (mask 15 0) (p.w 2) = true ∧ clean (mask 20 0) (p.w 3) = true ∧ 1 ≤ bits 20 0 (p.w 3) ∧ bits 20 0 (p.w 3) ≤ 1048576 ∧ tabHas (s.arrived 0x0406 p).xpt.regions (bits 11 0 (p.w 2)) = false ∧ regionPages (s.arrived 0x0406 p) + bits 20 0 (p.w 3) ≤ 1048576)
    ∧ (∃ (s : State) (p : Packet) (r : Region), taken 0x0407 1 0 p s = true ∧ clean (mask 11 0 ||| mask 16 16) (p.w 2) = true ∧ tabFind (s.arrived 0x0407 p).xpt.regions (bits 11 0 (p.w 2)) = some r ∧ (r.grants = [] ∨ bit 16 (p.w 2) = true))
    ∧ (∃ (s : State) (p : Packet) (r : Region), taken 0x0408 2 0 p s = true ∧ clean (mask 12 0 ||| mask 19 16) (p.w 2) = true ∧ clean (mask 10 0) (p.w 3) = true ∧ bits 12 0 (p.w 2) < 4096 ∧ tabFind (s.arrived 0x0408 p).xpt.regions (bits 12 0 (p.w 2)) = some r)
    ∧ (∃ (s : State) (p : Packet) (r : Region), taken 0x0409 1 0 p s = true ∧ clean (mask 12 0) (p.w 2) = true ∧ bits 12 0 (p.w 2) < 4096 ∧ tabFind (s.arrived 0x0409 p).xpt.regions (bits 12 0 (p.w 2)) = some r)
    ∧ (∃ (s : State) (p : Packet), taken 0x040A 1 0 p s = true ∧ clean (mask 12 0) (p.w 2) = true ∧ bits 12 0 (p.w 2) ≤ 4096) :=
  ⟨⟨w0, pk [1, 0x31144], by decide⟩,
   ⟨w0, pk [0x10E, 0x80032, 0x1900028, 0x37000A], by decide⟩,
   ⟨w0, pk [0x10005], by decide⟩,
   ⟨wc cx, pk [3], by decide⟩,
   ⟨wc cx, pk [3], by decide⟩,
   ⟨w0, pk [0xE005, 3], by decide⟩,
   ⟨{ w0 with xpt := { regions := [(5, { pages := 1, grants := [(1, 1)] })] } }, pk [0x10005], { pages := 1, grants := [(1, 1)] }, by decide⟩,
   ⟨{ w0 with xpt := { regions := [(5, { pages := 1, grants := [(1, 1)] })] } }, pk [0x60005, 1], { pages := 1, grants := [(1, 1)] }, by decide⟩,
   ⟨{ w0 with xpt := { regions := [(5, { pages := 1, grants := [(1, 1)] })] } }, pk [5], { pages := 1, grants := [(1, 1)] }, by decide⟩,
   ⟨w0, pk [5], by decide⟩⟩
theorem witness_tcpComplete :
    (∃ (s : State) (f : SynIn) (i : Nat) (t : State) (e : SynEnt), engineTakes f.lport s = true ∧ t = count1 2080 (engineAt (f.rport + 65536 * (f.dport % 256)) s) ∧ refusesHosts t = false ∧ listens t f = true ∧ managerHolds t ⟨false, f.v6, f.src, f.dst, f.rport, f.dport, 6, f.vid, f.tagged, f.lport⟩ = false ∧ (t.xpt.syns.find? fun e => decide (e.2.src = f.src) && decide (e.2.rport = f.rport) && decide (e.2.dst = f.dst) && decide (e.2.dport = f.dport) && decide (e.2.lport = f.lport)) = none ∧ tabFree t.xpt.syns 0 8192 = some i ∧ e = { src := f.src, rport := f.rport, lport := f.lport, dport := f.dport, v6 := f.v6, dst := f.dst, vid := f.vid, tagged := f.tagged, tls := decide (f.dport = t.xpt.tlsPort), mss := f.mss, ecn := f.ecn && t.xpt.ecn, wnd := f.wnd, scale := f.scale, ts := f.ts, own := t.xpt.mtu - (if f.v6 then 60 else 40), isn := (takeFree t).1.toNat % 2 ^ 32, irs := f.seq % 2 ^ 32, tries := 0, dueAt := t.clk.now + sec })
    ∧ (∃ (s : State) (i : Nat) (e : SynEnt), tabFind s.xpt.syns i = some e ∧ e.tries < 2 ∧ e.dueAt ≤ s.clk.now)
    ∧ (∃ (s : State) (i : Nat) (e : SynEnt), tabFind s.xpt.syns i = some e ∧ e.tries = 2 ∧ e.dueAt ≤ s.clk.now)
    ∧ (∃ (s : State) (i c : Nat) (e : SynEnt) (t : State), tabFind s.xpt.syns i = some e ∧ engineTakes e.lport s = true ∧ t = freeSyn i (count1 2080 (engineAt i s)) ∧ e.tls = false ∧ refusesHosts t = false ∧ managerHolds t e.key = false ∧ connAdmits t e.src = true ∧ freeCtxNo t = some c)
    ∧ (∃ (s : State) (p : TcpSeg) (x : Ctx), engineTakes p.lport s = true ∧ s.ctx p.ctx = x ∧ x.tcp = true ∧ x.st = .ready ∧ x.resident = true ∧ x.pend = [] ∧ x.tlsHeld = false)
    ∧ (∃ (s u : State) (p : TcpSeg), staleSeg (s.ctx p.ctx) p = false ∧ u = tcpAckIn p.ctx p (onCtx p.ctx (fun x => match x.tsOn, p.ts with | true, some (v, _) => if reached32 x.rcvNxt p.seq then { x with tsRec := v % 2 ^ 32 } else x | _, _ => x) s) ∧ (u.ctx p.ctx).rcvNxt = p.seq ∧ p.seq < 2 ^ 32)
    ∧ (∃ (s : State) (c : Nat) (x : Ctx), engineTakes (s.ctx c).lport s = true ∧ s.ctx c = x ∧ x.tcp = true ∧ x.st = .ready ∧ x.resident = true ∧ x.pend = [] ∧ x.tlsHeld = false)
    ∧ (∃ (s : State) (c seq : Nat) (x : Ctx), engineTakes (s.ctx c).lport s = true ∧ s.ctx c = x ∧ x.tcp = true ∧ x.st = .ready ∧ x.resident = true ∧ x.pend = [] ∧ x.tlsHeld = false ∧ x.rcvNxt ≤ seq ∧ seq < x.rcvNxt + x.rwin * 1024 ∧ seq < 2 ^ 32)
    ∧ (∃ (s : State) (c t : Nat), (s.ctx c).ackAt = some t ∧ t ≤ s.clk.now ∧ (s.ctx c).tcp = true ∧ (s.ctx c).live = true ∧ (s.ctx c).resident = true)
    ∧ (∃ (s : State) (c t : Nat), (s.ctx c).toAt = some t ∧ t ≤ s.clk.now ∧ (s.ctx c).tcp = true ∧ (s.ctx c).live = true ∧ s.md.mode = .active ∧ (s.ctx c).resident = true ∧ (s.ctx c).tries + 1 < s.xpt.retries)
    ∧ (∃ (s : State) (c t : Nat), (s.ctx c).icAt = some t ∧ t ≤ s.clk.now ∧ (s.ctx c).st = .connecting ∧ s.md.mode = .active ∧ (s.ctx c).resident = true)
    ∧ (∃ (s : State) (c t : Nat), (s.ctx c).tlsAt = some t ∧ t ≤ s.clk.now ∧ (s.ctx c).st = .tls ∧ s.md.mode = .active ∧ (s.ctx c).resident = true)
    ∧ (∃ (s : State) (c g : Nat) (hn sn : List Word), s.md.kumel = .running ∧ (s.ctx c).st = .tls ∧ (s.xpt.hsq.take 256).contains c = true ∧ (s.ctx c).resident = true ∧ handshakeOk s g hn sn = true)
    ∧ (∃ (s : State) (c : Nat), s.md.kumel = .running ∧ (s.ctx c).tlsHeld = true ∧ (s.ctx c).resident = true) :=
  ⟨⟨wl, sy, 0, count1 2080 (engineAt (1000 + 65536 * (4420 % 256)) wl), { se0 with isn := (takeFree (count1 2080 (engineAt (1000 + 65536 * (4420 % 256)) wl))).1.toNat % 2 ^ 32, own := wl.xpt.mtu - 40, dueAt := sec, irs := 99 }, ⟨by decide +kernel, rfl, by decide +kernel, by decide +kernel, rfl, by decide +kernel, by decide +kernel, by rfl⟩⟩,
   ⟨{ wl with xpt := { wl.xpt with syns := [(0, se0)] } }, 0, se0, by decide⟩,
   ⟨{ wl with xpt := { wl.xpt with syns := [(0, { se0 with tries := 2 })] } }, 0, { se0 with tries := 2 }, by decide⟩,
   ⟨{ wl with xpt := { wl.xpt with syns := [(0, se0)] } }, 0, 0, se0, freeSyn 0 (count1 2080 (engineAt 0 { wl with xpt := { wl.xpt with syns := [(0, se0)] } })), by decide⟩,
   ⟨wc tx, ⟨3, 0, 50, 4, 90, false, false, false, 100, .none, [], 65535, [], none, []⟩, tx, by decide⟩,
   ⟨wc tx, tcpAckIn 3 ⟨3, 0, 50, 4, 90, false, false, false, 100, .none, [], 65535, [], none, []⟩ (wc tx), ⟨3, 0, 50, 4, 90, false, false, false, 100, .none, [], 65535, [], none, []⟩, by decide +kernel⟩,
   ⟨wc tx, 3, tx, by decide⟩,
   ⟨wc tx, 3, 55, tx, by decide⟩,
   ⟨wc { tx with ackAt := some 0 }, 3, 0, by decide⟩,
   ⟨wc { tx with toAt := some 0 }, 3, 0, by decide⟩,
   ⟨wc { tx with icAt := some 0, st := .connecting }, 3, 0, by decide⟩,
   ⟨wc { tx with tlsAt := some 0, st := .tls }, 3, 0, by decide⟩,
   ⟨{ wc { tx with st := .tls } with xpt := { ctxs := [(3, { tx with st := .tls })], hsq := [3], groups := 3 }, nvm := { hosts := [(0, { nqn := [5], enable := true, psk := some (0, []) })], nqn := some [9] } }, 3, 1, [5], [9], by decide⟩,
   ⟨wc { tx with tlsHeld := true }, 3, by decide⟩⟩
theorem witness_pigeonholeComplete :
    (∃ (s : State) (c : Nat) (cs : List Nat), s.xpt.fillq = c :: cs ∧ tabCount s.xpt.ctxs (fun _ x => x.fill = 2) < 256 ∧ residents s + tabCount s.xpt.ctxs (fun _ x => x.fill = 2) < 8192 ∧ s.xpt.fillAt.all (fun t => decide (t + 100 ≤ s.clk.now)) = true)
    ∧ (∃ (s : State) (c : Nat), (s.ctx c).fill = 2)
    ∧ (∃ (s : State), 8128 < residents s)
    ∧ (∃ (s : State) (c : Nat) (h : Held) (hs : List Held), (s.ctx c).ready = h :: hs ∧ (s.ctx c).st = .ready ∧ s.marked h.seq = true ∧ (s.ctx c).resident = true ∧ (s.ctx c).tcp = true)
    ∧ (∃ (s : State) (p : Packet), taken 0x040B 3 0 p s = true ∧ clean (mask 3 0 ||| mask 8 8) (p.w 4) = true ∧ bits 15 0 (p.w 3) ≠ 0 ∧ bits 31 16 (p.w 3) ≠ 0 ∧ bits 15 0 (p.w 3) ≠ bits 31 16 (p.w 3) ∧ bit 3 (p.w 4) = false ∧ listenerClash ((s.arrived 0x040B p).onXpt fun x => { x with tports := (p.w 2).toNat, port := bits 15 0 (p.w 3), tlsPort := bits 31 16 (p.w 3), tv4 := bit 0 (p.w 4), tv6 := bit 1 (p.w 4), plain := bit 2 (p.w 4), tls := bit 3 (p.w 4) }) = false ∧ (s.arrived 0x040B p).xpt.ctxs = [])
    ∧ (∃ (s : State) (p : Packet), taken 0x040C 3 0 p s = true ∧ clean (mask 13 0 ||| mask 29 16) (p.w 2) = true ∧ clean (mask 3 0 ||| mask 16 8) (p.w 4) = true ∧ 1500 ≤ bits 13 0 (p.w 2) ∧ bits 13 0 (p.w 2) ≤ 9000 ∧ 256 ≤ bits 28 16 (p.w 2) ∧ bits 28 16 (p.w 2) ≤ 4096 ∧ 1 ≤ bits 15 0 (p.w 3) ∧ bits 15 0 (p.w 3) ≤ 65535 ∧ 10 ≤ bits 31 16 (p.w 3) ∧ bits 31 16 (p.w 3) ≤ 60000 ∧ 3 ≤ bits 3 0 (p.w 4) ∧ bits 3 0 (p.w 4) ≤ 15 ∧ 1 ≤ bits 16 8 (p.w 4) ∧ bits 16 8 (p.w 4) ≤ 256)
    ∧ (∃ (s : State) (p : Packet), taken 0x040D 1 0 p s = true ∧ clean (mask 2 0) (p.w 2) = true ∧ bits 2 1 (p.w 2) ≠ 0)
    ∧ (∃ (s : State) (p : Packet), taken 0x040E 2 0 p s = true ∧ clean (mask 10 0 ||| mask 17 16) (p.w 2) = true ∧ clean (mask 16 0) (p.w 3) = true ∧ bit 16 (p.w 2) = false ∧ bit 17 (p.w 2) = true ∧ 1 ≤ bits 16 0 (p.w 3) ∧ bits 16 0 (p.w 3) ≤ 65536)
    ∧ (∃ (s : State) (p : Packet), taken 0x040F 0 0 p s = true) :=
  ⟨⟨{ w0 with xpt := { fillq := [3] } }, 3, [], by decide⟩,
   ⟨wc { tx with fill := 2 }, 3, by decide⟩,
   ⟨{ w0 with xpt := { ctxs := (List.range 8129).map fun k => (k, tx) } }, by simp [residents, tabCount, tx, List.filter_eq_self.2]⟩,
   ⟨wc { tx with ready := [⟨1, none, .success, false, 0, none, false, 0, true, none, none⟩] }, 3, ⟨1, none, .success, false, 0, none, false, 0, true, none, none⟩, [], by decide⟩,
   ⟨w0, pk [1, 0x11451144 + 0xFFFF, 5], by decide⟩,
   ⟨w0, pk [0x04002328, 0x07D00014, 0x2008], by decide⟩,
   ⟨w0, pk [3], by decide⟩,
   ⟨w0, pk [0x20005, 7], by decide⟩,
   ⟨w0, pk [], by decide⟩⟩
theorem witness_nvmeIoComplete :
    (∃ (s b : State) (c : IoCmd) (u col : Nat), ioTakes c s = true ∧ u = ((adminAt c.ctx s).ctx c.ctx).sub ∧ ((adminAt c.ctx s).sub u).queue = [] ∧ markItem u c.dscp (costOf (adminAt c.ctx s) ⟨.read, c⟩ ((adminAt c.ctx s).sub u)) (adminAt c.ctx s) = (col, b) ∧ col < 2 ∧ tagFree (countWatch u col b) u = true ∧ ((countWatch u col b).sub u).queue = [])
    ∧ (∃ (s b : State) (c : IoCmd) (u col : Nat), ioTakes c s = true ∧ u = ((adminAt c.ctx s).ctx c.ctx).sub ∧ ((adminAt c.ctx s).sub u).queue = [] ∧ markItem u c.dscp (costOf (adminAt c.ctx s) ⟨.write, c⟩ ((adminAt c.ctx s).sub u)) (adminAt c.ctx s) = (col, b) ∧ col < 2 ∧ tagFree (countWatch u col b) u = true ∧ ((countWatch u col b).sub u).queue = [])
    ∧ (∃ (s b : State) (c : IoCmd) (u col : Nat), ioTakes c s = true ∧ u = ((adminAt c.ctx s).ctx c.ctx).sub ∧ ((adminAt c.ctx s).sub u).queue = [] ∧ markItem u c.dscp (costOf (adminAt c.ctx s) ⟨.flush, c⟩ ((adminAt c.ctx s).sub u)) (adminAt c.ctx s) = (col, b) ∧ col < 2 ∧ tagFree (countWatch u col b) u = true ∧ ((countWatch u col b).sub u).queue = [])
    ∧ (∃ (s b : State) (c : IoCmd) (u col : Nat), ioTakes c s = true ∧ u = ((adminAt c.ctx s).ctx c.ctx).sub ∧ ((adminAt c.ctx s).sub u).queue = [] ∧ markItem u c.dscp (costOf (adminAt c.ctx s) ⟨.compare, c⟩ ((adminAt c.ctx s).sub u)) (adminAt c.ctx s) = (col, b) ∧ col < 2 ∧ tagFree (countWatch u col b) u = true ∧ ((countWatch u col b).sub u).queue = [])
    ∧ (∃ (s b : State) (c : IoCmd) (u col : Nat), ioTakes c s = true ∧ u = ((adminAt c.ctx s).ctx c.ctx).sub ∧ ((adminAt c.ctx s).sub u).queue = [] ∧ markItem u c.dscp (costOf (adminAt c.ctx s) ⟨.writeZeroes, c⟩ ((adminAt c.ctx s).sub u)) (adminAt c.ctx s) = (col, b) ∧ col < 2 ∧ tagFree (countWatch u col b) u = true ∧ ((countWatch u col b).sub u).queue = [])
    ∧ (∃ (s b : State) (c : IoCmd) (u col : Nat), ioTakes c s = true ∧ u = ((adminAt c.ctx s).ctx c.ctx).sub ∧ ((adminAt c.ctx s).sub u).queue = [] ∧ markItem u c.dscp (costOf (adminAt c.ctx s) ⟨.dsm, c⟩ ((adminAt c.ctx s).sub u)) (adminAt c.ctx s) = (col, b) ∧ col < 2 ∧ tagFree (countWatch u col b) u = true ∧ ((countWatch u col b).sub u).queue = [])
    ∧ (∃ (s b : State) (c : IoCmd) (u col : Nat), ioTakes c s = true ∧ u = ((adminAt c.ctx s).ctx c.ctx).sub ∧ ((adminAt c.ctx s).sub u).queue = [] ∧ markItem u c.dscp (costOf (adminAt c.ctx s) ⟨.verify, c⟩ ((adminAt c.ctx s).sub u)) (adminAt c.ctx s) = (col, b) ∧ col < 2 ∧ tagFree (countWatch u col b) u = true ∧ ((countWatch u col b).sub u).queue = [])
    ∧ (∃ (s b : State) (c : IoCmd) (u col : Nat), ioTakes c s = true ∧ u = ((adminAt c.ctx s).ctx c.ctx).sub ∧ ((adminAt c.ctx s).sub u).queue = [] ∧ markItem u c.dscp (costOf (adminAt c.ctx s) ⟨.copy, c⟩ ((adminAt c.ctx s).sub u)) (adminAt c.ctx s) = (col, b) ∧ col < 2 ∧ tagFree (countWatch u col b) u = true ∧ ((countWatch u col b).sub u).queue = [])
    ∧ (∃ (s b : State) (c : IoCmd) (u col : Nat), ioTakes c s = true ∧ u = ((adminAt c.ctx s).ctx c.ctx).sub ∧ ((adminAt c.ctx s).sub u).queue = [] ∧ markItem u c.dscp (costOf (adminAt c.ctx s) ⟨.resRegister, c⟩ ((adminAt c.ctx s).sub u)) (adminAt c.ctx s) = (col, b) ∧ col < 2 ∧ tagFree (countWatch u col b) u = true ∧ ((countWatch u col b).sub u).queue = [])
    ∧ (∃ (s b : State) (c : IoCmd) (u col : Nat), ioTakes c s = true ∧ u = ((adminAt c.ctx s).ctx c.ctx).sub ∧ ((adminAt c.ctx s).sub u).queue = [] ∧ markItem u c.dscp (costOf (adminAt c.ctx s) ⟨.resReport, c⟩ ((adminAt c.ctx s).sub u)) (adminAt c.ctx s) = (col, b) ∧ col < 2 ∧ tagFree (countWatch u col b) u = true ∧ ((countWatch u col b).sub u).queue = [])
    ∧ (∃ (s b : State) (c : IoCmd) (u col : Nat), ioTakes c s = true ∧ u = ((adminAt c.ctx s).ctx c.ctx).sub ∧ ((adminAt c.ctx s).sub u).queue = [] ∧ markItem u c.dscp (costOf (adminAt c.ctx s) ⟨.resAcquire, c⟩ ((adminAt c.ctx s).sub u)) (adminAt c.ctx s) = (col, b) ∧ col < 2 ∧ tagFree (countWatch u col b) u = true ∧ ((countWatch u col b).sub u).queue = [])
    ∧ (∃ (s b : State) (c : IoCmd) (u col : Nat), ioTakes c s = true ∧ u = ((adminAt c.ctx s).ctx c.ctx).sub ∧ ((adminAt c.ctx s).sub u).queue = [] ∧ markItem u c.dscp (costOf (adminAt c.ctx s) ⟨.resRelease, c⟩ ((adminAt c.ctx s).sub u)) (adminAt c.ctx s) = (col, b) ∧ col < 2 ∧ tagFree (countWatch u col b) u = true ∧ ((countWatch u col b).sub u).queue = [])
    ∧ (∃ (s : State) (t : Nat) (ts : List Nat), s.wbf.space = t :: ts)
    ∧ (∃ (s : State) (l : Nat), tabHas s.vol.fills l = true ∧ s.vol.lines.length < 2048)
    ∧ (∃ (s a : State) (t off : Nat) (hs : List HBlk) (c : Cmd) (n : Ns), tabFind s.stk.fwd t = none ∧ s.cmdOf t = some c ∧ c.phase = .run ∧ hs.length < c.left ∧ c.cmd.op = .write ∧ s.nsOf c.cmd.a.nsid = some n ∧ arriveBlks t c n off hs s = some a)
    ∧ (∃ (s : State) (t : Nat) (c : Cmd), s.cmdOf t = some c ∧ c.ready = true ∧ s.marked c.seq = true ∧ (s.ctx c.cmd.a.ctx).resident = true ∧ isResv c.cmd.op = false ∧ dataHanded s c.cmd.a.ctx (t, c.gen) c.cmd.a.cid = true ∧ (ackedWrite c = false ∨ s.wbf.ackAt ≤ s.clk.now))
    ∧ (∃ (s : State) (ctx cid : Nat) (k : Ctrl) (c acid : Nat) (sq : Nat), ctrlOf s ctx = some k ∧ (k.aborts.find? fun a => a.1 = ctx && a.2.1 = cid) = some (ctx, cid, sq, acid) ∧ (s.xpt.ctxs.find? fun e => e.2.ctrl = (s.ctx ctx).ctrl && e.2.qid = sq && e.2.st = .ready).map (·.1) = some c ∧ (s.qos.subs.any fun e => e.2.queue.any fun d => decide (d.cmd.a.ctx = c) && decide (d.cmd.a.cid = acid)) = true) :=
  ⟨⟨wa, adminAt 4 wa, ic, 9, 0, by decide⟩,
   ⟨wa, adminAt 4 wa, ic, 9, 0, by decide⟩,
   ⟨wa, adminAt 4 wa, ic, 9, 0, by decide⟩,
   ⟨wa, adminAt 4 wa, ic, 9, 0, by decide⟩,
   ⟨wa, adminAt 4 wa, ic, 9, 0, by decide⟩,
   ⟨wa, adminAt 4 wa, ic, 9, 0, by decide⟩,
   ⟨wa, adminAt 4 wa, ic, 9, 0, by decide⟩,
   ⟨wa, adminAt 4 wa, ic, 9, 0, by decide⟩,
   ⟨wa, adminAt 4 wa, ic, 9, 0, by decide⟩,
   ⟨wa, adminAt 4 wa, ic, 9, 0, by decide⟩,
   ⟨wa, adminAt 4 wa, ic, 9, 0, by decide⟩,
   ⟨wa, adminAt 4 wa, ic, 9, 0, by decide⟩,
   ⟨{ wa with wbf := { space := [0] } }, 0, [], by decide⟩,
   ⟨{ wa with vol := { fills := [(5, 0)] } }, 5, by decide⟩,
   ⟨{ wa with nvm := { wa.nvm with tags := [(0, { cmd := ⟨.write, ic⟩, gen := 0, order := 0, sub := 9, cls := 0, epoch := 0, phase := .run, left := 1 })] } }, { wa with nvm := { wa.nvm with tags := [(0, { cmd := ⟨.write, ic⟩, gen := 0, order := 0, sub := 9, cls := 0, epoch := 0, phase := .run, left := 1 })] } }, 0, 0, [], { cmd := ⟨.write, ic⟩, gen := 0, order := 0, sub := 9, cls := 0, epoch := 0, phase := .run, left := 1 }, nx, by decide⟩,
   ⟨{ wa with nvm := { wa.nvm with tags := [(0, { cmd := ⟨.read, ic⟩, gen := 0, order := 0, sub := 9, cls := 0, epoch := 0, phase := .run, ready := true })] } }, 0, { cmd := ⟨.read, ic⟩, gen := 0, order := 0, sub := 9, cls := 0, epoch := 0, phase := .run, ready := true }, by decide⟩,
   ⟨{ wa with nvm := { wa.nvm with ctrls := [(1, { kx with aborts := [(3, 5, 1, 9)] })] }, qos := { subs := [(9, { queue := [⟨⟨.read, ic⟩, none⟩] })] } }, 3, 5, { kx with aborts := [(3, 5, 1, 9)] }, 4, 9, 1, by decide⟩⟩
theorem witness_nvmeAdminComplete :
    (∃ (s : State) (r : ConnectReq) (h : Nat) (e : HostEnt), s.xpt.admq = [] ∧ (s.ctx r.ctx).st = .ready ∧ s.md.mode = .active ∧ s.md.admitStop = false ∧ ((adminAt r.ctx s).ctx r.ctx).ctrl = none ∧ connectCheck r (adminAt r.ctx s) = .ok (h, e) ∧ r.qid ≠ 0)
    ∧ (∃ (s : State) (ctx cid n : Nat) (c : Ctrl), adminTakes .disconnect ctx cid n c s = true ∧ ((adminAt ctx s).ctx ctx).qid ≠ 0 ∧ ((adminAt ctx s).ctx ctx).tcp = false)
    ∧ (∃ (s : State) (ctx cid n : Nat) (c : Ctrl), adminTakes .keepAlive ctx cid n c s = true)
    ∧ (∃ (s : State) (ctx cid n : Nat) (c : Ctrl) (hs gs : List Nat) (h g : Nat), adminTakes .auth ctx cid n c s = true ∧ c.authFails < 3 ∧ (hs.find? fun h => decide (h < 3) && (tabGet {} (adminAt ctx s).nvm.hosts c.host : HostEnt).hashes.testBit h) = some h ∧ (gs.find? fun g => decide (g < 5) && (tabGet {} (adminAt ctx s).nvm.hosts c.host : HostEnt).dhg.testBit g) = some g)
    ∧ (∃ (s : State) (ctx cid n : Nat) (c : Ctrl) (h g : Nat), adminTakes .auth ctx cid n c s = true ∧ c.auth = .challenge h g)
    ∧ (∃ (s : State) (ctx cid n : Nat) (c : Ctrl) (v : Nat), adminTakes .discovery ctx cid n c s = true ∧ v / 2 ^ 16 % 16 = 6 ∧ v / 2 ^ 20 % 16 = 4)
    ∧ (∃ (s : State) (ctx cid n : Nat) (c : Ctrl), adminTakes .discovery ctx cid n c s = true)
    ∧ (∃ (s : State) (ctx cid n : Nat) (c : Ctrl), adminTakes .discovery ctx cid n c s = true ∧ c.disc = false)
    ∧ (∃ (s : State) (ctx cid n : Nat) (c : Ctrl), adminTakes .discovery ctx cid n c s = true ∧ c.disc = false)
    ∧ (∃ (s : State) (ctx cid n : Nat) (c : Ctrl), adminTakes .other ctx cid n c s = true)
    ∧ (∃ (s : State) (ctx cid n : Nat) (c : Ctrl), adminTakes .other ctx cid n c s = true)
    ∧ (∃ (s : State) (ctx cid n : Nat) (c : Ctrl), adminTakes .discovery ctx cid n c s = true ∧ c.notices = [] ∧ c.aers.length < 8)
    ∧ (∃ (s : State) (ctx cid n : Nat) (c : Ctrl), adminTakes .other ctx cid n c s = true ∧ c.aborts.length < 4)
    ∧ (∃ (s : State) (ctx cid n : Nat) (c : Ctrl) (d : Nat) (m : Ns), adminTakes .other ctx cid n c s = true ∧ privOf (adminAt ctx s) c 0 = true ∧ (adminAt ctx s).nsOf d = some m ∧ m.home = (adminAt ctx s).pos ∧ m.deleting = false ∧ migrating (adminAt ctx s) d = false)
    ∧ (∃ (s : State) (ctx cid n : Nat) (c : Ctrl), adminTakes .other ctx cid n c s = true ∧ privOf (adminAt ctx s) c 0 = true)
    ∧ (∃ (s : State) (ctx cid n : Nat) (c : Ctrl) (d q : Nat) (k : Ctrl) (m : Ns) (t : State), adminTakes .other ctx cid n c s = true ∧ privOf (adminAt ctx s) c 0 = true ∧ (adminAt ctx s).nsOf d = some m ∧ m.home = (adminAt ctx s).pos ∧ m.deleting = false ∧ tabFind (adminAt ctx s).nvm.ctrls q = some k ∧ k.disc = false ∧ m.hosts.contains k.host = false ∧ takeChange ⟨.host ctx cid, [.attach d k.host false]⟩ (adminAt ctx s) = some t)
    ∧ (∃ (s : State) (ctx cid n : Nat) (c : Ctrl) (d lb : Nat) (m : Ns), adminTakes .other ctx cid n c s = true ∧ privOf (adminAt ctx s) c 1 = true ∧ d ≠ 0xFFFFFFFF ∧ lb ≤ 3 ∧ (adminAt ctx s).nsOf d = some m ∧ m.hosts.contains c.host = true ∧ m.home = (adminAt ctx s).pos ∧ m.deleting = false ∧ m.creating = false ∧ (adminAt ctx s).nvm.sanitize = none ∧ (lb = m.lbaf ∨ m.map = []) ∧ setsFit (adminAt ctx s) lb m.enc m.sets = true ∧ m.held = false)
    ∧ (∃ (s : State) (ctx cid n : Nat) (c : Ctrl), adminTakes .other ctx cid n c s = true ∧ privOf (adminAt ctx s) c 2 = true ∧ (adminAt ctx s).order = 1 ∧ (adminAt ctx s).master = true ∧ ((adminAt ctx s).vol.ns.any fun e => e.2.enc = 0) = false ∧ (adminAt ctx s).nvm.sanitize = none ∧ (adminAt ctx s).vol.ns ≠ [])
    ∧ (∃ (s : State) (n : Nat) (c : Ctrl), tabFind s.nvm.ctrls n = some c ∧ s.md.mode = .active ∧ s.md.kumel = .running ∧ c.kaAt ≤ s.clk.now) :=
  ⟨⟨{ wa with xpt := { ctxs := [(3, { cx with ctrl := some 1 }), (4, cx)] } }, cr, 0, hx, ⟨by decide, by decide, by decide, by decide, by decide, by rfl, by decide⟩⟩,
   ⟨wa, 4, 5, 1, kx, by decide⟩,
   ⟨wa, 3, 5, 1, kx, by decide⟩,
   ⟨{ wa with nvm := { wa.nvm with hosts := [(0, { hx with hashes := 7, dhg := 31 })] } }, 3, 5, 1, kx, [1], [2], 1, 2, by decide⟩,
   ⟨{ wa with nvm := { wa.nvm with ctrls := [(1, { kx with auth := .challenge 1 2 })] } }, 3, 5, 1, { kx with auth := .challenge 1 2 }, 1, 2, by decide⟩,
   ⟨wa, 3, 5, 1, kx, 4587521, by decide⟩,
   ⟨wa, 3, 5, 1, kx, by decide⟩,
   ⟨wa, 3, 5, 1, kx, by decide⟩,
   ⟨wa, 3, 5, 1, kx, by decide⟩,
   ⟨wa, 3, 5, 1, kx, by decide⟩,
   ⟨wa, 3, 5, 1, kx, by decide⟩,
   ⟨wa, 3, 5, 1, kx, by decide⟩,
   ⟨wa, 3, 5, 1, kx, by decide⟩,
   ⟨wa, 3, 5, 1, kx, 1, nx, by decide⟩,
   ⟨wa, 3, 5, 1, kx, by decide⟩,
   ⟨{ wa with vol := { wa.vol with ns := [(1, { nx with hosts := [] })] } }, 3, 5, 1, kx, 1, 1, kx, { nx with hosts := [] }, (takeChange ⟨.host 3 5, [.attach 1 0 false]⟩ (adminAt 3 { wa with vol := { wa.vol with ns := [(1, { nx with hosts := [] })] } })).getD {}, by decide +kernel⟩,
   ⟨wa, 3, 5, 1, kx, 1, 2, nx, by decide⟩,
   ⟨{ wa with vol := { wa.vol with ns := [(1, { nx with enc := 1 })] } }, 3, 5, 1, kx, by decide⟩,
   ⟨wa, 1, kx, by decide⟩⟩
theorem witness_nvmCommandsComplete :
    (∃ (s : State) (p : Packet), taken 0x0501 1 (bits 5 0 (p.w 2)) p s = true ∧ (s.arrived 0x0501 p).master = true ∧ clean (mask 5 0) (p.w 2) = true ∧ 1 ≤ bits 5 0 (p.w 2) ∧ bits 5 0 (p.w 2) ≤ 56 ∧ nameOk (p.data 1) = true ∧ ((s.arrived 0x0501 p).nvm.ctrls.any fun c => !c.2.disc) = false)
    ∧ (∃ (s : State) (p : Packet), taken 0x0502 0 0 p s = true)
    ∧ (∃ (s : State) (p : Packet), taken 0x0503 4 (bits 5 0 (p.w 2)) p s = true ∧ clean (mask 5 0) (p.w 2) = true ∧ 1 ≤ bits 5 0 (p.w 2) ∧ bits 5 0 (p.w 2) ≤ 56 ∧ clean (mask 10 0 ||| mask 26 16 ||| mask 31 31) (p.w 3) = true ∧ clean (mask 3 0 ||| mask 10 8 ||| mask 14 12 ||| mask 20 16) (p.w 4) = true ∧ clean (mask 4 0 ||| mask 8 8) (p.w 5) = true ∧ 1 ≤ bits 4 0 (p.w 5) ∧ bits 4 0 (p.w 5) ≤ 16 ∧ nameOk (p.data 4) = true ∧ bit 8 (p.w 4) = false ∧ bit 10 (p.w 4) = false ∧ ((s.arrived 0x0503 p).nvm.hosts.any fun e => e.1 != bits 10 0 (p.w 3) && trimName e.2.nqn = trimName (p.data 4)) = false ∧ tabFind (s.arrived 0x0503 p).nvm.hosts (bits 10 0 (p.w 3)) = none)
    ∧ (∃ (s : State) (p : Packet), taken 0x0504 1 0 p s = true ∧ clean (mask 10 0 ||| mask 16 16) (p.w 2) = true ∧ tabHas (s.arrived 0x0504 p).nvm.hosts (bits 10 0 (p.w 2)) = true ∧ ctrlsOfHost (s.arrived 0x0504 p) (bits 10 0 (p.w 2)) = [])
    ∧ (∃ (s : State) (p : Packet) (e : HostEnt), taken 0x0505 1 0 p s = true ∧ clean (mask 10 0) (p.w 2) = true ∧ tabFind (s.arrived 0x0505 p).nvm.hosts (bits 10 0 (p.w 2)) = some e)
    ∧ (∃ (s : State) (p : Packet), taken 0x0506 2 (bits 4 0 (p.w 2)) p s = true ∧ clean (mask 4 0) (p.w 2) = true ∧ clean (mask 10 0 ||| mask 17 16 ||| mask 21 20 ||| mask 25 24) (p.w 3) = true ∧ bits 4 0 (p.w 2) = 8 ∧ bits 17 16 (p.w 3) = 0 ∧ bit 24 (p.w 3) = false ∧ bit 25 (p.w 3) = false ∧ tabHas (s.arrived 0x0506 p).nvm.hosts (bits 10 0 (p.w 3)) = true)
    ∧ (∃ (s : State) (p : Packet) (c : Ctrl), taken 0x0507 1 0 p s = true ∧ clean (mask 15 0) (p.w 2) = true ∧ tabFind (s.arrived 0x0507 p).nvm.ctrls (bits 15 0 (p.w 2)) = some c)
    ∧ (∃ (s : State) (p : Packet), taken 0x0508 1 0 p s = true ∧ clean (mask 15 0) (p.w 2) = true ∧ tabHas (s.arrived 0x0508 p).nvm.ctrls (bits 15 0 (p.w 2)) = true)
    ∧ (∃ (s : State) (p : Packet), taken 0x0509 2 0 p s = true ∧ clean (mask 10 0) (p.w 2) = true ∧ clean (mask 18 0) (p.w 3) = true ∧ 64 ≤ bits 18 0 (p.w 3) ∧ bits 18 0 (p.w 3) ≤ 262144)
    ∧ (∃ (s : State) (p : Packet), taken 0x050A 1 0 p s = true ∧ clean (mask 11 0) (p.w 2) = true ∧ bits 11 0 (p.w 2) < 2048) :=
  ⟨⟨w0, pkd 1 [1, 5], by decide⟩,
   ⟨w0, pk [], by decide⟩,
   ⟨w0, pkd 4 [1, 0x80090000, 15, 4, 5], by decide⟩,
   ⟨{ w0 with nvm := { hosts := [(0, hx)] } }, pk [0], by decide⟩,
   ⟨{ w0 with nvm := { hosts := [(0, hx)] } }, pk [0], hx, by decide⟩,
   ⟨{ w0 with nvm := { hosts := [(0, hx)] } }, pkd 2 [8, 0, 1, 2, 3, 4, 5, 6, 7, 8], by decide⟩,
   ⟨wa, pk [1], kx, by decide⟩,
   ⟨wa, pk [1], by decide⟩,
   ⟨w0, pk [1, 64], by decide⟩,
   ⟨w0, pk [5], by decide⟩⟩
theorem witness_volumeSetsComplete :
    (∃ (s : State) (p : Packet) (slots : List Nat) (v : VSet), taken 0x0601 8 0 p s = true ∧ clean (mask 4 0 ||| mask 9 8 ||| mask 20 16 ||| mask 27 24) (p.w 2) = true ∧ clean (mask 22 0) (p.w 3) = true ∧ widthOk (bits 9 8 (p.w 2)) (bits 20 16 (p.w 2)) = true ∧ bits 25 24 (p.w 2) < 3 ∧ bit 27 (p.w 2) = false ∧ (List.range (bits 20 16 (p.w 2))).map (byteAt (p.words.drop 2)) = slots ∧ (slots.all fun k => decide (k < 24)) = true ∧ slots.eraseDups.length = bits 20 16 (p.w 2) ∧ ((List.range 24).all fun b => decide (b < bits 20 16 (p.w 2)) || decide (byteAt (p.words.drop 2) b = 0)) = true ∧ tabHas (s.arrived 0x0601 p).vol.sets (bits 4 0 (p.w 2)) = false ∧ (slots.all fun k => (memberAt (s.arrived 0x0601 p) k).isNone && !tabHas (s.arrived 0x0601 p).vol.spares k) = true ∧ (slots.all fun k => slotOn (s.arrived 0x0601 p) k && enumerated (s.arrived 0x0601 p) k) = true ∧ drivesFit (s.arrived 0x0601 p) (bits 26 26 (p.w 2)) slots = true ∧ 64 * GiB ≤ smallestOf (s.arrived 0x0601 p) slots ∧ newSet (takeFree (s.arrived 0x0601 p)).2 (bits 9 8 (p.w 2)) (bits 20 16 (p.w 2)) (bits 25 24 (p.w 2)) (bits 26 26 (p.w 2)) false (bits 22 0 (p.w 3)) slots ((takeFree (s.arrived 0x0601 p)).1.toNat % 2 ^ 64) = v ∧ bits 22 0 (p.w 3) ≤ setParcels v)
    ∧ (∃ (s : State) (p : Packet) (v : VSet), taken 0x0602 1 0 p s = true ∧ clean (mask 4 0) (p.w 2) = true ∧ (s.arrived 0x0602 p).vset (bits 4 0 (p.w 2)) = some v ∧ v.parcels = [] ∧ (s.arrived 0x0602 p).vol.mig = none)
    ∧ (∃ (s : State) (p : Packet) (v : VSet), taken 0x0603 1 0 p s = true ∧ clean (mask 4 0) (p.w 2) = true ∧ (s.arrived 0x0603 p).vset (bits 4 0 (p.w 2)) = some v)
    ∧ (∃ (s : State) (p : Packet) (v : VSet), taken 0x0604 2 0 p s = true ∧ clean (mask 4 0) (p.w 2) = true ∧ clean (mask 22 0) (p.w 3) = true ∧ (s.arrived 0x0604 p).vset (bits 4 0 (p.w 2)) = some v ∧ bits 22 0 (p.w 3) ≤ setParcels v)
    ∧ (∃ (s : State) (p : Packet) (n : Ns) (l : List Nat), taken 0x0608 5 0 p s = true ∧ setListOf (p.w 5) (p.w 6) = some l ∧ nsidOk (p.w 2) 0 = true ∧ clean (mask 22 0) (p.w 3) = true ∧ clean (mask 1 0) (p.w 4) = true ∧ l ≠ [] ∧ (s.arrived 0x0608 p).nsOf (bits 12 0 (p.w 2)) = some n ∧ n.deleting = false ∧ n.home = (s.arrived 0x0608 p).pos ∧ actsForShelf (s.arrived 0x0608 p) = true ∧ setsKnown (s.arrived 0x0608 p) l = true ∧ setsFit (s.arrived 0x0608 p) n.lbaf n.enc l = true)
    ∧ (∃ (s : State) (p : Packet) (n : Ns), taken 0x060A 1 0 p s = true ∧ nsidOk (p.w 2) 0 = true ∧ (s.arrived 0x060A p).nsOf (bits 12 0 (p.w 2)) = some n)
    ∧ (∃ (s : State) (p : Packet) (n : Ns), taken 0x060B 3 0 p s = true ∧ nsidOk (p.w 2) 0 = true ∧ clean (mask 21 0) (p.w 3) = true ∧ clean (mask 10 0 ||| mask 20 16) (p.w 4) = true ∧ 1 ≤ bits 10 0 (p.w 4) ∧ bits 10 0 (p.w 4) ≤ 1024 ∧ (s.arrived 0x060B p).nsOf (bits 12 0 (p.w 2)) = some n ∧ n.deleting = false ∧ n.home = (s.arrived 0x060B p).pos ∧ actsForShelf (s.arrived 0x060B p) = true ∧ (s.arrived 0x060B p).vol.mig = none ∧ bits 21 0 (p.w 3) + bits 10 0 (p.w 4) ≤ n.size ∧ tabHas (s.arrived 0x060B p).vol.sets (bits 20 16 (p.w 4)) = true)
    ∧ (∃ (s : State) (p : Packet) (n : Ns) (l : Leaf), taken 0x060C 2 0 p s = true ∧ nsidOk (p.w 2) 0 = true ∧ clean (mask 21 0) (p.w 3) = true ∧ (s.arrived 0x060C p).nsOf (bits 12 0 (p.w 2)) = some n ∧ bits 21 0 (p.w 3) < n.size ∧ leafOf n (bits 21 0 (p.w 3)) = some l)
    ∧ (∃ (s : State) (p : Packet) (l : List Nat), taken 0x060D 3 0 p s = true ∧ setListOf (p.w 3) (p.w 4) = some l ∧ clean (mask 3 0) (p.w 2) = true ∧ bits 1 0 (p.w 2) = 0)
    ∧ (∃ (s : State) (p : Packet), taken 0x060E 0 0 p s = true) :=
  ⟨⟨wd, pk [0x20000, 1, 0x100, 0, 0, 0, 0, 0], [0, 1], _, by and_intros <;> first | decide +kernel | rfl⟩,
   ⟨wa, pk [0], vx, by decide⟩,
   ⟨wa, pk [0], vx, by decide⟩,
   ⟨wa, pk [0, 1], vx, by decide⟩,
   ⟨wa, pk [1, 0, 3, 128, 0], nx, [0], by decide⟩,
   ⟨wa, pk [1], nx, by decide⟩,
   ⟨wa, pk [1, 0, 1], nx, by decide⟩,
   ⟨{ wa with vol := { wa.vol with ns := [(1, { nx with map := [(0, ⟨0, 5, false, 0, 0⟩)] })] } }, pk [1, 0], { nx with map := [(0, ⟨0, 5, false, 0, 0⟩)] }, ⟨0, 5, false, 0, 0⟩, by decide⟩,
   ⟨w0, pk [4, 128, 0], [0], by decide⟩,
   ⟨w0, pk [], by decide⟩⟩
theorem witness_volumeEpochsComplete :
    (∃ (s : State) (p : Packet) (l : List Nat) (n : Ns) (b t : State), taken 0x0605 6 0 p s = true ∧ actsForShelf (s.arrived 0x0605 p) = true ∧ setListOf (p.w 5) (p.w 6) = some l ∧ clean (mask 12 0 ||| mask 24 16) (p.w 2) = true ∧ clean (mask 22 0) (p.w 3) = true ∧ clean (mask 22 0) (p.w 4) = true ∧ p.w 7 = 0 ∧ 1 ≤ bits 12 0 (p.w 2) ∧ bits 12 0 (p.w 2) ≤ 4096 ∧ bits 19 18 (p.w 2) = 0 ∧ bits 21 20 (p.w 2) = 0 ∧ 1 ≤ bits 22 0 (p.w 3) ∧ bits 22 0 (p.w 3) ≤ 4194304 ∧ l.isEmpty = false ∧ nsidTaken (s.arrived 0x0605 p) (bits 12 0 (p.w 2)) = false ∧ setsFit (s.arrived 0x0605 p) (bits 17 16 (p.w 2)) 0 l = true ∧ setsKnown (s.arrived 0x0605 p) l = true ∧ sizeSum (s.arrived 0x0605 p) + bits 22 0 (p.w 3) ≤ 67108864 ∧ newNs (s.arrived 0x0605 p) (bits 12 0 (p.w 2)) (bits 17 16 (p.w 2)) 0 0 (bit 22 (p.w 2)) (bit 23 (p.w 2)) (bit 24 (p.w 2)) (bits 22 0 (p.w 3)) (bits 22 0 (p.w 4)) l = (n, b) ∧ n.thick = false ∧ claimsHere b = true ∧ takeChange ⟨.letter p.door p.tag 0x0605, [.create (bits 12 0 (p.w 2)) n]⟩ b = some t)
    ∧ (∃ (s : State) (p : Packet) (n : Ns) (t : State), taken 0x0606 1 0 p s = true ∧ nsidOk (p.w 2) (mask 16 16) = true ∧ (s.arrived 0x0606 p).nsOf (bits 12 0 (p.w 2)) = some n ∧ n.deleting = false ∧ n.home = (s.arrived 0x0606 p).pos ∧ actsForShelf (s.arrived 0x0606 p) = true ∧ (n.hosts = [] ∨ bit 16 (p.w 2) = true) ∧ migrating (s.arrived 0x0606 p) (bits 12 0 (p.w 2)) = false ∧ claimsHere (s.arrived 0x0606 p) = true ∧ takeChange ⟨.letter p.door p.tag 0x0606, [.delete (bits 12 0 (p.w 2))]⟩ (s.arrived 0x0606 p) = some t)
    ∧ (∃ (s : State) (p : Packet) (n : Ns) (t : State), taken 0x0607 2 0 p s = true ∧ nsidOk (p.w 2) 0 = true ∧ clean (mask 22 0) (p.w 3) = true ∧ 1 ≤ bits 22 0 (p.w 3) ∧ bits 22 0 (p.w 3) ≤ 4194304 ∧ (s.arrived 0x0607 p).nsOf (bits 12 0 (p.w 2)) = some n ∧ n.deleting = false ∧ n.home = (s.arrived 0x0607 p).pos ∧ actsForShelf (s.arrived 0x0607 p) = true ∧ n.thick = false ∧ n.map = [] ∧ (s.arrived 0x0607 p).vol.quar = [] ∧ sizeSum (s.arrived 0x0607 p) - n.size + bits 22 0 (p.w 3) ≤ 67108864 ∧ takeChange ⟨.letter p.door p.tag 0x0607, [.resize (bits 12 0 (p.w 2)) (bits 22 0 (p.w 3))]⟩ (s.arrived 0x0607 p) = some t)
    ∧ (∃ (s : State) (p : Packet) (n : Ns) (t : State), taken 0x0609 2 0 p s = true ∧ nsidOk (p.w 2) (mask 16 16) = true ∧ clean (mask 10 0) (p.w 3) = true ∧ (s.arrived 0x0609 p).nsOf (bits 12 0 (p.w 2)) = some n ∧ n.deleting = false ∧ n.home = (s.arrived 0x0609 p).pos ∧ actsForShelf (s.arrived 0x0609 p) = true ∧ n.hosts.contains (bits 10 0 (p.w 3)) = bit 16 (p.w 2) ∧ takeChange ⟨.letter p.door p.tag 0x0609, [.attach (bits 12 0 (p.w 2)) (bits 10 0 (p.w 3)) (bit 16 (p.w 2))]⟩ (s.arrived 0x0609 p) = some t)
    ∧ (∃ (s : State) (d : Nat) (tag : Word) (op : Nat) (cs : List VChange) (e f : Nat), s.vol.waits = [⟨.letter d tag op, cs, e, f, false, false⟩] ∧ f + sec ≤ s.clk.now)
    ∧ (∃ (s : State) (m : Migration) (n : Ns) (v : VSet) (p : Nat) (l : Leaf), s.vol.mig = some m ∧ s.nsOf m.ns = some n ∧ s.vset m.target = some v ∧ m.parcel = some p ∧ leafOf n m.index = some l ∧ l.moving = true ∧ actsForShelf s = true ∧ s.drv.passes.any (fun e => e.2.kind = .move) = false ∧ m.step = 1 ∧ m.marks ≠ 0 ∧ m.pass = 0 ∧ nextChunk m n v p = none)
    ∧ (∃ (s : State) (m : Migration) (n : Ns) (v src : VSet) (p i k : Nat) (l : Leaf), s.vol.mig = some m ∧ s.nsOf m.ns = some n ∧ s.vset m.target = some v ∧ m.parcel = some p ∧ leafOf n m.index = some l ∧ l.moving = true ∧ actsForShelf s = true ∧ s.drv.passes.any (fun e => e.2.kind = .move) = false ∧ m.step = 1 ∧ nextChunk m n v p = some (i, k) ∧ s.vset l.set = some src)
    ∧ (∃ (s : State) (q : Quar), s.vol.quar = [q] ∧ q.cmds = [] ∧ q.pages = [] ∧ q.recs = [])
    ∧ (∃ (s : State) (k : Nat) (n : Ns), s.nsOf k = some n ∧ n.creating = true)
    ∧ (∃ (s : State) (d : Nat), s.vol.deltas = some d ∧ actsForShelf s = true) :=
  ⟨⟨wa, pk [2, 5, 0, 128, 0, 0], [0], { home := 0, lbaf := 0, pit := 0, enc := 0, thick := false, userResv := false, spread := false, size := 5, quota := 0, sets := [0], salt := (takeFree (wa.arrived 0x0605 (pk [2, 5, 0, 128, 0, 0]))).1.toNat % 2 ^ 128 }, (takeFree (wa.arrived 0x0605 (pk [2, 5, 0, 128, 0, 0]))).2, _, by and_intros <;> first | rfl | decide⟩,
   ⟨wa, pk [0x10001], nx, (takeChange ⟨.letter 0 7 0x0606, [.delete 1]⟩ (wa.arrived 0x0606 (pk [0x10001]))).getD {}, by decide +kernel⟩,
   ⟨wa, pk [1, 5], nx, (takeChange ⟨.letter 0 7 0x0607, [.resize 1 5]⟩ (wa.arrived 0x0607 (pk [1, 5]))).getD {}, by decide +kernel⟩,
   ⟨wa, pk [0x10001, 0], nx, (takeChange ⟨.letter 0 7 0x0609, [.attach 1 0 true]⟩ (wa.arrived 0x0609 (pk [0x10001, 0]))).getD {}, by decide +kernel⟩,
   ⟨{ wa with vol := { wa.vol with waits := [⟨.letter 0 7 0x609, [], 1, 0, false, false⟩] }, clk := { now := 1000000000 } }, 0, 7, 0x609, [], 1, 0, by decide⟩,
   ⟨{ wa with vol := { wa.vol with ns := [(1, { nx with map := [(0, ⟨0, 5, true, 0, 1⟩)] })], mig := some ⟨1, 0, 0, 0, some 6, 0, 1, 1, 1, 262144⟩ } }, ⟨1, 0, 0, 0, some 6, 0, 1, 1, 1, 262144⟩, { nx with map := [(0, ⟨0, 5, true, 0, 1⟩)] }, vx, 6, ⟨0, 5, true, 0, 1⟩, by decide +kernel⟩,
   ⟨{ wa with vol := { wa.vol with ns := [(1, { nx with map := [(0, ⟨0, 5, true, 0, 1⟩)] })], mig := some ⟨1, 0, 0, 0, some 6, 0, 1, 1, 1, 0⟩ } }, ⟨1, 0, 0, 0, some 6, 0, 1, 1, 1, 0⟩, { nx with map := [(0, ⟨0, 5, true, 0, 1⟩)] }, vx, vx, 6, 0, 16, ⟨0, 5, true, 0, 1⟩, by decide +kernel⟩,
   ⟨{ wa with vol := { wa.vol with quar := [⟨1, 0, 0, 5, [], [], []⟩] } }, ⟨1, 0, 0, 5, [], [], []⟩, by decide⟩,
   ⟨{ wa with vol := { wa.vol with ns := [(1, { nx with creating := true })] } }, 1, { nx with creating := true }, by decide⟩,
   ⟨{ wa with vol := { wa.vol with deltas := some 0 } }, 0, by decide⟩⟩
theorem witness_writeBufferComplete :
    (∃ (s : State) (p : Packet), taken 0x0701 3 0 p s = true ∧ clean (mask 12 0) (p.w 2) = true ∧ clean (mask 6 0 ||| mask 14 8 ||| mask 22 16 ||| mask 25 24) (p.w 3) = true ∧ clean (mask 12 0) (p.w 4) = true ∧ 1 ≤ bits 12 0 (p.w 2) ∧ bits 12 0 (p.w 2) ≤ 6000 ∧ 10 ≤ bits 6 0 (p.w 3) ∧ bits 6 0 (p.w 3) ≤ 95 ∧ 5 ≤ bits 14 8 (p.w 3) ∧ bits 14 8 (p.w 3) + 5 ≤ bits 6 0 (p.w 3) ∧ bits 6 0 (p.w 3) + 5 ≤ bits 22 16 (p.w 3) ∧ bits 22 16 (p.w 3) ≤ 98 ∧ 1 ≤ bits 12 0 (p.w 4) ∧ bits 12 0 (p.w 4) ≤ 4096)
    ∧ (∃ (s : State) (p : Packet), taken 0x0702 0 0 p s = true)
    ∧ (∃ (s : State) (p : Packet) (ps : List Nat), taken 0x0703 1 0 p s = true ∧ clean (mask 1 0 ||| mask 8 4 ||| mask 28 16) (p.w 2) = true ∧ bits 1 0 (p.w 2) = 0 ∧ ((s.arrived 0x0703 p).wbf.pages.filter fun e => e.2.st != .reserved).map (·.1) = ps)
    ∧ (∃ (s : State) (p : Packet) (v : VSet), taken 0x0704 1 0 p s = true ∧ clean (mask 4 0) (p.w 2) = true ∧ (s.arrived 0x0704 p).vset (bits 4 0 (p.w 2)) = some v)
    ∧ (∃ (s : State) (i n : Nat) (b : Nat × Nat × Nat × Nat), (dirtyBins s).find? (fun b => b.1 = i && b.2.1 = n) = some b ∧ b.2.2.1 + s.wbf.agemax * 10 * ms < s.clk.now)
    ∧ (∃ (s t : State), s.wbf.highOn = false ∧ s.wbf.high ≤ occupancy s ∧ raise 448 0 (s.onWbf fun w => { w with highOn := true }) = t)
    ∧ (∃ (s t : State), s.wbf.esc = true ∧ s.wbf.escal = false ∧ s.wbf.escpct ≤ occupancy s ∧ raise 449 0 (s.onWbf fun w => { w with escal := true }) = t)
    ∧ (∃ (s t : State) (i : Nat) (v : VSet) (b : QBin), s.vset i = some v ∧ actsForShelf s = true ∧ v.st ≠ .offline ∧ v.recover = false ∧ (recsOf s i).length < s.wbf.setmax ∧ s.wbf.recs.length < 65536 ∧ (binOrder s i).find? (fun b => !recOpen s i b.stripe && !passBusy s i b.stripe) = some b ∧ resolveBin i b.stripe b.cls b.ahead s = t ∧ binPages t i b.stripe ≠ [])
    ∧ (∃ (s : State) (i m : Nat), (s.ring i m).open_ ≠ [] ∧ due ((s.ring i m).openAt + 20 * us) s.clk.now = true)
    ∧ (∃ (s : State) (j : Nat) (r : JRec), s.rec_ j = some r ∧ r.stage = 0 ∧ r.homes = [] ∧ s.marked r.seq = true)
    ∧ (∃ (s : State) (j : Nat) (r : JRec), s.rec_ j = some r ∧ r.stage = 3 ∧ r.writes = [])
    ∧ (∃ (s : State) (i : Nat) (v : VSet), s.vset i = some v ∧ v.recover = true ∧ passesOf s i .recover = []) :=
  ⟨⟨w0, pk [100, 0x00501E32, 64], by decide⟩,
   ⟨w0, pk [], by decide⟩,
   ⟨wa, pk [0], [], by decide⟩,
   ⟨wa, pk [0], vx, by decide⟩,
   ⟨{ wa with clk := { wa.clk with now := 10 ^ 12 }, wbf := { wa.wbf with pages := [(0, { ns := 1, span := 0, st := .dirty, set := 0, stripe := 0, byte := 0, ver := 1 })] } }, 0, 0, (0, 0, 0, 1), by decide⟩,
   ⟨{ wa with wbf := { wa.wbf with high := 0 } }, _, ⟨by decide, by decide, rfl⟩⟩,
   ⟨{ wa with wbf := { wa.wbf with esc := true, escpct := 0 } }, _, ⟨by decide, by decide, by decide, rfl⟩⟩,
   ⟨{ wa with wbf := { wa.wbf with pages := [(0, { ns := 1, span := 0, st := .queued, set := 0, stripe := 5, byte := 0, ver := 1 })], bins := [⟨0, 5, 5, false, 1⟩] } }, _, 0, vx, ⟨0, 5, 5, false, 1⟩, ⟨by decide, by decide, by decide, by decide, by decide, by decide, rfl, rfl, by decide⟩⟩,
   ⟨{ wa with clk := { wa.clk with now := 10 ^ 12 }, wbf := { wa.wbf with rings := [(0, { open_ := [3] })] } }, 0, 0, by decide⟩,
   ⟨{ wa with wbf := { wa.wbf with recs := [(3, { set := 0, stripe := 0, method := 3, poison := false, gen := 0, cls := 5, spans := [], pages := [], homes := [], seq := none, reads := [], old := [], writes := [], logs := 0, stage := 0 })] } }, 3, { set := 0, stripe := 0, method := 3, poison := false, gen := 0, cls := 5, spans := [], pages := [], homes := [], seq := none, reads := [], old := [], writes := [], logs := 0, stage := 0 }, by decide⟩,
   ⟨{ wa with wbf := { wa.wbf with recs := [(3, { set := 0, stripe := 0, method := 3, poison := false, gen := 0, cls := 5, spans := [], pages := [], homes := [], seq := none, reads := [], old := [], writes := [], logs := 0, stage := 3 })] } }, 3, { set := 0, stripe := 0, method := 3, poison := false, gen := 0, cls := 5, spans := [], pages := [], homes := [], seq := none, reads := [], old := [], writes := [], logs := 0, stage := 3 }, by decide⟩,
   ⟨{ wa with vol := { wa.vol with sets := [(0, { vx with recover := true })] } }, 0, { vx with recover := true }, by decide⟩⟩
theorem witness_redundancyCommandsComplete :
    (∃ (s : State) (p : Packet) (v : VSet), taken 0x0801 3 0 p s = true ∧ clean (mask 4 0 ||| mask 17 8 ||| mask 30 24) (p.w 2) = true ∧ clean (mask 24 0) (p.w 3) = true ∧ clean (mask 15 0) (p.w 4) = true ∧ bits 17 8 (p.w 2) ≤ 1000 ∧ bits 29 24 (p.w 2) ≤ 60 ∧ 1 ≤ bits 24 16 (p.w 3) ∧ bits 24 16 (p.w 3) ≤ 256 ∧ (s.arrived 0x0801 p).vset (bits 4 0 (p.w 2)) = some v)
    ∧ (∃ (s : State) (p : Packet) (v : VSet), taken 0x0802 1 0 p s = true ∧ clean (mask 4 0) (p.w 2) = true ∧ (s.arrived 0x0802 p).vset (bits 4 0 (p.w 2)) = some v)
    ∧ (∃ (s : State) (p : Packet) (v : VSet), taken 0x0803 1 0 p s = true ∧ clean (mask 4 0 ||| mask 12 8) (p.w 2) = true ∧ (s.arrived 0x0803 p).vset (bits 4 0 (p.w 2)) = some v ∧ bits 12 8 (p.w 2) < v.width)
    ∧ (∃ (s : State) (p : Packet), taken 0x0804 2 0 p s = true ∧ clean (mask 4 0 ||| mask 9 8) (p.w 2) = true ∧ bits 4 0 (p.w 2) < 24 ∧ bit 8 (p.w 2) = true)
    ∧ (∃ (s : State) (p : Packet) (d : DriveInfo), taken 0x0804 2 0 p s = true ∧ clean (mask 4 0 ||| mask 9 8) (p.w 2) = true ∧ bits 4 0 (p.w 2) < 24 ∧ bit 8 (p.w 2) = false ∧ memberAt (s.arrived 0x0804 p) (bits 4 0 (p.w 2)) = none ∧ slotOn (s.arrived 0x0804 p) (bits 4 0 (p.w 2)) = true ∧ enumerated (s.arrived 0x0804 p) (bits 4 0 (p.w 2)) = true ∧ ((s.arrived 0x0804 p).port (bits 4 0 (p.w 2))).id = none ∧ ((s.arrived 0x0804 p).port (bits 4 0 (p.w 2))).info = some d)
    ∧ (∃ (s : State) (p : Packet) (d : DriveInfo) (r : IdRec), taken 0x0804 2 0 p s = true ∧ clean (mask 4 0 ||| mask 9 8) (p.w 2) = true ∧ bits 4 0 (p.w 2) < 24 ∧ bit 8 (p.w 2) = false ∧ bit 9 (p.w 2) = true ∧ memberAt (s.arrived 0x0804 p) (bits 4 0 (p.w 2)) = none ∧ slotOn (s.arrived 0x0804 p) (bits 4 0 (p.w 2)) = true ∧ enumerated (s.arrived 0x0804 p) (bits 4 0 (p.w 2)) = true ∧ ((s.arrived 0x0804 p).port (bits 4 0 (p.w 2))).id = some r ∧ ((s.arrived 0x0804 p).port (bits 4 0 (p.w 2))).info = some d)
    ∧ (∃ (s : State) (p : Packet) (v : VSet), taken 0x0805 1 0 p s = true ∧ clean (mask 4 0 ||| mask 12 8 ||| mask 24 24) (p.w 2) = true ∧ (s.arrived 0x0805 p).vset (bits 4 0 (p.w 2)) = some v ∧ bits 12 8 (p.w 2) < v.width ∧ (v.mem (bits 12 8 (p.w 2))).st.out = false ∧ (bit 24 (p.w 2) || !ejectOffline v (bits 12 8 (p.w 2))) = true)
    ∧ (∃ (s : State) (p : Packet) (v : VSet) (k : Nat) (r : IdRec), taken 0x0806 1 0 p s = true ∧ clean (mask 4 0 ||| mask 12 8 ||| 0) (p.w 2) = true ∧ (s.arrived 0x0806 p).vset (bits 4 0 (p.w 2)) = some v ∧ bits 12 8 (p.w 2) < v.width ∧ (v.mem (bits 12 8 (p.w 2))).st = .ejected ∧ slotOfIndex (s.arrived 0x0806 p) (bits 4 0 (p.w 2)) (bits 12 8 (p.w 2)) none = some k ∧ ((s.arrived 0x0806 p).port k).id = some r)
    ∧ (∃ (s : State) (p : Packet) (v : VSet), taken 0x0807 1 0 p s = true ∧ clean (mask 4 0 ||| mask 12 8 ||| mask 20 16) (p.w 2) = true ∧ (s.arrived 0x0807 p).vset (bits 4 0 (p.w 2)) = some v ∧ bits 12 8 (p.w 2) < v.width ∧ (v.mem (bits 12 8 (p.w 2))).st.out = true ∧ qualifies (s.arrived 0x0807 p) v (bits 20 16 (p.w 2)) = true ∧ qualifies (post p.door p.tag false stAccepted [] (s.arrived 0x0807 p)) v (bits 20 16 (p.w 2)) = true)
    ∧ (∃ (s : State) (p : Packet) (v : VSet), taken 0x0808 1 0 p s = true ∧ clean (mask 4 0 ||| mask 12 8 ||| 0) (p.w 2) = true ∧ (s.arrived 0x0808 p).vset (bits 4 0 (p.w 2)) = some v ∧ bits 12 8 (p.w 2) < v.width ∧ v.st = .offline)
    ∧ (∃ (s : State) (p : Packet) (v : VSet), taken 0x0809 2 0 p s = true ∧ clean (mask 4 0) (p.w 2) = true ∧ clean (mask 20 0) (p.w 3) = true ∧ (s.arrived 0x0809 p).vset (bits 4 0 (p.w 2)) = some v)
    ∧ (∃ (s : State) (p : Packet) (v : VSet), taken 0x080A 1 0 p s = true ∧ clean (mask 4 0) (p.w 2) = true ∧ (s.arrived 0x080A p).vset (bits 4 0 (p.w 2)) = some v) :=
  ⟨⟨wa, pk [0, 0x00100000, 5], vx, by decide⟩,
   ⟨wa, pk [0], vx, by decide⟩,
   ⟨wa, pk [0x100], vx, by decide⟩,
   ⟨wa, pk [0x103, 0], by decide⟩,
   ⟨wd, pk [1, 0], { di with serial := 6 }, by decide⟩,
   ⟨{ wd with drv := { ports := [(1, { st := .ready, info := some di, id := some (ir 3 0) })] } }, pk [0x201, 0], di, ir 3 0, by decide⟩,
   ⟨wa, pk [0x100], vx, by decide⟩,
   ⟨{ wd with vol := { wd.vol with sets := [(0, { vx with members := [(0, { slot := some 0 }), (1, { st := .ejected })] })] }, drv := { ports := [(1, { st := .ready, info := some di, id := some (ir 0 1) })] } }, pk [0x100], { vx with members := [(0, { slot := some 0 }), (1, { st := .ejected })] }, 1, ir 0 1, by decide⟩,
   ⟨{ wd with vol := { wd.vol with sets := [(0, { vx with fmt := 0, members := [(0, { slot := some 0 }), (1, { st := .ejected })] })] } }, pk [0x10100], { vx with fmt := 0, members := [(0, { slot := some 0 }), (1, { st := .ejected })] }, by decide⟩,
   ⟨{ wa with vol := { wa.vol with sets := [(0, { vx with st := .offline })] } }, pk [0], { vx with st := .offline }, by decide⟩,
   ⟨{ wa with vol := { wa.vol with sets := [(0, { vx with bad := [⟨9, 1, 0, 0, 4, 1⟩] })] } }, pk [0, 0], { vx with bad := [⟨9, 1, 0, 0, 4, 1⟩] }, by decide⟩,
   ⟨{ wa with vol := { wa.vol with sets := [(0, { vx with bad := [⟨9, 1, 0, 0, 4, 1⟩] })] } }, pk [0], { vx with bad := [⟨9, 1, 0, 0, 4, 1⟩] }, by decide⟩⟩
theorem witness_redundancyPassesComplete :
    (∃ (s : State) (k : Nat) (c : DCmd) (o : DriveOutcome), tabFind s.drv.cmds k = some c ∧ c.answer = some o)
    ∧ (∃ (s : State), inCharge s = true)
    ∧ (∃ (s : State) (k t g sp at_ : Nat) (tz : Bool) (c : DCmd) (v : VSet), tabFind s.drv.cmds k = some c ∧ c.use = .host t g sp tz ∧ c.at_ = some at_ ∧ s.vset c.set = some v ∧ c.hedged = false ∧ c.answer = none ∧ c.write = false ∧ v.hedge ≠ 0 ∧ due (at_ + v.hedge * ms) s.clk.now = true)
    ∧ (∃ (k : Nat), k < 24)
    ∧ (∃ (s : State) (i m : Nat) (v : VSet), s.vset i = some v ∧ inCharge s = true ∧ m < v.width ∧ (v.mem m).st = .absent ∧ (v.mem m).fired = false ∧ due ((v.mem m).since + v.absentWait * 60 * sec) s.clk.now = true)
    ∧ (∃ (s : State) (i : Nat) (v : VSet), s.vset i = some v ∧ inCharge s = true ∧ v.st ≠ .offline)
    ∧ (∃ (s : State) (i n : Nat) (v : VSet), s.vset i = some v ∧ actsForShelf s = true ∧ v.st = .initialising ∧ n = nextStripe v.initWm (passesOf s i .init) ∧ n < v.stripes ∧ (passesOf s i .init).length < v.rbDepth ∧ v.rbAt ≤ s.clk.now ∧ passMay s i n = true)
    ∧ (∃ (s : State) (i m n : Nat) (v : VSet) (ms : List Nat), s.vset i = some v ∧ inCharge s = true ∧ v.st ≠ .offline ∧ (v.mem m).st = .rebuilding ∧ ms = (membersIn v fun x => x = .rebuilding).filter (fun k => decide ((v.mem k).wm = (v.mem m).wm)) ∧ n = nextStripe (v.mem m).wm ((passesOf s i .rebuild).filter fun e => e.2.targets.any ms.contains) ∧ n < v.stripes ∧ (passesOf s i .rebuild).length < v.rbDepth ∧ v.rbAt ≤ s.clk.now ∧ passMay s i n = true)
    ∧ (∃ (s : State) (i m : Nat) (v : VSet), s.vset i = some v ∧ inCharge s = true ∧ v.st ≠ .offline ∧ (v.mem m).st = .resyncing ∧ (passesOf s i .resync).any (fun e => e.2.targets.contains m) = false ∧ (v.mem m).log = none)
    ∧ (∃ (s : State) (i m k r : Nat) (v : VSet) (ns : List Nat), s.vset i = some v ∧ inCharge s = true ∧ v.st ≠ .offline ∧ (v.mem m).st = .resyncing ∧ (passesOf s i .resync).any (fun e => e.2.targets.contains m) = false ∧ (v.mem m).log = some k ∧ (tabGet {} v.logs k : LogSlot).bits = [r] ∧ ns = ((List.range (1048576 / stripBytes v)).map (r * (1048576 / stripBytes v) + ·)).filter (fun n => n < v.stripes) ∧ ns ≠ [] ∧ ns.all (passMay s i) = true)
    ∧ (∃ (s : State) (i : Nat) (v : VSet) (tz : List (Nat × Nat × Nat × Nat)), s.vset i = some v ∧ inCharge s = true ∧ s.md.patrolPaused = false ∧ v.patRate ≠ 0 ∧ v.st = .optimal ∧ v.patWm < v.stripes ∧ v.patWm < v.initWm ∧ v.patAt ≤ s.clk.now ∧ passMay s i v.patWm = true ∧ tz = ((List.range (dataStrips v)).flatMap fun j => (List.range (stripBlks v)).filterMap fun b => (tzAt s i v v.patWm j b).map fun t => (t.1, t.2.2)).eraseDups)
    ∧ (∃ (s : State) (i : Nat) (v : VSet), s.vset i = some v ∧ actsForShelf s = true ∧ v.idMoved = true ∧ due (v.idAt + 10 * sec) s.clk.now = true ∧ v.idWait = none) :=
  ⟨⟨{ wd with drv := { wd.drv with cmds := [(1, { dc with answer := some .success })] } }, 1, { dc with answer := some .success }, .success, by decide⟩,
   ⟨{ wa with pair := { wa.pair with lease := true } }, by decide⟩,
   ⟨{ wa with clk := { wa.clk with now := 10 ^ 12 }, drv := { cmds := [(1, { dc with use := .host 1 1 0 false, tag := some (0, 0, 0), at_ := some 0 })] } }, 1, 1, 1, 0, 0, false, { dc with use := .host 1 1 0 false, tag := some (0, 0, 0), at_ := some 0 }, vx, by decide⟩,
   ⟨1, by decide⟩,
   ⟨{ wa with clk := { wa.clk with now := 10 ^ 15 }, pair := { wa.pair with lease := true }, vol := { wa.vol with sets := [(0, { vx with members := [(0, { slot := some 0 }), (1, { st := .absent })] })] } }, 0, 1, { vx with members := [(0, { slot := some 0 }), (1, { st := .absent })] }, by decide⟩,
   ⟨{ wa with pair := { wa.pair with lease := true } }, 0, vx, by decide⟩,
   ⟨{ wa with vol := { wa.vol with sets := [(0, { vx with type := 2, width := 3, st := .initialising })] } }, 0, 0, { vx with type := 2, width := 3, st := .initialising }, by decide +kernel⟩,
   ⟨{ wa with pair := { wa.pair with lease := true }, vol := { wa.vol with sets := [(0, { vx with members := [(0, { slot := some 0 }), (1, { st := .rebuilding })] })] } }, 0, 1, 0, { vx with members := [(0, { slot := some 0 }), (1, { st := .rebuilding })] }, [1], by decide +kernel⟩,
   ⟨{ wa with pair := { wa.pair with lease := true }, vol := { wa.vol with sets := [(0, { vx with members := [(0, { slot := some 0 }), (1, { st := .resyncing })] })] } }, 0, 1, { vx with members := [(0, { slot := some 0 }), (1, { st := .resyncing })] }, by decide⟩,
   ⟨{ wa with pair := { wa.pair with lease := true }, vol := { wa.vol with sets := [(0, { vx with members := [(0, { slot := some 0 }), (1, { st := .resyncing, log := some 2 })], logs := [(2, { bits := [3] })] })] } }, 0, 1, 2, 3, { vx with members := [(0, { slot := some 0 }), (1, { st := .resyncing, log := some 2 })], logs := [(2, { bits := [3] })] }, (List.range 16).map (48 + ·), by decide +kernel⟩,
   ⟨{ wa with pair := { wa.pair with lease := true }, vol := { wa.vol with sets := [(0, { vx with patRate := 1, initWm := 65536 })] } }, 0, { vx with patRate := 1, initWm := 65536 }, [], by decide +kernel⟩,
   ⟨{ wa with clk := { wa.clk with now := 10 ^ 12 }, vol := { wa.vol with sets := [(0, { vx with idMoved := true })] } }, 0, { vx with idMoved := true }, by decide⟩⟩
theorem witness_drivePortsComplete :
    (∃ (s : State) (k : Nat), k < 24 ∧ slotOn s k = true ∧ ((s.port k).st = .training ∨ (s.port k).st = .recovery) ∧ (s.port k).pulse = none ∧ due (s.port k).trainAt s.clk.now = true)
    ∧ (∃ (s t u : State) (k speed width capTo mqes mps : Nat) (flit tag10 : Bool), k < 24 ∧ slotOn s k = true ∧ ((s.port k).st = .training ∨ (s.port k).st = .recovery) ∧ (s.port k).pulse = none ∧ 3 ≤ speed ∧ speed ≤ (s.port k).maxSpeed ∧ 1 ≤ width ∧ width ≤ 2 ∧ (speed = 6 → flit = true) ∧ raise 576 (fld 4 0 k) (onPort k (fun p => { p with speed := speed, width := width, flit := flit, linked := true, downAt := none, capTo := capTo, mqes := mqes }) s) = t ∧ configPort k mps tag10 (doIf (decide (speed < (s.port k).minSpeed) || decide (width = 1)) (raise 578 (fld 4 0 k)) t) = u)
    ∧ (∃ (s : State) (k : Nat), k < 24 ∧ ((s.port k).st = .init ∨ (s.port k).st = .ready ∨ (s.port k).st = .unusable))
    ∧ (∃ (s : State) (k t : Nat), (s.port k).downAt = some t ∧ due (t + (s.port k).downmax * 100 * ms) s.clk.now = true)
    ∧ (∃ (s t : State) (k n : Nat), k < 24 ∧ (s.port k).speed ≠ 0 ∧ count (4632 + k) n (onPort k (fun p => { p with cerr := n }) s) = t)
    ∧ (∃ (s : State) (k t : Nat), (s.port k).wantAt = some t ∧ (s.port k).st = .init ∧ due t s.clk.now = true)
    ∧ (∃ (s : State) (k t : Nat), (s.port k).wantAt = some t ∧ (s.port k).st = .init)
    ∧ (∃ (k : Nat), k < 24)
    ∧ (∃ (s t : State) (k : Nat) (a : AdminCmd), (s.port k).admin.find? (fun a => due a.due s.clk.now) = some a ∧ raise 583 (fld 4 0 k) (count1 4802 (send { kind := .driveAdmin, a := k, b := 8, c := a.kind } (onPort k (fun p => { p with admin := p.admin.erase a }) s))) = t)
    ∧ (∃ (s : State) (k q : Nat) (phase : Bool), k < 24 ∧ q < (s.port k).built ∧ phase = phaseWant s k q)
    ∧ (∃ (r : DmaReq), r.slot < 24)
    ∧ (∃ (s : State) (k q n t : Nat), tabFind (s.port k).unrung q = some (n, t) ∧ due (t + us) s.clk.now = true ∧ tabFind ((ringQueue k q s).port k).cq q = none)
    ∧ (∃ (s : State) (k q n t : Nat), tabFind (s.port k).unrung q = none ∧ tabFind (s.port k).cq q = some (n, t) ∧ due (t + us) s.clk.now = true)
    ∧ (∃ (s : State) (k t : Nat), (s.port k).pulse = some t ∧ due t s.clk.now = true ∧ due (s.slot k).rstDue s.clk.aon = true ∧ slotOn s k = true) :=
  ⟨⟨{ wd with drv := { ports := [(1, { st := .training })] } }, 1, by decide⟩,
   ⟨{ wd with drv := { ports := [(1, { st := .training })] } }, _, _, 1, 6, 2, 500, 1023, 512, true, true, ⟨by decide, by decide, by decide, by decide, by decide, by decide, by decide, by decide, by decide, rfl, rfl⟩⟩,
   ⟨wd, 1, by decide⟩,
   ⟨{ wd with clk := { wd.clk with now := 10 ^ 13 }, drv := { ports := [(1, { st := .recovery, downAt := some 0 })] } }, 1, 0, by decide⟩,
   ⟨{ wd with drv := { ports := [(1, { st := .ready, speed := 6 })] } }, _, 1, 5, ⟨by decide, by decide, rfl⟩⟩,
   ⟨{ wd with clk := { wd.clk with now := 10 ^ 13 }, drv := { ports := [(1, { st := .init, wantAt := some 0 })] } }, 1, 0, by decide⟩,
   ⟨{ wd with drv := { ports := [(1, { st := .init, wantAt := some 0 })] } }, 1, 0, by decide⟩,
   ⟨1, by decide⟩,
   ⟨{ wd with drv := { ports := [(1, { st := .init, admin := [⟨3, 0, 0, 0, false⟩] })] } }, _, 1, ⟨3, 0, 0, 0, false⟩, ⟨by decide, rfl⟩⟩,
   ⟨{ wd with drv := { ports := [(1, { st := .ready, built := 4, depth := 16 })] } }, 1, 0, true, by decide⟩,
   ⟨⟨1, 64, false, 64, false, 0⟩, by decide⟩,
   ⟨{ wd with clk := { wd.clk with now := 10 ^ 9 }, drv := { ports := [(1, { st := .ready, built := 4, depth := 16, unrung := [(0, (3, 0))] })] } }, 1, 0, 3, 0, by decide⟩,
   ⟨{ wd with clk := { wd.clk with now := 10 ^ 9 }, drv := { ports := [(1, { st := .ready, built := 4, depth := 16, cq := [(0, (3, 0))] })] } }, 1, 0, 3, 0, by decide⟩,
   ⟨{ wd with clk := { wd.clk with now := 10 ^ 9 }, drv := { ports := [(1, { st := .training, pulse := some 0 })] } }, 1, 0, by decide⟩⟩
theorem witness_driveCommandsComplete :
    (∃ (s : State) (p : Packet), taken 0x0901 3 0 p s = true ∧ clean (mask 23 0) (p.w 2) = true ∧ clean (mask 29 0) (p.w 3) = true ∧ (p.w 2 != 0) = true ∧ 3 ≤ bits 2 0 (p.w 3) ∧ bits 2 0 (p.w 3) ≤ 6 ∧ 3 ≤ bits 5 3 (p.w 3) ∧ bits 5 3 (p.w 3) ≤ bits 2 0 (p.w 3) ∧ 8 ≤ bits 12 6 (p.w 3) ∧ bits 12 6 (p.w 3) ≤ 64 ∧ 1 ≤ bits 29 13 (p.w 3) ∧ bits 29 13 (p.w 3) ≤ 65536 ∧ 1 ≤ bits 9 0 (p.w 4) ∧ bits 9 0 (p.w 4) ≤ 600 ∧ 1 ≤ bits 16 10 (p.w 4) ∧ bits 16 10 (p.w 4) ≤ 100 ∧ 1 ≤ bits 31 17 (p.w 4))
    ∧ (∃ (s : State) (p : Packet), taken 0x0902 1 0 p s = true ∧ clean (mask 4 0) (p.w 2) = true ∧ bits 4 0 (p.w 2) < 24)
    ∧ (∃ (s : State) (p : Packet) (d : DriveInfo), taken 0x0903 1 0 p s = true ∧ clean (mask 4 0) (p.w 2) = true ∧ bits 4 0 (p.w 2) < 24 ∧ (((s.arrived 0x0903 p).port (bits 4 0 (p.w 2))).st = .ready ∨ ((s.arrived 0x0903 p).port (bits 4 0 (p.w 2))).st = .unusable) ∧ ((s.arrived 0x0903 p).port (bits 4 0 (p.w 2))).info = some d)
    ∧ (∃ (s : State) (p : Packet), taken 0x0904 1 0 p s = true ∧ clean (mask 4 0 ||| mask 8 8) (p.w 2) = true ∧ bits 4 0 (p.w 2) < 24 ∧ memberAt (s.arrived 0x0904 p) (bits 4 0 (p.w 2)) = none ∧ slotOn (s.arrived 0x0904 p) (bits 4 0 (p.w 2)) = true)
    ∧ (∃ (s : State) (p : Packet) (i m : Nat) (v : VSet), taken 0x0904 1 0 p s = true ∧ clean (mask 4 0 ||| mask 8 8) (p.w 2) = true ∧ bits 4 0 (p.w 2) < 24 ∧ memberAt (s.arrived 0x0904 p) (bits 4 0 (p.w 2)) = some (i, m) ∧ (s.arrived 0x0904 p).vset i = some v ∧ (v.mem m).st.out = false ∧ bit 8 (p.w 2) = true ∧ slotOn (s.arrived 0x0904 p) (bits 4 0 (p.w 2)) = true)
    ∧ (∃ (s : State) (p : Packet), taken 0x0905 1 0 p s = true ∧ clean (mask 4 0 ||| mask 10 8) (p.w 2) = true ∧ bits 4 0 (p.w 2) < 24 ∧ bits 10 9 (p.w 2) ≤ 1 ∧ memberAt (s.arrived 0x0905 p) (bits 4 0 (p.w 2)) = none ∧ memberAt (post p.door p.tag false stAccepted [] (s.arrived 0x0905 p)) (bits 4 0 (p.w 2)) = none ∧ tabHas (s.arrived 0x0905 p).vol.spares (bits 4 0 (p.w 2)) = false ∧ ((s.arrived 0x0905 p).port (bits 4 0 (p.w 2))).st = .ready)
    ∧ (∃ (s : State) (p : Packet), taken 0x0906 3 0 p s = true ∧ clean (mask 4 0 ||| mask 15 8) (p.w 2) = true ∧ clean (mask 10 0) (p.w 4) = true ∧ bits 4 0 (p.w 2) < 24 ∧ 1 ≤ bits 10 0 (p.w 4) ∧ bits 10 0 (p.w 4) ≤ 1024 ∧ ((s.arrived 0x0906 p).port (bits 4 0 (p.w 2))).st = .ready) :=
  ⟨⟨wd, pk [3, 33558582, 131092490], by decide⟩,
   ⟨wd, pk [1], by decide⟩,
   ⟨wd, pk [1], { di with serial := 6 }, by decide⟩,
   ⟨wd, pk [1], by decide⟩,
   ⟨{ wd with vol := { wd.vol with sets := [(0, vx)] } }, pk [0x101], 0, 1, vx, by decide⟩,
   ⟨wd, pk [1], by decide⟩,
   ⟨wd, pk [1, 0, 16], by decide⟩⟩
theorem witness_keyCommandsComplete :
    (∃ (s : State) (p : Packet), taken 0x0A01 0 0 p s = true)
    ∧ (∃ (s : State) (p : Packet), taken 0x0A02 1 (bits 4 0 (p.w 2)) p s = true ∧ clean (mask 4 0) (p.w 2) = true ∧ bits 4 0 (p.w 2) = 25)
    ∧ (∃ (s : State) (p : Packet) (kek : List Word), taken 0x0A03 2 (bits 4 0 (p.w 2)) p s = true ∧ clean (mask 4 0) (p.w 2) = true ∧ clean (mask 13 0) (p.w 3) = true ∧ (bits 13 12 (p.w 3) = 1 ∨ bits 13 12 (p.w 3) = 2) ∧ bits 4 0 (p.w 2) = (if bits 13 12 (p.w 3) = 1 then 18 else 10) ∧ ((s.arrived 0x0A03 p).slotOf (bits 11 0 (p.w 3))).st = .empty ∧ (s.arrived 0x0A03 p).key.kek = some kek ∧ (s.arrived 0x0A03 p).nsOf (bits 11 0 (p.w 3) + 1) = none)
    ∧ (∃ (s : State) (p : Packet) (key : List Word) (b : State), taken 0x0A04 1 0 p s = true ∧ clean (mask 13 0) (p.w 2) = true ∧ (bits 13 12 (p.w 2) = 1 ∨ bits 13 12 (p.w 2) = 2) ∧ ((s.arrived 0x0A04 p).slotOf (bits 11 0 (p.w 2))).st = .empty ∧ (s.arrived 0x0A04 p).md.entropyBad = false ∧ drawKey (bits 13 12 (p.w 2)) (s.arrived 0x0A04 p) = (key, b))
    ∧ (∃ (s : State) (p : Packet) (kek : List Word), taken 0x0A05 1 0 p s = true ∧ clean (mask 11 0) (p.w 2) = true ∧ ((s.arrived 0x0A05 p).slotOf (bits 11 0 (p.w 2))).mode ≠ 0 ∧ (s.arrived 0x0A05 p).key.kek = some kek)
    ∧ (∃ (s : State) (p : Packet), taken 0x0A06 1 0 p s = true ∧ clean (mask 11 0) (p.w 2) = true ∧ bound (s.arrived 0x0A06 p) (bits 11 0 (p.w 2)) = false)
    ∧ (∃ (s : State) (p : Packet) (n : Ns), taken 0x0A07 2 (bits 4 0 (p.w 2)) p s = true ∧ clean (mask 4 0) (p.w 2) = true ∧ bits 4 0 (p.w 2) = 0 ∧ clean (mask 11 0) (p.w 3) = true ∧ ((s.arrived 0x0A07 p).slotOf (bits 11 0 (p.w 3))).st = .gcm ∧ (s.arrived 0x0A07 p).nsOf (bits 11 0 (p.w 3) + 1) = some n ∧ n.enc ≠ 0 ∧ backedBlks n ≤ 2 ^ 39 ∧ (s.arrived 0x0A07 p).md.entropyBad = false)
    ∧ (∃ (s : State) (p : Packet) (n : Ns) (kek : List Word), taken 0x0A07 2 (bits 4 0 (p.w 2)) p s = true ∧ clean (mask 4 0) (p.w 2) = true ∧ bits 4 0 (p.w 2) = 10 ∧ clean (mask 11 0) (p.w 3) = true ∧ ((s.arrived 0x0A07 p).slotOf (bits 11 0 (p.w 3))).st = .gcm ∧ (s.arrived 0x0A07 p).nsOf (bits 11 0 (p.w 3) + 1) = some n ∧ n.enc ≠ 0 ∧ backedBlks n ≤ 2 ^ 39 ∧ (s.arrived 0x0A07 p).key.kek = some kek)
    ∧ (∃ (s : State) (p : Packet), taken 0x0A08 1 0 p s = true ∧ clean (mask 11 0) (p.w 2) = true)
    ∧ (∃ (s : State) (p : Packet), taken 0x0A09 3 (bits 10 0 (p.w 2)) p s = true ∧ clean (mask 10 0) (p.w 2) = true ∧ clean (mask 1 0 ||| mask 13 8 ||| mask 21 16) (p.w 3) = true ∧ clean (mask 15 0) (p.w 4) = true ∧ bits 1 0 (p.w 3) = 1 ∧ bits 13 8 (p.w 3) < 48 ∧ bits 21 16 (p.w 3) = 0 ∧ bits 10 0 (p.w 2) = 20 + wordsFor (bits 15 0 (p.w 4)) ∧ 16 ≤ bits 15 0 (p.w 4) ∧ bits 15 0 (p.w 4) % 16 = 0 ∧ ((s.arrived 0x0A09 p).core (bits 13 8 (p.w 3))).retired = false)
    ∧ (∃ (s : State) (p : Packet) (ct : Nat), taken 0x0A09 3 (bits 10 0 (p.w 2)) p s = true ∧ clean (mask 10 0) (p.w 2) = true ∧ clean (mask 1 0 ||| mask 13 8 ||| mask 21 16) (p.w 3) = true ∧ clean (mask 15 0) (p.w 4) = true ∧ bits 1 0 (p.w 3) = 2 ∧ bits 13 8 (p.w 3) < 48 ∧ bits 21 16 (p.w 3) ≤ 32 ∧ bits 10 0 (p.w 2) = 11 + wordsFor (bits 21 16 (p.w 3)) + wordsFor (bits 15 0 (p.w 4)) ∧ (bits 15 0 (p.w 4) = 512 ∨ bits 15 0 (p.w 4) = 4096) ∧ ((s.arrived 0x0A09 p).core (bits 13 8 (p.w 3))).retired = false ∧ Config.gcmEnc ((p.data 3).take 8) (revBytes 12 (vecNum (p.data 3) 8 12)) (bits 15 0 (p.w 4)) (vecNum (p.data 3) (11 + wordsFor (bits 21 16 (p.w 3))) (bits 15 0 (p.w 4))) = ct) :=
  ⟨⟨w0, pk [], by decide⟩,
   ⟨w0, pkd 1 (25 :: List.replicate 25 0), by decide⟩,
   ⟨{ w0 with key := { kek := some [1] } }, pkd 2 ([10, 0x2005] ++ List.replicate 10 3), [1], by decide⟩,
   ⟨w0, pk [0x2005], (drawKey 2 (w0.arrived 0x0A04 (pk [0x2005]))).1, (drawKey 2 (w0.arrived 0x0A04 (pk [0x2005]))).2, ⟨by decide, by decide, by decide, by decide, by decide, rfl⟩⟩,
   ⟨{ w0 with key := { kek := some [1], slots := [(5, { st := .gcm, key := [2] })] } }, pk [5], [1], by decide⟩,
   ⟨{ w0 with key := { slots := [(5, { st := .gcm, key := [2] })] } }, pk [5], by decide⟩,
   ⟨{ wa with key := { slots := [(0, { st := .gcm, key := [2] })] }, vol := { wa.vol with ns := [(1, { nx with enc := 2 })] } }, pkd 2 [0, 0], { nx with enc := 2 }, by decide⟩,
   ⟨{ wa with key := { kek := some [1], slots := [(0, { st := .gcm, key := [2] })] }, vol := { wa.vol with ns := [(1, { nx with enc := 2 })] } }, pkd 2 ([10, 0] ++ List.replicate 10 3), { nx with enc := 2 }, [1], by decide⟩,
   ⟨w0, pk [5], by decide⟩,
   ⟨wm .maintenance, pkd 3 ([24, 1, 16] ++ List.replicate 24 5), by decide⟩,
   ⟨wm .maintenance, pkd 3 ([139, 2, 512] ++ List.replicate 139 5), _, ⟨by decide +kernel, by decide, by decide, by decide, by decide, by decide, by decide, by decide, by decide, by decide, rfl⟩⟩⟩
theorem witness_keyEventsComplete :
    (∃ (s : State) (i : Nat), i < 4096 ∧ (s.slotOf i).users = [] ∧ (s.slotOf i).dying = true)
    ∧ (∃ (s : State) (i : Nat), i < 4096 ∧ (s.slotOf i).users = [] ∧ (s.slotOf i).dying = false ∧ (s.slotOf i).st = .gcm ∧ (s.slotOf i).prev ≠ [])
    ∧ (∃ (s : State) (i : Nat), (s.slotOf i).erasing = true ∧ s.nvm.sanitize = none)
    ∧ (∃ (s : State) (i : Nat) (n : Ns), s.nsOf (i + 1) = some n ∧ (s.slotOf i).st = .rotating ∧ actsForShelf s = true)
    ∧ (∃ (s : State) (i : Nat), (s.slotOf i).st = .rotating ∧ due ((s.slotOf i).sweepAt + 10 * sec) s.clk.now = true)
    ∧ (∃ (s : State) (c a : Nat), c < 48 ∧ (s.core c).ask = some a ∧ s.marked (s.core c).askSeq = true)
    ∧ (∃ (s : State), s.order ≠ 2 ∧ (match s.key.testAt with | none => s.md.mode = .boot | some t => t + 86400 * sec ≤ s.clk.now))
    ∧ (∃ (s : State), s.md.entropyBad = true)
    ∧ (∃ (s : State), s.md.entropyBad = false) :=
  ⟨⟨{ w0 with key := { slots := [(5, { st := .gcm, key := [2], dying := true })] } }, 5, by decide⟩,
   ⟨{ w0 with key := { slots := [(5, { st := .gcm, key := [2], prev := [1] })] } }, 5, by decide⟩,
   ⟨{ w0 with key := { slots := [(5, { erasing := true })] } }, 5, by decide⟩,
   ⟨{ wa with key := { slots := [(0, { st := .rotating, key := [2] })] } }, 0, nx, by decide⟩,
   ⟨{ wa with clk := { wa.clk with now := 10 ^ 12 }, key := { slots := [(0, { st := .rotating, key := [2] })] } }, 0, by decide⟩,
   ⟨{ w0 with key := { cores := [(3, { ask := some 0 })] } }, 3, 0, by decide⟩,
   ⟨{ w0 with clk := { w0.clk with now := 10 ^ 15 }, key := { testAt := some 0 } }, by decide⟩,
   ⟨{ w0 with md := { w0.md with entropyBad := true } }, by decide⟩,
   ⟨w0, by decide⟩⟩
theorem witness_linkTrainingComplete :
    (∃ (s u : State) (k g : Nat), k < 3 ∧ onLink k (fun l => { l with signal := g % 2 ^ lanesOf k }) s = u ∧ linkMay u k = true ∧ (u.link k).st = .silent ∧ ((match (u.link k).retryAt with | some t => t ≤ u.clk.now | none => (u.link k).signal ≠ 0 ∨ (u.link k).since + 10 * ms ≤ u.clk.now)))
    ∧ (∃ (s t : State) (k i : Nat) (f : TrainFrame) (e : Option Nat) (w : TapWish), linkMay s k = true ∧ f.crcOk = true ∧ i < lanesOf k ∧ (s.link k).st = .equalise ∧ send { kind := .trainFrame, a := k, b := i, ws := trainWords k i w (laneOf ((onLane k i (trainLane i f (patternReady e) w) s).link k) i) } (onLane k i (trainLane i f (patternReady e) w) s) = t)
    ∧ (∃ (s : State) (k i : Nat) (f : TrainFrame), linkMay s k = true ∧ f.crcOk = true ∧ i < lanesOf k ∧ (s.link k).st = .active ∧ inGroup (s.link k) i = false)
    ∧ (∃ (s t : State) (k : Nat), (s.link k).st = .equalise ∧ due ((s.link k).since + 150 * ms) s.clk.now = true ∧ forAll (List.range (lanesOf k)) (fun i => onLane k i fun x => { x with bad := !x.both }) s = t)
    ∧ (∃ (s t : State) (k i : Nat) (b : Bool), linkMay s k = true ∧ i < lanesOf k ∧ (s.link k).st = .active ∧ onLink k (fun l => { l with rxPos := if b = true then 0 else l.rxPos }) (onLane k i (markLane b) s) = t ∧ (t.link k).st = .active)
    ∧ (∃ (s t : State) (k i : Nat) (b : Bool), linkMay s k = true ∧ i < lanesOf k ∧ (s.link k).st = .align ∧ onLink k (fun l => { l with rxPos := if b = true then 0 else l.rxPos }) (onLane k i (markLane b) s) = t ∧ (t.link k).st = .align)
    ∧ (∃ (s t : State) (k i : Nat) (c : ConfigBlk), linkMay s k = true ∧ i < lanesOf k ∧ (s.link k).st = .config ∧ onLink k (fun l => { l with rxPos := 0 }) (onLane k i (markLane true) s) = t ∧ (t.link k).st = .config ∧ agreed (t.link k) = some c)
    ∧ (∃ (s t u : State) (k n : Nat) (b : ConfigBlk), linkMay s k = true ∧ b.crcOk = true ∧ (s.link k).st = .config ∧ (if (s.link k).peer = some b then min 8 ((s.link k).same + 1) else 1) = n ∧ onLink k (fun l => { l with peer := some b, same := n, ackSent := if l.ackd = true then min 8 (l.ackSent + 1) else 0, rxPos := l.rxPos + 256 }) s = t ∧ 8 ≤ n ∧ (if (s.link k).ackd = true then t else sendConfig k (onLink k (fun l => { l with ackd := true, ackSent := 1 }) t)) = u)
    ∧ (∃ (s : State) (k : Nat), ((s.link k).st = .align ∨ (s.link k).st = .config) ∧ due ((s.link k).since + ms) s.clk.now = true ∧ (s.link k).resume = none)
    ∧ (∃ (s : State) (k t : Nat), ((s.link k).st = .align ∨ (s.link k).st = .config) ∧ due ((s.link k).since + ms) s.clk.now = true ∧ (s.link k).resume = some t ∧ s.clk.now < t)
    ∧ (∃ (s : State) (k t : Nat), (s.link k).retryAt = some t ∧ due t s.clk.now = true ∧ linkMay s k = true ∧ (s.link k).st = .silent) :=
  ⟨⟨wk { session := 5 }, _, 0, 3, ⟨by decide, rfl, by decide, by decide, .inl (by decide)⟩⟩,
   ⟨wk { st := .equalise }, _, 0, 3, ⟨true, 3, 0, 0, 0, 0, (0, 0, 0), true, false⟩, some 3, (0, 0, 0, 0, false), ⟨by decide, by decide, by decide, by decide, rfl⟩⟩,
   ⟨wk { st := .active, width := 8 }, 0, 9, ⟨true, 9, 0, 0, 0, 0, (0, 0, 0), true, false⟩, by decide⟩,
   ⟨{ wk { st := .equalise } with clk := { w0.clk with now := 10 ^ 12 } }, _, 0, ⟨by decide, by decide, rfl⟩⟩,
   ⟨wk { st := .active }, _, 0, 3, true, ⟨by decide, by decide, by decide, rfl, by decide⟩⟩,
   ⟨wk { st := .align }, _, 0, 3, true, ⟨by decide, by decide, by decide, rfl, by decide⟩⟩,
   ⟨wk { st := .config, same := 8, ackSent := 8, peer := some { cb with ackcfg := true } }, _, 0, 3, { cb with ackcfg := true }, ⟨by decide, by decide, by decide, rfl, by decide, by decide⟩⟩,
   ⟨wk { st := .config, same := 8, peer := some cb }, _, _, 0, 8, cb, ⟨by decide, by decide, by decide, by decide, rfl, by decide, rfl⟩⟩,
   ⟨{ wk { st := .align } with clk := { w0.clk with now := 10 ^ 12 } }, 0, by decide⟩,
   ⟨{ wk { st := .align, resume := some (10 ^ 13) } with clk := { w0.clk with now := 10 ^ 12 } }, 0, 10 ^ 13, by decide⟩,
   ⟨{ wk { retryAt := some 0 } with clk := { w0.clk with now := 10 ^ 12 } }, 0, 0, by decide⟩⟩
theorem witness_linkTrafficComplete :
    (∃ (s t : State) (k : Nat) (f : FlitIn), (s.link k).st = .active ∧ f.errs.length ≤ rsCorrects ∧ ackFlit k f (onLink k (fun l => { l with rxPos := l.rxPos + 256 }) s) = t)
    ∧ (∃ (s : State) (k : Nat) (f : FlitIn), (s.link k).st = .active ∧ rsCorrects < f.errs.length)
    ∧ (∃ (s : State) (k : Nat), (s.link k).st = .active ∧ due ((s.link k).progAt + 2 * us) s.clk.now = true)
    ∧ (∃ (s : State) (k i : Nat), (s.link k).st = .active ∧ inGroup (s.link k) i = true)
    ∧ (∃ (s t : State) (k q : Nat), (s.link k).st = .active ∧ (s.link k).beatAt ≤ s.clk.now ∧ ((s.link k).hbseq + 1) % 2 ^ 32 = q ∧ ((onLink k (fun l => { l with beatAt := s.clk.now + 500, hbseq := q, hbTx := tabIns (tabFilter l.hbTx fun n _ => decide (q < n + 256)) q s.clk.now }) s).onPair fun p => { p with drainW := p.drainW && writesOut (onLink k (fun l => { l with beatAt := s.clk.now + 500, hbseq := q, hbTx := tabIns (tabFilter l.hbTx fun n _ => decide (q < n + 256)) q s.clk.now }) s) }) = t)
    ∧ (∃ (s t : State) (k : Nat) (h : HeartbeatIn), (s.link k).st = .active ∧ (if k = 0 then partnerBeat h (linkBeat k h s) else linkBeat k h s) = t)
    ∧ (∃ (s : State) (k : Nat), (s.link k).st = .active ∧ due ((s.link k).hbAt + 50 * us) s.clk.now = true)
    ∧ (∃ (s : State) (k t : Nat), (s.link k).resume = some t ∧ due t s.clk.now = true ∧ (s.link k).st ≠ .active)
    ∧ (∃ (s t : State) (k a : Nat), (s.link k).wideAt = some a ∧ (s.link k).st = .active ∧ due (a + 10 * sec) s.clk.now = true ∧ ((k = 0 ∧ s.bay.bay = 0) ∨ k = 2) ∧ notePartner k (toAlign k (onLink k (fun l => { l with canResume := true, resume := some (s.clk.now + 20 * ms), wideAt := none }) s)) = t)
    ∧ (∃ (s : State), s.pair.rxNew ≠ 0 ∧ (decide (64 ≤ s.pair.rxNew) || due (s.pair.rxAt + 200) s.clk.now) = true ∧ s.links.partnerUp = true)
    ∧ (∃ (s t : State) (n : Nat) (left : List (Nat × Nat)), count1 5657 s = t ∧ t.pair.shadowing = true ∧ n ≤ t.pair.wire ∧ t.pair.inFlight.filter (fun e => decide (n < e.1)) = left ∧ left.length ≠ t.pair.inFlight.length)
    ∧ (∃ (s : State), s.pair.shadowing = true ∧ s.pair.pmark < s.pair.pseq ∧ due (s.pair.markAt + ms) s.clk.now = true)
    ∧ (∃ (s : State) (k cls w : Nat), (s.link k).st = .active ∧ (if k = 0 then 34 else 31 + k) = w ∧ (noCredit s w (cls % 8) = true ∨ ((s.link k).queue.any fun r => decide (r.vc = 8 + cls % 8)) = true))
    ∧ (∃ (s t : State) (m : MsgIn) (cls : Nat), (s.link m.link).st = .active ∧ freeCredits m.link (8 + cls % 8) m.len s = t ∧ m.hops < 15) :=
  ⟨⟨wk { st := .active, width := 16 }, _, 0, ⟨[], 1, 0, false, false, 3, false⟩, ⟨by decide, by decide, rfl⟩⟩,
   ⟨wk { st := .active, width := 16 }, 0, ⟨List.replicate 12 0, 1, 0, false, false, 3, false⟩, by decide⟩,
   ⟨{ wk { st := .active, fseq := 4 } with clk := { w0.clk with now := 10 ^ 12 } }, 0, by decide⟩,
   ⟨wk { st := .active, width := 16 }, 0, 4, by decide⟩,
   ⟨wk { st := .active, hbseq := 4 }, _, 0, 5, ⟨by decide, by decide, by decide, rfl⟩⟩,
   ⟨wk { st := .active }, _, 0, ⟨7, 2, true, false, false, 65535, 9, 0, 0, [], 12⟩, ⟨by decide, rfl⟩⟩,
   ⟨{ wk { st := .active } with clk := { w0.clk with now := 10 ^ 12 } }, 0, by decide⟩,
   ⟨{ wk { st := .align, resume := some 5 } with clk := { w0.clk with now := 10 ^ 12 } }, 0, 5, by decide⟩,
   ⟨{ wk { st := .active, wideAt := some 5 } with clk := { w0.clk with now := 10 ^ 12 } }, _, 0, 5, ⟨by decide, by decide, by decide, by decide, rfl⟩⟩,
   ⟨{ w0 with links := { partnerUp := true }, pair := { rxNew := 64, rxseq := 9 } }, by decide⟩,
   ⟨{ w0 with pair := { shadowing := true, pseq := 9, wire := 6, inFlight := [(3, 3), (5, 5)] } }, _, 4, [(5, 5)], ⟨rfl, by decide, by decide, by decide, by decide⟩⟩,
   ⟨{ w0 with clk := { w0.clk with now := 10 ^ 12 }, pair := { shadowing := true, pseq := 9 } }, by decide⟩,
   ⟨wk { st := .active, queue := [⟨10, 64, { kind := .forward }⟩] }, 0, 2, 34, by decide⟩,
   ⟨wk { st := .active }, _, ⟨0, 0, 1, 40⟩, 2, ⟨by decide, rfl, by decide⟩⟩⟩
theorem witness_leaseComplete :
    (∃ (s : State), s.pair.lease = true ∧ leaseMay s = true ∧ due (s.pair.renewAt + 10 * ms) s.clk.now = true)
    ∧ (∃ (s : State), s.pair.lease = true ∧ leaseMay s = true ∧ s.pair.answered = false ∧ s.pair.resends < 3 ∧ due (s.pair.renewAt + (s.pair.resends + 1) * 500 * us) s.clk.now = true)
    ∧ (∃ (s : State), s.pair.lease = false ∧ leaseMay s = true ∧ due (s.pair.statusAt + 5 * ms) s.clk.now = true)
    ∧ (∃ (s : State) (t : Nat), s.pair.claimAt = some t ∧ s.md.mode = .boot ∧ s.pair.lease = false ∧ leaseMay s = true ∧ 2 ≤ s.pair.holder ∧ s.md.maintBoot = false ∧ s.md.selftestBad = false ∧ s.md.dramBad = false ∧ due t s.clk.now = true)
    ∧ (∃ (s t : State) (f : WitnessFrame), leaseMay s = true ∧ sawWitness f s = t)
    ∧ (∃ (s t u : State) (f : WitnessFrame), leaseMay s = true ∧ answerForce stConflict (sawWitness f s) = t ∧ (if t.pair.down then t else raise 719 (pairParam t 0) (t.onPair fun p => { p with down := true })) = u)
    ∧ (∃ (s t : State) (f : WitnessFrame), leaseMay s = true ∧ sawWitness f s = t)
    ∧ (∃ (s : State), s.pair.lease = true ∧ due s.pair.expiry s.clk.now = true)
    ∧ (∃ (s : State), s.pair.witness = true ∧ leaseMay s = true ∧ due (s.pair.frameAt + 20 * ms) s.clk.now = true)
    ∧ (∃ (s : State) (d t : Nat) (tag : Word), s.pair.force = some (d, tag, t) ∧ due (t + 100 * ms) s.clk.now = true)
    ∧ (∃ (s t : State) (g : Nat), s.pair.grantAt = some g ∧ s.pair.arps < 3 ∧ s.md.mode = .active ∧ frontOn s = true ∧ due (g + [0, ms, 10 * ms].getD s.pair.arps 0) s.clk.now = true ∧ s.onPair (fun p => { p with arps := p.arps + 1 }) = t)
    ∧ (∃ (s : State) (t : Nat), s.drv.writeHold = some t ∧ due t s.clk.now = true)
    ∧ (∃ (s : State) (g c : Nat), s.pair.grantAt = some g ∧ s.pair.lease = true ∧ s.pair.fault = 0 ∧ s.clk.now ≤ g + 100 * ms ∧ selfFault s c = true) :=
  ⟨⟨wq { lease := true }, by decide⟩,
   ⟨wq { lease := true, answered := false }, by decide⟩,
   ⟨wq {}, by decide⟩,
   ⟨{ wq { claimAt := some 0 } with md := { mode := .boot, stage := .pairing, kumel := .running } }, 0, by decide⟩,
   ⟨wq { lease := true, sentAt := [(4, 0)] }, _, wf, ⟨by decide, rfl⟩⟩,
   ⟨wq { lease := true }, _, _, wf, ⟨by decide, rfl, rfl⟩⟩,
   ⟨wq { lease := true, soloAsk := true, soloSeq := 4 }, _, wf, ⟨by decide, rfl⟩⟩,
   ⟨wq { lease := true, expiry := 5 }, by decide⟩,
   ⟨wq {}, by decide⟩,
   ⟨wq { force := some (0, 7, 0) }, 0, 0, 7, by decide⟩,
   ⟨{ wq { grantAt := some 0 } with md := { w0.md with egressOff := false } }, _, 0, ⟨by decide, by decide, by decide, by decide, by decide, rfl⟩⟩,
   ⟨{ wq {} with drv := { writeHold := some 5 } }, 5, by decide⟩,
   ⟨{ wq { lease := true, grantAt := some (10 ^ 12) } with md := { w0.md with clockLost := [(117, true)] } }, 10 ^ 12, 1, by decide⟩⟩
theorem witness_pairComplete :
    (∃ (s t : State) (n len : Nat), freeCredits 0 1 len s = t ∧ takesShadow t = true ∧ n ≠ 1 ∧ t.pair.rxOn = true ∧ t.pair.stuck = false ∧ n = t.pair.rxseq + 1)
    ∧ (∃ (s t : State) (n len : Nat), freeCredits 0 2 len s = t ∧ takesShadow t = true ∧ n ≠ 1 ∧ t.pair.rxOn = true ∧ t.pair.stuck = false ∧ n = t.pair.rxseq + 1)
    ∧ (∃ (s t u : State) (n len : Nat) (l : List MirrorItem), freeCredits 0 2 len s = t ∧ takesShadow t = true ∧ n ≠ 1 ∧ t.pair.rxOn = true ∧ t.pair.stuck = false ∧ n = t.pair.rxseq + 1 ∧ silently (forAll l mirrorItem) t = u)
    ∧ (∃ (s t : State) (len : Nat), freeCredits 0 1 len s = t ∧ takesShadow t = true ∧ (startFeed t).pair.rxOn = true ∧ (startFeed t).pair.stuck = false ∧ (startFeed t).pair.rxseq = 0)
    ∧ (∃ (s t : State) (n : Nat) (len : Nat), freeCredits 0 1 len s = t ∧ takesShadow t = true ∧ n ≠ 1 ∧ t.pair.rxOn = true ∧ t.pair.stuck = false ∧ n = t.pair.rxseq + 1)
    ∧ (∃ (s t : State) (n : Nat) (len : Nat), freeCredits 0 1 len s = t ∧ n ≠ 1 ∧ (takesShadow t = false ∨ t.pair.rxOn = false ∨ t.pair.stuck = true ∨ n ≠ t.pair.rxseq + 1))
    ∧ (∃ (s t : State) (len : Nat), freeCredits 0 2 len s = t ∧ takesShadow t = true ∧ (startFeed t).pair.rxOn = true ∧ (startFeed t).pair.stuck = false ∧ (startFeed t).pair.rxseq = 0)
    ∧ (∃ (s t : State) (n : Nat) (len : Nat), freeCredits 0 2 len s = t ∧ takesShadow t = true ∧ n ≠ 1 ∧ t.pair.rxOn = true ∧ t.pair.stuck = false ∧ n = t.pair.rxseq + 1)
    ∧ (∃ (s t : State) (n : Nat) (len : Nat), freeCredits 0 2 len s = t ∧ n ≠ 1 ∧ (takesShadow t = false ∨ t.pair.rxOn = false ∨ t.pair.stuck = true ∨ n ≠ t.pair.rxseq + 1))
    ∧ (∃ (s t : State) (len : Nat), freeCredits 0 2 len s = t ∧ takesShadow t = true ∧ (startFeed t).pair.rxOn = true ∧ (startFeed t).pair.stuck = false ∧ (startFeed t).pair.rxseq = 0)
    ∧ (∃ (s t : State) (n : Nat) (len : Nat), freeCredits 0 2 len s = t ∧ takesShadow t = true ∧ n ≠ 1 ∧ t.pair.rxOn = true ∧ t.pair.stuck = false ∧ n = t.pair.rxseq + 1)
    ∧ (∃ (s t : State) (n : Nat) (len : Nat), freeCredits 0 2 len s = t ∧ n ≠ 1 ∧ (takesShadow t = false ∨ t.pair.rxOn = false ∨ t.pair.stuck = true ∨ n ≠ t.pair.rxseq + 1))
    ∧ (∃ (s t : State), s.pair.take = some .freeze ∧ writesOut s = false ∧ s.pair.pseq ≤ s.pair.pmark ∧ leaseSend 3 false (shadow .stateWrite 11 0 s) = t)
    ∧ (∃ (s t : State), s.pair.take = some .forward ∧ s.md.mode = .active ∧ due (s.pair.takeAt + ms) s.clk.now = true ∧ (s.onPair fun p => { p with take := none, egressHalt := false, current := true, grantAt := none, took := false }).onDrv (fun d => { d with cmds := [], recons := [], passes := [], writeHold := none }) = t)
    ∧ (∃ (s : State), resyncMay s = true ∧ s.pair.auto = true)
    ∧ (∃ (s : State) (n b : Nat), s.pair.resync = some n ∧ s.pair.shadowing = true ∧ s.pair.phaseAt + b / max 1 s.pair.rsRate ≤ s.clk.now ∧ n < 3)
    ∧ (∃ (s t : State) (b : Nat), s.pair.resync = some 3 ∧ s.pair.shadowing = true ∧ s.pair.phaseAt + b / max 1 s.pair.rsRate ≤ s.clk.now ∧ (count 5674 b s).onPair (fun p => { p with resync := none, rsPct := 100, paired := true, peerCurrent := true }) = t)
    ∧ (∃ (s : State), s.pair.resync = none ∧ s.pair.rxOn = true ∧ (s.md.mode = .standby ∨ s.md.mode = .fenced ∨ s.md.mode = .boot))
    ∧ (∃ (s : State) (p : Packet), taken 0x0B01 0 0 p s = true)
    ∧ (∃ (s : State) (p : Packet), taken 0x0B02 0 0 p s = true ∧ (s.arrived 0x0B02 p).pair.paired = true ∧ (s.arrived 0x0B02 p).pair.take = none)
    ∧ (∃ (s : State) (p : Packet), taken 0x0B02 0 0 p s = true ∧ (s.arrived 0x0B02 p).pair.paired = false)
    ∧ (∃ (s : State) (p : Packet) (x : TkPhase), taken 0x0B02 0 0 p s = true ∧ (s.arrived 0x0B02 p).pair.paired = true ∧ (s.arrived 0x0B02 p).pair.take = some x)
    ∧ (∃ (s : State) (p : Packet), taken 0x0B03 1 0 p s = true ∧ clean (mask 6 0 ||| mask 8 8) (p.w 2) = true ∧ 1 ≤ bits 6 0 (p.w 2) ∧ bits 6 0 (p.w 2) ≤ 80)
    ∧ (∃ (s : State) (p : Packet), taken 0x0B04 0 0 p s = true ∧ (s.arrived 0x0B04 p).links.partnerUp = true ∧ (s.arrived 0x0B04 p).pair.peerCurrent = false)
    ∧ (∃ (s : State) (p : Packet), taken 0x0B04 0 0 p s = true ∧ ((s.arrived 0x0B04 p).links.partnerUp = false ∨ (s.arrived 0x0B04 p).pair.peerCurrent = true))
    ∧ (∃ (s : State) (p : Packet), taken 0x0B05 1 0 p s = true ∧ p.w 2 = 0x00004824 ∧ (s.arrived 0x0B05 p).pair.force = none)
    ∧ (∃ (s : State) (p : Packet), taken 0x0B05 1 0 p s = true ∧ p.w 2 ≠ 0x00004824) :=
  ⟨⟨wr, _, 3, 9, ⟨rfl, by decide, by decide, by decide, by decide, by decide⟩⟩,
   ⟨wr, _, 3, 9, ⟨rfl, by decide, by decide, by decide, by decide, by decide⟩⟩,
   ⟨wr, _, _, 3, 9, [.nonce 0 3 5], ⟨rfl, by decide, by decide, by decide, by decide, by decide, rfl⟩⟩,
   ⟨wr, _, 9, ⟨rfl, by decide, by decide, by decide, by decide⟩⟩,
   ⟨wr, _, 3, 9, ⟨rfl, by decide, by decide, by decide, by decide, by decide⟩⟩,
   ⟨wr, _, 9, 9, ⟨rfl, by decide, by decide⟩⟩,
   ⟨wr, _, 9, ⟨rfl, by decide, by decide, by decide, by decide⟩⟩,
   ⟨wr, _, 3, 9, ⟨rfl, by decide, by decide, by decide, by decide, by decide⟩⟩,
   ⟨wr, _, 9, 9, ⟨rfl, by decide, by decide⟩⟩,
   ⟨wr, _, 9, ⟨rfl, by decide, by decide, by decide, by decide⟩⟩,
   ⟨wr, _, 3, 9, ⟨rfl, by decide, by decide, by decide, by decide, by decide⟩⟩,
   ⟨wr, _, 9, 9, ⟨rfl, by decide, by decide⟩⟩,
   ⟨wq { take := some .freeze }, _, ⟨by decide, by decide, by decide, rfl⟩⟩,
   ⟨wq { take := some .forward }, _, ⟨by decide, by decide, by decide, rfl⟩⟩,
   ⟨{ wq { lease := true, peerMode := 1 } with links := { partnerUp := true } }, by decide⟩,
   ⟨wq { resync := some 1, shadowing := true }, 1, 4096, by decide⟩,
   ⟨wq { resync := some 3, shadowing := true }, _, 4096, ⟨by decide, by decide, by decide, rfl⟩⟩,
   ⟨{ wq { rxOn := true } with md := { w0.md with mode := .standby } }, by decide⟩,
   ⟨w0, pk [], by decide⟩,
   ⟨{ w0 with pair := { paired := true, shadowing := true } }, pk [], by decide⟩,
   ⟨w0, pk [], by decide⟩,
   ⟨{ w0 with pair := { paired := true, shadowing := true, take := some .freeze } }, pk [], .freeze, by decide⟩,
   ⟨w0, pk [20], by decide⟩,
   ⟨{ w0 with links := { partnerUp := true } }, pk [], by decide⟩,
   ⟨w0, pk [], by decide⟩,
   ⟨{ w0 with md := { w0.md with mode := .fenced } }, pk [0x4824], by decide⟩,
   ⟨{ w0 with md := { w0.md with mode := .fenced } }, pk [1], by decide⟩⟩
theorem witness_stackMessagesComplete :
    (∃ (s : State) (k : Nat), (k = 1 ∨ k = 2) ∧ (s.link k).st = .active ∧ (s.link k).onlyHb = false ∧ (s.link k).helloAt ≤ s.clk.now)
    ∧ (∃ (s : State) (k : Nat), (k = 1 ∨ k = 2) ∧ (s.link k).st = .active)
    ∧ (∃ (s : State) (k : Nat), (k = 3 ∨ k = 4) ∧ s.links.partnerUp = true)
    ∧ (∃ (s : State) (k : Nat) (nb : Neighbour) (h : Hello), tabGet {} s.stk.near k = nb ∧ nb.hello = some h ∧ due (nb.at_ + 5 * ms) s.clk.now = true)
    ∧ (∃ (s : State) (m : MsgIn), (s.link m.link).st = .active ∧ s.stk.record = none)
    ∧ (∃ (s t : State) (m : MsgIn) (c : StackRec), (s.link m.link).st = .active ∧ s.stk.record = some c ∧ freeCredits m.link 3 m.len s = t ∧ m.hops < 15 ∧ routeOf t m = .take)
    ∧ (∃ (s : State) (t : Nat), s.stk.formAt = some t ∧ due t s.clk.now = true ∧ s.stk.record = none ∧ s.stk.cand = false)
    ∧ (∃ (s t : State) (m : MsgIn), (s.link m.link).st = .active ∧ freeCredits m.link 3 m.len s = t ∧ routeOf t m = .take)
    ∧ (∃ (s t : State) (m : MsgIn), (s.link m.link).st = .active ∧ freeCredits m.link 3 m.len s = t ∧ m.hops < 15 ∧ routeOf t m = .take)
    ∧ (∃ (s t : State) (m : MsgIn), (s.link m.link).st = .active ∧ freeCredits m.link 3 m.len s = t ∧ m.hops < 15 ∧ routeOf t m = .take)
    ∧ (∃ (s : State), masterReach s = false ∧ s.stk.masterTold = false ∧ s.stk.record.isSome = true ∧ actsForShelf s = true ∧ due (s.stk.masterAt + sec) s.clk.now = true)
    ∧ (∃ (s t : State) (m : MsgIn) (cls : Nat), (s.link m.link).st = .active ∧ freeCredits m.link (8 + cls % 8) m.len s = t ∧ m.hops < 15 ∧ routeOf t m = .take)
    ∧ (∃ (s t : State) (m : MsgIn) (cls : Nat), (s.link m.link).st = .active ∧ freeCredits m.link (8 + cls % 8) m.len s = t ∧ m.hops < 15 ∧ routeOf t m = .take)
    ∧ (∃ (s t : State) (m : MsgIn) (cls : Nat), (s.link m.link).st = .active ∧ freeCredits m.link (8 + cls % 8) m.len s = t ∧ m.hops < 15 ∧ routeOf t m = .take)
    ∧ (∃ (s t : State) (m : MsgIn) (cls : Nat), (s.link m.link).st = .active ∧ freeCredits m.link (8 + cls % 8) m.len s = t ∧ m.hops < 15 ∧ routeOf t m = .take)
    ∧ (∃ (s t : State) (m : MsgIn) (cls : Nat), (s.link m.link).st = .active ∧ freeCredits m.link (8 + cls % 8) m.len s = t ∧ m.hops < 15 ∧ routeOf t m = .take)
    ∧ (∃ (s : State) (tag t : Nat) (w : FwdOut) (c : Cmd), tabFind s.stk.fwd tag = some w ∧ w.goneAt = some t ∧ s.cmdOf tag = some c ∧ c.ready = false ∧ due (t + 100 * ms) s.clk.now = true) :=
  ⟨⟨wt, 2, by decide⟩,
   ⟨wt, 2, by decide⟩,
   ⟨{ wt with links := { partnerUp := true } }, 4, by decide⟩,
   ⟨{ wt with clk := { w0.clk with now := 10 ^ 12 }, stk := { record := some sr, near := [(2, { hello := some ⟨77, 1, 0, 2, true, false, true, 8⟩ })] } }, 2, { hello := some ⟨77, 1, 0, 2, true, false, true, 8⟩ }, ⟨77, 1, 0, 2, true, false, true, 8⟩, by decide⟩,
   ⟨{ wt with stk := {} }, mg, by decide⟩,
   ⟨wt, _, mg, sr, ⟨by decide, by decide, rfl, by decide, by decide⟩⟩,
   ⟨{ wt with clk := { w0.clk with now := 10 ^ 12 }, stk := { formAt := some 5 } }, 5, by decide⟩,
   ⟨wt, _, mg, ⟨by decide, rfl, by decide⟩⟩,
   ⟨wt, _, mg, ⟨by decide, rfl, by decide, by decide⟩⟩,
   ⟨wt, _, mg, ⟨by decide, rfl, by decide, by decide⟩⟩,
   ⟨{ wt with clk := { w0.clk with now := 10 ^ 12 }, stk := { record := some { sr with pos := 1 } } }, by decide⟩,
   ⟨wt, _, mg, 5, ⟨by decide, rfl, by decide, by decide⟩⟩,
   ⟨wt, _, mg, 5, ⟨by decide, rfl, by decide, by decide⟩⟩,
   ⟨wt, _, mg, 5, ⟨by decide, rfl, by decide, by decide⟩⟩,
   ⟨wt, _, mg, 5, ⟨by decide, rfl, by decide, by decide⟩⟩,
   ⟨wt, _, mg, 5, ⟨by decide, rfl, by decide, by decide⟩⟩,
   ⟨{ wt with clk := { w0.clk with now := 10 ^ 12 }, stk := { record := some sr, fwd := [(5, ⟨2, 1, some 5, 0⟩)] }, nvm := { tags := [(5, ck)] } }, 5, 5, ⟨2, 1, some 5, 0⟩, ck, by decide⟩⟩
theorem witness_stackCommandsComplete :
    (∃ (s : State) (p : Packet), taken 0x0C01 0 0 p s = true)
    ∧ (∃ (s : State) (p : Packet), taken 0x0C02 1 0 p s = true ∧ clean (mask 2 0) (p.w 2) = true ∧ inStack (s.arrived 0x0C02 p) (bits 2 0 (p.w 2)) = true)
    ∧ (∃ (s : State) (p : Packet) (c : CandPlace) (b : State), taken 0x0C03 3 0 p s = true ∧ (s.arrived 0x0C03 p).master = true ∧ (post p.door p.tag false stAccepted [] (s.arrived 0x0C03 p)).master = true ∧ (s.arrived 0x0C03 p).order ≠ 2 ∧ (post p.door p.tag false stAccepted [] (s.arrived 0x0C03 p)).order ≠ 2 ∧ clean (mask 3 0) (p.w 2) = true ∧ bit 3 (p.w 2) = false ∧ inStack (s.arrived 0x0C03 p) (bits 2 0 (p.w 2)) = false ∧ inStack (post p.door p.tag false stAccepted [] (s.arrived 0x0C03 p)) (bits 2 0 (p.w 2)) = false ∧ (findCand ((p.w 3).toNat + (p.w 4).toNat * 2 ^ 32) (s.arrived 0x0C03 p)).1 = some c ∧ findCand ((p.w 3).toNat + (p.w 4).toNat * 2 ^ 32) (post p.door p.tag false stAccepted [] (s.arrived 0x0C03 p)) = (some c, b) ∧ inStack (findCand ((p.w 3).toNat + (p.w 4).toNat * 2 ^ 32) (s.arrived 0x0C03 p)).2 (bits 2 0 (p.w 2)) = false ∧ inStack b (bits 2 0 (p.w 2)) = false ∧ between c (bits 2 0 (p.w 2)) = true)
    ∧ (∃ (s : State) (p : Packet), taken 0x0C04 1 0 p s = true ∧ (s.arrived 0x0C04 p).master = true ∧ clean (mask 2 0 ||| mask 8 8) (p.w 2) = true ∧ bits 2 0 (p.w 2) ≠ 0 ∧ inStack (s.arrived 0x0C04 p) (bits 2 0 (p.w 2)) = true ∧ homedOn (s.arrived 0x0C04 p) (bits 2 0 (p.w 2)) = [])
    ∧ (∃ (s : State) (p : Packet), taken 0x0C04 1 0 p s = true ∧ (s.arrived 0x0C04 p).master = true ∧ clean (mask 2 0 ||| mask 8 8) (p.w 2) = true ∧ bits 2 0 (p.w 2) ≠ 0 ∧ inStack (s.arrived 0x0C04 p) (bits 2 0 (p.w 2)) = true ∧ bit 8 (p.w 2) = true ∧ (s.arrived 0x0C04 p).stk.lost.testBit (bits 2 0 (p.w 2)) = true)
    ∧ (∃ (s : State) (p : Packet), taken 0x0C05 1 0 p s = true ∧ p.w 2 = 0x00004824 ∧ (s.arrived 0x0C05 p).stk.cand = false ∧ homedOn (s.arrived 0x0C05 p) (s.arrived 0x0C05 p).pos = [] ∧ otherShelves (s.arrived 0x0C05 p) = []) :=
  ⟨⟨w0, pk [], by decide⟩,
   ⟨wt, pk [1], by decide⟩,
   ⟨{ wt with stk := { record := some { sr with members := 5 }, near := [(2, { hello := some ⟨0, 0, 0, 2, true, false, false, 8⟩ })] }, links := { links := [(2, { st := .active, peer := some cb })] } }, pk [1, 5, 0], ⟨some 2, some 0, some 2⟩, (findCand 5 (post 0 7 false stAccepted [] ({ wt with stk := { record := some { sr with members := 5 }, near := [(2, { hello := some ⟨0, 0, 0, 2, true, false, false, 8⟩ })] }, links := { links := [(2, { st := .active, peer := some cb })] } }.arrived 0x0C03 (pk [1, 5, 0])))).2, by decide⟩,
   ⟨wt, pk [1], by decide⟩,
   ⟨{ wt with stk := { record := some sr, lost := 2 } }, pk [257], by decide⟩,
   ⟨{ wt with stk := { record := some { sr with members := 1 } } }, pk [0x4824], by decide⟩⟩
theorem witness_memoryEventsComplete :
    (∃ (e : MemErr), memClass e.cls = true ∧ indexOk e.cls e.index = true ∧ e.loc < classBytes e.cls ∧ (e.kind = 1 ∨ e.kind = 2 ∨ e.kind = 3))
    ∧ (∃ (s t : State) (e : Nat) (x : SelfTest), s.mem.tests.find? (fun t => t.eseq = e && !t.run) = some x ∧ testMay s x = true ∧ runningTests s < 16 ∧ count1 6683 (s.onMem fun m => { m with tests := m.tests.map fun y => if y.eseq = e then { y with run := true } else y }) = t)
    ∧ (∃ (s : State) (e : Nat) (x : SelfTest), s.mem.tests.find? (fun t => t.eseq = e && t.run) = some x)
    ∧ (∃ (s t : State) (e : Nat) (x : SelfTest), s.mem.tests.find? (fun t => t.eseq = e && !t.run && decide (12 ≤ t.cls)) = some x ∧ due (x.since + 600 * sec) s.clk.now = true ∧ untested e (s.onMem fun m => { m with tests := m.tests.filter fun y => y.eseq != e }) = t)
    ∧ (∃ (s t : State) (c : Nat), c < 13 ∧ s.mem.idleOn = true ∧ scrubPaused s = false ∧ idleStep c s = t)
    ∧ (∃ (s t : State) (cls n fixed bad old : Nat) (first : Option Nat) (x y : Scrub), tabFind s.mem.scrubs cls = some x ∧ x.running = true ∧ scrubPaused s = false ∧ { x with pos := x.pos + min n (scrubReach s cls x - x.pos), lines := x.lines + min n (scrubReach s cls x - x.pos), fixed := x.fixed + fixed, bad := x.bad + bad, old := x.old + old, first := x.first.or first } = y ∧ count 6688 (min n (scrubReach s cls x - x.pos)) (s.onMem fun m => { m with scrubs := tabIns m.scrubs cls y }) = t) :=
  ⟨⟨⟨8, 3, 4096, 0, 2, 1, .none⟩, by decide⟩,
   ⟨{ w0 with mem := { tests := [⟨5, 8, 0, 4096, false, 0, true⟩] } }, _, 5, ⟨5, 8, 0, 4096, false, 0, true⟩, ⟨by decide, by decide, by decide, rfl⟩⟩,
   ⟨{ w0 with mem := { tests := [⟨5, 8, 0, 4096, true, 0, true⟩] } }, 5, ⟨5, 8, 0, 4096, true, 0, true⟩, by decide⟩,
   ⟨{ w0 with clk := { w0.clk with now := 10 ^ 13 }, mem := { tests := [⟨5, 12, 0, 0, false, 0, true⟩] } }, _, 5, ⟨5, 12, 0, 0, false, 0, true⟩, ⟨by decide, by decide, rfl⟩⟩,
   ⟨w0, _, 3, ⟨by decide, by decide, by decide, rfl⟩⟩,
   ⟨{ w0 with mem := { scrubs := [(0, { running := true, length := 4096 })] } }, _, 0, 9, 0, 0, 0, none, { running := true, length := 4096 }, _, ⟨by decide, by decide, by decide, rfl, rfl⟩⟩⟩
theorem witness_memoryCommandsComplete :
    (∃ (s : State) (p : Packet), taken 0x0D01 0 0 p s = true)
    ∧ (∃ (s : State) (p : Packet), taken 0x0D02 2 0 p s = true ∧ clean (mask 3 0 ||| mask 8 8) (p.w 3) = true ∧ 1 ≤ bits 3 0 (p.w 3) ∧ bits 3 0 (p.w 3) ≤ 8)
    ∧ (∃ (s : State) (p : Packet) (st len : Nat), taken 0x0D03 6 0 p s = true ∧ clean (mask 3 0 ||| mask 11 8) (p.w 2) = true ∧ clean (mask 7 0) (p.w 7) = true ∧ memClass (bits 3 0 (p.w 2)) = true ∧ indexOk (bits 3 0 (p.w 2)) (bits 11 8 (p.w 2)) = true ∧ (p.w 3).toNat + (p.w 4).toNat * 2 ^ 32 = st ∧ (p.w 5).toNat + (p.w 6).toNat * 2 ^ 32 = len ∧ st % 64 = 0 ∧ len % 64 = 0 ∧ 0 < len ∧ st + len ≤ classBytes (bits 3 0 (p.w 2)) ∧ bits 7 0 (p.w 7) ≤ 50 ∧ (tabGet {} (s.arrived 0x0D03 p).mem.scrubs (bits 3 0 (p.w 2)) : Scrub).running = false)
    ∧ (∃ (s : State) (p : Packet), taken 0x0D04 1 0 p s = true ∧ clean (mask 3 0) (p.w 2) = true ∧ memClass (bits 3 0 (p.w 2)) = true)
    ∧ (∃ (s : State) (p : Packet), taken 0x0D05 1 0 p s = true ∧ clean (mask 0 0 ||| mask 15 8) (p.w 2) = true ∧ 1 ≤ bits 15 8 (p.w 2))
    ∧ (∃ (s : State) (p : Packet), taken 0x0D06 0 0 p s = true)
    ∧ (∃ (s : State) (p : Packet) (x : Nat) (b : State), taken 0x0D07 3 0 p s = true ∧ clean (mask 3 0 ||| mask 11 8) (p.w 2) = true ∧ dramClass (bits 3 0 (p.w 2)) = true ∧ indexOk (bits 3 0 (p.w 2)) (bits 11 8 (p.w 2)) = true ∧ (p.w 3).toNat + (p.w 4).toNat * 2 ^ 32 = x ∧ x % 4096 = 0 ∧ x < classBytes (bits 3 0 (p.w 2)) ∧ (s.arrived 0x0D07 p).mem.pages.contains (bits 3 0 (p.w 2), bits 11 8 (p.w 2), x) = false ∧ ((List.range 4).any fun w => decide (w ≠ 0) && decide (windowClass w = bits 3 0 (p.w 2)) && decide (windowChannel w = bits 11 8 (p.w 2)) && decide (windowAddr w = x)) = false ∧ 0 < sparePages (s.arrived 0x0D07 p) (bits 3 0 (p.w 2)) ∧ count1 6691 ((s.arrived 0x0D07 p).onMem fun m => { m with pages := m.pages ++ [(bits 3 0 (p.w 2), bits 11 8 (p.w 2), x)] }) = b)
    ∧ (∃ (s : State) (p : Packet) (b : State), taken 0x0D08 2 0 p s = true ∧ clean (mask 3 0) (p.w 2) = true ∧ clean (mask 18 0) (p.w 3) = true ∧ bits 3 0 (p.w 2) ≤ 5 ∧ bits 18 0 (p.w 3) < classBytes (bits 3 0 (p.w 2)) / 512 ∧ 0 < spareRows (s.arrived 0x0D08 p) (bits 3 0 (p.w 2)) (bits 18 0 (p.w 3)) ∧ count1 6692 ((s.arrived 0x0D08 p).onMem fun m => { m with rows := m.rows ++ [(bits 3 0 (p.w 2), bits 18 0 (p.w 3))] }) = b)
    ∧ (∃ (s : State) (p : Packet), taken 0x0D09 2 (bits 10 0 (p.w 2)) p s = true ∧ bits 10 0 (p.w 2) = windowWords (bits 13 12 (p.w 2)) ∧ clean (mask 10 0 ||| mask 13 12) (p.w 2) = true ∧ clean (mask 11 0 ||| mask 16 16) (p.w 3) = true ∧ bits 11 0 (p.w 3) % 64 = 0)
    ∧ (∃ (s : State) (p : Packet), taken 0x0D0A 1 0 p s = true ∧ clean (mask 13 0) (p.w 2) = true ∧ bits 11 0 (p.w 2) % 64 = 0)
    ∧ (∃ (s : State) (p : Packet) (n : Ns), taken 0x0D0B 1 0 p s = true ∧ nsidOk (p.w 2) 0 = true ∧ (s.arrived 0x0D0B p).nsOf (bits 12 0 (p.w 2)) = some n ∧ n.deleting = false ∧ n.home = (s.arrived 0x0D0B p).pos ∧ actsForShelf (s.arrived 0x0D0B p) = true ∧ n.ro = true ∧ (s.arrived 0x0D0B p).vol.lost.contains (bits 12 0 (p.w 2)) = true ∧ copiesRead (s.arrived 0x0D0B p) n = true)
    ∧ (∃ (s : State) (p : Packet) (loc k e : Nat) (b : State), taken 0x0D0C 3 0 p s = true ∧ clean (mask 3 0 ||| mask 15 8) (p.w 2) = true ∧ clean (mask 7 0) (p.w 4) = true ∧ (p.w 3).toNat + (p.w 4).toNat * 2 ^ 32 = loc ∧ locOk (bits 3 0 (p.w 2)) (bits 15 8 (p.w 2)) loc = true ∧ inService (s.arrived 0x0D0C p) (bits 3 0 (p.w 2)) (bits 15 8 (p.w 2)) loc = false ∧ inService (post p.door p.tag false stAccepted [] (s.arrived 0x0D0C p)) (bits 3 0 (p.w 2)) (bits 15 8 (p.w 2)) loc = false ∧ waitingTests (s.arrived 0x0D0C p) < 256 ∧ (if bits 3 0 (p.w 2) = 15 then 5 else if 12 ≤ bits 3 0 (p.w 2) then 4 else (takeFree (post p.door p.tag false stAccepted [] (s.arrived 0x0D0C p))).1.toNat % 8) = k ∧ newLog (bits 3 0 (p.w 2)) k (bits 15 8 (p.w 2)) loc 0 0 31 (takeFree (post p.door p.tag false stAccepted [] (s.arrived 0x0D0C p))).2 = (e, b)) :=
  ⟨⟨w0, pk [], by decide⟩,
   ⟨w0, pk [0, 4], by decide⟩,
   ⟨w0, pk [0, 0, 0, 4096, 0, 0], 0, 4096, by decide⟩,
   ⟨w0, pk [8], by decide⟩,
   ⟨w0, pk [0x101], by decide⟩,
   ⟨w0, pk [], by decide⟩,
   ⟨w0, pk [0x108, 4096, 0], 4096, _, by and_intros <;> first | rfl | decide⟩,
   ⟨w0, pk [0, 5], _, ⟨by decide, by decide, by decide, by decide, by decide, by decide, rfl⟩⟩,
   ⟨wm .maintenance, pkd 2 ([27, 64] ++ List.replicate 27 9), by decide⟩,
   ⟨wm .maintenance, pk [64], by decide⟩,
   ⟨{ wa with vol := { wa.vol with ns := [(1, { nx with ro := true })], lost := [1] } }, pk [1], { nx with ro := true }, by decide⟩,
   ⟨w0, pk [8, 4096, 0], 4096, _, _, _, by and_intros <;> first | rfl | decide⟩⟩
theorem witness_updateComplete :
    (∃ (s : State) (p : Packet), taken 0x0E01 0 0 p s = true)
    ∧ (∃ (s : State) (p : Packet), taken 0x0E02 1 (bits 6 0 (p.w 2)) p s = true ∧ clean (mask 6 0) (p.w 2) = true ∧ bits 6 0 (p.w 2) = 64)
    ∧ (∃ (s : State) (p : Packet) (x : Session) (b : State), taken 0x0E03 2 (bits 11 0 (p.w 2)) p s = true ∧ clean (mask 11 0) (p.w 2) = true ∧ 1 ≤ bits 11 0 (p.w 2) ∧ bits 11 0 (p.w 2) ≤ 4092 ∧ doorSession (s.arrived 0x0E03 p) = some x ∧ (p.w 3).toNat = x.rcvd ∧ takeOps x (p.data 2) (s.arrived 0x0E03 p) = some b)
    ∧ (∃ (s : State) (p : Packet) (x : Session), taken 0x0E04 0 0 p s = true ∧ doorSession (s.arrived 0x0E04 p) = some x ∧ doorSession (post p.door p.tag false stAccepted [] (s.arrived 0x0E04 p)) = some x)
    ∧ (∃ (s : State) (p : Packet), taken 0x0E05 2 0 p s = true ∧ clean (mask 0 0) (p.w 2) = true ∧ p.w 3 = (if bit 0 (p.w 2) then 0x00004824 else 0) ∧ ((s.arrived 0x0E05 p).bankOf (s.arrived 0x0E05 p).spare).st = .verified ∧ lateChecks (s.arrived 0x0E05 p) = none ∧ (!(s.arrived 0x0E05 p).links.partnerUp || dvOverlap (s.arrived 0x0E05 p)) = true ∧ (s.arrived 0x0E05 p).md.mode ≠ .active)
    ∧ (∃ (s : State) (p : Packet), taken 0x0E05 2 0 p s = true ∧ clean (mask 0 0) (p.w 2) = true ∧ bit 0 (p.w 2) = true ∧ p.w 3 = 0x00004824 ∧ ((s.arrived 0x0E05 p).bankOf (s.arrived 0x0E05 p).spare).st = .verified ∧ ((post p.door p.tag false stAccepted [] (s.arrived 0x0E05 p)).bankOf (post p.door p.tag false stAccepted [] (s.arrived 0x0E05 p)).spare).st = .verified ∧ lateChecks (s.arrived 0x0E05 p) = none ∧ lateChecks (post p.door p.tag false stAccepted [] (s.arrived 0x0E05 p)) = none ∧ (!(s.arrived 0x0E05 p).links.partnerUp || dvOverlap (s.arrived 0x0E05 p)) = true ∧ (!(post p.door p.tag false stAccepted [] (s.arrived 0x0E05 p)).links.partnerUp || dvOverlap (post p.door p.tag false stAccepted [] (s.arrived 0x0E05 p))) = true ∧ (s.arrived 0x0E05 p).md.mode = .active ∧ (post p.door p.tag false stAccepted [] (s.arrived 0x0E05 p)).md.mode = .active ∧ (s.arrived 0x0E05 p).pair.paired = false ∧ (post p.door p.tag false stAccepted [] (s.arrived 0x0E05 p)).pair.paired = false)
    ∧ (∃ (s : State) (p : Packet), taken 0x0E07 2 0 p s = true ∧ clean (mask 0 0) (p.w 2) = true ∧ (bit 0 (p.w 2) = true ∨ p.w 3 = 0x00004824))
    ∧ (∃ (s : State) (p : Packet), taken 0x0E08 0 0 p s = true ∧ sessionRuns (s.arrived 0x0E08 p) = true)
    ∧ (∃ (s : State) (p : Packet) (x : Session) (d : ExaelHead × List Word) (want : Nat) (b : State), taken 0x0E06 1 0 p s = true ∧ clean (mask 1 0) (p.w 2) = true ∧ bits 1 0 (p.w 2) = 1 ∧ (s.arrived 0x0E06 p).upd.sess = some x ∧ (s.arrived 0x0E06 p).upd.staged = some d ∧ x.phase = 3 ∧ (if (s.arrived 0x0E06 p).links.partnerUp then 2 ^ (2 * (s.arrived 0x0E06 p).pos + 1 - (s.arrived 0x0E06 p).bay.bay) else 0) = want ∧ forAll [0] (offerOn d.1 (s.arrived 0x0E06 p).modnum 1) (accept p 0x0E06 0 0 ((post p.door p.tag false stAccepted [] (s.arrived 0x0E06 p)).onUpd fun u => { u with sess := some { x with phase := 4 }, prop := some (1, want, 0, (s.arrived 0x0E06 p).clk.now), mask := 2 ^ (s.arrived 0x0E06 p).modnum, offered := [] })) = b)
    ∧ (∃ (s t : State) (x : Session), s.upd.sess = some x ∧ x.phase = 2 ∧ s.md.stage ≠ .holdFlash ∧ x.ended = true ∧ x.rcvd = x.head.opwords ∧ Config.sha384 (s.bankOf s.spare).image = x.head.target ∧ finish (fun r => r.op = 0x0E04) 897 stOk (word x.head.fwver) ((onBank s.spare (fun b => { b with st := .verified, head := some x.head }) s).onUpd fun u => { u with sess := some { x with phase := 3 }, staged := some (x.head, x.ops) }) = t)
    ∧ (∃ (s : State) (x : Session), s.upd.sess = some x ∧ x.phase = 2 ∧ x.ended = false)
    ∧ (∃ (s : State) (k : Nat) (ws : List Word), k ≤ 2 ∧ (s.link k).st = .active ∧ s.md.kumel = .running ∧ hasTarget s (headOf ws) 0 = false ∧ hasTarget s (headOf ws) 1 = false)
    ∧ (∃ (s t : State) (k : Nat) (d : ExaelHead × List Word), (s.link k).st = .active ∧ s.upd.offered.contains k = true ∧ s.onUpd (fun u => { u with offered := u.offered.erase k }) = t ∧ t.upd.staged = some d)
    ∧ (∃ (s t : State) (k n : Nat) (d : ExaelHead × List Word), (s.link k).st = .active ∧ s.upd.offered.contains k = true ∧ s.onUpd (fun u => { u with offered := u.offered.erase k }) = t ∧ t.upd.staged = some d ∧ peerMod t k = some n)
    ∧ (∃ (s : State) (k : Nat) (x : Session), linkSession s k = some x)
    ∧ (∃ (s : State) (k : Nat) (x : Session), linkSession s k = some x)
    ∧ (∃ (s : State) (m : MsgIn), (s.link m.link).st = .active ∧ m.dst = s.modnum)
    ∧ (∃ (s : State) (a b c t : Nat), s.upd.prop = some (a, b, c, t) ∧ due (t + 600 * sec) s.clk.now = true)
    ∧ (∃ (s : State) (t : Nat), s.upd.bootEnd = some t ∧ s.md.kumel = .running ∧ due (t + 60 * sec) s.clk.now = true) :=
  ⟨⟨w0, pk [], by decide⟩,
   ⟨w0, pkd 1 (64 :: List.replicate 64 0), by decide +kernel⟩,
   ⟨{ w0 with upd := { sess := some se } }, pkd 2 [1, 0, 0x43], se, _, ⟨by decide, by decide, by decide, by decide, by decide, by decide, rfl⟩⟩,
   ⟨{ w0 with upd := { sess := some se } }, pk [], se, by decide⟩,
   ⟨{ w0 with md := { mode := .standby, stage := .done, kumel := .running }, fe := { w0.fe with f1 := { w0.fe.f1 with good := true }, f2 := { w0.fe.f2 with good := true } }, upd := { b := { st := .verified }, ownLock := false } }, pk [0, 0], by decide⟩,
   ⟨{ w0 with fe := { w0.fe with f1 := { w0.fe.f1 with good := true }, f2 := { w0.fe.f2 with good := true } }, upd := { b := { st := .verified }, ownLock := false } }, pk [1, 0x4824], by decide⟩,
   ⟨w0, pk [1, 0], by decide⟩,
   ⟨{ w0 with upd := { sess := some se } }, pk [], by decide⟩,
   ⟨{ w0 with upd := { sess := some { se with phase := 3 }, staged := some (hd0, []) } }, pk [1], { se with phase := 3 }, (hd0, []), _, _, ⟨by decide, by decide, by decide, by decide, by decide, by decide, rfl, rfl⟩⟩,
   ⟨{ w0 with upd := { sess := some { se with phase := 2, ended := true, rcvd := 0, head := { hd0 with opwords := 0, target := Config.sha384 ([] : List Word) } } } }, _, _, ⟨rfl, rfl, by decide, rfl, rfl, rfl, rfl⟩⟩,
   ⟨{ w0 with upd := { sess := some { se with phase := 2 } } }, { se with phase := 2 }, by decide⟩,
   ⟨{ wk { st := .active } with upd := { a := { st := .invalid }, b := { st := .invalid } } }, 0, [], by decide⟩,
   ⟨{ wk { st := .active } with upd := { offered := [0], staged := some (hd0, []) } }, _, 0, (hd0, []), ⟨by decide, by decide, rfl, by decide⟩⟩,
   ⟨{ wk { st := .active, peer := some cb } with upd := { offered := [0], staged := some (hd0, []) } }, _, 0, 1, (hd0, []), ⟨by decide, by decide, rfl, by decide, by decide⟩⟩,
   ⟨{ wk { st := .active } with upd := { sess := some { se with src := 1 } } }, 0, { se with src := 1 }, by decide⟩,
   ⟨{ wk { st := .active } with upd := { sess := some { se with src := 1 } } }, 0, { se with src := 1 }, by decide⟩,
   ⟨wt, mg, by decide⟩,
   ⟨{ wk {} with clk := { w0.clk with now := 10 ^ 13 }, upd := { prop := some (1, 2, 0, 5) } }, 1, 2, 0, 5, by decide⟩,
   ⟨{ wk {} with clk := { w0.clk with now := 10 ^ 13 }, upd := { bootEnd := some 5, trial := true } }, 5, by decide⟩⟩
theorem witness_stepRunsTheFrontCommand : ∃ (s : State), s.pending = [] :=
  ⟨w0, by decide⟩
theorem witness_stepKeepsTheInvariant : ∃ (s t : State), ((s.order = 1 ∨ s.order = 2) ∧ s.stageOk = true) ∧ step s = .next t :=
  ⟨State.reset, tick State.reset, ⟨by decide, rfl⟩⟩
theorem witness_stepChangesTheModeByTheTable : ∃ (s t : State), step s = .next t :=
  ⟨State.reset, tick State.reset, rfl⟩
theorem witness_slotPowerOnLeavesOtherSlots : ∃ (s : State) (p : Packet), taken 0x0103 2 0 p s = true ∧ clean (mask 23 0) (p.w 2) = true ∧ p.w 3 = 1 :=
  ⟨w0, pk [1, 1], by decide⟩
theorem witness_clearLockoutReleasesTheSelected : ∃ (s : State) (p : Packet), taken 0x0104 1 0 p s = true ∧ clean (mask 23 0) (p.w 2) = true :=
  ⟨w0, pk [1], by decide⟩
theorem witness_badIcrcIsOnlyCounted :
    (∃ (p : RocePkt), p.icrcOk = false)
    ∧ (∃ (h : RoceHead), h.icrcOk = false)
    ∧ (∃ (h : RoceHead), h.icrcOk = false)
    ∧ (∃ (h : RoceHead), h.icrcOk = false) :=
  ⟨⟨⟨0, 65539, true, false, false, 0, 5, true, 100, .send .only 64, []⟩, by decide⟩,
   ⟨⟨0, 65539, false, false, 64, []⟩, by decide⟩,
   ⟨⟨0, 65539, false, false, 64, []⟩, by decide⟩,
   ⟨⟨0, 65539, false, false, 64, []⟩, by decide⟩⟩
theorem witness_gateListMustOpenS0 : ∃ (s : State) (p : Packet) (e : Nat × Nat), taken 0x0307 6 (bits 9 0 (p.w 2)) p s = true ∧ (gateEntries (p.data 6)).contains e = true ∧ e.1.testBit 0 = false :=
  ⟨w0, pkd 6 [2, 0, 0, 0, 0, 0, 0xFE, 20000], (254, 20000), by decide⟩
theorem witness_drowseWaitsForMovingData :
    (∃ (s : State) (p : Packet), taken 0x0006 0 0 p s = true ∧ dataMoving (s.arrived 0x0006 p) = true)
    ∧ (∃ (s : State) (ctx cid n : Nat) (c : Ctrl) (v : Nat), adminTakes .other ctx cid n c s = true ∧ v % 32 = 1 ∧ (tabGet {} s.nvm.hosts c.host : HostEnt).priv.testBit 3 = true ∧ dataMoving s = true) :=
  ⟨⟨{ w0 with pair := { resync := some 1 } }, pk [], by decide⟩,
   ⟨{ wa with pair := { resync := some 1 } }, 3, 5, 1, kx, 1, by decide⟩⟩

/-! ## Results worked out from the spec -/

/-- Spec 10, the example after R462: the PQ set of 12 members with a 256 KiB strip. -/
def setA : VSet := { vx with type := 3, width := 12, strip := 2, stripes := 114424533, members := [] }
theorem test_setA_parcels : setParcels setA = 279356 ∧ zStripes { setA with tagzone := true } = 7151534 ∧ setParcels { setA with tagzone := true } = 261896 := by decide
theorem test_setA_place : place setA (1000 * GiB + 278528) = (409600, 1, 4) := by decide
theorem test_setA_members : pMember setA 409600 = 7 ∧ qMember setA 409600 = 8 ∧ dataMember setA 409600 1 = 10 ∧ stripLba setA 409600 4 = 27262980 := by decide
/-- Spec 14, the example after R685: the PQ set of 8 members with a 128 KiB strip and a tag zone. -/
def setB : VSet := { vx with type := 3, width := 8, strip := 1, tagzone := true, stripes := 117154732, members := [] }
theorem test_setB_data : zStripes setB = 7322171 ∧ dataStripes setB = 109832561 ∧ place setB 5368709144576 = (6826666, 4, 6) ∧ dataMember setB 6826666 4 = 3 := by decide
theorem test_setB_tag : tzByte 5368709144576 = 335544321536 ∧ (dataStripes setB + 335544321536 / 786432) = 110259227 ∧ dataMember setB 110259227 4 = 2 := by decide
theorem test_nonce : nonceOf { w0 with stk := { record := some { sr with pos := 1 } } } 17 3 0x0347A15C = 0x24400003000000000347A15C := by decide
/-- Spec 06, Table 6.3: the marker of subscriber 37. -/
def subA (c p : Int) : Sub := { pol := { enable := true, cir := 2000, pir := 3000, cbs := 1024, pbs := 2048 }, c := c, p := p }
theorem test_mark_green : (mark (subA 1048576 2097152) 0 266240).1 = 0 ∧ (mark (subA 249856 1298432) 0 266240).2.c = -16384 := by decide
theorem test_mark_yellow : (mark (subA (-16384) 233472) 0 266240).1 = 1 ∧ (mark (subA (-16384) 233472) 0 266240).2.p = -32768 := by decide
theorem test_mark_red : mark (subA (-16384) (-32768)) 0 266240 = (2, subA (-16384) (-32768)) := by decide
theorem test_mark_again : mark (subA 5616 232) 0 266240 = (0, subA (-260624) (-266008)) ∧ mark (subA (-82624) 992) 0 266240 = (1, subA (-82624) (-265248)) := by decide
/-- Spec 03, the example after R108: a budget of 300 W with ten drives of 28 W. -/
def budgetA (b : Nat) : State := { w0 with fe := { w0.fe with coreOn := true, charged := true, f1 := { closed := true } }, pins := { w0.pins with seated := true }, pwr := { budget := b, slots := (17, { state := .queued, act := { allot := 30 }, set := { allot := 30 } }) :: (List.range 10).map fun k => (k, { state := .on, act := { allot := 28 }, set := { allot := 28 } }), queue := [17, 18] } }
theorem test_budget_waits : admits (budgetA 300) 17 = false ∧ admits (budgetA 320) 17 = true := by decide
/-- R561: the field's generator is doubled modulo 0x11D. -/
theorem test_gf : gfDouble 1 0x80 = 0x1D ∧ gfPow 8 = 0x1D := by decide
/-- The step on an empty queue passes one nanosecond; the table gives no row bits, so no word spells a command. -/
theorem test_step_idle : step State.reset = .next (tick State.reset) := rfl
theorem test_no_word : decodeTableWord 32 0 = none ∧ (State.reset.withFetchWord 32 0) = State.reset := ⟨rfl, rfl⟩
/-- R13: NOP at a door is answered OK. -/
theorem test_nop : (match step { w0 with pending := [.nop (pk [])] } with | .next t => t.lb.replies.map (fun r => (r.door, r.tag, r.status)) | _ => []) = [(0, 7, 0)] := by decide
/-- R855: another door's command of the lock class is refused NOT_OWNER with the holder. -/
theorem test_not_owner : (match step { w0 with pending := [.pwrSetBudget { pk [600] with door := 1 }] } with | .next t => (t.pwr.budget, t.lb.replies.map (fun r => r.status)) | _ => (0, [])) = (720, [stNotOwner]) := by decide
/-- R121: the budget is taken. -/
theorem test_budget : (match step { w0 with pending := [.pwrSetBudget (pk [600])] } with | .next t => t.pwr.budget | _ => 0) = 600 := by decide
/-- R131: a command of class Q before Boot step 6 is answered BUSY with RETRY 1000. -/
theorem test_boot_busy : (match step { State.reset with pending := [.pwrGetFeeds (pk [])] } with | .next t => t.lb.replies.map (fun r => (r.status, r.words)) | _ => []) = [(stBusy, [1000])] := by decide

end Sys2Proof.Tests
end

/-! SUPPORT. Chapter 2's seating, feeds, charge, hold-up and reserve, the junction temperature and the monitored clocks, and the cages and
front links of chapters 2 and 5: what the operations shared by these events do, then the obligations. Each obligation's proof has one case
for each clause of its statement, in order. -/
namespace Sys2Proof.Machine

/-! ## The reserve's report -/

/-- Bringing the report up to date changes the reserve's `low`, and at most raises an event. -/
theorem settleReserve_quiet (s : State) :
    (settleReserve s).quiet = (s.onRes fun r => { r with low := !r.waiting && (r.testLow || r.chargeLow) }).quiet :=
  doIf_quiet _ _ (raise_quiet 71 0) _

@[simp] theorem settleReserve_pins (s : State) : (settleReserve s).pins = s.pins :=
  show (settleReserve s).quiet.pins = s.pins by rw [settleReserve_quiet]; rfl
@[simp] theorem settleReserve_bay (s : State) : (settleReserve s).bay = s.bay :=
  show (settleReserve s).quiet.bay = s.bay by rw [settleReserve_quiet]; rfl
@[simp] theorem settleReserve_fe (s : State) : (settleReserve s).fe = s.fe :=
  show (settleReserve s).quiet.fe = s.fe by rw [settleReserve_quiet]; rfl
@[simp] theorem settleReserve_charger (s : State) : (settleReserve s).res.charger = s.res.charger :=
  show (settleReserve s).quiet.res.charger = s.res.charger by rw [settleReserve_quiet]; rfl

/-- Usable energy that rises to 110 J ends the reserve's wait and raises PWR.RESERVE_READY (R57). -/
theorem setCharge_rises {j : Nat} {s : State} (hj : 110 ≤ j) (hr : s.res.ready = false) :
    setCharge j s = settleReserve (raise 70 0
      ((s.onRes fun r => { r with usable := j, ready := true, waiting := false, chargeLow := false }).onMd fun m => { m with resWaitOver := true })) := by
  simp [setCharge, doIf, hj, hr, Nat.not_lt.2 hj]

/-- Where the reserve was ready already, nothing is raised for it. -/
theorem setCharge_stays {j : Nat} {s : State} (hj : 110 ≤ j) (hr : s.res.ready = true) :
    setCharge j s = settleReserve (s.onRes fun r => { r with usable := j, ready := true, waiting := false, chargeLow := false }) := by
  simp [setCharge, doIf, hj, hr, Nat.not_lt.2 hj]

/-- Usable energy below 110 J leaves a wait running and makes the charge low (R57). -/
theorem setCharge_falls {j : Nat} {s : State} (hj : j < 110) :
    setCharge j s = settleReserve (s.onRes fun r => { r with usable := j, ready := false, chargeLow := true }) := by
  simp [setCharge, doIf, hj, Nat.not_le.2 hj]

/-! ## Seating -/

theorem beginBoot_pins (s : State) : (beginBoot s).pins = s.pins := by
  cases h : s.bay.sampled <;> simp [beginBoot, h]
theorem beginBoot_bay (s : State) : (beginBoot s).bay = if s.bay.sampled then s.bay else sampleBay s.pins := by
  cases h : s.bay.sampled <;> simp [beginBoot, h]
theorem beginBoot_coreOn (s : State) : (beginBoot s).fe.coreOn = true := by simp [beginBoot]
theorem beginBoot_charger (s : State) : (beginBoot s).res.charger = true := by simp [beginBoot]

/-- The module seated: its pins are what they are found to be, and the lever counts as closed. -/
def seatedWith (bayOpen chkOpen : Bool) (strap : Nat) (s : State) : State :=
  { s with pins := { s.pins with seated := true, bayId := bayOpen, bayIdChk := chkOpen, strap := strap % 4 }, fe := { s.fe with leverOpen := false } }

section
variable {b c : Bool} {k : Nat} {s : State} (hs : s.pins.seated = false)
include hs

/-- In hold-up and after a thermal shutdown, seating only records the pins (R53, R65). -/
theorem execSeat_waits (hl : s.fe.latch ≠ .tripped) (hw : s.fe.holdup = true ∨ s.th.shutdown = true) :
    execSeat b c k s = .next (seatedWith b c k s) := by
  have hw' : (s.fe.holdup || s.th.shutdown) = true := by simpa using hw
  simp only [execSeat, hs, hl, hw']
  rfl

variable (hl : s.fe.latch = .none) (hc : s.fe.charged = true) (hh : s.fe.holdup = false) (ht : s.th.shutdown = false)
include hl hc hh ht

/-- Seating a charged module that runs restarts it after a lever cycle, and otherwise begins Boot (R38, R130). -/
theorem execSeat_charged :
    execSeat b c k s = .next (if s.fe.leverOpen && s.bay.sampled then moduleRestart .reseat (seatedWith b c k s) else beginBoot (seatedWith b c k s)) := by
  simp only [execSeat, hs, hl, hh, ht, State.onFe_fe, hc]
  rfl

end

/-! ## Feeds -/

/-- A feed's own change leaves what the front end does as a whole. -/
@[simp] theorem onFeed_latch (k : Nat) (f : Feed → Feed) (s : State) : (onFeed k f s).fe.latch = s.fe.latch := by
  rw [onFeed, State.onFe_fe]
  split
  · rfl
  · split <;> rfl
@[simp] theorem onFeed_holdup (k : Nat) (f : Feed → Feed) (s : State) : (onFeed k f s).fe.holdup = s.fe.holdup := by
  rw [onFeed, State.onFe_fe]
  split
  · rfl
  · split <;> rfl
@[simp] theorem onFeed_charged (k : Nat) (f : Feed → Feed) (s : State) : (onFeed k f s).fe.charged = s.fe.charged := by
  rw [onFeed, State.onFe_fe]
  split
  · rfl
  · split <;> rfl

/-! ## The obligations -/

/-- Settles O2: seating through what it does to a module that runs and to one that waits, and each feed event by its guard. -/
theorem seatingAndFeedsComplete : Obligations.SeatingAndFeedsComplete := by
  refine ⟨?_, ?_, ?_, ?_, ?_, ?_, ?_, ?_, ?_, ?_, ?_⟩
  · intro s b c k hs hl hc ho hh ht
    show execSeat b c k s = _
    rw [execSeat_charged hs hl hc hh ht, ho]
    rfl
  · intro s b c k hs hl hc ho hh ht
    refine ⟨beginBoot (seatedWith b c k s), ?_, beginBoot_pins _, ?_, (beginBoot_kept _).2.2, beginBoot_coreOn _, beginBoot_charger _⟩
    · show execSeat b c k s = _
      rw [execSeat_charged hs hl hc hh ht, ho]
      rfl
    · rw [beginBoot_bay, beginBoot_pins]
      rfl
  · intro s b c k hs hl hc ho hb hh ht
    show execSeat b c k s = _
    rw [execSeat_charged hs hl hc hh ht, ho, hb]
    rfl
  · intro s b c k hs hl hw
    exact execSeat_waits hs hl hw
  · intro s hs
    show execUnseat s = _
    simp [execUnseat, hs]
  · intro s k mv hg hm hk hl hh hc
    show execFeedGood k mv s = _
    simp [execFeedGood, hg, Nat.not_lt.2 hm, hk, hl, hh, hc]
  · intro s k mv hk hm
    show execFeedUvWarn k mv s = _
    simp [execFeedUvWarn, hk, hm]
  · intro s k mv hk hg hm
    show execFeedLost k mv s = _
    simp [execFeedLost, hk, hg, Nat.not_le.2 hm]
  · intro s k mv hk ho hm
    show execFeedOv k mv s = _
    simp [execFeedOv, hk, ho, Nat.not_le.2 hm]
  · intro s k mv hk ho hm
    show execFeedOvReclose k mv s = _
    simp [execFeedOvReclose, hk, ho, Nat.not_le.2 hm]
  · intro s hc hl
    show execFrontEndTrip s = _
    simp [execFrontEndTrip, hc, hl]

/-- Settles O3: the front end's rows by their guards, the reserve's through what a new charge does (`setCharge_rises`,
`setCharge_stays`, `setCharge_falls`). -/
theorem chargeHoldupReserveComplete : Obligations.ChargeHoldupReserveComplete := by
  refine ⟨?_, ?_, ?_, ?_, ?_, ?_, ?_, ?_, ?_, ?_, ?_, ?_, ?_, ?_⟩
  · intro s hc
    show execBulkChargeEnd s = _
    simp [execBulkChargeEnd, hc]
  · intro s hc
    show execChargeFail s = _
    simp [execChargeFail, hc]
  · intro s hl hd
    show execChargeRetry s = _
    simp [execChargeRetry, hl, hd]
  · intro s hl
    show execFeedsOffReset s = _
    simp [execFeedsOffReset, hl]
  · intro s hh hg hl
    show execHoldupDone s = _
    simp [execHoldupDone, hh, hg, hl]
  · intro s hh hg
    show execHoldupDone s = _
    simp [execHoldupDone, hh, hg]
  · intro s j hj hr
    show execReserveReady j s = _
    rw [execReserveReady, if_neg (Nat.not_lt.2 hj), setCharge_rises hj hr]
  · intro s j hj hr
    show execReserveReady j s = _
    rw [execReserveReady, if_neg (Nat.not_lt.2 hj), setCharge_stays hj hr]
  · intro s hw hm hd
    show execReserveWaitTimeout s = _
    simp [execReserveWaitTimeout, due, hw, hm, hd]
  · intro s j ht hj
    show execReserveCapacityTest j s = _
    simp [execReserveCapacityTest, ht, hj]
  · intro s j ht
    show execReserveCapacityTest j s = _
    simp [execReserveCapacityTest, ht]
  · intro s j hj
    show execReserveCapacityTest j s = _
    simp [execReserveCapacityTest, Nat.not_le.2 hj]
  · intro s j ht
    show execReserveTestDone j s = _
    simp [execReserveTestDone, ht]
  · intro s j hj
    show execReserveChargeLow j s = _
    rw [execReserveChargeLow, if_neg (Nat.not_le.2 hj), setCharge_falls hj]

/-- Settles O4: each temperature row by its thresholds, and a lost clock by its kind. -/
theorem heatClocksComplete : Obligations.HeatClocksComplete := by
  refine ⟨?_, ?_, ?_, ?_, ?_⟩
  · intro s tj ha ht
    show execThermalWarn tj s = _
    simp [execThermalWarn, ha, ht]
  · intro s tj
    rfl
  · intro s tj ht hs hc
    show execThermalShutdown tj s = _
    simp [execThermalShutdown, Int.not_le.2 ht, hs, hc]
  · intro s tj hs ht
    show execThermalRestart tj s = _
    simp [execThermalRestart, hs, ht]
  · intro s c
    cases c with
    | lane => rfl
    | txGroup => rfl
    | dram => rfl
    | core => rfl
    | entropy => rfl

/-- Settles O18: each cage and link event by its guard; the loss of a link is `lportDown`, and the self-tests of the lanes of a port with
more than 100 uncorrectable codewords start by R814 (logs 181 and 204). -/
theorem cagesAndLinksComplete : Obligations.CagesAndLinksComplete := by
  refine ⟨?_, ?_, ?_, ?_, ?_, ?_, ?_, ?_, ?_, ?_⟩
  · intro s c hc hp
    show execPluggableInserted c s = _
    simp [execPluggableInserted, hc, hp]
  · intro s c w hc hp hw
    show execPluggableCmisRead c w s = _
    simp [execPluggableCmisRead, hc, hp, hw]
  · intro s c w hc hp hw
    show execPluggableCmisRead c w s = _
    simp only [execPluggableCmisRead, hc, hp, Nat.not_lt.2 hw]
    rfl
  · intro s c hc hp hl
    show execPluggableReady c s = _
    simp [execPluggableReady, hc, hp, hl]
  · intro s c t0 hc hd ht hr
    show execPluggableFault c s = _
    simp [execPluggableFault, hd, due, ht, hr, hc]
  · intro s c hc hp
    have hc6 : c < 6 := by omega
    show execPluggableRemoved c s = _
    simp [execPluggableRemoved, cagePort, hc, hc6, hp]
  · intro s l hl hr hu he
    show execLinkUp l s = _
    simp [execLinkUp, hl, hr, hu, he]
  · intro s l hl hu
    show execLinkDown l s = _
    simp [execLinkDown, lportDown, hl, hu]
  · intro s l y c u hl hu hn
    show execFecDegraded l y c u s = _
    simp [execFecDegraded, hl, hu, doIf, Nat.not_lt.2 hn]
  · intro s l y c u hl hu hn
    show execFecDegraded l y c u s = _
    simp [execFecDegraded, hl, hu, doIf, hn]

end Sys2Proof.Machine

/-! SUPPORT. Chapter 3's slot power: admission, protection and sharing by the guards of their rows, the PWR commands by what their
desks answer, and the values at reset. Each obligation's proof has one case for each clause of its statement, in order. -/
namespace Sys2Proof.Machine

/-! ## A desk that answers -/

/-- A packet that is taken, at a desk that answers OK: the whole next state (R839). -/
theorem letter_answered {op n : Nat} {p : Packet} {s u : State} {ws : List Word} {desk : State → Desk}
    (ht : taken op n 0 p s = true) (hd : desk (s.arrived op p) = (stOk, ws, u)) :
    letter op n p s desk = .next (answered op p ws u) := by
  rw [letter_taken ht, atDesk_ok_eq hd]

/-- Where the parameters are in range, the desk goes on. -/
theorem guardParam_pass {b : Bool} (h : b = true) (s : State) (k : State → Desk) : guardParam b s k = k s := if_pos h

/-- What the reply and the shadow record of a command leave of a slot. -/
@[simp] theorem answered_slot (op k : Nat) (p : Packet) (ws : List Word) (u : State) : (answered op p ws u).slot k = u.slot k :=
  calm_slot (answered_calm op p ws u) k

/-- A packet's arrival leaves every slot. -/
@[simp] theorem arrived_slot (op k : Nat) (p : Packet) (s : State) : (s.arrived op p).slot k = s.slot k := by
  simp only [State.slot, arrived_pwr]

/-- A bit of a field that starts at bit 0 is the word's own. -/
theorem testBit_bits_zero (hi k : Nat) (w : Word) : (bits hi 0 w).testBit k = (decide (k < hi + 1) && bit k w) := by
  simp [bits, bit, Nat.testBit_mod_two_pow, BitVec.testBit_toNat]

/-- The slots that a SLOTS word selects (Tables 3.8 and 3.10). -/
theorem mem_slots {k : Nat} {w : Word} : k ∈ setBits 24 (bits 23 0 w) ↔ k < 24 ∧ bit k w = true := by
  simp [mem_setBits, testBit_bits_zero]

/-! ## PWR.SET_SLOT_POWER and PWR.CLEAR_LOCKOUT -/

@[simp] theorem turnOn_links (k : Nat) (s : State) : (turnOn k s).links = s.links := by
  unfold turnOn
  split <;> rfl

@[simp] theorem turnOns_links (xs : List Nat) (s : State) : (forAll xs turnOn s).links = s.links := by
  unfold forAll
  induction xs generalizing s with
  | nil => rfl
  | cons x xs ih => rw [List.foldl_cons, ih, turnOn_links]

section
variable {s : State} {p : Packet} (hc : clean (mask 23 0) (p.w 2) = true)
include hc

/-- PWR.SET_SLOT_POWER with ON = 0 turns the selected slots off and forwards them (R91, R92). -/
theorem execPwrSetSlotPower_off (ht : taken 0x0103 2 0 p s = true) (ho : p.w 3 = 0) :
    execPwrSetSlotPower p s = .next (answered 0x0103 p
      [flag 0 (!(forAll (setBits 24 (bits 23 0 (p.w 2))) turnOff (s.arrived 0x0103 p)).links.partnerUp)]
      (shareSend 0 (bits 23 0 (p.w 2)) 0 0 (forAll (setBits 24 (bits 23 0 (p.w 2))) turnOff (s.arrived 0x0103 p)))) := by
  have hb : bit 0 (p.w 3) = false := by rw [ho]; rfl
  refine letter_answered ht ?_
  rw [deskPwrSetSlotPower, guardParam_pass (by simp [hc, ho]), hb]
  rfl

/-- PWR.SET_SLOT_POWER with ON = 1 releases the selected slots and forwards them (R92, R119). -/
theorem execPwrSetSlotPower_on (ht : taken 0x0103 2 0 p s = true) (ho : p.w 3 = 1) :
    execPwrSetSlotPower p s = .next (answered 0x0103 p
      [flag 0 (!(forAll (setBits 24 (bits 23 0 (p.w 2))) turnOn (s.arrived 0x0103 p)).links.partnerUp)]
      (shareSend 0 0 (bits 23 0 (p.w 2)) 0 (forAll (setBits 24 (bits 23 0 (p.w 2))) turnOn (s.arrived 0x0103 p)))) := by
  have hb : bit 0 (p.w 3) = true := by rw [ho]; rfl
  refine letter_answered ht ?_
  rw [deskPwrSetSlotPower, guardParam_pass (by simp [hc, ho]), hb]
  rfl

/-- PWR.CLEAR_LOCKOUT clears the selected lockouts and forwards them (R120, R939; log 22). -/
theorem execPwrClearLockout_clears (ht : taken 0x0104 1 0 p s = true) :
    execPwrClearLockout p s = .next (answered 0x0104 p []
      (shareSend 0 0 0 (bits 23 0 (p.w 2)) (forAll (setBits 24 (bits 23 0 (p.w 2))) clearLockout (s.arrived 0x0104 p)))) := by
  refine letter_answered ht ?_
  rw [deskPwrClearLockout, guardParam_pass hc]
  rfl

end

/-- Settles O56: the command releases slots by `turnOn` alone, which acts on a DISABLED slot only (`slot_turnOns`); arrival, share
record and reply leave every slot. -/
theorem slotPowerOnLeavesOtherSlots : Obligations.SlotPowerOnLeavesOtherSlots := by
  intro s p ht hc ho
  have hdoor : p.door < 3 := (taken_parts ht).1
  refine ⟨_, execPwrSetSlotPower_on hc ht ho, ?_, fun k hk => ?_⟩
  · rw [turnOns_links, arrived_links]
    exact answered_replied hdoor
  · rw [answered_slot, slot_shareSend, slot_turnOns _ _ _ (by rwa [arrived_slot]), arrived_slot]

/-- Settles O57: what `slot_clears` says of each slot, for the slots that the mask selects. -/
theorem clearLockoutReleasesTheSelected : Obligations.ClearLockoutReleasesTheSelected := by
  intro s p ht hc
  refine ⟨_, execPwrClearLockout_clears hc ht, answered_replied (taken_parts ht).1, fun k => ?_⟩
  obtain ⟨released, kept⟩ := slot_clears (setBits 24 (bits 23 0 (p.w 2))) k (s.arrived 0x0104 p)
  simp only [arrived_slot, mem_slots, and_assoc] at released kept
  rw [answered_slot, slot_shareSend]
  split
  · next h => exact released h
  · next h => exact kept h

/-! ## Probing -/

/-- A change of one slot leaves the clocks. -/
@[simp] theorem onSlot_clk (k : Nat) (f : Slot → Slot) (s : State) : (onSlot k f s).clk = s.clk := rfl

/-- A contact below 0.5 V that never reaches 2.0 V has a drive on it (Table 3.1). -/
theorem classify_present {pre : Nat} (h : pre < 500) : classify pre none = .present := by
  have h' : ¬ 10800 < pre := by omega
  simp [classify, h', Nat.not_le.2 h]

/-- An EMPTY slot after a present outcome (R72, R76). -/
theorem slot_probePresent_empty {k : Nat} {s : State} (hs : (s.slot k).state = .empty) :
    (probePresent k s).slot k =
      { s.slot k with empties := 0, pullArmed := true, pulled := false, fedBy := false,
                      presentAt := some ((s.slot k).presentAt.getD s.clk.aon), state := .debounce } := by
  simp [probePresent, hs]

/-- The scheduled probe of an EMPTY slot with a drive on it: the present outcome and nothing more, since DEBOUNCE leaves no LOCKOUT
(R66, R72, Table 3.1). -/
theorem execSlotProbe_present {k pre : Nat} {s : State} (hk : k < 24) (hp : pre < 500) (hprobing : probing s = true)
    (hs : (s.slot k).state = .empty) (ho : (s.slot k).offDue = none) (htime : probeTime s k = true) :
    execSlotProbe k pre none s = .next (tellOn (onMask s) (probePresent k
      (onSlot k (fun x => { x with probe := .present }) (onSlot k (fun x => { x with vout := pre, probedAt := some s.clk.aon }) s)))) := by
  simp [execSlotProbe, hprobing, Nat.not_le.2 hk, hs, ho, htime, SlotState.probed, classify_present hp, slot_probePresent_empty, doIf]

/-- Settles O14: the probe through `execSlotProbe_present`, every other row by its guard. -/
theorem slotProbeAndAdmissionComplete : Obligations.SlotProbeAndAdmissionComplete := by
  refine ⟨?_, ?_, ?_, ?_, ?_, ?_, ?_, ?_, ?_, ?_⟩
  · intro s k pre hk hp hprobing hs ho hpresent htime
    refine ⟨_, execSlotProbe_present hk hp hprobing hs ho htime, ?_⟩
    simp [slot_probePresent_empty, hs, hpresent]
  · intro s k t0 hk hs ht0 hd
    show execSlotInserted k s = _
    simp [execSlotInserted, hs, ht0, due, hd, hk]
  · intro s k i hk hi hs hr ho hl hl1
    show execSlotSuspectPull k i s = _
    simp [execSlotSuspectPull, hk, hi, hs, hr, ho, hl, hl1]
  · intro s k pre ha hs hp hr
    show execSlotAdmit k pre s = _
    have hturn : (partnerRamps s && decide ((s.slot k).state = .queued)) = false := by
      rcases hr with hr | hr <;> simp [hr]
    have hj : ¬ 10800 < pre := by omega
    simp [execSlotAdmit, ha, hturn, hs, hj, hp]
  · intro s k pre ha hp
    show execSlotAdmit k pre s = _
    simp [execSlotAdmit, ha, hp, Nat.not_le.2 hp]
  · intro s k pre hs hw hd hp hf hr
    show execRampResample k pre s = _
    have hj : ¬ 10800 < pre := by omega
    have hr' : partnerRamps (onSlot k (fun x => { x with vout := pre }) s) = false := hr
    simp [execRampResample, hs, hw, due, hd, hp, hf, hr', hj]
  · intro s k pre hs hw hd hlo hhi hf
    show execRampResample k pre s = _
    simp [execRampResample, hs, hw, due, hd, hf, Nat.not_lt.2 hlo, Nat.not_lt.2 hhi]
  · intro s k hs hst ho
    show execSlotPowerGood k s = _
    simp [execSlotPowerGood, hs, hst, ho]
  · intro s k hs hr hd ho hp
    show execSlotResetRelease k s = _
    simp [execSlotResetRelease, hs, hr, due, hd, ho, hp]
  · intro s k hs hst hset hf ho
    show execSlotJoinSettled k s = _
    simp [execSlotJoinSettled, hs, hst, hset, hf, ho]

/-! ## Protection -/

/-- A stage of a slot whose allotment is committed trips on a cause that is met (R93, R94). -/
theorem execSlotTrip_met {k cause m : Nat} {s : State} (hst : (s.slot k).stage = true) (hc : (s.slot k).state.commits = true)
    (hm : tripMet (s.slot k) cause m = true) : execSlotTrip k cause m s = .next (ownTrip k cause s) := by
  simp [execSlotTrip, hst, hc, hm]

/-- Settles O15: the trips by the cause that is met, the timers and the shedding by their guards. -/
theorem slotProtectionComplete : Obligations.SlotProtectionComplete := by
  refine ⟨?_, ?_, ?_, ?_, ?_, ?_, ?_, ?_, ?_, ?_, ?_⟩
  · intro s k hs hst hd ho
    show execInrushTimeout k s = _
    simp [execInrushTimeout, hs, hst, due, hd, ho]
  · intro s k m hst hc hm
    exact execSlotTrip_met hst hc (decide_eq_true hm)
  · intro s k m hst hc hm
    exact execSlotTrip_met hst hc (decide_eq_true hm)
  · intro s k m hst hs hm
    refine execSlotTrip_met hst ?_ (by simp [tripMet, hs, hm])
    rcases hs with hs | hs <;> rw [hs] <;> rfl
  · intro s k c ho
    simp [ownTrip, ho]
  · intro s k hs hd
    show execSlotRetryExpiry k s = _
    simp [execSlotRetryExpiry, hs, due, hd]
  · intro s k t0 ho hd
    show execSlotStageOffDelay k s = _
    simp [execSlotStageOffDelay, ho, due, hd]
  · intro s k
    rfl
  · intro s k t0 ho hd
    show execSlotStageOffDelay k s = _
    simp [execSlotStageOffDelay, ho, due, hd]
  · intro s i k hd hl
    show execSlotShed i s = _
    simp only [execSlotShed, hd, hl]
    rfl
  · intro s i k hd hshared hl
    show execSlotShed i s = _
    simp only [execSlotShed, hd, hshared, hl]
    rfl

/-! ## Sharing -/

/-- With feed 1 the only good one, and below 11.4 V, the budget is what 95 A of it carry less 360 W (R110). -/
theorem settleBudget_feed1 {s : State} (h1 : s.fe.f1.good = true) (h2 : s.fe.f2.good = false) (hv : s.fe.f1.mv < 11400) :
    settleBudget s = s.onPwr fun p => { p with single := some (95 * s.fe.f1.mv / 1000 - 360),
                                               over95 := if 9500 < s.fe.f1.cur then some (p.over95.getD s.clk.aon) else none } := by
  simp [settleBudget, singleFeed, h1, h2, hv]

/-- Settles O16: each sharing row by its guard, the budget tick through `settleBudget_feed1` (logs 22 and 226 stand inside
`alignProbes` and `shareSlot`). -/
theorem sharingComplete : Obligations.SharingComplete := by
  refine ⟨?_, ?_, ?_, ?_, ?_, ?_, ?_, ?_⟩
  · intro s is vs
    rfl
  · intro s k i v hst hs
    simp [measure, hst, hs, doIf]
  · intro s r hp
    show execShareTelemetryReceive r s = _
    simp [execShareTelemetryReceive, hp]
  · intro s
    rfl
  · intro s hm hd
    show execShareDroop s = _
    simp [execShareDroop, hm, enterDroop, hd]
  · intro s hd hg
    show execShareRestored s = _
    simp [execShareRestored, hd, hg]
  · intro s a b i j h1 h2 ha
    show execSingleFeedBudgetTick a b i j s = _
    rw [execSingleFeedBudgetTick, settleBudget_feed1 (by exact h1) (by exact h2) (by exact ha)]
    rfl
  · intro s hs hc
    show execIndicatorFrame s = _
    simp [execIndicatorFrame, indDriven, hs, hc]

/-! ## The PWR commands -/

/-- Settles O17: each command's desk answers once its parameters pass (`letter_answered`, `guardParam_pass`). -/
theorem powerCommandsComplete : Obligations.PowerCommandsComplete := by
  refine ⟨?_, ?_, ?_, ?_, ?_, ?_, ?_, ?_, ?_⟩
  · intro s p ht hc2 hc3 hc4 hslots hilim hiinr htinr hifast hretry hallot
    refine letter_answered ht ?_
    rw [deskPwrSetSlotLimits, guardParam_pass (by simp [hc2, hc3, hc4, hslots, hilim, hiinr, htinr, hifast, hretry, hallot])]
    rfl
  · intro s p ht hc hk
    refine letter_answered ht ?_
    rw [deskPwrGetSlotStatus, guardParam_pass (by simp [hc, hk])]
    rfl
  · intro s p ht hc ho
    exact execPwrSetSlotPower_off hc ht ho
  · intro s p ht hc ho
    exact execPwrSetSlotPower_on hc ht ho
  · intro s p ht hc
    exact execPwrClearLockout_clears hc ht
  · intro s p ht hc hb
    refine letter_answered ht ?_
    rw [deskPwrSetBudget, guardParam_pass (by simp [hc, hb])]
    rfl
  · intro s p ht
    exact letter_answered ht rfl
  · intro s p ht hc hk
    refine letter_answered ht ?_
    rw [deskPwrSetIndicator, guardParam_pass (by simp [hc, hk])]
    rfl
  · intro s p ht
    exact letter_answered ht rfl

/-! ## Reset -/

/-- Settles O51: at reset every table is empty, so each entry reads as its default. -/
theorem resetState : Obligations.ResetState := by
  refine ⟨?_, ?_, ?_, ?_, ?_⟩
  · intro k
    exact ⟨rfl, rfl, rfl⟩
  · intro k
    rcases k with _ | _ | k <;> exact ⟨rfl, rfl, rfl, rfl, rfl, rfl⟩
  · intro n
    exact ⟨rfl, rfl⟩
  · intro k
    exact ⟨rfl, rfl, rfl, rfl⟩
  · exact ⟨rfl, rfl, rfl, rfl, rfl, rfl, rfl, rfl, rfl, rfl, rfl, rfl, rfl⟩

end Sys2Proof.Machine

/-! SUPPORT. Chapter 4's modes, Boot, Drowse and the watchdog: what every step leaves of the queue, the ordering code, the mode and the
Boot stage, what a refused Drowse entry leaves, and the rows of Boot, Drowse and the watchdog by their guards. Each obligation's proof has
one case for each clause of its statement, in order. -/
namespace Sys2Proof.Machine

/-! ## Every step -/

/-- A meaning that keeps the queue, the ordering code, the mode and the Boot stage makes no move but the trivial one. -/
theorem moves_of_kept {o : Out} {s : State} (h : ∀ t, o = .next t → t.kept = s.kept) : ∀ t, o = .next t → Moves s t :=
  fun t ht => moves_kept (h t ht)

/-- No command moves the module but as `Moves` says: each either keeps queue, ordering code, mode and Boot stage, or has the lemma of its
own transition (Table 4.5). -/
theorem exec_moves (i : Instr) (s : State) : ∀ t, exec i s = .next t → Moves s t :=
  match i with
  | .nop p => moves_of_kept (execNop_kept p s)
  | .modGetIdentity p => moves_of_kept (execModGetIdentity_kept p s)
  | .modGetStatus p => moves_of_kept (execModGetStatus_kept p s)
  | .modRestart p => execModRestart_moves p s
  | .modEnterMaintenance p => execModEnterMaintenance_moves p s
  | .modSetBootOptions p => moves_of_kept (execModSetBootOptions_kept p s)
  | .modEnterDrowse p => moves_of_kept (execModEnterDrowse_kept p s)
  | .modWake p => moves_of_kept (execModWake_kept p s)
  | .modAcquireLock p => moves_of_kept (execModAcquireLock_kept p s)
  | .modReleaseLock p => moves_of_kept (execModReleaseLock_kept p s)
  | .modGetDoor p => moves_of_kept (execModGetDoor_kept p s)
  | .modReadEvents p => moves_of_kept (execModReadEvents_kept p s)
  | .modSetEventMask p => moves_of_kept (execModSetEventMask_kept p s)
  | .modSetDoorKey p => moves_of_kept (execModSetDoorKey_kept p s)
  | .modSetMgmtAddr p => moves_of_kept (execModSetMgmtAddr_kept p s)
  | .pwrSetSlotLimits p => moves_of_kept (execPwrSetSlotLimits_kept p s)
  | .pwrGetSlotStatus p => moves_of_kept (execPwrGetSlotStatus_kept p s)
  | .pwrSetSlotPower p => moves_of_kept (execPwrSetSlotPower_kept p s)
  | .pwrClearLockout p => moves_of_kept (execPwrClearLockout_kept p s)
  | .pwrSetBudget p => moves_of_kept (execPwrSetBudget_kept p s)
  | .pwrGetBudget p => moves_of_kept (execPwrGetBudget_kept p s)
  | .pwrSetIndicator p => moves_of_kept (execPwrSetIndicator_kept p s)
  | .pwrGetFeeds p => moves_of_kept (execPwrGetFeeds_kept p s)
  | .netSetPortMode p => moves_of_kept (execNetSetPortMode_kept p s)
  | .netGetPortStatus p => moves_of_kept (execNetGetPortStatus_kept p s)
  | .netSetPortAddr p => moves_of_kept (execNetSetPortAddr_kept p s)
  | .netSetClassMap p => moves_of_kept (execNetSetClassMap_kept p s)
  | .netSetQueue p => moves_of_kept (execNetSetQueue_kept p s)
  | .netGetQueue p => moves_of_kept (execNetGetQueue_kept p s)
  | .netFlushQueue p => moves_of_kept (execNetFlushQueue_kept p s)
  | .netSetBuffer p => moves_of_kept (execNetSetBuffer_kept p s)
  | .netSetFlow p => moves_of_kept (execNetSetFlow_kept p s)
  | .netDeleteFlow p => moves_of_kept (execNetDeleteFlow_kept p s)
  | .netGetEpoch p => moves_of_kept (execNetGetEpoch_kept p s)
  | .netSetMirror p => moves_of_kept (execNetSetMirror_kept p s)
  | .netSetDeadLetter p => moves_of_kept (execNetSetDeadLetter_kept p s)
  | .netReadDeadLetter p => moves_of_kept (execNetReadDeadLetter_kept p s)
  | .netSetPtp p => moves_of_kept (execNetSetPtp_kept p s)
  | .netGetPtp p => moves_of_kept (execNetGetPtp_kept p s)
  | .qosSetPolicer p => moves_of_kept (execQosSetPolicer_kept p s)
  | .qosSetSubscriber p => moves_of_kept (execQosSetSubscriber_kept p s)
  | .qosGetPolicer p => moves_of_kept (execQosGetPolicer_kept p s)
  | .qosSetColourMap p => moves_of_kept (execQosSetColourMap_kept p s)
  | .qosSetNode p => moves_of_kept (execQosSetNode_kept p s)
  | .qosSetPortShaper p => moves_of_kept (execQosSetPortShaper_kept p s)
  | .qosSetGateList p => moves_of_kept (execQosSetGateList_kept p s)
  | .qosGetGateStatus p => moves_of_kept (execQosGetGateStatus_kept p s)
  | .qosGetNode p => moves_of_kept (execQosGetNode_kept p s)
  | .qosSetWatch p => moves_of_kept (execQosSetWatch_kept p s)
  | .xptSetRdmaPorts p => moves_of_kept (execXptSetRdmaPorts_kept p s)
  | .xptSetRdmaParams p => moves_of_kept (execXptSetRdmaParams_kept p s)
  | .xptSetRelease p => moves_of_kept (execXptSetRelease_kept p s)
  | .xptGetConnection p => moves_of_kept (execXptGetConnection_kept p s)
  | .xptCloseConnection p => moves_of_kept (execXptCloseConnection_kept p s)
  | .xptCreateRegion p => moves_of_kept (execXptCreateRegion_kept p s)
  | .xptDeleteRegion p => moves_of_kept (execXptDeleteRegion_kept p s)
  | .xptGrantRegion p => moves_of_kept (execXptGrantRegion_kept p s)
  | .xptRekeyRegion p => moves_of_kept (execXptRekeyRegion_kept p s)
  | .xptGetRegion p => moves_of_kept (execXptGetRegion_kept p s)
  | .xptSetTcpPorts p => moves_of_kept (execXptSetTcpPorts_kept p s)
  | .xptSetTcpParams p => moves_of_kept (execXptSetTcpParams_kept p s)
  | .xptSetTls p => moves_of_kept (execXptSetTls_kept p s)
  | .xptSetPool p => moves_of_kept (execXptSetPool_kept p s)
  | .xptGetPool p => moves_of_kept (execXptGetPool_kept p s)
  | .nvmSetSubsystem p => moves_of_kept (execNvmSetSubsystem_kept p s)
  | .nvmGetSubsystem p => moves_of_kept (execNvmGetSubsystem_kept p s)
  | .nvmSetHost p => moves_of_kept (execNvmSetHost_kept p s)
  | .nvmDeleteHost p => moves_of_kept (execNvmDeleteHost_kept p s)
  | .nvmGetHost p => moves_of_kept (execNvmGetHost_kept p s)
  | .nvmSetHostSecret p => moves_of_kept (execNvmSetHostSecret_kept p s)
  | .nvmGetController p => moves_of_kept (execNvmGetController_kept p s)
  | .nvmEndController p => moves_of_kept (execNvmEndController_kept p s)
  | .nvmSetTagLimit p => moves_of_kept (execNvmSetTagLimit_kept p s)
  | .nvmGetTags p => moves_of_kept (execNvmGetTags_kept p s)
  | .volCreateSet p => moves_of_kept (execVolCreateSet_kept p s)
  | .volDeleteSet p => moves_of_kept (execVolDeleteSet_kept p s)
  | .volGetSet p => moves_of_kept (execVolGetSet_kept p s)
  | .volSetReserve p => moves_of_kept (execVolSetReserve_kept p s)
  | .volCreateNamespace p => moves_of_kept (execVolCreateNamespace_kept p s)
  | .volDeleteNamespace p => moves_of_kept (execVolDeleteNamespace_kept p s)
  | .volResizeNamespace p => moves_of_kept (execVolResizeNamespace_kept p s)
  | .volSetNsPolicy p => moves_of_kept (execVolSetNsPolicy_kept p s)
  | .volAttachNamespace p => moves_of_kept (execVolAttachNamespace_kept p s)
  | .volGetNamespace p => moves_of_kept (execVolGetNamespace_kept p s)
  | .volMigrateParcels p => moves_of_kept (execVolMigrateParcels_kept p s)
  | .volGetParcel p => moves_of_kept (execVolGetParcel_kept p s)
  | .volSetNsDefaults p => moves_of_kept (execVolSetNsDefaults_kept p s)
  | .volGetEpoch p => moves_of_kept (execVolGetEpoch_kept p s)
  | .wbfSetPolicy p => moves_of_kept (execWbfSetPolicy_kept p s)
  | .wbfGetStatus p => moves_of_kept (execWbfGetStatus_kept p s)
  | .wbfDestage p => moves_of_kept (execWbfDestage_kept p s)
  | .wbfGetJournal p => moves_of_kept (execWbfGetJournal_kept p s)
  | .redSetPolicy p => moves_of_kept (execRedSetPolicy_kept p s)
  | .redGetHealth p => moves_of_kept (execRedGetHealth_kept p s)
  | .redGetMember p => moves_of_kept (execRedGetMember_kept p s)
  | .redSetSpare p => moves_of_kept (execRedSetSpare_kept p s)
  | .redEjectMember p => moves_of_kept (execRedEjectMember_kept p s)
  | .redReadmit p => moves_of_kept (execRedReadmit_kept p s)
  | .redStartRebuild p => moves_of_kept (execRedStartRebuild_kept p s)
  | .redForceOnline p => moves_of_kept (execRedForceOnline_kept p s)
  | .redReadBadRanges p => moves_of_kept (execRedReadBadRanges_kept p s)
  | .redClearBadRanges p => moves_of_kept (execRedClearBadRanges_kept p s)
  | .drvSetPort p => moves_of_kept (execDrvSetPort_kept p s)
  | .drvGetPort p => moves_of_kept (execDrvGetPort_kept p s)
  | .drvGetDrive p => moves_of_kept (execDrvGetDrive_kept p s)
  | .drvResetDrive p => moves_of_kept (execDrvResetDrive_kept p s)
  | .drvFormatDrive p => moves_of_kept (execDrvFormatDrive_kept p s)
  | .drvReadLog p => moves_of_kept (execDrvReadLog_kept p s)
  | .keyGetIdentityKey p => moves_of_kept (execKeyGetIdentityKey_kept p s)
  | .keyEstablishKek p => moves_of_kept (execKeyEstablishKek_kept p s)
  | .keyImportKey p => moves_of_kept (execKeyImportKey_kept p s)
  | .keyGenerateKey p => moves_of_kept (execKeyGenerateKey_kept p s)
  | .keyExportKey p => moves_of_kept (execKeyExportKey_kept p s)
  | .keyDestroyKey p => moves_of_kept (execKeyDestroyKey_kept p s)
  | .keyRotateKey p => moves_of_kept (execKeyRotateKey_kept p s)
  | .keyGetSlot p => moves_of_kept (execKeyGetSlot_kept p s)
  | .keyRunVector p => moves_of_kept (execKeyRunVector_kept p s)
  | .pairGetStatus p => moves_of_kept (execPairGetStatus_kept p s)
  | .pairTakeover p => moves_of_kept (execPairTakeover_kept p s)
  | .pairSetPolicy p => moves_of_kept (execPairSetPolicy_kept p s)
  | .pairStartResync p => moves_of_kept (execPairStartResync_kept p s)
  | .pairForceClaim p => moves_of_kept (execPairForceClaim_kept p s)
  | .stkGetStatus p => moves_of_kept (execStkGetStatus_kept p s)
  | .stkGetShelf p => moves_of_kept (execStkGetShelf_kept p s)
  | .stkAddShelf p => moves_of_kept (execStkAddShelf_kept p s)
  | .stkRemoveShelf p => moves_of_kept (execStkRemoveShelf_kept p s)
  | .stkLeaveStack p => moves_of_kept (execStkLeaveStack_kept p s)
  | .memGetStatus p => moves_of_kept (execMemGetStatus_kept p s)
  | .memReadLog p => moves_of_kept (execMemReadLog_kept p s)
  | .memScrubRange p => moves_of_kept (execMemScrubRange_kept p s)
  | .memGetScrub p => moves_of_kept (execMemGetScrub_kept p s)
  | .memSetIdleScrub p => moves_of_kept (execMemSetIdleScrub_kept p s)
  | .memGetIdleScrub p => moves_of_kept (execMemGetIdleScrub_kept p s)
  | .memRetirePage p => moves_of_kept (execMemRetirePage_kept p s)
  | .memRetireRow p => moves_of_kept (execMemRetireRow_kept p s)
  | .memTestWrite p => moves_of_kept (execMemTestWrite_kept p s)
  | .memTestRead p => moves_of_kept (execMemTestRead_kept p s)
  | .memReloadMap p => moves_of_kept (execMemReloadMap_kept p s)
  | .memRunSelftest p => moves_of_kept (execMemRunSelftest_kept p s)
  | .updGetStatus p => moves_of_kept (execUpdGetStatus_kept p s)
  | .updBegin p => moves_of_kept (execUpdBegin_kept p s)
  | .updWriteDelta p => moves_of_kept (execUpdWriteDelta_kept p s)
  | .updFinish p => moves_of_kept (execUpdFinish_kept p s)
  | .updActivate p => execUpdActivate_moves p s
  | .updPropagate p => moves_of_kept (execUpdPropagate_kept p s)
  | .updSetOwnerLock p => moves_of_kept (execUpdSetOwnerLock_kept p s)
  | .updAbort p => moves_of_kept (execUpdAbort_kept p s)
  | .talRead p => moves_of_kept (execTalRead_kept p s)
  | .talSnapshot p => moves_of_kept (execTalSnapshot_kept p s)
  | .talClear p => moves_of_kept (execTalClear_kept p s)
  | .talGetOverflow p => moves_of_kept (execTalGetOverflow_kept p s)
  | .talSetStream p => moves_of_kept (execTalSetStream_kept p s)
  | .lbcntWrite door aligned w => moves_of_kept (execLbcntWrite_kept door aligned w s)
  | .lbdataWrite door aligned w => moves_of_kept (execLbdataWrite_kept door aligned w s)
  | .lbdataRead door aligned => moves_of_kept (execLbdataRead_kept door aligned s)
  | .lbctlAbort door aligned w => moves_of_kept (execLbctlAbort_kept door aligned w s)
  | .registerWrite r aligned w => moves_of_kept (execRegisterWrite_kept r aligned w s)
  | .doorFillingTimeout door => moves_of_kept (execDoorFillingTimeout_kept door s)
  | .commandEnterBusy door => moves_of_kept (execCommandEnterBusy_kept door s)
  | .kumelBeginCommand door => moves_of_kept (execKumelBeginCommand_kept door s)
  | .kumelBacklogTimeout door backlogMs => moves_of_kept (execKumelBacklogTimeout_kept door backlogMs s)
  | .commandReplyReady door => moves_of_kept (execCommandReplyReady_kept door s)
  | .lockExpired => moves_of_kept (execLockExpired_kept s)
  | .smbusBlockWrite count ws pecBad => moves_of_kept (execSmbusBlockWrite_kept count ws pecBad s)
  | .smbusBlockRead pecBad => moves_of_kept (execSmbusBlockRead_kept pecBad s)
  | .alertResponseRead => moves_of_kept (execAlertResponseRead_kept s)
  | .doorDatagram d => moves_of_kept (execDoorDatagram_kept d s)
  | .datagramWaitEnd => moves_of_kept (execDatagramWaitEnd_kept s)
  | .seat bayOpen chkOpen strap => execSeat_moves bayOpen chkOpen strap s
  | .unseat => moves_of_kept (execUnseat_kept s)
  | .feedGood feed mv => moves_of_kept (execFeedGood_kept feed mv s)
  | .feedUvWarn feed mv => moves_of_kept (execFeedUvWarn_kept feed mv s)
  | .feedLost feed mv => moves_of_kept (execFeedLost_kept feed mv s)
  | .feedOv feed mv => moves_of_kept (execFeedOv_kept feed mv s)
  | .feedOvReclose feed mv => moves_of_kept (execFeedOvReclose_kept feed mv s)
  | .frontEndTrip => moves_of_kept (execFrontEndTrip_kept s)
  | .bulkChargeEnd => execBulkChargeEnd_moves s
  | .chargeFail => moves_of_kept (execChargeFail_kept s)
  | .chargeRetry => moves_of_kept (execChargeRetry_kept s)
  | .feedsOffReset => moves_of_kept (execFeedsOffReset_kept s)
  | .holdupDone => execHoldupDone_moves s
  | .reserveReady joules => moves_of_kept (execReserveReady_kept joules s)
  | .reserveWaitTimeout => moves_of_kept (execReserveWaitTimeout_kept s)
  | .reserveCapacityTest joules => moves_of_kept (execReserveCapacityTest_kept joules s)
  | .reserveTestDone joules => moves_of_kept (execReserveTestDone_kept joules s)
  | .singleFeedBudgetTick mv1 mv2 i1 i2 => moves_of_kept (execSingleFeedBudgetTick_kept mv1 mv2 i1 i2 s)
  | .slotShed current => moves_of_kept (execSlotShed_kept current s)
  | .thermalWarn tj => moves_of_kept (execThermalWarn_kept tj s)
  | .thermalRearm tj => moves_of_kept (execThermalRearm_kept tj s)
  | .thermalShutdown tj => moves_of_kept (execThermalShutdown_kept tj s)
  | .thermalRestart tj => execThermalRestart_moves tj s
  | .clockLost c => execClockLost_moves c s
  | .entropyFault => moves_of_kept (execEntropyFault_kept s)
  | .entropyRetest pass => moves_of_kept (execEntropyRetest_kept pass s)
  | .drbgReseed => moves_of_kept (execDrbgReseed_kept s)
  | .bootRailsUp => execBootRailsUp_moves s
  | .bootFlashChecked aOk bOk => execBootFlashChecked_moves aOk bOk s
  | .bootSelftestDone lasting => execBootSelftestDone_moves lasting s
  | .bootDramTrained failed => execBootDramTrained_moves failed s
  | .kumelStarted entropyOk => execKumelStarted_moves entropyOk s
  | .enumerationStop => execEnumerationStop_moves s
  | .bootEnd => execBootEnd_moves s
  | .bootTimeout => execBootTimeout_moves s
  | .drowseQuiescent => moves_of_kept (execDrowseQuiescent_kept s)
  | .drowseDrivesLow => execDrowseDrivesLow_moves s
  | .drowseAbandonTimeout => moves_of_kept (execDrowseAbandonTimeout_kept s)
  | .drowseExit => moves_of_kept (execDrowseExit_kept s)
  | .drowseExitDone => execDrowseExitDone_moves s
  | .watchdogExpiry => moves_of_kept (execWatchdogExpiry_kept s)
  | .kumelRestartDone => moves_of_kept (execKumelRestartDone_kept s)
  | .slotProbe slot pre riseUs => moves_of_kept (execSlotProbe_kept slot pre riseUs s)
  | .slotInserted slot => moves_of_kept (execSlotInserted_kept slot s)
  | .slotSuspectPull slot iout => moves_of_kept (execSlotSuspectPull_kept slot iout s)
  | .slotAdmit slot pre => moves_of_kept (execSlotAdmit_kept slot pre s)
  | .rampResample slot pre => moves_of_kept (execRampResample_kept slot pre s)
  | .slotPowerGood slot => moves_of_kept (execSlotPowerGood_kept slot s)
  | .slotResetRelease slot => moves_of_kept (execSlotResetRelease_kept slot s)
  | .slotJoinSettled slot => moves_of_kept (execSlotJoinSettled_kept slot s)
  | .inrushTimeout slot => moves_of_kept (execInrushTimeout_kept slot s)
  | .slotTrip slot cause meas => moves_of_kept (execSlotTrip_kept slot cause meas s)
  | .slotRetryExpiry slot => moves_of_kept (execSlotRetryExpiry_kept slot s)
  | .slotStageOffDelay slot => moves_of_kept (execSlotStageOffDelay_kept slot s)
  | .shareTelemetrySend iout vout => moves_of_kept (execShareTelemetrySend_kept iout vout s)
  | .shareTelemetryReceive r => moves_of_kept (execShareTelemetryReceive_kept r s)
  | .shareUpdateMissed => moves_of_kept (execShareUpdateMissed_kept s)
  | .shareDroop => moves_of_kept (execShareDroop_kept s)
  | .shareRestored => moves_of_kept (execShareRestored_kept s)
  | .indicatorFrame => moves_of_kept (execIndicatorFrame_kept s)
  | .pluggableInserted cage => moves_of_kept (execPluggableInserted_kept cage s)
  | .pluggableCmisRead cage watts => moves_of_kept (execPluggableCmisRead_kept cage watts s)
  | .pluggableReady cage => moves_of_kept (execPluggableReady_kept cage s)
  | .pluggableFault cage => moves_of_kept (execPluggableFault_kept cage s)
  | .pluggableRemoved cage => moves_of_kept (execPluggableRemoved_kept cage s)
  | .linkUp lport => moves_of_kept (execLinkUp_kept lport s)
  | .linkDown lport => moves_of_kept (execLinkDown_kept lport s)
  | .fecDegraded lport symbols corrected uncorrectable => moves_of_kept (execFecDegraded_kept lport symbols corrected uncorrectable s)
  | .frameReceive f => moves_of_kept (execFrameReceive_kept f s)
  | .frameTransmit swport q => moves_of_kept (execFrameTransmit_kept swport q s)
  | .pfcReceive lport prio quanta => moves_of_kept (execPfcReceive_kept lport prio quanta s)
  | .pfcPauseExpiry lport prio => moves_of_kept (execPfcPauseExpiry_kept lport prio s)
  | .pfcRefresh lport pcp => moves_of_kept (execPfcRefresh_kept lport pcp s)
  | .epochDrained => moves_of_kept (execEpochDrained_kept s)
  | .epochSlow => moves_of_kept (execEpochSlow_kept s)
  | .ptpMessage lport domain transport m => moves_of_kept (execPtpMessage_kept lport domain transport m s)
  | .ptpLocked => moves_of_kept (execPtpLocked_kept s)
  | .ptpUnlocked => moves_of_kept (execPtpUnlocked_kept s)
  | .tokenTick => moves_of_kept (execTokenTick_kept s)
  | .schedulerDispatch qport => moves_of_kept (execSchedulerDispatch_kept qport s)
  | .gateEntryChange qport => moves_of_kept (execGateEntryChange_kept qport s)
  | .gateListStart qport => moves_of_kept (execGateListStart_kept qport s)
  | .gateListRestart qport => moves_of_kept (execGateListRestart_kept qport s)
  | .rateEstimateInterval => moves_of_kept (execRateEstimateInterval_kept s)
  | .cmReq r => moves_of_kept (execCmReq_kept r s)
  | .cmRtu qpn => moves_of_kept (execCmRtu_kept qpn s)
  | .repResend ctx => moves_of_kept (execRepResend_kept ctx s)
  | .cmDreq qpn => moves_of_kept (execCmDreq_kept qpn s)
  | .cmDrep qpn => moves_of_kept (execCmDrep_kept qpn s)
  | .dreqTimeout ctx => moves_of_kept (execDreqTimeout_kept ctx s)
  | .timewaitExpiry ctx => moves_of_kept (execTimewaitExpiry_kept ctx s)
  | .roceRequestPacket p => moves_of_kept (execRoceRequestPacket_kept p s)
  | .roceAckReceive h psn k => moves_of_kept (execRoceAckReceive_kept h psn k s)
  | .roceReadResponse h psn tag gen off blks last => moves_of_kept (execRoceReadResponse_kept h psn tag gen off blks last s)
  | .roceCnpReceive h => moves_of_kept (execRoceCnpReceive_kept h s)
  | .ackCoalesceTimeout ctx => moves_of_kept (execAckCoalesceTimeout_kept ctx s)
  | .ackTimeout ctx => moves_of_kept (execAckTimeout_kept ctx s)
  | .rnrResend ctx => moves_of_kept (execRnrResend_kept ctx s)
  | .ratePeriod ctx => moves_of_kept (execRatePeriod_kept ctx s)
  | .dataDone tag gen => moves_of_kept (execDataDone_kept tag gen s)
  | .completionRelease ctx => moves_of_kept (execCompletionRelease_kept ctx s)
  | .tcpSyn f => moves_of_kept (execTcpSyn_kept f s)
  | .synackResend ent => moves_of_kept (execSynackResend_kept ent s)
  | .synEntryExpiry ent => moves_of_kept (execSynEntryExpiry_kept ent s)
  | .tcpHandshakeAck ent => moves_of_kept (execTcpHandshakeAck_kept ent s)
  | .tcpSegment p => moves_of_kept (execTcpSegment_kept p s)
  | .tcpAckTimer ctx => moves_of_kept (execTcpAckTimer_kept ctx s)
  | .tcpRto ctx => moves_of_kept (execTcpRto_kept ctx s)
  | .tcpFin ctx seq frame => moves_of_kept (execTcpFin_kept ctx seq frame s)
  | .tcpRst ctx seq frame => moves_of_kept (execTcpRst_kept ctx seq frame s)
  | .icreqTimeout ctx => moves_of_kept (execIcreqTimeout_kept ctx s)
  | .tlsHandshakeDone ctx ok group rx tx hostNqn subNqn => moves_of_kept (execTlsHandshakeDone_kept ctx ok group rx tx hostNqn subNqn s)
  | .tlsHandshakeTimeout ctx => moves_of_kept (execTlsHandshakeTimeout_kept ctx s)
  | .keyupdateInstalled ctx => moves_of_kept (execKeyupdateInstalled_kept ctx s)
  | .contextFillStart => moves_of_kept (execContextFillStart_kept s)
  | .contextFillDone ctx poison => moves_of_kept (execContextFillDone_kept ctx poison s)
  | .contextEvict => moves_of_kept (execContextEvict_kept s)
  | .keepAliveExpiry cntlid => moves_of_kept (execKeepAliveExpiry_kept cntlid s)
  | .nvmeConnect r => moves_of_kept (execNvmeConnect_kept r s)
  | .nvmeAuthenticationSend ctx cid m => moves_of_kept (execNvmeAuthenticationSend_kept ctx cid m s)
  | .nvmeAuthenticationReceive ctx cid => moves_of_kept (execNvmeAuthenticationReceive_kept ctx cid s)
  | .nvmePropertySet ctx cid prop value => moves_of_kept (execNvmePropertySet_kept ctx cid prop value s)
  | .nvmePropertyGet ctx cid prop => moves_of_kept (execNvmePropertyGet_kept ctx cid prop s)
  | .nvmeDisconnect ctx cid => moves_of_kept (execNvmeDisconnect_kept ctx cid s)
  | .nvmeGetLogPage ctx cid nsid lid => moves_of_kept (execNvmeGetLogPage_kept ctx cid nsid lid s)
  | .nvmeIdentify ctx cid nsid cns cntid => moves_of_kept (execNvmeIdentify_kept ctx cid nsid cns cntid s)
  | .nvmeAbort ctx cid sqid acid => moves_of_kept (execNvmeAbort_kept ctx cid sqid acid s)
  | .abortRequestAtTag ctx cid => moves_of_kept (execAbortRequestAtTag_kept ctx cid s)
  | .nvmeSetFeatures ctx cid nsid fid value => moves_of_kept (execNvmeSetFeatures_kept ctx cid nsid fid value s)
  | .nvmeGetFeatures ctx cid nsid fid value => moves_of_kept (execNvmeGetFeatures_kept ctx cid nsid fid value s)
  | .nvmeAsyncEventRequest ctx cid => moves_of_kept (execNvmeAsyncEventRequest_kept ctx cid s)
  | .nvmeNamespaceManagement ctx cid del c => moves_of_kept (execNvmeNamespaceManagement_kept ctx cid del c s)
  | .nvmeNamespaceAttachment ctx cid nsid attach ctrls => moves_of_kept (execNvmeNamespaceAttachment_kept ctx cid nsid attach ctrls s)
  | .nvmeKeepAlive ctx cid => moves_of_kept (execNvmeKeepAlive_kept ctx cid s)
  | .nvmeFormatNvm ctx cid nsid ses lbaf pit => moves_of_kept (execNvmeFormatNvm_kept ctx cid nsid ses lbaf pit s)
  | .nvmeSanitize ctx cid sanact => moves_of_kept (execNvmeSanitize_kept ctx cid sanact s)
  | .nvmeRead c => moves_of_kept (execNvmeRead_kept c s)
  | .nvmeWrite c => moves_of_kept (execNvmeWrite_kept c s)
  | .nvmeFlush c => moves_of_kept (execNvmeFlush_kept c s)
  | .nvmeCompare c => moves_of_kept (execNvmeCompare_kept c s)
  | .nvmeWriteZeroes c => moves_of_kept (execNvmeWriteZeroes_kept c s)
  | .nvmeDatasetManagement c => moves_of_kept (execNvmeDatasetManagement_kept c s)
  | .nvmeVerify c => moves_of_kept (execNvmeVerify_kept c s)
  | .nvmeCopy c => moves_of_kept (execNvmeCopy_kept c s)
  | .nvmeReservationRegister c => moves_of_kept (execNvmeReservationRegister_kept c s)
  | .nvmeReservationReport c => moves_of_kept (execNvmeReservationReport_kept c s)
  | .nvmeReservationAcquire c => moves_of_kept (execNvmeReservationAcquire_kept c s)
  | .nvmeReservationRelease c => moves_of_kept (execNvmeReservationRelease_kept c s)
  | .commandStart sub => moves_of_kept (execCommandStart_kept sub s)
  | .spaceQueueClaim => moves_of_kept (execSpaceQueueClaim_kept s)
  | .writeDataArrival tag gen off blocks => moves_of_kept (execWriteDataArrival_kept tag gen off blocks s)
  | .destageAgeTrigger set_ stripe => moves_of_kept (execDestageAgeTrigger_kept set_ stripe s)
  | .occupancyHigh => moves_of_kept (execOccupancyHigh_kept s)
  | .destageEscalated => moves_of_kept (execDestageEscalated_kept s)
  | .destageStart set_ => moves_of_kept (execDestageStart_kept set_ s)
  | .journalBlockTimer set_ member => moves_of_kept (execJournalBlockTimer_kept set_ member s)
  | .journalPersisted jseq => moves_of_kept (execJournalPersisted_kept jseq s)
  | .stripWriteComplete jseq => moves_of_kept (execStripWriteComplete_kept jseq s)
  | .recordRecovery set_ found reads => moves_of_kept (execRecordRecovery_kept set_ found reads s)
  | .quarantineRelease => moves_of_kept (execQuarantineRelease_kept s)
  | .mapFillDone line => moves_of_kept (execMapFillDone_kept line s)
  | .mapDeltaFlush => moves_of_kept (execMapDeltaFlush_kept s)
  | .mapEpochDrained => moves_of_kept (execMapEpochDrained_kept s)
  | .mapEpochSlow => moves_of_kept (execMapEpochSlow_kept s)
  | .migrationPassDone => moves_of_kept (execMigrationPassDone_kept s)
  | .initStripe set_ => moves_of_kept (execInitStripe_kept set_ s)
  | .driveCompletion k => moves_of_kept (execDriveCompletion_kept k s)
  | .memberTimeoutCheck => moves_of_kept (execMemberTimeoutCheck_kept s)
  | .hedgeDeadline k => moves_of_kept (execHedgeDeadline_kept k s)
  | .latencyPercentileUpdate slot => moves_of_kept (execLatencyPercentileUpdate_kept slot s)
  | .absentwaitExpiry set_ member => moves_of_kept (execAbsentwaitExpiry_kept set_ member s)
  | .rebuildStart set_ => moves_of_kept (execRebuildStart_kept set_ s)
  | .rebuildStripe set_ member => moves_of_kept (execRebuildStripe_kept set_ member s)
  | .resyncRegion set_ member => moves_of_kept (execResyncRegion_kept set_ member s)
  | .patrolStripe set_ => moves_of_kept (execPatrolStripe_kept set_ s)
  | .identityRecordWrite set_ => moves_of_kept (execIdentityRecordWrite_kept set_ s)
  | .driveTrainingAttempt slot => moves_of_kept (execDriveTrainingAttempt_kept slot s)
  | .driveLinkUp slot speed width flit classOk capTo mqes mps tag10 => moves_of_kept (execDriveLinkUp_kept slot speed width flit classOk capTo mqes mps tag10 s)
  | .driveLinkDown slot => moves_of_kept (execDriveLinkDown_kept slot s)
  | .downmaxExpiry slot => moves_of_kept (execDownmaxExpiry_kept slot s)
  | .cstsWaitTimeout slot => moves_of_kept (execCstsWaitTimeout_kept slot s)
  | .driveAdminCompletion slot d => moves_of_kept (execDriveAdminCompletion_kept slot d s)
  | .driveAdminTimeout slot => moves_of_kept (execDriveAdminTimeout_kept slot s)
  | .driveLinkRetrain slot errors => moves_of_kept (execDriveLinkRetrain_kept slot errors s)
  | .driveDmaRequest r => moves_of_kept (execDriveDmaRequest_kept r s)
  | .driveCqEntry slot q cid phase status => moves_of_kept (execDriveCqEntry_kept slot q cid phase status s)
  | .doorbellTimer slot q => moves_of_kept (execDoorbellTimer_kept slot q s)
  | .driveResetRelease slot => moves_of_kept (execDriveResetRelease_kept slot s)
  | .cipherSelfTest failed => moves_of_kept (execCipherSelfTest_kept failed s)
  | .nonceReservationLive core => moves_of_kept (execNonceReservationLive_kept core s)
  | .rotationSweepStep slot => moves_of_kept (execRotationSweepStep_kept slot s)
  | .sweepPositionRecord slot => moves_of_kept (execSweepPositionRecord_kept slot s)
  | .keyZeroise slot => moves_of_kept (execKeyZeroise_kept slot s)
  | .linkSignalDetect link signal => moves_of_kept (execLinkSignalDetect_kept link signal s)
  | .trainingFrame link lane f errs want => moves_of_kept (execTrainingFrame_kept link lane f errs want s)
  | .equaliseTimeout link => moves_of_kept (execEqualiseTimeout_kept link s)
  | .alignmentCodeword link lane found run => moves_of_kept (execAlignmentCodeword_kept link lane found run s)
  | .linkAlignTimeout link => moves_of_kept (execLinkAlignTimeout_kept link s)
  | .configBlock link b => moves_of_kept (execConfigBlock_kept link b s)
  | .linkRefuseRetry link => moves_of_kept (execLinkRefuseRetry_kept link s)
  | .flitReceive link f => moves_of_kept (execFlitReceive_kept link f s)
  | .replayTimeout link => moves_of_kept (execReplayTimeout_kept link s)
  | .laneFault link lane => moves_of_kept (execLaneFault_kept link lane s)
  | .heartbeatSend link => moves_of_kept (execHeartbeatSend_kept link s)
  | .heartbeatReceive link h => execHeartbeatReceive_moves link h s
  | .heartbeatTimeout link => moves_of_kept (execHeartbeatTimeout_kept link s)
  | .postmarkAckSend => moves_of_kept (execPostmarkAckSend_kept s)
  | .postmarkAckReceive pmark => moves_of_kept (execPostmarkAckReceive_kept pmark s)
  | .postmarkStall => moves_of_kept (execPostmarkStall_kept s)
  | .shadowPacket seq len placed body => execShadowPacket_moves seq len placed body s
  | .mirrorWrite seq len placed m => execMirrorWrite_moves seq len placed m s
  | .mirrorState seq len placed items => execMirrorState_moves seq len placed items s
  | .forwardedFrame m cls port f => moves_of_kept (execForwardedFrame_kept m cls port f s)
  | .sessionResumeTimeout link => moves_of_kept (execSessionResumeTimeout_kept link s)
  | .linkWiden link => moves_of_kept (execLinkWiden_kept link s)
  | .mateInHigh => moves_of_kept (execMateInHigh_kept s)
  | .renewSend => moves_of_kept (execRenewSend_kept s)
  | .renewResend => moves_of_kept (execRenewResend_kept s)
  | .statusSend => moves_of_kept (execStatusSend_kept s)
  | .claimSend => moves_of_kept (execClaimSend_kept s)
  | .leaseGrant f => execLeaseGrant_moves f s
  | .leaseDeny f => execLeaseDeny_moves f s
  | .leaseAck f => moves_of_kept (execLeaseAck_kept f s)
  | .leaseExpiry => execLeaseExpiry_moves s
  | .witnessLost => moves_of_kept (execWitnessLost_kept s)
  | .gratuitousArp => moves_of_kept (execGratuitousArp_kept s)
  | .memberWriteHoldExpiry => moves_of_kept (execMemberWriteHoldExpiry_kept s)
  | .selfFaultDetect code => moves_of_kept (execSelfFaultDetect_kept code s)
  | .takeoverFreezeDrained => moves_of_kept (execTakeoverFreezeDrained_kept s)
  | .takeoverForwardEnd => execTakeoverForwardEnd_moves s
  | .resyncStart => moves_of_kept (execResyncStart_kept s)
  | .resyncPhaseDone phase bytes => moves_of_kept (execResyncPhaseDone_kept phase bytes s)
  | .helloSend link => moves_of_kept (execHelloSend_kept link s)
  | .helloReceive link h => moves_of_kept (execHelloReceive_kept link h s)
  | .helloTimeout link => moves_of_kept (execHelloTimeout_kept link s)
  | .dirUpdate m full es nqn lis => moves_of_kept (execDirUpdate_kept m full es nqn lis s)
  | .stackRecordMessage m r => moves_of_kept (execStackRecordMessage_kept m r s)
  | .adminRequest m src op p => moves_of_kept (execAdminRequest_kept m src op p s)
  | .adminReply m door tag status => moves_of_kept (execAdminReply_kept m door tag status s)
  | .stackFormTimeout => moves_of_kept (execStackFormTimeout_kept s)
  | .masterUnreachable => moves_of_kept (execMasterUnreachable_kept s)
  | .forwardCommand m h cls sub host op c => moves_of_kept (execForwardCommand_kept m h cls sub host op c s)
  | .forwardDataRequest m cls h => moves_of_kept (execForwardDataRequest_kept m cls h s)
  | .forwardWriteData m cls h blocks => moves_of_kept (execForwardWriteData_kept m cls h blocks s)
  | .forwardReadData m cls h data => moves_of_kept (execForwardReadData_kept m cls h data s)
  | .forwardCompletion m cls h status dnr => moves_of_kept (execForwardCompletion_kept m cls h status dnr s)
  | .forwardTimeout tag => moves_of_kept (execForwardTimeout_kept tag s)
  | .firmwareOffer link orig scope ws => moves_of_kept (execFirmwareOffer_kept link orig scope ws s)
  | .firmwareAnswer link status already => moves_of_kept (execFirmwareAnswer_kept link status already s)
  | .firmwareData link off ws => moves_of_kept (execFirmwareData_kept link off ws s)
  | .firmwareEnd link opwords => moves_of_kept (execFirmwareEnd_kept link opwords s)
  | .firmwareResult m status mod => moves_of_kept (execFirmwareResult_kept m status mod s)
  | .updVerifyDone => execUpdVerifyDone_moves s
  | .propagateTimeout => moves_of_kept (execPropagateTimeout_kept s)
  | .trialConfirm => moves_of_kept (execTrialConfirm_kept s)
  | .memoryError e => execMemoryError_moves e s
  | .selftestStart eseq => moves_of_kept (execSelftestStart_kept eseq s)
  | .selftestComplete eseq r => moves_of_kept (execSelftestComplete_kept eseq r s)
  | .triageTimeout eseq => moves_of_kept (execTriageTimeout_kept eseq s)
  | .idleScrubRead chan => moves_of_kept (execIdleScrubRead_kept chan s)
  | .scrubRangeRead cls lines fixed bad old first => moves_of_kept (execScrubRangeRead_kept cls lines fixed bad old first s)
  | .streamCapture => moves_of_kept (execStreamCapture_kept s)
  | .perstAssert => moves_of_kept (execPerstAssert_kept s)
  | .seLinkUp => moves_of_kept (execSeLinkUp_kept s)
  | .seLinkDown => moves_of_kept (execSeLinkDown_kept s)
  | .busMasterDisable => moves_of_kept (execBusMasterDisable_kept s)
  | .busMasterEnable => moves_of_kept (execBusMasterEnable_kept s)
  | .powerStateD3hot => moves_of_kept (execPowerStateD3hot_kept s)
  | .powerStateD0 => moves_of_kept (execPowerStateD0_kept s)
  | .msixUnmask v => moves_of_kept (execMsixUnmask_kept v s)
  | .chctlEnable c w => moves_of_kept (execChctlEnable_kept c w s)
  | .chctlDisable c => moves_of_kept (execChctlDisable_kept c s)
  | .ringloWrite c aligned w => moves_of_kept (execRingloWrite_kept c aligned w s)
  | .kick c => moves_of_kept (execKick_kept c s)
  | .dmaDescriptorFetched c ws => moves_of_kept (execDmaDescriptorFetched_kept c ws s)
  | .dmaDescriptorPoll c => moves_of_kept (execDmaDescriptorPoll_kept c s)
  | .dmaRecordAvailable c => moves_of_kept (execDmaRecordAvailable_kept c s)
  | .dmaFlushTimeout c => moves_of_kept (execDmaFlushTimeout_kept c s)
  | .dmaBusError ecause => moves_of_kept (execDmaBusError_kept ecause s)
  | .dmaReadTimeout => moves_of_kept (execDmaReadTimeout_kept s)
  | .dmaUnexpectedCompletion => moves_of_kept (execDmaUnexpectedCompletion_kept s)
  | .driveCstsReady slot => moves_of_kept (execDriveCstsReady_kept slot s)
  | .keyCopiesErased slot => moves_of_kept (execKeyCopiesErased_kept slot s)
  | .thickCreationComplete nsid => moves_of_kept (execThickCreationComplete_kept nsid s)
  | .creditStall link cls => moves_of_kept (execCreditStall_kept link cls s)
  | .forceClaimTimeout => moves_of_kept (execForceClaimTimeout_kept s)
  | .reserveChargeLow joules => moves_of_kept (execReserveChargeLow_kept joules s)
  | .leaseFrameIgnored => moves_of_kept (execLeaseFrameIgnored_kept s)
  | .managementLinkUp => moves_of_kept (execManagementLinkUp_kept s)

/-- A step takes one command from the queue, and moves from there. -/
theorem step_moves {s t : State} (h : step s = .next t) : Moves { s with pending := s.pending.tail } t := by
  cases hq : s.pending with
  | nil =>
    obtain rfl : tick s = t := by simpa [step, hq] using h
    exact (tick_moves s).before (by simp [State.kept, hq])
  | cons c rest => exact exec_moves c _ t (by simpa only [step, hq, List.tail_cons] using h)

/-- Settles O53: `step_moves` gives the queue, the ordering code and the stage of the next state. -/
theorem stepKeepsTheInvariant : Obligations.StepKeepsTheInvariant := by
  intro s t ⟨horder, hstage⟩ hstep
  obtain ⟨hqueue, hsame, -, hdone⟩ := step_moves hstep
  exact ⟨by rwa [hsame], hdone hstage, hsame, hqueue⟩

/-- Settles O54: `step_moves` gives the transition (log 30). -/
theorem stepChangesTheModeByTheTable : Obligations.StepChangesTheModeByTheTable := by
  intro s t hstep
  obtain ⟨-, -, hmode, -⟩ := step_moves hstep
  exact hmode

/-- Settles O52: the module comes out of reset in Boot, with the ordering code of the TK-4824-F (log 5). -/
theorem resetMeetsTheInvariant : Obligations.ResetMeetsTheInvariant := ⟨.inl rfl, rfl⟩

/-! ## Drowse entry while data moves -/

/-- A command that arrives during a Drowse entry leaves the host table. -/
@[simp] theorem entryArrival_nvm (s : State) : (entryArrival s).nvm = s.nvm := by
  unfold entryArrival
  split <;> simp
/-- It leaves the volumes. -/
@[simp] theorem entryArrival_vol (s : State) : (entryArrival s).vol = s.vol := by
  unfold entryArrival
  split <;> simp
/-- It leaves the pair. -/
@[simp] theorem entryArrival_pair (s : State) : (entryArrival s).pair = s.pair := by
  unfold entryArrival
  split <;> simp

/-- An admin command's arrival leaves the host table. -/
theorem adminAt_nvm (ctx : Nat) (s : State) : (adminAt ctx s).nvm = s.nvm := entryArrival_nvm _

/-- An admin command's arrival moves no data. -/
theorem dataMoving_adminAt (ctx : Nat) (s : State) : dataMoving (adminAt ctx s) = dataMoving s := by
  rw [dataMoving, adminAt, entryArrival_vol, entryArrival_pair]
  rfl

/-- MOD.ENTER_DROWSE is refused while data moves (R145). -/
theorem deskModEnterDrowse_moving (p : Packet) {s : State} (hm : dataMoving s = true) :
    deskModEnterDrowse p s = (stRefusedMoving, [], s) := by
  simp [deskModEnterDrowse, check, deny, hm]

/-- So is a host's request for power state 1, of a host that may ask for it (R440, R442). -/
theorem setPower_moving (ctx cid : Nat) {c : Ctrl} {v : Nat} {s : State} (hv : v % 32 = 1)
    (hp : (tabGet {} s.nvm.hosts c.host : HostEnt).priv.testBit 3 = true) (hm : dataMoving s = true) :
    setPower ctx cid c v s = completeOn ctx cid .interrupted 0 s := by
  simp [setPower, ends, hv, hp, hm]

/-- Settles O60: both requests ask `dataMoving` before they start an entry (R145; for Set Features R440, R442). -/
theorem drowseWaitsForMovingData : Obligations.DrowseWaitsForMovingData := by
  refine ⟨?_, ?_⟩
  · intro s p ht hm
    show letter 0x0006 0 p s (deskModEnterDrowse p) = _
    rw [letter_taken ht, atDesk_deny_eq (deskModEnterDrowse_moving p hm) (by decide) (by decide) (by decide)]
  · intro s ctx cid n c nsid v ht hv hp hm
    show execNvmeSetFeatures ctx cid nsid 2 v s = _
    rw [execNvmeSetFeatures, if_neg (by decide), adminIn_takes ht]
    exact congrArg _ (setPower_moving ctx cid hv (by rwa [adminAt_nvm]) (by rwa [dataMoving_adminAt]))

/-! ## Boot -/

/-- Settles O5: each row of Boot by its guard. Enumeration's end sets the stage PAIRING (log 26), and Boot that ends in Maintenance gives
back its lease (log 31). -/
theorem bootStagesComplete : Obligations.BootStagesComplete := by
  refine ⟨?_, ?_, ?_, ?_, ?_, ?_, ?_, ?_, ?_, ?_⟩
  · intro s hm hs hb hc
    show execBootRailsUp s = _
    simp [execBootRailsUp, hm, hs, hb, hc]
  · intro s a b hm hs
    show execBootFlashChecked a b s = _
    simp only [execBootFlashChecked, hm, hs]
    cases (!a && !b) with
    | false => rfl
    | true => rfl
  · intro s f hm hs
    show execBootSelftestDone f s = _
    simp [execBootSelftestDone, hm, hs]
  · intro s cs hm hs
    show execBootDramTrained cs s = _
    simp [execBootDramTrained, hm, hs]
  · intro s ok hm hs
    show execKumelStarted ok s = _
    simp [execKumelStarted, hm, hs]
  · intro s
    rfl
  · intro s hm h6 hd
    show execEnumerationStop s = _
    simp [execEnumerationStop, hm, h6, due, hd]
  · intro s m hm h6 hw ho
    show execBootEnd s = _
    simp [execBootEnd, hm, h6, hw, ho]
  · intro s hm h6 ho hd
    show execBootTimeout s = _
    rw [execBootTimeout, if_pos]
    simp only [Bool.and_eq_true, decide_eq_true_eq]
    exact ⟨⟨⟨hm, h6⟩, Option.isNone_iff_eq_none.2 ho⟩, decide_eq_true hd⟩
  · intro s he
    show execEntropyFault s = _
    simp [execEntropyFault, he]

/-! ## Drowse and the watchdog -/

/-- Settles O6: each row of Drowse and the watchdog by its guard; an entry given up is `abandonDrowse` (log 28), a restart that would be
the third `kumelRestart` (log 27). -/
theorem drowseAndWatchdogComplete : Obligations.DrowseAndWatchdogComplete := by
  refine ⟨?_, ?_, ?_, ?_, ?_, ?_, ?_⟩
  · intro s hd hm hq ht
    show execDrowseQuiescent s = _
    simp [execDrowseQuiescent, hd, hm, hq, due, ht]
  · intro s hd hm
    show execDrowseDrivesLow s = _
    simp [execDrowseDrivesLow, hd, hm]
  · intro s hd ht
    show execDrowseAbandonTimeout s = _
    simp [execDrowseAbandonTimeout, hd, due, ht]
  · intro s hm hd
    show execDrowseExit s = _
    simp [execDrowseExit, beginDrowseExit, hm, hd]
  · intro s hm hd
    show execDrowseExitDone s = _
    simp [execDrowseExitDone, hm, hd]
  · intro s hk
    show execWatchdogExpiry s = _
    simp [execWatchdogExpiry, hk]
  · intro s hk
    show execKumelRestartDone s = _
    simp [execKumelRestartDone, hk]

end Sys2Proof.Machine

/-! SUPPORT. Chapter 5's front ports and Sorting Office: frames, PFC, epochs and PTP by the guards of their rows, and the NET commands by
what their desks answer. Each obligation's proof has one case for each clause of its statement, in order. -/
namespace Sys2Proof.Machine

/-! ## Frames and PFC -/

/-- While no take-over runs, a frame of a front port that is up enters the Sorting Office (R175, R193, R756). -/
theorem execFrameReceive_enters {f : Frame} {s : State} (hl : f.lport < 32) (hu : (s.lport f.lport).up = true) (ht : s.pair.take = none) :
    execFrameReceive f s = .next (frameIn f s) := by
  simp [execFrameReceive, hu, Nat.not_le.2 hl, ht]

/-- A frame with a bad FCS is counted and leaves nothing else (R175). -/
theorem frameIn_badFcs {f : Frame} (h : f.fcsOk = false) (s : State) :
    frameIn f s = count1 (1088 + f.lport) (count1 (1024 + f.lport) s) := by
  simp [frameIn, h]

/-! ## PTP -/

section
variable {l d t : Nat} {s : State} (hl : l < 32) (hu : (s.lport l).up = true) (ha : isAnalysis s l = false)
include hl hu ha

/-- An Active module takes a PTP message of its domain and transport on an enabled logical port (R211, R212). -/
theorem execPtpMessage_takes (m : PtpMsg) (he : s.net.ptp.enable = true) (hd : s.net.ptp.domain = d) (ht : s.net.ptp.transport = t)
    (hp : s.net.ptp.ports.testBit l = true) (hm : s.md.mode = .active) :
    execPtpMessage l d t m s = .next (ptpIn l m (count1 (1024 + l) s)) := by
  simp [execPtpMessage, hu, Nat.not_le.2 hl, ha, he, hd, ht, hp, hm]

/-- Outside Active and Drowse a PTP message is only counted (R212). -/
theorem execPtpMessage_ignores (m : PtpMsg) (hna : s.md.mode ≠ .active) (hnd : s.md.mode ≠ .drowse) :
    execPtpMessage l d t m s = .next (count1 (1024 + l) s) := by
  simp [execPtpMessage, hu, Nat.not_le.2 hl, ha, hna, hnd]

end

/-- A one-step Sync of the selected transmitter gives an offset (R211, R212). -/
theorem ptpIn_sync {s : State} {b : PtpMaster} (hb : bestMaster s = some b) (n : Nat) :
    ptpIn b.lport (.sync b.src false n) s = steerPtp b.lport (((ptpTime s / 2 * 2 : Nat) : Int) - n) s := by
  simp [ptpIn, hb]

/-- An offset within 1 µs: a good interval, a frequency that the servo gives, and no time step (R212, R252; log 199). -/
theorem steerPtp_good (l : Nat) {d : Int} {s : State} (hlo : -1000 ≤ d - s.net.ptp.delay) (hhi : d - s.net.ptp.delay ≤ 1000) :
    steerPtp l d s = putOut ⟨l, 0, 2048, 38, 0, 0, [0], { kind := .ptpDelayReq, a := l, b := s.net.ptp.domain }⟩
      (onPtp (fun p => { p with offset := d - s.net.ptp.delay, lport := l, ns := (ptpTime (takeFree s).2 : Int) - (d - s.net.ptp.delay),
                                base := s.clk.now, freq := (((takeFree s).1.toNat % 2 ^ 20 : Nat) : Int) - 2 ^ 19, lastSync := s.clk.now,
                                good := p.good + 1, bad := 0, up := some (s.net.ptp.delay, 0) }) (takeFree s).2) := by
  have noStep : (decide (d - s.net.ptp.delay < -10000) || decide (10000 < d - s.net.ptp.delay)) = false := by
    rw [decide_eq_false (by omega), decide_eq_false (by omega)]
    rfl
  have hdelay : d - (d - s.net.ptp.delay) = s.net.ptp.delay := Int.sub_sub_self d _
  simp only [steerPtp, decide_eq_true hlo, decide_eq_true hhi, hdelay, noStep]
  rfl

/-! ## Desks and flow-table changes -/

/-- Where the condition holds, the desk goes on. -/
theorem check_pass {b : Bool} (h : b = true) (st : Nat) (s : State) (k : State → Desk) : check b st s k = k s := if_pos h

/-- An operation whose condition fails does nothing. -/
@[simp] theorem doIf_false (f : State → State) (s : State) : doIf false f s = s := rfl

/-- A packet that is taken, at a desk that withholds its reply until epochs drain (R198): the whole next state. -/
theorem letter_withheld {op n : Nat} {p : Packet} {s u : State} {desk : State → Desk}
    (ht : taken op n 0 p s = true) (hd : desk (s.arrived op p) = (stWithheld, [], u)) :
    letter op n p s desk = .next (shadowLetter op p u) := by
  rw [letter_taken ht, atDesk_withhold_eq hd]

/-- With no older epoch live and no change waiting, a change flips the epoch (R197, R199). -/
theorem submitChange_flips (c : FlowChange) {s : State} (hc : s.net.changes = []) (ho : s.net.older = []) :
    submitChange c s = (stWithheld, [], settleNet (flipNet [c] (s.onNet fun n => { n with older := dropDrained s n.older }))) := by
  have hlive : liveNet (s.onNet fun n => { n with older := dropDrained s n.older }) < 4 := by
    simp [liveNet, ho, dropDrained]
  simp [submitChange, hc, hlive]

/-! ## The obligations -/

/-- Settles O19: frames, PFC and epochs by their guards, PTP through `execPtpMessage_takes` and `steerPtp_good`. A PFC quantum is 512 bit
times (log 37); the transmitter followed, the Delay_Req for each Sync and the free frequency are log 199. -/
theorem sortingOfficeComplete : Obligations.SortingOfficeComplete := by
  refine ⟨?_, ?_, ?_, ?_, ?_, ?_, ?_, ?_, ?_, ?_, ?_, ?_, ?_, ?_, ?_⟩
  · intro s f hl hu ht
    exact execFrameReceive_enters hl hu ht
  · intro s f hl hu ht hf
    show execFrameReceive f s = _
    rw [execFrameReceive_enters hl hu ht, frameIn_badFcs hf]
  · intro s l q n hl hq hu hn ha
    show execPfcReceive l q n s = _
    simp [execPfcReceive, hu, Nat.not_le.2 hl, Nat.not_le.2 hq, ha, hn]
  · intro s l q n hl hq hu ha
    show execPfcReceive l q n s = _
    simp [execPfcReceive, hu, Nat.not_le.2 hl, Nat.not_le.2 hq, ha]
  · intro s l q t0 hp hd
    show execPfcPauseExpiry l q s = _
    simp [execPfcPauseExpiry, hp, due, hd]
  · intro s l q t0 hx hd
    show execPfcRefresh l q s = _
    simp [execPfcRefresh, hx, due, hd]
  · intro s l q n hf hu
    simp [sendPfc, hf, hu]
  · intro s
    rfl
  · intro s
    rfl
  · intro s l d t src rank hl he hd ht hp hu hm ha
    show execPtpMessage l d t (.announce src rank) s = _
    rw [execPtpMessage_takes hl hu ha _ he hd ht hp hm]
    simp [ptpIn]
  · intro s l d t src n b hl he hd ht hp hu hm ha hb hbl hbs
    show execPtpMessage l d t (.sync src false n) s = _
    rw [execPtpMessage_takes hl hu ha _ he hd ht hp hm]
    subst hbl hbs
    rw [ptpIn_sync hb]
  · intro s l d t m hl hu ha hna hnd
    exact execPtpMessage_ignores hl hu ha m hna hnd
  · intro s l d hlo hhi
    exact steerPtp_good l hlo hhi
  · intro s hg hn
    show execPtpLocked s = _
    simp [execPtpLocked, hg, hn]
  · intro s hk hb
    show execPtpUnlocked s = _
    simp [execPtpUnlocked, hk, due, hb]

/-- Settles O20: each command's desk answers OK once its parameters pass and nothing conflicts (`letter_answered`, `guardParam_pass`,
`check_pass`). A new port mode takes the port's links down (log 39); a new address tells the other reachable shelves (log 125). -/
theorem netSettingsComplete : Obligations.NetSettingsComplete := by
  refine ⟨?_, ?_, ?_, ?_, ?_, ?_, ?_, ?_⟩
  · intro s p ht hc hforce hfree
    refine letter_answered ht ?_
    simp only [deskNetSetPortMode, hforce, doIf_false]
    rw [guardParam_pass hc, check_pass (by rw [hfree]; rfl)]
    rfl
  · intro s p ht hc2 hc4 hc5 hv6 hset hclash
    refine letter_answered ht ?_
    simp only [deskNetSetPortAddr, hv6, hset]
    rw [guardParam_pass (by simp [hc2, hc4, hc5]), check_pass (by simpa using hclash)]
    rfl
  · intro s p ht hc2 hc3 hc4 hc10 hc11 ha hb hloss
    refine letter_answered ht ?_
    simp only [deskNetSetClassMap, ha, hb, if_true, Bool.false_eq_true, if_false]
    rw [guardParam_pass (by rw [hc2, hc3, hc4, hc10, hc11]; rfl), check_pass (decide_eq_true hloss)]
    rfl
  · intro s p ht hc2 hc4 hsw hk
    refine letter_answered ht ?_
    rw [deskNetSetQueue, guardParam_pass (by simp [hc2, hc4, hsw, hk])]
    rfl
  · intro s p ht hc2 hc3 hc4 hc5 hc6 hpend hpend' hdl hmir hqmin hhr hxon hsum
    refine letter_answered ht ?_
    rw [deskNetSetBuffer, guardParam_pass (by simp [hc2, hc3, hc4, hc5, hc6, hpend, hpend', hdl, hmir, hqmin, hhr, hxon]),
      check_pass (decide_eq_true hsum)]
    rfl
  · intro s p ht hc hfree
    refine letter_answered ht ?_
    rw [deskNetSetMirror, guardParam_pass hc, check_pass (by simpa using hfree)]
    rfl
  · intro s p ht hc hlo hhi
    refine letter_answered ht ?_
    rw [deskNetSetDeadLetter, guardParam_pass (by simp [hc, hlo, hhi])]
    rfl
  · intro s p ht hc htr
    refine letter_answered ht ?_
    rw [deskNetSetPtp, guardParam_pass (by simp [hc, htr])]
    rfl

/-- Settles O21: a change of the flow table flips the epoch and withholds its reply (`submitChange_flips`, `letter_withheld`); the other
desks answer at once. -/
theorem netTableAndReadCommandsComplete : Obligations.NetTableAndReadCommandsComplete := by
  refine ⟨?_, ?_, ?_, ?_, ?_, ?_, ?_, ?_⟩
  · intro s p ht hok hkey hc ho
    refine letter_withheld ht ?_
    rw [deskNetSetFlow, guardParam_pass hok, check_pass (by rw [hkey, hc]; rfl)]
    exact submitChange_flips _ hc ho
  · intro s p ht hc2 hi hhas hc ho
    refine letter_withheld ht ?_
    rw [deskNetDeleteFlow, guardParam_pass (by simp [hc2, hi]), check_pass (by rw [hhas]; rfl)]
    exact submitChange_flips _ hc ho
  · intro s p ht hc
    refine letter_answered ht ?_
    rw [deskNetGetPortStatus, guardParam_pass hc]
    rfl
  · intro s p ht hc hsw
    refine letter_answered ht ?_
    rw [deskNetGetQueue, guardParam_pass (by simp [hc, hsw])]
    rfl
  · intro s p ht hc hsw
    refine letter_answered ht ?_
    rw [deskNetFlushQueue, guardParam_pass (by simp [hc, hsw])]
    rfl
  · intro s p ht
    exact letter_answered ht rfl
  · intro s p c ht hfind
    refine letter_answered ht ?_
    simp only [deskNetReadDeadLetter, hfind]
    rfl
  · intro s p ht
    exact letter_answered ht rfl

end Sys2Proof.Machine

/-! SUPPORT. Chapter 6's schedulers, gate lists and ticks by the guards of their rows, and the QOS commands by what their desks answer.
Each obligation's proof has one case for each clause of its statement, in order. -/
namespace Sys2Proof.Machine

/-! ## Desks -/

/-- A packet with data that is taken, at a desk that answers OK: the whole next state (R839). -/
theorem letterData_answered {op n d : Nat} {p : Packet} {s u : State} {ws : List Word} {desk : State → Desk}
    (ht : taken op n d p s = true) (hd : desk (s.arrived op p) = (stOk, ws, u)) :
    letterData op n d p s desk = .next (answered op p ws u) := by
  rw [letterData_taken ht, atDesk_ok_eq hd]

/-- A desk that denies BAD_PARAM behind its parameter check answers BAD_PARAM whether the check passes or not. -/
theorem guardParam_denies {b : Bool} {s : State} {k : State → Desk} (h : b = true → k s = deny stBadParam s) :
    guardParam b s k = deny stBadParam s := by
  cases b with
  | false => rfl
  | true => exact h rfl

/-! ## A gate list that closes S0 -/

/-- A packet whose data spell an entry of a gate list has a data word count other than 0. -/
theorem gateEntries_dataCount {n d : Nat} {p : Packet} {e : Nat × Nat} (hlen : p.words.length = n + d) (he : e ∈ gateEntries (p.data n)) :
    d ≠ 0 := by
  rintro rfl
  have hnone : p.data n = [] := List.drop_of_length_le (Nat.le_of_eq hlen)
  rw [hnone] at he
  exact List.not_mem_nil he

/-- The desk denies a list with an entry that closes S0 and leaves the module, whatever else the packet holds (R244). -/
theorem deskQosSetGateList_closesS0 {p : Packet} {s : State} {e : Nat × Nat} (hd : bits 9 0 (p.w 2) ≠ 0)
    (he : e ∈ gateEntries (p.data 6)) (h0 : e.1.testBit 0 = false) : deskQosSetGateList p s = deny stBadParam s := by
  have hbad : ((gateEntries (p.data 6)).all fun e => e.1.testBit 0 && decide (1000 ≤ e.2) && decide (e.2 ≤ sec)) = false :=
    List.all_eq_false.2 ⟨e, he, by simp [h0]⟩
  rw [deskQosSetGateList]
  refine guardParam_denies fun _ => ?_
  rw [if_neg (by simp [hd])]
  exact guardParam_denies fun hok => by simp only [hbad, Bool.and_false, Bool.false_and, Bool.false_eq_true] at hok

/-! ## Gate lists -/

/-- A QPORT's change leaves the ports and PTP. -/
@[simp] theorem onQport_net (q : Nat) (f : QPort → QPort) (s : State) : (onQport q f s).net = s.net := rfl

/-- While a list governs the port, no list of its own waits to begin. -/
theorem rerunGate_running {q : Nat} {s : State} (hr : (s.qport q).gate.running = true) : rerunGate q s = s := by
  simp only [rerunGate, hr, if_true]
  split <;> rfl

/-- An awaited list replaces the running one at an aligned cycle start that is not before its change's time (R245, R246). -/
theorem beginGate_replaces {q t0 : Nat} {l : GateList} {s : State} (hr : (s.qport q).gate.running = true)
    (hf : freshStart l (ptpTime s) = some t0) (hc : (s.qport q).gate.change ≤ t0) :
    beginGate q l s = raise 192 (word q) (enterEntry q 0 t0 l (onQport q (fun p => { p with gate := { p.gate with next := none } }) s)) := by
  have hfloor : gateFloor s (s.qport q).gate ≤ t0 := by simp [gateFloor, hr]
  rw [beginGate, hf, Option.elim_some, beginGateAt, if_pos ⟨hc, hfloor⟩]

/-! ## The obligations -/

/-- Settles O59: the desk asks that every entry opens S0 before it changes anything (R244). -/
theorem gateListMustOpenS0 : Obligations.GateListMustOpenS0 := by
  intro s p e ht he h0
  obtain ⟨-, -, -, -, -, hlen⟩ := taken_parts ht
  have hmem : e ∈ gateEntries (p.data 6) := by simpa using he
  have hdeny := deskQosSetGateList_closesS0 (s := s.arrived 0x0307 p) (gateEntries_dataCount hlen hmem) hmem h0
  show letterData 0x0307 6 (bits 9 0 (p.w 2)) p s (deskQosSetGateList p) = _
  rw [letterData_taken ht, atDesk_deny_eq hdeny (by decide) (by decide) (by decide)]

/-- Settles O22: the dispatch, the transmission, the gate rows and the ticks by their guards, a list's start through `beginGate_replaces`.
A queue's turn is log 53, a start at or after the aligned cycle start log 47, the token tick log 52 and the estimate log 55. -/
theorem schedulerComplete : Obligations.SchedulerComplete := by
  refine ⟨?_, ?_, ?_, ?_, ?_, ?_, ?_, ?_⟩
  · intro s q r j hq hp
    show execSchedulerDispatch q s = _
    simp [execSchedulerDispatch, Nat.not_le.2 hq, hp]
  · intro s w q f fs hw hmay hfirst hhead
    show execFrameTransmit w q s = _
    simp only [execFrameTransmit, hmay, Nat.not_lt.2 hw, hfirst, hhead]
    rfl
  · intro s w q r j hw hmay hp hj
    show execFrameTransmit w q s = _
    simp [execFrameTransmit, hmay, hw, hp, hj]
  · intro s q l hcur hrun hhold hend hne
    show execGateEntryChange q s = _
    simp [execGateEntryChange, hcur, hrun, hhold, Nat.not_lt.2 hend, hne]
  · intro s q t0 l hlock hmode hnext hrun hfresh hchange
    show execGateListStart q s = _
    simp [execGateListStart, hlock, hmode, hnext, rerunGate_running hrun, beginGate_replaces hrun hfresh hchange]
  · intro s q l hcur hrun hhold hstep
    show execGateListRestart q s = _
    simp [execGateListRestart, hcur, hrun, hhold, hstep]
  · intro s hdue
    show execTokenTick s = _
    simp [execTokenTick, due, hdue]
  · intro s hdue
    show execRateEstimateInterval s = _
    simp [execRateEstimateInterval, due, hdue, nextEst]

/-- Settles O23: each command's desk answers OK once its parameters pass (`letter_answered`, `guardParam_pass`). A gate list set before
PTP ever locked answers START 0 (R256). -/
theorem qosCommandsComplete : Obligations.QosCommandsComplete := by
  refine ⟨?_, ?_, ?_, ?_, ?_, ?_, ?_, ?_, ?_, ?_⟩
  · intro s p ht hc2 hc36 hc7 hrates hcbs hcbs' hpbs hpbs'
    refine letter_answered ht ?_
    rw [deskQosSetPolicer, guardParam_pass (by simpa [hc2, hc7, hcbs, hcbs', hpbs, hpbs', hrates] using hc36)]
    rfl
  · intro s p ht hc2 hc3 hc4 hsub hw hcls hycls hmax hmax'
    refine letter_answered ht ?_
    simp only [deskQosSetSubscriber, Nat.ne_of_lt hsub, if_false]
    rw [guardParam_pass (by simp [hc2, hc3, hc4, Nat.le_of_lt hsub, hw, hcls, hycls, hmax, hmax'])]
    rfl
  · intro s p ht hc
    refine letter_answered ht ?_
    rw [deskQosGetPolicer, guardParam_pass hc]
    rfl
  · intro s p ht hall
    refine letter_answered ht ?_
    rw [deskQosSetColourMap, guardParam_pass hall]
    rfl
  · intro s p ht hc2 hc4 hq hstrict hitems hquantum
    refine letter_answered ht ?_
    simp only [deskQosSetNode, hstrict, hitems]
    rw [guardParam_pass (by simp [hc2, hc4, hq, hquantum])]
    simp [okay]
  · intro s p ht hc hq hb
    refine letter_answered ht ?_
    rw [deskQosSetPortShaper, guardParam_pass (by simp [hc, hq, hb])]
    rfl
  · intro s p ht hw2 hc3 hq hact hmasks hlen hents hmin hmax hlock
    have hd : bits 9 0 (p.w 2) = 4 := by rw [hw2]; rfl
    refine letterData_answered (hd ▸ ht) ?_
    have hclean : clean (mask 9 0) (p.w 2) = true := by rw [hw2]; decide
    simp only [deskQosSetGateList, hd, hact, hlock]
    rw [guardParam_pass (by simp [hclean, hc3, hq, hmasks])]
    simp only [Bool.not_true, Bool.false_and, Bool.false_eq_true, if_false]
    rw [guardParam_pass (by rw [hlen, hents]; simp [GateList.cycle, hmin, hmax])]
    simp [answer, hlock]
  · intro s p ht hc hq
    refine letter_answered ht ?_
    rw [deskQosGetGateStatus, guardParam_pass (by simp [hc, hq])]
    rfl
  · intro s p ht hc hq
    refine letter_answered ht ?_
    rw [deskQosGetNode, guardParam_pass (by simp [hc, hq])]
    rfl
  · intro s p ht hc
    refine letter_answered ht ?_
    rw [deskQosSetWatch, guardParam_pass hc]
    rfl

end Sys2Proof.Machine

/-! SUPPORT. Chapter 7's RDMA engine: where a front frame goes that comes for an engine, connection management, the packets of a READY
connection, and the XPT commands. Each obligation's proof has one case for each clause of its statement, in order. -/
namespace Sys2Proof.Machine

/-! ## A front frame that comes for an engine (R176, R178, R206, R756; log 230) -/

section
variable {l obj : Nat} {hold : Woken} {wakes : Bool} {take : State → State} {s : State}

/-- A module that does not serve its front ports, and an analysis port, only count the frame (R178, R206). -/
theorem toEngine_discards (h : servesFront s = false ∨ isAnalysis s l = true) :
    toEngine l obj hold wakes take s = count1 (1344 + l % 32) s := by
  have hdrop : (!servesFront s || isAnalysis s l) = true := by rcases h with h | h <;> simp [h]
  rw [toEngine, if_pos hdrop]

variable (hs : servesFront s = true) (ha : isAnalysis s l = false)
include hs ha

/-- After the handover of a take-over the frame goes to the new active (R756). -/
theorem toEngine_forwards (ht : s.pair.take = some .forward) : toEngine l obj hold wakes take s = forwardFrame 0 0 l 0 s := by
  rw [toEngine, if_neg (by simp [hs, ha]), ht]

/-- In the freeze of a take-over it waits (R756). -/
theorem toEngine_frozen {st : TkPhase} (ht : s.pair.take = some st) (hst : st ≠ .forward) :
    toEngine l obj hold wakes take s = { s with woken := s.woken ++ [hold] } := by
  rw [toEngine, if_neg (by simp [hs, ha]), ht]
  cases st with
  | forward => exact absurd rfl hst
  | freeze => rfl
  | released => rfl

/-- In Drowse a frame that brings no command waits, and the module goes on sleeping (R150, R178). -/
theorem toEngine_sleeps (ht : s.pair.take = none) (hm : s.md.mode = .drowse) :
    toEngine l obj hold false take s = { s with woken := s.woken ++ [hold] } := by
  rw [toEngine, if_neg (by simp [hs, ha]), ht]
  simp [hm, doIf]

end

/-! ## A bad ICRC (R260) -/

/-- The engine does nothing for a packet with a bad ICRC but count it. -/
theorem roceTake_badIcrc {h : RoceHead} (hi : h.icrcOk = false) (rc : Bool) (k : PendPkt) (s : State) :
    roceTake h rc k s = count1 2050 (count1 2048 s) := by
  simp [roceTake, hi]

/-- What becomes of a packet with a bad ICRC wherever it comes, whatever it holds: the engine counts it, or it goes where a frame goes that no
engine takes, and wakes nothing. -/
theorem exec_badIcrc {i : Instr} {h : RoceHead} {rc : Bool} {k : PendPkt} {s : State} (he : exec i s = .next (roceArrive h rc k s))
    (hi : h.icrcOk = false) :
    (engineTakes h.lport s = true → exec i s = .next (count1 2050 (count1 2048 (engineAt (h.qpn % 65536) s))))
    ∧ (servesFront s = false ∨ isAnalysis s h.lport = true → exec i s = .next (count1 (1344 + h.lport % 32) s))
    ∧ (servesFront s = true → isAnalysis s h.lport = false → s.pair.take = none → s.md.mode = .drowse →
        exec i s = .next { s with woken := s.woken ++ [.roce h rc k] })
    ∧ (servesFront s = true → isAnalysis s h.lport = false → s.pair.take = some .forward → exec i s = .next (forwardFrame 0 0 h.lport 0 s))
    ∧ (∀ st, servesFront s = true → isAnalysis s h.lport = false → s.pair.take = some st → st ≠ .forward →
        exec i s = .next { s with woken := s.woken ++ [.roce h rc k] }) := by
  rw [he, roceArrive, hi, Bool.false_and]
  refine ⟨fun ht => ?_, fun hd => ?_, fun hs ha ht hm => ?_, fun hs ha ht => ?_, fun st hs ha ht hst => ?_⟩
  · rw [toEngine_takes ht, roceTake_badIcrc hi]
  · rw [toEngine_discards hd]
  · rw [toEngine_sleeps hs ha ht hm]
  · rw [toEngine_forwards hs ha ht]
  · rw [toEngine_frozen hs ha ht hst]

/-- Settles O58: all four packets arrive by `roceArrive`, which asks for the ICRC before anything else (R260) and wakes the module for none
with a bad one; where no engine takes the packet, `toEngine` decides (R176, R178, R756; log 230). -/
theorem badIcrcIsOnlyCounted : Obligations.BadIcrcIsOnlyCounted := by
  refine ⟨?_, ?_, ?_, ?_⟩
  · intro s p hi
    exact exec_badIcrc (h := ⟨p.lport, p.qpn, p.icrcOk, p.ce, p.bytes, p.frame⟩) (k := .roce p) rfl hi
  · intro s h psn k hi
    exact exec_badIcrc (k := .ack h psn k) rfl hi
  · intro s h psn tag gen off blks last hi
    exact exec_badIcrc (k := .resp h psn tag gen off blks last) rfl hi
  · intro s h hi
    exact exec_badIcrc (k := .cnp h) rfl hi

/-! ## Connection management -/

/-- The shadow record of a packet leaves the context that a QPN names. -/
@[simp] theorem ctxOfQpn_engineAt (o qpn : Nat) (s : State) : ctxOfQpn (engineAt o s) qpn = ctxOfQpn s qpn := by
  simp only [ctxOfQpn, engineAt_ctx]

/-- A module that is Standby or Fenced does not serve its front ports (R176, R178). -/
theorem servesFront_idle {s : State} (h : s.md.mode = .standby ∨ s.md.mode = .fenced) : servesFront s = false := by
  rcases h with h | h <;> simp [servesFront, h]

/-- A need of a resident context is met at once (R370). -/
theorem withCtx_resident {c : Nat} {s : State} (h : (s.ctx c).resident = true) (f : State → State) : withCtx c f s = f s := by
  simp [withCtx, h]

/-- The context that a valid CM REQ opens with starting PSN `psn`, at number `c` (R267, R269, R277, Table 7.7). -/
def reqCtx (r : CmReq) (c psn : Nat) (s : State) : Ctx :=
  { st := .connecting, lport := r.lport, src := r.src, qid := r.qid, sqsize := r.hsq, slots := r.hrq,
    gen := if (s.ctx c).gen = 255 then 1 else (s.ctx c).gen + 1, rqpn := r.qpn, epsn := r.psn, npsn := psn, una := psn, mtu := r.mtu,
    retry := r.retry, rnrRetry := r.rnr, depth := min r.ird 64,
    rate := { rc := lineRate s r.lport, rt := lineRate s r.lport, due := s.clk.now + s.xpt.period * us }, repAt := some (s.clk.now + 100 * ms) }

/-- A REQ that passes every check of Table 7.2 takes the lowest free context and draws a REP (R266–R269). -/
theorem cmReqTake_opens {r : CmReq} {c : Nat} {s : State} (hl : s.xpt.rports.testBit r.lport = true) (hrc : r.rc = true)
    (hnew : (s.xpt.ctxs.find? fun e => !e.2.tcp && decide (e.2.rqpn = r.qpn) && decide (e.2.src = r.src) &&
      (e.2.st = .connecting || e.2.st = .ready)) = none)
    (hok : reqFail s r = none) (href : refusesHosts s = false) (hadm : connAdmits s r.src = true) (hfree : freeCtxNo s = some c) :
    cmReqTake r s = sendRep c (openCtx c (reqCtx r c ((takeFree s).1.toNat % 2 ^ 24) s) (takeFree s).2) := by
  simp only [cmReqTake, hl, hrc, hnew, hok, href, hadm, hfree]
  rfl

section
variable {qpn c : Nat} {s : State} (ht : engineTakes (s.ctx (qpn % 65536)).lport s = true) (hc : ctxOfQpn s qpn = some c)
include ht hc

/-- An RTU makes a connection in CONNECTING ready (R268). -/
theorem execCmRtu_ready (hst : (s.ctx c).st = .connecting) : execCmRtu qpn s = .next (enterReady c id (engineAt (qpn % 65536) s)) := by
  simp [execCmRtu, toEngine_takes ht, rtuTake, hc, hst]

/-- A host's DREQ is answered with a DREP and closes the connection (R272). -/
theorem execCmDreq_closes :
    execCmDreq qpn s = .next (closeCtx c false (emitCtx c none [0] { kind := .cmDrep, a := c } (engineAt (qpn % 65536) s))) := by
  simp [execCmDreq, toEngine_takes ht, dreqTake, hc]

/-- A DREP ends ERROR (R273). -/
theorem execCmDrep_releases (hst : (s.ctx c).st = .error) : execCmDrep qpn s = .next (errorToTimewait c (engineAt (qpn % 65536) s)) := by
  simp [execCmDrep, toEngine_takes ht, drepTake, hc, hst]

end

/-- The first five periods without a CNP keep the target and bring the rate halfway to it (R290, Table 7.7). -/
theorem execRatePeriod_recovers {c : Nat} {s : State} (htcp : (s.ctx c).tcp = false) (hlive : (s.ctx c).live = true)
    (hdue : (s.ctx c).rate.due ≤ s.clk.now) (hn : (s.ctx c).rate.n < 5) :
    execRatePeriod c s = .next (shadow .stateWrite 4 c (onCtx c (fun x => { x with rate := clipRate s x.lport { (s.ctx c).rate with
      alpha := (1 - 1 / ((2 ^ s.xpt.g : Nat) : Rat)) * (s.ctx c).rate.alpha, n := (s.ctx c).rate.n + 1,
      rt := min (lineRate s (s.ctx c).lport) (s.ctx c).rate.rt,
      rc := ((s.ctx c).rate.rc + min (lineRate s (s.ctx c).lport) (s.ctx c).rate.rt) / 2, due := s.clk.now + s.xpt.period * us } }) s)) := by
  have hfirst : (s.ctx c).rate.n + 1 ≤ 5 := hn
  simp only [execRatePeriod, due, htcp, hlive, hdue, hfirst]
  rfl

/-- Settles O24: the packets reach the engine by `toEngine_takes`, a REQ opens its context by `cmReqTake_opens`, and each timer acts by its
guard. The free PSN of a new context is log 7, the order of a REQ's checks log 131. -/
theorem rdmaConnectionsComplete : Obligations.RdmaConnectionsComplete := by
  refine ⟨?_, ?_, ?_, ?_, ?_, ?_, ?_, ?_, ?_, ?_, ?_, ?_⟩
  · intro s r c t ht ht' href hl hrc hnew hok hadm hfree
    show execCmReq r s = _
    rw [execCmReq, toEngine_takes (by rwa [engineTakes_count1]), ← ht', cmReqTake_opens hl hrc hnew hok href hadm hfree]
    rfl
  · intro s r ht hm
    show execCmReq r s = _
    rw [execCmReq, toEngine_discards (.inl (servesFront_idle (by simpa using hm)))]
  · intro s qpn c ht hc hst
    exact execCmRtu_ready ht hc hst
  · intro s c t hrep hdue hst hreps
    show execRepResend c s = _
    simp [execRepResend, due, hrep, hdue, hst, Nat.not_le.2 hreps]
  · intro s qpn c ht hc
    exact execCmDreq_closes ht hc
  · intro s qpn c ht hc hst
    show execCmDrep qpn s = _
    rw [execCmDrep_releases ht hc hst, errorToTimewait, engineAt_clk]
  · intro s c t hdreq hdue hst
    show execDreqTimeout c s = _
    simp [execDreqTimeout, errorToTimewait, due, hdreq, hdue, hst]
  · intro s c t hfree hdue hst
    show execTimewaitExpiry c s = _
    simp [execTimewaitExpiry, due, hfree, hdue, hst]
  · intro s c t hack hdue htcp hun hres
    show execAckCoalesceTimeout c s = _
    simp [execAckCoalesceTimeout, due, hack, hdue, htcp, hun, withCtx_resident hres]
  · intro s c t hto hdue htcp hlive hmode hres htries
    show execAckTimeout c s = _
    simp [execAckTimeout, timersAct, due, hto, hdue, htcp, hlive, hmode, withCtx_resident hres, Nat.not_le.2 htries]
  · intro s c t hresend hdue hlive hres
    show execRnrResend c s = _
    simp [execRnrResend, due, hresend, hdue, hlive, withCtx_resident hres]
  · intro s c htcp hlive hdue hn
    exact execRatePeriod_recovers htcp hlive hdue hn

/-! ## Packets of a READY connection -/

/-- Equal PSNs differ by nothing (log 130). -/
theorem psnDiff_self {n : Nat} (h : n < 2 ^ 24) : psnDiff n n = 0 := by
  rw [psnDiff, Nat.mod_eq_of_lt h, Nat.add_sub_cancel_left, Nat.mod_self]

/-- Counting a marked item for its watches leaves every context. -/
@[simp] theorem countWatch_ctx (sub col c : Nat) (s : State) : (countWatch sub col s).ctx c = s.ctx c := by
  have hq : (countWatch sub col s).quiet = s.quiet := forAll_quiet _ (fun w t => by split <;> simp) _ _
  have hx : (countWatch sub col s).quiet.xpt = s.quiet.xpt := congrArg State.xpt hq
  exact congrArg (fun x : Xpt => tabGet {} x.ctxs c) hx

/-- Marking an item leaves every context. -/
@[simp] theorem markItem_ctx (sub dscp cost c : Nat) (s : State) : (markItem sub dscp cost s).2.ctx c = s.ctx c := by
  simp only [markItem]
  split <;> rfl

/-- Context `c` is the resident one that a packet for the QPN finds; its RDMA connection is READY and holds nothing back. -/
structure ReadyFor (qpn c : Nat) (s : State) : Prop where
  number : c = qpn % 65536
  rdma : (s.ctx c).tcp = false
  gen : (s.ctx c).gen = qpn / 65536
  ready : (s.ctx c).st = .ready
  resident : (s.ctx c).resident = true
  empty : (s.ctx c).pend = []
  notHeld : (s.ctx c).tlsHeld = false

/-- The state in which a packet of context `c` is executed: it is shadowed and counted, and the context referenced (R368, R730). -/
def rdmaAt (c : Nat) (s : State) : State := onCtx c (fun x => { x with ref := true }) (count1 2048 (engineAt c s))

/-- The state in which the request packet that context `c` expects is executed: a NAK may be sent again (R277). -/
def expectedAt (c : Nat) (s : State) : State := onCtx c (fun x => { x with nakSent := false }) (rdmaAt c s)

@[simp] theorem expectedAt_qos (c : Nat) (s : State) : (expectedAt c s).qos = s.qos := by simp [expectedAt, rdmaAt]
@[simp] theorem expectedAt_store (c : Nat) (s : State) : (expectedAt c s).xpt.store = s.xpt.store := by simp [expectedAt, rdmaAt, onCtx]

namespace ReadyFor

section
variable {qpn c : Nat} {s : State} (hr : ReadyFor qpn c s)
include hr

/-- The context as it is when its packet is executed. -/
theorem ctx_rdmaAt : (rdmaAt c s).ctx c = { s.ctx c with ref := true } := by
  rw [rdmaAt, ctx_onCtx _ _ _ (by simp [hr.ready]), ctx_count1, engineAt_ctx]

theorem st_rdmaAt : ((rdmaAt c s).ctx c).st = .ready := by rw [hr.ctx_rdmaAt, ← hr.ready]

/-- The context as it is when the request packet that it expects is executed. -/
theorem ctx_expectedAt : (expectedAt c s).ctx c = { s.ctx c with ref := true, nakSent := false } := by
  rw [expectedAt, ctx_onCtx _ _ _ (by simp [hr.st_rdmaAt]), hr.ctx_rdmaAt]

theorem st_expectedAt : ((expectedAt c s).ctx c).st = .ready := by rw [hr.ctx_expectedAt, ← hr.ready]

/-- A packet of a context in READY is executed as its kind says. -/
theorem rdmaExec_ack (h : RoceHead) (psn : Nat) (a : AckKind) : rdmaExec c (.ack h psn a) (rdmaAt c s) = ackExec c h.ce psn a (rdmaAt c s) := by
  simp [rdmaExec, hr.st_rdmaAt]
theorem rdmaExec_resp (h : RoceHead) (psn tag gen off : Nat) (blks : List HBlk) (last : Bool) :
    rdmaExec c (.resp h psn tag gen off blks last) (rdmaAt c s) = respExec c h.ce psn tag gen off blks last (rdmaAt c s) := by
  simp [rdmaExec, hr.st_rdmaAt]
theorem rdmaExec_cnp (h : RoceHead) : rdmaExec c (.cnp h) (rdmaAt c s) = cnpExec c (markCe c h.ce (rdmaAt c s)) := by
  simp [rdmaExec, hr.st_rdmaAt]
theorem rdmaExec_roce (p : RocePkt) : rdmaExec c (.roce p) (rdmaAt c s) = roceExec c p (rdmaAt c s) := by
  simp [rdmaExec, hr.st_rdmaAt]

section
variable {p : RocePkt} (hpsn : (s.ctx c).epsn = p.psn)
include hpsn

theorem epsn_rdmaAt : p.psn = ((rdmaAt c s).ctx c).epsn := by rw [hr.ctx_rdmaAt, ← hpsn]

variable (hlt : p.psn < 2 ^ 24)
include hlt

theorem psnDiff_expectedAt : psnDiff p.psn ((expectedAt c s).ctx c).epsn = 0 := by rw [hr.ctx_expectedAt, hpsn, psnDiff_self hlt]

variable (hce : p.ce = false)
include hce

/-- The request packet that is expected, and targets no region, is executed (R277). -/
theorem roceExec_expected (hop : p.op.onRegion = false) : roceExec c p (rdmaAt c s) = roceInSeq c p (expectedAt c s) := by
  have hgreen : (0 : Nat) ≠ 2 := by decide
  simp only [roceExec, hce, markCe_off, if_pos (hr.epsn_rdmaAt hpsn), hop, Bool.false_eq_true, if_false, ← expectedAt.eq_def,
    if_neg hgreen, if_pos (hr.psnDiff_expectedAt hpsn hlt)]

/-- One that targets a region is policed first, and executed where it is not red (R277, R313). -/
theorem roceExec_policed (hop : p.op.onRegion = true)
    (hcol : (mark (s.sub (s.ctx c).sub) (colourOf s p.dscp) p.bytes).1 ≠ 2) :
    roceExec c p (rdmaAt c s) = roceInSeq c p (countWatch (s.ctx c).sub (mark (s.sub (s.ctx c).sub) (colourOf s p.dscp) p.bytes).1
      (markItem (s.ctx c).sub p.dscp p.bytes (expectedAt c s)).2) := by
  have hsub : ((expectedAt c s).ctx c).sub = (s.ctx c).sub := by rw [hr.ctx_expectedAt]
  have hmark : (markItem (s.ctx c).sub p.dscp p.bytes (expectedAt c s)).1 = (mark (s.sub (s.ctx c).sub) (colourOf s p.dscp) p.bytes).1 := by
    simp only [markItem, colourOf, State.sub, expectedAt_qos]
  simp only [roceExec, hce, markCe_off, if_pos (hr.epsn_rdmaAt hpsn), hop, if_true, ← expectedAt.eq_def, markItem_ctx, countWatch_ctx,
    hsub, hmark, if_neg hcol, if_pos (hr.psnDiff_expectedAt hpsn hlt)]

end

end

/-- A packet of such a connection is executed as it comes (R260, R264, R370). -/
theorem roceArrive_executes {h : RoceHead} {c : Nat} {s : State} (hr : ReadyFor h.qpn c s) (k : PendPkt)
    (ht : engineTakes h.lport s = true) (hi : h.icrcOk = true) : roceArrive h true k s = rdmaExec c k (rdmaAt c s) := by
  have hexec : rdmaNow c k (rdmaAt c s) = rdmaExec c k (rdmaAt c s) := by
    rw [rdmaNow.eq_def, if_neg (by simp [hr.st_rdmaAt])]
  obtain ⟨rfl, hrdma, hgen, hready, hres, hempty, hheld⟩ := hr
  rw [roceArrive, toEngine_takes ht, ← hexec]
  simp [roceTake, packetFor, rdmaAt, hi, hrdma, hgen, hready, hres, hempty, hheld]

/-- So is a request packet. -/
theorem execRoceRequestPacket_executes {p : RocePkt} {c : Nat} {s : State} (hr : ReadyFor p.qpn c s)
    (ht : engineTakes p.lport s = true) (hi : p.icrcOk = true) (hrc : p.rc = true) :
    execRoceRequestPacket p s = .next (roceExec c p (rdmaAt c s)) := by
  rw [execRoceRequestPacket, hrc, roceArrive_executes (h := ⟨p.lport, p.qpn, p.icrcOk, p.ce, p.bytes, p.frame⟩) hr _ ht hi, hr.rdmaExec_roce]

end ReadyFor

/-- A SEND Only packet of a legal length is stored where the store has room, and counts as a request packet taken (R277, R278, R280). -/
theorem roceInSeq_send {c bytes : Nat} {p : RocePkt} {s : State} (hop : p.op = .send .only bytes) (hst : (s.ctx c).st = .ready)
    (hlo : 64 ≤ bytes) (hhi : bytes ≤ 8256) (hroom : sumNat (s.xpt.store.map (·.2)) + bytes ≤ 4194304) :
    roceInSeq c p s = tookPkt c 1 true p.ackReq (s.onXpt fun d => { d with store := d.store ++ [(c, bytes)] }) := by
  simp [roceInSeq, hop, hst, Part.ends, Nat.not_lt.2 hlo, Nat.not_lt.2 hhi, Nat.not_lt.2 hroom]

/-- An RDMA WRITE Only packet writes its whole range once the region's checks pass (R311, R314). -/
theorem roceInSeq_writeOnly {c rkey off len : Nat} {data : List (BitVec 64)} {p : RocePkt} {s : State}
    (hop : p.op = .write .only rkey off len data) :
    roceInSeq c p s = regionOp c rkey off len off len 1 (fun t => tookPkt c 1 true p.ackReq (onCtx c (fun x => { x with inWrite := none })
      (if len = 0 then t else doWrite c p.psn rkey off len data (some (off, len)) t))) s := by
  simp [roceInSeq, hop]

/-- Settles O25: a packet of a READY connection is executed as it comes (`ReadyFor.roceArrive_executes`), a request packet by its opcode
once it is the one expected and, where it targets a region, not red. -/
theorem rdmaPacketsComplete : Obligations.RdmaPacketsComplete := by
  refine ⟨?_, ?_, ?_, ?_, ?_⟩
  · intro s p c bytes a ht hi hrc hce hc htcp hgen hst hres hpend htls hpsn hlt hop hlo hhi hroom ha
    have hr : ReadyFor p.qpn c s := ⟨hc, htcp, hgen, hst, hres, hpend, htls⟩
    obtain rfl : a = expectedAt c s := ha
    show execRoceRequestPacket p s = _
    rw [hr.execRoceRequestPacket_executes ht hi hrc, hr.roceExec_expected hpsn hlt hce (by rw [hop]; rfl),
      roceInSeq_send hop hr.st_expectedAt hlo hhi (by rwa [expectedAt_store])]
  · intro s p c rkey off len data a ht hi hrc hce hc htcp hgen hst hres hpend htls hpsn hlt hop hcol ha
    have hr : ReadyFor p.qpn c s := ⟨hc, htcp, hgen, hst, hres, hpend, htls⟩
    obtain rfl : a = expectedAt c s := ha
    show execRoceRequestPacket p s = _
    rw [hr.execRoceRequestPacket_executes ht hi hrc, hr.roceExec_policed hpsn hlt hce (by rw [hop]; rfl) hcol, roceInSeq_writeOnly hop]
  · intro s h c psn ht hi hce hc htcp hgen hst hres hpend htls
    have hr : ReadyFor h.qpn c s := ⟨hc, htcp, hgen, hst, hres, hpend, htls⟩
    show execRoceAckReceive h psn .ack s = _
    rw [execRoceAckReceive, hr.roceArrive_executes _ ht hi, hr.rdmaExec_ack, hce, ackExec, markCe_off]
    rfl
  · intro s h c psn tag gen off blks last ht hi hce hc htcp hgen hst hres hpend htls
    have hr : ReadyFor h.qpn c s := ⟨hc, htcp, hgen, hst, hres, hpend, htls⟩
    show execRoceReadResponse h psn tag gen off blks last s = _
    rw [execRoceReadResponse, hr.roceArrive_executes _ ht hi, hr.rdmaExec_resp, hce]
    rfl
  · intro s h c ht hi hc htcp hgen hst hres hpend htls
    have hr : ReadyFor h.qpn c s := ⟨hc, htcp, hgen, hst, hres, hpend, htls⟩
    show execRoceCnpReceive h s = _
    rw [execRoceCnpReceive, hr.roceArrive_executes _ ht hi, hr.rdmaExec_cnp]
    rfl

/-! ## The XPT commands -/

/-- A region that is not the Tally region is the table's (R325). -/
theorem region_of_lt {i : Nat} (h : i < 4096) (s : State) : s.region i = tabFind s.xpt.regions i := by
  rw [State.region, if_neg (Nat.ne_of_lt h)]

/-- Settles O26: each command's desk answers OK once its parameters pass and nothing conflicts (`letter_answered`, `guardParam_pass`,
`check_pass`). A region's key tag is a free value (log 7); new ports tell the other reachable shelves (log 125). -/
theorem rdmaCommandsComplete : Obligations.RdmaCommandsComplete := by
  refine ⟨?_, ?_, ?_, ?_, ?_, ?_, ?_, ?_, ?_, ?_⟩
  · intro s p ht hc hsvc hclash hhit
    refine letter_answered ht ?_
    simp only [deskXptSetRdmaPorts, if_neg hsvc]
    rw [guardParam_pass hc, check_pass (by rw [hclash]; rfl), hhit]
    rfl
  · intro s p ht hc2 hc3 hrnrt hgap hg hrai hrhai hrmin hperiod
    refine letter_answered ht ?_
    rw [deskXptSetRdmaParams, guardParam_pass (by simp [hc2, hc3, hrnrt, hgap, hg, hrai, hrhai, hrmin, hperiod])]
    rfl
  · intro s p ht hc
    refine letter_answered ht ?_
    rw [deskXptSetRelease, guardParam_pass hc]
    rfl
  · intro s p ht hc
    refine letter_answered ht ?_
    simp only [deskXptGetConnection]
    rw [guardParam_pass hc]
    split <;> rfl
  · intro s p ht hc hst
    refine letter_answered ht ?_
    simp only [deskXptCloseConnection]
    rw [guardParam_pass hc, check_pass (by rw [hst]; rfl), hst]
    rfl
  · intro s p ht hc2 hc3 hlo hhi hnew hroom
    refine letter_answered ht ?_
    simp only [deskXptCreateRegion]
    rw [guardParam_pass (by simp [hc2, hc3, hlo, hhi]), check_pass (by rw [hnew]; rfl), check_pass (decide_eq_true hroom)]
    rfl
  · intro s p r ht hc hfind hgrants
    refine letter_answered ht ?_
    simp only [deskXptDeleteRegion]
    rw [guardParam_pass hc, hfind]
    exact check_pass (by simpa using hgrants) _ _ _
  · intro s p r ht hc2 hc3 hi hfind
    refine letter_answered ht ?_
    simp only [deskXptGrantRegion]
    rw [guardParam_pass (by simp [hc2, hc3, Nat.le_of_lt hi, Nat.ne_of_lt hi]), region_of_lt hi, hfind]
    rfl
  · intro s p r ht hc hi hfind
    refine letter_answered ht ?_
    simp only [deskXptRekeyRegion]
    rw [guardParam_pass (by simp [hc, Nat.le_of_lt hi]), region_of_lt hi, hfind]
    rfl
  · intro s p ht hc hi
    refine letter_answered ht ?_
    simp only [deskXptGetRegion]
    rw [guardParam_pass (by simp [hc, hi])]
    split <;> rfl

end Sys2Proof.Machine

/-! SUPPORT. Chapter 8's TCP engine and the Pigeonhole cache: the SYN table, the segments of a READY connection, the timers, TLS, the fills
and evictions of contexts, and the XPT commands of the pool and of TCP. Each obligation's proof has one case for each clause of its
statement, in order. -/
namespace Sys2Proof.Machine

/-! ## The SYN table (R340–R342) -/

/-- The SYN table entry that a SYN of a new connection takes, with an initial sequence number that is a free value (R340, Table 8.1). -/
def synEnt (f : SynIn) (s : State) : SynEnt :=
  { src := f.src, rport := f.rport, lport := f.lport, dport := f.dport, v6 := f.v6, dst := f.dst, vid := f.vid, tagged := f.tagged,
    tls := decide (f.dport = s.xpt.tlsPort), mss := f.mss, ecn := f.ecn && s.xpt.ecn, wnd := f.wnd, scale := f.scale, ts := f.ts,
    own := s.xpt.mtu - (if f.v6 then 60 else 40), isn := (takeFree s).1.toNat % 2 ^ 32, irs := f.seq % 2 ^ 32, tries := 0,
    dueAt := s.clk.now + sec }

/-- A SYN of a new connection to a listener takes the lowest free entry and draws a SYN-ACK. -/
theorem synTake_enters {f : SynIn} {i : Nat} {s t : State} (ht : t = count1 2080 s) (hlisten : listens t f = true)
    (href : refusesHosts t = false)
    (hheld : managerHolds t ⟨false, f.v6, f.src, f.dst, f.rport, f.dport, 6, f.vid, f.tagged, f.lport⟩ = false)
    (hnew : (t.xpt.syns.find? fun e => decide (e.2.src = f.src) && decide (e.2.rport = f.rport) && decide (e.2.dst = f.dst) &&
      decide (e.2.dport = f.dport) && decide (e.2.lport = f.lport)) = none)
    (hfree : tabFree t.xpt.syns 0 8192 = some i) :
    synTake f s = sendSynAck i (synEnt f t) ((takeFree t).2.onXpt fun x => { x with syns := tabIns x.syns i (synEnt f t) }) := by
  subst ht
  simp only [synTake, hlisten, href, hheld, hnew, hfree]
  rfl

/-- The final ACK of a plain connection that is admitted takes the lowest free context, and its flow entry is installed. -/
theorem synDoneTake_opens {i c : Nat} {e : SynEnt} {s t : State} (ht : t = freeSyn i (count1 2080 s)) (hfind : tabFind s.xpt.syns i = some e)
    (hplain : e.tls = false) (href : refusesHosts t = false) (hheld : managerHolds t e.key = false) (hadm : connAdmits t e.src = true)
    (hfree : freeCtxNo t = some c) :
    synDoneTake i s = (openCtx c { tcpCtx e t with gen := (t.ctx c).gen } t).onNet fun n =>
      { n with flows := putFlow n.flows { key := e.key, action := 0, target := 37, mirror := none, ctx := some c } } := by
  subst ht
  have hcounted : tabFind (count1 2080 s).xpt.syns i = some e := by rw [count1_xpt, hfind]
  simp only [synDoneTake, hcounted, hplain, href, hheld, hadm, hfree]
  rfl

/-! ## Packets of a READY connection (R344, R345, R349) -/

/-- Context `c` holds a resident TCP connection in READY that holds nothing back. -/
structure TcpReady (c : Nat) (s : State) : Prop where
  tcp : (s.ctx c).tcp = true
  ready : (s.ctx c).st = .ready
  resident : (s.ctx c).resident = true
  empty : (s.ctx c).pend = []
  notHeld : (s.ctx c).tlsHeld = false

/-- The state in which a TCP packet of context `c` is executed: it is shadowed and counted, and the context referenced (R368, R730). -/
def tcpAt (c : Nat) (s : State) : State := onCtx c (fun x => { x with ref := true }) (count1 2080 (engineAt c s))

namespace TcpReady

variable {c : Nat} {s : State} (hr : TcpReady c s)
include hr

/-- The context as it is when its packet is executed. -/
theorem ctx_tcpAt : (tcpAt c s).ctx c = { s.ctx c with ref := true } := by
  rw [tcpAt, ctx_onCtx _ _ _ (by simp [hr.ready]), ctx_count1, engineAt_ctx]

/-- A packet of such a connection is executed as it comes (R264, R370). -/
theorem tcpArrive_executes {lport : Nat} (ht : engineTakes lport s = true) (bytes : Nat) (isRst : Bool) (k : PendPkt) :
    tcpArrive c lport bytes isRst k s = packetNow c k (tcpAt c s) := by
  rw [tcpArrive, toEngine_takes ht]
  simp [tcpTake, packetFor, tcpAt, hr.tcp, hr.ready, hr.resident, hr.empty, hr.notHeld]

/-- It is executed as its kind says. -/
theorem packetNow_tcp (p : TcpSeg) : packetNow c (.tcp p) (tcpAt c s) = segExec c p (tcpAt c s) := by
  simp [packetNow, Ctx.live, hr.ctx_tcpAt, hr.tcp, hr.ready]
theorem packetNow_fin (q : Nat) (f : List Word) : packetNow c (.fin q f) (tcpAt c s) = finExec c q (tcpAt c s) := by
  simp [packetNow, Ctx.live, hr.ctx_tcpAt, hr.tcp, hr.ready]
theorem packetNow_rst (q : Nat) (f : List Word) : packetNow c (.rst q f) (tcpAt c s) = rstExec c q (tcpAt c s) := by
  simp [packetNow, Ctx.live, hr.ctx_tcpAt, hr.tcp, hr.ready]

end TcpReady

/-- The context once a segment's timestamp is noted: that of one at or before RCV.NXT (RFC 7323). -/
def noteStamp (p : TcpSeg) (x : Ctx) : Ctx :=
  match x.tsOn, p.ts with
  | true, some (v, _) => if reached32 x.rcvNxt p.seq then { x with tsRec := v % 2 ^ 32 } else x
  | _, _ => x

/-- The state once a segment's timestamp is noted and its acknowledgement taken. -/
def ackedAt (c : Nat) (p : TcpSeg) (s : State) : State := tcpAckIn c p (onCtx c (noteStamp p) s)

/-- A segment that is not stale, and begins at RCV.NXT, is taken in sequence (R344). -/
theorem segExec_inSeq {c : Nat} {p : TcpSeg} {s : State} (hfresh : staleSeg (s.ctx c) p = false)
    (hseq : ((ackedAt c p s).ctx c).rcvNxt = p.seq) : segExec c p s = segInSeq c p (ackedAt c p s) := by
  have hahead : (p.seq + 2 ^ 32 - ((ackedAt c p s).ctx c).rcvNxt) % 2 ^ 32 = 0 := by rw [hseq, Nat.add_sub_cancel_left, Nat.mod_self]
  rw [segExec, if_neg (by simp [hfresh])]
  exact if_pos hahead

/-- A FIN in sequence is acknowledged and closes the connection (R349). -/
theorem finExec_inSeq {c seq : Nat} {s : State} (hseq : seq = (s.ctx c).rcvNxt) :
    finExec c seq s = closeCtx c true (sendTcpAck c false (onCtx c (fun x => { x with rcvNxt := (x.rcvNxt + 1) % 2 ^ 32 }) s)) :=
  if_neg (fun hne => hne hseq)

/-- A RST whose number lies in the receive window ends the connection (R349; log 139). -/
theorem rstExec_inWindow {c seq : Nat} {s : State} (hlo : (s.ctx c).rcvNxt ≤ seq)
    (hhi : seq < (s.ctx c).rcvNxt + (s.ctx c).rwin * 1024) (hlt : seq < 2 ^ 32) : rstExec c seq s = ctxError c 2 s := by
  have hoff : (seq + 2 ^ 32 - (s.ctx c).rcvNxt) % 2 ^ 32 < max 1 ((s.ctx c).rwin * 1024) := by omega
  exact if_pos hoff

/-- Settles O27: the SYN and the final ACK reach the table by `toEngine_takes`, a packet of a READY connection is executed as it comes
(`TcpReady.tcpArrive_executes`), and each timer and each of Kumel's results acts by its guard. The retransmission timeout's windows are
log 138, the window of a RST is log 139. -/
theorem tcpComplete : Obligations.TcpComplete := by
  refine ⟨?_, ?_, ?_, ?_, ?_, ?_, ?_, ?_, ?_, ?_, ?_, ?_, ?_, ?_⟩
  · intro s f i t e ht htaken href hlisten hheld hnew hfree he
    obtain rfl : e = synEnt f t := he
    show execTcpSyn f s = _
    rw [execTcpSyn, toEngine_takes ht, synTake_enters htaken hlisten href hheld hnew hfree]
  · intro s i e hfind htries hdue
    show execSynackResend i s = _
    simp [execSynackResend, due, hfind, htries, hdue]
  · intro s i e hfind htries hdue
    show execSynEntryExpiry i s = _
    simp [execSynEntryExpiry, due, hfind, htries, hdue, freeSyn]
  · intro s i c e t hfind ht htaken hplain href hheld hadm hfree
    show execTcpHandshakeAck i s = _
    simp only [execTcpHandshakeAck, hfind]
    rw [toEngine_takes ht, synDoneTake_opens htaken (by rw [engineAt_xpt, hfind]) hplain href hheld hadm hfree]
  · intro s p x ht hx htcp hst hres hpend htls
    subst hx
    have hr : TcpReady p.ctx s := ⟨htcp, hst, hres, hpend, htls⟩
    show execTcpSegment p s = _
    rw [execTcpSegment, hr.tcpArrive_executes ht, hr.packetNow_tcp]
    rfl
  · intro s u p hfresh hu hseq hlt
    obtain rfl : u = ackedAt p.ctx p s := hu
    exact segExec_inSeq hfresh hseq
  · intro s c x f ht hx htcp hst hres hpend htls
    subst hx
    have hr : TcpReady c s := ⟨htcp, hst, hres, hpend, htls⟩
    show execTcpFin c (s.ctx c).rcvNxt f s = _
    rw [execTcpFin, hr.tcpArrive_executes ht, hr.packetNow_fin, finExec_inSeq (by rw [hr.ctx_tcpAt])]
    rfl
  · intro s c seq x f ht hx htcp hst hres hpend htls hlo hhi hlt
    subst hx
    have hr : TcpReady c s := ⟨htcp, hst, hres, hpend, htls⟩
    show execTcpRst c seq f s = _
    rw [execTcpRst, hr.tcpArrive_executes ht, hr.packetNow_rst, rstExec_inWindow (by rwa [hr.ctx_tcpAt]) (by rwa [hr.ctx_tcpAt]) hlt]
    rfl
  · intro s c t hack hdue htcp hlive hres
    show execTcpAckTimer c s = _
    simp [execTcpAckTimer, due, hack, hdue, htcp, hlive, withCtx_resident hres]
  · intro s c t hto hdue htcp hlive hmode hres htries
    show execTcpRto c s = _
    simp [execTcpRto, timersAct, due, hto, hdue, htcp, hlive, hmode, withCtx_resident hres, Nat.not_le.2 htries]
  · intro s c t hic hdue hst hmode hres
    show execIcreqTimeout c s = _
    simp [execIcreqTimeout, timersAct, due, hic, hdue, hst, hmode, withCtx_resident hres]
  · intro s c t htls hdue hst hmode hres
    show execTlsHandshakeTimeout c s = _
    simp [execTlsHandshakeTimeout, timersAct, due, htls, hdue, hst, hmode, withCtx_resident hres]
  · intro s c g rx tx hn sn hkumel hst hrun hres hok
    show execTlsHandshakeDone c true g rx tx hn sn s = _
    simp only [execTlsHandshakeDone, hkumel, hst, hrun, withCtx_resident hres, hok]
    rfl
  · intro s c hkumel hheld hres
    show execKeyupdateInstalled c s = _
    simp [execKeyupdateInstalled, hkumel, hheld, withCtx_resident hres]

/-! ## The Pigeonhole cache (R300, R306, R367–R372) -/

/-- While fewer than 256 fills are in flight, the queued fill starts where a cache slot waits for its record, 100 ns after the last (R371). -/
theorem execContextFillStart_starts {c : Nat} {cs : List Nat} {s : State} (hq : s.xpt.fillq = c :: cs)
    (hflying : tabCount s.xpt.ctxs (fun _ x => x.fill = 2) < 256)
    (hslot : residents s + tabCount s.xpt.ctxs (fun _ x => x.fill = 2) < 8192)
    (hgap : s.xpt.fillAt.all (fun t => decide (t + 100 ≤ s.clk.now)) = true) :
    execContextFillStart s = .next (count1 2097 (onCtx c (fun x => { x with fill := 2 })
      (s.onXpt fun x => { x with fillq := cs, fillAt := some s.clk.now }))) := by
  have hwaited : s.xpt.fillAt.any (fun t => decide (s.clk.now < t + 100)) = false := by
    cases hlast : s.xpt.fillAt with
    | none => rfl
    | some t => simpa [hlast] using hgap
  simp [execContextFillStart, hq, hwaited, Nat.not_le.2 hflying, Nat.not_le.2 hslot]

/-- A released completion of a resident TCP connection leaves once it is postmarked: its capsule carries the header digest that the
connection negotiated, which taking it off the list does not change (R300, R306). -/
theorem execCompletionRelease_sends {c : Nat} {h : Held} {hs : List Held} {s : State} (hnext : (s.ctx c).ready = h :: hs)
    (hst : (s.ctx c).st = .ready) (hmark : s.marked h.seq = true) (hres : (s.ctx c).resident = true) (htcp : (s.ctx c).tcp = true) :
    execCompletionRelease c s = .next (tcpSend c (pduBytes (s.ctx c) 24 0) h.cls
      { kind := .capsuleResp, a := c, b := h.cid,
        ws := [word h.dw0, word (h.inv.getD 0), flag 0 h.inv.isSome ||| flag 1 h.dnr, word (h.dw0 / 2 ^ 32)], ds := [h.status.ctorIdx] }
      (onCtx c (fun x => { x with ready := hs }) s)) := by
  have hctx : (onCtx c (fun x => { x with ready := hs }) s).ctx c = { s.ctx c with ready := hs } := ctx_onCtx _ _ _ (by simp [hst])
  simp only [execCompletionRelease, hnext, hst, hmark, hres, hctx, htcp]
  rfl

/-- Settles O28: the fill, the eviction and the completion by their guards; each command's desk answers OK once its parameters pass and
nothing conflicts (`letter_answered`, `guardParam_pass`, `check_pass`). New TCP ports tell the other reachable shelves (log 125). -/
theorem pigeonholeComplete : Obligations.PigeonholeComplete := by
  refine ⟨?_, ?_, ?_, ?_, ?_, ?_, ?_, ?_, ?_⟩
  · intro s c cs hq hflying hslot hgap
    exact execContextFillStart_starts hq hflying hslot hgap
  · intro s c hfill
    show execContextFillDone c false s = _
    simp [execContextFillDone, hfill]
  · intro s hfew
    have hbelow : 8192 - residents s < 64 := by omega
    show execContextEvict s = _
    rw [execContextEvict, if_pos hbelow]
  · intro s c h hs hnext hst hmark hres htcp
    exact execCompletionRelease_sends hnext hst hmark hres htcp
  · intro s p ht hc hport htls hne hnotls hclash hnone
    refine letter_answered ht ?_
    simp only [deskXptSetTcpPorts, if_neg hport, if_neg htls]
    rw [guardParam_pass (by simp [hc, hne, hnotls]), check_pass (by rw [hclash]; rfl), hnone]
    rfl
  · intro s p ht hc2 hc4 hmtu hmtu' hwin hwin' hrto hrto' hmax hmax' hn hn' hh hh'
    refine letter_answered ht ?_
    simp only [deskXptSetTcpParams]
    rw [guardParam_pass (by simp [hc2, hc4, hmtu, hmtu', hwin, hwin', hrto, hrto', hmax, hmax', hn, hn', hh, hh'])]
    rfl
  · intro s p ht hc hg
    refine letter_answered ht ?_
    simp only [deskXptSetTls]
    rw [guardParam_pass (by simp [hc, hg])]
    rfl
  · intro s p ht hc2 hc3 hpin hset hlo hhi
    refine letter_answered ht ?_
    simp only [deskXptSetPool]
    rw [guardParam_pass (by simp [hc2, hc3, hlo, hhi]), check_pass (by rw [hpin]; rfl), hpin, hset]
    rfl
  · intro s p ht
    exact letter_answered ht rfl

end Sys2Proof.Machine

/-! SUPPORT. Chapter 9's target: I/O commands from their arrival to data done, the fabrics and admin commands of hosts by what they run once
the common checks pass, and the NVM commands of the Letterbox by what their desks answer. Each obligation's proof has one case for each
clause of its statement, in order. -/
namespace Sys2Proof.Machine

/-! ## I/O commands (R220, R221, R413, R415) -/

/-- A command marked green or yellow, ahead of which none waits, is started in its class where its subscriber has a tag. -/
theorem police_starts {h : HostCmd} {u col : Nat} {s b : State} (hu : u = (s.ctx h.a.ctx).sub) (hfirst : (s.sub u).queue = [])
    (hmark : markItem u h.a.dscp (costOf s h (s.sub u)) s = (col, b)) (hcol : col < 2) (htag : tagFree (countWatch u col b) u = true)
    (hnone : ((countWatch u col b).sub u).queue = []) :
    police h s = startCmd h u (classOf (s.sub u) col) (countWatch u col b) := by
  subst hu
  simp [police, startOrWait, hfirst, hmark, hcol, htag, hnone]

/-- So is one that comes, once it passes the checks at its arrival (R397, R411). -/
theorem exec_ioStarts {i : Instr} {op : IoOp} {c : IoCmd} {u col : Nat} {s b : State} (he : exec i s = .next (arriveCmd op c s))
    (ht : ioTakes c s = true) (hu : u = ((adminAt c.ctx s).ctx c.ctx).sub) (hfirst : ((adminAt c.ctx s).sub u).queue = [])
    (hmark : markItem u c.dscp (costOf (adminAt c.ctx s) ⟨op, c⟩ ((adminAt c.ctx s).sub u)) (adminAt c.ctx s) = (col, b))
    (hcol : col < 2) (htag : tagFree (countWatch u col b) u = true) (hnone : ((countWatch u col b).sub u).queue = []) :
    exec i s = .next (startCmd ⟨op, c⟩ u (classOf ((adminAt c.ctx s).sub u) col) (countWatch u col b)) := by
  rw [he, arriveCmd_takes ht, police_starts hu hfirst hmark hcol htag hnone]

/-- A fill of a map line that the cache has room for puts the line in, and the starts that waited for it go on (R488). -/
theorem execMapFillDone_fits {l : Nat} {s : State} (hfill : tabHas s.vol.fills l = true) (hroom : s.vol.lines.length < 2048) :
    execMapFillDone l s = .next (settleCmds
      ((s.onVol fun v => { v with lines := tabIns v.lines l true, fills := tabDel v.fills l }).onNvm fun n =>
        { n with tags := tabMap n.tags fun _ c => { c with lines := c.lines.erase l } })) := by
  simp [execMapFillDone, State.onVol, hfill, hroom]

/-- Write data that is not the last of its command enters the buffer and is counted (R417, R520). -/
theorem arriveData_more {t off : Nat} {hs : List HBlk} {c : Cmd} {n : Ns} {s a : State} (hcmd : s.cmdOf t = some c) (hrun : c.phase = .run)
    (hmore : hs.length < c.left) (hop : c.cmd.op = .write) (hns : s.nsOf c.cmd.a.nsid = some n)
    (henter : arriveBlks t c n off hs s = some a) :
    arriveData t c.gen off hs s = onCmd t (fun c => { c with left := c.left - hs.length, moved := true })
      (count 2571 (hs.length * nsBlkBytes n) a) := by
  simp [arriveData, hcmd, hrun, Nat.not_lt.2 (Nat.le_of_lt hmore), Nat.ne_of_gt (Nat.zero_lt_of_lt hmore), Nat.ne_of_gt hmore, hns, henter,
    hop, doIf]

/-- Data done of a command without reservation ends it once its data is handed on and the pace of acknowledgements allows it
(R18, R302; log 249). -/
theorem execDataDone_ends {t : Nat} {c : Cmd} {s : State} (hcmd : s.cmdOf t = some c) (hready : c.ready = true) (hmark : s.marked c.seq = true)
    (hres : (s.ctx c.cmd.a.ctx).resident = true) (hop : isResv c.cmd.op = false)
    (hdata : dataHanded s c.cmd.a.ctx (t, c.gen) c.cmd.a.cid = true) (hpace : ackedWrite c = false ∨ s.wbf.ackAt ≤ s.clk.now) :
    execDataDone t c.gen s = .next (settleCmds (endCmd t
      (doIf (ackedWrite c) (paceAck (c.cmd.a.nlb * s.blkOf c.cmd.a.nsid)) s))) := by
  have hgo : (ackedWrite c && !due s.wbf.ackAt s.clk.now) = false := by rcases hpace with h | h <;> simp [due, h]
  simp [execDataDone, hcmd, hready, hmark, hres, hop, hdata, hgo]

/-- An Abort of a command that waits in a deferral queue drops it (R421, Table 9.9). -/
theorem execAbortRequestAtTag_drops {ctx cid sq acid c : Nat} {k : Ctrl} {s : State} (hctrl : ctrlOf s ctx = some k)
    (hout : (k.aborts.find? fun a => a.1 = ctx && a.2.1 = cid) = some (ctx, cid, sq, acid))
    (hqueue : (s.xpt.ctxs.find? fun e => e.2.ctrl = (s.ctx ctx).ctrl && e.2.qid = sq && e.2.st = .ready).map (·.1) = some c)
    (hwaits : (s.qos.subs.any fun e => e.2.queue.any fun d => decide (d.cmd.a.ctx = c) && decide (d.cmd.a.cid = acid)) = true) :
    execAbortRequestAtTag ctx cid s = .next (endAbort ctx cid false
      (dropDeferred (fun h => decide (h.a.ctx = c) && decide (h.a.cid = acid)) (some .abortRequested) s)) := by
  simp only [execAbortRequestAtTag, hctrl, Option.bind_some, hout, hqueue, hwaits, if_true]

/-- Settles O29: a command that comes is started by `exec_ioStarts`, for each of the twelve opcodes; the later events of a command act by
their guards. The pace of acknowledged writes is log 249. -/
theorem nvmeIoComplete : Obligations.NvmeIoComplete := by
  iterate 12 refine ⟨fun _ _ _ _ _ => exec_ioStarts rfl, ?_⟩
  refine ⟨?_, ?_, ?_, ?_, ?_, ?_⟩
  · intro s u
    rfl
  · intro s t ts hspace
    show execSpaceQueueClaim s = _
    rw [execSpaceQueueClaim, hspace]
  · intro s l hfill hroom
    exact execMapFillDone_fits hfill hroom
  · intro s a t off hs c n hhome hcmd hrun hmore hop hns henter
    show execWriteDataArrival t c.gen off hs s = _
    rw [execWriteDataArrival, hhome, arriveData_more hcmd hrun hmore hop hns henter]
  · intro s t c hcmd hready hmark hres hop hdata hpace
    exact execDataDone_ends hcmd hready hmark hres hop hdata hpace
  · intro s ctx cid k c acid sq hctrl hout hqueue hwaits
    exact execAbortRequestAtTag_drops hctrl hout hqueue hwaits

/-! ## Fabrics and admin commands (R389, R395–R410, R421, R482, R483) -/

/-- A fabrics or admin command that passes the common checks does what its row runs, on the state at its arrival (R397, R403, R411). -/
theorem exec_adminTakes {i : Instr} {row : AdmRow} {kind : AdmKind} {ctx cid n : Nat} {c : Ctrl} {s u : State} {k : Nat → Ctrl → State → State}
    (he : exec i s = .next (adminIn row ctx cid kind k s)) (ht : adminTakes kind ctx cid n c s = true) (hk : k n c (adminAt ctx s) = u) :
    exec i s = .next u := by
  rw [he, adminIn_takes ht, hk]

/-- A Connect capsule that comes for a READY connection of an Active module, where none waits for Kumel, reaches the fast path (R395). -/
theorem execNvmeConnect_comes {r : ConnectReq} {s : State} (hnone : s.xpt.admq = []) (hst : (s.ctx r.ctx).st = .ready)
    (hmode : s.md.mode = .active) (hadm : s.md.admitStop = false) :
    execNvmeConnect r s = .next (connectIn r (adminAt r.ctx s)) := by
  simp [execNvmeConnect, hnone, hst, hmode, hadm, adminAt]

/-- A Connect for an I/O queue that passes every check of Table 9.3 joins the queue to its controller (R395). -/
theorem connectIn_joins {r : ConnectReq} {h : Nat} {e : HostEnt} {s : State} (hfree : (s.ctx r.ctx).ctrl = none)
    (hok : connectCheck r s = .ok (h, e)) (hq : r.qid ≠ 0) : connectIn r s = joinCtrl r e (count1 2577 s) := by
  simp [connectIn, hfree, hok, hq]

/-- A negotiation that offers a hash and a group of the host entry brings a challenge with the first of each (R398). -/
theorem authStep_challenges {n h g : Nat} {c : Ctrl} {hs gs : List Nat} {s : State}
    (hh : (hs.find? fun h => decide (h < 3) && (tabGet {} s.nvm.hosts c.host : HostEnt).hashes.testBit h) = some h)
    (hg : (gs.find? fun g => decide (g < 5) && (tabGet {} s.nvm.hosts c.host : HostEnt).dhg.testBit g) = some g) :
    authStep n c (.negotiate hs gs) s = onCtrl n (fun k => { k with auth := .challenge h g }) s := by
  simp only [authStep, hh, hg]

/-- A controller's live keep-alive timer that expires ends the controller (R402, R403). -/
theorem execKeepAliveExpiry_ends {n : Nat} {c : Ctrl} {s : State} (hc : tabFind s.nvm.ctrls n = some c) (hmode : s.md.mode = .active)
    (hkumel : s.md.kumel = .running) (hdue : c.kaAt ≤ s.clk.now) : execKeepAliveExpiry n s = .next (endCtrl n 1 s) := by
  simp [execKeepAliveExpiry, timersAct, due, hc, hmode, hkumel, hdue]

/-- Settles O30: a Connect by `execNvmeConnect_comes` and `connectIn_joins`; every other command does what its row runs once the
common checks pass (`exec_adminTakes`), by its guards. The property offsets and the feature, log and CNS identifiers are log 116. -/
theorem nvmeAdminComplete : Obligations.NvmeAdminComplete := by
  refine ⟨?_, ?_, ?_, ?_, ?_, ?_, ?_, ?_, ?_, ?_, ?_, ?_, ?_, ?_, ?_, ?_, ?_, ?_, ?_⟩
  · intro s r h e hnone hst hmode hadm hfree hok hq
    show execNvmeConnect r s = _
    rw [execNvmeConnect_comes hnone hst hmode hadm, connectIn_joins hfree hok hq]
    rfl
  · intro s ctx cid n c ht hq htcp
    refine exec_adminTakes rfl ht ?_
    simp [hq, htcp]
  · intro s ctx cid n c ht
    exact exec_adminTakes rfl ht rfl
  · intro s ctx cid n c hs gs h g ht hfails hh hg
    refine exec_adminTakes rfl ht ?_
    rw [if_neg (Nat.not_le.2 hfails), authStep_challenges hh hg]
    rfl
  · intro s ctx cid n c h g ht hauth
    refine exec_adminTakes rfl ht ?_
    simp only [hauth]
  · intro s ctx cid n c v ht hsqes hcqes
    refine exec_adminTakes rfl ht ?_
    exact if_neg (by rw [hsqes, hcqes]; decide)
  · intro s ctx cid n c ht
    exact exec_adminTakes rfl ht rfl
  · intro s ctx cid n c nsid ht hdisc
    refine exec_adminTakes rfl ht ?_
    simp [hdisc]
  · intro s ctx cid n c nsid cntid ht hdisc
    refine exec_adminTakes rfl ht ?_
    simp [hdisc]
  · intro s ctx cid n c nsid v ht
    exact exec_adminTakes rfl ht rfl
  · intro s ctx cid n c nsid v ht
    exact exec_adminTakes rfl ht rfl
  · intro s ctx cid n c ht hnotices haers
    refine exec_adminTakes rfl ht ?_
    simp [hnotices, Nat.not_le.2 haers]
  · intro s ctx cid n c sqid acid ht haborts
    refine exec_adminTakes rfl ht ?_
    simp [Nat.not_le.2 haborts]
  · intro s ctx cid n c d r m ht hpriv hns hhome hlive hmig
    refine exec_adminTakes rfl ht ?_
    simp [hpriv, hns, hhome, hlive, hmig]
  · intro s ctx cid n c r ht hpriv
    refine exec_adminTakes rfl ht ?_
    simp [hpriv]
  · intro s ctx cid n c d q k m t ht hpriv hns hhome hlive hctrl hdisc hnew htake
    have hadds : k.host ∉ m.hosts := by simpa using hnew
    refine exec_adminTakes rfl ht ?_
    simp [hpriv, hns, hhome, hlive, hctrl, hdisc, hadds, List.eraseDups_cons, htake]
  · intro s ctx cid n c d lb m ht hpriv hall hlb hns hhost hhome hlive hmade hsan hfmt hfit hheld
    have hattached : c.host ∈ m.hosts := by simpa using hhost
    have hempty : ¬ (¬ lb = m.lbaf ∧ ¬ m.map = []) := fun h => hfmt.elim h.1 h.2
    refine exec_adminTakes rfl ht ?_
    simp [hpriv, hall, Nat.not_lt.2 hlb, hns, hattached, hhome, hlive, hmade, hsan, hempty, hfit, hheld, ends]
  · intro s ctx cid n c ht hpriv horder hmaster henc hsan hsome
    have hslots : (adminAt ctx s).vol.ns.isEmpty = false := by simpa using hsome
    refine exec_adminTakes rfl ht ?_
    simp [hpriv, horder, hmaster, henc, hsan, hslots, ends]
  · intro s n c hc hmode hkumel hdue
    exact execKeepAliveExpiry_ends hc hmode hkumel hdue

/-! ## The NVM commands of the Letterbox (R446–R451) -/

/-- Settles O31: each command's desk answers OK once its parameters pass and nothing conflicts (`letter_answered`, `letterData_answered`,
`guardParam_pass`, `check_pass`). A new subsystem name is told to the other reachable shelves (log 125). -/
theorem nvmCommandsComplete : Obligations.NvmCommandsComplete := by
  refine ⟨?_, ?_, ?_, ?_, ?_, ?_, ?_, ?_, ?_, ?_⟩
  · intro s p ht hmaster hc hlo hhi hname hnone
    refine letterData_answered ht ?_
    simp only [deskNvmSetSubsystem]
    rw [check_pass hmaster, guardParam_pass (by simp [hc, hlo, hhi, hname]), check_pass (by rw [hnone]; rfl)]
    rfl
  · intro s p ht
    exact letter_answered ht rfl
  · intro s p ht hc2 hlo hhi hc3 hc4 hc5 hmlo hmhi hname hauth htls hclash hnew
    refine letterData_answered ht ?_
    simp only [deskNvmSetHost]
    rw [guardParam_pass (by simp [hc2, hlo, hhi, hc3, hc4, hc5, hmlo, hmhi, hname, hauth, htls]), check_pass (by rw [hclash]; rfl), hnew,
      check_pass (by rfl)]
    simp [hnew, hauth, htls, okay]
  · intro s p ht hc hhas hlive
    refine letter_answered ht ?_
    simp only [deskNvmDeleteHost]
    rw [guardParam_pass hc, check_pass hhas, hlive]
    exact check_pass rfl _ _ _
  · intro s p e ht hc hfind
    refine letter_answered ht ?_
    simp only [deskNvmGetHost]
    rw [guardParam_pass hc, hfind]
    rfl
  · intro s p ht hc2 hc3 hn hkind hwrap hclr hhas
    refine letterData_answered ht ?_
    simp only [deskNvmSetHostSecret, hn, hkind, hwrap, hclr]
    rw [check_pass (by simp), guardParam_pass (by simp [hc2, hc3]), check_pass hhas, check_pass (by simp)]
    rfl
  · intro s p c ht hc hfind
    refine letter_answered ht ?_
    simp only [deskNvmGetController]
    rw [guardParam_pass hc, hfind]
    rfl
  · intro s p ht hc hhas
    refine letter_answered ht ?_
    rw [deskNvmEndController, guardParam_pass hc, check_pass hhas]
    rfl
  · intro s p ht hc2 hc3 hlo hhi
    refine letter_answered ht ?_
    rw [deskNvmSetTagLimit, guardParam_pass (by simp [hc2, hc3, hlo, hhi])]
    rfl
  · intro s p ht hc hsub
    refine letter_answered ht ?_
    simp only [deskNvmGetTags]
    rw [guardParam_pass (by simp [hc, Nat.le_of_lt hsub]), if_neg (Nat.ne_of_lt hsub)]
    rfl

end Sys2Proof.Machine

/-! SUPPORT. Chapter 10's sets, namespaces and map: the VOL commands by what their desks answer, the drains and migrations by the guards of
their rows. Each obligation's proof has one case for each clause of its statement, in order. -/
namespace Sys2Proof.Machine

/-! ## Desks of sets and namespaces -/

/-- A packet that is taken, at a desk that accepts before its reply has set out and after it (R861): the whole next state. -/
theorem letter_accepted {op n : Nat} {p : Packet} {s u v : State} {desk : State → Desk} (ht : taken op n 0 p s = true)
    (hd : desk (s.arrived op p) = (stAccepted, [], u))
    (hd' : desk (post p.door p.tag false stAccepted [] (s.arrived op p)) = (stAccepted, [], v)) :
    letter op n p s desk = .next (accepted op p v) := by
  rw [letter_taken ht, atDesk_accept_eq hd hd']

/-- Where the set exists, the desk goes on with it. -/
theorem withSet_pass {i : Nat} {s : State} {v : VSet} (hset : s.vset i = some v) (k : VSet → State → Desk) : withSet i s k = k v s := by
  simp only [withSet, hset]

/-- Where the namespace lives and the module acts for its home shelf, the desk goes on with it (R500). -/
theorem withNs_pass {nsid : Nat} {s : State} {n : Ns} (hns : s.nsOf nsid = some n) (hlive : n.deleting = false) (hhome : n.home = s.pos)
    (hacts : actsForShelf s = true) (k : Ns → State → Desk) : withNs nsid s k = k n s := by
  simp only [withNs, hns, hlive, Bool.false_eq_true, if_false]
  exact check_pass (by simp [hhome, hacts]) _ _ _

/-- A change that is taken withholds its reply until its epochs drain (R493, R494). -/
theorem submitVol_withholds {p : Packet} {op : Nat} {c : VChange} {s t : State}
    (htake : takeChange ⟨.letter p.door p.tag op, [c]⟩ s = some t) : submitVol p op c s = (stWithheld, [], t) := by
  simp only [submitVol, htake]

/-- So does a change of an NSID claim that the module applies itself (R500, R780). -/
theorem submitClaim_withholds {p : Packet} {op : Nat} {c : VChange} {s t : State} (hclaims : claimsHere s = true)
    (htake : takeChange ⟨.letter p.door p.tag op, [c]⟩ s = some t) : submitClaim p op c s = (stWithheld, [], t) := by
  rw [submitClaim, if_pos hclaims, submitVol_withholds htake]

/-- With no migration under way, a range of a live namespace of this shelf begins to migrate to a set that exists (R497, R509). -/
theorem deskVolMigrateParcels_accepts {p : Packet} {s : State} {n : Ns} (hid : nsidOk (p.w 2) 0 = true)
    (hc3 : clean (mask 21 0) (p.w 3) = true) (hc4 : clean (mask 10 0 ||| mask 20 16) (p.w 4) = true) (hlo : 1 ≤ bits 10 0 (p.w 4))
    (hhi : bits 10 0 (p.w 4) ≤ 1024) (hns : s.nsOf (bits 12 0 (p.w 2)) = some n) (hlive : n.deleting = false) (hhome : n.home = s.pos)
    (hacts : actsForShelf s = true) (hmig : s.vol.mig = none) (hrange : bits 21 0 (p.w 3) + bits 10 0 (p.w 4) ≤ n.size)
    (htarget : tabHas s.vol.sets (bits 20 16 (p.w 4)) = true) :
    deskVolMigrateParcels p s = (stAccepted, [], nextParcel (bits 21 0 (p.w 3)) ((accept p 0x060B 0 0 s).onVol fun v =>
      { v with mig := some ⟨bits 12 0 (p.w 2), bits 21 0 (p.w 3) + bits 10 0 (p.w 4) - 1, bits 20 16 (p.w 4), bits 21 0 (p.w 3), none, 0, 1, 0, 0, 0⟩ })) := by
  rw [deskVolMigrateParcels, guardParam_pass (by rw [hid]; simp [hc3, hc4, hlo, hhi]), withNs_pass hns hlive hhome hacts]
  simp only [hmig, Option.isSome_none, Bool.false_eq_true, if_false]
  rw [guardParam_pass (decide_eq_true hrange), check_pass htarget]

/-! ## Drains, migrations and the map -/

/-- The one change that waits, not drained 1 s after its flip, is answered ACCEPTED, and VOL.EPOCH_SLOW is raised (R495). -/
theorem execMapEpochSlow_accepts {d op e f : Nat} {tag : Word} {cs : List VChange} {s : State}
    (hwaits : s.vol.waits = [⟨.letter d tag op, cs, e, f, false, false⟩]) (hdue : f + sec ≤ s.clk.now) :
    execMapEpochSlow s = .next (raise 392 (word e) (post d tag false stAccepted [word e]
      ((s.onVol fun v => { v with waits := [⟨.letter d tag op, cs, e, f, true, false⟩] }).onLb fun l =>
        { l with running := l.running ++ [⟨d, tag, op, e, 0⟩] }))) := by
  simp [execMapEpochSlow, State.onVol, forAll, due, hwaits, hdue]

section
variable {m : Migration} {n : Ns} {v : VSet} {p : Nat} {l : Leaf} {s : State} (hmig : s.vol.mig = some m) (hns : s.nsOf m.ns = some n)
  (hset : s.vset m.target = some v) (hparcel : m.parcel = some p) (hleaf : leafOf n m.index = some l) (hmoving : l.moving = true)
  (hacts : actsForShelf s = true) (hidle : s.drv.passes.any (fun e => e.2.kind = .move) = false) (hstep : m.step = 1)
include hmig hns hset hparcel hleaf hmoving hacts hidle hstep

/-- The first copy pass ends with marks set: the next pass copies what they mark (R498). -/
theorem execMigrationPassDone_nextPass (hmarks : m.marks ≠ 0) (hpass : m.pass = 0) (hnone : nextChunk m n v p = none) :
    execMigrationPassDone s = .next (s.onVol fun d => { d with mig := some { m with pass := 1, todo := m.marks, marks := 0, next := 0 } }) := by
  simp [execMigrationPassDone, doIf, hmig, hns, hset, hparcel, hleaf, Option.filter_some_pos hmoving, hacts, hidle, hstep, hmarks, hpass, hnone]

/-- A copy pass with blocks left copies the next of them (R498). -/
theorem execMigrationPassDone_copies {src : VSet} {i k : Nat} (hnext : nextChunk m n v p = some (i, k)) (hsrc : s.vset l.set = some src) :
    execMigrationPassDone s = .next (startMove m l v src p i k s) := by
  simp [execMigrationPassDone, hmig, hns, hset, hparcel, hleaf, Option.filter_some_pos hmoving, hacts, hidle, hstep, hnext, hsrc]

end

/-- The one parcel in quarantine that nothing holds becomes free (R472). -/
theorem execQuarantineRelease_frees {q : Quar} {s : State} (hquar : s.vol.quar = [q]) (hcmds : q.cmds = []) (hpages : q.pages = [])
    (hrecs : q.recs = []) :
    execQuarantineRelease s = .next (noteFree q.set (onSet q.set (fun v => { v with parcels := tabDel v.parcels q.parcel })
      (s.onVol fun v => { v with quar := [] }))) := by
  simp [execQuarantineRelease, State.onVol, forAll, hquar, hcmds, hpages, hrecs]

/-! ## The obligations -/

/-- Settles O32: each command's desk answers once its parameters pass and nothing conflicts (`letter_answered`, `guardParam_pass`,
`check_pass`, `withSet_pass`, `withNs_pass`); a migration is accepted before its reply has set out and after it (`letter_accepted`).
The checks of CREATE_SET are log 109; where a migration finds its next parcel is log 114. -/
theorem volumeSetsComplete : Obligations.VolumeSetsComplete := by
  refine ⟨?_, ?_, ?_, ?_, ?_, ?_, ?_, ?_, ?_, ?_⟩
  · intro s p slots v ht hc2 hc3 hwidth hstrip htz hslots hrange hdistinct hrest hnew hunused hon hfit hbig hv hresv
    refine letter_answered ht ?_
    simp only [deskVolCreateSet, hslots, htz]
    rw [guardParam_pass (by simp only [hc2, hc3, hwidth, hstrip, hrange, hdistinct, hrest]; rfl), check_pass (by rw [hnew, hunused]; rfl),
      check_pass hon, check_pass hfit, check_pass (decide_eq_true hbig), hv, guardParam_pass (decide_eq_true hresv)]
    rfl
  · intro s p v ht hc hset hempty hmig
    refine letter_answered ht ?_
    rw [deskVolDeleteSet, guardParam_pass hc, withSet_pass hset, check_pass (by rw [hempty, hmig]; rfl)]
    rfl
  · intro s p v ht hc hset
    refine letter_answered ht ?_
    rw [deskVolGetSet, guardParam_pass hc, withSet_pass hset]
    rfl
  · intro s p v ht hc2 hc3 hset hresv
    refine letter_answered ht ?_
    rw [deskVolSetReserve, guardParam_pass (by rw [hc2, hc3]; rfl), withSet_pass hset, guardParam_pass (decide_eq_true hresv)]
    rfl
  · intro s p n l ht hl hid hc3 hc4 hne hns hlive hhome hacts hknown hfit
    refine letter_answered ht ?_
    simp only [deskVolSetNsPolicy, hl]
    rw [guardParam_pass (by rw [hid]; simp [hc3, hc4, hne]), withNs_pass hns hlive hhome hacts, check_pass hknown, check_pass hfit]
    rfl
  · intro s p n ht hid hns
    refine letter_answered ht ?_
    simp only [deskVolGetNamespace]
    rw [guardParam_pass hid, hns]
    rfl
  · intro s p n ht hid hc3 hc4 hlo hhi hns hlive hhome hacts hmig hrange htarget
    exact letter_accepted ht (deskVolMigrateParcels_accepts hid hc3 hc4 hlo hhi hns hlive hhome hacts hmig hrange htarget)
      (deskVolMigrateParcels_accepts hid hc3 hc4 hlo hhi (by rwa [post_nsOf]) hlive (by rwa [post_pos]) (by rwa [post_acts])
        (by rwa [post_vol]) hrange (by rwa [post_vol]))
  · intro s p n l ht hid hc3 hns hi hleaf
    refine letter_answered ht ?_
    simp only [deskVolGetParcel]
    rw [guardParam_pass (by rw [hid, hc3]; rfl), hns]
    simp only []
    rw [guardParam_pass (decide_eq_true hi), hleaf]
    rfl
  · intro s p l ht hl hc2 henc
    refine letter_answered ht ?_
    simp only [deskVolSetNsDefaults, hl, henc]
    rw [guardParam_pass (by rw [hc2]; rfl)]
    rfl
  · intro s p ht
    exact letter_answered ht rfl

/-- Settles O33: a desk whose change is taken withholds its reply (`letter_withheld`, `submitVol_withholds`, `submitClaim_withholds`); the
drains, the migration's passes and the map's rows act by their guards. The checks of CREATE_NAMESPACE are log 110, a pass's copy is log 113. -/
theorem volumeEpochsComplete : Obligations.VolumeEpochsComplete := by
  refine ⟨?_, ?_, ?_, ?_, ?_, ?_, ?_, ?_, ?_, ?_, ?_⟩
  · intro s p l n b t ht hacts hl hc2 hc3 hc4 hw7 hlo hhi hpit henc hslo hshi hne hfree hfit hknown hsum hnew hthin hclaims htake
    refine letter_withheld ht ?_
    simp only [deskVolCreateNamespace, hpit, henc]
    rw [check_pass hacts, hl]
    simp only []
    rw [guardParam_pass (by simp [hc2, hc3, hc4, hw7, hlo, hhi, hslo, hshi, hne]), check_pass (by rw [hfree, hfit]; rfl), check_pass hknown,
      check_pass (by rfl), check_pass (decide_eq_true hsum), hnew, check_pass (by rw [hthin]; rfl), submitClaim_withholds hclaims htake]
  · intro s p n t ht hid hns hlive hhome hacts hdetached hmig hclaims htake
    have hmay : (n.hosts.isEmpty || bit 16 (p.w 2)) = true := by rcases hdetached with h | h <;> simp [h]
    refine letter_withheld ht ?_
    rw [deskVolDeleteNamespace, guardParam_pass hid, withNs_pass hns hlive hhome hacts, check_pass (by rw [hmay, hmig]; rfl),
      submitClaim_withholds hclaims htake]
  · intro s p n t ht hid hc3 hlo hhi hns hlive hhome hacts hthin hmap hquar hsum htake
    refine letter_withheld ht ?_
    rw [deskVolResizeNamespace, guardParam_pass (by rw [hid]; simp [hc3, hlo, hhi]), withNs_pass hns hlive hhome hacts,
      check_pass (by rw [hmap, hquar]; rfl), check_pass (decide_eq_true hsum)]
    simp only [hthin, Bool.false_eq_true, if_false, grantAll, submitVol_withholds htake]
    rfl
  · intro s p n t ht hid hc3 hns hlive hhome hacts hhost htake
    refine letter_withheld ht ?_
    rw [deskVolAttachNamespace, guardParam_pass (by rw [hid, hc3]; rfl), withNs_pass hns hlive hhome hacts, hhost,
      if_neg (by simp), submitVol_withholds htake]
  · intro s
    rfl
  · intro s d tag op cs e f hwaits hdue
    exact execMapEpochSlow_accepts hwaits hdue
  · intro s m n v p l hmig hns hset hparcel hleaf hmoving hacts hidle hstep hmarks hpass hnone
    exact execMigrationPassDone_nextPass hmig hns hset hparcel hleaf hmoving hacts hidle hstep hmarks hpass hnone
  · intro s m n v src p i k l hmig hns hset hparcel hleaf hmoving hacts hidle hstep hnext hsrc
    exact execMigrationPassDone_copies hmig hns hset hparcel hleaf hmoving hacts hidle hstep hnext hsrc
  · intro s q hquar hcmds hpages hrecs
    exact execQuarantineRelease_frees hquar hcmds hpages hrecs
  · intro s k n hns hcreating
    show execThickCreationComplete k s = _
    simp [execThickCreationComplete, hns, hcreating]
  · intro s d hdeltas hacts
    show execMapDeltaFlush s = _
    simp [execMapDeltaFlush, hdeltas, hacts]

end Sys2Proof.Machine

/-! SUPPORT. Chapter 11's write buffer and journal: the WBF commands by what their desks answer; the triggers, the opening of a bin's record
and the record's own events by the guards of their rows. The obligation's proof has one case for each clause of its statement, in order. -/
namespace Sys2Proof.Machine

/-! ## The desk of WBF.DESTAGE -/

/-- A destage of the whole module is accepted: every page that is not RESERVED is queued, and the command waits for them all (R549). -/
theorem deskWbfDestage_accepts {p : Packet} {s : State} {ps : List Nat} (hc : clean (mask 1 0 ||| mask 8 4 ||| mask 28 16) (p.w 2) = true)
    (hscope : bits 1 0 (p.w 2) = 0) (hpages : (s.wbf.pages.filter fun e => e.2.st != .reserved).map (·.1) = ps) :
    deskWbfDestage p s = (stAccepted, [], accept p 0x0703 (destageWait ps s).1 0 (destageWait ps s).2) := by
  simp only [deskWbfDestage, hscope]
  rw [guardParam_pass (by rw [hc]; rfl), check_pass (by rfl), ← hpages]
  simp

/-- A wait's number depends on the waits there are, and a reply leaves those as they are. -/
@[simp] theorem destageWait_post (ps : List Nat) (d : Nat) (tag : Word) (o : Bool) (st : Nat) (ws : List Word) (s : State) :
    (destageWait ps (post d tag o st ws s)).1 = (destageWait ps s).1 := by
  simp only [destageWait, post_wbf]

/-! ## Triggers -/

/-- A bin whose oldest DIRTY page is older than AGEMAX is queued in S5 (R527). -/
theorem execDestageAgeTrigger_queues {i n : Nat} {b : Nat × Nat × Nat × Nat} {s : State}
    (hbin : (dirtyBins s).find? (fun b => b.1 = i && b.2.1 = n) = some b) (hold : b.2.2.1 + s.wbf.agemax * 10 * ms < s.clk.now) :
    execDestageAgeTrigger i n s = .next (queueBin i n 5 false s) := by
  simp only [execDestageAgeTrigger, hbin, if_pos hold]

/-- Occupancy that newly reaches HIGH is told, and bins are queued in S5 down to LOW, oldest first (R527). -/
theorem execOccupancyHigh_rises {s t : State} (hoff : s.wbf.highOn = false) (hhigh : s.wbf.high ≤ occupancy s)
    (htold : raise 448 0 (s.onWbf fun w => { w with highOn := true }) = t) :
    execOccupancyHigh s = .next (queueDown 5 t.wbf.low ((dirtyBins t).map fun b => (b.1, b.2.1)) t) := by
  subst htold
  simp [execOccupancyHigh, hoff, Nat.not_lt.mpr hhigh, doIf]

/-- Where ESC is set, occupancy that newly reaches ESCPCT is told, and bins are queued in S0 down to HIGH, oldest first: those with DIRTY
pages, and those queued before whose record is not open yet (R527, R529). -/
theorem execDestageEscalated_rises {s t : State} (hesc : s.wbf.esc = true) (hoff : s.wbf.escal = false)
    (hfull : s.wbf.escpct ≤ occupancy s) (htold : raise 449 0 (s.onWbf fun w => { w with escal := true }) = t) :
    execDestageEscalated s = .next (queueDown 0 t.wbf.high
      ((binsByAge t fun p => p.st = .dirty || (p.st = .queued && !recOpen t p.set p.stripe)).map fun b => (b.1, b.2.1)) t) := by
  subst htold
  simp [execDestageEscalated, hesc, hoff, Nat.not_lt.mpr hfull, doIf]

/-! ## The journal -/

/-- The set's next queued bin that is free to go, with pages left once those that have moved are with their new bins (R492, R517), opens its
record (R528, R534). -/
theorem execDestageStart_opens {i : Nat} {v : VSet} {b : QBin} {s t : State} (hset : s.vset i = some v) (hacts : actsForShelf s = true)
    (honline : v.st ≠ .offline) (hrecover : v.recover = false) (hmax : (recsOf s i).length < s.wbf.setmax)
    (hroom : s.wbf.recs.length < 65536)
    (hnext : (binOrder s i).find? (fun b => !recOpen s i b.stripe && !passBusy s i b.stripe) = some b)
    (hmoved : resolveBin i b.stripe b.cls b.ahead s = t) (hpages : binPages t i b.stripe ≠ []) :
    execDestageStart i s = .next (openRecord i v b false t) := by
  have hgo : (!actsForShelf s || v.st = .offline || v.recover || s.wbf.setmax ≤ (recsOf s i).length || 65536 ≤ s.wbf.recs.length) = false := by
    simp [hacts, honline, hrecover, hmax, hroom]
  simp [execDestageStart, hset, hgo, hnext, hmoved, hpages]

/-- A journal block with records packed is written once 20 µs have passed since its first (R538). -/
theorem execJournalBlockTimer_writes {i m : Nat} {s : State} (hpacked : (s.ring i m).open_ ≠ [])
    (hdue : due ((s.ring i m).openAt + 20 * us) s.clk.now = true) : execJournalBlockTimer i m s = .next (writeJournal i m s) := by
  simp [execJournalBlockTimer, hpacked, hdue]

/-- A record that is on all its home members and postmarked lets its reads go (R534). -/
theorem execJournalPersisted_reads {j : Nat} {r : JRec} {s : State} (hrec : s.rec_ j = some r) (hstage : r.stage = 0) (hhomes : r.homes = [])
    (hmarked : s.marked r.seq = true) :
    execJournalPersisted j s = .next (issueReads j (onRec j (fun r => { r with stage := 1 }) s)) := by
  simp [execJournalPersisted, hrec, hstage, hhomes, hmarked]

/-- A record with no strip write left retires (R540). -/
theorem execStripWriteComplete_retires {j : Nat} {r : JRec} {s : State} (hrec : s.rec_ j = some r) (hstage : r.stage = 3)
    (hwrites : r.writes = []) : execStripWriteComplete j s = .next (retire j s) := by
  simp [execStripWriteComplete, hrec, hstage, hwrites]

/-- A set that has records to recover, and no recovery under way, begins one (R544, R546). -/
theorem execRecordRecovery_begins {i : Nat} {v : VSet} {found : List (Nat × ImgRec)} {reads : List (Nat × Nat × List Blk)} {s : State}
    (hset : s.vset i = some v) (hrecover : v.recover = true) (hidle : passesOf s i .recover = []) :
    execRecordRecovery i found reads s = .next (recoverPass i v found reads s) := by
  simp [execRecordRecovery, hset, hrecover, hidle]

/-! ## The obligation -/

/-- Settles O34: each command's desk answers once its parameters pass (`letter_answered`, `guardParam_pass`), and a destage is accepted
before its reply has set out and after it (`letter_accepted`); every trigger and every event of a record acts by its guard. Where
a trigger stops queueing is log 76 (`queueDown`), and that a bin waiting for its stripe lets later ones pass is log 78 (`binOrder`). -/
theorem writeBufferComplete : Obligations.WriteBufferComplete := by
  refine ⟨?_, ?_, ?_, ?_, ?_, ?_, ?_, ?_, ?_, ?_, ?_, ?_⟩
  · intro s p ht hc2 hc3 hc4 hage hage' hhigh hhigh' hlow hlow' hesc hesc' hmax hmax'
    refine letter_answered ht ?_
    simp only [deskWbfSetPolicy]
    rw [guardParam_pass (by simp [hc2, hc3, hc4, hage, hage', hhigh, hhigh', hlow, hlow', hesc, hesc', hmax, hmax'])]
    rfl
  · intro s p ht
    exact letter_answered ht rfl
  · intro s p ps ht hc hscope hpages
    have hletter := letter_accepted ht (deskWbfDestage_accepts hc hscope hpages)
      (deskWbfDestage_accepts (ps := ps) hc hscope (by rwa [post_wbf]))
    rw [destageWait_post] at hletter
    show execWbfDestage p s = _
    rw [execWbfDestage, hletter]
  · intro s p v ht hc hset
    refine letter_answered ht ?_
    rw [deskWbfGetJournal, guardParam_pass hc, check_pass (by rw [hset]; rfl)]
    rfl
  · intro s i n b hbin hold
    exact execDestageAgeTrigger_queues hbin hold
  · intro s t hoff hhigh htold
    exact execOccupancyHigh_rises hoff hhigh htold
  · intro s t hesc hoff hfull htold
    exact execDestageEscalated_rises hesc hoff hfull htold
  · intro s t i v b hset hacts honline hrecover hmax hroom hnext hmoved hpages
    exact execDestageStart_opens hset hacts honline hrecover hmax hroom hnext hmoved hpages
  · intro s i m hpacked hdue
    exact execJournalBlockTimer_writes hpacked hdue
  · intro s j r hrec hstage hhomes hmarked
    exact execJournalPersisted_reads hrec hstage hhomes hmarked
  · intro s j r hrec hstage hwrites
    exact execStripWriteComplete_retires hrec hstage hwrites
  · intro s i v found reads hset hrecover hidle
    exact execRecordRecovery_begins hset hrecover hidle

end Sys2Proof.Machine

/-! SUPPORT. Chapter 12's redundancy: the RED commands by what their desks answer, and the set engine's outcomes, timeouts, hedges and
background passes by the guards of their rows. Each obligation's proof has one case for each clause of its statement, in order. -/
namespace Sys2Proof.Machine

/-! ## Desks of members and spares -/

/-- Where the set exists and has the member, the desk of a member's command goes on with both (R605). -/
theorem withMember_pass {p : Packet} {used : Word} {s : State} {v : VSet} (hc : clean (mask 4 0 ||| mask 12 8 ||| used) (p.w 2) = true)
    (hset : s.vset (bits 4 0 (p.w 2)) = some v) (hm : bits 12 8 (p.w 2) < v.width) (k : Nat → Nat → VSet → State → Desk) :
    withMember p used s k = k (bits 4 0 (p.w 2)) (bits 12 8 (p.w 2)) v s := by
  rw [withMember, guardParam_pass hc, withSet_pass hset, guardParam_pass (decide_eq_true hm)]

/-- A slot becomes a spare with its record told to the partner, and the module in charge starts the rebuilds that waited for one (R604, R579). -/
def designate (k mask_ serial : Nat) (s : State) : State :=
  let u := shadow .stateWrite 8 (32 + k) (s.onVol fun v => { v with spares := tabIns v.spares k ⟨mask_, serial⟩ })
  if inCharge u then forAll (u.vol.sets.map (·.1)) startMissing u else u

/-- An enumerated drive that is no member is designated; an identity record on it is erased first, where the command says so (R604). -/
theorem deskRedSetSpare_designates {p : Packet} {s : State} {d : DriveInfo} (hc : clean (mask 4 0 ||| mask 9 8) (p.w 2) = true)
    (hk : bits 4 0 (p.w 2) < 24) (hkeep : bit 8 (p.w 2) = false) (hmember : memberAt s (bits 4 0 (p.w 2)) = none)
    (hon : slotOn s (bits 4 0 (p.w 2)) = true) (henum : enumerated s (bits 4 0 (p.w 2)) = true)
    (herase : ((s.port (bits 4 0 (p.w 2))).id.isNone || bit 9 (p.w 2)) = true) (hinfo : (s.port (bits 4 0 (p.w 2))).info = some d) :
    deskRedSetSpare p s = okay (designate (bits 4 0 (p.w 2)) (p.w 3).toNat d.serial
      (if (s.port (bits 4 0 (p.w 2))).id.isSome then eraseId (bits 4 0 (p.w 2)) s else s)) := by
  simp only [deskRedSetSpare, hkeep]
  rw [guardParam_pass (by simp [hc, hk]), if_neg Bool.false_ne_true, check_pass (by rw [hmember]; rfl), check_pass (by rw [hon, henum]; rfl),
    check_pass herase, hinfo]
  rfl

/-- A rebuild onto a slot that qualifies is accepted: the missing member wishes for it, and its trigger has fired (R605, log 97). -/
theorem deskRedStartRebuild_accepts {p : Packet} {s : State} {v : VSet} (hc : clean (mask 4 0 ||| mask 12 8 ||| mask 20 16) (p.w 2) = true)
    (hset : s.vset (bits 4 0 (p.w 2)) = some v) (hm : bits 12 8 (p.w 2) < v.width) (hout : (v.mem (bits 12 8 (p.w 2))).st.out = true)
    (hfits : qualifies s v (bits 20 16 (p.w 2)) = true) :
    deskRedStartRebuild p s = (stAccepted, [], accept p 0x0807 (bits 4 0 (p.w 2)) (bits 12 8 (p.w 2))
      (onMember (bits 4 0 (p.w 2)) (bits 12 8 (p.w 2)) (fun x => { x with wish := some (bits 20 16 (p.w 2)), fired := true }) s)) := by
  simp only [deskRedStartRebuild]
  rw [withMember_pass hc hset hm, check_pass hout, guardParam_pass hfits]

/-! ## Drive commands -/

/-- A host read that is still out at the set's hedge time is marked as hedged and counted, and its reconstruction runs beside it (R562). -/
theorem execHedgeDeadline_hedges {s : State} {k t g sp at_ : Nat} {tz : Bool} {c : DCmd} {v : VSet} (hcmd : tabFind s.drv.cmds k = some c)
    (huse : c.use = .host t g sp tz) (hat : c.at_ = some at_) (hset : s.vset c.set = some v) (hhedged : c.hedged = false)
    (hanswer : c.answer = none) (hread : c.write = false) (hhedge : v.hedge ≠ 0) (hdue : due (at_ + v.hedge * ms) s.clk.now = true) :
    execHedgeDeadline k s = .next (startRecon c.set v c.stripe c.member c.first c.n c.cls c.sub c.use (some k) false false [c.member]
      (count1 (4120 + c.slot) (s.onDrv fun d => { d with cmds := tabUpd d.cmds k fun c => { c with hedged := true } }))).2 := by
  have hgo : (c.hedged || c.answer.isSome || c.write || decide (v.hedge = 0) || !due (at_ + v.hedge * ms) s.clk.now) = false := by
    simp [hhedged, hanswer, hread, hhedge, hdue]
  simp only [execHedgeDeadline, hcmd, huse, hat, hset, hgo, Bool.false_eq_true, if_false]

/-- An ABSENT member's trigger fires once ABSENTWAIT has passed (R579). -/
theorem execAbsentwaitExpiry_fires {s : State} {i m : Nat} {v : VSet} (hset : s.vset i = some v) (hcharge : inCharge s = true)
    (hm : m < v.width) (habsent : (v.mem m).st = .absent) (hfired : (v.mem m).fired = false)
    (hdue : due ((v.mem m).since + v.absentWait * 60 * sec) s.clk.now = true) :
    execAbsentwaitExpiry i m s = .next (fireTrigger i m s) := by
  simp [execAbsentwaitExpiry, hset, hcharge, hm, habsent, hfired, hdue]

/-! ## Passes -/

/-- The initialisation pass takes its next stripe within RBDEPTH and RBRATE (R463). -/
theorem execInitStripe_takes {s : State} {i n : Nat} {v : VSet} (hset : s.vset i = some v) (hacts : actsForShelf s = true)
    (hst : v.st = .initialising) (hn : n = nextStripe v.initWm (passesOf s i .init)) (hlt : n < v.stripes)
    (hdepth : (passesOf s i .init).length < v.rbDepth) (hrate : v.rbAt ≤ s.clk.now) (hmay : passMay s i n = true) :
    execInitStripe i s = .next (startPass
      { kind := .init, set := i, stripe := n, want := (List.range (dataStrips v)).flatMap fun j => (List.range (stripBlks v)).map fun b => blkKey (dataMember v n j) b } 4
      (onSet i (fun x => { x with rbAt := paceAt s.clk.now x.rbAt x.rbRate ((if v.type = 3 then 2 else 1) * stripBytes x) }) s)) := by
  have hgo : (!actsForShelf s || v.st != .initialising || v.stripes ≤ n || v.rbDepth ≤ (passesOf s i .init).length || !due v.rbAt s.clk.now
      || !passMay s i n) = false := by
    simp [hacts, hst, hlt, hdepth, due, hrate, hmay]
  subst hn
  simp only [execInitStripe, hset, hgo, Bool.false_eq_true, if_false]

/-- A rebuild takes its next stripe within RBDEPTH and RBRATE, for every target at the member's watermark (R581, R586). -/
theorem execRebuildStripe_takes {s : State} {i m n : Nat} {v : VSet} {ms : List Nat} (hset : s.vset i = some v) (hcharge : inCharge s = true)
    (honline : v.st ≠ .offline) (hst : (v.mem m).st = .rebuilding)
    (hms : ms = (membersIn v fun x => x = .rebuilding).filter (fun k => decide ((v.mem k).wm = (v.mem m).wm)))
    (hn : n = nextStripe (v.mem m).wm ((passesOf s i .rebuild).filter fun e => e.2.targets.any ms.contains)) (hlt : n < v.stripes)
    (hdepth : (passesOf s i .rebuild).length < v.rbDepth) (hrate : v.rbAt ≤ s.clk.now) (hmay : passMay s i n = true) :
    execRebuildStripe i m s = .next (startPass
      { kind := .rebuild, set := i, stripe := n, targets := ms, want := (ms.flatMap (sourceKeys s v n)).eraseDups } 4
      (onSet i (fun x => { x with rbAt := paceAt s.clk.now x.rbAt x.rbRate (ms.length * stripBytes x) }) s)) := by
  have hgo : (!inCharge s || v.st = .offline || (v.mem m).st != .rebuilding || v.stripes ≤ n || v.rbDepth ≤ (passesOf s i .rebuild).length
      || !due v.rbAt s.clk.now || !passMay s i n) = false := by
    simp [hcharge, honline, hst, hlt, hdepth, due, hrate, hmay]
  subst hn hms
  simp only [execRebuildStripe, hset, hgo, Bool.false_eq_true, if_false]

section
variable {s : State} {i m : Nat} {v : VSet} (hset : s.vset i = some v) (hcharge : inCharge s = true) (honline : v.st ≠ .offline)
  (hst : (v.mem m).st = .resyncing) (hidle : (passesOf s i .resync).any (fun e => e.2.targets.contains m) = false)
include hcharge honline hst hidle

/-- Nothing holds a resync that has no pass under way: the guard of its row passes. -/
theorem resyncRegion_goes :
    (!inCharge s || v.st = .offline || (v.mem m).st != .resyncing || (passesOf s i .resync).any fun e => e.2.targets.contains m) = false := by
  rw [hidle]
  simp [hcharge, honline, hst]

include hset

/-- A resync without a log ends (R600). -/
theorem execResyncRegion_ends (hlog : (v.mem m).log = none) : execResyncRegion i m s = .next (resyncDone i m s) := by
  simp only [execResyncRegion, hset, resyncRegion_goes hcharge honline hst hidle, hlog, Bool.false_eq_true, if_false]

/-- The last marked region is taken, all its stripes at once (R600, log 97). -/
theorem execResyncRegion_takes {k r : Nat} {ns : List Nat} (hlog : (v.mem m).log = some k) (hbits : (tabGet {} v.logs k : LogSlot).bits = [r])
    (hns : ns = ((List.range (1048576 / stripBytes v)).map (r * (1048576 / stripBytes v) + ·)).filter (fun n => n < v.stripes))
    (hne : ns ≠ []) (hmay : ns.all (passMay s i) = true) :
    execResyncRegion i m s = .next (forAll ns (fun n u =>
      startPass { kind := .resync, set := i, stripe := n, targets := [m], want := sourceKeys u v n m } 4 u) s) := by
  have hsome : ns.isEmpty = false := by simpa using hne
  subst hns
  simp only [execResyncRegion, hset, resyncRegion_goes hcharge honline hst hidle, hlog, hbits, List.foldl_nil, hsome, hmay,
    Bool.not_true, Bool.false_eq_true, if_false]

end

/-- The patrol round takes the stripe at its position within PATRATE, with the tag zone entries of its Sealed blocks (R596, R597). -/
theorem execPatrolStripe_takes {s : State} {i : Nat} {v : VSet} {tz : List (Nat × Nat × Nat × Nat)} (hset : s.vset i = some v)
    (hcharge : inCharge s = true) (hpaused : s.md.patrolPaused = false) (hpat : v.patRate ≠ 0) (hst : v.st = .optimal)
    (hlt : v.patWm < v.stripes) (hinit : v.patWm < v.initWm) (hrate : v.patAt ≤ s.clk.now) (hmay : passMay s i v.patWm = true)
    (htz : tz = ((List.range (dataStrips v)).flatMap fun j => (List.range (stripBlks v)).filterMap fun b =>
      (tzAt s i v v.patWm j b).map fun t => (t.1, t.2.2)).eraseDups) :
    execPatrolStripe i s = .next (forAll tz (fun t u =>
        (readStrip i v t.2.1 (dataMember v t.2.1 t.2.2.1) t.2.2.2 1 6 2048 (.pass (s.drv.passSeq + 1) (tzPassKey t.1))
          (onPass (s.drv.passSeq + 1) (fun x => { x with want := x.want ++ [tzPassKey t.1] }) u)).2)
      (startPass { kind := .patrol, set := i, stripe := v.patWm, want := (List.range v.width).flatMap fun m => (List.range (stripBlks v)).map (blkKey m) } 6
        (onSet i (fun x => { x with patAt := paceAt s.clk.now x.patAt x.patRate (x.width * stripBytes x) }) s))) := by
  have hgo : (!inCharge s || s.md.patrolPaused || v.patRate = 0 || v.st != .optimal || v.stripes ≤ v.patWm || v.initWm ≤ v.patWm
      || !due v.patAt s.clk.now || !passMay s i v.patWm) = false := by
    simp [hcharge, hpaused, hpat, hst, hlt, hinit, due, hrate, hmay]
  subst htz
  simp only [execPatrolStripe, hset, hgo, Bool.false_eq_true, if_false]

/-- Identity records are written where a watermark has moved and 10 s have passed since the last (R557). -/
theorem execIdentityRecordWrite_writes {s : State} {i : Nat} {v : VSet} (hset : s.vset i = some v) (hacts : actsForShelf s = true)
    (hmoved : v.idMoved = true) (hdue : due (v.idAt + 10 * sec) s.clk.now = true) (hwait : v.idWait = none) :
    execIdentityRecordWrite i s = .next (writeIds i s) := by
  simp [execIdentityRecordWrite, hset, hacts, hmoved, hdue, hwait]

/-! ## The obligations -/

/-- Settles O35: each command's desk answers once its checks pass (`letter_answered`, `withMember_pass`), and a rebuild is accepted before
its reply has set out and after it (`letter_accepted`). A rebuild's wish is log 97. -/
theorem redundancyCommandsComplete : Obligations.RedundancyCommandsComplete := by
  refine ⟨?_, ?_, ?_, ?_, ?_, ?_, ?_, ?_, ?_, ?_, ?_, ?_⟩
  · intro s p v ht hc2 hc3 hc4 hhedge hwait hlo hhi hset
    refine letter_answered ht ?_
    simp only [deskRedSetPolicy]
    rw [guardParam_pass (by simp [hc2, hc3, hc4, hhedge, hwait, hlo, hhi]), withSet_pass hset]
    rfl
  · intro s p v ht hc hset
    refine letter_answered ht ?_
    rw [deskRedGetHealth, guardParam_pass hc, withSet_pass hset]
    rfl
  · intro s p v ht hc hset hm
    refine letter_answered ht ?_
    rw [deskRedGetMember, guardParam_pass hc, withSet_pass hset, guardParam_pass (decide_eq_true hm)]
    rfl
  · intro s p ht hc hk hclear
    refine letter_answered ht ?_
    simp only [deskRedSetSpare]
    rw [guardParam_pass (by simp [hc, hk]), if_pos hclear]
    rfl
  · intro s p d ht hc hk hkeep hmember hon henum hid hinfo
    refine letter_answered ht ?_
    rw [deskRedSetSpare_designates hc hk hkeep hmember hon henum (by rw [hid]; rfl) hinfo, hid]
    rfl
  · intro s p d r ht hc hk hkeep herase hmember hon henum hid hinfo
    refine letter_answered ht ?_
    rw [deskRedSetSpare_designates hc hk hkeep hmember hon henum (by rw [herase, Bool.or_true]) hinfo, hid]
    rfl
  · intro s p v ht hc hset hm hin hmay
    refine letter_answered ht ?_
    rw [deskRedEjectMember, withMember_pass hc hset hm, check_pass (by rw [hin]; rfl), check_pass hmay]
    rfl
  · intro s p v k r ht hc hset hm hejected hslot hid
    refine letter_answered ht ?_
    simp only [deskRedReadmit]
    rw [withMember_pass hc hset hm, if_pos hejected, hslot]
    simp only [hid]
    rfl
  · intro s p v ht hc hset hm hout hfits hfits'
    exact letter_accepted ht (deskRedStartRebuild_accepts hc hset hm hout hfits)
      (deskRedStartRebuild_accepts hc (by rwa [post_vset]) hm hout hfits')
  · intro s p v ht hc hset hm hoffline
    refine letter_answered ht ?_
    rw [deskRedForceOnline, withMember_pass hc hset hm, check_pass (decide_eq_true hoffline)]
    rfl
  · intro s p v ht hc2 hc3 hset
    refine letter_answered ht ?_
    rw [deskRedReadBadRanges, guardParam_pass (by rw [hc2, hc3]; rfl), withSet_pass hset]
    rfl
  · intro s p v ht hc hset
    refine letter_answered ht ?_
    rw [deskRedClearBadRanges, guardParam_pass hc, withSet_pass hset]
    rfl

/-- Settles O36: every event of the set engine acts by its guard, and a pass starts on the stripe or region at its watermark where nothing
else holds it. That a resync takes a region's stripes all at once, bounded by neither RBDEPTH nor RBRATE, is log 97; the member timeout's
check is log 101. -/
theorem redundancyPassesComplete : Obligations.RedundancyPassesComplete := by
  refine ⟨?_, ?_, ?_, ?_, ?_, ?_, ?_, ?_, ?_, ?_, ?_, ?_⟩
  · intro s k c o hcmd hanswer
    show execDriveCompletion k s = _
    simp only [execDriveCompletion, hcmd, hanswer]
  · intro s hcharge
    show execMemberTimeoutCheck s = _
    simp [execMemberTimeoutCheck, hcharge]
  · intro s k t g sp at_ tz c v hcmd huse hat hset hhedged hanswer hread hhedge hdue
    exact execHedgeDeadline_hedges hcmd huse hat hset hhedged hanswer hread hhedge hdue
  · intro s k hk
    show execLatencyPercentileUpdate k s = _
    rw [execLatencyPercentileUpdate, if_neg (Nat.not_le.mpr hk)]
  · intro s i m v hset hcharge hm habsent hfired hdue
    exact execAbsentwaitExpiry_fires hset hcharge hm habsent hfired hdue
  · intro s i v hset hcharge honline
    show execRebuildStart i s = _
    simp only [execRebuildStart, startMissing, hcharge, hset, if_true, if_neg honline]
  · intro s i n v hset hacts hst hn hlt hdepth hrate hmay
    exact execInitStripe_takes hset hacts hst hn hlt hdepth hrate hmay
  · intro s i m n v ms hset hcharge honline hst hms hn hlt hdepth hrate hmay
    exact execRebuildStripe_takes hset hcharge honline hst hms hn hlt hdepth hrate hmay
  · intro s i m v hset hcharge honline hst hidle hlog
    exact execResyncRegion_ends hset hcharge honline hst hidle hlog
  · intro s i m k r v ns hset hcharge honline hst hidle hlog hbits hns hne hmay
    exact execResyncRegion_takes hset hcharge honline hst hidle hlog hbits hns hne hmay
  · intro s i v tz hset hcharge hpaused hpat hst hlt hinit hrate hmay htz
    exact execPatrolStripe_takes hset hcharge hpaused hpat hst hlt hinit hrate hmay htz
  · intro s i v hset hacts hmoved hdue hwait
    exact execIdentityRecordWrite_writes hset hacts hmoved hdue hwait

end Sys2Proof.Machine

/-! SUPPORT. Chapter 13's drive ports: links, initialisation and queues by the guards of their rows, and the DRV commands by what their
desks answer. Each obligation's proof has one case for each clause of its statement, in order. -/
namespace Sys2Proof.Machine

/-! ## A desk that denies -/

/-- A packet that is taken, at a desk that denies: the whole next state. -/
theorem letter_denied {op n st : Nat} {p : Packet} {s u : State} {ws : List Word} {desk : State → Desk}
    (ht : taken op n 0 p s = true) (hd : desk (s.arrived op p) = (st, ws, u)) (h0 : st ≠ stOk) (h1 : st ≠ stAccepted) (h2 : st ≠ stWithheld) :
    letter op n p s desk = .next (post p.door p.tag false st ws u) := by
  rw [letter_taken ht, atDesk_deny_eq hd h0 h1 h2]

/-! ## Links and initialisation -/

section
variable {s : State} {k : Nat} (hk : k < 24) (hon : slotOn s k = true) (hst : (s.port k).st = .training ∨ (s.port k).st = .recovery)
  (hpulse : (s.port k).pulse = none)
include hk hon hst hpulse

/-- A training drive's link that comes up within the port's settings is noted, configured and its initialisation begun, unless the
drive's class fails it (R617–R619). -/
theorem execDriveLinkUp_trains {speed width capTo mqes mps : Nat} {flit tag10 : Bool} (classOk : Bool) (hlo : 3 ≤ speed)
    (hhi : speed ≤ (s.port k).maxSpeed) (hw1 : 1 ≤ width) (hw2 : width ≤ 2) (hflit : speed = 6 → flit = true) :
    execDriveLinkUp k speed width flit classOk capTo mqes mps tag10 s = .next
      (let u := configPort k mps tag10 (doIf (decide (speed < (s.port k).minSpeed) || decide (width = 1)) (raise 578 (fld 4 0 k))
        (raise 576 (fld 4 0 k) (onPort k (fun p => { p with speed := speed, width := width, flit := flit, linked := true, downAt := none, capTo := capTo, mqes := mqes }) s)))
       if classOk then beginInit k u else initFail k (onPort k (fun p => { p with st := .init }) u)) := by
  have hmay : (k < 24 && slotOn s k && ((s.port k).st = .training || (s.port k).st = .recovery) && (s.port k).pulse.isNone) = true := by
    simp [hk, hon, hst, hpulse]
  have hok : (speed < 3 || (s.port k).maxSpeed < speed || width = 0 || 2 < width || (speed = 6 && !flit)) = false := by
    have hw0 : width ≠ 0 := by omega
    simpa [Nat.not_lt.2 hlo, Nat.not_lt.2 hhi, Nat.not_lt.2 hw2, hw0] using hflit
  simp only [execDriveLinkUp, hmay, hok]
  rfl

end

/-- An admin command that outlives its time is dropped, with DRV.ADMIN_TIMEOUT, before its kind decides what ends (R626). -/
theorem execDriveAdminTimeout_drops {s t : State} {k : Nat} {a : AdminCmd} (ha : (s.port k).admin.find? (fun a => due a.due s.clk.now) = some a)
    (ht : raise 583 (fld 4 0 k) (count1 4802 (send { kind := .driveAdmin, a := k, b := 8, c := a.kind } (onPort k (fun p => { p with admin := p.admin.erase a }) s))) = t) :
    execDriveAdminTimeout k s = .next (match a.kind with
      | 3 => initFail k t
      | 5 => finish (fun r => r.op = 0x0905 && r.key = k) 586 stHwFault (fld 4 0 k ||| fld 11 8 1) t
      | 6 => post a.door a.tag false stHwFault [0] t
      | _ => t) := by
  simp only [execDriveAdminTimeout, ha, ht] <;> rfl

/-- Settles O37: each row by its guard. The ends of a Format and of a log read are log 89, the RECOVERY of an UNUSABLE port log 92. -/
theorem drivePortsComplete : Obligations.DrivePortsComplete := by
  refine ⟨?_, ?_, ?_, ?_, ?_, ?_, ?_, ?_, ?_, ?_, ?_, ?_, ?_, ?_⟩
  · intro s k hk hon hst hpulse hdue
    show execDriveTrainingAttempt k s = _
    simp [execDriveTrainingAttempt, hk, hon, hst, hpulse, hdue]
  · intro s t u k speed width capTo mqes mps flit tag10 hk hon hst hpulse hlo hhi hw1 hw2 hflit ht hu
    subst ht hu
    exact ⟨execDriveLinkUp_trains hk hon hst hpulse true hlo hhi hw1 hw2 hflit, execDriveLinkUp_trains hk hon hst hpulse false hlo hhi hw1 hw2 hflit⟩
  · intro s k hk hst
    show execDriveLinkDown k s = _
    simp [execDriveLinkDown, driveDown, hk, hst, or_assoc]
  · intro s k t hdown hdue
    show execDownmaxExpiry k s = _
    simp [execDownmaxExpiry, hdown, hdue]
  · intro s t k n hk hspeed ht
    subst ht
    have hgo : ¬ (24 ≤ k ∨ (s.port k).speed = 0) := by simp [hspeed, Nat.not_le.2 hk]
    refine ⟨fun hn => ?_, fun hn => ?_⟩
    · show execDriveLinkRetrain k n s = _
      simp [execDriveLinkRetrain, hgo, hn]
    · show execDriveLinkRetrain k n s = _
      simp [execDriveLinkRetrain, hgo, Nat.not_lt.2 hn]
  · intro s k t hwant hst hdue
    show execCstsWaitTimeout k s = _
    simp [execCstsWaitTimeout, hwant, hst, hdue]
  · intro s k t hwant hst
    refine ⟨fun h => ?_, fun h => ?_⟩
    · show execDriveCstsReady k s = _
      simp [execDriveCstsReady, hwant, hst, h]
    · show execDriveCstsReady k s = _
      simp [execDriveCstsReady, hwant, hst, h]
  · intro s k d hk
    show execDriveAdminCompletion k d s = _
    rw [execDriveAdminCompletion, if_neg (Nat.not_le.2 hk)]
  · intro s t k a ha ht
    refine ⟨fun h => ?_, fun h => ?_, fun h => ?_⟩
    · exact (execDriveAdminTimeout_drops ha ht).trans (by simp only [h])
    · exact (execDriveAdminTimeout_drops ha ht).trans (by simp only [h])
    · exact (execDriveAdminTimeout_drops ha ht).trans (by simp only [h])
  · intro s k q cid phase o hk hq hphase
    show execDriveCqEntry k q cid phase o s = _
    simp [execDriveCqEntry, Nat.not_le.2 hk, Nat.not_le.2 hq, hphase]
  · intro s r hr
    refine ⟨fun h => ?_, fun h => ?_⟩
    · show execDriveDmaRequest r s = _
      rw [execDriveDmaRequest, if_neg (Nat.not_le.2 hr), if_pos h]
    · show execDriveDmaRequest r s = _
      rw [execDriveDmaRequest, if_neg (Nat.not_le.2 hr), if_neg h]
  · intro s k q n t hring hdue hnone
    show execDoorbellTimer k q s = _
    simp only [execDoorbellTimer, hring, hdue, if_true, hnone]
  · intro s k q n t hnone hcq hdue
    show execDoorbellTimer k q s = _
    simp only [execDoorbellTimer, hnone, hcq, hdue, if_true]
  · intro s k t hpulse hdue hrst hon
    show execDriveResetRelease k s = _
    simp [execDriveResetRelease, hpulse, hdue, hrst, hon]

/-! ## The DRV commands (R635–R640) -/

/-- The parameters of DRV.SET_PORT, in their ranges (Table 13.6). -/
theorem drvSetPort_inRange {p : Packet} (hc2 : clean (mask 23 0) (p.w 2) = true) (hc3 : clean (mask 29 0) (p.w 3) = true) (hne : (p.w 2 != 0) = true)
    {mx mn q o a d c : Nat} (hmx3 : 3 ≤ mx) (hmx6 : mx ≤ 6) (hmn3 : 3 ≤ mn) (hmn : mn ≤ mx) (hq8 : 8 ≤ q) (hq64 : q ≤ 64) (ho1 : 1 ≤ o)
    (ho : o ≤ 65536) (ha1 : 1 ≤ a) (ha : a ≤ 600) (hd1 : 1 ≤ d) (hd : d ≤ 100) (hc1 : 1 ≤ c) :
    (clean (mask 23 0) (p.w 2) && clean (mask 29 0) (p.w 3) && p.w 2 != 0 && decide (3 ≤ mx) && decide (mx ≤ 6) && decide (3 ≤ mn) && decide (mn ≤ mx)
      && decide (8 ≤ q) && decide (q ≤ 64) && decide (1 ≤ o) && decide (o ≤ 65536) && decide (1 ≤ a) && decide (a ≤ 600) && decide (1 ≤ d)
      && decide (d ≤ 100) && decide (1 ≤ c)) = true := by
  simp only [hc2, hc3, hne, hmx3, hmx6, hmn3, hmn, hq8, hq64, ho1, ho, ha1, ha, hd1, hd, hc1, decide_true, Bool.and_self]

/-- Settles O38: each command's desk answers once its parameters pass and nothing conflicts (`letter_answered`, `guardParam_pass`,
`check_pass`), a format is accepted (`letter_accepted`), and a log read withholds its reply (`letter_withheld`). -/
theorem driveCommandsComplete : Obligations.DriveCommandsComplete := by
  refine ⟨?_, ?_, ?_, ?_, ?_, ?_, ?_⟩
  · intro s p ht hc2 hc3 hne hmx3 hmx6 hmn3 hmn hq8 hq64 ho1 ho ha1 ha hd1 hd hc1
    refine letter_answered ht ?_
    rw [deskDrvSetPort, guardParam_pass (drvSetPort_inRange hc2 hc3 hne hmx3 hmx6 hmn3 hmn hq8 hq64 ho1 ho ha1 ha hd1 hd hc1)]
    rfl
  · intro s p ht hc hk
    refine letter_answered ht ?_
    rw [deskDrvGetPort, guardParam_pass (by simp [hc, hk])]
    rfl
  · intro s p d ht hc hk hst hinfo
    refine letter_answered ht ?_
    rw [deskDrvGetDrive, guardParam_pass (by simp [hc, hk])]
    simp only [hst, hinfo, Bool.or_eq_true, decide_eq_true_eq, if_true]
    rfl
  · intro s p ht hc hk hnone hon
    refine letter_answered ht ?_
    simp only [deskDrvResetDrive, hnone]
    rw [guardParam_pass (by simp [hc, hk]), check_pass (by simp), check_pass hon]
    rfl
  · intro s p i m v ht hc hk hmem hset hin hforce hon
    refine letter_answered ht ?_
    simp only [deskDrvResetDrive, hmem, hset, hin]
    rw [guardParam_pass (by simp [hc, hk]), check_pass (by simp [hforce]), check_pass hon]
    simp only [hmem]
    rfl
  · intro s p ht hc hk hses hmem hmem' hspare hst
    have hparam : (clean (mask 4 0 ||| mask 10 8) (p.w 2) && decide (bits 4 0 (p.w 2) < 24) && decide (bits 10 9 (p.w 2) ≤ 1)) = true := by
      simp [hc, hk, hses]
    refine letter_accepted ht (u := accept p 0x0905 (bits 4 0 (p.w 2)) 0 (adminTo (bits 4 0 (p.w 2)) 5 p.door p.tag [p.w 2]
      (onPort (bits 4 0 (p.w 2)) (fun x => { x with fmtDo := some (bits 8 8 (p.w 2)) }) (s.arrived 0x0905 p)))) ?_ ?_
    · rw [deskDrvFormatDrive, guardParam_pass hparam, check_pass (by simp [hmem, hspare]), check_pass (by simp [hst])]
    · rw [deskDrvFormatDrive, guardParam_pass hparam, check_pass (by simp [hmem', hspare]), check_pass (by simp [hst])]
  · intro s p ht hc2 hc4 hk hn1 hn hst
    refine letter_withheld ht ?_
    rw [deskDrvReadLog, guardParam_pass (by simp [hc2, hc4, hk, hn1, hn]), check_pass (by simp [hst])]

end Sys2Proof.Machine

/-! SUPPORT. Chapter 14's keys: the KEY commands by what their desks answer, and the zeroising, the sweep, the reservations and the tests
by the guards of their rows. Each obligation's proof has one case for each clause of its statement, in order. -/
namespace Sys2Proof.Machine

/-! ## Desks of keys -/

/-- A packet with data that is taken, at a desk that accepts: the whole next state (R861). -/
theorem letterData_accepted {op n d : Nat} {p : Packet} {s u v : State} {desk : State → Desk} (ht : taken op n d p s = true)
    (hd : desk (s.arrived op p) = (stAccepted, [], u))
    (hd' : desk (post p.door p.tag false stAccepted [] (s.arrived op p)) = (stAccepted, [], v)) :
    letterData op n d p s desk = .next (accepted op p v) := by
  rw [letterData_taken ht, atDesk_accept_eq hd hd']

/-- Where a key-encryption key is held and it unwraps the words, the desk goes on with the key. -/
theorem unwrapKey_pass {ws kek key : List Word} {s : State} (hkek : s.key.kek = some kek) (hkey : Config.kwUnwrap kek ws = some key)
    (k : List Word → State → Desk) : unwrapKey ws s k = k key s := by
  simp only [unwrapKey, hkek, hkey]

/-! ## KEY.ROTATE_KEY (R675) -/

section
variable {p : Packet} {s : State} {n : Ns} (hc2 : clean (mask 4 0) (p.w 2) = true) (hc3 : clean (mask 11 0) (p.w 3) = true)
  (hst : (s.slotOf (bits 11 0 (p.w 3))).st = .gcm) (hns : s.nsOf (bits 11 0 (p.w 3) + 1) = some n) (henc : n.enc ≠ 0)
  (hbacked : backedBlks n ≤ 2 ^ 39)
include hc2 hc3 hst hns henc hbacked

/-- Without a wrapped key, the desk draws the new one. -/
theorem deskKeyRotateKey_draws (hd : bits 4 0 (p.w 2) = 0) (hbad : s.md.entropyBad = false) :
    deskKeyRotateKey p s = (stAccepted, [], rotateTo p (bits 11 0 (p.w 3)) (s.slotOf (bits 11 0 (p.w 3))) (drawKey 2 s).1 (drawKey 2 s).2) := by
  rw [deskKeyRotateKey, check_pass (by simp [hd]), guardParam_pass (by simp [hc2, hc3, hst])]
  simp only [hst, hns]
  rw [if_neg (by decide), check_pass (by simp [henc]), check_pass (decide_eq_true hbacked), if_neg (by simp [hd]), check_pass (by simp [hbad])]

/-- With a wrapped key that unwraps, the desk takes that. -/
theorem deskKeyRotateKey_unwraps {kek key : List Word} (hd : bits 4 0 (p.w 2) = 10) (hkek : s.key.kek = some kek)
    (hkey : Config.kwUnwrap kek (p.data 2) = some key) :
    deskKeyRotateKey p s = (stAccepted, [], rotateTo p (bits 11 0 (p.w 3)) (s.slotOf (bits 11 0 (p.w 3))) key s) := by
  rw [deskKeyRotateKey, check_pass (by simp [hd]), guardParam_pass (by simp [hc2, hc3, hst])]
  simp only [hst, hns]
  rw [if_neg (by decide), check_pass (by simp [henc]), check_pass (decide_eq_true hbacked), if_pos hd, unwrapKey_pass hkek hkey]

end

/-! ## The KEY commands (R668–R689) -/

/-- Settles O39: each command's desk answers once its parameters pass and nothing conflicts (`letter_answered`, `letterData_answered`,
`guardParam_pass`, `check_pass`), and a rotation is accepted (`letterData_accepted`). DESTROY_KEY of an EMPTY slot is log 104. -/
theorem keyCommandsComplete : Obligations.KeyCommandsComplete := by
  refine ⟨?_, ?_, ?_, ?_, ?_, ?_, ?_, ?_, ?_, ?_, ?_⟩
  · intro s p ht
    exact letter_answered ht rfl
  · intro s p ht hc hd kek hkek
    refine letterData_answered ht ?_
    rw [deskKeyEstablishKek, guardParam_pass (by simp [hc, hd])]
    simp only [hkek]
    rfl
  · intro s p kek ht hc2 hc3 hmode hd hst hkek hns key hkey hne
    have hparam : (clean (mask 4 0) (p.w 2) && clean (mask 13 0) (p.w 3) && (decide (bits 13 12 (p.w 3) = 1) || decide (bits 13 12 (p.w 3) = 2))) = true := by
      simp [hc2, hc3, hmode]
    refine letterData_answered ht ?_
    rw [deskKeyImportKey, check_pass (by rcases hmode with h | h <;> simp [hd, h]), guardParam_pass hparam, check_pass (by simp [hd]),
      check_pass (by simp [hst]), unwrapKey_pass hkek hkey, guardParam_pass (by simpa [hns] using not_or_of_imp hne), check_pass (by simp [hst])]
    simp only [hst]
    rfl
  · intro s p key b ht hc hmode hst hbad hdraw
    refine letter_answered ht ?_
    rw [deskKeyGenerateKey, guardParam_pass (by simp [hc, hmode]), check_pass (by simp [hst]), check_pass (by simp [hbad])]
    simp only [hdraw]
    rfl
  · intro s p kek ht hc hmode hkek
    refine letter_answered ht ?_
    rw [deskKeyExportKey, guardParam_pass hc, check_pass (by simp [hmode])]
    simp only [hkek]
    rfl
  · intro s p ht hc hbound
    refine letter_answered ht ?_
    rw [deskKeyDestroyKey, guardParam_pass hc, check_pass (by simp [hbound])]
    rfl
  · intro s p n ht hc2 hd hc3 hst hns henc hbacked hbad
    refine letterData_accepted ht (deskKeyRotateKey_draws hc2 hc3 hst hns henc hbacked hd hbad) ?_
    rw [deskKeyRotateKey_draws hc2 hc3 (by simpa using hst) (by simpa using hns) henc hbacked hd (by simpa using hbad), post_slotOf]
  · intro s p n kek ht hc2 hd hc3 hst hns henc hbacked hkek key hkey
    refine letterData_accepted ht (deskKeyRotateKey_unwraps hc2 hc3 hst hns henc hbacked hd hkek hkey) ?_
    rw [deskKeyRotateKey_unwraps hc2 hc3 (by simpa using hst) (by simpa using hns) henc hbacked hd (by simpa using hkek) hkey, post_slotOf]
  · intro s p ht hc
    refine letter_answered ht ?_
    rw [deskKeyGetSlot, guardParam_pass hc]
    rfl
  · intro s p ht hc2 hc3 hc4 hmode hcore halen hd hlen hmod hlive
    refine letterData_answered ht ?_
    rw [deskKeyRunVector, guardParam_pass (by simp [hc2, hc3, hc4, hmode, hcore, halen]), check_pass (by simp [hmode, hd])]
    simp only [hmode]
    simp [Nat.not_lt.2 hlen, hmod, check, hlive]
    rfl
  · intro s p ct ht hc2 hc3 hc4 hmode hcore halen hd hlen hlive hct
    subst hct
    refine letterData_answered ht ?_
    rw [deskKeyRunVector, guardParam_pass (by simp [hc2, hc3, hc4, hmode, hcore, halen]), check_pass (by simp [hmode, hd])]
    have hok : ¬ (bits 15 0 (p.w 4) ≠ 512 ∧ bits 15 0 (p.w 4) ≠ 4096) := by omega
    simp [hmode, hok, check, hlive]
    rfl

/-! ## Slots, sweeps and tests (R647–R685) -/

/-- Settles O40: each row by its guard; the visit of the sweep stands in `sweepNext` (log 247). -/
theorem keyEventsComplete : Obligations.KeyEventsComplete := by
  refine ⟨?_, ?_, ?_, ?_, ?_, ?_, ?_, ?_, ?_⟩
  · intro s i hi husers hdying
    refine ⟨fun h => ?_, fun h => ?_⟩
    · show execKeyZeroise i s = _
      simp [execKeyZeroise, husers, Nat.not_le.2 hi, hdying, h]
    · show execKeyZeroise i s = _
      simp [execKeyZeroise, husers, Nat.not_le.2 hi, hdying, h]
  · intro s i hi husers hdying hst hprev
    show execKeyZeroise i s = _
    simp [execKeyZeroise, husers, Nat.not_le.2 hi, hdying, hst, hprev]
  · intro s i her hsan
    have hsan' : (onKslot i (fun x => { x with erasing := false }) s).nvm.sanitize = none := hsan
    show execKeyCopiesErased i s = _
    simp [execKeyCopiesErased, her, hsan']
  · intro s i n hns hst hacts
    refine ⟨fun hnone hpass => ?_, fun p y hnone hpass => ?_, fun lba hnext hahead hpages => ?_⟩
    · show execRotationSweepStep i s = _
      simp [execRotationSweepStep, hns, hst, hacts, hnone, hpass]
    · show execRotationSweepStep i s = _
      simp [execRotationSweepStep, hns, hst, hacts, hnone, hpass]
    · show execRotationSweepStep i s = _
      simp [execRotationSweepStep, hns, hst, hacts, hnext, hahead, Nat.not_lt.2 hpages]
  · intro s i hst hdue
    show execSweepPositionRecord i s = _
    simp [execSweepPositionRecord, hst, hdue]
  · intro s c a hc hask hmark
    show execNonceReservationLive c s = _
    simp only [execNonceReservationLive, hask, Nat.not_le.2 hc, hmark]
    rfl
  · intro s fs horder hdue
    show execCipherSelfTest fs s = _
    rw [execCipherSelfTest, if_pos]
    cases h : s.key.testAt with
    | none => simpa [h, horder] using hdue
    | some t => simpa [h, horder, due] using hdue
  · intro s hbad
    show execEntropyRetest true s = _
    simp [execEntropyRetest, hbad]
  · intro s hbad
    show execDrbgReseed s = _
    simp [execDrbgReseed, hbad]

end Sys2Proof.Machine

/-! SUPPORT. Chapter 15's links: training, traffic and the causes that take a link down by the guards of their rows, and a message that
comes by a link through `routed`. Each obligation's proof has one case for each clause of its statement, in order. -/
namespace Sys2Proof.Machine

/-! ## Training (R695–R705) -/

/-- A link that may train, is SILENT and whose retry, signal or 10 ms has come enters EQUALISE (R700). -/
theorem execLinkSignalDetect_equalises {k g : Nat} {s u : State} (hk : k < 3) (hu : onLink k (fun l => { l with signal := g % 2 ^ lanesOf k }) s = u)
    (hmay : linkMay u k = true) (hst : (u.link k).st = .silent)
    (hgo : match (u.link k).retryAt with | some t => t ≤ u.clk.now | none => (u.link k).signal ≠ 0 ∨ (u.link k).since + 10 * ms ≤ u.clk.now) :
    execLinkSignalDetect k g s = .next (linkTo k .equalise (onLink k (fun l => { l with retryAt := none, lanes := [], peer := none, same := 0 })
      (if (u.link k).session = 0 then drawSession k u else u))) := by
  simp only [execLinkSignalDetect, hk, if_true, hu, hmay, hst]
  cases h : (u.link k).retryAt with
  | some t =>
    have hdue : due t u.clk.now = true := by simpa [h, due] using hgo
    simp [hdue]
  | none =>
    have hdue : (decide ((u.link k).signal ≠ 0) || due ((u.link k).since + 10 * ms) u.clk.now) = true := by simpa [h, due] using hgo
    simp only [hdue]
    rfl

/-- Settles O41: each row by its guard, and what the codewords and blocks make of a link by its state. One answer for each training frame
is log 244, the count of the own ACKCFG blocks log 148. -/
theorem linkTrainingComplete : Obligations.LinkTrainingComplete := by
  refine ⟨?_, ?_, ?_, ?_, ?_, ?_, ?_, ?_, ?_, ?_, ?_⟩
  · intro s u k g hk hu hmay hst hgo
    exact execLinkSignalDetect_equalises hk hu hmay hst hgo
  · intro s t k i f e w hmay hcrc hi hst ht
    show execTrainingFrame k i f e w s = _
    simp only [execTrainingFrame, hmay, hcrc, Nat.not_le.2 hi, hst, ht]
    rfl
  · intro s k i f e w hmay hcrc hi hst hgroup
    show execTrainingFrame k i f e w s = _
    simp only [execTrainingFrame, hmay, hcrc, Nat.not_le.2 hi, hst, hgroup]
    rfl
  · intro s t k hst hdue ht
    show execEqualiseTimeout k s = _
    simp only [execEqualiseTimeout, hst, hdue, ht]
    rfl
  · intro s t k i run b hmay hi hst ht hst'
    show execAlignmentCodeword k i b run s = _
    simp only [execAlignmentCodeword, hmay, Nat.not_le.2 hi, hst, ht, hst']
    rfl
  · intro s t k i run b hmay hi hst ht hst'
    show execAlignmentCodeword k i b run s = _
    simp only [execAlignmentCodeword, hmay, Nat.not_le.2 hi, hst, ht, hst']
    simp
  · intro s t k i run c hmay hi hst ht hst' hagree
    show execAlignmentCodeword k i true run s = _
    simp [execAlignmentCodeword, hmay, Nat.not_le.2 hi, hst, ht, hst', hagree]
  · intro s t u k n b hmay hcrc hst hn ht hn8 hu
    refine ⟨fun r hr => ?_, fun hr => ?_⟩
    · show execConfigBlock k b s = _
      simp [execConfigBlock, hmay, hcrc, hst, hn, ht, Nat.not_lt.2 hn8, hu, hr]
    · show execConfigBlock k b s = _
      simp [execConfigBlock, hmay, hcrc, hst, hn, ht, Nat.not_lt.2 hn8, hu, hr]
  · intro s k hst hdue hresume
    show execLinkAlignTimeout k s = _
    rcases hst with h | h <;> simp [execLinkAlignTimeout, h, hdue, hresume]
  · intro s k t hst hdue hresume hlt
    show execLinkAlignTimeout k s = _
    rcases hst with h | h <;> simp [execLinkAlignTimeout, h, hdue, hresume, hlt]
  · intro s k t hretry hdue hmay hst
    show execLinkRefuseRetry k s = _
    simp [execLinkRefuseRetry, hretry, hdue, hmay, hst]

/-! ## Traffic (R708–R732) -/

/-- A message that has hops left, or whose channel counts none, goes where the route sends it (R732, R782). -/
theorem routed_goes {m : MsgIn} {vc : Nat} {pass : OutMsg} {take : State → State} {s t : State} (ht : freeCredits m.link vc m.len s = t)
    (hhops : m.hops < 15 ∨ vc < 8) :
    routed m vc pass take s = (match routeOf t m with
      | .take => take t
      | .pass k => linkSend k { pass with route := m.dst + 16 * ((m.hops + 1) % 16) } t
      | .drop => count1 6190 t) := by
  subst ht
  have hgo : ¬ (decide (15 ≤ m.hops) && decide (8 ≤ vc)) = true := by
    simp only [Bool.and_eq_true, decide_eq_true_eq]
    omega
  rw [routed]
  exact (if_neg hgo).trans (by cases routeOf (freeCredits m.link vc m.len s) m <;> rfl)

/-- Settles O42: each row by its guard, a forwarded frame by its route (`routed_goes`); the 10 ms of silence after a session's end are
R699 (log 246). -/
theorem linkTrafficComplete : Obligations.LinkTrafficComplete := by
  refine ⟨?_, ?_, ?_, ?_, ?_, ?_, ?_, ?_, ?_, ?_, ?_, ?_, ?_, ?_, ?_⟩
  · intro s t k f hst herrs ht
    show execFlitReceive k f s = _
    simp only [execFlitReceive, hst, Nat.not_lt.2 herrs, ht]
    rfl
  · intro s k f hst herrs
    show execFlitReceive k f s = _
    simp [execFlitReceive, hst, herrs]
  · intro s k hst hdue
    show execReplayTimeout k s = _
    simp [execReplayTimeout, hst, hdue]
  · intro s k i hst hgroup
    show execLaneFault k i s = _
    simp [execLaneFault, hst, hgroup]
  · intro s
    rfl
  · intro s t k q hst hdue hq ht
    show execHeartbeatSend k s = _
    simp only [execHeartbeatSend, hst, due, hdue, hq, ht]
    rfl
  · intro s t k h hst ht
    show execHeartbeatReceive k h s = _
    simp only [execHeartbeatReceive, hst, ht]
    rfl
  · intro s k hst hdue
    show execHeartbeatTimeout k s = _
    simp [execHeartbeatTimeout, hst, hdue]
  · intro s k t hresume hdue hst
    show execSessionResumeTimeout k s = _
    simp [execSessionResumeTimeout, hresume, hdue, hst]
  · intro s t k a hwide hst hdue hmay ht
    have hmay' : (if k = 0 then decide (s.bay.bay = 0) else decide (k = 2)) = true := by
      rcases hmay with ⟨rfl, hb⟩ | rfl
      · simp [hb]
      · rfl
    show execLinkWiden k s = _
    simp only [execLinkWiden, hwide, hst, hdue, hmay', ht]
    simp
  · intro s hnew hdue hup
    show execPostmarkAckSend s = _
    simp only [execPostmarkAckSend, hnew, hdue, hup]
    rfl
  · intro s t n left ht hon hn hleft hne
    show execPostmarkAckReceive n s = _
    simp only [execPostmarkAckReceive, ht, hon, Nat.not_lt.2 hn, hleft, hne]
    rfl
  · intro s hon hlt hdue
    show execPostmarkStall s = _
    simp [execPostmarkStall, hon, hlt, hdue]
  · intro s k cls w hst hw hstall
    show execCreditStall k cls s = _
    have hstall' : (noCredit s w (cls % 8) || (s.link k).queue.any fun r => decide (r.vc = 8 + cls % 8)) = true := by simpa using hstall
    simp only [execCreditStall, hst, hw, hstall']
    rfl
  · intro s t m cls port f hst ht hhops
    have hroute := fun (g : Frame) => routed_goes (pass := { kind := .forward, a := port, b := g.len, c := cls })
      (take := fun s => if port < 32 then frameIn { g with lport := port } s else s) ht (.inl hhops)
    have hrun : execForwardedFrame m cls port (some f) s = .next (routed m (8 + cls % 8) { kind := .forward, a := port, b := f.len, c := cls }
        (fun s => if port < 32 then frameIn { f with lport := port } s else s) s) := by
      simp only [execForwardedFrame, hst]
      rfl
    refine ⟨fun hr hport => ?_, fun k hr => ?_, fun hr => ?_⟩
    · show execForwardedFrame m cls port (some f) s = _
      rw [hrun, hroute f, hr]
      simp only [hport, if_true]
    · show execForwardedFrame m cls port (some f) s = _
      rw [hrun, hroute f, hr]
    · show execForwardedFrame m cls port (some f) s = _
      rw [hrun, hroute f, hr]

end Sys2Proof.Machine

/-! SUPPORT. Chapter 16's lease and take-over: the lease frames and their clocks by the guards of their rows, the records of a shadowing
session through `placeRecord`, and the PAIR commands by what their desks answer. Each obligation's proof has one case for each clause of
its statement, in order. -/
namespace Sys2Proof.Machine

/-! ## The lease (R739–R770) -/

/-- The state after a DENY whose result tells that the pair is down (R761). -/
def denied (t : State) : State := if t.pair.down then t else raise 719 (pairParam t 0) (t.onPair fun p => { p with down := true })

section
variable {f : WitnessFrame} {s t : State} (hmay : leaseMay s = true)
include hmay

/-- A GRANT is noted first; then it renews a lease that is held, is ignored in Maintenance without a forced claim, and gives the lease
otherwise (R744, R746; log 30). -/
theorem execLeaseGrant_takes (ht : sawWitness f s = t) :
    execLeaseGrant f s = .next (if t.pair.lease then renewed f t
      else if t.md.mode = .maintenance && t.pair.force.isNone then t else granted f t) := by
  simp only [execLeaseGrant, hmay, ht]
  rfl

/-- A DENY ends a forced claim first; then it has the effect of its result and of what it answers (R757, R761; log 30). -/
theorem execLeaseDeny_takes (ht : answerForce stConflict (sawWitness f s) = t) :
    execLeaseDeny f s = .next (if f.result = 4 then
        (if (denied t).pair.lease then fence (denied t)
         else if (denied t).md.mode = .standby then changeMode .fenced ((denied t).onPair fun p => { p with current := false }) else denied t)
      else if t.pair.take = some .released && f.seq = t.pair.relSeq then unfreeze t
      else if t.pair.lease && t.pair.fault ≠ 0 && f.result = 1 then fence t
      else t) := by
  simp only [execLeaseDeny, hmay, ht]
  rfl

/-- An ACK is noted first; then it ends the asking for Solo or hands the lease over (R756, R767). -/
theorem execLeaseAck_takes (ht : sawWitness f s = t) :
    execLeaseAck f s = .next (if t.pair.soloAsk && f.seq = t.pair.soloSeq then goSolo t
      else if t.pair.take = some .released && f.seq = t.pair.relSeq then handOver t else t) := by
  simp only [execLeaseAck, hmay, ht]
  rfl

end

/-- Settles O43: each sending and each clock by its guard, a GRANT, a DENY and an ACK by what they are taken for
(`execLeaseGrant_takes`, `execLeaseDeny_takes`, `execLeaseAck_takes`). That a GRANT is ignored in Maintenance without a forced claim, and
that DENY 4 makes a Standby Fenced, is log 30. -/
theorem leaseComplete : Obligations.LeaseComplete := by
  refine ⟨?_, ?_, ?_, ?_, ?_, ?_, ?_, ?_, ?_, ?_, ?_, ?_, ?_, ?_⟩
  · intro s hlease hmay hdue
    show execRenewSend s = _
    simp [execRenewSend, hlease, hmay, hdue]
  · intro s hlease hmay hunanswered hresends hdue
    show execRenewResend s = _
    simp [execRenewResend, hlease, hmay, hunanswered, Nat.not_le.2 hresends, hdue]
  · intro s hlease hmay hdue
    show execStatusSend s = _
    simp [execStatusSend, hlease, hmay, hdue]
  · intro s t hclaim hmode hlease hmay hholder hmaint hself hdram hdue
    have hfree : ¬ s.pair.holder ≤ 1 := by omega
    show execClaimSend s = _
    simp [execClaimSend, hclaim, hmode, hlease, hmay, hfree, hmaint, hself, hdram, hdue]
  · intro s t f hmay ht
    refine ⟨fun hlease => ?_, fun hlease hmode => ?_, fun hlease hmode hforce => ?_⟩
    · exact (execLeaseGrant_takes hmay ht).trans (by rw [if_pos hlease])
    · have hgive : ¬ (t.md.mode = .maintenance ∧ t.pair.force = none) := fun ⟨hm, hf⟩ => by simp [hm, hf] at hmode
      exact (execLeaseGrant_takes hmay ht).trans (by simp [hlease, hgive])
    · exact (execLeaseGrant_takes hmay ht).trans (by simp [hlease, hmode, hforce])
  · intro s t u f hmay ht hu
    have hu' : denied t = u := hu
    refine ⟨fun hres hlease => ?_, fun hres hlease hmode => ?_, fun hres hlease hmode => ?_, fun hres htake hseq => ?_,
      fun hres htake hlease hfault => ?_⟩
    · exact (execLeaseDeny_takes hmay ht).trans (by simp [hres, hu', hlease])
    · exact (execLeaseDeny_takes hmay ht).trans (by simp [hres, hu', hlease, hmode])
    · exact (execLeaseDeny_takes hmay ht).trans (by simp [hres, hu', hlease, hmode])
    · exact (execLeaseDeny_takes hmay ht).trans (by simp [hres, htake, hseq])
    · exact (execLeaseDeny_takes hmay ht).trans (by simp [hres, htake, hlease, hfault])
  · intro s t f hmay ht
    refine ⟨fun hask hseq => ?_, fun hask htake hseq => ?_⟩
    · exact (execLeaseAck_takes hmay ht).trans (by simp [hask, hseq])
    · exact (execLeaseAck_takes hmay ht).trans (by simp [hask, htake, hseq])
  · intro s hlease hdue
    show execLeaseExpiry s = _
    simp [execLeaseExpiry, hlease, hdue]
  · intro s hwitness hmay hdue
    show execWitnessLost s = _
    simp [execWitnessLost, hwitness, hmay, hdue]
  · intro s
    rfl
  · intro s d t tag hforce hdue
    show execForceClaimTimeout s = _
    simp [execForceClaimTimeout, hforce, hdue]
  · intro s t g hgrant harps hmode hfront hdue ht
    show execGratuitousArp s = _
    simp only [execGratuitousArp, hgrant, Nat.not_le.2 harps, hmode, hfront, hdue, ht]
    rfl
  · intro s t hhold hdue
    show execMemberWriteHoldExpiry s = _
    simp [execMemberWriteHoldExpiry, hhold, hdue]
  · intro s g c hgrant hlease hfault hlast hself
    show execSelfFaultDetect c s = _
    simp [execSelfFaultDetect, hgrant, hlease, hfault, Nat.not_lt.2 hlast, hself]

/-! ## Records of a shadowing session (R714, R715, R730, R731) -/

section
variable {n vc len : Nat} {f : State → State} {s t : State} (ht : freeCredits 0 vc len s = t)
include ht

/-- A record that is not the next of a session that runs here only frees its credits. -/
theorem placeRecord_passes (placed : Bool) (hn : n ≠ 1)
    (hno : takesShadow t = false ∨ t.pair.rxOn = false ∨ t.pair.stuck = true ∨ n ≠ t.pair.rxseq + 1) : placeRecord n vc len placed f s = t := by
  simp only [placeRecord, ht, hn, if_false]
  rcases hno with h | h | h | h <;> simp [h]

variable (htakes : takesShadow t = true)
include htakes

section
variable (hn : n ≠ 1) (hon : t.pair.rxOn = true) (hfree : t.pair.stuck = false) (hnext : n = t.pair.rxseq + 1)
include hn hon hfree hnext

/-- The next record of a session is placed and postmarked. -/
theorem placeRecord_places : placeRecord n vc len true f s
      = (f t).onPair fun p => { p with rxseq := n, rxNew := p.rxNew + 1, rxAt := if p.rxNew = 0 then (f t).clk.now else p.rxAt } := by
  have hin : decide (n ≠ t.pair.rxseq + 1) = false := by simp [hnext]
  simp only [placeRecord, ht, htakes, hn, if_false, hon, hfree, hin]
  rfl

/-- One that cannot be placed stops the postmarking. -/
theorem placeRecord_sticks : placeRecord n vc len false f s = t.onPair fun p => { p with stuck := true } := by
  simp only [placeRecord, ht, htakes, hn, if_false, hon, hfree]
  simp [hnext]

end

/-- The first record starts a session and is placed. -/
theorem placeRecord_starts (hon : (startFeed t).pair.rxOn = true) (hfree : (startFeed t).pair.stuck = false)
    (hfirst : (startFeed t).pair.rxseq = 0) : placeRecord 1 vc len true f s
      = (f (startFeed t)).onPair fun p => { p with rxseq := 1, rxNew := p.rxNew + 1, rxAt := if p.rxNew = 0 then (f (startFeed t)).clk.now else p.rxAt } := by
  simp only [placeRecord, ht, htakes, if_true, hon, hfree, hfirst]
  rfl

end

/-! ## The PAIR commands -/

/-- A taken PAIR.TAKEOVER of a pair that runs freezes (R756). -/
theorem deskPairTakeover_freezes {p : Packet} {s : State} (hpaired : s.pair.paired = true) (htake : s.pair.take = none) :
    deskPairTakeover p s = (stAccepted, [], accept p 0x0B02 0 0 (s.onPair fun d => { d with take := some .freeze, egressHalt := true, frozen := [] })) := by
  simp [deskPairTakeover, check, hpaired, htake]

/-- A PAIR.START_RESYNC at a pair whose link is up and whose partner is not current is accepted (R762). -/
theorem deskPairStartResync_accepts {p : Packet} {s : State} (hup : s.links.partnerUp = true) (hpeer : s.pair.peerCurrent = false) :
    deskPairStartResync p s = (stAccepted, [], if resyncMay (accept p 0x0B04 0 0 s) = true then beginResync (accept p 0x0B04 0 0 s) else accept p 0x0B04 0 0 s) := by
  simp [deskPairStartResync, check, hup, hpeer]

/-- Settles O44: the records by `placeRecord_places`, `placeRecord_sticks`, `placeRecord_starts` and `placeRecord_passes`, the take-over and
the resynchronisation by the guards of their rows, the commands by what their desks answer. The percentage n · 33 of a phase's end is the
model's own number, and that end is log 160. -/
theorem pairComplete : Obligations.PairComplete := by
  refine ⟨?_, ?_, ?_, ?_, ?_, ?_, ?_, ?_, ?_, ?_, ?_, ?_, ?_, ?_, ?_, ?_, ?_, ?_, ?_, ?_, ?_, ?_, ?_, ?_, ?_, ?_, ?_⟩
  · intro s t n len b ht htakes hn hon hfree hnext
    exact congrArg _ (placeRecord_places ht htakes hn hon hfree hnext)
  · intro s t n len m ht htakes hn hon hfree hnext
    exact congrArg _ (placeRecord_places ht htakes hn hon hfree hnext)
  · intro s t u n len l ht htakes hn hon hfree hnext hu
    subst hu
    exact congrArg _ (placeRecord_places ht htakes hn hon hfree hnext)
  · intro s t len b ht htakes hon hfree hfirst
    exact congrArg _ (placeRecord_starts ht htakes hon hfree hfirst)
  · intro s t n len b ht htakes hn hon hfree hnext
    exact congrArg _ (placeRecord_sticks ht htakes hn hon hfree hnext)
  · intro s t n y len b ht hn hno
    exact congrArg _ (placeRecord_passes ht y hn hno)
  · intro s t len m ht htakes hon hfree hfirst
    exact congrArg _ (placeRecord_starts ht htakes hon hfree hfirst)
  · intro s t n len m ht htakes hn hon hfree hnext
    exact congrArg _ (placeRecord_sticks ht htakes hn hon hfree hnext)
  · intro s t n y len m ht hn hno
    exact congrArg _ (placeRecord_passes ht y hn hno)
  · intro s t len l ht htakes hon hfree hfirst
    exact congrArg _ (placeRecord_starts ht htakes hon hfree hfirst)
  · intro s t n len l ht htakes hn hon hfree hnext
    exact congrArg _ (placeRecord_sticks ht htakes hn hon hfree hnext)
  · intro s t n y len l ht hn hno
    exact congrArg _ (placeRecord_passes ht y hn hno)
  · intro s t htake hout hmark ht
    show execTakeoverFreezeDrained s = _
    simp [execTakeoverFreezeDrained, htake, hout, Nat.not_lt.2 hmark, ht]
  · intro s t htake hmode hdue ht
    have hmode' : (count1 5661 t).md.mode = .active := by rw [count1_md, ← ht]; exact hmode
    show execTakeoverForwardEnd s = _
    simp only [execTakeoverForwardEnd, htake, hdue, ht, hmode', if_true]
    rfl
  · intro s hmay hauto
    show execResyncStart s = _
    simp [execResyncStart, hmay, hauto]
  · intro s n b hphase hon hdue hn
    show execResyncPhaseDone n b s = _
    simp [execResyncPhaseDone, hphase, hon, due, hdue, hn]
  · intro s t b hphase hon hdue ht
    show execResyncPhaseDone 3 b s = _
    simp [execResyncPhaseDone, hphase, hon, due, hdue, ht]
  · intro s b hnone hon hmode
    show execResyncPhaseDone 3 b s = _
    rcases hmode with h | h | h <;> simp [execResyncPhaseDone, hnone, hon, h]
  · intro s p ht
    exact letter_answered ht rfl
  · intro s p ht hpaired htake
    exact letter_accepted ht (deskPairTakeover_freezes hpaired htake) (deskPairTakeover_freezes (by rwa [post_pair]) (by rwa [post_pair]))
  · intro s p ht hpaired
    exact letter_denied ht (by rw [deskPairTakeover, check, hpaired]; rfl) (by decide) (by decide) (by decide)
  · intro s p x ht hpaired htake
    exact letter_denied ht (by rw [deskPairTakeover, check_pass hpaired, htake]; rfl) (by decide) (by decide) (by decide)
  · intro s p ht hc hr1 hr
    refine letter_answered ht ?_
    rw [deskPairSetPolicy, guardParam_pass (by simp [hc, hr1, hr])]
    rfl
  · intro s p ht hup hpeer
    exact letter_accepted ht (deskPairStartResync_accepts hup hpeer) (deskPairStartResync_accepts (by rwa [post_links]) (by rwa [post_pair]))
  · intro s p ht hno
    have hclosed : ((s.arrived 0x0B04 p).links.partnerUp && !(s.arrived 0x0B04 p).pair.peerCurrent) = false := by
      rcases hno with h | h <;> simp [h]
    exact letter_denied ht (by rw [deskPairStartResync, check, hclosed]; rfl) (by decide) (by decide) (by decide)
  · intro s p ht hw hforce
    refine letter_withheld ht ?_
    rw [deskPairForceClaim, guardParam_pass (by simp [hw]), hforce]
    rfl
  · intro s p ht hw
    exact letter_denied ht (by rw [deskPairForceClaim, guardParam, if_neg (by simpa using hw)]; rfl) (by decide) (by decide) (by decide)

end Sys2Proof.Machine

/-! SUPPORT. Chapter 17's stack: HELLO, the record and the master by the guards of their rows, a message that comes by a link through
`routed`, and the STK commands by what their desks answer. Each obligation's proof has one case for each clause of its statement, in order. -/
namespace Sys2Proof.Machine

/-! ## Messages of the stack (R774–R791) -/

section
variable {m : MsgIn} {vc : Nat} {pass : OutMsg} {take : State → State} {s t : State} (ht : freeCredits m.link vc m.len s = t)
  (hroute : routeOf t m = .take)
include ht hroute

/-- A message that its route keeps here has the effect of its kind. -/
theorem routed_takes (hhops : m.hops < 15 ∨ vc < 8) : routed m vc pass take s = take t := by
  rw [routed_goes ht hhops, hroute]

end

/-- A forwarded message that its route keeps here has the effect of its kind behind its shadow record (R730, R790). -/
theorem fwdMessage_takes {m : MsgIn} {cls : Nat} {s t : State} (hst : (s.link m.link).st = .active)
    (ht : freeCredits m.link (8 + cls % 8) m.len s = t) (hhops : m.hops < 15) (hroute : routeOf t m = .take) (out : OutMsg) (take : State → State) :
    fwdMessage m cls out take s = take (shadowFwd m.link t) := by
  rw [fwdMessage, if_neg (by simp [hst]), routed_takes ht hroute (.inl hhops)]

/-- Settles O45: each timer by its guard, each message by its route (`routed_takes`, `fwdMessage_takes`). That the partner's REACH comes as a
HELLO of link 3 or 4 is log 154, the BUSY 1000 of an unreachable master log 175. -/
theorem stackMessagesComplete : Obligations.StackMessagesComplete := by
  refine ⟨?_, ?_, ?_, ?_, ?_, ?_, ?_, ?_, ?_, ?_, ?_, ?_, ?_, ?_, ?_, ?_, ?_⟩
  · intro s k hk hst hhb hdue
    show execHelloSend k s = _
    rcases hk with rfl | rfl <;> simp [execHelloSend, hst, hhb, due, hdue]
  · intro s k h hk hst
    show execHelloReceive k h s = _
    rcases hk with rfl | rfl <;> simp [execHelloReceive, hst]
  · intro s k h hk hup
    show execHelloReceive k h s = _
    rcases hk with rfl | rfl <;> simp [execHelloReceive, hup]
  · intro s k nb h hnb hhello hdue
    show execHelloTimeout k s = _
    simp [execHelloTimeout, hnb, hhello, hdue]
  · intro s m r hst hnone
    show execStackRecordMessage m r s = _
    simp [execStackRecordMessage, hst, hnone]
  · intro s t m r c hst hrec ht hhops hroute
    show execStackRecordMessage m r s = _
    simp only [execStackRecordMessage, hst, hrec, routed_takes ht hroute (.inl hhops)]
    rfl
  · intro s t hform hdue hnone hcand
    show execStackFormTimeout s = _
    simp [execStackFormTimeout, hform, hdue, hnone, hcand]
  · intro s t m full es nqn lis hst ht hroute
    show execDirUpdate m full es nqn lis s = _
    simp only [execDirUpdate, hst, routed_takes ht hroute (.inr (by decide))]
    rfl
  · intro s t m src op p hst ht hhops hroute
    show execAdminRequest m src op p s = _
    simp only [execAdminRequest, hst, routed_takes ht hroute (.inl hhops)]
    rfl
  · intro s t m d st tag hst ht hhops hroute
    show execAdminReply m d tag st s = _
    simp only [execAdminReply, hst, routed_takes ht hroute (.inl hhops)]
    rfl
  · intro s hreach htold hrec hacts hdue
    have hsome : s.stk.record.isNone = false := by simpa [← Option.not_isSome] using hrec
    show execMasterUnreachable s = _
    simp only [execMasterUnreachable, hreach, htold, hsome, hacts, hdue]
    rfl
  · intro s t m h cls sub host op c hst ht hhops hroute
    exact congrArg _ (fwdMessage_takes hst ht hhops hroute _ _)
  · intro s t m cls h hst ht hhops hroute
    exact congrArg _ (fwdMessage_takes hst ht hhops hroute _ _)
  · intro s t m cls h bs hst ht hhops hroute
    exact congrArg _ (fwdMessage_takes hst ht hhops hroute _ _)
  · intro s t m cls d h hst ht hhops hroute
    exact congrArg _ (fwdMessage_takes hst ht hhops hroute _ _)
  · intro s t m cls h st dnr hst ht hhops hroute
    exact congrArg _ (fwdMessage_takes hst ht hhops hroute _ _)
  · intro s tag t w c hfwd hgone hcmd hready hdue
    show execForwardTimeout tag s = _
    simp [execForwardTimeout, hfwd, hgone, hcmd, hready, hdue]

/-! ## The STK commands (R794–R797) -/

/-- STK.GET_SHELF of a shelf of the stack answers its words and takes the free value of its Active bay (log 169). -/
theorem deskStkGetShelf_answers {p : Packet} {s : State} (hc : clean (mask 2 0) (p.w 2) = true) (hin : inStack s (bits 2 0 (p.w 2)) = true) :
    deskStkGetShelf p s = (stOk, (deskStkGetShelf p s).2.1, (takeFree s).2) := by
  rw [deskStkGetShelf, guardParam_pass hc]
  simp only [hin]
  rfl

/-- STK.ADD_SHELF at a place of its own of a candidate that is found there is accepted (R795; log 169). -/
theorem deskStkAddShelf_accepts {p : Packet} {s b : State} {c : CandPlace} (hmaster : s.master = true) (horder : s.order ≠ 2)
    (hc : clean (mask 3 0) (p.w 2) = true) (hauto : bit 3 (p.w 2) = false) (hout : inStack s (bits 2 0 (p.w 2)) = false)
    (hfind : findCand ((p.w 3).toNat + (p.w 4).toNat * 2 ^ 32) s = (some c, b)) (hout' : inStack b (bits 2 0 (p.w 2)) = false)
    (hbetween : between c (bits 2 0 (p.w 2)) = true) :
    deskStkAddShelf p s = (stAccepted, [], accept p 0x0C03 (bits 2 0 (p.w 2)) 0 (admitShelf (bits 2 0 (p.w 2)) ((p.w 3).toNat + (p.w 4).toNat * 2 ^ 32) c b)) := by
  have hq : bits 2 0 (p.w 2) < 8 := Nat.mod_lt _ (by decide)
  simp only [deskStkAddShelf, hauto]
  rw [check_pass (by simp [hmaster]), guardParam_pass hc, check_pass (by simp [horder]), check_pass (by simp [hout]), hfind]
  simp only [Bool.false_eq_true, if_false]
  rw [check_pass (by simp [hq]), check_pass (by simp [hq, hout', hbetween])]

section
variable {p : Packet} {s : State} (hmaster : s.master = true) (hc : clean (mask 2 0 ||| mask 8 8) (p.w 2) = true) (hq : bits 2 0 (p.w 2) ≠ 0)
  (hin : inStack s (bits 2 0 (p.w 2)) = true)
include hmaster hc hq hin

/-- STK.REMOVE_SHELF of a shelf with no namespaces left, or of a lost one by FORCE, removes it after the namespaces it had (R796). -/
theorem deskStkRemoveShelf_removes (hmay : homedOn s (bits 2 0 (p.w 2)) = [] ∨ (bit 8 (p.w 2) = true ∧ s.stk.lost.testBit (bits 2 0 (p.w 2)) = true)) :
    deskStkRemoveShelf p s = (stOk, [], removeShelf (bits 2 0 (p.w 2)) (forAll (homedOn s (bits 2 0 (p.w 2)))
      (fun n s => sendDir n (bits 2 0 (p.w 2)) true (s.onVol fun v => { v with ns := tabDel v.ns n })) s)) := by
  rw [deskStkRemoveShelf, check_pass hmaster, guardParam_pass hc, check_pass (by simp [hq]), check_pass hin, check_pass (by simpa using hmay)]
  rfl

end

/-- Settles O46: each command's desk answers once its checks pass, and an admission is accepted (`letter_accepted`). What no message of
the stack tells is a free value (log 169). -/
theorem stackCommandsComplete : Obligations.StackCommandsComplete := by
  refine ⟨?_, ?_, ?_, ?_, ?_, ?_⟩
  · intro s p ht
    exact letter_answered ht rfl
  · intro s p ht hc hin
    exact letter_answered ht (deskStkGetShelf_answers hc hin)
  · intro s p c b ht hmaster hmaster' horder horder' hc hauto hout hout' hfind hfind' houtf houtb hbetween
    exact letter_accepted ht (deskStkAddShelf_accepts hmaster horder hc hauto hout (Prod.ext hfind rfl) houtf hbetween)
      (deskStkAddShelf_accepts hmaster' horder' hc hauto hout' hfind' houtb hbetween)
  · intro s p ht hmaster hc hq hin hempty
    refine letter_answered ht ?_
    rw [deskStkRemoveShelf_removes hmaster hc hq hin (.inl hempty), hempty]
    rfl
  · intro s p ht hmaster hc hq hin hforce hlost
    exact letter_answered ht (deskStkRemoveShelf_removes hmaster hc hq hin (.inr ⟨hforce, hlost⟩))
  · intro s p ht hw hcand hnone hothers
    refine letter_answered ht ?_
    rw [deskStkLeaveStack, guardParam_pass (by simp [hw])]
    simp [hcand, check, hnone, hothers, okay]

end Sys2Proof.Machine

/-! SUPPORT. Chapter 18's memory integrity: errors, self-tests and scrubbers by the guards of their rows, and the MEM commands by what
their desks answer. Each obligation's proof has one case for each clause of its statement, in order. -/
namespace Sys2Proof.Machine

/-! ## Errors, tests and scrubbers (R804–R821) -/

/-- The next read of a range scrub counts its lines, and the last completes the scrub (R817). -/
theorem execScrubRangeRead_reads {s t : State} {cls n fixed bad old : Nat} {first : Option Nat} {x y : Scrub}
    (hfind : tabFind s.mem.scrubs cls = some x) (hrun : x.running = true) (hpaused : scrubPaused s = false)
    (hy : { x with pos := x.pos + min n (scrubReach s cls x - x.pos), lines := x.lines + min n (scrubReach s cls x - x.pos),
                     fixed := x.fixed + fixed, bad := x.bad + bad, old := x.old + old, first := x.first.or first } = y)
    (ht : count 6688 (min n (scrubReach s cls x - x.pos)) (s.onMem fun m => { m with scrubs := tabIns m.scrubs cls y }) = t) :
    execScrubRangeRead cls n fixed bad old first s = .next (if y.pos < scrubLines cls y then t
      else finish (fun r => r.op = 0x0D03 && r.key = cls) 836 stOk (fld 3 0 cls ||| fld 15 8 y.index)
        (t.onMem fun m => { m with scrubs := tabUpd m.scrubs cls fun x => { x with running := false } })) := by
  subst hy ht
  simp only [execScrubRangeRead, hfind, hrun, hpaused]
  rfl

/-- Settles O47: each row by its guard, the reads of a range scrub by `execScrubRangeRead_reads`. A commanded test that waits too long ends
HW_FAULT by log 182, and the test of a drive's lanes takes the port to TRAINING by log 181. -/
theorem memoryEventsComplete : Obligations.MemoryEventsComplete := by
  refine ⟨?_, ?_, ?_, ?_, ?_, ?_⟩
  · intro s e hcls hindex hloc hkind
    have hkind' : (decide (e.kind = 1) || decide (e.kind = 2) || decide (e.kind = 3)) = true := by simpa [or_assoc] using hkind
    show execMemoryError e s = _
    simp only [execMemoryError, hcls, hindex, Nat.not_le.2 hloc, hkind']
    rfl
  · intro s t e x hfind hmay hroom ht
    refine ⟨fun hcls => ?_, fun hcls => ?_⟩
    · show execSelftestStart e s = _
      simp [execSelftestStart, hfind, hmay, Nat.not_le.2 hroom, ht, hcls]
    · show execSelftestStart e s = _
      simp [execSelftestStart, hfind, hmay, Nat.not_le.2 hroom, ht, hcls]
  · intro s e x r hfind
    show execSelftestComplete e r s = _
    simp only [execSelftestComplete, hfind]
  · intro s t e x hfind hdue ht
    show execTriageTimeout e s = _
    simp only [execTriageTimeout, hfind, hdue, ht]
    rfl
  · intro s t c hc hon hpaused ht
    refine ⟨fun hmore => ?_, fun d hlap hd => ?_⟩
    · show execIdleScrubRead c s = _
      simp [execIdleScrubRead, Nat.not_le.2 hc, hon, hpaused, ht, hmore]
    · subst hd
      show execIdleScrubRead c s = _
      simp [execIdleScrubRead, Nat.not_le.2 hc, hon, hpaused, ht, hlap]
  · intro s t cls n fixed bad old first x y hfind hrun hpaused hy ht
    refine ⟨fun hmore => ?_, fun hend => ?_⟩
    · exact (execScrubRangeRead_reads hfind hrun hpaused hy ht).trans (by rw [if_pos hmore])
    · exact (execScrubRangeRead_reads hfind hrun hpaused hy ht).trans (by rw [if_neg (Nat.not_lt.2 hend)])

/-! ## The MEM commands (R817–R828) -/

/-- An event leaves the pages a class has spare. -/
theorem sparePages_raise (ev cls : Nat) (w : Word) (s : State) : sparePages (raise ev w s) cls = sparePages s cls := by
  simp [sparePages]

/-- A reply leaves the tests that wait. -/
theorem waitingTests_post (d : Nat) (tag : Word) (o : Bool) (st : Nat) (ws : List Word) (s : State) :
    waitingTests (post d tag o st ws s) = waitingTests s := by
  simp [waitingTests]

/-- MEM.SCRUB_RANGE of a whole range of lines of a class that none scrubs is accepted (R817). -/
theorem deskMemScrubRange_accepts {p : Packet} {s : State} {st len : Nat} (hc2 : clean (mask 3 0 ||| mask 11 8) (p.w 2) = true)
    (hc7 : clean (mask 7 0) (p.w 7) = true) (hcls : memClass (bits 3 0 (p.w 2)) = true) (hindex : indexOk (bits 3 0 (p.w 2)) (bits 11 8 (p.w 2)) = true)
    (hst : (p.w 3).toNat + (p.w 4).toNat * 2 ^ 32 = st) (hlen : (p.w 5).toNat + (p.w 6).toNat * 2 ^ 32 = len) (hst64 : st % 64 = 0)
    (hlen64 : len % 64 = 0) (hpos : 0 < len) (hend : st + len ≤ classBytes (bits 3 0 (p.w 2))) (hrate : bits 7 0 (p.w 7) ≤ 50)
    (hidle : (tabGet {} s.mem.scrubs (bits 3 0 (p.w 2)) : Scrub).running = false) :
    deskMemScrubRange p s = (stAccepted, [], accept p 0x0D03 (bits 3 0 (p.w 2)) 0 (s.onMem fun m => { m with
      scrubs := tabIns m.scrubs (bits 3 0 (p.w 2)) { running := true, index := bits 11 8 (p.w 2), start := st, length := len, rate := if bits 7 0 (p.w 7) = 0 then 10 else bits 7 0 (p.w 7), at_ := s.clk.now } })) := by
  simp only [deskMemScrubRange, hst, hlen]
  rw [guardParam_pass (by simp [hc2, hc7, hcls, hindex, hst64, hlen64, hpos, hend, hrate]), hidle]
  rfl

/-- MEM.RUN_SELFTEST of a part that is out of service is accepted while fewer than 256 tests wait; its KIND is a free value (R816). -/
theorem deskMemRunSelftest_accepts {p : Packet} {s : State} {loc k : Nat} (hc2 : clean (mask 3 0 ||| mask 15 8) (p.w 2) = true)
    (hc4 : clean (mask 7 0) (p.w 4) = true) (hloc : (p.w 3).toNat + (p.w 4).toNat * 2 ^ 32 = loc)
    (hok : locOk (bits 3 0 (p.w 2)) (bits 15 8 (p.w 2)) loc = true) (hout : inService s (bits 3 0 (p.w 2)) (bits 15 8 (p.w 2)) loc = false)
    (hroom : waitingTests s < 256)
    (hk : (if bits 3 0 (p.w 2) = 15 then 5 else if 12 ≤ bits 3 0 (p.w 2) then 4 else (takeFree s).1.toNat % 8) = k) :
    deskMemRunSelftest p s = (stAccepted, [],
      let r := newLog (bits 3 0 (p.w 2)) k (bits 15 8 (p.w 2)) loc 0 0 31 (takeFree s).2
      accept p 0x0D0C r.1 0 (queueTest r.1 (bits 3 0 (p.w 2)) (bits 15 8 (p.w 2)) loc r.2.clk.now true r.2)) := by
  subst hk
  simp only [deskMemRunSelftest, hloc]
  rw [guardParam_pass (by simp [hc2, hc4, hok]), check_pass (by simp [hout]), check_pass (decide_eq_true hroom)]

/-- Settles O48: each command's desk answers once its parameters pass and nothing conflicts (`letter_answered`, `letterData_answered`,
`guardParam_pass`, `check_pass`), and a range scrub and a self-test are accepted (`letter_accepted`). The event at exactly 409 spare pages
is log 184; the check bits and the decoding of the windows are the codes of log 251. -/
theorem memoryCommandsComplete : Obligations.MemoryCommandsComplete := by
  refine ⟨?_, ?_, ?_, ?_, ?_, ?_, ?_, ?_, ?_, ?_, ?_, ?_⟩
  · intro s p ht
    exact letter_answered ht rfl
  · intro s p ht hc hn1 hn8
    refine letter_answered ht ?_
    rw [deskMemReadLog, guardParam_pass (by simp [hc, hn1, hn8])]
    rfl
  · intro s p st len ht hc2 hc7 hcls hindex hst hlen hst64 hlen64 hpos hend hrate hidle
    refine letter_accepted ht (deskMemScrubRange_accepts hc2 hc7 hcls hindex hst hlen hst64 hlen64 hpos hend hrate hidle) ?_
    rw [deskMemScrubRange_accepts hc2 hc7 hcls hindex hst hlen hst64 hlen64 hpos hend hrate (by rwa [post_mem]), post_clk]
  · intro s p ht hc hcls
    refine letter_answered ht ?_
    rw [deskMemGetScrub, guardParam_pass (by simp [hc, hcls])]
    rfl
  · intro s p ht hc hfloor
    refine letter_answered ht ?_
    rw [deskMemSetIdleScrub, guardParam_pass (by simp [hc, hfloor])]
    rfl
  · intro s p ht
    exact letter_answered ht rfl
  · intro s p x b ht hc hcls hindex hx hpage hlt hnew hwindow hspare hb
    refine letter_answered ht ?_
    simp only [deskMemRetirePage, hx]
    rw [guardParam_pass (by simp [hc, hcls, hindex, hpage, hlt]), check_pass (by rw [hnew, hwindow]; rfl), check_pass (decide_eq_true hspare)]
    simp only [hb]
    cases h : decide (sparePages b (bits 3 0 (p.w 2)) = 409) with
    | true => simp only [doIf, if_true, sparePages_raise]; rfl
    | false => rfl
  · intro s p b ht hc2 hc3 hcls hrow hspare hb
    refine letter_answered ht ?_
    rw [deskMemRetireRow, guardParam_pass (by simp [hc2, hc3, hcls, hrow]), check_pass (decide_eq_true hspare)]
    simp only [hb]
    rfl
  · intro s p ht hlen hc2 hc3 hoff
    refine letterData_answered ht ?_
    rw [deskMemTestWrite, check_pass (decide_eq_true hlen), guardParam_pass (by simp [hc2, hc3, hoff])]
    rfl
  · intro s p ht hc hoff
    refine letter_answered ht ?_
    rw [deskMemTestRead, guardParam_pass (by simp [hc, hoff])]
    rfl
  · intro s p n ht hid hns hlive hhome hacts hro hlost hcopies
    refine letter_answered ht ?_
    rw [deskMemReloadMap, guardParam_pass hid, withNs_pass hns hlive hhome hacts, check_pass (by simp only [hro, hlost]; rfl), check_pass hcopies]
    rfl
  · intro s p loc k e b ht hc2 hc4 hloc hok hout hout' hroom hk hlog
    refine letter_accepted ht (deskMemRunSelftest_accepts hc2 hc4 hloc hok hout hroom rfl) ?_
    rw [deskMemRunSelftest_accepts hc2 hc4 hloc hok hout' (by rwa [waitingTests_post]) hk, hlog]

end Sys2Proof.Machine

/-! SUPPORT. Chapter 4's MOD commands by what their desks answer. The obligation's proof has one case for each clause of its statement, in
order. -/
namespace Sys2Proof.Machine

/-! ## The MOD commands (R142–R163, R834) -/

/-- MOD.ENTER_MAINTENANCE with FORCE in Active begins the forced entry (R161). -/
theorem deskModEnterMaintenance_forces {p : Packet} {s : State} (hw : p.w 2 = 1) (hmode : s.md.mode = .active) :
    deskModEnterMaintenance p s = (stAccepted, [], forcedProgress (closeHosts (overtakeDrowse (accept p 0x0004 0 0
      (s.onMd fun m => { m with entering := some (p.door, p.tag), admitStop := true }))))) := by
  rw [deskModEnterMaintenance, guardParam_pass (by simp [hw]), if_neg (by simp [hmode]), check_pass (by simp [hw, hmode])]

/-- MOD.ENTER_DROWSE where no data moves and admission is not stopped is accepted, and begins the entry unless one runs (R145). -/
theorem deskModEnterDrowse_accepts {p : Packet} {s : State} (hmoving : dataMoving s = false) (hstop : s.md.admitStop = false) :
    deskModEnterDrowse p s = (stAccepted, [], accept p 0x0006 0 0 (if s.md.drowse = .none then beginDrowse s else s)) := by
  rw [deskModEnterDrowse, check_pass (by simp [hmoving]), check_pass (by simp [hstop])]

/-- Settles O1: each command's desk answers once its parameters pass (`letter_answered`, `guardParam_pass`), and the two entries are
accepted (`letter_accepted`). That MOD.RESTART answers on the state after the restart is log 14. -/
theorem moduleCommandsComplete : Obligations.ModuleCommandsComplete := by
  refine ⟨?_, ?_, ?_, ?_, ?_, ?_, ?_, ?_, ?_⟩
  · intro s p ht
    exact letter_answered ht rfl
  · intro s p ht
    exact letter_answered ht rfl
  · intro s p ht
    exact letter_answered ht rfl
  · intro s p ht hc
    refine letter_answered ht ?_
    rw [deskModSetBootOptions, guardParam_pass hc]
    rfl
  · intro s p ht _
    exact letter_answered ht rfl
  · intro s p ht hw hkey hna hnd
    refine letter_answered ht ?_
    rw [deskModRestart, guardParam_pass (by simp [hw, hkey])]
    simp [hw, hna, hnd, check, okay]
  · intro s p ht hc hmode
    refine letter_answered ht ?_
    rw [deskModEnterMaintenance, guardParam_pass hc, if_pos (by simpa using hmode)]
    rfl
  · intro s p ht hw hmode
    exact letter_accepted ht (deskModEnterMaintenance_forces hw hmode) (deskModEnterMaintenance_forces hw (by rwa [post_md]))
  · intro s p ht hmoving hstop
    refine letter_accepted ht (deskModEnterDrowse_accepts hmoving hstop) ?_
    rw [deskModEnterDrowse_accepts (by rwa [dataMoving_post]) (by rwa [post_md]), post_md]

end Sys2Proof.Machine

/-! SUPPORT. Chapter 19's doors: their registers, the way of a packet to its desk and back, and the transports, by the guards of their rows;
the commands of the lock, the events and the doors' settings by what their desks answer. Each obligation's proof has one case for each
clause of its statement, in order. -/
namespace Sys2Proof.Machine

/-! ## Registers (R836–R844) -/

/-- An open door takes an access, door 1 an aligned one only (R844). -/
theorem access_takes {d : Nat} {al : Bool} {s : State} (hopen : doorOpen s d = true) (hal : d = 1 → al = true) (f : State → State) :
    access d al f s = f s := by
  rw [access, if_neg (by simp [hopen]), if_neg (by simpa using hal)]

/-- Setting bit 0 of a word sets it and leaves the higher ones. -/
theorem bit_zero_or_one (w : Word) : bit 0 (w ||| 1) = true := by simp [bit]
theorem bit_succ_or_one (n : Nat) (w : Word) : bit (n + 1) (w ||| 1) = bit (n + 1) w := by
  simp [bit, BitVec.getLsbD_one]

/-- A write to LBCTL with ABORT aborts, and sets EVEN and RPEN as every write does. -/
theorem execLbctlAbort_aborts {d : Nat} {al : Bool} {w : Word} {s : State} (hopen : doorOpen s d = true) (hal : d = 1 → al = true) :
    execLbctlAbort d al w s = .next (settle d (onDoor d (fun x => { x with evEn := bit 8 w, rpEn := bit 9 w }) (abortDoor d s))) := by
  rw [execLbctlAbort, access_takes hopen hal, writeLbctl, bit_zero_or_one, bit_succ_or_one 7, bit_succ_or_one 8]
  rfl

/-- Settles O7: an open door takes the access (`access_takes`), and each register acts by the door's state. BAR0 stands at 0x10 of the
configuration space by log 252. -/
theorem doorRegistersComplete : Obligations.DoorRegistersComplete := by
  refine ⟨?_, ?_, ?_, ?_, ?_, ?_, ?_, ?_, ?_⟩
  · intro s d al w hopen hal hst h2 h4096
    show execLbcntWrite d al w s = _
    rw [execLbcntWrite, access_takes hopen hal]
    rcases hst with h | h <;> simp [writeLbcnt, h, h2, h4096]
  · intro s d al w hopen hal hst
    show execLbdataWrite d al w s = _
    rw [execLbdataWrite, access_takes hopen hal, writeLbdata, hst]
  · intro s d al w ws hopen hal hst hreply
    show execLbdataRead d al s = _
    rw [execLbdataRead, if_neg (by simpa [hopen] using hal), access_takes hopen hal]
    simp only [readLbdata, hst, hreply]
  · intro s d al w hopen hal hst
    exact (execLbctlAbort_aborts hopen hal).trans (by rw [abortDoor, hst])
  · intro s d al w hopen hal hst
    refine (execLbctlAbort_aborts hopen hal).trans ?_
    rcases hst with h | h | h <;> rw [abortDoor, h]
  · intro s d hd hst hdue
    show execDoorFillingTimeout d s = _
    simp [execDoorFillingTimeout, hst, due, hdue, hd]
  · intro s d al w hopen hal hbit
    show execRegisterWrite (.lbctl d) al w s = _
    simp only [execRegisterWrite, access_takes hopen hal, writeLbctl, hbit]
    rfl
  · intro s w hlink
    show execRegisterWrite (.bar0 0x0008) true w s = _
    simp only [execRegisterWrite, access_takes (d := 1) hlink (fun _ => rfl)]
    rfl
  · intro s w hlink
    show execRegisterWrite (.config 0x10) true w s = _
    simp only [execRegisterWrite, hlink]
    rfl

/-! ## From the door to the desk and back (R838, R845, R854–R861) -/

/-- Settles O8: a packet by what its checks answer, the backlog and the replies by the first that waits; taking the management addresses
changes no door (`takeMgmt_door`). -/
theorem doorToDeskComplete : Obligations.DoorToDeskComplete := by
  refine ⟨?_, ?_, ?_, ?_, ?_, ?_, ?_, ?_⟩
  · intro s d op p st ws hpacket hcheck
    show execCommandEnterBusy d s = _
    simp only [execCommandEnterBusy, hpacket, hcheck]
  · intro s d op p r hpacket hcheck hrow hmode
    have hawake : ∀ f, wakesFirst r ((onDoor d (fun x => { x with buf := [] }) (touchLock d (count1 (16 + d) s))).onLb f) = false := by
      intro f
      have hmd : (touchLock d (count1 (16 + d) s)).md = s.md := count1_md _ _
      simp [wakesFirst, hmd, hmode]
    show execCommandEnterBusy d s = _
    simp only [execCommandEnterBusy, hpacket, hcheck, hrow, hawake]
    rfl
  · intro s d e hkumel hfind
    show execKumelBeginCommand d s = _
    simp only [execKumelBeginCommand, hkumel, if_true, hfind]
  · intro s d k e hfind
    show execKumelBacklogTimeout d k s = _
    simp only [execKumelBacklogTimeout, hfind]
  · intro s d r hfind horphan hdiscard hst
    show execCommandReplyReady d s = _
    simp [execCommandReplyReady, hfind, horphan, takeMgmt_door, hdiscard, hst]
  · intro s d r hfind horphan hdiscard
    show execCommandReplyReady d s = _
    simp [execCommandReplyReady, hfind, horphan, takeMgmt_door, hdiscard]
  · intro s d tag ws hnew
    simp [takeMgmt, hnew, doIf, setMgmt]
  · intro s l hlock hdue
    show execLockExpired s = _
    simp only [execLockExpired, hlock, due, hdue]
    rfl

/-! ## Transports (R840–R851) -/

/-- Counting a datagram leaves the door's keys. -/
theorem doorKey_countRate (k : Nat) (s : State) : (countRate s).doorKey k = s.doorKey k := by
  by_cases h : s.clk.now < s.lb.rateAt + sec <;> simp [countRate, State.doorKey, h]

/-- A request datagram whose MAC is right is counted, and goes on by its sequence number (R848, R849). -/
theorem execDoorDatagram_authentic {d : Datagram} {s : State} (hlink : s.md.mgmtLink = true) (hwait : s.lb.wait = none) (hrate : overRate s = false)
    (hheld : (s.doorKey d.keyId).held = true) (hform : d.malformed = false) (hmac : Config.hmacSha256 (s.doorKey d.keyId).key d.covered = d.mac) :
    execDoorDatagram d s = .next (if (s.doorKey d.keyId).last < d.seq then applyDatagram d (countRate s)
      else if d.seq = (s.doorKey d.keyId).last then send { kind := .dgram, ws := (s.doorKey d.keyId).cache } (count1 33 (countRate s))
      else send { kind := .dgram, ws := response (countRate s) d.keyId (s.doorKey d.keyId).last 0x60 [] } (count1 32 (countRate s))) := by
  have hopen : (!doorOpen s 2 || s.lb.wait.isSome) = false := by
    rw [doorOpen, hlink, hwait]
    rfl
  have hkeys : (!s.lb.k0.held && !s.lb.k1.held) = false := by
    unfold State.doorKey at hheld
    split at hheld <;> simp [hheld]
  simp only [execDoorDatagram, hopen, hrate, hkeys, hform, doorKey_countRate, hheld, hmac]
  simp

/-- Settles O9: each transfer by the guards of its transport, a datagram by its sequence number (`execDoorDatagram_authentic`). -/
theorem transportsComplete : Obligations.TransportsComplete := by
  refine ⟨?_, ?_, ?_, ?_, ?_, ?_, ?_⟩
  · intro s n ws hopen hmod h4 h252 hlen
    show execSmbusBlockWrite n ws false s = _
    simp [execSmbusBlockWrite, doorOpen, hopen, hmod, h4, h252, hlen]
  · intro s n ws hopen
    show execSmbusBlockWrite n ws true s = _
    simp [execSmbusBlockWrite, doorOpen, hopen]
  · intro s hopen hst
    show execSmbusBlockRead false s = _
    simp [execSmbusBlockRead, doorOpen, hopen, hst, lbcnt, State.door]
  · intro s hopen halert hlvl
    show execAlertResponseRead s = _
    simp [execAlertResponseRead, doorOpen, hopen, smbAlertLow, halert, hlvl, smbAddr]
  · intro s d hlink hwait hrate hheld hform hmac hnew
    exact (execDoorDatagram_authentic hlink hwait hrate hheld hform hmac).trans (by rw [if_pos hnew])
  · intro s d hlink hwait hrate hheld hform hmac hsame
    exact (execDoorDatagram_authentic hlink hwait hrate hheld hform hmac).trans (by rw [if_neg (by omega), if_pos hsame])
  · intro s w hwait hend
    show execDatagramWaitEnd s = _
    simp [execDatagramWaitEnd, hwait, due, hend]

/-! ## The lock, the events and the doors' settings (R850, R855, R856, R863–R868) -/

/-- A packet with data that is taken, at a desk that denies: the whole next state. -/
theorem letterData_denied {op n d st : Nat} {p : Packet} {s u : State} {ws : List Word} {desk : State → Desk}
    (ht : taken op n d p s = true) (hd : desk (s.arrived op p) = (st, ws, u)) (h0 : st ≠ stOk) (h1 : st ≠ stAccepted) (h2 : st ≠ stWithheld) :
    letterData op n d p s desk = .next (post p.door p.tag false st ws u) := by
  rw [letterData_taken ht, atDesk_deny_eq hd h0 h1 h2]

section
variable {p : Packet} {s : State} (hc : clean (mask 11 0 ||| mask 16 16) (p.w 2) = true) (hspan1 : 1 ≤ bits 11 0 (p.w 2))
  (hspan : bits 11 0 (p.w 2) ≤ 3600) (hforce : p.w 3 = (if bit 16 (p.w 2) then 0x00004824 else 0))
include hc hspan1 hspan hforce

/-- MOD.ACQUIRE_LOCK in range goes on by the lock as it stands (R855). -/
theorem deskModAcquireLock_pass : deskModAcquireLock p s =
    (match s.lb.lock with
      | none => okay (s.onLb fun l => { l with lock := some ⟨p.door, bits 11 0 (p.w 2), s.clk.now⟩ })
      | some l =>
        if l.door = p.door then okay (s.onLb fun l => { l with lock := some ⟨p.door, bits 11 0 (p.w 2), s.clk.now⟩ })
        else if bit 16 (p.w 2) then okay (raise 16 (fld 1 0 p.door ||| fld 5 4 l.door) (s.onLb fun l => { l with lock := some ⟨p.door, bits 11 0 (p.w 2), s.clk.now⟩ }))
        else (stConflict, [fld 1 0 l.door], s)) := by
  rw [deskModAcquireLock, guardParam_pass (by simp [hc, hspan1, hspan, hforce])] <;> rfl

/-- A lock that is free, or the door's own, is granted. -/
theorem deskModAcquireLock_grants (hown : s.lb.lock = none ∨ s.lockHolder = p.door) :
    deskModAcquireLock p s = okay (s.onLb fun l => { l with lock := some ⟨p.door, bits 11 0 (p.w 2), s.clk.now⟩ }) := by
  rw [deskModAcquireLock_pass hc hspan1 hspan hforce]
  cases h : s.lb.lock with
  | none => rfl
  | some l =>
    have hl : l.door = p.door := by simpa [State.lockHolder, h] using hown
    simp only [hl, if_true]

end

/-- A packet's count leaves the time. -/
@[simp] theorem counted_clk (s : State) (p : Packet) : (s.counted p).clk = s.clk := by simp [State.counted, touchLock]

/-- A packet's count leaves a free lock free. -/
theorem counted_lock_none {s : State} {p : Packet} (h : s.lb.lock = none) : (s.counted p).lb.lock = none := by
  simp [State.counted, touchLock, count1_lock, h]

/-- The arrival of a command of the Letterbox itself is its count: it begins nothing during a Drowse entry (R147). -/
theorem arrived_counted {op : Nat} {r : CatRow} (hrow : catRow op = some r) (hmodes : (decide (r.modes = .c) || decide (r.modes = .cf)) = false)
    (s : State) (p : Packet) : s.arrived op p = s.counted p := by
  simp only [State.arrived, arriveInEntry, hrow, hmodes]
  rfl

/-- MOD.SET_DOOR_KEY of a right length and in range goes on with the key it gives, unwraps or clears (R850). -/
theorem deskModSetDoorKey_pass {p : Packet} {s : State}
    (hlen : bits 4 0 (p.w 2) = (if bit 9 (p.w 3) then 0 else if bit 8 (p.w 3) then 10 else 8)) (hc2 : clean (mask 4 0) (p.w 2) = true)
    (hc3 : clean (mask 0 0 ||| mask 9 8) (p.w 3) = true) (horder : bit 8 (p.w 3) = false ∨ s.order ≠ 2)
    (hkek : bit 8 (p.w 3) = false ∨ bit 9 (p.w 3) = true ∨ s.key.kek.isSome = true) : deskModSetDoorKey p s =
    (match if bit 9 (p.w 3) then some [] else if bit 8 (p.w 3) then Config.kwUnwrap (s.key.kek.getD []) (p.data 2) else some (p.data 2) with
      | none => deny stIntegrity (count1 5177 s)
      | some key => check (!(decide (p.door = 2) && decide (s.lb.authKey = bits 0 0 (p.w 3)))) stConflict s fun s =>
          okay (onKey (bits 0 0 (p.w 3)) (fun _ => { held := !bit 9 (p.w 3), key := key }) s)) := by
  have hrange : (clean (mask 4 0) (p.w 2) && clean (mask 0 0 ||| mask 9 8) (p.w 3) && !(bit 8 (p.w 3) && decide (s.order = 2))) = true := by
    rcases horder with h | h <;> simp [hc2, hc3, h]
  have hholds : (!bit 8 (p.w 3) || bit 9 (p.w 3) || s.key.kek.isSome) = true := by
    rcases hkek with h | h | h <;> simp [h]
  rw [deskModSetDoorKey, check_pass (decide_eq_true hlen), guardParam_pass hrange, check_pass hholds] <;> rfl

/-- Settles O10: each command's desk answers once its parameters pass (`letter_answered`, `guardParam_pass`), the lock's by the lock as it
stands (`deskModAcquireLock_pass`), a door key by what gives it (`deskModSetDoorKey_pass`). -/
theorem lockAndEventCommandsComplete : Obligations.LockAndEventCommandsComplete := by
  refine ⟨?_, ?_, ?_, ?_, ?_, ?_, ?_, ?_, ?_, ?_⟩
  · intro s p ht hc hspan1 hspan hforce hown
    refine letter_answered ht ?_
    rw [arrived_counted rfl rfl, deskModAcquireLock_grants hc hspan1 hspan hforce (hown.imp counted_lock_none fun h => by rwa [counted_lockHolder]),
      counted_clk]
    rfl
  · intro s p l ht hc hspan1 hspan hforce hlock hother
    refine ⟨fun hw => ?_, fun hw => ?_⟩
    · refine letter_answered ht ?_
      rw [arrived_counted rfl rfl, deskModAcquireLock_pass hc hspan1 hspan hforce, counted_clk]
      simp only [hlock, hw, if_neg hother]
      rfl
    · refine letter_denied ht (st := stConflict) ?_ (by decide) (by decide) (by decide)
      rw [arrived_counted rfl rfl, deskModAcquireLock_pass hc hspan1 hspan hforce]
      simp only [hlock, hw, if_neg hother]
      rfl
  · intro s p ht
    refine ⟨fun hown => ?_, fun hother => ?_⟩
    · refine letter_answered ht ?_
      rw [arrived_counted rfl rfl, deskModReleaseLock, check_pass (decide_eq_true hown)]
      rfl
    · refine letter_denied ht (st := stConflict) ?_ (by decide) (by decide) (by decide)
      rw [arrived_counted rfl rfl, deskModReleaseLock, check, decide_eq_false hother]
      rfl
  · intro s p ht hc hd
    refine letter_answered ht ?_
    rw [deskModGetDoor, guardParam_pass (by simp [hc, hd])]
    rfl
  · intro s p ht hc hn1 hn
    have hmore : ∀ (l : List EvRec) (n : Nat), (!(l.drop n).isEmpty) = decide (n < l.length) := by
      intro l n
      by_cases h : n < l.length <;> simp [h, List.isEmpty_iff, Nat.not_lt.1]
    refine letter_answered ht ?_
    rw [deskModReadEvents, guardParam_pass (by simp [hc, hn1, hn])]
    simp only [hmore, List.length_take]
    rfl
  · intro s p ht hc
    refine letter_answered ht ?_
    rw [deskModSetEventMask, guardParam_pass hc]
    rfl
  · intro s p k ht hw hc hwrap hclr hk hown
    have hlen : bits 4 0 (p.w 2) = 8 := by rw [hw]; rfl
    subst hk
    refine letterData_answered (d := bits 4 0 (p.w 2)) (by rwa [hlen]) ?_
    rw [deskModSetDoorKey_pass (by rw [hlen, hclr, hwrap]; rfl) (by rw [hw]; decide) hc (.inl hwrap) (.inl hwrap)]
    simp only [hclr, hwrap]
    exact check_pass (by rcases hown with h | h <;> simp [h]) _ _ _
  · intro s p k kek key ht hw hc hwrap hclr hk horder hkek hown
    have hlen : bits 4 0 (p.w 2) = 10 := by rw [hw]; rfl
    have hpass := deskModSetDoorKey_pass (p := p) (by rw [hlen, hclr, hwrap]; rfl) (by rw [hw]; decide) hc (.inr horder) (.inr (.inr (by rw [hkek]; rfl)))
    subst hk
    refine ⟨fun hkey => ?_, fun hkey => ?_⟩
    · refine letterData_answered (d := bits 4 0 (p.w 2)) (by rwa [hlen]) ?_
      rw [hpass]
      simp only [hclr, hwrap, hkek, Option.getD_some, hkey]
      exact check_pass (by rcases hown with h | h <;> simp [h]) _ _ _
    · refine letterData_denied (st := stIntegrity) (d := bits 4 0 (p.w 2)) (by rwa [hlen]) ?_ (by decide) (by decide) (by decide)
      rw [hpass]
      simp only [hclr, hwrap, hkek, Option.getD_some, hkey]
      rfl
  · intro s p k ht hw hc hclr horder hk hown
    have hlen : bits 4 0 (p.w 2) = 0 := by rw [hw]; rfl
    subst hk
    refine letterData_answered (d := bits 4 0 (p.w 2)) (by rwa [hlen]) ?_
    rw [deskModSetDoorKey_pass (by rw [hlen, hclr]; rfl) (by rw [hw]; decide) hc horder (.inr (.inl hclr))]
    simp only [hclr]
    exact check_pass (by rcases hown with h | h <;> simp [h]) _ _ _
  · intro s p ht hc h4 h6
    refine letter_answered ht ?_
    rw [deskModSetMgmtAddr, guardParam_pass (by simp [hc, h4, h6])]
    rfl

end Sys2Proof.Machine

/-! SUPPORT. Chapter 21's Service Endpoint and its DMA channels, by the guards of their rows and by what a channel holds after a change.
Each obligation's proof has one case for each clause of its statement, in order. -/
namespace Sys2Proof.Machine

/-! ## Link, power state and vectors (R884–R901) -/

/-- Settles O11: each row acts where the link is up, or down for its rise, and is silent elsewhere. The endpoint's reset values rest on
log 6. -/
theorem endpointComplete : Obligations.EndpointComplete := by
  refine ⟨?_, ?_, ?_, ?_, ?_, ?_, ?_, ?_, ?_, ?_⟩
  · intro s
    rfl
  · intro s hlink
    show execSeLinkUp s = _
    simp [execSeLinkUp, hlink]
  · intro s hlink
    show execSeLinkDown s = _
    simp [execSeLinkDown, seDown, hlink]
  · intro s hlink hbme
    show execBusMasterDisable s = _
    simp [execBusMasterDisable, hlink, hbme]
  · intro s hlink
    show execBusMasterEnable s = _
    simp [execBusMasterEnable, hlink]
  · intro s hlink
    refine ⟨?_, ?_, ?_, ?_, ?_⟩
    · show execBusMasterEnable s = _
      simp [execBusMasterEnable, hlink]
    · show execBusMasterDisable s = _
      simp [execBusMasterDisable, hlink]
    · show execPowerStateD3hot s = _
      simp [execPowerStateD3hot, hlink]
    · show execPowerStateD0 s = _
      simp [execPowerStateD0, hlink]
    · show execDmaUnexpectedCompletion s = _
      simp [execDmaUnexpectedCompletion, hlink]
  · intro s hlink hd3
    show execPowerStateD3hot s = _
    simp [execPowerStateD3hot, hlink, hd3]
  · intro s hlink
    show execPowerStateD0 s = _
    simp [execPowerStateD0, hlink]
  · intro s v hlink hv
    show execMsixUnmask v s = _
    simp [execMsixUnmask, hlink, hv, unmask]
  · intro s hlink
    show execDmaUnexpectedCompletion s = _
    simp [execDmaUnexpectedCompletion, hlink, unexpected]

/-! ## Channels (R891–R901) -/

/-- A channel holds what the change makes of it. -/
theorem chan_onChan_self (c : Nat) (f : Channel → Channel) (s : State) : (onChan c f s).chan c = f (s.chan c) :=
  tabGet_mod_self _ _ _ _

/-- A change of a channel leaves the bits of the endpoint that say whether it may start. -/
@[simp] theorem onChan_busErr (c : Nat) (f : Channel → Channel) (s : State) : (onChan c f s).se.busErr = s.se.busErr := rfl
@[simp] theorem onChan_bme (c : Nat) (f : Channel → Channel) (s : State) : (onChan c f s).se.bme = s.se.bme := rfl
@[simp] theorem onChan_d3 (c : Nat) (f : Channel → Channel) (s : State) : (onChan c f s).se.d3 = s.se.d3 := rfl

/-- A change of a channel is what it makes of the channel that stands there. -/
theorem onChan_congr {c : Nat} {f g : Channel → Channel} {s : State} (h : f (s.chan c) = g (s.chan c)) : onChan c f s = onChan c g s := by
  simp only [onChan, tabMod, State.onSe]
  exact congrArg (fun x => { s with se := { s.se with chans := tabIns s.se.chans c x } }) h

/-- Setting bit 0 leaves every field above it. -/
theorem bits_or_one {hi lo : Nat} (w : Word) (hlo : 0 < lo) : bits hi lo (w ||| 1) = bits hi lo w := by
  have hone : (1 : Nat) >>> lo = 0 := by
    rw [Nat.shiftRight_eq_div_pow, Nat.div_eq_of_lt (Nat.one_lt_two_pow hlo.ne')]
  have hor : (w ||| 1).toNat = w.toNat ||| 1 := by simp
  rw [bits, bits, hor, Nat.shiftRight_or_distrib, hone, Nat.or_zero]

/-- Settles O12: each row by the state of its channel, which a change sets to what it names (`chan_onChan_self`, `onChan_congr`). -/
theorem serviceDmaComplete : Obligations.ServiceDmaComplete := by
  refine ⟨?_, ?_, ?_, ?_, ?_, ?_, ?_, ?_, ?_, ?_, ?_, ?_, ?_⟩
  · intro s c w hc hlink hoff
    show execChctlEnable c w s = _
    have hidle : (s.chan c).active = false := by simp [Channel.active, hoff]
    simp only [execChctlEnable, doorOpen, hc, hlink, writeChctl, bit_zero_or_one, bit_succ_or_one 0, decide_true, Bool.and_true, if_true]
    congr 2
    refine onChan_congr ?_
    rw [bits_or_one w (by decide), bits_or_one w (by decide)]
    exact if_neg (by simpa [Channel.active] using hidle)
  · intro s c hidle hring hsrc hfree herr hbme hd3
    simp only [enableChan, hidle, hring, hfree, onChan_busErr, onChan_bme, onChan_d3, herr, hbme, hd3]
    simp [hsrc]
  · intro s c hc hlink hact hdesc
    show execChctlDisable c s = _
    have hact' : ((s.chan c).st != .off && (s.chan c).st != .halted) = true := hact
    simp [execChctlDisable, doorOpen, hc, hlink, disableChan, chan_onChan_self, hdesc, Channel.active, hact', doIf]
  · intro s c w hc hlink hidle
    show execRingloWrite c true w s = _
    rw [execRingloWrite, access_takes (d := 1) hlink (fun _ => rfl), if_pos hc, writeRinglo]
    congr 1
    refine onChan_congr ?_
    simp [hidle]
  · intro s c hc hlink hwait
    show execKick c s = _
    simp [execKick, doorOpen, hc, hlink, kick, hwait, doIf, startFetch]
  · intro s c ws hc hfetch hact hown hlink
    show execDmaDescriptorFetched c ws s = _
    simp only [execDmaDescriptorFetched, hfetch, hact, hown, hlink, Nat.not_le.mpr hc]
    rfl
  · intro s c ws hc hfetch hact hown h4096 hmax h64 h0 hlink
    show execDmaDescriptorFetched c ws s = _
    simp [execDmaDescriptorFetched, hc, hfetch, hact, hown, hlink, Nat.not_lt.mpr h4096, Nat.not_lt.mpr hmax, h64, h0]
  · intro s c hc hwait hdue
    show execDmaDescriptorPoll c s = _
    simp [execDmaDescriptorPoll, hwait, due, hdue, hc]
  · intro s c id ws d hc hact hdesc hnext hfits
    show execDmaRecordAvailable c s = _
    simp [execDmaRecordAvailable, hact, hc, hdesc, hnext, Nat.not_lt.mpr hfits]
  · intro s c id ws d hc hact hdesc hnext hfull
    show execDmaRecordAvailable c s = _
    simp [execDmaRecordAvailable, hact, hc, hdesc, hnext, hfull]
  · intro s c t0 d hc hact hdesc hfirst hdue
    show execDmaFlushTimeout c s = _
    obtain ⟨b, l, i, u, r, f⟩ := d
    obtain rfl : f = some t0 := hfirst
    simp [execDmaFlushTimeout, hdesc, due, hdue, hact, hc]
  · intro s k hlink
    show execDmaBusError k s = _
    simp [execDmaBusError, hlink, busError]
  · intro s hdue
    show execDmaReadTimeout s = _
    rw [execDmaReadTimeout, if_pos hdue]

end Sys2Proof.Machine

/-! SUPPORT. Chapter 23's counter commands and the stream, by the guards of their rows; and what a step does with its queue. Each
obligation's proof has one case for each clause of its statement, in order. -/
namespace Sys2Proof.Machine

/-- Setting when the next capture is due and queueing the records of this one are one change: the records do not depend on the due time. -/
theorem onTal_due_records (s : State) (d : Tally → Nat) (now : Nat) :
    ((s.onTal fun t => { t with stDue := d t }).onTal fun t => { t with stseq := t.stseq + 1, stOk := true, stLeft := t.stLeft ++ streamRecs t now })
      = s.onTal fun t => { t with stDue := d t, stseq := t.stseq + 1, stOk := true, stLeft := t.stLeft ++ streamRecs t now } := rfl

/-- Settles O13: each desk answers its words where its parameters are legal; a capture that is due is taken where a channel serves it. -/
theorem countersComplete : Obligations.CountersComplete := by
  refine ⟨?_, ?_, ?_, ?_, ?_, ?_, ?_⟩
  · intro s p ht hc2 hsnap hc3 h1 h64 hlast
    refine letter_answered ht ?_
    simp [deskTalRead, hc2, hsnap, hc3, h1, h64, hlast, guardParam_pass, check_pass, answer, words2]
  · intro s p ht hc2 hsnap htaken hc3 h1 h64 hlast
    refine letter_answered ht ?_
    simp [deskTalRead, hc2, hsnap, htaken, hc3, h1, h64, hlast, guardParam_pass, check_pass, answer, snapWords, words2]
  · intro s p ht
    refine letter_answered ht ?_
    simp only [deskTalSnapshot, answer]
  · intro s p t ht hc hm hclear
    subst hclear
    refine letter_answered ht ?_
    rw [deskTalClear, guardParam_pass (by simp [hc, hm])]
    simp only [answer]
  · intro s p ht hc
    refine letter_answered ht ?_
    rw [deskTalGetOverflow, guardParam_pass hc]
    simp only [answer]
  · intro s p ht hc2 hc3 hperiod
    refine letter_answered ht ?_
    rw [deskTalSetStream, guardParam_pass (by simpa [hc2, hc3, and_assoc] using hperiod)]
    rfl
  · intro s hon hdue hready hleft
    show execStreamCapture s = _
    rw [execStreamCapture, if_neg (by simp [hon, due, hdue])]
    simp only [hready, hleft]
    exact congrArg _ (onTal_due_records s (fun t => t.stDue + t.period * ms) s.clk.now)

/-- Settles O50: a step looks at its queue and at nothing else first. That time passes on an empty queue is log 1's choice. -/
theorem stepRunsTheFrontCommand : Obligations.StepRunsTheFrontCommand := by
  refine ⟨?_, ?_⟩
  · intro c rest s
    rfl
  · intro s hempty
    rw [step, hempty]

end Sys2Proof.Machine

/-! SUPPORT. Chapter 22's updates: the UPD commands by what their desks answer, the links' rows by the session they feed. The obligation's
proof has one case for each clause of its statement, in order. -/
namespace Sys2Proof.Machine

/-! ## The UPD commands (R909–R920) -/

/-- UPD.FINISH at a door's session starts its verification (R911). -/
theorem deskUpdFinish_verifies {p : Packet} {s : State} {x : Session} (hx : doorSession s = some x) :
    deskUpdFinish p s = (stAccepted, [], accept p 0x0E04 0 0 (s.onUpd fun u => { u with sess := some { x with phase := 2 } })) := by
  rw [deskUpdFinish, hx]

section
variable {p : Packet} {s : State} (hc : clean (mask 0 0) (p.w 2) = true) (hkey : p.w 3 = (if bit 0 (p.w 2) then 0x00004824 else 0))
  (hbank : (s.bankOf s.spare).st = .verified) (hlate : lateChecks s = none) (hdv : (!s.links.partnerUp || dvOverlap s) = true)
include hc hkey hbank hlate hdv

/-- UPD.ACTIVATE of a verified bank that nothing forbids goes by the mode (R914). -/
theorem deskUpdActivate_pass : deskUpdActivate p s =
    (if s.md.mode != .active then okay (restartRunning .update (selectBank s))
     else if s.pair.paired then deny stConflict s
     else if !bit 0 (p.w 2) then deny stRefusedMode s
     else (stAccepted, [], forcedProgress (closeHosts
       ((selectBank s).onMd fun m => { m with restartReq := some (p.door, p.tag), restartWait := true, admitStop := true })))) := by
  rw [deskUpdActivate, guardParam_pass (by simp [hc, hkey]), check_pass (by simp [hbank])]
  simp only [hlate]
  rw [check_pass hdv]

/-- Outside Active the module restarts at once. -/
theorem deskUpdActivate_restarts (hmode : s.md.mode ≠ .active) :
    deskUpdActivate p s = (stOk, [], restartRunning .update (selectBank s)) := by
  rw [deskUpdActivate_pass hc hkey hbank hlate hdv, if_pos (by simpa using hmode), okay]

/-- In Active, alone and with FORCE, it closes its hosts first. -/
theorem deskUpdActivate_forces (hforce : bit 0 (p.w 2) = true) (hmode : s.md.mode = .active) (halone : s.pair.paired = false) :
    deskUpdActivate p s = (stAccepted, [], forcedProgress (closeHosts
      ((selectBank s).onMd fun m => { m with restartReq := some (p.door, p.tag), restartWait := true, admitStop := true }))) := by
  rw [deskUpdActivate_pass hc hkey hbank hlate hdv, if_neg (by simp [hmode]), if_neg (by simp [halone]), if_neg (by simp [hforce])]

end

/-- Posting a reply leaves the module's number. -/
@[simp] theorem post_modnum (d : Nat) (tag : Word) (o : Bool) (st : Nat) (ws : List Word) (s : State) :
    (post d tag o st ws s).modnum = s.modnum := by
  simp [State.modnum]

/-- UPD.PROPAGATE with SCOPE 1 of a verified image offers it to the partner, and ends at once where there is none (R916). -/
theorem deskUpdPropagate_offers {p : Packet} {s b : State} {x : Session} {d : ExaelHead × List Word} {want : Nat}
    (hc : clean (mask 1 0) (p.w 2) = true) (hscope : bits 1 0 (p.w 2) = 1) (hx : s.upd.sess = some x) (hd : s.upd.staged = some d)
    (hphase : x.phase = 3) (hwant : (if s.links.partnerUp then 2 ^ (2 * s.pos + 1 - s.bay.bay) else 0) = want)
    (hb : forAll [0] (offerOn d.1 s.modnum 1) (accept p 0x0E06 0 0 (s.onUpd fun u =>
      { u with sess := some { x with phase := 4 }, prop := some (1, want, 0, s.clk.now), mask := 2 ^ s.modnum, offered := [] })) = b) :
    deskUpdPropagate p s = (stAccepted, [], if want = 0 then endPropagation b else b) := by
  subst hwant hb
  rw [deskUpdPropagate, guardParam_pass (by simp [hc, hscope])]
  simp only [hx, hd, hscope, if_true]
  exact if_neg (not_not_intro hphase)

/-- Changing a bank leaves the module desk. -/
theorem onBank_md (k : Nat) (f : Bank → Bank) (s : State) : (onBank k f s).md = s.md := by
  unfold onBank
  split <;> rfl

/-- Settles O49: each command's desk answers once its parameters and the session pass (`letter_answered`, `letter_accepted`), and each
link's row acts at the session or the offer it names. A refused OFFER counts by log 186, ALREADY names the peer's module by log 188, and
UPD.ACTIVATE answers on the state after the restart as log 14 has it for MOD.RESTART. -/
theorem updateComplete : Obligations.UpdateComplete := by
  refine ⟨?_, ?_, ?_, ?_, ?_, ?_, ?_, ?_, ?_, ?_, ?_, ?_, ?_, ?_, ?_, ?_, ?_, ?_, ?_⟩
  · intro s p ht
    exact letter_answered ht rfl
  · intro s p ht hc h64 hchecks
    refine letterData_answered ht ?_
    rw [deskUpdBegin, guardParam_pass (by simp [hc, h64])]
    simp only [hchecks, okay]
  · intro s p x b ht hc h1 hmax hx hoff hops
    refine letterData_answered ht ?_
    rw [deskUpdWriteDelta, guardParam_pass (by simp [hc, h1, hmax])]
    simp only [hx, hops, answer]
    exact if_neg (not_not_intro hoff)
  · intro s p x ht hx hx'
    exact letter_accepted ht (deskUpdFinish_verifies hx) (deskUpdFinish_verifies hx')
  · intro s p ht hc hkey hbank hlate hdv hmode
    exact letter_answered ht (deskUpdActivate_restarts hc hkey hbank hlate hdv hmode)
  · intro s p ht hc hforce hkey hbank hbank' hlate hlate' hdv hdv' hmode hmode' halone halone'
    have hkey' : p.w 3 = (if bit 0 (p.w 2) then 0x00004824 else 0) := by rw [hforce]; exact hkey
    exact letter_accepted ht (deskUpdActivate_forces hc hkey' hbank hlate hdv hforce hmode halone)
      (deskUpdActivate_forces hc hkey' hbank' hlate' hdv' hforce hmode' halone')
  · intro s p ht hc hkey
    refine letter_answered ht ?_
    rw [deskUpdSetOwnerLock, guardParam_pass (by rcases hkey with h | h <;> simp [hc, h])]
    rfl
  · intro s p ht hrun
    refine letter_answered ht ?_
    rw [deskUpdAbort, check_pass hrun]
    rfl
  · intro s p x d want b ht hc hscope hx hd hphase hwant hb
    refine letter_accepted ht (deskUpdPropagate_offers hc hscope hx hd hphase hwant rfl) ?_
    refine deskUpdPropagate_offers hc hscope (by rwa [post_upd]) (by rwa [post_upd]) hphase ?_ ?_
    · rwa [post_links, post_pos, post_bay]
    · rwa [post_modnum, post_clk]
  · intro s t x hx hphase hstage hend hrcvd hhash ht
    show execUpdVerifyDone s = _
    subst ht
    simp [execUpdVerifyDone, hx, hend, hrcvd, hhash, hphase, hstage, onBank_md]
  · intro s x hx hphase hend
    show execUpdVerifyDone s = _
    simp [execUpdVerifyDone, hx, hphase, hend]
  · intro s k orig scope ws hk hst hkumel h0 h1
    refine ⟨?_, ?_⟩
    · intro hchecks
      show execFirmwareOffer k orig scope ws s = _
      simp [execFirmwareOffer, Nat.not_lt.mpr hk, hst, hkumel, h0, h1, hchecks]
    · intro st hchecks
      show execFirmwareOffer k orig scope ws s = _
      simp [execFirmwareOffer, Nat.not_lt.mpr hk, hst, hkumel, h0, h1, hchecks]
  · intro s t k d hst hoff ht hd
    subst ht
    show execFirmwareAnswer k stOk false s = _
    simp only [execFirmwareAnswer, hst, hoff, hd]
    rfl
  · intro s t k n st d hst hoff ht hd hn
    subst ht
    show execFirmwareAnswer k st true s = _
    simp only [execFirmwareAnswer, hst, hoff, hd, hn]
    rfl
  · intro s k ws x hx
    refine ⟨?_, ?_⟩
    · intro t hops
      show execFirmwareData k x.rcvd ws s = _
      simp [execFirmwareData, hx, hops]
    · intro hops
      show execFirmwareData k x.rcvd ws s = _
      simp [execFirmwareData, hx, hops]
  · intro s k n x hx
    show execFirmwareEnd k n s = _
    simp only [execFirmwareEnd, hx]
  · intro s m st n hst hdst
    show execFirmwareResult m st n s = _
    simp [execFirmwareResult, hst, hdst]
  · intro s a b c t hprop hdue
    show execPropagateTimeout s = _
    simp only [execPropagateTimeout, hprop, hdue, if_true]
  · intro s t hend hkumel hdue
    show execTrialConfirm s = _
    simp [execTrialConfirm, hend, hkumel, hdue]

end Sys2Proof.Machine

/-! SUPPORT. The queries of Table 20.4 read the state and leave it: what their desks answer with, and by `query_keeps` their whole
Letterbox row. -/
namespace Sys2Proof.Machine

/-! ## Desks that only read -/

/-- The desk answers with the state it was given. -/
def ReadsOnly (desk : State → Desk) : Prop := ∀ s, (desk s).2.2 = s

theorem answer_leaves (ws : List Word) (s : State) : (answer ws s).2.2 = s := rfl

theorem deny_leaves (st : Nat) (s : State) : (deny st s).2.2 = s := rfl

theorem guardParam_leaves {b : Bool} {s : State} {k : State → Desk} (hk : (k s).2.2 = s) : (guardParam b s k).2.2 = s := by
  cases b
  · exact deny_leaves _ _
  · exact hk

theorem check_leaves {b : Bool} {st : Nat} {s : State} {k : State → Desk} (hk : (k s).2.2 = s) : (check b st s k).2.2 = s := by
  cases b
  · exact deny_leaves _ _
  · exact hk

theorem withSet_leaves {i : Nat} {s : State} {k : VSet → State → Desk} (hk : ∀ v, (k v s).2.2 = s) : (withSet i s k).2.2 = s := by
  unfold withSet
  split
  · exact deny_leaves _ _
  · exact hk _

/-- A query's row keeps the module where its desk only reads (Table 20.4). -/
theorem query_reads {i : Instr} (op : Nat) {p : Packet} {s : State} {b : Bool} (desk : State → Desk) (hop : quietOp op = true)
    (hrow : exec i s = .next (runLetter op p s b desk)) (hdesk : ReadsOnly desk) :
    Keeps i s fun t s => { s with out := t.out, lb := t.lb, se := t.se, tal := t.tal } :=
  query_keeps op b desk hop hrow fun s => congrArg State.quiet (hdesk s)

section
variable (p : Packet)

theorem deskNvmGetHost_reads : ReadsOnly (deskNvmGetHost p) := fun _ => by
  unfold deskNvmGetHost
  refine guardParam_leaves ?_
  split
  · exact deny_leaves _ _
  · exact answer_leaves _ _

theorem deskNvmGetController_reads : ReadsOnly (deskNvmGetController p) := fun _ => by
  unfold deskNvmGetController
  refine guardParam_leaves ?_
  split
  · exact deny_leaves _ _
  · exact answer_leaves _ _

theorem deskVolGetNamespace_reads : ReadsOnly (deskVolGetNamespace p) := fun _ => by
  unfold deskVolGetNamespace
  refine guardParam_leaves ?_
  split
  · exact deny_leaves _ _
  · exact answer_leaves _ _

theorem deskDrvGetDrive_reads : ReadsOnly (deskDrvGetDrive p) := fun _ => by
  unfold deskDrvGetDrive
  refine guardParam_leaves ?_
  dsimp only
  split
  · exact deny_leaves _ _
  · exact answer_leaves _ _

theorem deskXptGetConnection_reads : ReadsOnly (deskXptGetConnection p) := fun _ => by
  unfold deskXptGetConnection
  refine guardParam_leaves ?_
  dsimp only
  split <;> exact answer_leaves _ _

theorem deskXptGetRegion_reads : ReadsOnly (deskXptGetRegion p) := fun _ => by
  unfold deskXptGetRegion
  refine guardParam_leaves ?_
  dsimp only
  split <;> exact answer_leaves _ _

theorem deskNvmGetTags_reads : ReadsOnly (deskNvmGetTags p) := fun _ => by
  unfold deskNvmGetTags
  refine guardParam_leaves ?_
  split <;> exact answer_leaves _ _

theorem deskVolGetParcel_reads : ReadsOnly (deskVolGetParcel p) := fun _ => by
  unfold deskVolGetParcel
  refine guardParam_leaves ?_
  split
  · exact deny_leaves _ _
  · refine guardParam_leaves ?_
    split <;> exact answer_leaves _ _

end

/-! ## Desks of the events and the lock change the Letterbox alone -/

/-- Behind a check a desk keeps what it keeps where the check passes. -/
theorem guardParam_quiet {b : Bool} {s : State} {k : State → Desk} (hk : (k s).2.2.quiet = s.quiet) : (guardParam b s k).2.2.quiet = s.quiet := by
  cases b
  · rfl
  · exact hk

theorem deskModReadEvents_quiet (p : Packet) (s : State) : (deskModReadEvents p s).2.2.quiet = s.quiet := by
  unfold deskModReadEvents
  refine guardParam_quiet ?_
  simp [answer]

theorem deskModAcquireLock_quiet (p : Packet) (s : State) : (deskModAcquireLock p s).2.2.quiet = s.quiet := by
  unfold deskModAcquireLock
  refine guardParam_quiet ?_
  dsimp only
  split
  · rfl
  · split
    · rfl
    · split
      · exact raise_quiet _ _ _
      · rfl

theorem deskModReleaseLock_quiet (p : Packet) (s : State) : (deskModReleaseLock p s).2.2.quiet = s.quiet := by
  unfold deskModReleaseLock check
  split <;> rfl

theorem deskModSetEventMask_quiet (p : Packet) (s : State) : (deskModSetEventMask p s).2.2.quiet = s.quiet := by
  unfold deskModSetEventMask
  refine guardParam_quiet ?_
  simp [okay]

/-- Settles O55: none of these opcodes wakes the module, is shadowed or enters a mode (`quietOp`), and their desks only read
(`query_reads`); reading events, the lock and the event mask change the Letterbox alone. -/
theorem queriesLeaveTheModule : Obligations.QueriesLeaveTheModule := by
  refine ⟨?_, ?_, ?_, ?_, ?_, ?_, ?_, ?_, ?_, ?_, ?_, ?_, ?_, ?_, ?_, ?_, ?_, ?_, ?_, ?_, ?_, ?_, ?_, ?_,
    ?_, ?_, ?_, ?_, ?_, ?_, ?_, ?_, ?_, ?_, ?_, ?_, ?_, ?_, ?_, ?_, ?_, ?_, ?_, ?_, ?_, ?_, ?_⟩
  · exact fun s p => query_reads 0x0000 okay (by decide) rfl fun _ => rfl
  · exact fun s p => query_reads 0x0001 (deskModGetIdentity p) (by decide) rfl fun _ => answer_leaves _ _
  · exact fun s p => query_reads 0x0002 (deskModGetStatus p) (by decide) rfl fun _ => answer_leaves _ _
  · refine fun s p => query_reads 0x0012 (deskModGetDoor p) (by decide) rfl fun _ => ?_
    unfold deskModGetDoor
    exact guardParam_leaves (answer_leaves _ _)
  · refine fun s p => query_reads 0x0F01 (deskTalRead p) (by decide) rfl fun _ => ?_
    unfold deskTalRead
    exact guardParam_leaves (check_leaves (answer_leaves _ _))
  · refine fun s p => query_reads 0x0F04 (deskTalGetOverflow p) (by decide) rfl fun _ => ?_
    unfold deskTalGetOverflow
    exact guardParam_leaves (answer_leaves _ _)
  · refine fun s p => query_reads 0x0102 (deskPwrGetSlotStatus p) (by decide) rfl fun _ => ?_
    unfold deskPwrGetSlotStatus
    exact guardParam_leaves (answer_leaves _ _)
  · exact fun s p => query_reads 0x0106 (deskPwrGetBudget p) (by decide) rfl fun _ => answer_leaves _ _
  · exact fun s p => query_reads 0x0108 (deskPwrGetFeeds p) (by decide) rfl fun _ => answer_leaves _ _
  · refine fun s p => query_reads 0x0202 (deskNetGetPortStatus p) (by decide) rfl fun _ => ?_
    unfold deskNetGetPortStatus
    exact guardParam_leaves (answer_leaves _ _)
  · refine fun s p => query_reads 0x0206 (deskNetGetQueue p) (by decide) rfl fun _ => ?_
    unfold deskNetGetQueue
    exact guardParam_leaves (answer_leaves _ _)
  · exact fun s p => query_reads 0x020B (deskNetGetEpoch p) (by decide) rfl fun _ => answer_leaves _ _
  · exact fun s p => query_reads 0x0210 (deskNetGetPtp p) (by decide) rfl fun _ => answer_leaves _ _
  · refine fun s p => query_reads 0x0303 (deskQosGetPolicer p) (by decide) rfl fun _ => ?_
    unfold deskQosGetPolicer
    exact guardParam_leaves (answer_leaves _ _)
  · refine fun s p => query_reads 0x0308 (deskQosGetGateStatus p) (by decide) rfl fun _ => ?_
    unfold deskQosGetGateStatus
    exact guardParam_leaves (answer_leaves _ _)
  · refine fun s p => query_reads 0x0309 (deskQosGetNode p) (by decide) rfl fun _ => ?_
    unfold deskQosGetNode
    exact guardParam_leaves (answer_leaves _ _)
  · exact fun s p => query_reads 0x0404 (deskXptGetConnection p) (by decide) rfl (deskXptGetConnection_reads p)
  · exact fun s p => query_reads 0x040A (deskXptGetRegion p) (by decide) rfl (deskXptGetRegion_reads p)
  · exact fun s p => query_reads 0x040F (deskXptGetPool p) (by decide) rfl fun _ => answer_leaves _ _
  · exact fun s p => query_reads 0x0502 (deskNvmGetSubsystem p) (by decide) rfl fun _ => answer_leaves _ _
  · exact fun s p => query_reads 0x0505 (deskNvmGetHost p) (by decide) rfl (deskNvmGetHost_reads p)
  · exact fun s p => query_reads 0x0507 (deskNvmGetController p) (by decide) rfl (deskNvmGetController_reads p)
  · exact fun s p => query_reads 0x050A (deskNvmGetTags p) (by decide) rfl (deskNvmGetTags_reads p)
  · refine fun s p => query_reads 0x0603 (deskVolGetSet p) (by decide) rfl fun _ => ?_
    unfold deskVolGetSet
    exact guardParam_leaves (withSet_leaves fun _ => answer_leaves _ _)
  · exact fun s p => query_reads 0x060A (deskVolGetNamespace p) (by decide) rfl (deskVolGetNamespace_reads p)
  · exact fun s p => query_reads 0x060C (deskVolGetParcel p) (by decide) rfl (deskVolGetParcel_reads p)
  · exact fun s p => query_reads 0x060E (deskVolGetEpoch p) (by decide) rfl fun _ => answer_leaves _ _
  · exact fun s p => query_reads 0x0702 (deskWbfGetStatus p) (by decide) rfl fun _ => answer_leaves _ _
  · refine fun s p => query_reads 0x0704 (deskWbfGetJournal p) (by decide) rfl fun _ => ?_
    unfold deskWbfGetJournal
    exact guardParam_leaves (check_leaves (answer_leaves _ _))
  · refine fun s p => query_reads 0x0802 (deskRedGetHealth p) (by decide) rfl fun _ => ?_
    unfold deskRedGetHealth
    exact guardParam_leaves (withSet_leaves fun _ => answer_leaves _ _)
  · refine fun s p => query_reads 0x0803 (deskRedGetMember p) (by decide) rfl fun _ => ?_
    unfold deskRedGetMember
    exact guardParam_leaves (withSet_leaves fun _ => guardParam_leaves (answer_leaves _ _))
  · refine fun s p => query_reads 0x0809 (deskRedReadBadRanges p) (by decide) rfl fun _ => ?_
    unfold deskRedReadBadRanges
    exact guardParam_leaves (withSet_leaves fun _ => answer_leaves _ _)
  · refine fun s p => query_reads 0x0902 (deskDrvGetPort p) (by decide) rfl fun _ => ?_
    unfold deskDrvGetPort
    exact guardParam_leaves (answer_leaves _ _)
  · exact fun s p => query_reads 0x0903 (deskDrvGetDrive p) (by decide) rfl (deskDrvGetDrive_reads p)
  · exact fun s p => query_reads 0x0A01 (deskKeyGetIdentityKey p) (by decide) rfl fun _ => answer_leaves _ _
  · refine fun s p => query_reads 0x0A08 (deskKeyGetSlot p) (by decide) rfl fun _ => ?_
    unfold deskKeyGetSlot
    exact guardParam_leaves (answer_leaves _ _)
  · exact fun s p => query_reads 0x0B01 (deskPairGetStatus p) (by decide) rfl fun _ => answer_leaves _ _
  · exact fun s p => query_reads 0x0C01 (deskStkGetStatus p) (by decide) rfl fun _ => answer_leaves _ _
  · exact fun s p => query_reads 0x0D01 (deskMemGetStatus p) (by decide) rfl fun _ => answer_leaves _ _
  · refine fun s p => query_reads 0x0D02 (deskMemReadLog p) (by decide) rfl fun _ => ?_
    unfold deskMemReadLog
    exact guardParam_leaves (answer_leaves _ _)
  · refine fun s p => query_reads 0x0D04 (deskMemGetScrub p) (by decide) rfl fun _ => ?_
    unfold deskMemGetScrub
    exact guardParam_leaves (answer_leaves _ _)
  · exact fun s p => query_reads 0x0D06 (deskMemGetIdleScrub p) (by decide) rfl fun _ => answer_leaves _ _
  · exact fun s p => query_reads 0x0E01 (deskUpdGetStatus p) (by decide) rfl fun _ => answer_leaves _ _
  · exact fun s p => query_keeps 0x0013 _ (deskModReadEvents p) (by decide) rfl (deskModReadEvents_quiet p)
  · exact fun s p => query_keeps 0x0010 _ (deskModAcquireLock p) (by decide) rfl (deskModAcquireLock_quiet p)
  · exact fun s p => query_keeps 0x0011 _ (deskModReleaseLock p) (by decide) rfl (deskModReleaseLock_quiet p)
  · exact fun s p => query_keeps 0x0014 _ (deskModSetEventMask p) (by decide) rfl (deskModSetEventMask_quiet p)

end Sys2Proof.Machine
